-- ==== Sys2Proof/Word.lean ====
section
/-! DEFINITION. The word types of the Prothes PT16 model: slots, lines, addresses, nodes, tags, register words and time. -/
namespace Sys2Proof

/-- One byte. -/
abbrev Byte := BitVec 8
/-- One 32-bit register (21_register_reference.md R729). -/
abbrev Word := BitVec 32
/-- One 16-byte slot of a flit (04_derzon_link_layer.md, The flit). -/
abbrev Slot := BitVec 128
/-- One 64-byte line; byte i is bits 8i+7 to 8i (00_scope.md R7). -/
abbrev Line := BitVec 512
/-- A 52-bit byte address (03_nodes_addresses_routing.md). -/
abbrev Addr := BitVec 52
/-- A 20-bit node ID (03_nodes_addresses_routing.md R77). -/
abbrev Node := BitVec 20
/-- A 7-bit tenant ID (12_tenants.md). -/
abbrev Tenant := BitVec 7
/-- A 12-bit transaction tag (05_derzon_messages.md R172). -/
abbrev Tag := BitVec 12
/-- A fabric time or an interval of it, in units of 2^-32 ns (18_time_and_power.md R655). -/
abbrev Time := Nat

/-- One nanosecond in the unit of `Time`. -/
def nsec (n : Nat) : Time := n * 4294967296
/-- One microsecond in the unit of `Time`. -/
def usec (n : Nat) : Time := nsec (n * 1000)
/-- One millisecond in the unit of `Time`. -/
def msec (n : Nat) : Time := usec (n * 1000)

end Sys2Proof
end

