-- ==== Sys2Proof/Syntax.lean ====
section
/-!
DEFINITION. The commands the chiplet takes from outside, as data, and what they carry: Derzon messages and flits,
the party that makes a register access, and facts of the environment (straps, flash contents, lane repair).
-/
namespace Sys2Proof

/-- A Derzon message (05_derzon_messages.md R172): the fields of its header slot, and its slots 1 to LEN. -/
structure Msg where
  /-- Bits 7:0. -/
  op : BitVec 8
  /-- Bits 12:8, the number of slots minus one. -/
  len : BitVec 5
  /-- Bits 15:13, reserved. -/
  rsv : BitVec 3
  /-- Bits 22:16. -/
  ten : Tenant
  /-- Bit 23, reserved. -/
  rsv23 : Bool
  /-- Bits 43:24. -/
  src : Node
  /-- Bits 63:44. -/
  dst : Node
  /-- Bits 75:64. -/
  tag : Tag
  /-- Bits 91:76. -/
  echk : BitVec 16
  /-- Bits 107:92. -/
  poison : BitVec 16
  /-- Bit 108. -/
  rcm : Bool
  /-- Bit 109. -/
  spec : Bool
  /-- Bits 122:110. -/
  fspec : BitVec 13
  /-- Bits 127:123. -/
  htx : BitVec 5
  /-- Slots 1 to LEN. -/
  body : List Slot
deriving DecidableEq, Repr

/-- A 256-byte flit (04_derzon_link_layer.md R117): its header fields, its 15 slots and the CRC of bytes 255:248. -/
structure Flit where
  /-- Bits 11:0. -/
  seq : BitVec 12
  /-- Bits 23:12. -/
  ack : BitVec 12
  /-- Bits 27:24. -/
  typ : BitVec 4
  /-- Bits 30:28. -/
  cls0 : BitVec 3
  /-- Bits 42:31. -/
  tot0 : BitVec 12
  /-- Bits 45:43. -/
  cls1 : BitVec 3
  /-- Bits 57:46. -/
  tot1 : BitVec 12
  /-- Bits 63:58, reserved. -/
  rsv : BitVec 6
  /-- Slots 0 to 14. -/
  slots : List Slot
  /-- Bytes 248 to 255. -/
  crc : BitVec 64
deriving DecidableEq, Repr

/-- The party that makes a register access (21_register_reference.md R730, R735). -/
inductive Party where
  /-- Umevo in machine privilege, over the internal path. -/
  | umevoM
  /-- Umevo in user privilege, over the internal path. -/
  | umevoU
  /-- The I3C or I2C controller of this ID. -/
  | i3c (id : BitVec 7)
  /-- The fabric node that sent the message of class MGT, and the port it came in on. -/
  | mgt (src : Node)
deriving DecidableEq, Repr

/-- What the reads of boot step 2 met (15 R580): the 64-bit fuse words, of which one that is missing is zero, and the
words that SECDED corrected and those it could not. -/
structure FuseRead where
  words : List (BitVec 64)
  corrected : List Nat
  bad : List Nat
deriving DecidableEq, Repr

/-- What the SPI NOR flash answers to one boot fetch (15 R592): its SFDP area, and the image read from its base. -/
structure SpiFlash where
  /-- The flash answers at all. -/
  answers : Bool
  /-- The bytes of the SFDP area from address 0. -/
  sfdp : List Byte
  /-- The bytes of the image that the fetch reads, from the image's first byte. -/
  image : List Byte
deriving DecidableEq, Repr

/-- The monitored supplies (19 R705). -/
inductive Supply where
  | core | sram | phy
deriving DecidableEq, Repr

/-- The lanes UCIe training repaired (04 R152). -/
structure LaneRepair where
  rxCtl : Bool
  txCtl : Bool
  rxCount : BitVec 3
  txCount : BitVec 3
deriving DecidableEq, Repr

/-- An I3C or I2C private write (21 R733, R734): the address it is sent to, its bytes, and the index of the first
byte with an SDR parity error. -/
structure I3cWrite where
  i2c : Bool
  addr : BitVec 7
  bytes : List Byte
  parityAt : Option Nat
deriving DecidableEq, Repr


/-- The commands of the chiplet, one constructor for each row of spec/opcode_table.json.
`p` is a Tenon port, `sl` a physical slice, `ls` a logical slice, `trk` a tracker, `m` a message, `f` a flit,
`who` the party that makes a register access, `v` the value written. -/
inductive Instr where
  /-- COLD_RESET (R576): RST_N is asserted, or VDD_AON or VDD_IO leaves its range, and the whole chiplet including the always-on domain is reset. -/
  | coldReset
  /-- RST_N_DEASSERT (R578): RST_N deasserts, the straps are sampled and boot step 1 brings up the always-on domain and the I3C target. -/
  | rstNDeassert (addrSel : BitVec 3) (bootSel : Bool)
  /-- BOOT_FUSE (R580): On VDD_CORE and VDD_SRAM power-good, boot step 2 reads the SECDED-protected fuses. -/
  | bootFuse (read : FuseRead)
  /-- BOOT_ROM (R591): Boot step 3 completes: Umevo checks the ROM CRC-32 and clears the image buffer. -/
  | bootRom (crcOk : Bool)
  /-- SPI_IMAGE_FETCH (R592): The fetch of image A or B from SPI NOR completes, after SFDP discovery. -/
  | spiImageFetch (flash : SpiFlash)
  /-- BOOT_ICMD_START (R593): A write of GLB_BOOT_ICMD.START during step 4 on I3C sets the image word pointer to zero. -/
  | bootIcmdStart (who : Party)
  /-- BOOT_IDATA_WRITE (R593): A write of GLB_BOOT_IDATA stores the next image word delivered over I3C. -/
  | bootIdataWrite (who : Party) (v : Word)
  /-- BOOT_ICMD_LOAD (R593): A write of GLB_BOOT_ICMD.LOAD submits the delivered image and enters step 5. -/
  | bootIcmdLoad (who : Party)
  /-- BOOT_AUTH (R558): Validation of the base image completes, and the boot either goes on to step 6 or returns to step 4 with the next source. -/
  | bootAuth
  /-- BOOT_INIT (R562): Boot step 6 completes: the Pattern is applied, the slice map is built, the arrays are initialized and the Pattern is sealed. -/
  | bootInit
  /-- BOOT_TRAIN_END (R591): Step 7 ends when every port that is not OFF has trained or failed one attempt, or when its bound expires. -/
  | bootTrainEnd
  /-- WRST_N_ASSERT (R763): An assertion of WRST_N starts a warm reset at its entry step. -/
  | wrstNAssert
  /-- WARM_RESET_FLUSH_END (R421): The HC write-back of a warm reset ends, the ports are reset, state is cleared and the boot restarts at step 2. -/
  | warmResetFlushEnd
  /-- WRST_N_DEASSERT (R763): A deassertion of WRST_N lets a boot held at step 2 proceed. -/
  | wrstNDeassert
  /-- GLB_RST_WARM (R588): GLB_RST_CMD.WARM written with the KEY from an authorized party starts a warm reset. -/
  | glbRstWarm (who : Party) (key : BitVec 16)
  /-- GLB_RST_UMEVO (R588): GLB_RST_CMD.UMEVO written with the KEY from an authorized party starts an Umevo reset. -/
  | glbRstUmevo (who : Party) (key : BitVec 16)
  /-- UNLK_NONCE (R583): GLB_UNLK_CMD.NONCE draws 32 fresh bytes into the nonce registers and resets the record pointer. -/
  | unlkNonce (who : Party)
  /-- UNLK_DATA_WRITE (R583): A write of GLB_UNLK_DATA stores the next word of the unlock record. -/
  | unlkDataWrite (who : Party) (v : Word)
  /-- UNLK_VERIFY (R583): GLB_UNLK_CMD.VERIFY starts verification of the unlock record against slot 3, the nonce and DEVICE_ID. -/
  | unlkVerify (who : Party)
  /-- UNLK_VERIFY_DONE (R583): Verification completes, records its RESULT, consumes the nonce and sets PEND on success. -/
  | unlkVerifyDone
  /-- FUSE_REVOKE (R581): GLB_FUSE_CMD.REVOKE from machine-privilege Umevo after sealing blows the revocation fuse of a slot other than the one in use. -/
  | fuseRevoke (who : Party) (slot : BitVec 2)
  /-- TEST_EN_ASSERT (R761): TEST_EN at 1 holds the chiplet in warm reset. -/
  | testEnAssert
  /-- SUPPLY_FAULT (R705): A supply has been beyond its monitor limit for 10 µs, and the chiplet enters the safe state with cause 0x2D. -/
  | supplyFault (sup : Supply)
  /-- VDD_PHY_RETURN (R778): VDD_PHY returns to range and each port that is not OFF takes a port reset. -/
  | vddPhyReturn
  /-- TEMP_WARN (R704): A sensor reads at or above TWARN and safety source 3 is raised. -/
  | tempWarn (temp : BitVec 8)
  /-- TEMP_TRIP (R704): A sensor has read at or above 135 °C for 1 ms, and the chiplet enters the safe state with cause 0x2C. -/
  | tempTrip (temp : BitVec 8)
  /-- REFCLK_LOSS (R74): A loss of the reference clock is detected, the timebase moves to the backup oscillator, the ports go down and a safety event is raised. -/
  | refclkLoss
  /-- REFCLK_RETURN (R666): The reference has been present and in tolerance for 100 µs, the timebase takes it back without a step and the ports are reset. -/
  | refclkReturn
  /-- LL_PAYLOAD_RX (R130): A PAYLOAD flit is received, checked by CRC and sequence number, accepted or discarded, and its ACK and credit totals are processed. -/
  | llPayloadRx (p : Nat) (f : Flit)
  /-- LL_IDLE_RX (R131): An IDLE flit is received, and its SEQ, ACK and credit totals are processed. -/
  | llIdleRx (p : Nat) (f : Flit)
  /-- LL_NAK_RX (R135): A NAK flit is received, and the transmitter replays from ACK + 1. -/
  | llNakRx (p : Nat) (f : Flit)
  /-- LL_INIT_RX (R124): An INIT flit is received and checked, and it advances initialization to RX_OK or ACTIVE. -/
  | llInitRx (p : Nat) (f : Flit)
  /-- LL_DOWN_NOTICE_RX (R146): A DOWN_NOTICE with a good CRC is received and a link reset starts. -/
  | llDownNoticeRx (p : Nat) (f : Flit)
  /-- LL_DRAIN_DONE (R146): The receive buffers are drained after a link reset, and training or the FULL initialization begins. -/
  | llDrainDone (p : Nat)
  /-- LL_ACK_DELAY_EXPIRY (R134): The acknowledgement delay expires, and accepted PAYLOAD flits are reflected in an ACK. -/
  | llAckDelayExpiry (p : Nat)
  /-- LL_NAK_RESEND (R132): A pending NAK has not been answered within the replay timeout and is sent again. -/
  | llNakResend (p : Nat)
  /-- LL_REPLAY_TIMEOUT (R136): The replay timer expires and the transmitter replays from its oldest flit. -/
  | llReplayTimeout (p : Nat)
  /-- UCIE_PHY_RETRAIN (R144): The UCIe physical layer enters PHY retraining or reports an error, and the port retrains. -/
  | uciePhyRetrain (p : Nat)
  /-- LL_RETRAIN_CMD (R152): A write of PRTn_LL_CTL.RETRAIN while ACTIVE starts a retrain. -/
  | llRetrainCmd (p : Nat) (who : Party)
  /-- UCIE_RETRAIN_DONE (R144): The UCIe retrain completes, and RESUME INIT flits are exchanged to replay from the partner's ACK. -/
  | ucieRetrainDone (p : Nat) (rep : LaneRepair)
  /-- LL_RETRAIN_TIMEOUT (R145): A retrain that has not returned to ACTIVE within 1 ms ends in a link reset with cause 0x7. -/
  | llRetrainTimeout (p : Nat)
  /-- UCIE_TRAIN_DONE (R124): UCIe training reaches the active state and the port enters INIT. -/
  | ucieTrainDone (p : Nat) (rates : BitVec 3) (rep : LaneRepair)
  /-- UCIE_TRAIN_FAIL (R151): UCIe training fails with cause 0xD and is retried from UCIe reset. -/
  | ucieTrainFail (p : Nat)
  /-- LL_LINK_RESET_TIMEOUT (R148): A link reset that fails to reach ACTIVE within 10 ms counts toward FAILED. -/
  | llLinkResetTimeout (p : Nat)
  /-- PORT_RESET (R150): A write of PRTn_LL_CTL.PORT_RESET sends DOWN_NOTICE 0x8, then runs UCIe reset, full training and a link reset. -/
  | portReset (p : Nat) (who : Party)
  /-- UCIE_LOW_POWER_REQUEST (R112): A partner's request for L1 or L2 is refused. -/
  | ucieLowPowerRequest (p : Nat)
  /-- VENDOR_SIDEBAND_RX (R112): A vendor-defined UCIe sideband message is discarded. -/
  | vendorSidebandRx (p : Nat) (bits : Slot)
  /-- MESSAGE_FORWARD (R87): A message not addressed to the home node ID is checked and forwarded, or discarded, according to the port roles. -/
  | messageForward (p : Nat) (m : Msg)
  /-- RD_SHARED (R217): A RdShared is checked and admitted or chained, snoops the owner and completes with CompData. -/
  | rdShared (p : Nat) (m : Msg)
  /-- RD_UNIQUE (R217): A RdUnique invalidates the other holders and grants UC or UD, in home-collects or requester-collects mode. -/
  | rdUnique (p : Nat) (m : Msg)
  /-- RD_ONCE (R217): A RdOnce returns the line with the requester left in I. -/
  | rdOnce (p : Nat) (m : Msg)
  /-- RD_NO_SNP (R217): A RdNoSnp returns the home's copy with no regard to the record. -/
  | rdNoSnp (p : Nat) (m : Msg)
  /-- CLEAN_UNIQUE (R218): A CleanUnique upgrades the requester, or is handled as RdUnique when it is not recorded exactly. -/
  | cleanUnique (p : Nat) (m : Msg)
  /-- MAKE_UNIQUE (R218): A MakeUnique invalidates every other copy, discarding its dirty data, and grants UD. -/
  | makeUnique (p : Nat) (m : Msg)
  /-- EVICT_CLEAN (R220): An EvictClean removes an exactly recorded sender and is answered Comp. -/
  | evictClean (p : Nat) (m : Msg)
  /-- WR_BACK_FULL (R220): A WrBackFull writes the owner's line and is answered Comp. -/
  | wrBackFull (p : Nat) (m : Msg)
  /-- WR_UNIQUE (R222): A WrUnique snoops, merges or writes the line and is answered Comp once it is visible. -/
  | wrUnique (p : Nat) (m : Msg)
  /-- WR_POSTED (R308): A WrPosted enters the posted write buffer, is answered Comp and is dispatched to its slice. -/
  | wrPosted (p : Nat) (m : Msg)
  /-- WR_NT (R312): A WrNT is merged into a combining buffer entry and is answered Comp. -/
  | wrNt (p : Nat) (m : Msg)
  /-- WR_NO_SNP (R222): A WrNoSnp writes the enabled bytes with no regard to the record. -/
  | wrNoSnp (p : Nat) (m : Msg)
  /-- RESERVE_RD (R320): A ReserveRd returns the line in state I and sets a reservation, possibly taking a hold. -/
  | reserveRd (p : Nat) (m : Msg)
  /-- COND_WR (R322): A CondWr writes when its reservation holds and is answered CondOk or CondFail. -/
  | condWr (p : Nat) (m : Msg)
  /-- ATOMIC_FAR (R327): An AtomicFar performs its AOP on the home's copy and returns AtomicData or Comp. -/
  | atomicFar (p : Nat) (m : Msg)
  /-- GATHER_RD (R331): A GatherRd checks its elements and dispatches each element that does not fault as a read transaction. -/
  | gatherRd (p : Nat) (m : Msg)
  /-- GATHER_RD_FF (R332): A GatherRdFF performs its elements in index order up to the first fault. -/
  | gatherRdFf (p : Nat) (m : Msg)
  /-- SCATTER_WR (R331): A ScatterWr checks its elements and dispatches each element that does not fault as a write transaction. -/
  | scatterWr (p : Nat) (m : Msg)
  /-- SCATTER_WR_FF (R333): A ScatterWrFF performs its elements one at a time in index order up to the first fault. -/
  | scatterWrFf (p : Nat) (m : Msg)
  /-- GATHER_SCATTER_COMPLETE (R335): Every element is finished, and the coordinating slice sends GatherData or ScatterRsp. -/
  | gatherScatterComplete (sl g : Nat)
  /-- FENCE_W (R315): A FenceW flushes its key's combining entries, orders later posted writes and is answered Comp at once. -/
  | fenceW (p : Nat) (m : Msg)
  /-- FENCE_FULL (R316): A FenceFull flushes its key's combining entries and waits for the writes accepted before it. -/
  | fenceFull (p : Nat) (m : Msg)
  /-- FENCE_FULL_COMP (R316): Every covered write has become visible and the FenceFull's Comp is sent. -/
  | fenceFullComp (p fence : Nat)
  /-- POSTED_WRITE_COMMIT (R309): A posted write commits once every earlier posted write of its port and tenant has committed. -/
  | postedWriteCommit (p w : Nat)
  /-- CLAMP_ALLOC (R437): A ClampAlloc takes the lowest FREE entry as LOCK or BARRIER, or is answered ClampFull. -/
  | clampAlloc (p : Nat) (m : Msg)
  /-- CLAMP_FREE (R439): A ClampFree from the owner breaks the waiters and frees the entry; otherwise it is refused. -/
  | clampFree (p : Nat) (m : Msg)
  /-- LOCK_ACQ (R441): A LockAcq is granted at once or waits in grant order. -/
  | lockAcq (p : Nat) (m : Msg)
  /-- LOCK_REL (R444): A LockRel releases the holder's grant and grants the next waiters in grant order. -/
  | lockRel (p : Nat) (m : Msg)
  /-- BARRIER_ARRIVE (R450): A BarrierArrive adds its weight, waits and releases the episode with BarrierDone, or overruns. -/
  | barrierArrive (p : Nat) (m : Msg)
  /-- CLAMP_SET_PRIO (R446): A ClampSetPrio moves a waiter, notes a holder or has no effect. -/
  | clampSetPrio (p : Nat) (m : Msg)
  /-- CLAMP_INGRESS_RETRY (R443): A LockAcq that waited for a free record reaches the bank and takes its stamp. -/
  | clampIngressRetry (ls : Nat)
  /-- SNP_RSP (R211): A SnpRsp is matched to its copy, stops its timer, updates the record and may complete the transaction. -/
  | snpRsp (p : Nat) (m : Msg)
  /-- SNP_RSP_DATA (R264): A SnpRspData is matched, its dirty data is used only when it answers the exact snoop to the owner, and it may complete the transaction. -/
  | snpRspData (p : Nat) (m : Msg)
  /-- COMP_ACK (R229): A CompAck closes the Shed entry of a home-collects transaction. -/
  | compAck (p : Nat) (m : Msg)
  /-- SETTLE (R232): A Settle closes the Shed entry of a requester-collects transaction. -/
  | settle (p : Nat) (m : Msg)
  /-- INGRESS_RETRY (R255): A request that waited at the slice ingress for a tracker, chain slot or window way reaches the admission point again. -/
  | ingressRetry (sl : Nat) (ten : Tenant)
  /-- MEM_DATA (R226): A MemData supplies data to its transaction or fill, or is discarded and counted. -/
  | memData (p : Nat) (m : Msg)
  /-- MEM_CANCELLED (R178): A MemCancelled ends the memory wait of a tracker and frees it. -/
  | memCancelled (p : Nat) (m : Msg)
  /-- MEM_WR_ACK (R397): A MemWrAck ends the outstanding MemWr of a line and may free an eviction buffer entry or end a maintenance operation. -/
  | memWrAck (p : Nat) (m : Msg)
  /-- MEM_OFFER_RSP (R399): A MemOfferRsp resolves a clean offer, sending MemWr when it accepts. -/
  | memOfferRsp (p : Nat) (m : Msg)
  /-- CENSUS_RSP (R374): A CensusRsp contributes to the rebuilt record of its line. -/
  | censusRsp (p : Nat) (m : Msg)
  /-- SEIZE_ACK (R239): A SeizeAck is consumed and may close the Shed entry after a settle timeout. -/
  | seizeAck (p : Nat) (m : Msg)
  /-- RCV_INV_RSP (R370): A RcvInvRsp is consumed, and for a recall its dirty data is written to the home's copy. -/
  | rcvInvRsp (p : Nat) (m : Msg)
  /-- REG_RD (R190): A RegRd from a register master is served by the decoder and answered RegRsp. -/
  | regRd (p : Nat) (m : Msg)
  /-- REG_WR (R190): A RegWr from a register master is performed and answered RegRsp. -/
  | regWr (p : Nat) (m : Msg)
  /-- INT_ACK (R613): An IntAck that matches the outstanding Interrupt ends the vector's delivery. -/
  | intAck (p : Nat) (m : Msg)
  /-- IDLE_HINT (R614): An IdleHint sets or clears the IDLE bit of the matching vectors. -/
  | idleHint (p : Nat) (m : Msg)
  /-- LATENCY_TOLERANCE (R669): A LatencyTolerance sets the tenant's tolerance and is answered MgtAck at once or after the wake. -/
  | latencyTolerance (p : Nat) (m : Msg)
  /-- LATENCY_ACK_AFTER_WAKE (R669): Every slice mapped to the tenant fits its lowered tolerance and the MgtAck is sent. -/
  | latencyAckAfterWake (ten : Tenant)
  /-- TIMESYNC_REQUEST_RX (R665): A TimeSync request on a leader port is timestamped and answered. -/
  | timesyncRequestRx (p : Nat) (m : Msg)
  /-- TIMESYNC_RESPONSE_RX (R664): A TimeSync response gives offset and delay and is accepted or rejected by the servo. -/
  | timesyncResponseRx (p : Nat) (m : Msg)
  /-- TIMESYNC_INTERVAL (R665): The exchange interval expires and the follower sends a TimeSync request. -/
  | timesyncInterval
  /-- SNOOP_TIMEOUT_OWNER (R235): The timer of an exact snoop to the owner expires and the line is seized. -/
  | snoopTimeoutOwner (sl trk : Nat)
  /-- SNOOP_TIMEOUT_SHARER (R236): The timer of another copy expires, its nodes are kept as sharers and RcvInv is sent. -/
  | snoopTimeoutSharer (sl trk : Nat) (dst : Node) (agg : Bool)
  /-- CENSUS_SNOOP_TIMEOUT (R283): A census snoop times out and is handled as an owner seizure. -/
  | censusSnoopTimeout (sl trk : Nat) (a : Addr) (dst : Node) (agg : Bool)
  /-- RECALL_COPY_TIMEOUT (R370): A recall copy times out, the home's copy is poisoned and the copy's nodes are recorded as sharers. -/
  | recallCopyTimeout (sl trk : Nat) (a : Addr) (dst : Node)
  /-- SETTLE_TIMEOUT (R237): No Settle within the snoop timeout: RcvInv and SeizeNotice are sent and the nodes are restored as sharers. -/
  | settleTimeout (sl trk : Nat)
  /-- SEIZE_CLOSE_TIMEOUT (R237): One further snoop timeout without SeizeAck closes the Shed entry. -/
  | seizeCloseTimeout (sl trk : Nat)
  /-- COMP_ACK_TIMEOUT (R238): No CompAck within one snoop timeout closes the entry and writes any unwritten dirty data. -/
  | compAckTimeout (sl trk : Nat)
  /-- MEMRD_TIMEOUT (R241): A MemRd without a response completes with poisoned data, or frees its tracker when its data is no longer needed. -/
  | memrdTimeout (sl trk : Nat)
  /-- MEMWR_TIMEOUT (R241): A MemWr without MemWrAck logs the line as an uncorrected error of the tenant. -/
  | memwrTimeout (sl : Nat) (tag : Tag)
  /-- MEM_OFFER_TIMEOUT (R399): An offer without a response within the snoop timeout counts as declined. -/
  | memOfferTimeout (sl : Nat) (tag : Tag)
  /-- COMPANION_FILL (R395): An admitted companion fill sends MemRd, or ends at once. -/
  | companionFill (sl trk : Nat)
  /-- COMPANION_FILL_TIMEOUT (R396): A companion fill whose MemRd is unanswered is abandoned and counted. -/
  | companionFillTimeout (sl trk : Nat)
  /-- WINDOW_ENTRY_EXPIRY (R268): A DONE or LOST window entry stops being live once TWIN has passed. -/
  | windowEntryExpiry (ls wset : Nat)
  /-- RSV_HOLD_TIMEOUT (R325): A reservation hold ends when 2 µs pass without its CondWr. -/
  | rsvHoldTimeout (sl : Nat) (a : Addr)
  /-- CWB_TIMEOUT (R313): CWB_TMO passes since a combining entry was taken and the entry is flushed. -/
  | cwbTimeout (p e : Nat)
  /-- SF_SCRUB_PASS (R366): The scrubber reads and checks SF entries, correcting and re-reading them. -/
  | sfScrubPass (sl : Nat) (hard : List (Nat × Nat))
  /-- HC_SCRUB_PASS (R404): The scrubber reads the HC tags and the valid codewords. -/
  | hcScrubPass (sl : Nat) (hard : List (Nat × Nat))
  /-- SF_RDSEL_GO (R378): A diagnostic read of one SF entry at SET and WAY. -/
  | sfRdselGo (who : Party) (sl : Nat) (v : Word)
  /-- SF_LOOSE_CLEAR (R371): SLCn_SF_LOOSE.CLEAR clears every LOOSE bit of the slice. -/
  | sfLooseClear (who : Party) (sl : Nat)
  /-- HC_DISABLE_REQUEST (R415): DISABLE = 1 in ENABLED enters DRAINING and aborts context 0; in DRAINING it clears PEND_EN. -/
  | hcDisableRequest (who : Party)
  /-- HC_ENABLE_REQUEST (R416): DISABLE = 0 returns to ENABLED from DISABLED, or sets PEND_EN in DRAINING. -/
  | hcEnableRequest (who : Party)
  /-- HC_DRAIN_COMPLETE (R415): The drain walk and the eviction buffers are empty, and the mode becomes DISABLED, or ENABLED if pending. -/
  | hcDrainComplete
  /-- HCM_MOP_CLEAN (R409): Maintenance GO with OP CLEAN writes dirty sub-blocks to memory. -/
  | hcmMopClean (who : Party) (v : Word)
  /-- HCM_MOP_CLEAN_INV (R409): Maintenance GO with OP CLEAN_INV writes back and invalidates. -/
  | hcmMopCleanInv (who : Party) (v : Word)
  /-- HCM_MOP_INV_CLEAN (R409): Maintenance GO with OP INV_CLEAN invalidates only clean sub-blocks. -/
  | hcmMopInvClean (who : Party) (v : Word)
  /-- HCM_RNG_CLEAN (R411): HCM_RNG_CMD.GO with OP CLEAN starts a context-0 walk that cleans the range. -/
  | hcmRngClean (who : Party) (v : Word)
  /-- HCM_RNG_CLEAN_INV (R411): HCM_RNG_CMD.GO with OP CLEAN_INV starts a context-0 walk that cleans and invalidates the range. -/
  | hcmRngCleanInv (who : Party) (v : Word)
  /-- HCM_RNG_INV_CLEAN (R411): HCM_RNG_CMD.GO with OP INV_CLEAN starts a context-0 walk that invalidates clean sub-blocks. -/
  | hcmRngInvClean (who : Party) (v : Word)
  /-- HCM_RNG_ABORT (R419): HCM_RNG_CMD.ABORT stops context 0 after its open sets close. -/
  | hcmRngAbort (who : Party)
  /-- RANGE_ENGINE_SET (R411): A range-engine context opens the set entry of its next HC set and applies its OP. -/
  | rangeEngineSet (sl ctx : Nat)
  /-- SLICE_FAULT (R27): An uncorrectable slice fault fences the slice and chooses a replacing spare or rehashes. -/
  | sliceFault (sl : Nat) (cause : BitVec 8)
  /-- HC_SCANOUT_DONE (R516): The scan-out of HC tags and eviction records ends; poisoned MemWr messages and loss-map entries follow. -/
  | hcScanoutDone (sl : Nat)
  /-- SF_SCANOUT_DONE (R372): The scan-out of SF and Clamp entries completes and delivers hints and LOOSE sets. -/
  | sfScanoutDone (sl : Nat)
  /-- SCANOUT_STALL (R372): Scan-out delivers nothing for 1 ms and every undelivered set becomes LOOSE. -/
  | scanoutStall (sl : Nat)
  /-- EVICTION_HOLD_END (R518): T has passed since the fence and the eviction lines stop counting as MemWr outstanding. -/
  | evictionHoldEnd (sl : Nat)
  /-- CENSUS_SET_START (R373): Census admits the set entry of its next set and sends CensusSnp for each hint. -/
  | censusSetStart (sl : Nat)
  /-- MIG_START (R514): GLB_MIG_CTL.START begins a migration, or sets REFUSED. -/
  | migStart (who : Party) (v : Word)
  /-- MIG_AUTO_START (R508): Umevo starts the migration of a predicted slice once a spare is available and no migration runs. -/
  | migAutoStart (sl : Nat)
  /-- MIG_ABORT (R514): GLB_MIG_CTL.ABORT before handover step 4 ends the migration and returns the target to SPARE. -/
  | migAbort (who : Party)
  /-- MIG_LIMIT_WRITE (R510): A write of GLB_MIG_LIMIT paces the copy engine. -/
  | migLimitWrite (who : Party) (v : Word)
  /-- MIG_COPY_UNIT (R510): The copy engine copies unit W to the target under a set entry and advances the watermark. -/
  | migCopyUnit
  /-- MIG_HANDOVER_COMPLETE (R513): The source drains, the bank is copied, the map is repointed and the held requests are released. -/
  | migHandoverComplete
  /-- REPLACE_REQUEST_PERIODIC (R528): Every 1,024 ms while DEGRADED, ReplaceRequest is sent again. -/
  | replaceRequestPeriodic
  /-- LOSS_LOG_NEXT (R532): GLB_LOSS_HEAD_HI.NEXT removes the oldest loss log entry. -/
  | lossLogNext (who : Party)
  /-- DMON_START (R63): SLCn_DMON_CTL.START begins one SPEED measurement. -/
  | dmonStart (who : Party) (sl : Nat)
  /-- DMON_CLR_MIN (R63): SLCn_DMON_CTL.CLR_MIN sets FACTOR.MIN to 0xFFFF. -/
  | dmonClrMin (who : Party) (sl : Nat)
  /-- DMON_AUTO_DUE (R72): An automatic SPEED measurement falls due and starts, or is deferred. -/
  | dmonAutoDue (sl : Nat)
  /-- DMON_MEASURE_END (R60): A SPEED window ends, COUNT and FACTOR update and the power target is recomputed. -/
  | dmonMeasureEnd (sl : Nat) (count : Nat)
  /-- AGEING_DUE (R60): The ageing interval expires and the FRESH and SPEED rings are measured back to back. -/
  | ageingDue (sl : Nat)
  /-- AGEING_END (R61): The ageing measurement ends, AGE updates and the ageing predicates are evaluated. -/
  | ageingEnd (sl : Nat) (speed fresh : Nat)
  /-- HPROBE_GO (R103): GLB_HPROBE_ADDR_HI.GO clears VALID and starts a hash probe. -/
  | hprobeGo (who : Party) (v : Word)
  /-- HPROBE_DONE (R103): The probe result is written and VALID becomes 1. -/
  | hprobeDone
  /-- CLAMP_BREAK (R453): SLCn_CLAMP_BREAK.GO makes an allocated entry BROKEN with BREAK_CMD and answers its waiters. -/
  | clampBreak (who : Party) (sl : Nat) (idx : BitVec 12)
  /-- CLAMP_HSEL_GO (R457): SLCn_CLAMP_HSEL.GO reads one bank entry into the HVAL registers. -/
  | clampHselGo (who : Party) (sl : Nat) (idx : BitVec 12)
  /-- TENANT_RESET_GO (R483): A write of TNTn_RST_CMD.GO sets the tenant RESETTING and hardware starts QUIESCE. -/
  | tenantResetGo (who : Party) (ten : Tenant)
  /-- TENANT_DRAIN (R484): Umevo starts DRAIN, which waits for every admitted transaction of the tenant to close. -/
  | tenantDrain (ten : Tenant)
  /-- TENANT_INVALIDATE (R486): Umevo starts INVALIDATE, which back-invalidates every SF entry of the tenant. -/
  | tenantInvalidate (ten : Tenant)
  /-- TENANT_CLEAN (R487): Umevo starts CLEAN, which runs CLEAN_INV with range context 1 and the tenant filter. -/
  | tenantClean (ten : Tenant)
  /-- TENANT_REVOKE (R454): Umevo starts REVOKE, which frees or breaks the tenant's Clamp entries in every bank. -/
  | tenantRevoke (ten : Tenant)
  /-- TENANT_CLEAR (R488): CLEAR clears reservations, lost records, staging buffers and vectors, applies a held overlay and returns the tenant to ACTIVE. -/
  | tenantClear (ten : Tenant)
  /-- TENANT_STEP_END (R484): A tenant reset step after QUIESCE completes its work. -/
  | tenantStepEnd (ten : Tenant)
  /-- STG_ALLOC (R477): TNTn_STG_CMD ALLOC takes the lowest free staging buffer, or ends FULL. -/
  | stgAlloc (who : Party) (ten : Tenant)
  /-- STG_FREE (R477): TNTn_STG_CMD FREE frees an owned buffer after the stale and owner checks. -/
  | stgFree (who : Party) (ten : Tenant) (h : BitVec 16)
  /-- STG_LOAD (R477): TNTn_STG_CMD LOAD hands a copy of the buffer to the Pattern loader as an overlay, or ends BUSY. -/
  | stgLoad (who : Party) (ten : Tenant) (h : BitVec 16)
  /-- STG_DATA_ACCESS (R479): A read or write of TNTn_STG_DATA accesses one buffer word after the checks and advances OFFSET. -/
  | stgDataAccess (who : Party) (ten : Tenant) (wr : Option Word)
  /-- OVERLAY_VALIDATED (R565): Validation of an overlay completes, and the overlay is rejected, takes effect or is held. -/
  | overlayValidated
  /-- EVENT_TAKEN (R609): The gatherer takes an event from a source and routes it into its vector's batch. -/
  | eventTaken (src : Nat)
  /-- VECTOR_COAL_TIMEOUT (R610): COAL_TIME passes since T0 and the vector becomes ready. -/
  | vectorCoalTimeout (vec : Nat)
  /-- INTERRUPT_RESEND (R616): An unacknowledged delivery is sent again with RESENT = 1 after the re-send interval. -/
  | interruptResend (vec : Nat)
  /-- EVG_ACK (R613): EVG_CMD.ACK acknowledges a vector's outstanding delivery. -/
  | evgAck (who : Party) (vec : Nat)
  /-- EVG_FLUSH (R618): EVG_CMD.FLUSH empties a vector's batch without delivery. -/
  | evgFlush (who : Party) (vec : Nat)
  /-- EVG_VCOAL_WRITE (R619): A write of EVG_VCOALn changes mask and coalescing and may make the vector ready at once. -/
  | evgVcoalWrite (who : Party) (vec : Nat) (v : Word)
  /-- EVG_RETAIN (R617): The gatherer saves its state to retention registers and is gated. -/
  | evgRetain
  /-- EVG_WAKE (R617): An event or message wakes the retained gatherer, which restores its state. -/
  | evgWake
  /-- CWD_KEY_A (R633): A write of KEY_A to WDG_CWD_SVC begins a service, or is a fault. -/
  | cwdKeyA (who : Party) (key : BitVec 16)
  /-- CWD_KEY_B (R633): A write of KEY_B completes a service and starts a new period, or is a fault. -/
  | cwdKeyB (who : Party) (key : BitVec 16)
  /-- CWD_CTL_WRITE (R635): A write of WDG_CWD_CTL inside the window sets the next period and window. -/
  | cwdCtlWrite (who : Party) (v : Word)
  /-- CWD_REJECTED_WRITE (R636): A write to CWD registers by another party changes nothing, is counted and raises source 10. -/
  | cwdRejectedWrite (who : Party) (off : Nat)
  /-- CWD_EXPIRY (R637): The CWD period ends without service, FaultNotice is sent and the ladder rung is taken. -/
  | cwdExpiry
  /-- HEALTHY_INTERVAL_END (R638): READY has held for 2^HEALTHY ms without an expiry and CHAIN clears. -/
  | healthyIntervalEnd
  /-- SWD_SERVICE (R642): A write of WDG_SWD_SVC by the safety master starts a new period, arms the SWD or is an expiry. -/
  | swdService (who : Party) (key : BitVec 16)
  /-- SWD_EXPIRY (R643): The SWD expires, traps Umevo, asserts FAULT_N and starts the hard timer. -/
  | swdExpiry
  /-- SWD_HARD_TIMER_END (R643): The hard timer ends, CHAIN increments, and a warm reset or the safe state follows. -/
  | swdHardTimerEnd
  /-- TIM_SET_GO (R657): TIM_SET_CMD.GO sets fabric time if the value is later, or sets SET_REJ. -/
  | timSetGo (who : Party) (ep : BitVec 16)
  /-- TIM_NOW_READ (R657): A read of TIM_NOW_LO latches TIM_NOW_HI and TIM_NOW_EP. -/
  | timNowRead (who : Party)
  /-- PPS_EDGE (R658): A PPS rising edge is captured and its phase error is applied by the servo. -/
  | ppsEdge
  /-- PPS_MISS (R661): No PPS edge for 1.5 s sets PPS_MISS and puts the timebase in holdover. -/
  | ppsMiss
  /-- SLICE_IDLE_TIMEOUT (R671): A slice in DOZE for 2^ENTRY_IDLE µs begins entry into its target state. -/
  | sliceIdleTimeout (sl : Nat)
  /-- POWER_ENTRY_DONE (R671): The clean and back-invalidation of a SLEEP or DEEP entry finish and the slice is gated. -/
  | powerEntryDone (sl : Nat)
  /-- SLICE_EXIT_DONE (R673): A slice's wake completes within its exit latency and it admits waiting requests. -/
  | sliceExitDone (sl : Nat)
  /-- VOLTAGE_EVALUATION (R675): Every 16 µs in TRACK, the VID code is raised or lowered by one step. -/
  | voltageEvaluation
  /-- STALL_DETECTED (R688): A stall monitor finds a stuck handshake, which fences, fails a port or is fatal. -/
  | stallDetected (unit : BitVec 8)
  /-- COMPARATOR_MISMATCH (R698): Duplicated control disagrees, which fences a slice or is fatal. -/
  | comparatorMismatch (unit : BitVec 8)
  /-- TRACKER_AGE_EXCEEDED (R698): An entry open for twice the closing bound fences the slice. -/
  | trackerAgeExceeded (sl trk : Nat)
  /-- LATENT_TEST (R690): A periodic latent test of a safety mechanism runs. -/
  | latentTest (unit : BitVec 8) (test : BitVec 8) (pass : Bool)
  /-- PIN_READBACK_MISMATCH (R691): SAFE_N or FAULT_N does not read back as driven. -/
  | pinReadbackMismatch
  /-- SAF_CMD_ENTER (R701): SAF_CMD.ENTER with KEY 0x5AFE from the safety master enters the safe state. -/
  | safCmdEnter (who : Party) (key : BitVec 16)
  /-- SAF_LOG_NEXT (R699): SAF_LOG_CMD.NEXT removes the oldest error log entry. -/
  | safLogNext (who : Party)
  /-- JIG_ARM (R719): A write of JIG_CHc_CTL with ARM = 1 arms a channel, or is refused with a code. -/
  | jigArm (who : Party) (ch : Nat) (v : Word)
  /-- JIG_DISARM (R720): A write of ARM = 0 disarms a channel. -/
  | jigDisarm (who : Party) (ch : Nat)
  /-- JIG_DISARM_ALL (R720): JIG_CMD.DISARM_ALL disarms every channel. -/
  | jigDisarmAll (who : Party)
  /-- JIG_REORDER_TIMEOUT (R714): A flit held by REORDER_ILLEGAL is sent after 1 µs when fewer flits follow. -/
  | jigReorderTimeout (p : Nat)
  /-- I3C_PRIVATE_WRITE (R734): An I3C or I2C private write sets the pointer and writes register values. -/
  | i3cPrivateWrite (x : I3cWrite)
  /-- I3C_PRIVATE_READ (R734): An I3C or I2C private read returns registers from the pointer onward. -/
  | i3cPrivateRead (i2c : Bool) (addr : BitVec 7) (n : Nat)
  /-- ENTDAA (R732): Broadcast ENTDAA arbitration assigns the dynamic address. -/
  | entdaa (won : Bool) (da : BitVec 7)
  /-- SETDASA (R732): Direct SETDASA at the static address sets the dynamic address. -/
  | setdasa (at_ da : BitVec 7)
  /-- SETNEWDA (R732): Direct SETNEWDA replaces the dynamic address. -/
  | setnewda (at_ da : BitVec 7)
  /-- RSTDAA (R732): Broadcast RSTDAA drops the dynamic address. -/
  | rstdaa
  /-- GETPID (R732): Direct GETPID returns the provisional ID. -/
  | getpid (at_ : BitVec 7)
  /-- GETBCR (R732): Direct GETBCR returns BCR 0x00. -/
  | getbcr (at_ : BitVec 7)
  /-- GETDCR (R732): Direct GETDCR returns DCR 0x00. -/
  | getdcr (at_ : BitVec 7)
  /-- GETSTATUS (R732): Direct GETSTATUS returns status with the parity-error bit, which it then clears. -/
  | getstatus (at_ : BitVec 7)
  /-- ENEC (R732): ENEC is accepted with no effect. -/
  | enec (at_ : Option (BitVec 7))
  /-- DISEC (R732): DISEC is accepted with no effect. -/
  | disec (at_ : Option (BitVec 7))
  /-- JTAG_EXTEST (R767): EXTEST drives the boundary register, accepted only while WRST_N is asserted. -/
  | jtagExtest (bits : BitVec 128)
  /-- JTAG_SAMPLE_PRELOAD (R767): SAMPLE/PRELOAD captures and loads the boundary register. -/
  | jtagSamplePreload (bits : BitVec 128)
  /-- JTAG_IDCODE (R766): IDCODE selects the 32-bit identification register. -/
  | jtagIdcode
  /-- JTAG_CLAMP (R767): CLAMP holds the outputs, accepted only while WRST_N is asserted. -/
  | jtagClamp
  /-- JTAG_HIGHZ (R767): HIGHZ floats the outputs, accepted only while WRST_N is asserted. -/
  | jtagHighz
  /-- UMV_HALT (R645): UMV_HALT in DEBUG halts Umevo and freezes the CWD. -/
  | umvHalt
  /-- UMV_RESUME (R645): UMV_RESUME releases a halted Umevo and the CWD counts on. -/
  | umvResume
  /-- UMV_MEM (R767): UMV_MEM in DEBUG reads a word of the Umevo ROM or private SRAM. -/
  | umvMem (rq : BitVec 64)
  /-- JTAG_BYPASS (R767): BYPASS, and every other code, selects the bypass register. -/
  | jtagBypass (code : BitVec 8)
  /-- TRST_N_ASSERT (R766): TRST_N asserted keeps the TAP in Test-Logic-Reset. -/
  | trstNAssert
  /-- REGISTER_WRITE (R13): A write to a register with no behaviour of its own sets its fields under the access codes. -/
  | registerWrite (who : Party) (off : BitVec 24) (v : Word)
  /-- FLIT_CLOCK (R114): Each flit clock of an active or initializing port, the transmitter sends one flit: a PAYLOAD flit, a replayed flit, an INIT, a DOWN_NOTICE or an IDLE, carrying ACK and credit totals. -/
  | flitClock (p : Nat)
  /-- UNEXPECTED_MESSAGE (R193): A message addressed to the home whose opcode is reserved, names no class, or is one the home never receives on that port's role arrives and is discarded, counted or ends in a link reset. -/
  | unexpectedMessage (p : Nat) (m : Msg)
  /-- UCIE_SIDEBAND_REG_ACCESS (R112): A partner's UCIe sideband access to the PHY or Adapter registers is answered as UCIe 1.1 requires. -/
  | ucieSidebandRegAccess (p : Nat) (wr : Bool) (a : BitVec 24) (v : Word)
  /-- TEST_EN_DEASSERT (R761): TEST_EN returning to 0 ends the warm-reset hold and lets the boot proceed. -/
  | testEnDeassert
  /-- HC_SCANOUT_TIMEOUT (R517): The 100 µs bound for scanning out HC tags and eviction records expires: undelivered HC sets enter the loss map and no set is served until T has passed since the fence. -/
  | hcScanoutTimeout (sl : Nat)
  /-- SF_ENTRY_READ_DONE (R378): The diagnostic SF entry read completes and SLCn_SF_RDDATA3.VALID becomes 1. -/
  | sfEntryReadDone (sl : Nat)
  /-- CLAMP_ENTRY_READ_DONE (R457): The bank entry read completes and SLCn_CLAMP_HVAL0.VALID becomes 1. -/
  | clampEntryReadDone (sl : Nat)
  /-- UMEVO_SRAM_ERROR (R634): An uncorrectable error in Umevo's private SRAM is a CWD fault with cause 0x05, handled as an expiry. -/
  | umevoSramError
  /-- UNLISTED_CCC (R732): A direct common command code that the table does not list is NACKed, and an unlisted broadcast one is ignored. -/
  | unlistedCcc (code : Byte) (at_ : Option (BitVec 7))
  /-- HDR_EXIT_PATTERN (R731): The HDR Exit Pattern on the bus ends the target's ignoring of an HDR transfer, and SDR handling resumes. -/
  | hdrExitPattern
deriving DecidableEq, Repr

end Sys2Proof
end

