-- ==== Sys2Proof/Machine/Bits.lean ====
section
/-!
DEFINITION. Bit-field, parity and byte-order helpers: fields of words, slots of lines, chunks of poison, bytes of flits.
-/
namespace Sys2Proof.Machine

/-- The mask of `wid` ones. -/
def onesMask (wid : Nat) : Nat := 2 ^ wid - 1

/-- Field of `wid` bits at `lsb` of a register word, as a number. -/
def getBits (w : Word) (lsb wid : Nat) : Nat := (w.toNat >>> lsb) % 2 ^ wid

/-- The word with its field of `wid` bits at `lsb` set to `v`, taken modulo 2^wid. -/
def setBits (w : Word) (lsb wid v : Nat) : Word :=
  (w &&& ~~~(BitVec.ofNat 32 (onesMask wid <<< lsb))) ||| BitVec.ofNat 32 ((v % 2 ^ wid) <<< lsb)

/-- Even parity of the low `n` bits of a number: 1 when an odd number of them is set. -/
def parityNat : Nat → Nat → Bool
  | 0, _ => false
  | n + 1, x => (x.testBit n).xor (parityNat n x)

/-- The number of ones among the low `n` bits. -/
def popNat : Nat → Nat → Nat
  | 0, _ => 0
  | n + 1, x => (if x.testBit n then 1 else 0) + popNat n x

/-- The number of ones of a bit vector. -/
def pop {w : Nat} (x : BitVec w) : Nat := popNat w x.toNat

/-- Even parity of a bit vector: true when an odd number of its bits is set. -/
def parity {w : Nat} (x : BitVec w) : Bool := parityNat w x.toNat

/-- Data slot `k` of a line: bytes 16k to 16k + 15 (05 R180). -/
def lineSlot (l : Line) (k : Nat) : Slot := l.extractLsb' (128 * k) 128

/-- The line whose data slots are the four given. -/
def lineOf (a b c d : Slot) : Line := (d ++ c ++ b ++ a : BitVec 512)

/-- The mask over a line of the bytes whose enable bit is set (05 R179). -/
def byteMaskAux (be : BitVec 64) : Nat → BitVec 512
  | 0 => 0
  | n + 1 => (if be.getLsbD n then (0xFF : BitVec 512) <<< (8 * n) else 0) ||| byteMaskAux be n

/-- The line mask of a byte-enable field. -/
def byteMask (be : BitVec 64) : BitVec 512 := byteMaskAux be 64

/-- The line `old` with the bytes that `be` enables taken from `new` (05 R180). -/
def mergeLine (old new : Line) (be : BitVec 64) : Line :=
  (old &&& ~~~(byteMask be)) ||| (new &&& byteMask be)

/-- Poison of a partial write, chunk by chunk (05 R175): a chunk written whole takes the poison of the data written,
a chunk written in part keeps its own and adds it, a chunk not touched keeps its own. -/
def mergePoison (old new : BitVec 4) (be : BitVec 64) : BitVec 4 :=
  BitVec.ofNat 4 ((List.range 4).foldl (fun acc k =>
    let en := be.extractLsb' (16 * k) 16
    let b := if en = 0xFFFF then new.getLsbD k
             else if en = 0 then old.getLsbD k
             else old.getLsbD k || new.getLsbD k
    acc + (if b then 2 ^ k else 0)) 0)

/-- Reverses the low `n` bits of a number. -/
def revNat : Nat → Nat → Nat
  | 0, _ => 0
  | n + 1, x => (if x.testBit 0 then 2 ^ n else 0) + revNat n (x / 2)

/-- One bit of a CRC taken most significant bit first. -/
def crcBitMsb (w poly crc : Nat) (b : Bool) : Nat :=
  let top := (crc.testBit (w - 1)).xor b
  let sh := (crc * 2) % 2 ^ w
  if top then sh ^^^ poly else sh

/-- A byte into a CRC, most significant bit first. -/
def crcByteMsb (w poly crc byte : Nat) : Nat :=
  [7, 6, 5, 4, 3, 2, 1, 0].foldl (fun c i => crcBitMsb w poly c (byte.testBit i)) crc

/-- One bit of a reflected CRC, least significant bit first; `rpoly` is the reversed polynomial. -/
def crcBitLsb (rpoly crc : Nat) (b : Bool) : Nat :=
  let low := (crc.testBit 0).xor b
  if low then (crc / 2) ^^^ rpoly else crc / 2

/-- A byte into a reflected CRC, least significant bit first. -/
def crcByteLsb (rpoly crc byte : Nat) : Nat :=
  [0, 1, 2, 3, 4, 5, 6, 7].foldl (fun c i => crcBitLsb rpoly c (byte.testBit i)) crc

/-- The `n` bytes of a number, least significant first. -/
def bytesLe : Nat → Nat → List Nat
  | 0, _ => []
  | n + 1, x => x % 256 :: bytesLe n (x / 256)

/-- The number whose bytes, least significant first, are given. -/
def ofBytesLe : List Nat → Nat
  | [] => 0
  | b :: t => b + 256 * ofBytesLe t

/-- CRC-16 of 05 R173 over bytes. (Log 85: DESIGN CHOICE) -/
def crc16 (bytes : List Nat) : Nat := bytes.foldl (crcByteMsb 16 0x1021) 0xFFFF

/-- CRC-64 of 04 R120 over bytes; 0xC96C5795D7870F42 is the polynomial 0x42F0E1EBA9EA3693 reversed. (Log 85: DESIGN CHOICE) -/
def crc64 (bytes : List Nat) : Nat :=
  (bytes.foldl (crcByteLsb 0xC96C5795D7870F42) 0xFFFFFFFFFFFFFFFF) ^^^ 0xFFFFFFFFFFFFFFFF

/-- CRC-32 of the boot ROM (reflected, polynomial 0x04C11DB7). (Log 85: DESIGN CHOICE) -/
def crc32 (bytes : List Nat) : Nat := (bytes.foldl (crcByteLsb 0xEDB88320) 0xFFFFFFFF) ^^^ 0xFFFFFFFF

/-- The base of the aligned block of 2^k that holds node `n` (03, node blocks). -/
def blockBase (n : Node) (k : Nat) : Node := (n >>> k) <<< k

/-- Node `n` lies in block base/k. -/
def inBlock (n base : Node) (k : Nat) : Bool := n >>> k == base >>> k

end Sys2Proof.Machine
end

