-- ==== Sys2Proof/Config.lean ====
section
/-!
DEFINITION. The free values of the model: constants without a body, so that nothing can be proved about which value
they are. Each is applied to the plain counter `State.fresh`, so that every draw is a fresh value.
-/
namespace Sys2Proof.Config

/-- The 32 bytes of entropy of an unlock nonce (15_reset_and_boot.md R583). (Log 1, 13: DESIGN CHOICE) -/
opaque nonce : Nat → BitVec 256
/-- What a code word with more errors than its code covers reads as (19_safety_and_errors.md R784). (Log 1: DESIGN CHOICE) -/
opaque beyondCode : Nat → BitVec 1024
/-- Which outcome a check meets on a word with more errors than its code covers (19_safety_and_errors.md R784).
(Log 1: DESIGN CHOICE) -/
opaque beyondOutcome : Nat → Nat
/-- The bytes of data that the spec delivers poisoned without saying which bytes it holds (06 R241, 10 R408).
(Log 1, 14: DESIGN CHOICE) -/
opaque poisonedLine : Nat → BitVec 512
/-- The answer to a UCIe sideband register access, which UCIe 1.1 gives and this spec does not (04 R112).
(Log 1, 15: DESIGN CHOICE) -/
opaque sideband : Nat → Word
/-- The 32-bit words of the Umevo ROM (17 R627), which the spec does not print. (Log 1: DESIGN CHOICE, 17: PRESUMED) -/
opaque romWord : Nat → BitVec 32
/-- The release number of the Umevo ROM (17 R646). (Log 1: DESIGN CHOICE) -/
opaque romVersion : BitVec 16
/-- A value that the spec leaves open at the place that draws it. (Log 1, 16, 66, 72: DESIGN CHOICE, 17: PRESUMED) -/
opaque openWord : Nat → BitVec 64

end Sys2Proof.Config
end

