-- ==== Sys2Proof/Machine/Sparse.lean ====
section
/-!
DEFINITION. Sparse arrays: a list of (index, value) pairs in one canonical form. The indexes strictly rise and no
listed value equals what an unlisted index reads as, so equal arrays are equal lists. Every indexed store of the
chiplet (registers, ports, slices, tenants, snoop filter, home cache, buffers) is one of these.
-/
namespace Sys2Proof.Machine

/-- A sparse array. What an unlisted index reads as is named where the array is read. -/
abbrev Sp (α : Type) := List (Nat × α)

/-- The value at index `k`; `d` is what an unlisted index reads as. -/
def spGet {α : Type} (d : α) : Sp α → Nat → α
  | [], _ => d
  | (i, v) :: t, k => if i = k then v else spGet d t k

/-- Puts a value that is listed at `k`, keeping the indexes rising. -/
def spInsert {α : Type} (k : Nat) (v : α) : Sp α → Sp α
  | [] => [(k, v)]
  | (i, w) :: t =>
    if k < i then (k, v) :: (i, w) :: t
    else if k = i then (k, v) :: t
    else (i, w) :: spInsert k v t

/-- Removes index `k` from the list, so that it reads as the default again. -/
def spErase {α : Type} (k : Nat) (l : Sp α) : Sp α := l.filter (fun e => e.1 != k)

/-- Writes `v` at `k`: the value an unlisted index reads as removes the entry. -/
def spSet {α : Type} [DecidableEq α] (d : α) (l : Sp α) (k : Nat) (v : α) : Sp α :=
  if v = d then spErase k l else spInsert k v l

/-- Changes the value at `k` by `f`. -/
def spMod {α : Type} [DecidableEq α] (d : α) (l : Sp α) (k : Nat) (f : α → α) : Sp α :=
  spSet d l k (f (spGet d l k))

/-- The indexes of a list strictly rise from above `lo`. -/
def spRising {α : Type} : Option Nat → Sp α → Bool
  | _, [] => true
  | lo, (i, _) :: t => (match lo with | none => true | some j => decide (j < i)) && spRising (some i) t

/-- The canonical form: rising indexes, and no listed value equal to the default. -/
def spWf {α : Type} [DecidableEq α] (d : α) (l : Sp α) : Bool :=
  spRising none l && l.all (fun e => decide (e.2 ≠ d))

/-- The canonical form of an array whose default depends on the index. -/
def SpCanon {α : Type} (d : Nat → α) (l : Sp α) : Prop := spRising none l = true ∧ ∀ e ∈ l, e.2 ≠ d e.1

end Sys2Proof.Machine
end

