-- ==== Sys2Proof/Machine/Records.lean ====
section
/-!
DEFINITION. The records that State is made of: the Pattern in force, ports, slices and their arrays, transactions,
buffers, the event gatherer, the error log and the rest, each as plain data.
-/
namespace Sys2Proof.Machine

/-! ## The Pattern in force (14_pattern_image.md R545 to R552) -/

/-- A PORT role (R547). -/
inductive Role where
  | off | client | memory | peer
deriving DecidableEq, Repr

/-- One NODEMAP record (R547). -/
structure NodeEnt where
  base : Node
  k : Nat
  home : Bool
  prim : Nat
  alt : Option Nat
deriving DecidableEq, Repr

/-- One ADDRMAP record (R548), BASE and LIMIT as byte addresses. -/
structure HRange where
  base : Nat
  limit : Nat
  logw : Nat
  g : Nat
  ports : List Nat
  memBase : Nat
deriving DecidableEq, Repr

/-- One WINDOW record (R549), BASE and LIMIT as byte addresses. -/
structure PWindow where
  idx : Nat
  rd : Bool
  wr : Bool
  cache : Bool
  base : Nat
  limit : Nat
deriving DecidableEq, Repr

/-- One VECTOR record (R549). -/
structure PVector where
  vec : Nat
  enable : Bool
  target : Node
  coalCount : Nat
  coalTime : Nat
  classes : BitVec 32
deriving DecidableEq, Repr

/-- One tenant's Pattern section: its TENANT, SHARER, WINDOW and VECTOR records (R546, R549). -/
structure TenCfg where
  ten : Tenant
  spec : Bool
  rcm : Bool
  snpTmo : Nat
  weight : Nat
  cap : Nat
  sfQuota : Nat
  rdAlloc : Bool
  fillSector : Bool
  offer : Bool
  wayMask : BitVec 16
  clampQuota : Nat
  latDef : Nat
  dom : List (Node × Nat)
  peers : BitVec 128
  regionExp : Nat
  allThresh : Nat
  windows : List PWindow
  vectors : List PVector
deriving DecidableEq, Repr

/-- The base Pattern in force, its tenants as the overlays in force leave them (R547 to R552). -/
structure Pattern where
  home : Node
  nActive : Nat
  lsmap : List Nat
  twin : Nat
  sfScrub : Nat
  ports : List (Role × Nat)
  nodemap : List NodeEnt
  masters : List (Node × Nat)
  ranges : List HRange
  hashBits : Nat
  masks : List (BitVec 52)
  table : List Nat
  tens : List TenCfg
  lfsrSeed : BitVec 16
  hcScrub : Nat
  hcDisable : Bool
  ageStep : Nat
  /-- MGMT_TENANT, and whether MGMT_VALID is 1. -/
  mgmtNo : Tenant
  mgmt : Option Tenant
  maxState : Nat
  entryIdle : Nat
  cwdPeriod : Nat
  cwdOpen : Nat
  cwdN : Nat
  healthy : Nat
  swdPeriod : Nat
  swdHard : Nat
  predSfFree : Nat
  predHcFree : Nat
  predCe : Nat
  predLost : Nat
  predAge : Nat
  degSfFree : Nat
  degHcFree : Nat
  degAge : Nat
  minActive : Nat
  lock : Bool
  pm : Option Node
  ovlLocked : Bool
  smNode : Option Node
  smI3c : Option (BitVec 7)
  degSpares : Nat
  jigGrant : Bool
  jigLink : Bool
  jigArray : Bool
  jigPorts : BitVec 12
  jigSlices : BitVec 18
deriving DecidableEq, Repr

/-- No Pattern: every field zero or empty. (Log 3: DESIGN CHOICE) -/
def Pattern.none : Pattern :=
  { home := 0, nActive := 0, lsmap := [], twin := 0, sfScrub := 0, ports := [], nodemap := [], masters := [],
    ranges := [], hashBits := 0, masks := [], table := [], tens := [], lfsrSeed := 0, hcScrub := 0,
    hcDisable := false, ageStep := 0, mgmtNo := 0, mgmt := Option.none, maxState := 0, entryIdle := 0, cwdPeriod := 0,
    cwdOpen := 0, cwdN := 0, healthy := 0, swdPeriod := 0, swdHard := 0, predSfFree := 0, predHcFree := 0,
    predCe := 0, predLost := 0, predAge := 0, degSfFree := 0, degHcFree := 0, degAge := 0, minActive := 0,
    lock := false, pm := Option.none, ovlLocked := false, smNode := Option.none, smI3c := Option.none,
    degSpares := 0, jigGrant := false, jigLink := false, jigArray := false, jigPorts := 0, jigSlices := 0 }

/-! ## Ports (04_derzon_link_layer.md) -/

/-- The states of a port (R116 and the table before it). -/
inductive PortState where
  | down | train | init | active | retrain | failed | off
deriving DecidableEq, Repr

/-- A receive buffer's message in progress or complete (05 R167, R171): the slots so far, and how many it has. -/
structure RxMsg where
  slots : List Slot
  want : Nat
deriving DecidableEq, Repr

/-- Credits of one class on one port (04 R138 to R142). -/
structure Credit where
  /-- Slots the partner advertised. -/
  adv : Nat
  /-- Credits consumed and not yet returned. -/
  used : Nat
  /-- The last total received. -/
  tLast : BitVec 12
  /-- Slots of this class freed here since the last FULL initialization. -/
  freed : BitVec 12
deriving DecidableEq, Repr

/-- A posted write buffer entry (08 R308): the write, and its number in the order in which the home accepted writes. -/
structure Posted where
  m : Msg
  no : Nat
  /-- Ready at its slice, waiting for its turn to commit. -/
  ready : Bool
deriving DecidableEq, Repr

/-- A combining buffer entry (08 R312). -/
structure Combine where
  idx : Nat
  src : Node
  ten : Tenant
  sector : Addr
  /-- Lines held, by sub-block: the number of the write that last merged, and its message. -/
  lines : List (Nat × Nat × Msg)
  /-- When CWB_TMO ends (R313). -/
  until_ : Time
  flushing : Bool
deriving DecidableEq, Repr

/-- An outstanding FenceFull (08 R316): it waits for the writes of its key numbered below `lim`. -/
structure Fence where
  idx : Nat
  m : Msg
  lim : Nat
deriving DecidableEq, Repr

/-- A Tenon port (04_derzon_link_layer.md, 08_ordering_atomics_gather.md). -/
structure Port where
  st : PortState
  /-- The rate in use, as PRTn_LL_STATUS.RATE codes it. -/
  rate : BitVec 2
  /-- UCIe is in its active state. -/
  ucieUp : Bool
  /-- The repaired lanes of the last training. -/
  rep : LaneRepair
  /-- INIT exchange: FULL (false) or RESUME (true) (R122). -/
  resume : Bool
  /-- A valid INIT of this kind was accepted from the partner. -/
  gotInit : Bool
  /-- INIT with RX_OK = 1 sent. -/
  sentOk : Bool
  /-- Partner's INIT with RX_OK = 1 accepted. -/
  gotOk : Bool
  /-- Sequence number of the next new PAYLOAD flit (R123). -/
  nextSeq : BitVec 12
  /-- Replay buffer, oldest first (R129): sequence number and slots. -/
  replay : List (BitVec 12 × List Slot)
  /-- A replay in progress continues from the first number; it began from the second (R135). -/
  replayAt : Option (BitVec 12)
  replayFrom : BitVec 12
  /-- When the replay timer expires (R136). -/
  replayT : Time
  /-- Replays begun from the present oldest number without progress (R137). -/
  replays : Nat
  /-- The receiver's E (R130). -/
  expect : BitVec 12
  /-- A NAK is pending (R132), and when it is sent again. -/
  nakPend : Bool
  nakT : Time
  /-- A NAK flit is to be sent at the next flit clock. -/
  nakDue : Bool
  /-- Accepted PAYLOAD flits not yet reflected in an ACK (R134), and when the delay expires. -/
  ackOwed : Bool
  ackT : Time
  /-- Credits by class code 0 to 5. -/
  cr : Sp Credit
  /-- Slots of the partner's last FULL record, by class (R125). -/
  partner : List Nat
  /-- The message that is being received. -/
  rxPart : Option RxMsg
  /-- Complete messages received and not yet consumed. -/
  rx : List Msg
  /-- Messages waiting for the flit stream, oldest first (R163). -/
  tx : List Msg
  /-- Slots of messages already begun that wait for the next PAYLOAD flit (R167). -/
  txSlots : List Slot
  /-- Messages sent with at least one slot not yet acknowledged: the message and its last flit (R147). -/
  unacked : List (Msg × BitVec 12)
  /-- The flit counter k of R140. -/
  flitNo : Nat
  /-- DOWN_NOTICE flits still to send, and their cause (R146). -/
  notices : Nat
  noticeCause : BitVec 4
  /-- What follows the notices: a port reset (true) or a link reset. -/
  thenReset : Bool
  /-- A link reset is draining the receive buffers (R146 step 2). -/
  draining : Bool
  /-- End of draining, for the 10 ms of R148. -/
  drainT : Time
  /-- A link reset has begun and has not reached ACTIVE. -/
  inReset : Bool
  /-- Link resets in a row that did not reach ACTIVE (R148). -/
  fails : Nat
  /-- Starts of the last link resets (R148) and retrains (R145). -/
  resets : List Time
  retrains : List Time
  retrainT : Time
  /-- The last flit put on the wire (R114). -/
  lastTx : Option Flit
  /-- The Jig holds this flit (20 R714 REORDER_ILLEGAL) until this many PAYLOAD flits have gone, or this time; and the channel. -/
  held : Option (Flit × Nat × Time × Nat)
  /-- The Jig sends the flit of this number again in the next flit clock (R714 DUPLICATE). -/
  again : Option (BitVec 12)
  /-- The Jig keeps the first message of this class at egress (R714 REORDER_LEGAL): class, flits left, channel. -/
  wait : Option (Nat × Nat × Nat)
  /-- The last answer to a UCIe sideband register access (R112). -/
  sideband : Option Word
  /-- Posted write buffer (08 R308), combining buffer (08 R312), fences (08 R316). -/
  pwb : List Posted
  cwb : List Combine
  fences : List Fence
  /-- Messages forwarded from this port that still wait at a departure port (12 R469): that port, and the message. -/
  fwd : List (Nat × Msg)
deriving DecidableEq, Repr

/-- A port after reset: DOWN, with nothing sent or received. (Log 43: DEDUCED) -/
def Port.zero : Port :=
  { st := .down, rate := 0, ucieUp := false, rep := ⟨false, false, 0, 0⟩, resume := false, gotInit := false,
    sentOk := false, gotOk := false, nextSeq := 0, replay := [], replayAt := none, replayFrom := 0, replayT := 0, replays := 0,
    expect := 0, nakPend := false, nakT := 0, nakDue := false, ackOwed := false, ackT := 0, cr := [], partner := [],
    rxPart := none, rx := [], tx := [], txSlots := [], unacked := [], flitNo := 0, notices := 0, noticeCause := 0,
    thenReset := false, draining := false, drainT := 0, inReset := false, fails := 0, resets := [], retrains := [], retrainT := 0,
    lastTx := none, held := none, again := none, wait := none, sideband := none, pwb := [], cwb := [], fences := [], fwd := [] }

/-! ## Transactions of the Shed (06_coherence_flows.md, 07_shed_and_races.md) -/

/-- The record of a line (06 R208, 09 R354): an owner and a sharer field. -/
inductive Sharers where
  | p2 (a b : Option Node)
  | v48 (bits : BitVec 48)
  | all
deriving DecidableEq, Repr

/-- Owner and sharers of a line. -/
structure LineRec where
  own : Option Node
  sh : Sharers
deriving DecidableEq, Repr

/-- The record that names no holder. -/
def LineRec.none : LineRec := ⟨Option.none, .p2 Option.none Option.none⟩

/-- One outstanding snoop, census or recall copy (03 R90, R92; 06 R234). -/
structure Copy where
  op : BitVec 8
  line : Addr
  dst : Node
  k : Nat
  range : Bool
  /-- The exact snoop to the recorded owner. -/
  toOwner : Bool
  rc : Bool
  /-- End of its snoop timer, which starts when the copy leaves its egress port; 0 until then (06 R234). -/
  deadline : Time
deriving DecidableEq, Repr

/-- A MemRd in flight (06 R225, R226, R241). -/
structure MemWait where
  spec : Bool
  cancelled : Bool
  deadline : Time
deriving DecidableEq, Repr

/-- Why an entry is back-invalidated: for its way (07 R281), because the way is retired (09 R367), as a census surplus
(09 R375), on entry to DEEP (09 R379), or for a tenant reset (12 R486). -/
inductive BackWhy where
  | alloc | retire | surplus | deep | tenant
deriving DecidableEq, Repr

/-- What a transaction is for. -/
inductive TKind where
  /-- A client request. -/
  | client
  /-- The dispatch of posted write number `w` of port `p` (08 R308). -/
  | posted (p w : Nat)
  /-- The dispatch of sub-block `b` of combining entry `e` of port `p` (08 R313). -/
  | combined (p e b : Nat)
  /-- Element `i` of gather or scatter number `g` that slice `c` coordinates (08 R331). -/
  | elem (c g i : Nat)
  /-- Back-invalidation of an SF entry of set `set` (07 R281), for the reason given. -/
  | backInv (set : Nat) (why : BackWhy)
  /-- Companion fill (10 R395). -/
  | companion
  /-- A maintenance operation by the HCM registers (10 R409), on one line or on way `w` of one set. -/
  | maint (op : Nat) (w : Option Nat)
  /-- One set of a range-engine context (10 R411). -/
  | range (ctx op : Nat)
  /-- One set of a census for logical slice `l` (09 R373). -/
  | census (l : Nat)
  /-- One unit of a migration copy (13 R510). -/
  | migrate
deriving DecidableEq, Repr

/-- What an open entry covers (07 R253, R254). -/
inductive Scope where
  | line (a : Addr)
  | sfSet (n : Nat)
  | hcSet (n : Nat)
deriving DecidableEq, Repr

/-- What a transaction waits for. -/
inductive Phase where
  /-- Not yet admitted. -/
  | waiting
  /-- The answers of a LOOSE recall (09 R369). -/
  | recall
  /-- Snoop responses (06 R215). -/
  | snoop
  /-- Requester-collects: the answer of the owner (06 R216). -/
  | owner
  /-- Memory data. -/
  | mem
  /-- A way of the SF set (07 R281). -/
  | way
  /-- MemWrAck of what it wrote (10 R410). -/
  | wrAck
  /-- The turn of a posted write to commit (08 R309). -/
  | commit
  /-- CompAck (06 R229). -/
  | ack
  /-- Settle (06 R232). -/
  | settle
  /-- SeizeAck after a settle timeout (06 R237). -/
  | seizeClose
  /-- The census recall of a set (09 R374). -/
  | censusRecall
  /-- A hold for a CondWr (08 R325). -/
  | hold
  /-- An admitted companion fill that has not acted yet (10 R395). -/
  | fill
  /-- The entry is closed; the tracker waits for a memory response (07 R257). -/
  | closed
deriving DecidableEq, Repr

/-- A transaction: waiting at the ingress or in the chain, or admitted with a tracker (07 R253, R255). -/
structure Txn where
  kind : TKind
  /-- The request; for an internal transaction a message that carries its tenant and address. -/
  m : Msg
  /-- Arrival port of the request. -/
  port : Nat
  scope : Scope
  phase : Phase
  /-- The Shed entry is open. -/
  opened : Bool
  /-- Admission, and the closing bound of R258 from there. -/
  admitted : Time
  bound : Time
  copies : List Copy
  /-- A snoop, `MemWr`, recovery message or final response has been sent (12 R485). -/
  sent : Bool
  /-- Copies sent with RC = 1 (06 R231). -/
  rcSent : List Copy
  /-- Node blocks whose copies timed out and that stay sharers (06 R236). -/
  kept : List (Node × Nat)
  /-- The opcode whose rows it follows: RdUnique for a CleanUnique not recorded exactly (06 R218). -/
  eff : BitVec 8
  /-- A CondWr attempt that is constrained (08 R324) or a ReserveRd that takes a hold (R325); the outcome of a CondWr
  (R322). -/
  constr : Bool
  cond : Bool
  /-- The record it works on, once looked up, and whether it stood in an SF entry. -/
  lrec : LineRec
  hadWay : Bool
  /-- The requester was the recorded owner (06 R218). -/
  wasOwner : Bool
  /-- The recorded owner that was snooped, and the STATE it answered. -/
  x : Option Node
  xState : BitVec 3
  /-- Data the transaction holds: the line and its poison by 16-byte chunk. -/
  data : Option (Line × BitVec 4)
  /-- The data is dirty data of a snoop response (06 R224). -/
  dirty : Bool
  /-- The data came from memory, which allows a fill (10 R392); it answered a speculative read (06 R226). -/
  fromMem : Bool
  specHeld : Bool
  /-- The home's copy is lost (10 R408). -/
  lostCopy : Bool
  /-- Dirty data passed on unwritten is still kept here (07 R275). -/
  unwritten : Bool
  /-- Requester-collects mode has been chosen (06 R230). -/
  rcm : Bool
  /-- Sharer copies that wait for the owner's answer (06 R216): node, exponent, range. -/
  later : List (Node × Nat × Bool)
  /-- End of the CompAck, settle, close or hold timer. -/
  ackBy : Time
  memRd : Option MemWait
  /-- SeizeNotice and RcvInv sent and not answered (06 R239). -/
  seized : List Copy
  /-- The lines of a census set: address, tenant, rebuilt record (09 R374). -/
  rebuilt : List (Addr × Tenant × LineRec)
  /-- The census answers that reported UC, UD or O: line, node, exponent, range, STATE (09 R374). -/
  answers : List (Addr × Node × Nat × Bool × BitVec 3)
deriving DecidableEq, Repr

/-- A memory write or clean offer in flight, which holds the home's copy of its line until it ends (10 R397, R398). -/
structure MemOp where
  tag : Tag
  ten : Tenant
  line : Addr
  data : Line
  poison : BitVec 4
  /-- A MemCleanOffer that has no answer yet; otherwise a MemWr. -/
  offer : Bool
  /-- Superseded: serves no read (10 R398). -/
  dead : Bool
  deadline : Time
  /-- The eviction buffer entry it belongs to, if any. -/
  evict : Option Nat
  /-- The frame (set, way, sub-block) that it makes clean, and whether it then invalidates it (10 R409). -/
  clean : Option (Nat × Nat × Nat × Bool)
  /-- The frame awaiting retirement (set, way) (10 R405). -/
  retire : Option (Nat × Nat)
  /-- The range-engine context that sent it (10 R411). -/
  ctx : Option Nat
  /-- It belongs to the write-back of a warm reset (10 R421) or of a power entry (10 R422). -/
  flush : Bool
deriving DecidableEq, Repr

/-! ## The completed-transaction window (07 R265 to R270) -/

/-- How an entry stands. -/
inductive WState where
  | opened
  /-- DONE and answered without execution (R266). -/
  | unexecuted
  /-- DONE; the completion waits for CompAck or Settle. -/
  | waiting
  /-- DONE; closed by CompAck or Settle, or needing neither. -/
  | done
  /-- DONE; closed by R237 or R238. -/
  | expired
  | lost
deriving DecidableEq, Repr

/-- A window entry: key, digest, state, time, and the stored response. -/
structure WEntry where
  src : Node
  ten : Tenant
  tag : Tag
  op : BitVec 8
  echk : BitVec 16
  st : WState
  time : Time
  resp : Option Msg
deriving DecidableEq, Repr

/-! ## The Clamp (11_clamp_service.md) -/

/-- The state of a bank entry (R430). -/
inductive ClampSt where
  | free | lock | barrier | broken
deriving DecidableEq, Repr

/-- What a record is: a waiting LockAcq or BarrierArrive, a holder, or a priority note alone (R448). -/
inductive ClampRole where
  | waiter | holder | note
deriving DecidableEq, Repr

/-- A record of the waiter store (11, Locks): its request, SHARED, PRIO, arrival stamp, and a holder's note (R446). -/
structure ClampRec where
  m : Msg
  role : ClampRole
  shared : Bool
  prio : Nat
  stamp : Time
  note : Option Nat
deriving DecidableEq, Repr

/-- A bank entry (R430, R450): `res` is the number of records reserved for a BARRIER, `cause` the CODE of R433 of a
BROKEN entry. -/
structure ClampEnt where
  st : ClampSt
  gen : BitVec 12
  ten : Tenant
  src : Node
  target : Nat
  res : Nat
  count : Nat
  epoch : BitVec 16
  cause : Nat
  recs : List ClampRec
  /-- Tenants of which a node has arrived in the current episode of a BARRIER (R454). -/
  came : List Tenant
deriving DecidableEq, Repr

/-- A FREE entry of generation 0. (Log 7: DESIGN CHOICE) -/
def ClampEnt.zero : ClampEnt :=
  { st := .free, gen := 0, ten := 0, src := 0, target := 0, res := 0, count := 0, epoch := 0, cause := 0, recs := [], came := [] }

/-- The handle bank of a logical slice, and its Clamp ingress queue (R443): requests and their ports. -/
structure Bank where
  ents : Sp ClampEnt
  queue : List (Msg × Nat)
deriving DecidableEq, Repr

/-- A bank with nothing in it. (Log 7: DESIGN CHOICE) -/
def Bank.zero : Bank := ⟨[], []⟩

/-! ## Slices -/

/-- A sub-block of a home cache frame (10 R390): the data, the POISON bit of each chunk, and the bits in error of the
stored codewords. -/
structure Sub where
  data : Line
  poison : BitVec 4
  flip0 : BitVec 277
  flip1 : BitVec 277
deriving DecidableEq, Repr

/-- A sub-block that holds nothing. -/
def Sub.zero : Sub := ⟨0, 0, 0, 0⟩

/-- A frame of the home cache: the 55-bit tag of R389 and its sub-blocks 0 to 3. -/
structure Frame where
  tag : BitVec 55
  subs : Sp Sub
deriving DecidableEq, Repr

/-- A free frame. -/
def Frame.free : Frame := ⟨0, []⟩

/-- A lost record (10 R407): set, way and the tenants it names. -/
structure LostRec where
  set : Nat
  way : Nat
  tens : BitVec 128
deriving DecidableEq, Repr

/-- A reservation table entry (08 R320). -/
structure Rsv where
  src : Node
  ten : Tenant
  line : Addr
  /-- RSV: a reservation is held. -/
  set : Bool
  /-- The ranges reserved is the line; FAILS counts failed CondWr in a row (R324). -/
  fails : Nat
  /-- No other request of the key has reached the slice since the last ReserveRd (R324). -/
  calm : Bool
  time : Time
deriving DecidableEq, Repr

/-- A gather or scatter in progress (08 R329): its request, what each element came to, and what is still to do. -/
structure Gather where
  idx : Nat
  m : Msg
  port : Nat
  /-- Status of element i once it is finished. -/
  stat : Sp (Option Nat)
  /-- Data of element i and its poison. -/
  data : Sp (Slot × Bool)
  /-- The element a first-fault form performs next (R332, R333). -/
  next : Nat
deriving DecidableEq, Repr

/-- The power state of a slice (18 R670). -/
inductive PwrState where
  | active | doze | nap | sleep | deep
deriving DecidableEq, Repr

/-- A census (09 R373): the logical slice whose sets it rebuilds, the hints received by set, the next set to open, the
sets still open, and whether scan-out has ended. -/
structure Census where
  lsl : Nat
  hints : Sp (List (BitVec 118))
  next : Nat
  opened : List Nat
  ready : Bool
deriving DecidableEq, Repr

/-- The failure of a slice (13 R515): the logical slice it served, the first migration unit that is lost (R520; 0 with
no migration), the time of the fence, and the scan-outs that have ended. -/
structure Failure where
  lsl : Nat
  unit : Nat
  at_ : Time
  /-- Lines of the eviction buffer whose MemWr had no MemWrAck at the fence (R518). -/
  lines : List Addr
  hcDone : Bool
  sfDone : Bool
deriving DecidableEq, Repr

/-- What a range-engine context does (10 R411): its OP, the range, the tenant filter and the ways it acts on. -/
structure RangeJob where
  op : Nat
  base : Nat
  limit : Nat
  ten : Option Tenant
  ways : BitVec 16
deriving DecidableEq, Repr

/-- The migration that runs (13 R509 to R513). -/
structure Migration where
  src : Nat
  dst : Nat
  /-- The copy engine has a set entry on the unit at the watermark. -/
  busy : Bool
  /-- Handover has begun (R513). -/
  handover : Bool
deriving DecidableEq, Repr

/-- A physical slice. -/
structure Slice where
  /-- Trackers in use (07 R253). -/
  trk : Sp (Option Txn)
  /-- The chain store and the ingress, in the Shed's order (07 R255). -/
  chain : List Txn
  ingress : List Txn
  /-- SF entries at index 16·set + way (09 R353). -/
  sf : Sp (BitVec 118)
  /-- LOOSE sets (09 R368). -/
  loose : Sp Bool
  /-- Every set is LOOSE except those listed in `tight` (after a warm reset, 09 R381). -/
  allLoose : Bool
  /-- SF retirement table (09 R367): (set, way). -/
  sfRet : List (Nat × Nat)
  /-- HC frames at index 16·set + way (10 R389). -/
  hc : Sp Frame
  /-- Memory writes and offers in flight. -/
  memOps : List MemOp
  /-- HC retirement table (10 R405) and lost records (10 R407). -/
  hcRet : List (Nat × Nat)
  lost : List LostRec
  lfsr : BitVec 16
  /-- Reservation table (08 R320). -/
  rsv : List Rsv
  gathers : List Gather
  gatherNo : Nat
  /-- Power (18 R670): the state, the entry under way, wakes. -/
  pwr : PwrState
  entering : Option PwrState
  waking : Bool
  idleAt : Time
  /-- A SPEED or ageing measurement runs (02 R60, R62); an automatic one was deferred (02 R72). -/
  measuring : Bool
  ageing : Bool
  deferred : Bool
  prevFactor : BitVec 16
  /-- The censuses that this slice runs, oldest first (09 R373, 13 R515, R524). -/
  census : List Census
  /-- What is still to come of this slice's failure (13 R515). -/
  fail : Option Failure
  /-- Walks of the range-engine contexts: next set of context 0 and 1, sets still to close. -/
  walk0 : Nat
  walk1 : Nat
  /-- Corrected errors in the ageing interval that runs, and whether the last interval's count met its threshold (13
  R507). -/
  ceNow : Nat
  ceHit : Bool
  /-- The scan of INVALIDATE (12 R486): the tenant, and the next set. -/
  inv : Option (Tenant × Nat)
  /-- A diagnostic SF read (09 R378) or Clamp read (11 R457) is under way. -/
  rdBusy : Bool
  hselBusy : Bool
  /-- The WINDOW of the measurement under way, and when the next automatic measurement and the next ageing measurement
  fall due (02 R71, R72, R60). -/
  window : Nat
  autoAt : Time
  ageAt : Time
  /-- Exits from NAP, SLEEP and DEEP (18 R677). -/
  wakes : Nat
deriving DecidableEq, Repr

/-- A slice with nothing in it. -/
def Slice.zero : Slice :=
  { trk := [], chain := [], ingress := [], sf := [], loose := [], allLoose := false, sfRet := [], hc := [],
    memOps := [], hcRet := [], lost := [], lfsr := 0, rsv := [], gathers := [], gatherNo := 0, pwr := .active,
    entering := none, waking := false, idleAt := 0, measuring := false, ageing := false, deferred := false,
    prevFactor := 0, census := [], fail := none, walk0 := 0, walk1 := 0, ceNow := 0, ceHit := false,
    inv := none, rdBusy := false, hselBusy := false, window := 0, autoAt := 0, ageAt := 0, wakes := 0 }

/-- The role of a physical slice (13 R504). -/
inductive SliceRole where
  | active | spare | target | fenced
deriving DecidableEq, Repr

/-- A logical slice (13 R505): the physical slice that serves it, its state, and what is held for it. -/
structure LogSlice where
  phys : Nat
  hosted : Bool
  rebuilding : Bool
  /-- Requests are held for a migration handover (R513 step 1). -/
  handover : Bool
  /-- Clamp requests are held until the bank of a failed slice has been carried (R515, 11 R455). -/
  clampHold : Bool
  /-- No set is served before the poisoned writes of R516 have been sent. -/
  lossHold : Bool
  /-- No set is served before this time (R518, R517). -/
  holdUntil : Time
  /-- Lines counted as having a MemWr outstanding until `holdLinesUntil` (R518). -/
  holdLines : List Addr
  holdLinesUntil : Time
  /-- The HC loss map (R517): its set bits and its tenant mask. -/
  lossSets : Sp Bool
  lossTens : BitVec 128
  /-- For TWIN after a rehash its window is consulted first for reassigned requests (R523). -/
  rehashAt : Option Time
deriving DecidableEq, Repr

/-- A logical slice before the Pattern. -/
def LogSlice.zero : LogSlice :=
  { phys := 0, hosted := false, rebuilding := false, handover := false, clampHold := false, lossHold := false,
    holdUntil := 0, holdLines := [], holdLinesUntil := 0, lossSets := [], lossTens := 0, rehashAt := none }

/-! ## Event gatherer (16_event_gatherer.md) -/

/-- An event that a source holds (R609): its class and the tenant it names. -/
structure Ev where
  cls : Nat
  ten : Option Tenant
deriving DecidableEq, Repr

/-- A source: events not yet taken, and the count since warm reset (R609, R618). -/
structure EvSource where
  q : List Ev
  count : BitVec 32
deriving DecidableEq, Repr

/-- A source that has raised nothing. -/
def EvSource.zero : EvSource := ⟨[], 0⟩

/-- An outstanding delivery (R611): the message and the time of its last sending. -/
structure Delivery where
  m : Msg
  time : Time
deriving DecidableEq, Repr

/-- A vector: configuration, batch, IDLE, SEQ and outstanding delivery (R608, R610, R614, R615). -/
structure EvVector where
  enable : Bool
  target : Node
  classes : BitVec 32
  mask : Bool
  coalTime : Nat
  coalCount : Nat
  pend : Bool
  count : Nat
  ovf : Bool
  minsrc : Nat
  seen : BitVec 32
  t0 : Time
  idle : Bool
  seq : BitVec 9
  out : Option Delivery
deriving DecidableEq, Repr

/-- A vector before the Pattern configures it. -/
def EvVector.zero : EvVector :=
  { enable := false, target := 0, classes := 0, mask := false, coalTime := 0, coalCount := 0, pend := false,
    count := 0, ovf := false, minsrc := 0, seen := 0, t0 := 0, idle := false, seq := 0, out := none }

/-! ## Fuses, boot and the sideband (15_reset_and_boot.md, 21_register_reference.md, 22_electrical_and_package.md) -/

/-- The fuses (15 R580). -/
structure Fuses where
  keyHash : List (BitVec 384)
  prog : BitVec 4
  revoke : BitVec 4
  debugDisable : Bool
  swdHw : Bool
  deviceId : BitVec 128
  base : List (BitVec 16)
deriving DecidableEq, Repr

/-- Fuses of which none has been blown. (Log 5: DESIGN CHOICE) -/
def Fuses.blank : Fuses :=
  { keyHash := List.replicate 4 0, prog := 0, revoke := 0, debugDisable := false, swdHw := false, deviceId := 0,
    base := List.replicate 18 0 }

/-- An accepted base image that waits for step 6 (14 R562): what it configures, and what is reported of it. -/
structure Accepted where
  pat : Pattern
  id : Word
  version : Word
  digest : List Nat
  key : Nat
deriving DecidableEq, Repr

/-- Boot, pins, unlock, I3C target and TAP. -/
structure Boot where
  fuses : Fuses
  /-- REVOKE fuses that GLB_FUSE_CMD has blown (15 R581), which every later reading shows. -/
  blown : BitVec 4
  /-- BASE words that could not be read at the last step 2 (15 R580). -/
  baseBad : BitVec 18
  /-- RST_N, WRST_N and TEST_EN are asserted (22 R760). -/
  rstN : Bool
  wrstN : Bool
  testEn : Bool
  /-- VDD_PHY is out of range (22 R778); VID5 to VID0 are driven (22 R757). -/
  phyOut : Bool
  vidOn : Bool
  /-- The start of the boot sequence in progress (15 R596). -/
  since : Time
  /-- The bound of boot step 7 (15 R591). -/
  trainBy : Time
  /-- A warm reset is in its flush, which ends by this time (15 R589, 10 R421). -/
  flushBy : Option Time
  /-- The image buffer, its word pointer, and the bytes delivered (15 R593). -/
  image : Sp Word
  ptr : Nat
  bytes : Nat
  accepted : Option Accepted
  /-- The unlock nonce, the record and its word pointer (15 R583). -/
  nonce : Option (BitVec 256)
  record : Sp Word
  recPtr : Nat
  /-- The RESULT of the verification in progress. -/
  unlk : Option Nat
  /-- I3C: the register pointer, its misaligned mark and the ID of the CTRL byte that came with it (21 R734, R735), the
  parity-error bit of GETSTATUS (R732), an HDR transfer is being ignored (R731), and the bytes of the last answer (none:
  NACK). -/
  ptr3 : BitVec 24
  bad3 : Bool
  id3 : BitVec 7
  parity3 : Bool
  hdr3 : Bool
  out3 : Option (List Byte)
  /-- TAP: the instruction, the boundary register, and the data register that it selects (22 R766, R767). -/
  ir : BitVec 8
  bsr : BitVec 128
  dr : BitVec 64
deriving DecidableEq, Repr

/-- The always-on domain at a cold reset. (Log 4, 5, 6: DESIGN CHOICE) -/
def Boot.zero : Boot :=
  { fuses := Fuses.blank, blown := 0, baseBad := 0, rstN := true, wrstN := false, testEn := false, phyOut := false, vidOn := false, since := 0, trainBy := 0,
    flushBy := none, image := [], ptr := 0, bytes := 0, accepted := none, nonce := none, record := [], recPtr := 0, unlk := none,
    ptr3 := 0, bad3 := false, id3 := 0, parity3 := false, hdr3 := false, out3 := none, ir := 2, bsr := 0, dr := 0x20716B47 }

/-! ## Umevo and the watchdogs (17_umevo_and_watchdogs.md) -/

/-- Umevo, the core watchdog, the safety watchdog and the ladder. -/
structure Umv where
  /-- Halted through JTAG (R645); an SWD trap is pending, its cause, and that its handler has begun (R643). -/
  halted : Bool
  trap : Bool
  trapCause : BitVec 8
  took : Bool
  /-- CHAIN has been incremented for the warm reset in progress (R649). -/
  chained : Bool
  /-- CWD: the start of the period in progress with its PERIOD and OPEN (R632), KEYA (R633), and when it was frozen. -/
  start : Time
  period : Nat
  open_ : Nat
  keyA : Bool
  frozen : Option Time
  /-- SWD: armed, the start and the length of the period (R641), and the end of the hard timer (R643). -/
  armed : Bool
  swdStart : Time
  swdLen : Time
  hardEnd : Option Time
  /-- CHAIN, RESTARTED, the latched N and HEALTHY (R638), and the start of the healthy interval. -/
  chain : Nat
  restarted : Bool
  n : Nat
  healthy : Nat
  healthyFrom : Option Time
  /-- The firmware log (R630). -/
  log : Sp (BitVec 128)
deriving DecidableEq, Repr

/-- The watchdogs at a cold reset (R632, R638). -/
def Umv.zero : Umv :=
  { halted := false, trap := false, trapCause := 0, took := false, chained := false, start := 0, period := 8, open_ := 6, keyA := false, frozen := none, armed := false,
    swdStart := 0, swdLen := 0, hardEnd := none, chain := 0, restarted := false, n := 3, healthy := 10,
    healthyFrom := none, log := [] }

/-! ## Time and power (18_time_and_power.md) -/

/-- The timebase's alignment (R658 to R665). -/
structure Timebase where
  /-- Phase still to be slewed, and what one timebase clock adds of it, in units of 2^-32 ns. -/
  slew : Int
  slewTick : Int
  /-- Consecutive accepted events within the lock limit (R659). -/
  lockRun : Nat
  /-- The last accepted PPS edge (R661). -/
  edge : Option Time
  /-- The d of the last 16 accepted exchanges, in units of 2^-16 ns, and consecutive rejections (R664). -/
  delays : List Int
  rejects : Nat
  /-- SEQ of the next request; the request of the last interval: its SEQ and T1; when it was sent (R662, R665). -/
  seq : Tag
  req : Option (Tag × Time)
  sentAt : Time
  /-- A VID evaluation: when the last was, and how many since the last change (R675). -/
  evalAt : Time
  evals : Nat
  /-- The last evaluation was in TRACK (R675). -/
  track : Bool
deriving DecidableEq, Repr

/-- A timebase that nothing has aligned. (Log 12: DESIGN CHOICE) -/
def Timebase.zero : Timebase :=
  { slew := 0, slewTick := 0, lockRun := 0, edge := none, delays := [], rejects := 0, seq := 0, req := none, sentAt := 0,
    evalAt := 0, evals := 0, track := false }

/-! ## Tenants (12_tenants.md, 14_pattern_image.md) -/

/-- A staging buffer (R476): its generation, its owner tag and its words. -/
structure Staging where
  used : Bool
  gen : BitVec 11
  ten : Tenant
  master : BitVec 21
  words : Sp Word
deriving DecidableEq, Repr

/-- A free staging buffer of generation 0. (Log 7: DESIGN CHOICE) -/
def Staging.zero : Staging := ⟨false, 0, 0, 0, []⟩

/-- An accepted overlay: the tenant and its new Pattern section, if it has one (14 R563). -/
structure Overlay where
  ten : Tenant
  cfg : Option TenCfg
deriving DecidableEq, Repr

/-- The tenants' resets and overlays. -/
structure Tenants where
  /-- Tenants in reset in the order of their GO writes (12 R483), and the time of each GO. -/
  queue : List Tenant
  at_ : Sp Time
  /-- The step in progress of the first tenant has completed its work. -/
  done : Bool
  staging : Sp Staging
  /-- The overlay that the loader holds (14 R569): its tenant and the copy of the buffer. -/
  load : Option (Tenant × Sp Word)
  /-- The highest OVL_SEQ accepted per tenant (14 R564), held narrowing overlays (12 R481), those validated during the
  CLEAR of their tenant or waiting for the range engine (10 R402), in order of acceptance. -/
  seq : Sp Nat
  held : Sp (Option Overlay)
  waiting : List Overlay
  /-- Current tolerance code set by a LatencyTolerance (18 R667); answers that wait for a wake (18 R669). -/
  tol : Sp (Option Nat)
  answers : List Msg
deriving DecidableEq, Repr

/-- No tenant in reset, no overlay, no buffer. -/
def Tenants.zero : Tenants :=
  { queue := [], at_ := [], done := false, staging := [], load := none, seq := [], held := [], waiting := [], tol := [],
    answers := [] }

/-- Latent tests (19 R690, R707): when the rounds began, the round in progress, the tests completed in it by unit, and
whether one failed. -/
structure Latent where
  from_ : Option Time
  round : Nat
  ran : List (BitVec 8 × BitVec 8)
  failed : Bool
deriving DecidableEq, Repr

/-- No test has run. -/
def Latent.zero : Latent := ⟨none, 0, [], false⟩

/-! ## The Jig (20_jig_fault_injection.md) -/

/-- What an armed channel has counted (R718): when it was armed, its matches since then, the last VALUE µs in which a
TIME trigger fired, and that it has fired for the last time. -/
structure JigRun where
  armedAt : Time
  matches_ : Nat
  lastWin : Nat
  spent : Bool
deriving DecidableEq, Repr

/-! ## Error log (19 R699) -/

/-- What the safety monitor has decided while a command was performed and carries out at that command's end
(19 R695, R697): none is left between two commands. -/
inductive Reaction where
  /-- Fence physical slice `k` (01 R27). -/
  | fence (k : Nat) (cause : BitVec 8)
  /-- The safe state has been entered: answer what waits (06 R247). -/
  | safe
  /-- A warm reset (19 R697). -/
  | warm
  /-- A tenant reset, as a write of TNTn_RST_CMD.GO would request (19 R695). -/
  | tenantReset (t : Tenant)
  /-- Jig channel `c` has fired without REPEAT and disarms (20 R718). -/
  | jigSpent (c : Nat)
  /-- A reset of port `p` has begun: its combining entries are flushed (08 R341). -/
  | portFlush (p : Nat)
  /-- An entry of slice `k` has closed: transactions chained there may be admitted (07 R256). -/
  | admitNext (k : Nat)
  /-- Transactions of slice `k` that wait for a way of SF set `set` choose again (07 R281). -/
  | way (k set : Nat)
  /-- A posted or non-temporal write has become visible: writes behind a FenceW may go on (08 R315). -/
  | visible
  /-- A transaction of an engine has been admitted with tracker `t` of slice `k` and acts. -/
  | start (k t : Nat)
  /-- Element `i` of gather `g` of slice `c` is finished: the next of a first-fault form follows (08 R332, R333). -/
  | element (c g : Nat)
deriving DecidableEq, Repr

/-- One entry of the error log. -/
structure LogEntry where
  time : Time
  cls : BitVec 3
  inj : Bool
  ten : Option Tenant
  unit : BitVec 8
  cause : BitVec 8
  addr : Option Addr
deriving DecidableEq, Repr

end Sys2Proof.Machine
end

