-- ==== Sys2Proof/Machine/RegMap.lean ====
section
/-!
DEFINITION. The register map of the chiplet (21_register_reference.md R729): every named field of every register with its
address and bits, the access codes and legal values of the fields that a write can change, and the reset values.
The tables are those of R63 to R67, R102, R104, R152, R196, R242, R287, R336, R337, R377, R418, R419, R457, R494, R532,
R566, R596, R618, R646, R677, R707, R723 and R748.
-/
namespace Sys2Proof.Machine

/-- A field of a register: the base of its block, the stride of the instances of the block, the offset, the stride
within a group of registers of one name, the lowest bit and the width. -/
structure Fld where
  base : Nat
  stride : Nat
  off : Nat
  mstr : Nat
  lsb : Nat
  wid : Nat
deriving DecidableEq, Repr

/-- The address of the register of field `f`, instance `n`, member `m` of its group (R729). -/
def Fld.addr (f : Fld) (n m : Nat) : Nat := f.base + f.stride * n + f.off + f.mstr * m

/-- The access codes of a field that a write may change (00_scope.md R13). -/
inductive Acc where
  | rw | rws | rwl | w1c | clr
deriving DecidableEq, Repr

namespace F
/-! Fields of R63. -/
def SLC_DMON_CTL_CLR_MIN : Fld := ⟨0x20000, 0x1000, 0xE00, 0, 9, 1⟩
def SLC_DMON_CTL_START : Fld := ⟨0x20000, 0x1000, 0xE00, 0, 8, 1⟩
def SLC_DMON_CTL_INTERVAL : Fld := ⟨0x20000, 0x1000, 0xE00, 0, 4, 4⟩
def SLC_DMON_CTL_WINDOW : Fld := ⟨0x20000, 0x1000, 0xE00, 0, 2, 2⟩
def SLC_DMON_CTL_AUTO : Fld := ⟨0x20000, 0x1000, 0xE00, 0, 0, 1⟩
/-! Fields of R64. -/
def SLC_DMON_SPEED_VALID : Fld := ⟨0x20000, 0x1000, 0xE04, 0, 31, 1⟩
def SLC_DMON_SPEED_WIN : Fld := ⟨0x20000, 0x1000, 0xE04, 0, 20, 2⟩
def SLC_DMON_SPEED_COUNT : Fld := ⟨0x20000, 0x1000, 0xE04, 0, 0, 20⟩
/-! Fields of R65. -/
def SLC_DMON_FACTOR_MIN : Fld := ⟨0x20000, 0x1000, 0xE08, 0, 16, 16⟩
def SLC_DMON_FACTOR_FACTOR : Fld := ⟨0x20000, 0x1000, 0xE08, 0, 0, 16⟩
/-! Fields of R66. -/
def SLC_DMON_AGE_VALID : Fld := ⟨0x20000, 0x1000, 0xE0C, 0, 31, 1⟩
def SLC_DMON_AGE_AGE : Fld := ⟨0x20000, 0x1000, 0xE0C, 0, 0, 16⟩
/-! Fields of R67. -/
def SLC_DMON_BASE_BASE : Fld := ⟨0x20000, 0x1000, 0xE10, 0, 0, 16⟩
/-! Fields of R102. -/
def GLB_HPROBE_ADDR_LO_ADDR_LO : Fld := ⟨0x0, 0x0, 0x140, 0, 6, 26⟩
def GLB_HPROBE_ADDR_HI_GO : Fld := ⟨0x0, 0x0, 0x144, 0, 31, 1⟩
def GLB_HPROBE_ADDR_HI_ADDR_HI : Fld := ⟨0x0, 0x0, 0x144, 0, 0, 20⟩
def GLB_HPROBE_RES0_VALID : Fld := ⟨0x0, 0x0, 0x148, 0, 31, 1⟩
def GLB_HPROBE_RES0_UNHOMED : Fld := ⟨0x0, 0x0, 0x148, 0, 30, 1⟩
def GLB_HPROBE_RES0_RANGE : Fld := ⟨0x0, 0x0, 0x148, 0, 24, 6⟩
def GLB_HPROBE_RES0_MPORT : Fld := ⟨0x0, 0x0, 0x148, 0, 20, 4⟩
def GLB_HPROBE_RES0_PSLICE : Fld := ⟨0x0, 0x0, 0x148, 0, 15, 5⟩
def GLB_HPROBE_RES0_LSLICE : Fld := ⟨0x0, 0x0, 0x148, 0, 11, 4⟩
def GLB_HPROBE_RES0_HASH : Fld := ⟨0x0, 0x0, 0x148, 0, 0, 8⟩
def GLB_HPROBE_RES1_HC_SET : Fld := ⟨0x0, 0x0, 0x14C, 0, 16, 10⟩
def GLB_HPROBE_RES1_SF_SET : Fld := ⟨0x0, 0x0, 0x14C, 0, 0, 16⟩
/-! Fields of R104. -/
def PRT_RT_ERRCNT_CLR : Fld := ⟨0x10000, 0x1000, 0x600, 0, 31, 1⟩
def PRT_RT_ERRCNT_SRC : Fld := ⟨0x10000, 0x1000, 0x600, 0, 16, 15⟩
def PRT_RT_ERRCNT_XIT : Fld := ⟨0x10000, 0x1000, 0x600, 0, 0, 15⟩
def PRT_RT_DROPCNT_CLR : Fld := ⟨0x10000, 0x1000, 0x604, 0, 31, 1⟩
def PRT_RT_DROPCNT_NOROUTE : Fld := ⟨0x10000, 0x1000, 0x604, 0, 16, 15⟩
def PRT_RT_DROPCNT_SAFE : Fld := ⟨0x10000, 0x1000, 0x604, 0, 0, 15⟩
/-! Fields of R152. -/
def PRT_LL_CTL_CAP_RATE : Fld := ⟨0x10000, 0x1000, 0x0, 0, 6, 2⟩
def PRT_LL_CTL_RETRAIN : Fld := ⟨0x10000, 0x1000, 0x0, 0, 2, 1⟩
def PRT_LL_CTL_PORT_RESET : Fld := ⟨0x10000, 0x1000, 0x0, 0, 1, 1⟩
def PRT_LL_STATUS_PARTNER_NODE : Fld := ⟨0x10000, 0x1000, 0x4, 0, 12, 20⟩
def PRT_LL_STATUS_PARTNER_AGENT : Fld := ⟨0x10000, 0x1000, 0x4, 0, 8, 4⟩
def PRT_LL_STATUS_REPAIRED : Fld := ⟨0x10000, 0x1000, 0x4, 0, 6, 1⟩
def PRT_LL_STATUS_RATE : Fld := ⟨0x10000, 0x1000, 0x4, 0, 4, 2⟩
def PRT_LL_STATUS_STATE : Fld := ⟨0x10000, 0x1000, 0x4, 0, 0, 4⟩
def PRT_LL_TIMER_RETRAIN_LIMIT : Fld := ⟨0x10000, 0x1000, 0x8, 0, 12, 4⟩
def PRT_LL_TIMER_REPLAY_LIMIT : Fld := ⟨0x10000, 0x1000, 0x8, 0, 8, 4⟩
def PRT_LL_TIMER_ACK_DLY : Fld := ⟨0x10000, 0x1000, 0x8, 0, 4, 4⟩
def PRT_LL_TIMER_REPLAY_TMO : Fld := ⟨0x10000, 0x1000, 0x8, 0, 0, 4⟩
def PRT_LL_ERRCNT0_CLR : Fld := ⟨0x10000, 0x1000, 0xC, 0, 31, 1⟩
def PRT_LL_ERRCNT0_CRC : Fld := ⟨0x10000, 0x1000, 0xC, 0, 16, 15⟩
def PRT_LL_ERRCNT0_NAK : Fld := ⟨0x10000, 0x1000, 0xC, 0, 0, 15⟩
def PRT_LL_ERRCNT1_CLR : Fld := ⟨0x10000, 0x1000, 0x10, 0, 31, 1⟩
def PRT_LL_ERRCNT1_REPLAY : Fld := ⟨0x10000, 0x1000, 0x10, 0, 16, 15⟩
def PRT_LL_ERRCNT1_RETRAIN : Fld := ⟨0x10000, 0x1000, 0x10, 0, 8, 7⟩
def PRT_LL_ERRCNT1_LRESET : Fld := ⟨0x10000, 0x1000, 0x10, 0, 0, 8⟩
def PRT_LL_DUPCNT_CLR : Fld := ⟨0x10000, 0x1000, 0x14, 0, 31, 1⟩
def PRT_LL_DUPCNT_DUP : Fld := ⟨0x10000, 0x1000, 0x14, 0, 16, 15⟩
def PRT_LL_DUPCNT_PARTIAL : Fld := ⟨0x10000, 0x1000, 0x14, 0, 0, 15⟩
def PRT_LL_LASTERR_VALID : Fld := ⟨0x10000, 0x1000, 0x18, 0, 31, 1⟩
def PRT_LL_LASTERR_CAUSE : Fld := ⟨0x10000, 0x1000, 0x18, 0, 12, 4⟩
def PRT_LL_LASTERR_EXPECT : Fld := ⟨0x10000, 0x1000, 0x18, 0, 0, 12⟩
def PRT_LL_REPAIR_RX_CTL : Fld := ⟨0x10000, 0x1000, 0x1C, 0, 9, 1⟩
def PRT_LL_REPAIR_TX_CTL : Fld := ⟨0x10000, 0x1000, 0x1C, 0, 8, 1⟩
def PRT_LL_REPAIR_RX_COUNT : Fld := ⟨0x10000, 0x1000, 0x1C, 0, 4, 3⟩
def PRT_LL_REPAIR_TX_COUNT : Fld := ⟨0x10000, 0x1000, 0x1C, 0, 0, 3⟩
def PRT_LL_CRSEL_CLASS : Fld := ⟨0x10000, 0x1000, 0x20, 0, 0, 3⟩
def PRT_LL_CRVAL_ADV : Fld := ⟨0x10000, 0x1000, 0x24, 0, 16, 12⟩
def PRT_LL_CRVAL_AVAIL : Fld := ⟨0x10000, 0x1000, 0x24, 0, 0, 12⟩
/-! Fields of R196. -/
def PRT_MSG_ERRCNT0_CLR : Fld := ⟨0x10000, 0x1000, 0x100, 0, 31, 1⟩
def PRT_MSG_ERRCNT0_ECHK : Fld := ⟨0x10000, 0x1000, 0x100, 0, 16, 15⟩
def PRT_MSG_ERRCNT0_ILLOP : Fld := ⟨0x10000, 0x1000, 0x100, 0, 0, 15⟩
def PRT_MSG_ERRCNT1_CLR : Fld := ⟨0x10000, 0x1000, 0x104, 0, 31, 1⟩
def PRT_MSG_ERRCNT1_UNEXP : Fld := ⟨0x10000, 0x1000, 0x104, 0, 16, 15⟩
def PRT_MSG_ERRCNT1_FIELD : Fld := ⟨0x10000, 0x1000, 0x104, 0, 0, 15⟩
def PRT_MSG_LAST_VALID : Fld := ⟨0x10000, 0x1000, 0x108, 0, 31, 1⟩
def PRT_MSG_LAST_CASE : Fld := ⟨0x10000, 0x1000, 0x108, 0, 16, 4⟩
def PRT_MSG_LAST_LEN : Fld := ⟨0x10000, 0x1000, 0x108, 0, 8, 5⟩
def PRT_MSG_LAST_OPCODE : Fld := ⟨0x10000, 0x1000, 0x108, 0, 0, 8⟩
def PRT_MSG_LASTSRC_SRC : Fld := ⟨0x10000, 0x1000, 0x10C, 0, 0, 20⟩
/-! Fields of R242. -/
def SLC_COH_CTL_RCM_EN : Fld := ⟨0x20000, 0x1000, 0xA00, 0, 1, 1⟩
def SLC_COH_CTL_SPEC_EN : Fld := ⟨0x20000, 0x1000, 0xA00, 0, 0, 1⟩
def SLC_COH_SPECUSED_COUNT : Fld := ⟨0x20000, 0x1000, 0xA04, 0, 0, 32⟩
def SLC_COH_SPECWASTE_COUNT : Fld := ⟨0x20000, 0x1000, 0xA08, 0, 0, 32⟩
def SLC_COH_SEIZECNT_CLR : Fld := ⟨0x20000, 0x1000, 0xA0C, 0, 31, 1⟩
def SLC_COH_SEIZECNT_OWNER : Fld := ⟨0x20000, 0x1000, 0xA0C, 0, 20, 11⟩
def SLC_COH_SEIZECNT_SHARER : Fld := ⟨0x20000, 0x1000, 0xA0C, 0, 10, 10⟩
def SLC_COH_SEIZECNT_SETTLE : Fld := ⟨0x20000, 0x1000, 0xA0C, 0, 0, 10⟩
def SLC_COH_TMOCNT_CLR : Fld := ⟨0x20000, 0x1000, 0xA10, 0, 31, 1⟩
def SLC_COH_TMOCNT_ACK : Fld := ⟨0x20000, 0x1000, 0xA10, 0, 16, 15⟩
def SLC_COH_TMOCNT_MEM : Fld := ⟨0x20000, 0x1000, 0xA10, 0, 0, 15⟩
def SLC_COH_LASTSEIZE0_ADDR_LO : Fld := ⟨0x20000, 0x1000, 0xA14, 0, 6, 26⟩
def SLC_COH_LASTSEIZE0_KIND : Fld := ⟨0x20000, 0x1000, 0xA14, 0, 0, 2⟩
def SLC_COH_LASTSEIZE1_VALID : Fld := ⟨0x20000, 0x1000, 0xA18, 0, 31, 1⟩
def SLC_COH_LASTSEIZE1_TENANT : Fld := ⟨0x20000, 0x1000, 0xA18, 0, 20, 7⟩
def SLC_COH_LASTSEIZE1_ADDR_HI : Fld := ⟨0x20000, 0x1000, 0xA18, 0, 0, 20⟩
def SLC_COH_LASTSEIZE2_K : Fld := ⟨0x20000, 0x1000, 0xA1C, 0, 20, 5⟩
def SLC_COH_LASTSEIZE2_NODE : Fld := ⟨0x20000, 0x1000, 0xA1C, 0, 0, 20⟩
/-! Fields of R287. -/
def SLC_SHED_CTL_TWIN : Fld := ⟨0x20000, 0x1000, 0xB00, 0, 0, 4⟩
def SLC_SHED_OCC_MAXDEPTH : Fld := ⟨0x20000, 0x1000, 0xB04, 0, 24, 8⟩
def SLC_SHED_OCC_CHAIN : Fld := ⟨0x20000, 0x1000, 0xB04, 0, 12, 12⟩
def SLC_SHED_OCC_OPEN : Fld := ⟨0x20000, 0x1000, 0xB04, 0, 0, 11⟩
def SLC_SHED_WOCC_LOSTN : Fld := ⟨0x20000, 0x1000, 0xB08, 0, 16, 16⟩
def SLC_SHED_WOCC_LIVE : Fld := ⟨0x20000, 0x1000, 0xB08, 0, 0, 16⟩
def SLC_SHED_DUPCNT0_CLR : Fld := ⟨0x20000, 0x1000, 0xB0C, 0, 31, 1⟩
def SLC_SHED_DUPCNT0_DUP_OPEN : Fld := ⟨0x20000, 0x1000, 0xB0C, 0, 20, 11⟩
def SLC_SHED_DUPCNT0_RESENT : Fld := ⟨0x20000, 0x1000, 0xB0C, 0, 10, 10⟩
def SLC_SHED_DUPCNT0_QUIET : Fld := ⟨0x20000, 0x1000, 0xB0C, 0, 0, 10⟩
def SLC_SHED_DUPCNT1_CLR : Fld := ⟨0x20000, 0x1000, 0xB10, 0, 31, 1⟩
def SLC_SHED_DUPCNT1_REEXEC : Fld := ⟨0x20000, 0x1000, 0xB10, 0, 20, 11⟩
def SLC_SHED_DUPCNT1_TAGCLASH : Fld := ⟨0x20000, 0x1000, 0xB10, 0, 10, 10⟩
def SLC_SHED_DUPCNT1_LOST : Fld := ⟨0x20000, 0x1000, 0xB10, 0, 0, 10⟩
def SLC_SHED_WSTALL_COUNT : Fld := ⟨0x20000, 0x1000, 0xB14, 0, 0, 32⟩
def SLC_SHED_STALL_COUNT : Fld := ⟨0x20000, 0x1000, 0xB18, 0, 0, 32⟩
def SLC_SHED_XDATA_COUNT : Fld := ⟨0x20000, 0x1000, 0xB1C, 0, 0, 32⟩
/-! Fields of R336. -/
def PRT_WB_CTL_CWB_TMO : Fld := ⟨0x10000, 0x1000, 0x700, 0, 0, 3⟩
def PRT_WB_OCC_PWB_MAX : Fld := ⟨0x10000, 0x1000, 0x704, 0, 24, 8⟩
def PRT_WB_OCC_PWB : Fld := ⟨0x10000, 0x1000, 0x704, 0, 16, 8⟩
def PRT_WB_OCC_CWB_MAX : Fld := ⟨0x10000, 0x1000, 0x704, 0, 8, 6⟩
def PRT_WB_OCC_CWB : Fld := ⟨0x10000, 0x1000, 0x704, 0, 0, 6⟩
def PRT_WB_FLUSH0_CLR : Fld := ⟨0x10000, 0x1000, 0x708, 0, 31, 1⟩
def PRT_WB_FLUSH0_TMO : Fld := ⟨0x10000, 0x1000, 0x708, 0, 16, 15⟩
def PRT_WB_FLUSH0_FULL : Fld := ⟨0x10000, 0x1000, 0x708, 0, 0, 15⟩
def PRT_WB_FLUSH1_CLR : Fld := ⟨0x10000, 0x1000, 0x70C, 0, 31, 1⟩
def PRT_WB_FLUSH1_FENCE : Fld := ⟨0x10000, 0x1000, 0x70C, 0, 16, 15⟩
def PRT_WB_FLUSH1_TOUCH : Fld := ⟨0x10000, 0x1000, 0x70C, 0, 0, 15⟩
def PRT_WB_FLUSH2_CLR : Fld := ⟨0x10000, 0x1000, 0x710, 0, 31, 1⟩
def PRT_WB_FLUSH2_SECTOR : Fld := ⟨0x10000, 0x1000, 0x710, 0, 16, 15⟩
def PRT_WB_FLUSH2_DISC : Fld := ⟨0x10000, 0x1000, 0x710, 0, 0, 15⟩
/-! Fields of R337. -/
def SLC_RSV_CTL_HOLD_EN : Fld := ⟨0x20000, 0x1000, 0xC00, 0, 0, 1⟩
def SLC_RSV_OCC_HOLD : Fld := ⟨0x20000, 0x1000, 0xC04, 0, 16, 8⟩
def SLC_RSV_OCC_REC : Fld := ⟨0x20000, 0x1000, 0xC04, 0, 8, 8⟩
def SLC_RSV_OCC_RSV : Fld := ⟨0x20000, 0x1000, 0xC04, 0, 0, 8⟩
def SLC_RSV_CNT0_CLR : Fld := ⟨0x20000, 0x1000, 0xC08, 0, 31, 1⟩
def SLC_RSV_CNT0_OK : Fld := ⟨0x20000, 0x1000, 0xC08, 0, 16, 15⟩
def SLC_RSV_CNT0_FAIL : Fld := ⟨0x20000, 0x1000, 0xC08, 0, 0, 15⟩
def SLC_RSV_CNT1_CLR : Fld := ⟨0x20000, 0x1000, 0xC0C, 0, 31, 1⟩
def SLC_RSV_CNT1_EVICT : Fld := ⟨0x20000, 0x1000, 0xC0C, 0, 16, 15⟩
def SLC_RSV_CNT1_HOLDS : Fld := ⟨0x20000, 0x1000, 0xC0C, 0, 0, 15⟩
def SLC_ATOM_CNT_COUNT : Fld := ⟨0x20000, 0x1000, 0xC10, 0, 0, 32⟩
def SLC_GATH_CNT_CLR : Fld := ⟨0x20000, 0x1000, 0xC14, 0, 31, 1⟩
def SLC_GATH_CNT_FAULT : Fld := ⟨0x20000, 0x1000, 0xC14, 0, 16, 15⟩
def SLC_GATH_CNT_SKIP : Fld := ⟨0x20000, 0x1000, 0xC14, 0, 0, 15⟩
/-! Fields of R377. -/
def SLC_SF_CTL_SCRUB_INT : Fld := ⟨0x20000, 0x1000, 0x800, 0, 0, 4⟩
def SLC_SF_OCC_VALID : Fld := ⟨0x20000, 0x1000, 0x804, 0, 0, 21⟩
def SLC_SF_V48N_COUNT : Fld := ⟨0x20000, 0x1000, 0x808, 0, 0, 21⟩
def SLC_SF_ALLN_COUNT : Fld := ⟨0x20000, 0x1000, 0x80C, 0, 0, 21⟩
def SLC_SF_XFMT_CLR : Fld := ⟨0x20000, 0x1000, 0x810, 0, 31, 1⟩
def SLC_SF_XFMT_PROMO : Fld := ⟨0x20000, 0x1000, 0x810, 0, 16, 15⟩
def SLC_SF_XFMT_DEMO : Fld := ⟨0x20000, 0x1000, 0x810, 0, 0, 15⟩
def SLC_SF_BINV_COUNT : Fld := ⟨0x20000, 0x1000, 0x814, 0, 0, 32⟩
def SLC_SF_ECCCNT_CLR : Fld := ⟨0x20000, 0x1000, 0x818, 0, 31, 1⟩
def SLC_SF_ECCCNT_CE : Fld := ⟨0x20000, 0x1000, 0x818, 0, 16, 15⟩
def SLC_SF_ECCCNT_UE : Fld := ⟨0x20000, 0x1000, 0x818, 0, 0, 15⟩
def SLC_SF_ECCLAST_VALID : Fld := ⟨0x20000, 0x1000, 0x81C, 0, 31, 1⟩
def SLC_SF_ECCLAST_UE : Fld := ⟨0x20000, 0x1000, 0x81C, 0, 30, 1⟩
def SLC_SF_ECCLAST_WAY : Fld := ⟨0x20000, 0x1000, 0x81C, 0, 16, 4⟩
def SLC_SF_ECCLAST_SET : Fld := ⟨0x20000, 0x1000, 0x81C, 0, 0, 16⟩
def SLC_SF_RETIRE_USED : Fld := ⟨0x20000, 0x1000, 0x820, 0, 0, 9⟩
def SLC_SF_LOOSE_CLEAR : Fld := ⟨0x20000, 0x1000, 0x824, 0, 31, 1⟩
def SLC_SF_LOOSE_SETS : Fld := ⟨0x20000, 0x1000, 0x824, 0, 0, 17⟩
def SLC_SF_RECALL_COUNT : Fld := ⟨0x20000, 0x1000, 0x828, 0, 0, 32⟩
def SLC_SF_CENSUS_ACTIVE : Fld := ⟨0x20000, 0x1000, 0x82C, 0, 31, 1⟩
def SLC_SF_CENSUS_UNREAD : Fld := ⟨0x20000, 0x1000, 0x82C, 0, 30, 1⟩
def SLC_SF_CENSUS_DONE : Fld := ⟨0x20000, 0x1000, 0x82C, 0, 0, 17⟩
def SLC_SF_TQSEL_TENANT : Fld := ⟨0x20000, 0x1000, 0x830, 0, 0, 7⟩
def SLC_SF_TQVAL_QUOTA : Fld := ⟨0x20000, 0x1000, 0x834, 0, 21, 5⟩
def SLC_SF_TQVAL_HELD : Fld := ⟨0x20000, 0x1000, 0x834, 0, 0, 21⟩
def SLC_SF_RDSEL_GO : Fld := ⟨0x20000, 0x1000, 0x838, 0, 31, 1⟩
def SLC_SF_RDSEL_WAY : Fld := ⟨0x20000, 0x1000, 0x838, 0, 16, 4⟩
def SLC_SF_RDSEL_SET : Fld := ⟨0x20000, 0x1000, 0x838, 0, 0, 16⟩
def SLC_SF_RDDATA_DATA : Fld := ⟨0x20000, 0x1000, 0x83C, 4, 0, 32⟩
def SLC_SF_RDDATA3_VALID : Fld := ⟨0x20000, 0x1000, 0x848, 0, 31, 1⟩
def SLC_SF_RDDATA3_UE : Fld := ⟨0x20000, 0x1000, 0x848, 0, 30, 1⟩
def SLC_SF_RDDATA3_DATA : Fld := ⟨0x20000, 0x1000, 0x848, 0, 0, 22⟩
/-! Fields of R418. -/
def SLC_HC_CTL_SCRUB_INT : Fld := ⟨0x20000, 0x1000, 0x900, 0, 0, 4⟩
def SLC_HC_VALID_COUNT : Fld := ⟨0x20000, 0x1000, 0x904, 0, 0, 17⟩
def SLC_HC_DIRTY_COUNT : Fld := ⟨0x20000, 0x1000, 0x908, 0, 0, 17⟩
def SLC_HC_HIT_COUNT : Fld := ⟨0x20000, 0x1000, 0x90C, 0, 0, 32⟩
def SLC_HC_MISS_COUNT : Fld := ⟨0x20000, 0x1000, 0x910, 0, 0, 32⟩
def SLC_HC_EVICT_CLR : Fld := ⟨0x20000, 0x1000, 0x914, 0, 31, 1⟩
def SLC_HC_EVICT_SECTORS : Fld := ⟨0x20000, 0x1000, 0x914, 0, 16, 15⟩
def SLC_HC_EVICT_BYPASS : Fld := ⟨0x20000, 0x1000, 0x914, 0, 0, 15⟩
def SLC_HC_OFFER_CLR : Fld := ⟨0x20000, 0x1000, 0x918, 0, 31, 1⟩
def SLC_HC_OFFER_ACCEPT : Fld := ⟨0x20000, 0x1000, 0x918, 0, 16, 15⟩
def SLC_HC_OFFER_DECLINE : Fld := ⟨0x20000, 0x1000, 0x918, 0, 0, 15⟩
def SLC_HC_ECCCNT_CLR : Fld := ⟨0x20000, 0x1000, 0x91C, 0, 31, 1⟩
def SLC_HC_ECCCNT_CE : Fld := ⟨0x20000, 0x1000, 0x91C, 0, 16, 15⟩
def SLC_HC_ECCCNT_UE : Fld := ⟨0x20000, 0x1000, 0x91C, 0, 0, 15⟩
def SLC_HC_TAGCNT_CLR : Fld := ⟨0x20000, 0x1000, 0x920, 0, 31, 1⟩
def SLC_HC_TAGCNT_CLEAN : Fld := ⟨0x20000, 0x1000, 0x920, 0, 16, 15⟩
def SLC_HC_TAGCNT_LOST : Fld := ⟨0x20000, 0x1000, 0x920, 0, 0, 15⟩
def SLC_HC_ERRLAST_VALID : Fld := ⟨0x20000, 0x1000, 0x924, 0, 31, 1⟩
def SLC_HC_ERRLAST_KIND : Fld := ⟨0x20000, 0x1000, 0x924, 0, 28, 3⟩
def SLC_HC_ERRLAST_SUB : Fld := ⟨0x20000, 0x1000, 0x924, 0, 14, 2⟩
def SLC_HC_ERRLAST_WAY : Fld := ⟨0x20000, 0x1000, 0x924, 0, 10, 4⟩
def SLC_HC_ERRLAST_SET : Fld := ⟨0x20000, 0x1000, 0x924, 0, 0, 10⟩
def SLC_HC_RETIRE_USED : Fld := ⟨0x20000, 0x1000, 0x928, 0, 0, 8⟩
def SLC_HC_LOSTSEL_INDEX : Fld := ⟨0x20000, 0x1000, 0x92C, 0, 0, 3⟩
def SLC_HC_LOSTVAL_VALID : Fld := ⟨0x20000, 0x1000, 0x930, 0, 31, 1⟩
def SLC_HC_LOSTVAL_NTEN : Fld := ⟨0x20000, 0x1000, 0x930, 0, 23, 8⟩
def SLC_HC_LOSTVAL_WAY : Fld := ⟨0x20000, 0x1000, 0x930, 0, 10, 4⟩
def SLC_HC_LOSTVAL_SET : Fld := ⟨0x20000, 0x1000, 0x930, 0, 0, 10⟩
def SLC_HC_LFSR_STATE : Fld := ⟨0x20000, 0x1000, 0x934, 0, 0, 16⟩
def SLC_HC_TQSEL_TENANT : Fld := ⟨0x20000, 0x1000, 0x938, 0, 0, 7⟩
def SLC_HC_TQVAL_WAYMASK : Fld := ⟨0x20000, 0x1000, 0x93C, 0, 16, 16⟩
def SLC_HC_TQVAL_SECTORS : Fld := ⟨0x20000, 0x1000, 0x93C, 0, 0, 15⟩
/-! Fields of R419. -/
def HCM_MODE_CTL_DISABLE : Fld := ⟨0x6000, 0x0, 0x0, 0, 0, 1⟩
def HCM_MODE_STATUS_BUSY : Fld := ⟨0x6000, 0x0, 0x4, 0, 31, 1⟩
def HCM_MODE_STATUS_PEND_EN : Fld := ⟨0x6000, 0x0, 0x4, 0, 30, 1⟩
def HCM_MODE_STATUS_SETS_DONE : Fld := ⟨0x6000, 0x0, 0x4, 0, 2, 11⟩
def HCM_MODE_STATUS_MODE : Fld := ⟨0x6000, 0x0, 0x4, 0, 0, 2⟩
def HCM_MOP_ADDR_LO_ADDR_LO : Fld := ⟨0x6000, 0x0, 0x10, 0, 6, 26⟩
def HCM_MOP_ADDR_HI_ADDR_HI : Fld := ⟨0x6000, 0x0, 0x14, 0, 0, 20⟩
def HCM_MOP_CMD_GO : Fld := ⟨0x6000, 0x0, 0x18, 0, 31, 1⟩
def HCM_MOP_CMD_SLICE : Fld := ⟨0x6000, 0x0, 0x18, 0, 21, 5⟩
def HCM_MOP_CMD_WAY : Fld := ⟨0x6000, 0x0, 0x18, 0, 17, 4⟩
def HCM_MOP_CMD_SET : Fld := ⟨0x6000, 0x0, 0x18, 0, 7, 10⟩
def HCM_MOP_CMD_KIND : Fld := ⟨0x6000, 0x0, 0x18, 0, 2, 1⟩
def HCM_MOP_CMD_OP : Fld := ⟨0x6000, 0x0, 0x18, 0, 0, 2⟩
def HCM_MOP_STATUS_BUSY : Fld := ⟨0x6000, 0x0, 0x1C, 0, 31, 1⟩
def HCM_MOP_STATUS_RESULT : Fld := ⟨0x6000, 0x0, 0x1C, 0, 0, 3⟩
def HCM_RNG_BASE_LO_ADDR_LO : Fld := ⟨0x6000, 0x0, 0x20, 0, 6, 26⟩
def HCM_RNG_LIMIT_LO_ADDR_LO : Fld := ⟨0x6000, 0x0, 0x28, 0, 6, 26⟩
def HCM_RNG_BASE_HI_ADDR_HI : Fld := ⟨0x6000, 0x0, 0x24, 0, 0, 20⟩
def HCM_RNG_LIMIT_HI_ADDR_HI : Fld := ⟨0x6000, 0x0, 0x2C, 0, 0, 20⟩
def HCM_RNG_CMD_GO : Fld := ⟨0x6000, 0x0, 0x30, 0, 31, 1⟩
def HCM_RNG_CMD_ABORT : Fld := ⟨0x6000, 0x0, 0x30, 0, 30, 1⟩
def HCM_RNG_CMD_TENANT : Fld := ⟨0x6000, 0x0, 0x30, 0, 10, 7⟩
def HCM_RNG_CMD_TFILT : Fld := ⟨0x6000, 0x0, 0x30, 0, 9, 1⟩
def HCM_RNG_CMD_OP : Fld := ⟨0x6000, 0x0, 0x30, 0, 0, 2⟩
def HCM_RNG_STATUS_BUSY : Fld := ⟨0x6000, 0x0, 0x34, 0, 31, 1⟩
def HCM_RNG_STATUS_ABORTED : Fld := ⟨0x6000, 0x0, 0x34, 0, 30, 1⟩
def HCM_RNG_STATUS_REJECTED : Fld := ⟨0x6000, 0x0, 0x34, 0, 29, 1⟩
def HCM_RNG_STATUS_POISONED : Fld := ⟨0x6000, 0x0, 0x34, 0, 16, 12⟩
def HCM_RNG_STATUS_SETS_DONE : Fld := ⟨0x6000, 0x0, 0x34, 0, 0, 11⟩
def HCM_LOSS_CNT_COUNT : Fld := ⟨0x6000, 0x0, 0x40, 0, 0, 16⟩
def HCM_LOSS_ADDR_LO_ADDR_LO : Fld := ⟨0x6000, 0x0, 0x44, 0, 6, 26⟩
def HCM_LOSS_ADDR_HI_VALID : Fld := ⟨0x6000, 0x0, 0x48, 0, 31, 1⟩
def HCM_LOSS_ADDR_HI_ADDR_HI : Fld := ⟨0x6000, 0x0, 0x48, 0, 0, 20⟩
/-! Fields of R457. -/
def SLC_CLAMP_CTL_AGE_STEP : Fld := ⟨0x20000, 0x1000, 0xD00, 0, 0, 4⟩
def SLC_CLAMP_OCC_HANDLES : Fld := ⟨0x20000, 0x1000, 0xD04, 0, 0, 13⟩
def SLC_CLAMP_OCC_RECORDS : Fld := ⟨0x20000, 0x1000, 0xD04, 0, 16, 14⟩
def SLC_CLAMP_GRANTS_COUNT : Fld := ⟨0x20000, 0x1000, 0xD08, 0, 0, 32⟩
def SLC_CLAMP_ERRCNT_CLR : Fld := ⟨0x20000, 0x1000, 0xD0C, 0, 31, 1⟩
def SLC_CLAMP_ERRCNT_STALE : Fld := ⟨0x20000, 0x1000, 0xD0C, 0, 16, 15⟩
def SLC_CLAMP_ERRCNT_NOTOWN : Fld := ⟨0x20000, 0x1000, 0xD0C, 0, 0, 15⟩
def SLC_CLAMP_BRKCNT_CLR : Fld := ⟨0x20000, 0x1000, 0xD10, 0, 31, 1⟩
def SLC_CLAMP_BRKCNT_BROKEN : Fld := ⟨0x20000, 0x1000, 0xD10, 0, 16, 15⟩
def SLC_CLAMP_BRKCNT_FULL : Fld := ⟨0x20000, 0x1000, 0xD10, 0, 0, 15⟩
def SLC_CLAMP_BREAK_GO : Fld := ⟨0x20000, 0x1000, 0xD14, 0, 31, 1⟩
def SLC_CLAMP_BREAK_INDEX : Fld := ⟨0x20000, 0x1000, 0xD14, 0, 0, 12⟩
def SLC_CLAMP_HSEL_GO : Fld := ⟨0x20000, 0x1000, 0xD18, 0, 31, 1⟩
def SLC_CLAMP_HSEL_INDEX : Fld := ⟨0x20000, 0x1000, 0xD18, 0, 0, 12⟩
def SLC_CLAMP_HVAL0_VALID : Fld := ⟨0x20000, 0x1000, 0xD1C, 0, 31, 1⟩
def SLC_CLAMP_HVAL0_STATE : Fld := ⟨0x20000, 0x1000, 0xD1C, 0, 29, 2⟩
def SLC_CLAMP_HVAL0_EXCL : Fld := ⟨0x20000, 0x1000, 0xD1C, 0, 28, 1⟩
def SLC_CLAMP_HVAL0_GEN : Fld := ⟨0x20000, 0x1000, 0xD1C, 0, 16, 12⟩
def SLC_CLAMP_HVAL0_WAITERS : Fld := ⟨0x20000, 0x1000, 0xD1C, 0, 0, 14⟩
def SLC_CLAMP_HVAL1_TENANT : Fld := ⟨0x20000, 0x1000, 0xD20, 0, 20, 7⟩
def SLC_CLAMP_HVAL1_NODE : Fld := ⟨0x20000, 0x1000, 0xD20, 0, 0, 20⟩
def SLC_CLAMP_HVAL2_COUNT : Fld := ⟨0x20000, 0x1000, 0xD24, 0, 0, 21⟩
def SLC_CLAMP_MAXWAIT_CLR : Fld := ⟨0x20000, 0x1000, 0xD28, 0, 31, 1⟩
def SLC_CLAMP_MAXWAIT_US : Fld := ⟨0x20000, 0x1000, 0xD28, 0, 0, 31⟩
/-! Fields of R494. -/
def TNT_STATUS_PEND_OVL : Fld := ⟨0x40000, 0x100, 0x0, 0, 31, 1⟩
def TNT_STATUS_QUEUED : Fld := ⟨0x40000, 0x100, 0x0, 0, 30, 1⟩
def TNT_STATUS_STEP : Fld := ⟨0x40000, 0x100, 0x0, 0, 5, 3⟩
def TNT_STATUS_STATE : Fld := ⟨0x40000, 0x100, 0x0, 0, 0, 2⟩
def TNT_CTL_RCM : Fld := ⟨0x40000, 0x100, 0x4, 0, 9, 1⟩
def TNT_CTL_SPEC : Fld := ⟨0x40000, 0x100, 0x4, 0, 8, 1⟩
def TNT_CTL_SNP_TMO : Fld := ⟨0x40000, 0x100, 0x4, 0, 0, 5⟩
def TNT_RST_CMD_GO : Fld := ⟨0x40000, 0x100, 0x8, 0, 0, 1⟩
def TNT_RST_TIME_VALID : Fld := ⟨0x40000, 0x100, 0xC, 0, 31, 1⟩
def TNT_RST_TIME_US : Fld := ⟨0x40000, 0x100, 0xC, 0, 0, 31⟩
def TNT_RST_CNT_CLR : Fld := ⟨0x40000, 0x100, 0x10, 0, 31, 1⟩
def TNT_RST_CNT_ABORTED : Fld := ⟨0x40000, 0x100, 0x10, 0, 20, 11⟩
def TNT_RST_CNT_SEIZED : Fld := ⟨0x40000, 0x100, 0x10, 0, 10, 10⟩
def TNT_RST_CNT_KEPT : Fld := ⟨0x40000, 0x100, 0x10, 0, 0, 10⟩
def TNT_POOL_CAP : Fld := ⟨0x40000, 0x100, 0x14, 0, 8, 5⟩
def TNT_POOL_WEIGHT : Fld := ⟨0x40000, 0x100, 0x14, 0, 0, 8⟩
def TNT_PSEL_PORT : Fld := ⟨0x40000, 0x100, 0x18, 0, 0, 4⟩
def TNT_PVAL_CWB : Fld := ⟨0x40000, 0x100, 0x1C, 0, 20, 6⟩
def TNT_PVAL_PWB : Fld := ⟨0x40000, 0x100, 0x1C, 0, 12, 8⟩
def TNT_PVAL_INGRESS : Fld := ⟨0x40000, 0x100, 0x1C, 0, 0, 12⟩
def TNT_TRK_IN_USE : Fld := ⟨0x40000, 0x100, 0x20, 0, 0, 14⟩
def TNT_ACC_CNT_CLR : Fld := ⟨0x40000, 0x100, 0x24, 0, 31, 1⟩
def TNT_ACC_CNT_COUNT : Fld := ⟨0x40000, 0x100, 0x24, 0, 0, 31⟩
def TNT_ACC_LAST0_ADDR_LO : Fld := ⟨0x40000, 0x100, 0x28, 0, 6, 26⟩
def TNT_ACC_LAST0_KIND : Fld := ⟨0x40000, 0x100, 0x28, 0, 2, 1⟩
def TNT_ACC_LAST0_REASON : Fld := ⟨0x40000, 0x100, 0x28, 0, 0, 2⟩
def TNT_ACC_LAST1_VALID : Fld := ⟨0x40000, 0x100, 0x2C, 0, 31, 1⟩
def TNT_ACC_LAST1_OPCODE : Fld := ⟨0x40000, 0x100, 0x2C, 0, 20, 8⟩
def TNT_ACC_LAST1_ADDR_HI : Fld := ⟨0x40000, 0x100, 0x2C, 0, 0, 20⟩
def TNT_ACC_LAST2_SRC : Fld := ⟨0x40000, 0x100, 0x30, 0, 0, 20⟩
def TNT_STG_CMD_GO : Fld := ⟨0x40000, 0x100, 0x40, 0, 31, 1⟩
def TNT_STG_CMD_OP : Fld := ⟨0x40000, 0x100, 0x40, 0, 16, 2⟩
def TNT_STG_CMD_HANDLE : Fld := ⟨0x40000, 0x100, 0x40, 0, 0, 16⟩
def TNT_STG_STATUS_VALID : Fld := ⟨0x40000, 0x100, 0x44, 0, 31, 1⟩
def TNT_STG_STATUS_RESULT : Fld := ⟨0x40000, 0x100, 0x44, 0, 16, 3⟩
def TNT_STG_STATUS_HANDLE : Fld := ⟨0x40000, 0x100, 0x44, 0, 0, 16⟩
def TNT_STG_MASTER_I3C : Fld := ⟨0x40000, 0x100, 0x48, 0, 20, 1⟩
def TNT_STG_MASTER_ID : Fld := ⟨0x40000, 0x100, 0x48, 0, 0, 20⟩
def TNT_STG_ADDR_HANDLE : Fld := ⟨0x40000, 0x100, 0x4C, 0, 16, 16⟩
def TNT_STG_ADDR_OFFSET : Fld := ⟨0x40000, 0x100, 0x4C, 0, 2, 12⟩
def TNT_STG_DATA_DATA : Fld := ⟨0x40000, 0x100, 0x50, 0, 0, 32⟩
def TNT_STG_ERRCNT_CLR : Fld := ⟨0x40000, 0x100, 0x54, 0, 31, 1⟩
def TNT_STG_ERRCNT_STALE : Fld := ⟨0x40000, 0x100, 0x54, 0, 16, 15⟩
def TNT_STG_ERRCNT_NOTOWN : Fld := ⟨0x40000, 0x100, 0x54, 0, 0, 15⟩
/-! Fields of R532. -/
def GLB_SPR_STATUS_DEGRADED : Fld := ⟨0x0, 0x0, 0x300, 0, 31, 1⟩
def GLB_SPR_STATUS_REASON : Fld := ⟨0x0, 0x0, 0x300, 0, 26, 5⟩
def GLB_SPR_STATUS_HOSTED : Fld := ⟨0x0, 0x0, 0x300, 0, 16, 5⟩
def GLB_SPR_STATUS_SERVING : Fld := ⟨0x0, 0x0, 0x300, 0, 8, 5⟩
def GLB_SPR_STATUS_SPARES : Fld := ⟨0x0, 0x0, 0x300, 0, 0, 5⟩
def GLB_SPR_ROLE0_ROLE : Fld := ⟨0x0, 0x0, 0x304, 0, 0, 32⟩
def GLB_SPR_ROLE1_ROLE : Fld := ⟨0x0, 0x0, 0x308, 0, 0, 4⟩
def GLB_SPR_MAP_ENTRY : Fld := ⟨0x0, 0x0, 0x310, 4, 0, 32⟩
def GLB_MIG_CTL_START : Fld := ⟨0x0, 0x0, 0x320, 0, 31, 1⟩
def GLB_MIG_CTL_ABORT : Fld := ⟨0x0, 0x0, 0x320, 0, 30, 1⟩
def GLB_MIG_CTL_PACE : Fld := ⟨0x0, 0x0, 0x320, 0, 16, 2⟩
def GLB_MIG_CTL_DST : Fld := ⟨0x0, 0x0, 0x320, 0, 8, 5⟩
def GLB_MIG_CTL_SRC : Fld := ⟨0x0, 0x0, 0x320, 0, 0, 5⟩
def GLB_MIG_LIMIT_LIMIT : Fld := ⟨0x0, 0x0, 0x324, 0, 0, 17⟩
def GLB_MIG_STATUS_STATE : Fld := ⟨0x0, 0x0, 0x328, 0, 29, 3⟩
def GLB_MIG_STATUS_WATERMARK : Fld := ⟨0x0, 0x0, 0x328, 0, 0, 17⟩
def GLB_PRED_STATUS_PRED : Fld := ⟨0x0, 0x0, 0x32C, 0, 0, 18⟩
def GLB_PRED_LAST_VALID : Fld := ⟨0x0, 0x0, 0x330, 0, 31, 1⟩
def GLB_PRED_LAST_SLICE : Fld := ⟨0x0, 0x0, 0x330, 0, 24, 5⟩
def GLB_PRED_LAST_CAUSE : Fld := ⟨0x0, 0x0, 0x330, 0, 0, 6⟩
def GLB_LOSS_CNT_COUNT : Fld := ⟨0x0, 0x0, 0x340, 0, 0, 32⟩
def GLB_LOSS_HEAD_LO_ADDR_LO : Fld := ⟨0x0, 0x0, 0x344, 0, 6, 26⟩
def GLB_LOSS_HEAD_HI_VALID : Fld := ⟨0x0, 0x0, 0x348, 0, 31, 1⟩
def GLB_LOSS_HEAD_HI_NEXT : Fld := ⟨0x0, 0x0, 0x348, 0, 30, 1⟩
def GLB_LOSS_HEAD_HI_TENANT : Fld := ⟨0x0, 0x0, 0x348, 0, 20, 7⟩
def GLB_LOSS_HEAD_HI_ADDR_HI : Fld := ⟨0x0, 0x0, 0x348, 0, 0, 20⟩
/-! Fields of R566. -/
def PAT_STATUS_SEALED : Fld := ⟨0x1000, 0x0, 0x0, 0, 31, 1⟩
def PAT_STATUS_LC : Fld := ⟨0x1000, 0x0, 0x0, 0, 8, 2⟩
def PAT_STATUS_KEY : Fld := ⟨0x1000, 0x0, 0x0, 0, 4, 2⟩
def PAT_STATUS_LOADER : Fld := ⟨0x1000, 0x0, 0x0, 0, 0, 2⟩
def PAT_ERR_VALID : Fld := ⟨0x1000, 0x0, 0x4, 0, 31, 1⟩
def PAT_ERR_KIND : Fld := ⟨0x1000, 0x0, 0x4, 0, 30, 1⟩
def PAT_ERR_TENANT : Fld := ⟨0x1000, 0x0, 0x4, 0, 16, 7⟩
def PAT_ERR_CODE : Fld := ⟨0x1000, 0x0, 0x4, 0, 0, 8⟩
def PAT_ERRLOC_SECTION : Fld := ⟨0x1000, 0x0, 0x8, 0, 16, 5⟩
def PAT_ERRLOC_RECORD : Fld := ⟨0x1000, 0x0, 0x8, 0, 0, 11⟩
def PAT_ID_ID : Fld := ⟨0x1000, 0x0, 0xC, 0, 0, 32⟩
def PAT_VERSION_VERSION : Fld := ⟨0x1000, 0x0, 0x10, 0, 0, 32⟩
def PAT_OVL_VALID : Fld := ⟨0x1000, 0x0, 0x14, 0, 31, 1⟩
def PAT_OVL_HELD : Fld := ⟨0x1000, 0x0, 0x14, 0, 30, 1⟩
def PAT_OVL_TENANT : Fld := ⟨0x1000, 0x0, 0x14, 0, 16, 7⟩
def PAT_OVL_CODE : Fld := ⟨0x1000, 0x0, 0x14, 0, 0, 8⟩
def PAT_OVLSEQ_SEQ : Fld := ⟨0x1000, 0x0, 0x18, 0, 0, 32⟩
def PAT_DIGEST_BYTES : Fld := ⟨0x1000, 0x0, 0x20, 4, 0, 32⟩
/-! Fields of R596. -/
def GLB_BOOT_STATUS_READY : Fld := ⟨0x0, 0x0, 0x200, 0, 31, 1⟩
def GLB_BOOT_STATUS_FAIL : Fld := ⟨0x0, 0x0, 0x200, 0, 30, 1⟩
def GLB_BOOT_STATUS_SPI_BAD : Fld := ⟨0x0, 0x0, 0x200, 0, 29, 1⟩
def GLB_BOOT_STATUS_STEP : Fld := ⟨0x0, 0x0, 0x200, 0, 24, 4⟩
def GLB_BOOT_STATUS_SOURCE : Fld := ⟨0x0, 0x0, 0x200, 0, 22, 2⟩
def GLB_BOOT_STATUS_BOOT_SEL : Fld := ⟨0x0, 0x0, 0x200, 0, 21, 1⟩
def GLB_BOOT_STATUS_ADDR_SEL : Fld := ⟨0x0, 0x0, 0x200, 0, 18, 3⟩
def GLB_BOOT_STATUS_CODE : Fld := ⟨0x0, 0x0, 0x200, 0, 8, 4⟩
def GLB_BOOT_STATUS_ATTEMPTS : Fld := ⟨0x0, 0x0, 0x200, 0, 0, 8⟩
def GLB_BOOT_TIME_VALID : Fld := ⟨0x0, 0x0, 0x204, 0, 31, 1⟩
def GLB_BOOT_TIME_US : Fld := ⟨0x0, 0x0, 0x204, 0, 0, 24⟩
def GLB_BOOT_SPI_SFDP : Fld := ⟨0x0, 0x0, 0x208, 0, 31, 1⟩
def GLB_BOOT_SPI_FAIL : Fld := ⟨0x0, 0x0, 0x208, 0, 30, 1⟩
def GLB_BOOT_SPI_MODE : Fld := ⟨0x0, 0x0, 0x208, 0, 16, 4⟩
def GLB_BOOT_SPI_MINOR : Fld := ⟨0x0, 0x0, 0x208, 0, 8, 8⟩
def GLB_BOOT_ICMD_LOAD : Fld := ⟨0x0, 0x0, 0x20C, 0, 31, 1⟩
def GLB_BOOT_ICMD_START : Fld := ⟨0x0, 0x0, 0x20C, 0, 30, 1⟩
def GLB_BOOT_IDATA_DATA : Fld := ⟨0x0, 0x0, 0x210, 0, 0, 32⟩
def GLB_RST_CMD_WARM : Fld := ⟨0x0, 0x0, 0x220, 0, 31, 1⟩
def GLB_RST_CMD_UMEVO : Fld := ⟨0x0, 0x0, 0x220, 0, 30, 1⟩
def GLB_RST_CMD_KEY : Fld := ⟨0x0, 0x0, 0x220, 0, 0, 16⟩
def GLB_FUSE_STATUS_REVOKED : Fld := ⟨0x0, 0x0, 0x230, 0, 20, 4⟩
def GLB_FUSE_STATUS_PROG : Fld := ⟨0x0, 0x0, 0x230, 0, 16, 4⟩
def GLB_FUSE_STATUS_SWD_HW : Fld := ⟨0x0, 0x0, 0x230, 0, 9, 1⟩
def GLB_FUSE_STATUS_DBG_DIS : Fld := ⟨0x0, 0x0, 0x230, 0, 8, 1⟩
def GLB_FUSE_STATUS_UE : Fld := ⟨0x0, 0x0, 0x230, 0, 4, 4⟩
def GLB_FUSE_STATUS_CE : Fld := ⟨0x0, 0x0, 0x230, 0, 0, 4⟩
def GLB_FUSE_CMD_REVOKE : Fld := ⟨0x0, 0x0, 0x234, 0, 31, 1⟩
def GLB_FUSE_CMD_SLOT : Fld := ⟨0x0, 0x0, 0x234, 0, 0, 2⟩
def GLB_UNLK_NONCE_NONCE : Fld := ⟨0x0, 0x0, 0x240, 4, 0, 32⟩
def GLB_UNLK_DATA_DATA : Fld := ⟨0x0, 0x0, 0x260, 0, 0, 32⟩
def GLB_UNLK_CMD_NONCE : Fld := ⟨0x0, 0x0, 0x264, 0, 31, 1⟩
def GLB_UNLK_CMD_VERIFY : Fld := ⟨0x0, 0x0, 0x264, 0, 30, 1⟩
def GLB_UNLK_STATUS_PEND : Fld := ⟨0x0, 0x0, 0x268, 0, 31, 1⟩
def GLB_UNLK_STATUS_BUSY : Fld := ⟨0x0, 0x0, 0x268, 0, 30, 1⟩
def GLB_UNLK_STATUS_RESULT : Fld := ⟨0x0, 0x0, 0x268, 0, 0, 3⟩
/-! Fields of R618. -/
def EVG_CTL_RESEND : Fld := ⟨0x8000, 0x0, 0x0, 0, 0, 4⟩
def EVG_STATUS_RETAINED : Fld := ⟨0x8000, 0x0, 0x4, 0, 31, 1⟩
def EVG_STATUS_OUT : Fld := ⟨0x8000, 0x0, 0x4, 0, 0, 11⟩
def EVG_CMD_ACK : Fld := ⟨0x8000, 0x0, 0x8, 0, 31, 1⟩
def EVG_CMD_FLUSH : Fld := ⟨0x8000, 0x0, 0x8, 0, 30, 1⟩
def EVG_CMD_VECTOR : Fld := ⟨0x8000, 0x0, 0x8, 0, 0, 10⟩
def EVG_DROP_CLR : Fld := ⟨0x8000, 0x0, 0xC, 0, 31, 1⟩
def EVG_DROP_NOVEC : Fld := ⟨0x8000, 0x0, 0xC, 0, 20, 11⟩
def EVG_DROP_FULL : Fld := ⟨0x8000, 0x0, 0xC, 0, 10, 10⟩
def EVG_DROP_HINT : Fld := ⟨0x8000, 0x0, 0xC, 0, 5, 5⟩
def EVG_DROP_DISC : Fld := ⟨0x8000, 0x0, 0xC, 0, 0, 5⟩
def EVG_RESENT_COUNT : Fld := ⟨0x8000, 0x0, 0x10, 0, 0, 32⟩
def EVG_SRCSEL_SOURCE : Fld := ⟨0x8000, 0x0, 0x14, 0, 0, 9⟩
def EVG_SRCVAL_COUNT : Fld := ⟨0x8000, 0x0, 0x18, 0, 0, 32⟩
def EVG_VCFG_ENABLE : Fld := ⟨0x8000, 0x0, 0x4000, 16, 31, 1⟩
def EVG_VCFG_TARGET : Fld := ⟨0x8000, 0x0, 0x4000, 16, 0, 20⟩
def EVG_VCOAL_MASK : Fld := ⟨0x8000, 0x0, 0x4004, 16, 31, 1⟩
def EVG_VCOAL_TIME : Fld := ⟨0x8000, 0x0, 0x4004, 16, 16, 10⟩
def EVG_VCOAL_COUNT : Fld := ⟨0x8000, 0x0, 0x4004, 16, 0, 8⟩
def EVG_VCLS_CLASSES : Fld := ⟨0x8000, 0x0, 0x4008, 16, 0, 32⟩
def EVG_VSTAT_OUT : Fld := ⟨0x8000, 0x0, 0x400C, 16, 31, 1⟩
def EVG_VSTAT_PEND : Fld := ⟨0x8000, 0x0, 0x400C, 16, 30, 1⟩
def EVG_VSTAT_OVF : Fld := ⟨0x8000, 0x0, 0x400C, 16, 29, 1⟩
def EVG_VSTAT_IDLE : Fld := ⟨0x8000, 0x0, 0x400C, 16, 28, 1⟩
def EVG_VSTAT_MINSRC : Fld := ⟨0x8000, 0x0, 0x400C, 16, 16, 9⟩
def EVG_VSTAT_SEQ : Fld := ⟨0x8000, 0x0, 0x400C, 16, 8, 8⟩
def EVG_VSTAT_COUNT : Fld := ⟨0x8000, 0x0, 0x400C, 16, 0, 8⟩
/-! Fields of R646. -/
def WDG_CWD_CTL_OPEN : Fld := ⟨0x2000, 0x0, 0x0, 0, 4, 3⟩
def WDG_CWD_CTL_PERIOD : Fld := ⟨0x2000, 0x0, 0x0, 0, 0, 4⟩
def WDG_CWD_SVC_KEY : Fld := ⟨0x2000, 0x0, 0x4, 0, 0, 16⟩
def WDG_CWD_STATUS_OPEN_NOW : Fld := ⟨0x2000, 0x0, 0x8, 0, 31, 1⟩
def WDG_CWD_STATUS_KEYA : Fld := ⟨0x2000, 0x0, 0x8, 0, 30, 1⟩
def WDG_CWD_STATUS_FROZEN : Fld := ⟨0x2000, 0x0, 0x8, 0, 28, 1⟩
def WDG_CWD_STATUS_LEFT : Fld := ⟨0x2000, 0x0, 0x8, 0, 0, 22⟩
def WDG_SWD_CTL_HW_START : Fld := ⟨0x2000, 0x0, 0xC, 0, 31, 1⟩
def WDG_SWD_CTL_HARD : Fld := ⟨0x2000, 0x0, 0xC, 0, 4, 4⟩
def WDG_SWD_CTL_PERIOD : Fld := ⟨0x2000, 0x0, 0xC, 0, 0, 4⟩
def WDG_SWD_SVC_KEY : Fld := ⟨0x2000, 0x0, 0x10, 0, 0, 16⟩
def WDG_SWD_STATUS_ARMED : Fld := ⟨0x2000, 0x0, 0x14, 0, 31, 1⟩
def WDG_SWD_STATUS_HARD_RUN : Fld := ⟨0x2000, 0x0, 0x14, 0, 30, 1⟩
def WDG_SWD_STATUS_LEFT : Fld := ⟨0x2000, 0x0, 0x14, 0, 0, 22⟩
def WDG_LADDER_N : Fld := ⟨0x2000, 0x0, 0x18, 0, 4, 3⟩
def WDG_LADDER_HEALTHY : Fld := ⟨0x2000, 0x0, 0x18, 0, 0, 4⟩
def WDG_REJECT_CLR : Fld := ⟨0x2000, 0x0, 0x1C, 0, 31, 1⟩
def WDG_REJECT_CWD : Fld := ⟨0x2000, 0x0, 0x1C, 0, 16, 15⟩
def WDG_REJECT_SWD : Fld := ⟨0x2000, 0x0, 0x1C, 0, 0, 15⟩
def WDG_UMV_STATUS_STATE : Fld := ⟨0x2000, 0x0, 0x20, 0, 30, 2⟩
def WDG_UMV_STATUS_ROLE : Fld := ⟨0x2000, 0x0, 0x20, 0, 29, 1⟩
def WDG_UMV_STATUS_ROM_VER : Fld := ⟨0x2000, 0x0, 0x20, 0, 8, 16⟩
def WDG_LOG_SEL_HEAD : Fld := ⟨0x2000, 0x0, 0x28, 0, 16, 9⟩
def WDG_LOG_SEL_INDEX : Fld := ⟨0x2000, 0x0, 0x28, 0, 0, 9⟩
def WDG_LOG_DATA_DATA : Fld := ⟨0x2000, 0x0, 0x2C, 4, 0, 32⟩
def WDG_SWD_SAVE_DATA : Fld := ⟨0x2000, 0x0, 0x40, 4, 0, 32⟩
/-! Fields of R677. -/
def TIM_CTL_SERVO : Fld := ⟨0x4000, 0x0, 0x0, 0, 8, 1⟩
def TIM_CTL_SRC_PORT : Fld := ⟨0x4000, 0x0, 0x0, 0, 4, 4⟩
def TIM_CTL_SOURCE : Fld := ⟨0x4000, 0x0, 0x0, 0, 0, 2⟩
def TIM_STATUS_LOCKED : Fld := ⟨0x4000, 0x0, 0x4, 0, 31, 1⟩
def TIM_STATUS_BACKUP : Fld := ⟨0x4000, 0x0, 0x4, 0, 30, 1⟩
def TIM_STATUS_REF_LOST : Fld := ⟨0x4000, 0x0, 0x4, 0, 29, 1⟩
def TIM_STATUS_PPS_MISS : Fld := ⟨0x4000, 0x0, 0x4, 0, 28, 1⟩
def TIM_STATUS_SYNC_LOST : Fld := ⟨0x4000, 0x0, 0x4, 0, 27, 1⟩
def TIM_STATUS_SET_REJ : Fld := ⟨0x4000, 0x0, 0x4, 0, 26, 1⟩
def TIM_STATUS_EPOCH : Fld := ⟨0x4000, 0x0, 0x4, 0, 0, 16⟩
def TIM_NOW_LO_TIME : Fld := ⟨0x4000, 0x0, 0x8, 0, 0, 32⟩
def TIM_NOW_HI_TIME : Fld := ⟨0x4000, 0x0, 0xC, 0, 0, 32⟩
def TIM_NOW_EP_EPOCH : Fld := ⟨0x4000, 0x0, 0x10, 0, 0, 16⟩
def TIM_SET_LO_TIME : Fld := ⟨0x4000, 0x0, 0x14, 0, 0, 32⟩
def TIM_SET_HI_TIME : Fld := ⟨0x4000, 0x0, 0x18, 0, 0, 32⟩
def TIM_SET_CMD_GO : Fld := ⟨0x4000, 0x0, 0x1C, 0, 31, 1⟩
def TIM_SET_CMD_EPOCH : Fld := ⟨0x4000, 0x0, 0x1C, 0, 0, 16⟩
def TIM_TRIM_PPB : Fld := ⟨0x4000, 0x0, 0x20, 0, 0, 21⟩
def TIM_PPS_OFS_NS : Fld := ⟨0x4000, 0x0, 0x24, 0, 0, 16⟩
def TIM_PPS_CAP_LO_TIME : Fld := ⟨0x4000, 0x0, 0x28, 0, 0, 32⟩
def TIM_PPS_CAP_HI_TIME : Fld := ⟨0x4000, 0x0, 0x2C, 0, 0, 32⟩
def TIM_ERR_NS : Fld := ⟨0x4000, 0x0, 0x30, 0, 0, 32⟩
def TIM_SYNC_CTL_INTERVAL : Fld := ⟨0x4000, 0x0, 0x34, 0, 24, 4⟩
def TIM_SYNC_CTL_LEADER : Fld := ⟨0x4000, 0x0, 0x34, 0, 0, 12⟩
def TIM_SYNC_DLY_D : Fld := ⟨0x4000, 0x0, 0x38, 0, 0, 32⟩
def TIM_SYNC_CNT_CLR : Fld := ⟨0x4000, 0x0, 0x3C, 0, 31, 1⟩
def TIM_SYNC_CNT_ACCEPTED : Fld := ⟨0x4000, 0x0, 0x3C, 0, 16, 15⟩
def TIM_SYNC_CNT_REJECTED : Fld := ⟨0x4000, 0x0, 0x3C, 0, 0, 15⟩
def PWR_CTL_ENTRY_IDLE : Fld := ⟨0x5000, 0x0, 0x0, 0, 4, 4⟩
def PWR_CTL_MAX_STATE : Fld := ⟨0x5000, 0x0, 0x0, 0, 0, 3⟩
def PWR_VCTL_MODE : Fld := ⟨0x5000, 0x0, 0x4, 0, 31, 1⟩
def PWR_VCTL_TARGET : Fld := ⟨0x5000, 0x0, 0x4, 0, 12, 16⟩
def PWR_VCTL_VMIN : Fld := ⟨0x5000, 0x0, 0x4, 0, 6, 6⟩
def PWR_VCTL_VHOLD : Fld := ⟨0x5000, 0x0, 0x4, 0, 0, 6⟩
def PWR_VREQ_VID : Fld := ⟨0x5000, 0x0, 0x8, 0, 0, 6⟩
def PWR_STATE0_STATE : Fld := ⟨0x5000, 0x0, 0x10, 0, 0, 30⟩
def PWR_STATE1_STATE : Fld := ⟨0x5000, 0x0, 0x14, 0, 0, 24⟩
def PWR_TSEL_TENANT : Fld := ⟨0x5000, 0x0, 0x18, 0, 0, 7⟩
def PWR_TVAL_SET : Fld := ⟨0x5000, 0x0, 0x1C, 0, 16, 1⟩
def PWR_TVAL_DEF : Fld := ⟨0x5000, 0x0, 0x1C, 0, 8, 5⟩
def PWR_TVAL_CUR : Fld := ⟨0x5000, 0x0, 0x1C, 0, 0, 5⟩
def PWR_SSEL_SLICE : Fld := ⟨0x5000, 0x0, 0x20, 0, 0, 5⟩
def PWR_SVAL_WAKES : Fld := ⟨0x5000, 0x0, 0x24, 0, 16, 16⟩
def PWR_SVAL_TOL : Fld := ⟨0x5000, 0x0, 0x24, 0, 8, 5⟩
def PWR_SVAL_TARGET : Fld := ⟨0x5000, 0x0, 0x24, 0, 0, 3⟩
/-! Fields of R707. -/
def SAF_CTL_TWARN : Fld := ⟨0x3000, 0x0, 0x0, 0, 8, 8⟩
def SAF_CTL_LOG_CE : Fld := ⟨0x3000, 0x0, 0x0, 0, 2, 1⟩
def SAF_CTL_AUTO_TRST : Fld := ⟨0x3000, 0x0, 0x0, 0, 1, 1⟩
def SAF_CTL_FATAL_ACT : Fld := ⟨0x3000, 0x0, 0x0, 0, 0, 1⟩
def SAF_STATUS_SAFE : Fld := ⟨0x3000, 0x0, 0x4, 0, 31, 1⟩
def SAF_STATUS_SAFE_PIN : Fld := ⟨0x3000, 0x0, 0x4, 0, 30, 1⟩
def SAF_STATUS_FAULT_PIN : Fld := ⟨0x3000, 0x0, 0x4, 0, 29, 1⟩
def SAF_STATUS_SAFE_CAUSE : Fld := ⟨0x3000, 0x0, 0x4, 0, 16, 8⟩
def SAF_STATUS_TEMP : Fld := ⟨0x3000, 0x0, 0x4, 0, 0, 8⟩
def SAF_FAULT_PORT : Fld := ⟨0x3000, 0x0, 0x8, 0, 11, 1⟩
def SAF_FAULT_BOOT_FAIL : Fld := ⟨0x3000, 0x0, 0x8, 0, 10, 1⟩
def SAF_FAULT_SAFE : Fld := ⟨0x3000, 0x0, 0x8, 0, 9, 1⟩
def SAF_FAULT_SPI_BAD : Fld := ⟨0x3000, 0x0, 0x8, 0, 8, 1⟩
def SAF_FAULT_SWD : Fld := ⟨0x3000, 0x0, 0x8, 0, 7, 1⟩
def SAF_FAULT_CWD : Fld := ⟨0x3000, 0x0, 0x8, 0, 6, 1⟩
def SAF_FAULT_ENV : Fld := ⟨0x3000, 0x0, 0x8, 0, 5, 1⟩
def SAF_FAULT_LATENT : Fld := ⟨0x3000, 0x0, 0x8, 0, 4, 1⟩
def SAF_FAULT_READBACK : Fld := ⟨0x3000, 0x0, 0x8, 0, 3, 1⟩
def SAF_FAULT_FENCE : Fld := ⟨0x3000, 0x0, 0x8, 0, 2, 1⟩
def SAF_FAULT_FATAL : Fld := ⟨0x3000, 0x0, 0x8, 0, 1, 1⟩
def SAF_FAULT_CONTAINED : Fld := ⟨0x3000, 0x0, 0x8, 0, 0, 1⟩
def SAF_CMD_ENTER : Fld := ⟨0x3000, 0x0, 0xC, 0, 31, 1⟩
def SAF_CMD_KEY : Fld := ⟨0x3000, 0x0, 0xC, 0, 0, 16⟩
def SAF_FENCED_FENCED : Fld := ⟨0x3000, 0x0, 0x10, 0, 0, 18⟩
def SAF_CNT0_CLR : Fld := ⟨0x3000, 0x0, 0x14, 0, 31, 1⟩
def SAF_CNT0_CORR : Fld := ⟨0x3000, 0x0, 0x14, 0, 16, 15⟩
def SAF_CNT0_DEFER : Fld := ⟨0x3000, 0x0, 0x14, 0, 0, 15⟩
def SAF_CNT1_CLR : Fld := ⟨0x3000, 0x0, 0x18, 0, 31, 1⟩
def SAF_CNT1_CONT : Fld := ⟨0x3000, 0x0, 0x18, 0, 16, 15⟩
def SAF_CNT1_FATAL : Fld := ⟨0x3000, 0x0, 0x18, 0, 0, 15⟩
def SAF_LOG_STAT_USED : Fld := ⟨0x3000, 0x0, 0x1C, 0, 16, 9⟩
def SAF_LOG_STAT_DROPPED : Fld := ⟨0x3000, 0x0, 0x1C, 0, 0, 16⟩
def SAF_LOG_CMD_NEXT : Fld := ⟨0x3000, 0x0, 0x34, 0, 31, 1⟩
def SAF_TFATAL_TENANT : Fld := ⟨0x3000, 0x0, 0x40, 4, 0, 32⟩
def SAF_LT_FAILED : Fld := ⟨0x3000, 0x0, 0x50, 0, 31, 1⟩
def SAF_LT_LAST : Fld := ⟨0x3000, 0x0, 0x50, 0, 16, 8⟩
def SAF_LT_PASSES : Fld := ⟨0x3000, 0x0, 0x50, 0, 0, 16⟩
def SAF_NOTICE_COUNT : Fld := ⟨0x3000, 0x0, 0x54, 0, 0, 16⟩
/-! Fields of R723. -/
def JIG_STATUS_OPEN : Fld := ⟨0x7000, 0x0, 0x0, 0, 31, 1⟩
def JIG_STATUS_ARMED : Fld := ⟨0x7000, 0x0, 0x0, 0, 0, 8⟩
def JIG_CMD_DISARM_ALL : Fld := ⟨0x7000, 0x0, 0x4, 0, 31, 1⟩
def JIG_REFUSE_CLR : Fld := ⟨0x7000, 0x0, 0x8, 0, 31, 1⟩
def JIG_REFUSE_COUNT : Fld := ⟨0x7000, 0x0, 0x8, 0, 16, 15⟩
def JIG_REFUSE_CHAN : Fld := ⟨0x7000, 0x0, 0x8, 0, 4, 3⟩
def JIG_REFUSE_CODE : Fld := ⟨0x7000, 0x0, 0x8, 0, 0, 4⟩
def JIG_CH_CTL_ARM : Fld := ⟨0x7000, 0x0, 0x100, 32, 31, 1⟩
def JIG_CH_CTL_REPEAT : Fld := ⟨0x7000, 0x0, 0x100, 32, 30, 1⟩
def JIG_CH_CTL_TRIG : Fld := ⟨0x7000, 0x0, 0x100, 32, 28, 2⟩
def JIG_CH_CTL_KIND : Fld := ⟨0x7000, 0x0, 0x100, 32, 24, 4⟩
def JIG_CH_CTL_UNIT : Fld := ⟨0x7000, 0x0, 0x100, 32, 16, 5⟩
def JIG_CH_TRIG_VALUE : Fld := ⟨0x7000, 0x0, 0x104, 32, 0, 24⟩
def JIG_CH_PARAM_DOUBLE : Fld := ⟨0x7000, 0x0, 0x108, 32, 31, 1⟩
def JIG_CH_PARAM_CLASS : Fld := ⟨0x7000, 0x0, 0x108, 32, 28, 3⟩
def JIG_CH_PARAM_DIST : Fld := ⟨0x7000, 0x0, 0x108, 32, 24, 4⟩
def JIG_CH_PARAM_SLOT : Fld := ⟨0x7000, 0x0, 0x108, 32, 16, 5⟩
def JIG_CH_ADDR_LO_ADDR_LO : Fld := ⟨0x7000, 0x0, 0x10C, 32, 6, 26⟩
def JIG_CH_ADDR_HI_GRAN : Fld := ⟨0x7000, 0x0, 0x110, 32, 24, 6⟩
def JIG_CH_ADDR_HI_ADDR_HI : Fld := ⟨0x7000, 0x0, 0x110, 32, 0, 20⟩
def JIG_CH_STATUS_ARMED : Fld := ⟨0x7000, 0x0, 0x114, 32, 31, 1⟩
def JIG_CH_STATUS_CODE : Fld := ⟨0x7000, 0x0, 0x114, 32, 24, 4⟩
def JIG_CH_STATUS_FIRED : Fld := ⟨0x7000, 0x0, 0x114, 32, 0, 16⟩
def JIG_CH_BITS_BIT1 : Fld := ⟨0x7000, 0x0, 0x118, 32, 16, 11⟩
def JIG_CH_BITS_BIT0 : Fld := ⟨0x7000, 0x0, 0x118, 32, 0, 11⟩
/-! Fields of R748. -/
def GLB_ID_VENDOR : Fld := ⟨0x0, 0x0, 0x0, 0, 20, 12⟩
def GLB_ID_PART : Fld := ⟨0x0, 0x0, 0x0, 0, 8, 12⟩
def GLB_ID_STEPPING : Fld := ⟨0x0, 0x0, 0x0, 0, 4, 4⟩
def GLB_ID_METAL : Fld := ⟨0x0, 0x0, 0x0, 0, 0, 4⟩
def GLB_VERSION_RMAP : Fld := ⟨0x0, 0x0, 0x4, 0, 24, 8⟩
def GLB_VERSION_PFORMAT : Fld := ⟨0x0, 0x0, 0x4, 0, 8, 16⟩
def GLB_VERSION_LINK : Fld := ⟨0x0, 0x0, 0x4, 0, 0, 8⟩
def GLB_CAPS_TENANTS : Fld := ⟨0x0, 0x0, 0x8, 0, 24, 7⟩
def GLB_CAPS_PORTS : Fld := ⟨0x0, 0x0, 0x8, 0, 16, 4⟩
def GLB_CAPS_ACTIVE : Fld := ⟨0x0, 0x0, 0x8, 0, 8, 5⟩
def GLB_CAPS_SLICES : Fld := ⟨0x0, 0x0, 0x8, 0, 0, 5⟩
def GLB_HOME_VALID : Fld := ⟨0x0, 0x0, 0xC, 0, 31, 1⟩
def GLB_HOME_NODE : Fld := ⟨0x0, 0x0, 0xC, 0, 0, 20⟩
def GLB_DEVID_BYTES : Fld := ⟨0x0, 0x0, 0x10, 4, 0, 32⟩
def GLB_STATUS_READY : Fld := ⟨0x0, 0x0, 0x20, 0, 31, 1⟩
def GLB_STATUS_SAFE : Fld := ⟨0x0, 0x0, 0x20, 0, 30, 1⟩
def GLB_STATUS_DEGRADED : Fld := ⟨0x0, 0x0, 0x20, 0, 29, 1⟩
def GLB_STATUS_SEALED : Fld := ⟨0x0, 0x0, 0x20, 0, 28, 1⟩
def GLB_STATUS_FAULT : Fld := ⟨0x0, 0x0, 0x20, 0, 27, 1⟩
def GLB_STATUS_BOOT_FAIL : Fld := ⟨0x0, 0x0, 0x20, 0, 26, 1⟩
def GLB_STATUS_DEVID_OK : Fld := ⟨0x0, 0x0, 0x20, 0, 25, 1⟩
def GLB_STATUS_LC : Fld := ⟨0x0, 0x0, 0x20, 0, 8, 2⟩
def GLB_STATUS_HCMODE : Fld := ⟨0x0, 0x0, 0x20, 0, 4, 2⟩
def GLB_RST_CAUSE_WARMS : Fld := ⟨0x0, 0x0, 0x24, 0, 16, 16⟩
def GLB_RST_CAUSE_CAUSE : Fld := ⟨0x0, 0x0, 0x24, 0, 0, 2⟩
def GLB_SCRATCH_DATA : Fld := ⟨0x0, 0x0, 0x30, 4, 0, 32⟩
def GLB_SSCRATCH_DATA : Fld := ⟨0x0, 0x0, 0x40, 4, 0, 32⟩
def GLB_ACC_ERR0_CLR : Fld := ⟨0x0, 0x0, 0x100, 0, 31, 1⟩
def GLB_ACC_ERR0_DENIED : Fld := ⟨0x0, 0x0, 0x100, 0, 16, 15⟩
def GLB_ACC_ERR0_LOCKED : Fld := ⟨0x0, 0x0, 0x100, 0, 0, 15⟩
def GLB_ACC_ERR1_CLR : Fld := ⟨0x0, 0x0, 0x104, 0, 31, 1⟩
def GLB_ACC_ERR1_MISALIGN : Fld := ⟨0x0, 0x0, 0x104, 0, 21, 10⟩
def GLB_ACC_ERR1_PARTIAL : Fld := ⟨0x0, 0x0, 0x104, 0, 11, 10⟩
def GLB_ACC_ERR1_PARITY : Fld := ⟨0x0, 0x0, 0x104, 0, 1, 10⟩
def GLB_ACC_LAST_VALID : Fld := ⟨0x0, 0x0, 0x108, 0, 31, 1⟩
def GLB_ACC_LAST_PATH : Fld := ⟨0x0, 0x0, 0x108, 0, 29, 2⟩
def GLB_ACC_LAST_KIND : Fld := ⟨0x0, 0x0, 0x108, 0, 24, 4⟩
def GLB_ACC_LAST_WORD : Fld := ⟨0x0, 0x0, 0x108, 0, 0, 22⟩
def GLB_ACC_LASTSRC_I3C : Fld := ⟨0x0, 0x0, 0x10C, 0, 20, 1⟩
def GLB_ACC_LASTSRC_ID : Fld := ⟨0x0, 0x0, 0x10C, 0, 0, 20⟩
def GLB_I3C_STATUS_DAVALID : Fld := ⟨0x0, 0x0, 0x110, 0, 31, 1⟩
def GLB_I3C_STATUS_DA : Fld := ⟨0x0, 0x0, 0x110, 0, 16, 7⟩
def GLB_I3C_STATUS_STATIC : Fld := ⟨0x0, 0x0, 0x110, 0, 8, 7⟩
end F

/-- A field that a write may change, its access code, and its legal values as ranges (none listed: every value). -/
structure WFld where
  fld : Fld
  acc : Acc
  legal : List (Nat × Nat)
deriving DecidableEq, Repr

/-- The writable fields of the SLC block, part 0. -/
def slcWritable0 : List WFld := [
  ⟨F.SLC_DMON_CTL_INTERVAL, .rw, [(4, 12)]⟩,
  ⟨F.SLC_DMON_CTL_WINDOW, .rw, []⟩,
  ⟨F.SLC_DMON_CTL_AUTO, .rw, []⟩,
  ⟨F.SLC_COH_CTL_RCM_EN, .rw, []⟩,
  ⟨F.SLC_COH_CTL_SPEC_EN, .rw, []⟩,
  ⟨F.SLC_COH_SEIZECNT_CLR, .clr, []⟩,
  ⟨F.SLC_COH_TMOCNT_CLR, .clr, []⟩,
  ⟨F.SLC_SHED_CTL_TWIN, .rwl, [(3, 10)]⟩,
  ⟨F.SLC_SHED_DUPCNT0_CLR, .clr, []⟩,
  ⟨F.SLC_SHED_DUPCNT1_CLR, .clr, []⟩,
  ⟨F.SLC_RSV_CTL_HOLD_EN, .rw, []⟩,
  ⟨F.SLC_RSV_CNT0_CLR, .clr, []⟩,
  ⟨F.SLC_RSV_CNT1_CLR, .clr, []⟩,
  ⟨F.SLC_GATH_CNT_CLR, .clr, []⟩,
  ⟨F.SLC_SF_CTL_SCRUB_INT, .rwl, [(2, 6)]⟩,
  ⟨F.SLC_SF_XFMT_CLR, .clr, []⟩,
  ⟨F.SLC_SF_ECCCNT_CLR, .clr, []⟩,
  ⟨F.SLC_SF_TQSEL_TENANT, .rw, []⟩,
  ⟨F.SLC_SF_RDSEL_WAY, .rw, []⟩,
  ⟨F.SLC_SF_RDSEL_SET, .rw, []⟩]
/-- The writable fields of the SLC block, part 1. -/
def slcWritable1 : List WFld := [
  ⟨F.SLC_HC_CTL_SCRUB_INT, .rwl, [(2, 6)]⟩,
  ⟨F.SLC_HC_EVICT_CLR, .clr, []⟩,
  ⟨F.SLC_HC_OFFER_CLR, .clr, []⟩,
  ⟨F.SLC_HC_ECCCNT_CLR, .clr, []⟩,
  ⟨F.SLC_HC_TAGCNT_CLR, .clr, []⟩,
  ⟨F.SLC_HC_LOSTSEL_INDEX, .rw, []⟩,
  ⟨F.SLC_HC_TQSEL_TENANT, .rw, []⟩,
  ⟨F.SLC_CLAMP_CTL_AGE_STEP, .rwl, [(0, 10)]⟩,
  ⟨F.SLC_CLAMP_ERRCNT_CLR, .clr, []⟩,
  ⟨F.SLC_CLAMP_BRKCNT_CLR, .clr, []⟩,
  ⟨F.SLC_CLAMP_HSEL_INDEX, .rw, []⟩,
  ⟨F.SLC_CLAMP_MAXWAIT_CLR, .clr, []⟩]
/-- The writable fields of the SLC block. -/
def slcWritable : List WFld := slcWritable0 ++ slcWritable1

/-- The writable fields of the GLB block. -/
def glbWritable0 : List WFld := [
  ⟨F.GLB_HPROBE_ADDR_LO_ADDR_LO, .rw, []⟩,
  ⟨F.GLB_HPROBE_ADDR_HI_ADDR_HI, .rw, []⟩,
  ⟨F.GLB_MIG_CTL_PACE, .rw, []⟩,
  ⟨F.GLB_MIG_CTL_DST, .rw, []⟩,
  ⟨F.GLB_MIG_CTL_SRC, .rw, []⟩,
  ⟨F.GLB_MIG_LIMIT_LIMIT, .rw, [(0, 66560)]⟩,
  ⟨F.GLB_SCRATCH_DATA, .rw, []⟩,
  ⟨F.GLB_SSCRATCH_DATA, .rws, []⟩,
  ⟨F.GLB_ACC_ERR0_CLR, .clr, []⟩,
  ⟨F.GLB_ACC_ERR1_CLR, .clr, []⟩]
/-- The writable fields of the GLB block. -/
def glbWritable : List WFld := glbWritable0

/-- The writable fields of the PRT block. -/
def prtWritable0 : List WFld := [
  ⟨F.PRT_RT_ERRCNT_CLR, .clr, []⟩,
  ⟨F.PRT_RT_DROPCNT_CLR, .clr, []⟩,
  ⟨F.PRT_LL_CTL_CAP_RATE, .rw, [(0, 2)]⟩,
  ⟨F.PRT_LL_TIMER_RETRAIN_LIMIT, .rw, [(1, 15)]⟩,
  ⟨F.PRT_LL_TIMER_REPLAY_LIMIT, .rw, [(1, 15)]⟩,
  ⟨F.PRT_LL_TIMER_ACK_DLY, .rw, [(0, 4)]⟩,
  ⟨F.PRT_LL_TIMER_REPLAY_TMO, .rw, [(0, 6)]⟩,
  ⟨F.PRT_LL_ERRCNT0_CLR, .clr, []⟩,
  ⟨F.PRT_LL_ERRCNT1_CLR, .clr, []⟩,
  ⟨F.PRT_LL_DUPCNT_CLR, .clr, []⟩,
  ⟨F.PRT_LL_CRSEL_CLASS, .rw, [(0, 5)]⟩,
  ⟨F.PRT_MSG_ERRCNT0_CLR, .clr, []⟩,
  ⟨F.PRT_MSG_ERRCNT1_CLR, .clr, []⟩,
  ⟨F.PRT_WB_CTL_CWB_TMO, .rw, [(0, 6)]⟩,
  ⟨F.PRT_WB_FLUSH0_CLR, .clr, []⟩,
  ⟨F.PRT_WB_FLUSH1_CLR, .clr, []⟩,
  ⟨F.PRT_WB_FLUSH2_CLR, .clr, []⟩]
/-- The writable fields of the PRT block. -/
def prtWritable : List WFld := prtWritable0

/-- The writable fields of the HCM block. -/
def hcmWritable0 : List WFld := [
  ⟨F.HCM_MODE_CTL_DISABLE, .rw, []⟩,
  ⟨F.HCM_MOP_ADDR_LO_ADDR_LO, .rw, []⟩,
  ⟨F.HCM_MOP_ADDR_HI_ADDR_HI, .rw, []⟩,
  ⟨F.HCM_MOP_CMD_SLICE, .rw, []⟩,
  ⟨F.HCM_MOP_CMD_WAY, .rw, []⟩,
  ⟨F.HCM_MOP_CMD_SET, .rw, []⟩,
  ⟨F.HCM_MOP_CMD_KIND, .rw, []⟩,
  ⟨F.HCM_MOP_CMD_OP, .rw, [(0, 2)]⟩,
  ⟨F.HCM_RNG_BASE_LO_ADDR_LO, .rw, []⟩,
  ⟨F.HCM_RNG_LIMIT_LO_ADDR_LO, .rw, []⟩,
  ⟨F.HCM_RNG_BASE_HI_ADDR_HI, .rw, []⟩,
  ⟨F.HCM_RNG_LIMIT_HI_ADDR_HI, .rw, []⟩,
  ⟨F.HCM_RNG_CMD_TENANT, .rw, []⟩,
  ⟨F.HCM_RNG_CMD_TFILT, .rw, []⟩,
  ⟨F.HCM_RNG_CMD_OP, .rw, [(0, 2)]⟩,
  ⟨F.HCM_LOSS_CNT_COUNT, .rws, []⟩,
  ⟨F.HCM_LOSS_ADDR_LO_ADDR_LO, .rws, []⟩,
  ⟨F.HCM_LOSS_ADDR_HI_VALID, .rws, []⟩,
  ⟨F.HCM_LOSS_ADDR_HI_ADDR_HI, .rws, []⟩]
/-- The writable fields of the HCM block. -/
def hcmWritable : List WFld := hcmWritable0

/-- The writable fields of the TNT block. -/
def tntWritable0 : List WFld := [
  ⟨F.TNT_CTL_RCM, .rw, []⟩,
  ⟨F.TNT_CTL_SPEC, .rw, []⟩,
  ⟨F.TNT_CTL_SNP_TMO, .rw, [(10, 28)]⟩,
  ⟨F.TNT_RST_CNT_CLR, .clr, []⟩,
  ⟨F.TNT_PSEL_PORT, .rw, [(0, 11)]⟩,
  ⟨F.TNT_ACC_CNT_CLR, .clr, []⟩,
  ⟨F.TNT_STG_ADDR_HANDLE, .rw, []⟩,
  ⟨F.TNT_STG_ADDR_OFFSET, .rw, []⟩,
  ⟨F.TNT_STG_DATA_DATA, .rw, []⟩,
  ⟨F.TNT_STG_ERRCNT_CLR, .clr, []⟩]
/-- The writable fields of the TNT block. -/
def tntWritable : List WFld := tntWritable0

/-- The writable fields of the EVG block. -/
def evgWritable0 : List WFld := [
  ⟨F.EVG_CTL_RESEND, .rw, [(0, 14)]⟩,
  ⟨F.EVG_DROP_CLR, .clr, []⟩,
  ⟨F.EVG_SRCSEL_SOURCE, .rw, []⟩,
  ⟨F.EVG_VCOAL_MASK, .rw, []⟩,
  ⟨F.EVG_VCOAL_TIME, .rw, [(1, 1000)]⟩,
  ⟨F.EVG_VCOAL_COUNT, .rw, [(1, 255)]⟩]
/-- The writable fields of the EVG block. -/
def evgWritable : List WFld := evgWritable0

/-- The writable fields of the WDG block. -/
def wdgWritable0 : List WFld := [
  ⟨F.WDG_CWD_CTL_OPEN, .rw, [(0, 6)]⟩,
  ⟨F.WDG_CWD_CTL_PERIOD, .rw, [(0, 12)]⟩,
  ⟨F.WDG_REJECT_CLR, .clr, []⟩,
  ⟨F.WDG_LOG_SEL_INDEX, .rw, []⟩,
  ⟨F.WDG_SWD_SAVE_DATA, .rws, []⟩]
/-- The writable fields of the WDG block. -/
def wdgWritable : List WFld := wdgWritable0

/-- The writable fields of the TIM block. -/
def timWritable0 : List WFld := [
  ⟨F.TIM_CTL_SERVO, .rws, []⟩,
  ⟨F.TIM_CTL_SRC_PORT, .rws, [(0, 11)]⟩,
  ⟨F.TIM_CTL_SOURCE, .rws, [(0, 2)]⟩,
  ⟨F.TIM_STATUS_REF_LOST, .w1c, []⟩,
  ⟨F.TIM_STATUS_SET_REJ, .w1c, []⟩,
  ⟨F.TIM_SET_LO_TIME, .rw, []⟩,
  ⟨F.TIM_SET_HI_TIME, .rw, []⟩,
  ⟨F.TIM_TRIM_PPB, .rws, [(0, 200000), (1897152, 2097151)]⟩,
  ⟨F.TIM_PPS_OFS_NS, .rws, []⟩,
  ⟨F.TIM_SYNC_CTL_INTERVAL, .rws, [(6, 14)]⟩,
  ⟨F.TIM_SYNC_CTL_LEADER, .rws, []⟩,
  ⟨F.TIM_SYNC_CNT_CLR, .clr, []⟩]
/-- The writable fields of the TIM block. -/
def timWritable : List WFld := timWritable0

/-- The writable fields of the PWR block. -/
def pwrWritable0 : List WFld := [
  ⟨F.PWR_CTL_ENTRY_IDLE, .rw, [(0, 10)]⟩,
  ⟨F.PWR_CTL_MAX_STATE, .rw, [(0, 4)]⟩,
  ⟨F.PWR_VCTL_MODE, .rw, []⟩,
  ⟨F.PWR_VCTL_TARGET, .rw, []⟩,
  ⟨F.PWR_VCTL_VMIN, .rw, [(0, 48)]⟩,
  ⟨F.PWR_VCTL_VHOLD, .rw, [(0, 48)]⟩,
  ⟨F.PWR_TSEL_TENANT, .rw, []⟩,
  ⟨F.PWR_SSEL_SLICE, .rw, []⟩]
/-- The writable fields of the PWR block. -/
def pwrWritable : List WFld := pwrWritable0

/-- The writable fields of the SAF block. -/
def safWritable0 : List WFld := [
  ⟨F.SAF_CTL_TWARN, .rw, [(85, 125)]⟩,
  ⟨F.SAF_CTL_LOG_CE, .rw, []⟩,
  ⟨F.SAF_CTL_AUTO_TRST, .rw, []⟩,
  ⟨F.SAF_CTL_FATAL_ACT, .rw, []⟩,
  ⟨F.SAF_FAULT_PORT, .w1c, []⟩,
  ⟨F.SAF_FAULT_SWD, .w1c, []⟩,
  ⟨F.SAF_FAULT_CWD, .w1c, []⟩,
  ⟨F.SAF_FAULT_ENV, .w1c, []⟩,
  ⟨F.SAF_FAULT_LATENT, .w1c, []⟩,
  ⟨F.SAF_FAULT_READBACK, .w1c, []⟩,
  ⟨F.SAF_FAULT_FENCE, .w1c, []⟩,
  ⟨F.SAF_FAULT_FATAL, .w1c, []⟩,
  ⟨F.SAF_FAULT_CONTAINED, .w1c, []⟩,
  ⟨F.SAF_CNT0_CLR, .clr, []⟩,
  ⟨F.SAF_CNT1_CLR, .clr, []⟩]
/-- The writable fields of the SAF block. -/
def safWritable : List WFld := safWritable0

/-- The writable fields of the JIG block. -/
def jigWritable0 : List WFld := [
  ⟨F.JIG_REFUSE_CLR, .clr, []⟩,
  ⟨F.JIG_CH_CTL_ARM, .rw, []⟩,
  ⟨F.JIG_CH_CTL_REPEAT, .rw, []⟩,
  ⟨F.JIG_CH_CTL_TRIG, .rw, [(0, 2)]⟩,
  ⟨F.JIG_CH_CTL_KIND, .rw, [(1, 6), (8, 13)]⟩,
  ⟨F.JIG_CH_CTL_UNIT, .rw, [(0, 17)]⟩,
  ⟨F.JIG_CH_TRIG_VALUE, .rw, [(1, 16777215)]⟩,
  ⟨F.JIG_CH_PARAM_DOUBLE, .rw, []⟩,
  ⟨F.JIG_CH_PARAM_CLASS, .rw, [(0, 5), (7, 7)]⟩,
  ⟨F.JIG_CH_PARAM_DIST, .rw, [(1, 15)]⟩,
  ⟨F.JIG_CH_PARAM_SLOT, .rw, []⟩,
  ⟨F.JIG_CH_ADDR_LO_ADDR_LO, .rw, []⟩,
  ⟨F.JIG_CH_ADDR_HI_GRAN, .rw, [(0, 46)]⟩,
  ⟨F.JIG_CH_ADDR_HI_ADDR_HI, .rw, []⟩,
  ⟨F.JIG_CH_BITS_BIT1, .rw, []⟩,
  ⟨F.JIG_CH_BITS_BIT0, .rw, []⟩]
/-- The writable fields of the JIG block. -/
def jigWritable : List WFld := jigWritable0

end Sys2Proof.Machine
end

