-- ==== Sys2Proof/Machine/State.lean ====
section
/-!
DEFINITION. The state of the chiplet as plain data, the two closed types of a stop, and the state right after a cold
reset. Registers that behave as the access codes alone say live in `regs`, each field at its address of the register
map; everything else has a field or a record of its own.
-/
namespace Sys2Proof.Machine

/-- The reasons a step can fault. The chiplet raises no processor exception and reports its errors in its state
(19_safety_and_errors.md R695), so the type has no constructor and no step faults. Safe. -/
inductive Fault where
deriving DecidableEq, Repr

/-- The reasons a step can be refused. -/
inductive Refusal where
  /-- Raised by an arm of `exec` whose command has no meaning yet. Safe: it only stops. -/
  | notModelled (mnemonic : String)
deriving DecidableEq, Repr

/-- The state of the chiplet. -/
structure State where
  /-- Commands waiting, first in first out: the model's own queue. -/
  pending : List Instr
  /-- The model's own counter that indexes the free values of Config. -/
  fresh : Nat
  /-- Fabric time in units of 2^-32 ns, with EPOCH above its 64-bit part (18 R655, R656). -/
  now : Time
  /-- The registers (21 R729): the word at each byte address; an unlisted one reads as its reset value. -/
  regs : Sp Word
  /-- The Pattern in force (14 R547 to R552). -/
  pat : Pattern
  /-- For each node map entry: the alternate port is current, and the entry has no port to use (03 R84). -/
  cur : Sp (Bool × Bool)
  /-- The role of each physical slice (13 R504). -/
  roles : Sp SliceRole
  /-- The logical slices (13 R505). -/
  logic : Sp LogSlice
  /-- SLICE_TABLE as the rehashes have left it, and the logical slice each entry was reassigned from (13 R522, R523). -/
  table : List Nat
  moved : Sp (Option Nat)
  ports : Sp Port
  slices : Sp Slice
  /-- The completed-transaction window of each logical slice, by window set (07 R265, R270). -/
  wins : Sp (Sp (List WEntry))
  /-- Numbers given to posted and non-temporal writes in the order of their acceptance, and the FenceW limits in force:
  source, tenant, and the number of the first write behind the fence (08 R315). -/
  wno : Nat
  barriers : List (Node × Tenant × Nat)
  /-- The handle banks of the logical slices (11 R429). -/
  banks : Sp Bank
  /-- The operations of range-engine contexts 0 and 1 (10 R411). -/
  ctx0 : Option RangeJob
  ctx1 : Option RangeJob
  /-- The migration that runs (13 R509), and the loss log, oldest first (13 R516, R533). -/
  mig : Option Migration
  lossLog : List (Addr × Tenant)
  /-- Predicted slices in the order of their prediction (13 R508); ReplaceRequest messages sent since cold reset, and the
  time of the last (13 R528, R529). -/
  predQ : List Nat
  replaceNo : BitVec 16
  replaceAt : Time
  sources : Sp EvSource
  vectors : Sp EvVector
  /-- The armed channels of the Jig, and what each has counted (20 R718). -/
  jig : Sp (Option JigRun)
  /-- The error log, oldest first (19 R699). -/
  log : List LogEntry
  /-- Safety source 6 is armed: no entry has been dropped since the log last held fewer than 256 (R699). -/
  dropArm : Bool
  /-- Reactions decided and not yet carried out; empty between two commands. -/
  due : List Reaction
  /-- The level of SAFE_N: asserted (19 R703). -/
  safePin : Bool
  boot : Boot
  umv : Umv
  tb : Timebase
  tns : Tenants
  latent : Latent
  /-- A hash probe is under way (03 R103). -/
  probing : Bool
deriving DecidableEq, Repr

/-- The state right after a cold reset: every field at the value the spec gives, and at the value a log entry names
where it gives none. (Log 3, 4, 12: DESIGN CHOICE) -/
def State.reset : State :=
  { pending := [], fresh := 0, now := 0, regs := [], pat := Pattern.none, cur := [], roles := [], logic := [], table := [],
    moved := [], ports := [], slices := [],
    wins := [], wno := 0, barriers := [], banks := [], ctx0 := none, ctx1 := none, mig := none, lossLog := [], predQ := [], replaceNo := 0, replaceAt := 0, sources := [], vectors := [], jig := [], log := [], dropArm := true, due := [], safePin := true,
    boot := Boot.zero, umv := Umv.zero, tb := Timebase.zero, tns := Tenants.zero, latent := Latent.zero, probing := false }

end Sys2Proof.Machine
end

