-- ==== Sys2Proof/Machine/Ops.lean ====
section
/-!
DEFINITION. The named operations over the registers, the ports, the slices and fabric time that every meaning uses.
-/
namespace Sys2Proof.Machine

/-! ## Registers -/

/-- The reset value of the register at byte address `a` (the Reset columns of the register tables). (Log 3: DESIGN CHOICE) -/
def regInit (a : Nat) : Word :=
  if a < 0x1000 then
    match a with
    | 0x000 => 0xAE171620 | 0x004 => 0x01000101 | 0x008 => 0x7F0C0012 | 0x024 => 1 | 0x200 => 0x01000000
    | 0x320 => 0x00010000 | _ => 0
  else if a < 0x10000 then
    match a with
    | 0x1008 => 0x001F0000 | 0x2000 => 0x68 | 0x200C => 0xC | 0x2018 => 0x3A | 0x2020 => 0x40000000
    | 0x3000 => 0x7800 | 0x3004 => 0x40000000 | 0x4034 => 0x0A000000 | 0x5004 => 0x00120218 | 0x5008 => 0x18
    | 0x8000 => 0xA
    | _ => if 0x7100 ≤ a ∧ a < 0x7200 ∧ a % 0x20 = 8 then 0x71000000 else 0
  else if a < 0x1C000 then
    match a % 0x1000 with
    | 0x008 => 0x8432 | 0x700 => 3 | _ => 0
  else if 0x20000 ≤ a ∧ a < 0x32000 then
    match a % 0x1000 with
    | 0x800 => 6 | 0x900 => 6 | 0xA00 => 3 | 0xB00 => 4 | 0xC00 => 1 | 0xD00 => 3 | 0xE00 => 0x75
    | 0xE08 => 0xFFFF0100 | _ => 0
  else 0

/-- The stored word of the register at byte address `a`. -/
def State.word (s : State) (a : Nat) : Word := spGet (regInit a) s.regs a

/-- Stores a word at byte address `a`. -/
def State.setWord (s : State) (a : Nat) (w : Word) : State := { s with regs := spSet (regInit a) s.regs a w }

/-- The value of field `f`, instance `n`, group member `m`. -/
def State.fget (s : State) (f : Fld) (n : Nat := 0) (m : Nat := 0) : Nat :=
  getBits (s.word (f.addr n m)) f.lsb f.wid

/-- Field `f` of the instance set to `v`, whatever its access code: the hardware's own write. -/
def State.fset (s : State) (f : Fld) (v : Nat) (n : Nat := 0) (m : Nat := 0) : State :=
  s.setWord (f.addr n m) (setBits (s.word (f.addr n m)) f.lsb f.wid v)

/-- A one-bit field as a truth value. -/
def State.flag (s : State) (f : Fld) (n : Nat := 0) (m : Nat := 0) : Bool := s.fget f n m != 0

/-- A one-bit field set or cleared. -/
def State.setFlag (s : State) (f : Fld) (b : Bool) (n : Nat := 0) (m : Nat := 0) : State :=
  s.fset f (if b then 1 else 0) n m

/-- A counter plus `k`, saturating at all ones (00 R15). -/
def State.bumpBy (s : State) (f : Fld) (k : Nat) (n : Nat := 0) (m : Nat := 0) : State :=
  s.fset f (min (s.fget f n m + k) (onesMask f.wid)) n m

/-- A counter plus one, saturating at all ones (00 R15). -/
def State.bump (s : State) (f : Fld) (n : Nat := 0) (m : Nat := 0) : State := s.bumpBy f 1 n m

/-- A counter plus `k` that wraps. -/
def State.wrapBy (s : State) (f : Fld) (k : Nat) (n : Nat := 0) (m : Nat := 0) : State :=
  s.fset f (s.fget f n m + k) n m

/-- A counter plus one that wraps. -/
def State.wrapInc (s : State) (f : Fld) (n : Nat := 0) (m : Nat := 0) : State := s.wrapBy f 1 n m

/-! ## Ports and slices -/

/-- Port `p`. -/
def State.port (s : State) (p : Nat) : Port := spGet Port.zero s.ports p
/-- Port `p` replaced. -/
def State.setPort (s : State) (p : Nat) (q : Port) : State := { s with ports := spSet Port.zero s.ports p q }
/-- Port `p` changed by `f`. -/
def State.modPort (s : State) (p : Nat) (f : Port → Port) : State := s.setPort p (f (s.port p))

/-- Physical slice `k`. -/
def State.slice (s : State) (k : Nat) : Slice := spGet Slice.zero s.slices k
/-- Physical slice `k` replaced. -/
def State.setSlice (s : State) (k : Nat) (x : Slice) : State := { s with slices := spSet Slice.zero s.slices k x }
/-- Physical slice `k` changed by `f`. -/
def State.modSlice (s : State) (k : Nat) (f : Slice → Slice) : State := s.setSlice k (f (s.slice k))

/-- Tracker `t` of slice `k`. -/
def State.txn (s : State) (k t : Nat) : Option Txn := spGet none (s.slice k).trk t
/-- Tracker `t` of slice `k` holds `x`, or is free. -/
def State.setTxn (s : State) (k t : Nat) (x : Option Txn) : State :=
  s.modSlice k (fun c => { c with trk := spSet none c.trk t x })

/-- The time is at least `t` (a command that says that a timer has ended moves fabric time to its end).
(Log 9, 88: DESIGN CHOICE) -/
def State.until (s : State) (t : Time) : State := { s with now := max s.now t }

/-- The next free index of the free values, and the state that has used it. (Log 1: DESIGN CHOICE) -/
def State.draw (s : State) : Nat × State := (s.fresh, { s with fresh := s.fresh + 1 })

/-- The first of the numbers from `i` on, `n` of them, for which `p` holds. (Log 55: DESIGN CHOICE) -/
def firstFrom (p : Nat → Bool) : Nat → Nat → Option Nat
  | _, 0 => none
  | i, n + 1 => if p i then some i else firstFrom p (i + 1) n

/-- Applies `f` for every number from `i` on, `n` of them, in ascending order. -/
def forUp {σ : Type} (f : Nat → σ → σ) : Nat → Nat → σ → σ
  | _, 0, s => s
  | i, n + 1, s => forUp f (i + 1) n (f i s)

/-- TIM_TRIM as a number of ppb. (Log 8: DESIGN CHOICE) -/
def State.trim (s : State) : Int :=
  let v := s.fget F.TIM_TRIM_PPB
  if v < 2 ^ 20 then (v : Int) else (v : Int) - 2 ^ 21

/-- One clock period of the timebase passes (18 R655): 2.5 ns, changed by the trim and the phase slew. While RST_N is
asserted the timebase stands still. (Log 8, 88: DESIGN CHOICE) -/
def State.tick (s : State) : State :=
  if s.boot.rstN then s else
  let inc : Int := 5 * 2 ^ 31
  let d := if s.tb.slew.natAbs ≤ s.tb.slewTick.natAbs then s.tb.slew else s.tb.slewTick
  { s with now := s.now + (inc + inc * s.trim / 1000000000 + d).toNat, tb := { s.tb with slew := s.tb.slew - d } }

/-- Fabric time as the 64-bit 48.16 count of nanoseconds that software sees (18 R655). -/
def fab64 (t : Time) : BitVec 64 := BitVec.ofNat 64 (t / 65536)

/-- The EPOCH above the 64-bit part (18 R655). -/
def fabEpoch (t : Time) : BitVec 16 := BitVec.ofNat 16 (t / 65536 / 2 ^ 64)

end Sys2Proof.Machine
end

