-- ==== Sys2Proof/Machine/Messages.lean ====
section
/-!
DEFINITION. Derzon messages: their slots, their end-to-end check, the classes and opcodes, the responses of R174, and
the routes of 03_nodes_addresses_routing.md by which the chiplet sends them.
-/
namespace Sys2Proof.Machine

/-! ## Opcodes (05 R176) -/
namespace Op
def rdShared : BitVec 8 := 0x01
def rdUnique : BitVec 8 := 0x02
def rdOnce : BitVec 8 := 0x03
def rdNoSnp : BitVec 8 := 0x04
def cleanUnique : BitVec 8 := 0x05
def makeUnique : BitVec 8 := 0x06
def evictClean : BitVec 8 := 0x07
def wrBackFull : BitVec 8 := 0x08
def wrUnique : BitVec 8 := 0x09
def wrPosted : BitVec 8 := 0x0A
def wrNT : BitVec 8 := 0x0B
def wrNoSnp : BitVec 8 := 0x0C
def reserveRd : BitVec 8 := 0x0D
def condWr : BitVec 8 := 0x0E
def atomicFar : BitVec 8 := 0x0F
def gatherRd : BitVec 8 := 0x10
def gatherRdFF : BitVec 8 := 0x11
def scatterWr : BitVec 8 := 0x12
def scatterWrFF : BitVec 8 := 0x13
def fenceW : BitVec 8 := 0x14
def fenceFull : BitVec 8 := 0x15
def memRd : BitVec 8 := 0x16
def memCancel : BitVec 8 := 0x17
def memCleanOffer : BitVec 8 := 0x18
def clampAlloc : BitVec 8 := 0x19
def clampFree : BitVec 8 := 0x1A
def lockAcq : BitVec 8 := 0x1B
def lockRel : BitVec 8 := 0x1C
def barrierArrive : BitVec 8 := 0x1D
def clampSetPrio : BitVec 8 := 0x1E
def snpShared : BitVec 8 := 0x20
def snpUnique : BitVec 8 := 0x21
def snpOnce : BitVec 8 := 0x22
def snpMakeInv : BitVec 8 := 0x23
def snpBackInv : BitVec 8 := 0x24
def snpRsp : BitVec 8 := 0x40
def invAck : BitVec 8 := 0x41
def comp : BitVec 8 := 0x42
def compAck : BitVec 8 := 0x43
def settle : BitVec 8 := 0x44
def condOk : BitVec 8 := 0x45
def condFail : BitVec 8 := 0x46
def scatterRsp : BitVec 8 := 0x47
def accessFault : BitVec 8 := 0x48
def addrUnhomed : BitVec 8 := 0x49
def homeUnavailable : BitVec 8 := 0x4A
def tenantResetting : BitVec 8 := 0x4B
def reqError : BitVec 8 := 0x4C
def memCancelled : BitVec 8 := 0x4D
def memWrAck : BitVec 8 := 0x4E
def memOfferRsp : BitVec 8 := 0x4F
def clampComp : BitVec 8 := 0x50
def clampFull : BitVec 8 := 0x51
def lockGrant : BitVec 8 := 0x52
def lockBroken : BitVec 8 := 0x53
def barrierDone : BitVec 8 := 0x54
def handleStale : BitVec 8 := 0x55
def notOwner : BitVec 8 := 0x56
def compData : BitVec 8 := 0x60
def snpRspData : BitVec 8 := 0x61
def memData : BitVec 8 := 0x62
def memWr : BitVec 8 := 0x63
def gatherData : BitVec 8 := 0x64
def atomicData : BitVec 8 := 0x65
def regRd : BitVec 8 := 0x80
def regWr : BitVec 8 := 0x81
def regRsp : BitVec 8 := 0x82
def interrupt : BitVec 8 := 0x83
def intAck : BitVec 8 := 0x84
def idleHint : BitVec 8 := 0x85
def latencyTolerance : BitVec 8 := 0x86
def mgtAck : BitVec 8 := 0x87
def timeSync : BitVec 8 := 0x88
def faultNotice : BitVec 8 := 0x89
def replaceRequest : BitVec 8 := 0x8A
def censusSnp : BitVec 8 := 0xA0
def censusRsp : BitVec 8 := 0xA1
def seizeNotice : BitVec 8 := 0xA2
def seizeAck : BitVec 8 := 0xA3
def rcvInv : BitVec 8 := 0xA4
def rcvInvRsp : BitVec 8 := 0xA5
end Op

/-! ## Slots and the check (05 R172, R173) -/

/-- Slot `k` of a message, slot 0 being the header; a slot it does not have reads as zero. -/
def msgSlot (m : Msg) (k : Nat) : Slot := if k = 0 then 0 else m.body.getD (k - 1) 0

/-- The header slot of R172 with the ECHK field given. -/
def headerWith (m : Msg) (echk : BitVec 16) : Slot :=
  (m.htx ++ m.fspec ++ BitVec.ofBool m.spec ++ BitVec.ofBool m.rcm ++ m.poison ++ echk ++ m.tag ++ m.dst ++ m.src ++
    BitVec.ofBool m.rsv23 ++ m.ten ++ m.rsv ++ m.len ++ m.op : BitVec 128)

/-- The header slot. -/
def headerSlot (m : Msg) : Slot := headerWith m m.echk

/-- All slots of a message, the header first (R167). -/
def toSlots (m : Msg) : List Slot := headerSlot m :: m.body

/-- The message whose slots are given, the header first. -/
def ofSlots (h : Slot) (rest : List Slot) : Msg :=
  { op := h.extractLsb' 0 8, len := h.extractLsb' 8 5, rsv := h.extractLsb' 13 3, ten := h.extractLsb' 16 7,
    rsv23 := h.getLsbD 23, src := h.extractLsb' 24 20, dst := h.extractLsb' 44 20, tag := h.extractLsb' 64 12,
    echk := h.extractLsb' 76 16, poison := h.extractLsb' 92 16, rcm := h.getLsbD 108, spec := h.getLsbD 109,
    fspec := h.extractLsb' 110 13, htx := h.extractLsb' 123 5, body := rest }

/-- ECHK of a message: the CRC-16 of all its bytes in slot order with the ECHK field zero (R173). -/
def echkOf (m : Msg) : BitVec 16 :=
  BitVec.ofNat 16 (crc16 ((headerWith m 0 :: m.body).flatMap (fun x => bytesLe 16 x.toNat)))

/-- The message with its ECHK computed, as a sender creates it (R173). -/
def sealMsg (m : Msg) : Msg := { m with echk := echkOf m }

/-- The class code of an opcode, its bits 7:5 (R162, R118). -/
def opClass (op : BitVec 8) : Nat := op.toNat / 32

/-- A field of slot `k`: `wid` bits at `lsb`. -/
def slotField (m : Msg) (k lsb wid : Nat) : BitVec wid := (msgSlot m k).extractLsb' lsb wid

/-- ADDR of slot 1 (R179, R183). -/
def msgAddr (m : Msg) : Addr := slotField m 1 0 52
/-- The line of an address: bits 5:0 zero. -/
def lineAddr (a : Addr) : Addr := (a >>> 6) <<< 6
/-- RANGE of a snoop or recovery request (R183). -/
def msgRange (m : Msg) : Bool := slotField m 1 89 1 == 1
/-- BE of slot 1 (R179). -/
def msgBe (m : Msg) : BitVec 64 := slotField m 1 64 64
/-- STATE of FSPEC (R186). -/
def msgState (m : Msg) : BitVec 3 := m.fspec.extractLsb' 0 3
/-- DIRTY of FSPEC (R186). -/
def msgDirty (m : Msg) : Bool := m.fspec.getLsbD 3
/-- HIT of FSPEC (R186). -/
def msgHit (m : Msg) : Bool := m.fspec.getLsbD 4
/-- AGG of FSPEC (R186). -/
def msgAgg (m : Msg) : Bool := m.fspec.getLsbD 5

/-- The line in the four data slots that start at slot `k`. -/
def msgLine (m : Msg) (k : Nat) : Line := lineOf (msgSlot m k) (msgSlot m (k + 1)) (msgSlot m (k + 2)) (msgSlot m (k + 3))
/-- The POISON bits of the first four data slots. -/
def msgPoison4 (m : Msg) : BitVec 4 := m.poison.extractLsb' 0 4

/-- A message of the home: header fields, and slots 1 on. -/
def mkMsg (op : BitVec 8) (ten : Tenant) (src dst : Node) (tag : Tag) (htx : BitVec 5) (fspec : BitVec 13)
    (rcm : Bool) (poison : BitVec 16) (body : List Slot) : Msg :=
  sealMsg
    { op, len := BitVec.ofNat 5 body.length, rsv := 0, ten, rsv23 := false, src, dst, tag, echk := 0, poison, rcm,
      spec := false, fspec, htx, body }

/-- A response to `m` (R174): its SRC and DST change places, TENANT, TAG and HTX stay. -/
def respTo (m : Msg) (op : BitVec 8) (fspec : BitVec 13) (rcm : Bool) (poison : BitVec 16) (body : List Slot) : Msg :=
  mkMsg op m.ten m.dst m.src m.tag m.htx fspec rcm poison body

/-- A one-slot response to `m` with nothing beyond its header. -/
def plainResp (m : Msg) (op : BitVec 8) : Msg := respTo m op 0 false 0 []

/-- The data slots of a line. -/
def lineSlots (l : Line) : List Slot := [lineSlot l 0, lineSlot l 1, lineSlot l 2, lineSlot l 3]

/-- Sixteen POISON bits of which the first four are given. -/
def poison16 (p : BitVec 4) : BitVec 16 := p.zeroExtend 16

/-- FSPEC of a completion: STATE and PCOUNT (R186). -/
def fspecComp (st : BitVec 3) (pcount : Nat) : BitVec 13 := (BitVec.ofNat 10 pcount ++ st : BitVec 13)

/-! ## Node map and routes (03 R83 to R90) -/

/-- The role of a port (R81, R547); before a Pattern every port is OFF. (Log 3: DESIGN CHOICE) -/
def State.role (s : State) (p : Nat) : Role := (s.pat.ports.getD p (.off, 0)).1

/-- The home node ID (R78). -/
def State.home (s : State) : Node := s.pat.home

/-- A port is down in the sense of R84 (04 R116). -/
def State.isDown (s : State) (p : Nat) : Bool :=
  match (s.port p).st with
  | .active | .retrain => false
  | _ => true

/-- The index of the node map entry that contains `n`. -/
def State.entryOf (s : State) (n : Node) : Option Nat := s.pat.nodemap.findIdx? (fun e => inBlock n e.base e.k)

/-- Node map entry `i`. -/
def State.entry (s : State) (i : Nat) : NodeEnt := s.pat.nodemap.getD i ⟨0, 0, true, 0, none⟩

/-- The current port of entry `i`, if it has one to use (R84). -/
def State.currentPort (s : State) (i : Nat) : Option Nat :=
  let e := s.entry i
  if e.home then none
  else
    let c := spGet (false, false) s.cur i
    if c.2 then none else if c.1 then e.alt else some e.prim

/-- The port on which a message for node `n` leaves (R84). -/
def State.routeTo (s : State) (n : Node) : Option Nat := (s.entryOf n).bind s.currentPort

/-- The port whose NOROUTE counter a message for `n` counts in when it has no route (R86). -/
def State.dropPort (s : State) (n : Node) : Nat :=
  match s.entryOf n with
  | some i => (s.entry i).prim
  | none => 0

/-- Puts a message on the egress queue of port `p`. -/
def State.sendOn (s : State) (p : Nat) (m : Msg) : State := s.modPort p (fun q => { q with tx := q.tx ++ [m] })

/-- The snoop timeout of tenant `t`: 2^SNP_TMO ns (06, Snoop timeout; TNTn_CTL). -/
def State.snpTmo (s : State) (t : Tenant) : Time := nsec (2 ^ s.fget F.TNT_CTL_SNP_TMO t.toNat)

/-- Starts the snoop timer of the copy that a message carries, unless it runs (06 R234, R248). Zero stands for a timer
that has not started. (Log 45: DEDUCED) -/
def State.startTimer (s : State) (m : Msg) : State :=
  if opClass m.op != 1 && opClass m.op != 5 then s
  else
    let k := m.htx.toNat
    let t := m.tag.toNat
    match s.txn k t with
    | none => s
    | some x =>
      let due := s.now + s.snpTmo m.ten
      let hit (c : Copy) : Bool := c.deadline == 0 && c.op == m.op && c.dst == m.dst && c.line == lineAddr (msgAddr m) &&
        c.range == msgRange m
      if x.copies.any hit then
        s.setTxn k t (some { x with copies := x.copies.map (fun c => if hit c then { c with deadline := due } else c) })
      else s

/-- Sends a message to its DST on the route in force (R84), or discards and counts it (R86): the timer of a snoop
discarded runs, because it is treated as unanswered. -/
def State.send (s : State) (m : Msg) : State :=
  match s.routeTo m.dst with
  | some p => s.sendOn p m
  | none => (s.bump F.PRT_RT_DROPCNT_NOROUTE (s.dropPort m.dst)).startTimer m

/-- Sends messages one after the other. -/
def State.sendAll (s : State) (ms : List Msg) : State := ms.foldl State.send s

/-- The intersection of blocks a/j and b/k, which are nested or disjoint (R90). -/
def blockMeet (a : Node) (j : Nat) (b : Node) (k : Nat) : Option (Node × Nat) :=
  if j ≤ k then (if inBlock a b k then some (a, j) else none)
  else if inBlock b a j then some (b, k) else none

/-- The copies of a range message to block base/k (R90): for each node map entry on a CLIENT or PEER port that the
block meets, the intersection and the entry's index. A copy that holds only the excluded node is not made. -/
def State.rangeCopies (s : State) (base : Node) (k : Nat) (excl : Option Node) : List (Node × Nat × Nat) :=
  (List.range s.pat.nodemap.length).filterMap (fun i =>
    let e := s.entry i
    if e.home then none
    else match s.role e.prim with
      | .client | .peer =>
        match blockMeet base k e.base e.k with
        | some (b, j) => if j = 0 ∧ excl = some b then none else some (b, j, i)
        | none => none
      | _ => none)

/-- The current port updates of R84 when port states have changed: an entry whose current port is down moves to its
other port, has no port to use when that is down too, and takes the first of its ports that is up again. (Log 46: DEDUCED) -/
def State.failover (s : State) : State :=
  forUp (fun i (s : State) =>
    let e := s.entry i
    if e.home then s
    else
      let c := spGet (false, false) s.cur i
      let mine := if c.1 then e.alt.getD e.prim else e.prim
      let other := if c.1 then some e.prim else e.alt
      let c' := if s.isDown mine
        then match other with
          | some o => if s.isDown o then (c.1, true) else (!c.1, false)
          | none => (c.1, true)
        else (c.1, false)
      { s with cur := spSet (false, false) s.cur i c' }) 0 s.pat.nodemap.length s

/-- Changes the state of a port, and the current ports with it (R84). -/
def State.setPortState (s : State) (p : Nat) (st : PortState) : State :=
  (s.modPort p (fun q => { q with st := st })).failover

end Sys2Proof.Machine
end

