-- ==== Sys2Proof/Machine/Report.lean ====
section
/-!
DEFINITION. Raising events (16_event_gatherer.md R605 to R609) and reporting errors by class: the error log, FAULT_N,
FaultNotice, and entry into the safe state (19_safety_and_errors.md R694 to R702).
-/
namespace Sys2Proof.Machine

/-! ## Events -/

/-! Event classes (14 R550). -/
namespace Cls
def access : Nat := 0
def seizure : Nat := 1
def memory : Nat := 2
def protocol : Nat := 3
def clamp : Nat := 4
def staging : Nat := 5
def resetDone : Nat := 6
def loss : Nat := 7
def error : Nat := 8
def overlay : Nat := 9
def link : Nat := 16
def routing : Nat := 17
def message : Nat := 18
def safety : Nat := 19
def prediction : Nat := 20
def degradation : Nat := 21
def watchdog : Nat := 22
end Cls

/-- Number of slice source `j` of slice `k` (R605). -/
def sliceSource (k j : Nat) : Nat := 24 + 16 * k + j
/-- Number of port source `j` of port `p` (R605). -/
def portSource (p j : Nat) : Nat := 312 + 8 * p + j

/-- Source `i` raises an event of class `cls` that names `ten` (R609): it is counted, and held unless the source already
holds 16, when it is dropped and counted in FULL. -/
def State.raise (s : State) (i cls : Nat) (ten : Option Tenant) : State :=
  let x := spGet EvSource.zero s.sources i
  let x1 : EvSource := { x with count := x.count + 1 }
  if x.q.length < 16 then
    { s with sources := spSet EvSource.zero s.sources i { x1 with q := x.q ++ [⟨cls, ten⟩] } }
  else
    ({ s with sources := spSet EvSource.zero s.sources i x1 }).bump F.EVG_DROP_FULL

/-- The safety monitor raises source `i`, 0 to 7 (R696). -/
def State.raiseSafety (s : State) (i : Nat) : State := s.raise i Cls.safety none

/-! ## Error log and notices -/

/-- The Jig has an injection armed on the unit (R699 INJ): a link kind on the port, an array kind on the slice,
or KIND 0xD on Umevo (20 R714). -/
def State.jigArmedOn (s : State) (unit : BitVec 8) : Bool :=
  (List.range 8).any (fun c =>
    s.flag F.JIG_CH_CTL_ARM 0 c &&
    (let kind := s.fget F.JIG_CH_CTL_KIND 0 c
     let u := s.fget F.JIG_CH_CTL_UNIT 0 c
     if kind = 0xD then unit == 0x32
     else if kind < 8 then unit == BitVec.ofNat 8 (0x20 + u)
     else unit == BitVec.ofNat 8 u))

/-- An entry that a full log makes room for (R699): CONTAINED, FATAL, a fence, a port failure or a safe-state cause. -/
def LogEntry.strong (e : LogEntry) : Bool := e.cls == 3 || e.cls == 4 || e.cls == 0

/-- The log without its oldest entry of class CORRECTED or DEFERRED, if it has one. -/
def dropWeak : List LogEntry → Option (List LogEntry)
  | [] => none
  | e :: t => if e.strong then (dropWeak t).map (e :: ·) else some t

/-- Writes an entry into the error log (R699). -/
def State.logEntry (s : State) (e : LogEntry) : State :=
  if s.log.length < 256 then { s with log := s.log ++ [e] }
  else match if e.strong then dropWeak s.log else none with
    | some l => { s with log := l ++ [e] }
    | none =>
      let s1 := s.bump F.SAF_LOG_STAT_DROPPED
      if s1.dropArm then ({ s1 with dropArm := false }).raiseSafety 6 else s1

/-- The entry of an error detected now. -/
def State.entryNow (s : State) (cls : BitVec 3) (ten : Option Tenant) (unit cause : BitVec 8) (addr : Option Addr) :
    LogEntry :=
  { time := s.now, cls := cls, inj := s.jigArmedOn unit, ten := ten, unit := unit, cause := cause, addr := addr }

/-- The fields of a FaultNotice (R700). -/
structure Notice where
  cause : BitVec 8
  origin : BitVec 2
  rung : BitVec 2
  cls : BitVec 3
  safe : Bool
  unit : BitVec 8
  ten : Option Tenant
  addr : Option Addr
deriving DecidableEq, Repr

/-- Slot 1 of a FaultNotice (R700), COUNT given. -/
def noticeSlot (n : Notice) (count : BitVec 16) : Slot :=
  (0 : BitVec 27) ++ count ++ BitVec.ofBool n.addr.isSome ++ n.addr.getD 0 ++ BitVec.ofBool n.ten.isSome ++
    n.ten.getD 0 ++ n.unit ++ BitVec.ofBool n.safe ++ n.cls ++ n.rung ++ n.origin ++ n.cause

/-- Sends a FaultNotice to SM_NODE when SM_NODE_VALID is 1, and counts it (R700). -/
def State.notice (s : State) (n : Notice) : State :=
  match s.pat.smNode with
  | none => s
  | some d =>
    let s1 := s.wrapInc F.SAF_NOTICE_COUNT
    s1.send (mkMsg Op.faultNotice 0 s.home d 0 0 0 false 0
      [noticeSlot n (BitVec.ofNat 16 (s1.fget F.SAF_NOTICE_COUNT))])

/-- A notice of the safety monitor itself. -/
def monitorNotice (cause : BitVec 8) (cls : BitVec 3) (safe : Bool) (unit : BitVec 8) (ten : Option Tenant)
    (addr : Option Addr) : Notice :=
  { cause := cause, origin := 0, rung := 0, cls := cls, safe := safe, unit := unit, ten := ten, addr := addr }

/-! ## Units -/
def unitSlice (k : Nat) : BitVec 8 := BitVec.ofNat 8 k
def unitPort (p : Nat) : BitVec 8 := BitVec.ofNat 8 (0x20 + p)
def unitLoom : BitVec 8 := 0x30
def unitEvg : BitVec 8 := 0x31
def unitUmevo : BitVec 8 := 0x32
def unitChip : BitVec 8 := 0x3F

/-- A reaction is decided. (Log 78: DEDUCED) -/
def State.react (s : State) (r : Reaction) : State := { s with due := s.due ++ [r] }

/-- The safe state is in force (19 R702). -/
def State.isSafe (s : State) : Bool := s.flag F.SAF_STATUS_SAFE

/-- Entry into the safe state with a cause (R701, R702): the cause is recorded, SAFE_N asserted, source 0 raised. It
is entered once; nothing more happens while it is in force. The log entry and the notice are those of the fault. -/
def State.enterSafe (s : State) (cause : BitVec 8) : State :=
  if s.isSafe then s
  else
    let s1 := (s.setFlag F.SAF_STATUS_SAFE true).fset F.SAF_STATUS_SAFE_CAUSE cause.toNat
    (({ s1 with safePin := true }).raiseSafety 0).react .safe

/-- Entry into the safe state for a cause that is not itself a logged error (R699, R700): one log entry, one notice
before SAFE_N is asserted. -/
def State.safeCause (s : State) (cause unit : BitVec 8) : State :=
  if s.isSafe then s
  else ((s.logEntry (s.entryNow 0 none unit cause none)).notice (monitorNotice cause 0 true unit none none)).enterSafe cause

/-! ## The reaction to each class (R695) -/

/-- CORRECTED. -/
def State.corrected (s : State) (cause unit : BitVec 8) (ten : Option Tenant) (addr : Option Addr) : State :=
  let s1 := s.bump F.SAF_CNT0_CORR
  if s1.flag F.SAF_CTL_LOG_CE then s1.logEntry (s1.entryNow 1 ten unit cause addr) else s1

/-- DEFERRED. `src` is the source that raises ERROR for the tenant; with none, the rule that detects the error has
raised an event of its own. An item of no tenant raises safety source 5. -/
def State.deferred (s : State) (cause unit : BitVec 8) (ten : Option Tenant) (addr : Option Addr) (src : Option Nat) :
    State :=
  let s1 := s.bump F.SAF_CNT0_DEFER
  let s2 := s1.logEntry (s1.entryNow 2 ten unit cause addr)
  match ten, src with
  | none, _ => s2.raiseSafety 5
  | some t, some i => s2.raise i Cls.error (some t)
  | some _, none => s2

/-- The tenant's bit in SAF_TFATAL0 to SAF_TFATAL3. -/
def State.setTFatal (s : State) (t : Tenant) (b : Bool) : State :=
  let m := t.toNat / 32
  let w := s.fget F.SAF_TFATAL_TENANT 0 m
  let bit := 2 ^ (t.toNat % 32)
  s.fset F.SAF_TFATAL_TENANT (if b then w ||| bit else w &&& (0xFFFFFFFF - bit)) 0 m

/-- UNCORRECTED-CONTAINED for one tenant. -/
def State.contained (s : State) (cause unit : BitVec 8) (t : Tenant) (addr : Option Addr) (src : Option Nat) : State :=
  let s1 := (s.bump F.SAF_CNT1_CONT)
  let s2 := s1.logEntry (s1.entryNow 3 (some t) unit cause addr)
  let s3 := match src with
    | some i => s2.raise i Cls.error (some t)
    | none => s2
  let s4 := (s3.raiseSafety 7).setFlag F.SAF_FAULT_CONTAINED true
  let s5 := (s4.notice (monitorNotice cause 3 false unit (some t) addr)).setTFatal t true
  if s5.flag F.SAF_CTL_AUTO_TRST then s5.react (.tenantReset t) else s5

/-- UNCORRECTED-CONTAINED that names no tenant. (Log 86: DESIGN CHOICE) -/
def State.containedNone (s : State) (cause unit : BitVec 8) (addr : Option Addr) : State :=
  let s1 := s.bump F.SAF_CNT1_CONT
  let s2 := s1.logEntry (s1.entryNow 3 none unit cause addr)
  ((s2.setFlag F.SAF_FAULT_CONTAINED true).notice (monitorNotice cause 3 false unit none addr)).raiseSafety 7

/-- The lifecycle state (15 R582): DEPLOYED 0b00, DEBUG 0b01, SAFETY_LOCKED 0b10. -/
def State.lifecycle (s : State) : Nat := s.fget F.PAT_STATUS_LC

/-- A chip reset sequence is under way (READY is 0 and the boot has not reached it again). -/
def State.ready (s : State) : Bool := s.flag F.GLB_BOOT_STATUS_READY

/-- UNCORRECTED-FATAL (R695, R697): counted, logged, reported, and then the safe state, or a warm reset when FATAL_ACT
is 1 and the lifecycle is not SAFETY_LOCKED. While the safe state or a warm reset sequence is in force neither follows. -/
def State.fatal (s : State) (cause unit : BitVec 8) (addr : Option Addr) (inReset : Bool := false) : State :=
  let s1 := s.bump F.SAF_CNT1_FATAL
  let s2 := s1.logEntry (s1.entryNow 4 none unit cause addr)
  let s3 := (s2.raiseSafety 5).setFlag F.SAF_FAULT_FATAL true
  let warm := s3.flag F.SAF_CTL_FATAL_ACT && s3.lifecycle != 2
  let still := s3.isSafe || inReset
  let s4 := s3.notice (monitorNotice cause 4 (s3.isSafe || (!still && !warm)) unit none addr)
  if still then s4 else if warm then s4.react .warm else s4.enterSafe cause

end Sys2Proof.Machine
end

