-- ==== Sys2Proof/Machine/JigCore.lean ====
section
/-!
DEFINITION. The Jig's matching and triggers (20_jig_fault_injection.md R714 to R722): which armed channel fires on a
read of an array, and the bits it inverts.
-/
namespace Sys2Proof.Machine

/-- Channel `c` is armed and has not fired for the last time (R718). -/
def State.jigRun (s : State) (c : Nat) : Option JigRun :=
  match spGet none s.jig c with
  | some r => if r.spent then none else some r
  | none => none

/-- The line address agrees with ADDR in bits 51:6 + GRAN (R718). -/
def State.jigAddrOk (s : State) (c : Nat) (a : Addr) : Bool :=
  let g := 6 + s.fget F.JIG_CH_ADDR_HI_GRAN 0 c
  let x := s.fget F.JIG_CH_ADDR_HI_ADDR_HI 0 c * 2 ^ 32 + s.fget F.JIG_CH_ADDR_LO_ADDR_LO 0 c * 64
  a.toNat >>> g == x >>> g

/-- A match of channel `c` (R718): whether it fires, and what the channel then has counted. -/
def State.jigTry (s : State) (c : Nat) (r : JigRun) (a : Option Addr) : Bool × JigRun :=
  let value := s.fget F.JIG_CH_TRIG_VALUE 0 c
  let rep := s.flag F.JIG_CH_CTL_REPEAT 0 c
  let n := r.matches_ + 1
  match s.fget F.JIG_CH_CTL_TRIG 0 c with
  | 0 => (if rep then n % value == 0 else n == value, { r with matches_ := n })
  | 1 =>
    let w := (s.now - r.armedAt) / usec value
    (1 ≤ w && r.lastWin < w, { r with matches_ := n, lastWin := if r.lastWin < w then w else r.lastWin })
  | _ => ((match a with | some x => s.jigAddrOk c x | none => false), { r with matches_ := n })

/-- The channel fires: FIRED counts it, and without REPEAT the channel disarms (R718). (Log 81: DEDUCED) -/
def State.jigFire (s : State) (c : Nat) (r : JigRun) : State :=
  let rep := s.flag F.JIG_CH_CTL_REPEAT 0 c
  let s1 := ({ s with jig := spSet none s.jig c (some { r with spent := !rep }) }).bump F.JIG_CH_STATUS_FIRED 0 c
  if rep then s1 else s1.react (.jigSpent c)

/-- The bits that channel `c` inverts (R715, R716). (Log 42, 81: DEDUCED, 87: DESIGN CHOICE) -/
def State.jigMask (s : State) (c : Nat) : Nat :=
  let b0 := 2 ^ s.fget F.JIG_CH_BITS_BIT0 0 c
  if s.flag F.JIG_CH_PARAM_DOUBLE 0 c then b0 ^^^ 2 ^ s.fget F.JIG_CH_BITS_BIT1 0 c else b0

/-- The flips that the armed channels of array `kind` in unit `u` make on one read at `a` (R716, R722): several
channels combine by exclusive OR. -/
def State.jigRead (s : State) (kind u : Nat) (a : Option Addr) : Nat × State :=
  if s.jig.isEmpty then (0, s)
  else (List.range 8).foldl (fun (acc : Nat × State) c =>
    match acc.2.jigRun c with
    | none => acc
    | some r =>
      if acc.2.fget F.JIG_CH_CTL_KIND 0 c = kind ∧ (kind = 0xD ∨ acc.2.fget F.JIG_CH_CTL_UNIT 0 c = u) then
        let x := acc.2.jigTry c r a
        if x.1 then (acc.1 ^^^ acc.2.jigMask c, acc.2.jigFire c x.2)
        else (acc.1, { acc.2 with jig := spSet none acc.2.jig c (some x.2) })
      else acc) (0, s)

/-- Takes an armed channel out: ARM becomes 0, with the code recorded when an event disarms it (R720). -/
def State.jigDisarm (s : State) (c : Nat) (code : Option Nat) : State :=
  match spGet none s.jig c with
  | none => s
  | some _ =>
    let s1 := ({ s with jig := spErase c s.jig }).setFlag F.JIG_CH_CTL_ARM false 0 c
    match code with
    | some k => s1.fset F.JIG_CH_STATUS_CODE k 0 c
    | none => s1

/-- Takes every armed channel out with a code (R720). -/
def State.jigDisarmAll (s : State) (code : Nat) : State := forUp (fun c (s : State) => s.jigDisarm c (some code)) 0 8 s

end Sys2Proof.Machine
end

