-- ==== Sys2Proof/Machine/Address.lean ====
section
/-!
DEFINITION. Tenants' settings, snoop domains, homed ranges, windows, the slice hash and the set indices
(03_nodes_addresses_routing.md R80, R93 to R101; 12_tenants.md).
-/
namespace Sys2Proof.Machine

/-! ## Tenant settings -/

/-- The Pattern section of tenant `t`, if it is configured. (Log 3: DESIGN CHOICE) -/
def State.cfg (s : State) (t : Tenant) : Option TenCfg := s.pat.tens.find? (fun c => c.ten == t)

/-- The section of an unconfigured tenant: nothing is granted, and the snoop timeout is the default of 06.
(Log 44: DESIGN CHOICE) -/
def TenCfg.none (t : Tenant) : TenCfg :=
  { ten := t, spec := false, rcm := false, snpTmo := 20, weight := 0, cap := 1, sfQuota := 1, rdAlloc := false,
    fillSector := false, offer := false, wayMask := 0, clampQuota := 0, latDef := 0, dom := [], peers := 0,
    regionExp := 0, allThresh := 1, windows := [], vectors := [] }

/-- The settings in force for tenant `t`. (Log 44: DESIGN CHOICE) -/
def State.ten (s : State) (t : Tenant) : TenCfg := (s.cfg t).getD (TenCfg.none t)

/-- The largest snoop timeout of any configured tenant (07 R258). -/
def State.maxTmo (s : State) : Time := s.pat.tens.foldl (fun a c => max a (s.snpTmo c.ten)) 0

/-- Node `n` lies in the snoop domain of tenant `t` (R80). -/
def State.inDomain (s : State) (t : Tenant) (n : Node) : Bool := (s.ten t).dom.any (fun b => inBlock n b.1 b.2)

/-! ## Homed ranges and memory addresses -/

/-- The homed range that contains address `a`, with its index (R93). -/
def State.rangeOf (s : State) (a : Addr) : Option (Nat × HRange) :=
  (s.pat.ranges.findIdx? (fun r => r.base ≤ a.toNat && a.toNat ≤ r.limit)).bind
    (fun i => (s.pat.ranges[i]?).map (fun r => (i, r)))

/-- The MEMORY port and the memory address of an address of a range (R94). -/
def memOf (r : HRange) (a : Addr) : Nat × Addr :=
  let off := a.toNat - r.base
  let w := 2 ^ r.logw
  (r.ports.getD ((off >>> r.g) % w) 0,
   BitVec.ofNat 52 (r.memBase + ((off >>> (r.g + r.logw)) <<< r.g) + off % 2 ^ r.g))

/-- The node behind MEMORY port `p`: the one entry that carries the port as primary (R82). -/
def State.memNode (s : State) (p : Nat) : Node :=
  match s.pat.nodemap.find? (fun e => !e.home && e.prim == p) with
  | some e => e.base
  | none => 0

/-! ## Hash and sets -/

/-- The hash value H of an address (R96). -/
def State.hash (s : State) (a : Addr) : Nat :=
  (List.range s.pat.hashBits).foldl
    (fun h i => h + (if parity (a &&& s.pat.masks.getD i 0) then 2 ^ i else 0)) 0

/-- The SLICE_TABLE entry of an address: its logical slice, as the rehashes have left it (R96, 13 R522). -/
def State.logOf (s : State) (a : Addr) : Nat := s.table.getD (s.hash a) 0

/-- The logical slice. -/
def State.lsl (s : State) (l : Nat) : LogSlice := spGet LogSlice.zero s.logic l
/-- The logical slice changed. -/
def State.modLsl (s : State) (l : Nat) (f : LogSlice → LogSlice) : State :=
  { s with logic := spSet LogSlice.zero s.logic l (f (s.lsl l)) }

/-- The physical slice that serves a logical slice (R98, 13 R505). -/
def State.physOf (s : State) (l : Nat) : Nat := (s.lsl l).phys

/-- The physical slice that serves the line of an address. -/
def State.sliceOf (s : State) (a : Addr) : Nat := s.physOf (s.logOf a)

/-- The logical slice that physical slice `k` serves, if any. -/
def State.logicalOn (s : State) (k : Nat) : Option Nat :=
  (List.range s.pat.nActive).find? (fun l => (s.lsl l).phys == k && !(s.lsl l).hosted)

/-- The role of a physical slice (13 R504). -/
def State.srole (s : State) (k : Nat) : SliceRole := spGet .active s.roles k

/-- Physical slices that are ACTIVE, in ascending order. -/
def State.actives (s : State) : List Nat :=
  (List.range 18).filter (fun k => s.srole k == .active && (s.logicalOn k).isSome)

/-- SF set of an address (R98). -/
def sfSetOf (a : Addr) : Nat :=
  ((a.extractLsb' 6 16 : BitVec 16) ^^^ a.extractLsb' 22 16 ^^^ (a.extractLsb' 38 14 : BitVec 14).zeroExtend 16).toNat

/-- HC set of an address (R98). -/
def hcSetOf (a : Addr) : Nat :=
  ((a.extractLsb' 8 10 : BitVec 10) ^^^ a.extractLsb' 18 10 ^^^ a.extractLsb' 28 10 ^^^ a.extractLsb' 38 10 ^^^
    (a.extractLsb' 48 4 : BitVec 4).zeroExtend 10).toNat

/-- HC sub-block of an address (R98). -/
def hcSubOf (a : Addr) : Nat := (a.extractLsb' 6 2 : BitVec 2).toNat

/-! ## Windows and permissions -/

/-- The permissions an opcode needs: RD, WR, CACHE (06 R210, 08 R318). -/
def permsOf (op : BitVec 8) : Bool × Bool × Bool :=
  match op.toNat with
  | 0x01 => (true, false, true)
  | 0x02 => (true, true, true)
  | 0x03 | 0x04 | 0x10 | 0x11 => (true, false, false)
  | 0x05 | 0x06 => (false, true, true)
  | 0x07 => (false, false, true)
  | 0x08 | 0x09 | 0x0A | 0x0B | 0x0C | 0x0E | 0x12 | 0x13 => (false, true, false)
  | 0x0D | 0x0F => (true, true, false)
  | _ => (false, false, false)

/-- The windows of tenant `t` that contain address `a` (R99). -/
def State.windowsAt (s : State) (t : Tenant) (a : Addr) : List PWindow :=
  (s.ten t).windows.filter (fun w => w.base ≤ a.toNat && a.toNat ≤ w.limit)

/-- The line of `a` lies in a window of the tenant that grants the permissions; permissions of overlapping windows
combine by OR (R99, R100). -/
def State.windowOk (s : State) (t : Tenant) (a : Addr) (need : Bool × Bool × Bool) : Bool :=
  let ws := s.windowsAt t a
  !ws.isEmpty && (!need.1 || ws.any (·.rd)) && (!need.2.1 || ws.any (·.wr)) && (!need.2.2 || ws.any (·.cache))

end Sys2Proof.Machine
end

