-- ==== Sys2Proof/Machine/Link.lean ====
section
/-!
DEFINITION. The Derzon link layer of a port (04_derzon_link_layer.md): flits and their CRC, initialization, sequence
numbers, acknowledgement, replay, credits, retrain, link reset and failure, the flit clock, and the framing of
messages in slots (05 R167 to R171).
-/
namespace Sys2Proof.Machine

/-! ## Flits (R117 to R120) -/

/-- Flit types (R119). -/
def flitPayload : BitVec 4 := 1
def flitIdle : BitVec 4 := 2
def flitNak : BitVec 4 := 3
def flitInit : BitVec 4 := 4
def flitDown : BitVec 4 := 5

/-- The header of a flit (R117). -/
def flitHeader (f : Flit) : BitVec 64 :=
  f.rsv ++ f.tot1 ++ f.cls1 ++ f.tot0 ++ f.cls0 ++ f.typ ++ f.ack ++ f.seq

/-- The CRC that bytes 0 to 247 of the flit give (R120). -/
def flitCrc (f : Flit) : BitVec 64 :=
  BitVec.ofNat 64 (crc64 (bytesLe 8 (flitHeader f).toNat ++ f.slots.flatMap (fun x => bytesLe 16 x.toNat)))

/-- The flit with its CRC computed. -/
def crcFlit (f : Flit) : Flit := { f with crc := flitCrc f }

/-- Bit `k` of a flit inverted, counted over its 2,048 bits (20 R715). -/
def flipFlit (f : Flit) (k : Nat) : Flit :=
  if k < 64 then
    let h := flitHeader f ^^^ ((1 : BitVec 64) <<< k)
    { f with seq := h.extractLsb' 0 12, ack := h.extractLsb' 12 12, typ := h.extractLsb' 24 4, cls0 := h.extractLsb' 28 3,
             tot0 := h.extractLsb' 31 12, cls1 := h.extractLsb' 43 3, tot1 := h.extractLsb' 46 12,
             rsv := h.extractLsb' 58 6 }
  else if k < 1984 then
    { f with slots := f.slots.modify ((k - 64) / 128) (fun x => x ^^^ ((1 : Slot) <<< ((k - 64) % 128))) }
  else { f with crc := f.crc ^^^ ((1 : BitVec 64) <<< (k - 1984)) }

/-- Fifteen slots that hold nothing. -/
def noSlots : List Slot := List.replicate 15 0

/-- The slots given, filled up with NULL slots to fifteen (05 R168). -/
def padSlots (l : List Slot) : List Slot := l ++ List.replicate (15 - l.length) 0

/-! ## What the home advertises and what it accepts (R127, R81) -/

/-- Slots of each class, REQ to RCV, that the home advertises on a port of a role (R127). -/
def advertised : Role → List Nat
  | .client => [768, 0, 512, 1280, 64, 64]
  | .memory => [0, 0, 256, 1280, 64, 64]
  | .peer => [768, 256, 512, 1280, 64, 64]
  | .off => [0, 0, 0, 0, 0, 0]

/-- Classes that the home sends on a port of a role (03, Port roles). -/
def sends : Role → List Nat
  | .client => [1, 2, 3, 4, 5]
  | .memory => [0, 3, 4, 5]
  | .peer => [0, 1, 2, 3, 4, 5]
  | .off => []

/-- AGENT values that a port of a role accepts (R125). -/
def agentOk : Role → Nat → Bool
  | .client, a => a == 1
  | .memory, a => a == 2
  | .peer, a => a == 3 || a == 4
  | .off, _ => false

/-- Credits before an INIT record was accepted. -/
def Credit.zero : Credit := ⟨0, 0, 0, 0⟩
/-- The credits of a class. -/
def Port.credit (q : Port) (c : Nat) : Credit := spGet Credit.zero q.cr c
/-- Changes the credits of a class. -/
def Port.modCredit (q : Port) (c : Nat) (f : Credit → Credit) : Port := { q with cr := spMod Credit.zero q.cr c f }

/-- Slots of class `c` that the receive buffers of a port hold (R142). -/
def Port.bufUse (q : Port) (c : Nat) : Nat :=
  (q.rx.foldl (fun n m => n + (if opClass m.op = c then m.body.length + 1 else 0)) 0) +
    (match q.rxPart with
      | some x => if opClass ((x.slots.headD 0).extractLsb' 0 8) = c then x.slots.length else 0
      | none => 0)

/-! ## Timers -/
/-- Acknowledgement delay of port `p` (R152). -/
def State.ackDelay (s : State) (p : Nat) : Time := nsec (32 * 2 ^ s.fget F.PRT_LL_TIMER_ACK_DLY p)
/-- Replay timeout of port `p` (R152). -/
def State.replayTmo (s : State) (p : Nat) : Time := usec (2 ^ s.fget F.PRT_LL_TIMER_REPLAY_TMO p)

/-! ## Link reset, failure, retrain (R144 to R151) -/

/-- LASTERR of a link reset or FAILED entry (R152). -/
def State.lastErr (s : State) (p : Nat) (cause : BitVec 4) : State :=
  ((s.setFlag F.PRT_LL_LASTERR_VALID true p).fset F.PRT_LL_LASTERR_CAUSE cause.toNat p).fset F.PRT_LL_LASTERR_EXPECT
    (s.port p).expect.toNat p

/-- A range snoop copy (03 R90, R109). (Log 46: DEDUCED) -/
def isRangeCopy (m : Msg) : Bool := opClass m.op == 1 && msgRange m

/-- Takes out of port `p` what it still has to send: messages not acknowledged in full, then those not begun (R147). Range
snoop copies are not sent again, and their timers run (03 R109). (Log 46: DEDUCED) -/
def State.takeUndelivered (s : State) (p : Nat) : List Msg × State :=
  let q := s.port p
  let ms := q.unacked.map (·.1) ++ q.tx
  (ms.filter (fun m => !isRangeCopy m),
   (ms.filter isRangeCopy).foldl State.startTimer
     (s.setPort p { q with unacked := [], tx := [], txSlots := [], replay := [], replayAt := none, held := none,
                           again := none, wait := none }))

/-- The port's sequence numbers, credits and totals as a FULL initialization starts them (R123, R140, R141). -/
def Port.restart (q : Port) : Port :=
  { q with resume := false, gotInit := false, sentOk := false, gotOk := false, nextSeq := 0, replay := [],
           replayAt := none, replayFrom := 0, replays := 0, expect := 0, nakPend := false, nakDue := false,
           ackOwed := false, cr := [], flitNo := 0 }

/-- Discards a message of which only some slots were accepted (R149). -/
def State.dropPartial (s : State) (p : Nat) : State :=
  match (s.port p).rxPart with
  | none => s
  | some _ => (s.modPort p (fun q => { q with rxPart := none })).bump F.PRT_LL_DUPCNT_PARTIAL p

/-- The port enters FAILED: it is down, its messages take other routes, and its link event is raised (R148). (Log 41: DEDUCED) -/
def State.failPort (s : State) (p : Nat) (cause : BitVec 4) : State :=
  let s1 := (s.lastErr p cause).setPortState p .failed
  let u := s1.takeUndelivered p
  (((u.2.dropPartial p).modPort p (fun q => { q.restart with inReset := false, draining := false, notices := 0 })).sendAll
    u.1).raise (portSource p 0) Cls.link none

/-- A link reset with a cause (R146): the port is down, undelivered messages are sent again on the routes then in
force, a partial message is discarded, and the receive buffers drain. A fourth reset within 100 ms of the first of
three fails the port (R148). (Log 40: DEDUCED) -/
def State.linkReset (s : State) (p : Nat) (cause : BitVec 4) : State :=
  let q := s.port p
  let s1 := (s.lastErr p cause).bump F.PRT_LL_ERRCNT1_LRESET p
  let recent := q.resets.drop (q.resets.length - 3)
  let s2 := (s1.modPort p (fun q => { q with resets := recent ++ [s.now] })).react (.portFlush p)
  if recent.length = 3 ∧ s.now ≤ recent.headD 0 + msec 100 then s2.failPort p cause
  else
    let s3 := s2.setPortState p .down
    let u := s3.takeUndelivered p
    ((u.2.dropPartial p).modPort p (fun q =>
      { q.restart with inReset := true, draining := true, notices := 0 })).sendAll u.1

/-- A link protocol error (R146): DOWN_NOTICE goes out in 16 flit clocks, then the link reset. (Log 40: DEDUCED) -/
def State.linkError (s : State) (p : Nat) (cause : BitVec 4) : State :=
  s.modPort p (fun q => { q with notices := 16, noticeCause := cause, thenReset := false })

/-- A retrain starts (R144), or the link reset that replaces one too many within 10 ms (R145). (Log 40: DEDUCED) -/
def State.retrain (s : State) (p : Nat) : State :=
  let q := s.port p
  let recent := q.retrains.filter (fun t => s.now < t + msec 10)
  if s.fget F.PRT_LL_TIMER_RETRAIN_LIMIT p ≤ recent.length then s.linkReset p 7
  else
    ((s.bump F.PRT_LL_ERRCNT1_RETRAIN p).setPortState p .retrain).modPort p (fun q =>
      { q with retrains := recent ++ [s.now], retrainT := s.now + msec 1, ucieUp := false, resume := true,
               gotInit := false, sentOk := false, gotOk := false, replayAt := none })

/-- Starts a replay from the oldest flit of the replay buffer (R135, R136), or the retrain that replaces one too many
(R137). -/
def State.startReplay (s : State) (p : Nat) : State :=
  let q := s.port p
  match q.replay with
  | [] => s
  | (o, _) :: _ =>
    if s.fget F.PRT_LL_TIMER_REPLAY_LIMIT p ≤ q.replays then s.retrain p
    else
      (s.bump F.PRT_LL_ERRCNT1_REPLAY p).modPort p (fun q =>
        { q with replayAt := some o, replayFrom := o, replays := q.replays + 1, replayT := s.now + s.replayTmo p })

/-- UCIe reset and full training, after which the link reset goes on from step 2 (R150). The counts of R148 start anew. -/
def State.portResetNow (s : State) (p : Nat) : State :=
  ((s.modPort p (fun q => { q with fails := 0, resets := [] })).linkReset p 8).modPort p (fun q => { q with ucieUp := false })

/-- Port `p` is taken down for as long as its clock or supply is missing (R158, 22 R778): what it still had to send takes the
routes then in force (R147). -/
def State.portDown (s : State) (p : Nat) : State :=
  if s.role p = .off ∨ (s.port p).st = .failed then s
  else
    let u := (s.setPortState p .down).takeUndelivered p
    ((u.2.dropPartial p).modPort p (fun q =>
      { q.restart with inReset := true, draining := true, notices := 0, ucieUp := false })).sendAll u.1

/-- A port reset (R150): 16 DOWN_NOTICE flits first where the port can send them. A port whose role is OFF takes none.
(Log 40: DEDUCED) -/
def State.startPortReset (s : State) (p : Nat) : State :=
  if s.role p = .off then s
  else match (s.port p).st with
    | .active => s.modPort p (fun q => { q with notices := 16, noticeCause := 8, thenReset := true })
    | .retrain =>
      if (s.port p).ucieUp then s.modPort p (fun q => { q with notices := 16, noticeCause := 8, thenReset := true })
      else s.portResetNow p
    | _ => s.portResetNow p

/-! ## Receiving (R121, R124, R125, R130 to R135, R141, R142) -/

/-- The port enters ACTIVE (R124). -/
def State.enterActive (s : State) (p : Nat) : State :=
  (s.setPortState p .active).modPort p (fun q =>
    { q with fails := 0, inReset := false, replayT := s.now + s.replayTmo p,
             replayAt := if q.resume then (q.replay.head?).map (·.1) else none,
             replayFrom := if q.resume then (q.replay.headD (0, [])).1 else 0 })

/-- Frees the flits up to and including `a` when the ACK is valid (R133): the port afterwards, or none. -/
def Port.ack (q : Port) (a : BitVec 12) (restartT : Time) : Option Port :=
  let o := (q.replay.headD (q.nextSeq, [])).1
  if (a - o + 1).toNat ≤ (q.nextSeq - o).toNat then
    let n := (a - o + 1).toNat
    if n = 0 then some q
    else
      let done (x : BitVec 12) : Bool := (x - o).toNat < n
      some { q with replay := q.replay.drop n, replayT := restartT, replays := 0,
                    unacked := q.unacked.filter (fun m => !done m.2),
                    replayAt := match q.replayAt with
                      | some x => if done x then (if q.replay.length ≤ n then none else some (a + 1)) else some x
                      | none => none }
  else none

/-- One credit field of a received flit (R141): the port afterwards, or none when it returns more than was used. -/
def Port.takeCredit (q : Port) (c : BitVec 3) (t : BitVec 12) : Option Port :=
  if 6 ≤ c.toNat then some q
  else
    let x := q.credit c.toNat
    let back := (t - x.tLast).toNat
    if x.used < back then none
    else some (q.modCredit c.toNat (fun x => { x with used := x.used - back, tLast := t }))

/-- Slots accepted in order (05 R167, R168, R170): the port afterwards, and whether a header names no class or a class
buffer holds more than it advertised (R142). -/
def Port.takeSlots (role : Role) : List Slot → Port → Port × Bool
  | [], q => (q, true)
  | x :: t, q =>
    match q.rxPart with
    | none =>
      let op : BitVec 8 := x.extractLsb' 0 8
      if op = 0 then Port.takeSlots role t q
      else if 6 ≤ opClass op then (q, false)
      else
        let want := (x.extractLsb' 8 5 : BitVec 5).toNat + 1
        let q1 := if want = 1 then { q with rx := q.rx ++ [ofSlots x []] } else { q with rxPart := some ⟨[x], want⟩ }
        if (advertised role).getD (opClass op) 0 < q1.bufUse (opClass op) then (q1, false) else Port.takeSlots role t q1
    | some r =>
      let all := r.slots ++ [x]
      let c := opClass ((all.headD 0).extractLsb' 0 8)
      let q1 := if all.length = r.want
        then { q with rxPart := none, rx := q.rx ++ [ofSlots (all.headD 0) (all.drop 1)] }
        else { q with rxPart := some { r with slots := all } }
      if (advertised role).getD c 0 < q1.bufUse c then (q1, false) else Port.takeSlots role t q1

/-- A gap in the sequence: NAK is sent unless one is pending (R130, R131). -/
def State.gap (s : State) (p : Nat) : State :=
  if (s.port p).nakPend then s
  else s.modPort p (fun q => { q with nakPend := true, nakDue := true, nakT := s.now + s.replayTmo p })

/-- The sequence check of a flit (R130, R131): the state afterwards, and a link protocol error's cause. -/
def State.rxSeq (s : State) (p : Nat) (f : Flit) : State × Option (BitVec 4) :=
  let d := (f.seq - (s.port p).expect).toNat
  if f.typ = flitPayload ∧ d = 0 then
    let x := Port.takeSlots (s.role p) f.slots { s.port p with
      expect := (s.port p).expect + 1, nakPend := false, nakDue := false, ackOwed := true,
      ackT := if (s.port p).ackOwed then (s.port p).ackT else s.now + s.ackDelay p }
    (s.setPort p x.1, if x.2 then none else some 5)
  else if 1 ≤ d ∧ d ≤ 511 then (s.gap p, none)
  else if d = 0 then (s, none)
  else if 3584 ≤ d then (if f.typ = flitPayload then (s.bump F.PRT_LL_DUPCNT_DUP p, none) else (s, none))
  else (s, some 2)

/-- The ACK and credit fields of a flit (R133, R141). -/
def State.rxAckCredits (s : State) (p : Nat) (f : Flit) : State × Option (BitVec 4) :=
  match (s.port p).ack f.ack (s.now + s.replayTmo p) with
  | none => (s, some 3)
  | some q =>
    match (q.takeCredit f.cls0 f.tot0).bind (fun q => q.takeCredit f.cls1 f.tot1) with
    | none => (s.setPort p q, some 4)
    | some q' => (s.setPort p q', none)

/-- A NAK (R135): the replay starts from ACK + 1, unless one from there is in progress. -/
def State.rxNak (s : State) (p : Nat) (f : Flit) : State :=
  let q := s.port p
  if q.replayAt.isSome ∧ q.replayFrom = f.ack + 1 then s else s.startReplay p

/-- A flit of ACTIVE whose CRC passes. -/
def State.rxActive (s : State) (p : Nat) (f : Flit) : State :=
  if f.typ = flitDown then s.linkReset p 9
  else if 0 < (s.port p).notices then s
  else if f.typ = flitInit then s.linkError p 6
  else if f.typ = flitPayload ∨ f.typ = flitIdle ∨ f.typ = flitNak then
    match s.rxSeq p f with
    | (s1, some e) => s1.linkError p e
    | (s1, none) =>
      match s1.rxAckCredits p f with
      | (s2, some e) => s2.linkError p e
      | (s2, none) => if f.typ = flitNak then s2.rxNak p f else s2
  else s.linkError p 2

/-- Enters ACTIVE when RX_OK = 1 has been sent and accepted (R124 step 3). -/
def State.maybeActive (s : State) (p : Nat) : State :=
  if (s.port p).sentOk && (s.port p).gotOk then s.enterActive p else s

/-- An INIT flit during an exchange (R122 to R125, R144). (Log 40: DEDUCED) -/
def State.rxInit (s : State) (p : Nat) (f : Flit) : State :=
  let r := f.slots.headD 0
  let kind := (r.extractLsb' 8 2 : BitVec 2).toNat
  let agent := (r.extractLsb' 12 4 : BitVec 4).toNat
  let node : Node := r.extractLsb' 16 20
  let cr := (List.range 6).map (fun i => (r.extractLsb' (36 + 12 * i) 12 : BitVec 12).toNat)
  let ok := r.getLsbD 10
  let q := s.port p
  if (r.extractLsb' 0 8 : BitVec 8) ≠ 1 then s.failPort p 0xA
  else if 2 ≤ kind then s
  else if !agentOk (s.role p) agent then s.failPort p 0xB
  else if kind = 1 then
    if !q.resume then s.linkReset p 6
    else if cr ≠ q.partner then s.linkReset p 0xC
    else if q.gotInit then
      (s.modPort p (fun q => { q with gotOk := q.gotOk || ok })).maybeActive p
    else match q.ack f.ack (s.now + s.replayTmo p) with
      | none => s.linkError p 3
      | some q1 => (s.setPort p { q1 with gotInit := true, gotOk := ok }).maybeActive p
  else if q.resume then s
  else if (sends (s.role p)).any (fun c => cr.getD c 0 < 32) then s.failPort p 0xC
  else
    let s1 := (s.fset F.PRT_LL_STATUS_PARTNER_NODE node.toNat p).fset F.PRT_LL_STATUS_PARTNER_AGENT agent p
    (s1.modPort p (fun q =>
      { q with gotInit := true, gotOk := q.gotOk || ok, partner := cr,
               cr := (List.range 6).foldl (fun l i => spMod Credit.zero l i (fun x => { x with adv := cr.getD i 0 })) q.cr
      })).maybeActive p

/-- A flit arrives on port `p` (R121, R124, R159). (Log 37: DEDUCED) -/
def State.rxFlit (s : State) (p : Nat) (f : Flit) : State :=
  let q := s.port p
  let exchange := q.st == .init || (q.st == .retrain && q.ucieUp)
  if q.st = .active ∨ exchange then
    if f.crc ≠ flitCrc f then s.bump F.PRT_LL_ERRCNT0_CRC p
    else if !exchange then s.rxActive p f
    else if f.typ = flitInit then (if 0 < q.notices then s else s.rxInit p f)
    else if f.typ = flitDown then (if q.st = .retrain then s.linkReset p 9 else s)
    else if q.sentOk ∧ (f.typ = flitPayload ∨ f.typ = flitIdle ∨ f.typ = flitNak) then
      (s.enterActive p).rxActive p f
    else s
  else s

/-- A message leaves the receive buffer of port `p`: its slots are freed (05 R171). -/
def State.consume (s : State) (p : Nat) (m : Msg) : State :=
  let q := s.port p
  if q.rx.contains m then
    s.setPort p ({ q with rx := q.rx.erase m }.modCredit (opClass m.op) (fun x =>
      { x with freed := x.freed + BitVec.ofNat 12 (m.body.length + 1) }))
  else s

/-! ## Sending (R114, R123, R124, R129, R138 to R140) -/

/-- The credit class reported in a field of the port's next flit (R140): flit k reports classes 2(k mod 3) and
2(k mod 3) + 1; a class that is not advertised carries nothing. -/
def State.creditField (s : State) (p : Nat) (i : Nat) : BitVec 3 × BitVec 12 :=
  let c := 2 * ((s.port p).flitNo % 3) + i
  if (advertised (s.role p)).getD c 0 = 0 then (7, 0) else (BitVec.ofNat 3 c, ((s.port p).credit c).freed)

/-- A flit of type IDLE, NAK or PAYLOAD with its ACK, credit fields and CRC. -/
def State.mkFlit (s : State) (p : Nat) (typ : BitVec 4) (seq : BitVec 12) (slots : List Slot) : Flit :=
  let a := s.creditField p 0
  let b := s.creditField p 1
  crcFlit { seq := seq, ack := (s.port p).expect - 1, typ := typ, cls0 := a.1, tot0 := a.2, cls1 := b.1, tot1 := b.2,
            rsv := 0, slots := slots, crc := 0 }

/-- Puts a flit on the wire. -/
def State.emit (s : State) (p : Nat) (f : Flit) : State :=
  s.modPort p (fun q =>
    { q with lastTx := some f, flitNo := q.flitNo + 1, ackOwed := false,
             wait := match q.wait with | some (c, n, ch) => some (c, n - 1, ch) | none => none,
             held := match q.held with
               | some (h, n, t, c) => some (h, if f.typ = flitPayload then n - 1 else n, t, c)
               | none => none })

/-- The INIT record that the home sends (R122). -/
def State.initRecord (s : State) (p : Nat) : Slot :=
  let q := s.port p
  let cr := (advertised (s.role p)).foldr (fun n acc => acc * 4096 + n) 0
  BitVec.ofNat 128 (1 + (if q.resume then 1 else 0) * 2 ^ 8 + (if q.gotInit then 1 else 0) * 2 ^ 10 + 3 * 2 ^ 12 +
    s.home.toNat * 2 ^ 16 + cr * 2 ^ 36)

/-- Sends an INIT flit (R123, R124). -/
def State.txInit (s : State) (p : Nat) : State :=
  let q := s.port p
  let f : Flit := crcFlit
    { seq := if q.resume then (q.replay.headD (q.nextSeq, [])).1 else 0, ack := if q.resume then q.expect - 1 else 0xFFF,
      typ := flitInit, cls0 := 7, tot0 := 0, cls1 := 7, tot1 := 0, rsv := 0,
      slots := padSlots [s.initRecord p], crc := 0 }
  (s.modPort p (fun q => { q with lastTx := some f, sentOk := q.sentOk || q.gotInit })).maybeActive p

/-- Sends a DOWN_NOTICE flit; the last is followed by the link reset or the port reset (R146, R150). -/
def State.txNotice (s : State) (p : Nat) : State :=
  let q := s.port p
  let f : Flit := crcFlit
    { seq := q.nextSeq, ack := q.expect - 1, typ := flitDown, cls0 := 7, tot0 := 0, cls1 := 7, tot1 := 0, rsv := 0,
      slots := padSlots [q.noticeCause.zeroExtend 128], crc := 0 }
  let s1 := s.modPort p (fun q => { q with lastTx := some f, notices := q.notices - 1 })
  if q.notices = 1 then (if q.thenReset then s1.portResetNow p else s1.linkReset p q.noticeCause) else s1

/-- The next message whose class has the credits it needs and no earlier message of its class waits (R138, R139,
05 R163): its place in the egress queue. `blocked` holds the classes that wait. -/
def pickMsg (q : Port) : List Msg → Nat → List Nat → Option (Nat × Msg)
  | [], _, _ => none
  | m :: t, i, blocked =>
    let c := opClass m.op
    let cr := q.credit c
    if blocked.contains c then pickMsg q t (i + 1) blocked
    else if cr.used + m.body.length + 1 ≤ cr.adv then some (i, m)
    else pickMsg q t (i + 1) (c :: blocked)

/-- Classes that the Jig keeps at egress (20 R714 REORDER_LEGAL). -/
def Port.jigBlocked (q : Port) : List Nat :=
  match q.wait with
  | some (c, n, _) => if 0 < n then [c] else []
  | none => []

/-- Fills a PAYLOAD flit with up to `n` slots: the rest of a message begun, then messages in turn. The answer is the
slots, the messages whose header slot lies in the flit with the slot it lies in, and the port. -/
def fillFlit : Nat → Port → List Slot → List (Msg × Nat) → List Slot × List (Msg × Nat) × Port
  | 0, q, acc, heads => (acc, heads, q)
  | n + 1, q, acc, heads =>
    match q.txSlots with
    | x :: t => fillFlit n { q with txSlots := t } (acc ++ [x]) heads
    | [] =>
      match pickMsg q q.tx 0 q.jigBlocked with
      | none => (acc, heads, q)
      | some (i, m) =>
        match toSlots m with
        | [] => (acc, heads, q)
        | h :: t =>
          fillFlit n ({ q with tx := q.tx.eraseIdx i, txSlots := t }.modCredit (opClass m.op) (fun x =>
            { x with used := x.used + m.body.length + 1 })) (acc ++ [h]) (heads ++ [(m, acc.length)])

/-- A message that carries an ADDR field (05 R179, R183, R187), and the line it names. -/
def jigAddrOf (m : Msg) : Option Addr :=
  let op := m.op.toNat
  if (1 ≤ op ∧ op ≤ 0x0F) ∨ (0x16 ≤ op ∧ op ≤ 0x18) ∨ (0x20 ≤ op ∧ op ≤ 0x24) ∨ op = 0x63 ∨ op = 0xA0 ∨ op = 0xA2 ∨ op = 0xA4
  then some (lineAddr (msgAddr m)) else none

/-- What an armed link channel finds in a flit (20 R717): the message it matches and its header's slot. A channel
does not match again the message or flit that it holds (R721). -/
def State.jigMatch (s : State) (p c : Nat) (heads : List (Msg × Nat)) : Option (Msg × Nat) :=
  let kind := s.fget F.JIG_CH_CTL_KIND 0 c
  let cls := s.fget F.JIG_CH_PARAM_CLASS 0 c
  let mine := (match (s.port p).wait with | some (_, _, ch) => decide (ch = c) | none => false) ||
    (match (s.port p).held with | some (_, _, _, ch) => decide (ch = c) | none => false)
  if 1 ≤ kind ∧ kind ≤ 6 ∧ s.fget F.JIG_CH_CTL_UNIT 0 c = p ∧ mine = false then
    heads.find? (fun h => cls == 7 || opClass h.1.op == cls)
  else none

/-- The Jig's link channels meet a first transmission (20 R717, R718, R721): the lowest-numbered channel that fires
acts; the matches of the others that would fire do not count. (Log 42: DEDUCED) -/
def State.jigFlit (s : State) (p : Nat) (heads : List (Msg × Nat)) : Option (Nat × Msg × Nat) × State :=
  if s.jig.isEmpty then (none, s)
  else (List.range 8).foldl (fun (acc : Option (Nat × Msg × Nat) × State) c =>
    match acc.2.jigRun c, acc.2.jigMatch p c heads with
    | some r, some h =>
      let addr := if acc.2.fget F.JIG_CH_CTL_TRIG 0 c = 2
        then (heads.filterMap (fun h => jigAddrOf h.1)).find? (fun a => acc.2.jigAddrOk c a) else none
      let x := acc.2.jigTry c r addr
      if x.1 then
        match acc.1 with
        | some _ => acc
        | none => (some (c, h.1, h.2), acc.2.jigFire c x.2)
      else (acc.1, { acc.2 with jig := spSet none acc.2.jig c (some x.2) })
    | _, _ => acc) (none, s)

/-- What goes on the wire for the PAYLOAD flit `seq` of the replay buffer when the Jig acts on it (20 R714): `hit` is
the channel that fired, the message it matched and its header's slot. -/
def State.jigWire (s : State) (p : Nat) (seq : BitVec 12) (slots : List Slot) (hit : Option (Nat × Msg × Nat)) : State :=
  match hit with
  | none => s.emit p (s.mkFlit p flitPayload seq slots)
  | some (c, m, at_) =>
    let f := s.mkFlit p flitPayload seq slots
    match s.fget F.JIG_CH_CTL_KIND 0 c with
    | 1 => s.emit p (s.mkFlit p flitIdle seq noSlots)
    | 2 =>
      let g := flipFlit f (s.fget F.JIG_CH_BITS_BIT0 0 c)
      s.emit p (if s.flag F.JIG_CH_PARAM_DOUBLE 0 c then flipFlit g (s.fget F.JIG_CH_BITS_BIT1 0 c) else g)
    | 3 =>
      let k := min (s.fget F.JIG_CH_PARAM_SLOT 0 c) m.len.toNat + at_
      let flip (x : Slot) : Slot := x ^^^ BitVec.ofNat 128 (s.jigMask c)
      (s.modPort p (fun q => { q with txSlots := if 15 ≤ k then q.txSlots.modify (k - 15) flip else q.txSlots })).emit p
        (s.mkFlit p flitPayload seq (slots.modify k flip))
    | 5 =>
      (s.emit p (s.mkFlit p flitIdle (seq + 1) noSlots)).modPort p (fun q =>
        { q with held := some (f, s.fget F.JIG_CH_PARAM_DIST 0 c, s.now + usec 1, c) })
    | 6 => (s.emit p f).modPort p (fun q => { q with again := some seq })
    | _ => s.emit p f

/-- A flit that `fillFlit` has filled from the port's egress takes the next sequence number and enters the replay
buffer (R129). -/
def State.enterReplay (s : State) (p : Nat) (slots : List Slot) (heads : List (Msg × Nat)) (q : Port) : State :=
  let seq := q.nextSeq
  let spans := q.unacked.map (fun u => if u.2 = seq - 1 ∧ (s.port p).txSlots ≠ [] ∧
    some u.1 = (q.unacked.getLast?).map (·.1) then (u.1, seq) else u)
  s.setPort p { q with
    nextSeq := seq + 1, replay := q.replay ++ [(seq, padSlots slots)],
    replayT := if q.replay.isEmpty then s.now + s.replayTmo p else q.replayT,
    unacked := spans ++ heads.map (fun h => (h.1, seq)),
    wait := match q.wait with
      | some (c, 0, ch) => if heads.any (fun h => opClass h.1.op == c) then none else some (c, 0, ch)
      | w => w }

/-- An instant to the 2^-16 ns that a timestamp carries. -/
def stampTime (t : Time) : Time := t / 65536 * 65536

/-- T and EPOCH of a timestamp, as `TimeSync` carries them. -/
def stampBits (t : Time) : BitVec 64 × BitVec 16 := (fab64 t, fabEpoch t)

/-- The timestamp of a `TimeSync` that leaves now (18 R662): T1 of a request, T3 and TURN of a response. A response keeps its
T2 as T3 less TURN. -/
def stampSync (now : Time) (m : Msg) : Msg :=
  if m.op ≠ Op.timeSync then m
  else
    let x := stampBits now
    let b := msgSlot m 1
    if m.fspec.toNat % 4 = 0 then sealMsg { m with body := [(0 : BitVec 48) ++ x.2 ++ x.1] }
    else
      let t3 := (b.extractLsb' 96 16 : BitVec 16).toNat * 2 ^ 64 + (b.extractLsb' 0 64 : BitVec 64).toNat
      let turn := now / 65536 - (t3 - (b.extractLsb' 64 32 : BitVec 32).toNat)
      sealMsg { m with body := [(0 : BitVec 16) ++ x.2 ++ BitVec.ofNat 32 turn ++ x.1] }

/-- The egress messages of port `p` with the timestamps they would leave with now. (Log 70: DEDUCED) -/
def State.stampPort (s : State) (p : Nat) : State :=
  s.modPort p (fun q => { q with tx := q.tx.map (stampSync s.now) })

/-- The request of the time exchange in progress left now, in a flit with the messages given (18 R662, R663). -/
def State.noteSync (s : State) (heads : List (Msg × Nat)) : State :=
  match s.tb.req with
  | some (tag, _) =>
    if heads.any (fun h => h.1.op == Op.timeSync && h.1.fspec.toNat % 4 == 0 && h.1.tag == tag)
      then { s with tb := { s.tb with req := some (tag, stampTime s.now) } } else s
  | none => s

/-- The snoop timers of the messages whose last slot has left in a flit (06 R234): those with their header in it, and one
begun before, but for one that the next flit goes on with. `s` is the state before the flit. (Log 45: DEDUCED) -/
def State.timersStart (s : State) (p : Nat) (heads : List (Msg × Nat)) (t : State) : State :=
  let begun := if (s.port p).txSlots.isEmpty then [] else ((s.port p).unacked.getLast?).toList
  let ms := begun.map (·.1) ++ heads.map (·.1)
  (if (t.port p).txSlots.isEmpty then ms else ms.dropLast).foldl State.startTimer t

/-- Sends a new PAYLOAD flit (R129), with the Jig's action when a channel fires on it (20 R714). A message that
REORDER_LEGAL keeps at egress leaves the flit to the messages that pass it. -/
def State.txPayload (s₀ : State) (p : Nat) : State :=
  let s := s₀.stampPort p
  let x := fillFlit 15 (s.port p) [] []
  let seq := (s.port p).nextSeq
  let j := s.jigFlit p x.2.1
  let legal := match j.1 with
    | some (c, m, _) => if s.fget F.JIG_CH_CTL_KIND 0 c = 4 then
        some (opClass m.op, s.fget F.JIG_CH_PARAM_DIST 0 c, c) else none
    | none => none
  match legal with
  | none => (s.timersStart p x.2.1 ((j.2.enterReplay p x.1 x.2.1 x.2.2).noteSync x.2.1)).jigWire p seq (padSlots x.1) j.1
  | some w =>
    let s1 := j.2.modPort p (fun q => { q with wait := some w })
    let y := fillFlit 15 (s1.port p) [] []
    if y.1.isEmpty then s1.emit p (s1.mkFlit p flitIdle seq noSlots)
    else (s.timersStart p y.2.1 ((s1.enterReplay p y.1 y.2.1 y.2.2).noteSync y.2.1)).jigWire p seq (padSlots y.1) none

/-- The next replayed flit (R135). -/
def State.txReplay (s : State) (p : Nat) (n : BitVec 12) : State :=
  let q := s.port p
  match q.replay.find? (fun r => r.1 == n) with
  | some r =>
    let s1 := s.modPort p (fun q => { q with replayAt := if n + 1 = q.nextSeq then none else some (n + 1) })
    s1.emit p (s1.mkFlit p flitPayload n r.2)
  | none =>
    let s1 := s.modPort p (fun q => { q with replayAt := none })
    s1.emit p (s1.mkFlit p flitIdle q.nextSeq noSlots)

/-- Sends the flit that the Jig holds (20 R714 REORDER_ILLEGAL); the other channels match it again (R721). (Log 42: DEDUCED) -/
def State.txHeld (s : State) (p : Nat) : State :=
  match (s.port p).held with
  | none => s
  | some (f, _, _, _) =>
    let heads := (s.port p).unacked.filterMap (fun u =>
      (f.slots.findIdx? (fun x => x == headerSlot u.1)).map (fun i => (u.1, i)))
    let j := s.jigFlit p heads
    (j.2.modPort p (fun q => { q with held := none })).jigWire p f.seq f.slots j.1

/-- One flit clock of an ACTIVE port (R114): a held or duplicated flit that is due, a NAK, the replay, a new PAYLOAD
flit, or an IDLE flit. -/
def State.txActive (s : State) (p : Nat) : State :=
  let q := s.port p
  let heldDue := match q.held with | some (_, n, t, _) => n == 0 || decide (t ≤ s.now) | none => false
  if heldDue then s.txHeld p
  else match q.again with
    | some n =>
      match q.replay.find? (fun r => r.1 == n) with
      | some r =>
        let s1 := s.modPort p (fun q => { q with again := none })
        s1.emit p (s1.mkFlit p flitPayload n r.2)
      | none =>
        let s1 := s.modPort p (fun q => { q with again := none })
        s1.emit p (s1.mkFlit p flitIdle q.nextSeq noSlots)
    | none =>
      if q.nakDue then
        let s1 := (s.bump F.PRT_LL_ERRCNT0_NAK p).modPort p (fun q => { q with nakDue := false })
        s1.emit p (s1.mkFlit p flitNak ((q.replayAt).getD q.nextSeq) noSlots)
      else match q.replayAt with
        | some n => s.txReplay p n
        | none =>
          if q.replay.length < 512 ∧ (q.txSlots ≠ [] ∨ (pickMsg q q.tx 0 q.jigBlocked).isSome) then s.txPayload p
          else s.emit p (s.mkFlit p flitIdle q.nextSeq noSlots)

/-- One flit clock of port `p` (R114, R124, R126, R146): what the transmitter sends in it. -/
def State.flitClock (s : State) (p : Nat) : State :=
  let q := s.port p
  match q.st with
  | .active => if 0 < q.notices then s.txNotice p else s.txActive p
  | .init => if s.ready then s.txInit p else s
  | .retrain => if !q.ucieUp then s else if 0 < q.notices then s.txNotice p else s.txInit p
  | _ => s

/-! ## Training -/

/-- The rate cap of a port, as RATE codes it (R113, R152): the lower of the Pattern's rate and CAP_RATE. -/
def State.rateCap (s : State) (p : Nat) : Nat :=
  let pat := (s.pat.ports.getD p (.off, 0)).2
  match s.fget F.PRT_LL_CTL_CAP_RATE p with
  | 1 => min pat 2
  | 2 => min pat 1
  | _ => pat

/-- UCIe training or retraining has failed (R151, cause 0xD): it counts toward R148 and is tried again. (Log 40: DEDUCED) -/
def State.trainFail (s : State) (p : Nat) : State :=
  let n := (s.port p).fails + 1
  let s1 := s.modPort p (fun q => { q with fails := n })
  if 3 ≤ n then s1.failPort p 0xD else s1

/-- UCIe training reaches its active state (R113, R124): the highest common rate under the cap, then INIT. -/
def State.trained (s : State) (p : Nat) (rates : BitVec 3) (rep : LaneRepair) : State :=
  if (s.port p).st = .train then
    let cap := s.rateCap p
    match [3, 2, 1].find? (fun r => decide (r ≤ cap) && rates.getLsbD (r - 1)) with
    | none => s.trainFail p
    | some r =>
      (s.setPortState p .init).modPort p (fun q =>
        { q.restart with ucieUp := true, rate := BitVec.ofNat 2 r, rep := rep })
  else s

/-- The receive buffers of a port in a link reset are empty: training, or the exchange at once (R146 steps 3 and 4).
While the reference clock is missing no training is attempted (R158), nor while VDD_PHY is out of its range (22 R778).
(Log 41: DEDUCED) -/
def State.drained (s : State) (p : Nat) : State :=
  let q := s.port p
  if q.draining ∧ q.rx = [] ∧ !s.flag F.TIM_STATUS_BACKUP ∧ !s.boot.phyOut then
    (s.setPortState p (if q.ucieUp then .init else .train)).modPort p (fun q =>
      { q.restart with draining := false, drainT := s.now + msec 10 })
  else s

/-- A link reset has not reached ACTIVE within 10 ms of the end of draining (R148): the third in a row fails the port,
else another link reset begins. (Log 9: DESIGN CHOICE, 41: DEDUCED) -/
def State.linkResetTimeout (s : State) (p : Nat) : State :=
  let q := s.port p
  if q.inReset ∧ !q.draining ∧ (q.st = .train ∨ q.st = .init) then
    let s1 := s.until q.drainT
    let s2 := s1.modPort p (fun q => { q with fails := q.fails + 1 })
    let cause := BitVec.ofNat 4 (s.fget F.PRT_LL_LASTERR_CAUSE p)
    if 3 ≤ q.fails + 1 then s2.failPort p cause else s2.linkReset p cause
  else s

end Sys2Proof.Machine
end

