-- ==== Sys2Proof/Machine/Checks.lean ====
section
/-!
DEFINITION. The checks that every received message passes, in the order of 05_derzon_messages.md R192, their counted
cases (R193), forwarding (03 R87), the access fault (12 R474) and the ingress store (12 R468 to R470).
-/
namespace Sys2Proof.Machine

/-! ## Opcodes and lengths (R176) -/

/-- The legal numbers of slots of an opcode, or none when it is reserved (R176). -/
def opSlots (op : BitVec 8) : Option (List Nat) :=
  match op.toNat with
  | 0x01 | 0x02 | 0x03 | 0x04 | 0x05 | 0x06 | 0x07 | 0x0D => some [2]
  | 0x08 | 0x09 | 0x0A | 0x0B | 0x0C => some [6]
  | 0x0E => some [3]
  | 0x0F => some [3, 4]
  | 0x10 | 0x11 => some [3, 4, 5, 6, 7, 8, 9, 10]
  | 0x12 | 0x13 => some ((List.range 23).map (· + 4))
  | 0x14 | 0x15 | 0x17 => some [1]
  | 0x16 | 0x18 | 0x19 | 0x1A | 0x1B | 0x1C | 0x1D | 0x1E => some [2]
  | 0x20 | 0x21 | 0x22 | 0x23 | 0x24 => some [2]
  | 0x40 | 0x41 | 0x42 | 0x43 | 0x44 | 0x45 | 0x46 => some [1]
  | 0x47 => some [2]
  | 0x48 | 0x49 | 0x4A | 0x4B | 0x4C | 0x4D | 0x4E | 0x4F => some [1]
  | 0x50 | 0x51 | 0x52 | 0x53 | 0x54 | 0x55 | 0x56 => some [2]
  | 0x60 | 0x61 | 0x62 => some [5]
  | 0x63 => some [6]
  | 0x64 => some ((List.range 16).map (· + 3))
  | 0x65 => some [2]
  | 0x80 | 0x81 | 0x82 | 0x83 | 0x84 | 0x86 | 0x88 | 0x89 | 0x8A => some [2]
  | 0x85 | 0x87 => some [1]
  | 0xA0 | 0xA2 | 0xA4 => some [2]
  | 0xA1 | 0xA3 => some [1]
  | 0xA5 => some [1, 5]
  | _ => none

/-- The port's role accepts the class (03, Port roles). -/
def classAccepted : Role → Nat → Bool
  | .client, c => c == 0 || c == 2 || c == 3 || c == 4 || c == 5
  | .memory, c => c == 2 || c == 3 || c == 4 || c == 5
  | .peer, c => decide (c < 6)
  | .off, _ => false

/-- The opcode names the home as its receiver, and the arrival port's role carries a sender of its kind (R787). -/
def senderFits (r : Role) (op : BitVec 8) : Bool :=
  let n := op.toNat
  let client := (1 ≤ n && n ≤ 0x15) || (0x19 ≤ n && n ≤ 0x1E) || n == 0x40 || n == 0x43 || n == 0x44 || n == 0x61 ||
    n == 0xA1 || n == 0xA3 || n == 0xA5
  let memory := n == 0x4D || n == 0x4E || n == 0x4F || n == 0x62
  let master := n == 0x80 || n == 0x81
  let target := n == 0x84 || n == 0x85 || n == 0x86
  let any := n == 0x88
  match r with
  | .client => client || master || target || any
  | .memory => memory || master || any
  | .peer => client || memory || master || target || any
  | .off => false

/-! ## Field values (R179 to R188, R201) -/

/-- SIZE of slot 1 (R179). -/
def msgSize (m : Msg) : Nat := (slotField m 1 52 3).toNat
/-- AOP of slot 1. -/
def msgAop (m : Msg) : Nat := (slotField m 1 55 4).toNat
/-- RET of slot 1. -/
def msgRet (m : Msg) : Bool := (slotField m 1 59 1) == 1
/-- Number of elements of a gather or scatter (R182). -/
def msgN (m : Msg) : Nat := (slotField m 1 60 4).toNat + 1
/-- HANDLE of slot 1 (11 R432). -/
def clHandle (m : Msg) : BitVec 32 := slotField m 1 0 32
/-- LSLICE of slot 1 (11 R432). -/
def clLslice (m : Msg) : Nat := (slotField m 1 34 4).toNat
/-- KIND of slot 1 (11 R432). -/
def clKind (m : Msg) : Nat := (slotField m 1 32 2).toNat

/-- The CODE of ReqError for a REQ with a bad field, or none (R186, R193 case 0x6). -/
def State.reqFieldError (s : State) (m : Msg) : Option (BitVec 4) :=
  let a := msgAddr m
  let line : Option (BitVec 4) := if lineAddr a = a then none else some 2
  match m.op.toNat with
  | 0x01 | 0x02 | 0x03 | 0x04 | 0x05 | 0x06 | 0x07 | 0x08 | 0x0B | 0x0D => line
  | 0x09 | 0x0A | 0x0C => if msgBe m = 0 then some 1 else line
  | 0x0E => if 4 < msgSize m then some 1 else if a.toNat % 2 ^ msgSize m ≠ 0 then some 2 else none
  | 0x0F =>
    if 4 < msgSize m ∨ 9 < msgAop m ∨ ((msgAop m = 2) ≠ (m.len = 3)) then some 1
    else if a.toNat % 2 ^ msgSize m ≠ 0 then some 2 else none
  | 0x10 | 0x11 => if 4 < msgSize m ∨ m.len.toNat + 1 ≠ 2 + (msgN m + 1) / 2 then some 1 else none
  | 0x12 | 0x13 => if 4 < msgSize m ∨ m.len.toNat + 1 ≠ 2 + (msgN m + 1) / 2 + msgN m then some 1 else none
  | 0x19 => if s.pat.nActive ≤ clLslice m ∨ 2 ≤ clKind m then some 1 else none
  | _ => none

/-- A message outside class REQ with a reserved encoding or an illegal combination (R193 case 0x7). -/
def fieldError (m : Msg) : Bool :=
  match m.op.toNat with
  | 0x40 | 0x61 | 0xA1 => decide (4 < (msgState m).toNat)
  | 0xA5 => decide (4 < (msgState m).toNat) || (msgDirty m != (m.len == 4))
  | 0x88 => m.fspec.getLsbD 1
  | _ => false

/-! ## Counted cases (R193, R196) -/

/-- Counts a case of R193 in its counter and records it; every case but 0x8 raises the port's message event. -/
def State.msgCase (s : State) (p : Nat) (m : Msg) (case : Nat) : State :=
  let f := match case with
    | 1 => F.PRT_MSG_ERRCNT0_ECHK
    | 2 | 3 => F.PRT_MSG_ERRCNT0_ILLOP
    | 6 | 7 => F.PRT_MSG_ERRCNT1_FIELD
    | _ => F.PRT_MSG_ERRCNT1_UNEXP
  let s1 := (((((s.bump f p).setFlag F.PRT_MSG_LAST_VALID true p).fset F.PRT_MSG_LAST_CASE case p).fset
    F.PRT_MSG_LAST_LEN m.len.toNat p).fset F.PRT_MSG_LAST_OPCODE m.op.toNat p).fset F.PRT_MSG_LASTSRC_SRC m.src.toNat p
  if case = 8 then s1 else s1.raise (portSource p 3) Cls.message none

/-! ## Source, destination, forwarding (03 R83, R87) -/

/-- The source check (03 R83). -/
def State.sourceOk (s : State) (p : Nat) (src : Node) : Bool :=
  match s.entryOf src with
  | none => s.role p == .peer
  | some i =>
    let e := s.entry i
    !e.home && (match s.role p with
      | .client | .memory => e.prim == p || e.alt == some p
      | .peer => s.role e.prim == .peer
      | .off => false)

/-- The pool of a tenant on a divided resource of size `size` (12 R470): whether `n` more units can be taken, `use`
giving what each tenant uses. (Log 44: DESIGN CHOICE) -/
def State.poolOk (s : State) (size n : Nat) (use : Tenant → Nat) (t : Tenant) : Bool :=
  let g (c : TenCfg) : Nat := size * c.weight / 256
  let above (c : TenCfg) : Nat := use c.ten - g c
  let common := size - (s.pat.tens.foldl (fun a c => a + g c) 0)
  let taken := s.pat.tens.foldl (fun a c => a + above c) 0
  let c := s.ten t
  let l := max (g c) (size * c.cap / 16)
  let u := use t
  if u + n ≤ g c then true else u + n ≤ l && taken + ((u + n) - max u (g c)) ≤ common

/-- Slots of the ingress store of port `p` that tenant `t` uses (12 R469): requests that wait at a slice, and messages
forwarded and not yet gone. (Log 43: DEDUCED) -/
def State.ingressUse (s : State) (p : Nat) (t : Tenant) : Nat :=
  let wait := s.slices.foldl (fun a e => a + e.2.ingress.foldl (fun b x =>
    b + (if x.port = p ∧ x.m.ten = t then x.m.body.length + 1 else 0)) 0) 0
  let clamp := s.banks.foldl (fun a e => a + e.2.queue.foldl (fun b x =>
    b + (if x.2 = p ∧ x.1.ten = t then x.1.body.length + 1 else 0)) 0) 0
  let fwd := ((s.port p).fwd.filter (fun x => (s.port x.1).tx.contains x.2 && x.2.ten == t)).foldl
    (fun a x => a + x.2.body.length + 1) 0
  wait + clamp + fwd

/-- The ingress store of port `p` has room for a message (12 R469, R470). (Log 37: DEDUCED) -/
def State.ingressOk (s : State) (p : Nat) (m : Msg) : Bool :=
  s.poolOk 2048 (m.body.length + 1) (s.ingressUse p) m.ten

/-- A message not addressed to the home (03 R87, R107): forwarded at the port level, or discarded and counted; one
for a node in no entry is discarded by R87. (Log 43: DEDUCED) -/
def State.forward (s : State) (p : Nat) (m : Msg) : State :=
  let dest : Option Role := (s.entryOf m.dst).map (fun i => if (s.entry i).home then .off else s.role (s.entry i).prim)
  let ok := match s.role p, dest with
    | .client, some .peer => true
    | .peer, some .client => true
    | _, _ => false
  if !ok then (s.bump F.PRT_RT_ERRCNT_XIT p).raise (portSource p 2) Cls.routing none
  else if s.isSafe ∧ opClass m.op ≠ 4 then s.bump F.PRT_RT_DROPCNT_SAFE p
  else
    let s1 := s.send m
    match s.routeTo m.dst with
    | some d =>
      if opClass m.op ≤ 3 then
        s1.modPort p (fun q => { q with fwd := q.fwd.filter (fun x => (s.port x.1).tx.contains x.2) ++ [(d, m)] })
      else s1
    | none => s1

/-! ## Access faults (12 R474, R475) -/

/-- REASON of the access fault of a line: 1 when it lies in no window, 2 when a permission is missing (12 R474). -/
def State.windowReason (s : State) (t : Tenant) (a : Addr) : Nat := if (s.windowsAt t a).isEmpty then 1 else 2

/-- The line of an access fault: of a request that names an address, and zero otherwise. -/
def faultLine (m : Msg) : Addr :=
  let n := m.op.toNat
  if (1 ≤ n ∧ n ≤ 0x0F) then lineAddr (msgAddr m) else 0

/-- Counts and records an access fault (12 R474, R475); `kind` is 1 for an element. -/
def State.accessRecord (s : State) (m : Msg) (a : Addr) (kind reason : Nat) : State :=
  let t := m.ten.toNat
  let s1 := ((s.bump F.TNT_ACC_CNT_COUNT t).fset F.TNT_ACC_LAST0_ADDR_LO (a.toNat / 64 % 2 ^ 26) t).fset
    F.TNT_ACC_LAST0_KIND kind t
  let s2 := ((s1.fset F.TNT_ACC_LAST0_REASON reason t).setFlag F.TNT_ACC_LAST1_VALID true t).fset F.TNT_ACC_LAST1_OPCODE
    m.op.toNat t
  (s2.fset F.TNT_ACC_LAST1_ADDR_HI (a.toNat / 2 ^ 32) t).fset F.TNT_ACC_LAST2_SRC m.src.toNat t

/-- The access fault response to a request on port `p` (12 R474). -/
def State.accessFault (s : State) (p : Nat) (m : Msg) (reason : Nat) : State :=
  let s1 := s.accessRecord m (faultLine m) 0 reason
  let s2 := if (s1.cfg m.ten).isSome then s1.raise (portSource p 4) Cls.access (some m.ten) else s1
  s2.send (respTo m Op.accessFault (BitVec.ofNat 13 reason) false 0 [])

/-! ## The order of the checks (R192) -/

/-- What the checks of R192 decide. -/
inductive Verdict where
  /-- No class (step 1): the link protocol error of 04 R142. -/
  | noClass
  /-- A counted case of R193 that is discarded. -/
  | discard (case : Nat)
  /-- The source check fails (step 5). -/
  | badSource
  /-- Not addressed to the home (step 6). -/
  | forward
  | unavailable
  | reqError (code : BitVec 4)
  | accessFault (reason : Nat)
  | resetting
  | unhomed
  /-- Every check passes. -/
  | pass
deriving DecidableEq, Repr

/-- TNTn_STATUS.STATE is RESETTING (12 R467). -/
def State.resetting (s : State) (t : Tenant) : Bool := s.fget F.TNT_STATUS_STATE t.toNat == 2

/-- A request that names one line in slot 1 and passes the homed-range and window checks (R192 steps 12 and 13). -/
def namesLine (op : BitVec 8) : Bool := 1 ≤ op.toNat && op.toNat ≤ 0x0F

/-- Steps 10 to 13 of R192 for a request. -/
def State.reqVerdict (s : State) (m : Msg) : Verdict :=
  let a := lineAddr (msgAddr m)
  if !s.inDomain m.ten m.src then .accessFault 0
  else if s.resetting m.ten then .resetting
  else if namesLine m.op && (s.rangeOf a).isNone then .unhomed
  else if namesLine m.op && !s.windowOk m.ten a (permsOf m.op) then .accessFault (s.windowReason m.ten a)
  else .pass

/-- The opcode and length check (R192 step 3), which a message for another node does not get (R198). (Log 43: DEDUCED) -/
def State.lengthCase (s : State) (m : Msg) : Option Nat :=
  if m.dst ≠ s.home ∧ m.op ≠ Op.timeSync then none
  else match opSlots m.op with
    | none => some 2
    | some ls => if ls.contains (m.len.toNat + 1) then none else some 3

/-- The checks of R192, in their order. -/
def State.verdict (s : State) (p : Nat) (m : Msg) : Verdict :=
  if 6 ≤ opClass m.op then .noClass
  else if m.echk ≠ echkOf m then .discard 1
  else match s.lengthCase m with
  | some c => .discard c
  | none =>
    if !classAccepted (s.role p) (opClass m.op) then .discard 4
    else if !s.sourceOk p m.src then .badSource
    else if m.dst ≠ s.home ∧ m.op ≠ Op.timeSync then .forward
    else if opClass m.op = 0 ∧ (s.isSafe ∨ s.boot.flushBy.isSome) then .unavailable
    else if !senderFits (s.role p) m.op then .discard 5
    else if opClass m.op ≠ 0 then (if fieldError m then .discard 7 else .pass)
    else match s.reqFieldError m with
      | some c => .reqError c
      | none => s.reqVerdict m

/-- What follows from a verdict other than `pass` (R193, R194, R199). (Log 53: DEDUCED) -/
def State.applyVerdict (s : State) (p : Nat) (m : Msg) (v : Verdict) : State :=
  match v with
  | .pass => s
  | .noClass => s.linkError p 5
  | .discard c => s.msgCase p m c
  | .badSource => (s.bump F.PRT_RT_ERRCNT_SRC p).raise (portSource p 1) Cls.routing none
  | .forward => s.forward p m
  | .unavailable => s.send (plainResp m Op.homeUnavailable)
  | .reqError c => (s.msgCase p m 6).send (respTo m Op.reqError (c.zeroExtend 13) false 0 [])
  | .accessFault r => s.accessFault p m r
  | .resetting => s.send (plainResp m Op.tenantResetting)
  | .unhomed => s.send (plainResp m Op.addrUnhomed)

/-- A message at the message layer of port `p`: it is in the receive buffer (05 R171). -/
def State.present (s : State) (p : Nat) (m : Msg) : State :=
  if (s.port p).rx.contains m then s else s.modPort p (fun q => { q with rx := q.rx ++ [m] })

end Sys2Proof.Machine
end

