-- ==== Sys2Proof/Machine/Events.lean ====
section
/-!
DEFINITION. The event gatherer (16_event_gatherer.md R605 to R622): vectors and their batches, delivery, acknowledgement,
re-sending, the idle bypass, and retention.
-/
namespace Sys2Proof.Machine

/-- Vector `n`: vectors 8t to 8t + 7 are vectors 0 to 7 of tenant t. -/
def State.vec (s : State) (n : Nat) : EvVector := spGet EvVector.zero s.vectors n

/-- Changes vector `n`. -/
def State.modVec (s : State) (n : Nat) (f : EvVector → EvVector) : State :=
  { s with vectors := spSet EvVector.zero s.vectors n (f (s.vec n)) }

/-- The tenant of a vector. -/
def vecTen (n : Nat) : Tenant := BitVec.ofNat 7 (n / 8)

/-- The vector that an event goes to (R607). -/
def State.vecFor (s : State) (e : Ev) : Option Nat :=
  match if e.cls < 16 then e.ten else s.pat.mgmt with
  | none => none
  | some t =>
    if (s.cfg t).isNone then none
    else ((List.range 8).map (fun v => 8 * t.toNat + v)).find? (fun n => (s.vec n).enable && (s.vec n).classes.getLsbD e.cls)

/-- A batch with one event more (R608). -/
def EvVector.add (v : EvVector) (src cls : Nat) (now : Time) : EvVector :=
  let bit : BitVec 32 := BitVec.ofNat 32 (2 ^ cls)
  if v.pend then
    { v with count := min 255 (v.count + 1), ovf := v.ovf || v.count == 255, minsrc := min v.minsrc src, seen := v.seen ||| bit }
  else { v with pend := true, count := 1, ovf := false, minsrc := src, seen := bit, t0 := now }

/-- A vector with an empty batch. -/
def EvVector.empty (v : EvVector) : EvVector :=
  { v with pend := false, count := 0, ovf := false, minsrc := 0, seen := 0, t0 := 0 }

/-- The count or time condition of R610 is met. -/
def EvVector.met (v : EvVector) (now : Time) : Bool := v.coalCount ≤ v.count || decide (v.t0 + usec v.coalTime ≤ now)

/-- The vector is ready (R610, R614). -/
def EvVector.ready (v : EvVector) (now : Time) : Bool :=
  v.pend && v.out.isNone && !v.mask && v.enable && (v.met now || v.idle)

/-- Slot 1 of an Interrupt (R615). -/
def interruptSlot (vec : Nat) (v : EvVector) (bypass resent : Bool) : Slot :=
  (fab64 v.t0 ++ v.seen ++ (0 : BitVec 3) ++ BitVec.ofNat 9 v.minsrc ++ (0 : BitVec 1) ++ BitVec.ofBool resent ++
    BitVec.ofBool bypass ++ BitVec.ofBool v.ovf ++ BitVec.ofNat 8 v.count ++ (0 : BitVec 5) ++ BitVec.ofNat 3 vec : BitVec 128)

/-- Sends the Interrupt of vector `n` (R611, R614): the batch moves into it, and the delivery is outstanding. (Log 84: DEDUCED) -/
def State.deliver (s : State) (n : Nat) : State :=
  let v := s.vec n
  let bypass := v.idle && !v.met s.now
  let m := mkMsg Op.interrupt (vecTen n) s.home v.target (v.seq.zeroExtend 12 <<< 3 ||| BitVec.ofNat 12 (n % 8)) 0x1F 0 false 0
    [interruptSlot (n % 8) v bypass false]
  let s1 := (s.modVec n (fun v => { v.empty with seq := v.seq + 1, out := some ⟨m, s.now⟩ })).send m
  if bypass then forUp (fun i (s : State) => s.modVec (n / 8 * 8 + i)
    (fun w => if w.target = v.target then { w with idle := false } else w)) 0 8 s1
  else s1

/-- Puts a number before the first of a list with a higher key. -/
def putByKey (key : Nat → Nat) (x : Nat) : List Nat → List Nat
  | [] => [x]
  | y :: t => if key x < key y then x :: y :: t else y :: putByKey key x t

/-- Numbers in ascending order of a key; equal keys keep their order. -/
def sortByKey (key : Nat → Nat) (l : List Nat) : List Nat := l.foldl (fun a x => putByKey key x a) []

/-- Delivers every ready vector in the order of R606: none before READY (R620), none while the gatherer is RETAINED. -/
def State.evgServe (s : State) : State :=
  if !s.ready || s.flag F.EVG_STATUS_RETAINED then s
  else
    let ready := (s.vectors.filter (fun e => e.2.ready s.now)).map (·.1)
    (sortByKey (fun n => (s.vec n).minsrc) ready).foldl (fun (s : State) n =>
      if (s.vec n).ready s.now then s.deliver n else s) s

/-- The gatherer takes the oldest event of source `i`, routes it and adds it to its batch (R609). (Log 83: DEDUCED) -/
def State.takeEvent (s : State) (i : Nat) : State :=
  let x := spGet EvSource.zero s.sources i
  match x.q with
  | [] => s
  | e :: t =>
    let s1 := { s with sources := spSet EvSource.zero s.sources i { x with q := t } }
    match s1.vecFor e with
    | some n => (s1.modVec n (fun v => v.add i e.cls s.now)).evgServe
    | none => s1.bump F.EVG_DROP_NOVEC

/-- COAL_TIME of a vector's batch has passed (R610). (Log 9: DESIGN CHOICE) -/
def State.coalTimeout (s : State) (n : Nat) : State :=
  let v := s.vec n
  if v.pend && !v.mask then (s.until (v.t0 + usec v.coalTime)).evgServe else s

/-- The gatherer leaves RETAINED and applies R610 (R617). (Log 83: DEDUCED) -/
def State.evgAwake (s : State) : State :=
  if s.flag F.EVG_STATUS_RETAINED then (s.setFlag F.EVG_STATUS_RETAINED false).evgServe else s

/-- The outstanding delivery of vector `n` ends (R611). -/
def State.evgEnded (s : State) (n : Nat) : State := (s.modVec n (fun v => { v with out := none })).evgServe

/-- A register master acknowledges vector `n` (R613). -/
def State.evgAck (s : State) (n : Nat) : State := if (s.vec n).out.isSome then s.evgAwake.evgEnded n else s.evgAwake

/-- An IntAck (R613). (Log 84: DEDUCED) -/
def State.intAck (s : State) (p : Nat) (m : Msg) : State :=
  let s0 := s.evgAwake
  let n := 8 * m.ten.toNat + m.tag.toNat % 8
  match (s0.vec n).out with
  | some d =>
    if d.m.dst == m.src && d.m.ten == m.ten && d.m.tag == m.tag && d.m.htx == m.htx then s0.evgEnded n else s0.msgCase p m 8
  | none => s0.msgCase p m 8

/-- An IdleHint (R614). (Log 73: DEDUCED) -/
def State.idleHint (s : State) (m : Msg) : State :=
  let s0 := s.evgAwake
  let idle := m.fspec.getLsbD 0
  let hits := ((s0.ten m.ten).vectors.filter (fun v => v.target == m.src)).map (fun v => 8 * m.ten.toNat + v.vec)
  if hits.isEmpty then s0.bump F.EVG_DROP_HINT
  else (hits.foldl (fun (s : State) n => s.modVec n (fun v => { v with idle := idle })) s0).evgServe

/-- Sends the outstanding Interrupt of vector `n` again (R616). -/
def State.evgResend (s : State) (n : Nat) : State :=
  let r := s.fget F.EVG_CTL_RESEND
  match (s.vec n).out with
  | none => s
  | some d =>
    if r = 0 ∨ !s.ready then s
    else
      let s1 := s.until (d.time + usec (2 ^ r))
      let m := sealMsg { d.m with body := d.m.body.map (fun x => x ||| BitVec.ofNat 128 (2 ^ 18)) }
      ((s1.modVec n (fun v => { v with out := some ⟨m, s1.now⟩ })).wrapInc F.EVG_RESENT_COUNT).send m

/-- The batch of vector `n` is discarded (R618 FLUSH, R621, R622). -/
def State.evgDiscard (s : State) (n : Nat) : State :=
  if (s.vec n).pend then (s.modVec n EvVector.empty).bump F.EVG_DROP_DISC else s

/-- Writes the fields of EVG_VCOALn (R618, R619); a reserved encoding leaves its field as it is (00 R12). -/
def State.vcoalWrite (s : State) (n : Nat) (w : Word) : State :=
  let time := getBits w 16 10
  let count := getBits w 0 8
  (s.modVec n (fun v =>
    { v with mask := w.getLsbD 31, coalTime := if 1 ≤ time ∧ time ≤ 1000 then time else v.coalTime,
             coalCount := if count = 0 then v.coalCount else count })).evgAwake.evgServe

/-- What a VECTOR record configures; a vector without one delivers nothing (14 R549). -/
def EvVector.configured (v : EvVector) (c : Option PVector) : EvVector :=
  match c with
  | some r => { v with enable := r.enable, target := r.target, classes := r.classes, coalTime := r.coalTime, coalCount := r.coalCount }
  | none => { v with enable := false, target := 0, classes := 0, coalTime := 0, coalCount := 0 }

/-- The record of a tenant's vector `v`. -/
def TenCfg.vecRec (c : TenCfg) (v : Nat) : Option PVector := c.vectors.find? (fun r => r.vec == v)

/-- The vectors of tenant `t` take its configuration (R622): an open batch stays unless its vector loses ENABLE. -/
def State.vectorsOverlay (s : State) (t : Tenant) : State :=
  (forUp (fun v (s : State) =>
    let n := 8 * t.toNat + v
    let s1 := s.modVec n (fun x => x.configured ((s.ten t).vecRec v))
    if (s1.vec n).enable then s1 else s1.evgDiscard n) 0 8 s).evgServe

/-- CLEAR of a tenant reset (R621): deliveries end, batches are discarded, and everything returns to the configuration. -/
def State.vectorsClear (s : State) (t : Tenant) : State :=
  forUp (fun v (s : State) =>
    let n := 8 * t.toNat + v
    (s.evgDiscard n).modVec n (fun x =>
      { x.configured ((s.ten t).vecRec v) with mask := false, idle := false, seq := 0, out := none })) 0 8 s

/-- A warm reset (R620): deliveries end, SEQ, IDLE and MASK return to zero; open batches are kept. -/
def State.vectorsWarm (s : State) : State :=
  s.vectors.foldl (fun (s : State) e => s.modVec e.1 (fun x => { x with out := none, seq := 0, idle := false, mask := false })) s

/-- The applied Pattern configures every vector (R620): an open batch is kept where its vector is enabled and still
holds the batch's classes, else it is dropped and counted. -/
def State.vectorsApply (s : State) : State :=
  forUp (fun n (s : State) =>
    let s1 := s.modVec n (fun x => x.configured ((s.ten (vecTen n)).vecRec (n % 8)))
    let v := s1.vec n
    if v.pend && !(v.enable && v.seen &&& v.classes == v.seen) then (s1.modVec n EvVector.empty).bump F.EVG_DROP_NOVEC
    else s1) 0 1024 s

/-- The gatherer may enter RETAINED (R617); `deep` says that every physical slice is in DEEP, spare or fenced. (Log 83: DEDUCED) -/
def State.evgRetain (s : State) (deep : Bool) : State :=
  let busy := s.vectors.any (fun e => e.2.out.isSome ||
    (e.2.pend && !e.2.mask && decide (s.now < e.2.t0 + usec e.2.coalTime)))
  if deep && s.fget F.PWR_CTL_MAX_STATE == 4 && !busy then s.setFlag F.EVG_STATUS_RETAINED true else s

end Sys2Proof.Machine
end

