-- ==== Sys2Proof/Machine/Image.lean ====
section
/-!
DEFINITION. The Pattern image: framing, signature, applicability, section table, records and the constraints, in the
order in which the loader checks them, and the Pattern that its records spell (14_pattern_image.md R542 to R559).
-/
namespace Sys2Proof.Machine

/-! ## Bytes, fields and failures -/

/-- The values at indexes `i` to `i + n - 1` of a sparse array that lists none below `i`; an unlisted one reads as `d`. -/
def spDense {α : Type} (d : α) : Nat → Nat → Sp α → List α
  | _, 0, _ => []
  | i, n + 1, [] => d :: spDense d (i + 1) n []
  | i, n + 1, (j, v) :: t =>
    if j = i then v :: spDense d (i + 1) n t else d :: spDense d (i + 1) n ((j, v) :: t)

/-- The bytes of `n` words of a buffer, least significant byte first (R542). -/
def wordBytes (n : Nat) (l : Sp Word) : List Nat := (spDense 0 0 n l).flatMap (fun w => bytesLe 4 w.toNat)

/-- The little-endian number in `n` bytes at offset `o` of an image; bytes that it does not have read as zero. -/
def imgLe (b : List Nat) (o n : Nat) : Nat := ofBytesLe ((b.drop o).take n)

/-- Bytes `i` to `j - 1` of an image are zero. -/
def imgZero (b : List Nat) (i j : Nat) : Bool := ((b.drop i).take (j - i)).all (· == 0)

/-- A field of a record. -/
def recF (r lsb wid : Nat) : Nat := (r >>> lsb) % 2 ^ wid

/-- A one-bit field of a record. -/
def recB (r lsb : Nat) : Bool := r.testBit lsb

/-- A failed check: its code (R559), and the section table index and record index recorded (R560). -/
structure ImgErr where
  code : Nat
  sect : Nat
  rec_ : Nat
deriving DecidableEq, Repr

/-- A failure outside the sections. (Log 34: DEDUCED) -/
def imgErr (code : Nat) : ImgErr := ⟨code, 0x1F, 0⟩

/-- A check: none when it passes. -/
def need (ok : Bool) (e : ImgErr) : Option ImgErr := if ok then none else some e

/-- The first failure of a list of checks. -/
def firstErr : List (Option ImgErr) → Option ImgErr
  | [] => none
  | some e :: _ => some e
  | none :: t => firstErr t

/-- The first index `i` from `i0` on, with the elements before it, whose element is bad. -/
def firstBad {α : Type} (bad : List α → α → Bool) : List α → Nat → List α → Option Nat
  | _, _, [] => none
  | seen, i, x :: t => if bad seen x then some i else firstBad bad (seen ++ [x]) (i + 1) t

/-! ## Steps 1 to 3: framing, signature, applicability (R543, R556, R557, R558) -/

/-- Checks of step 1; `overlay` is the kind that the delivery path accepts and `avail` the bytes delivered. (Log 34: DEDUCED) -/
def imgFraming (overlay : Bool) (avail : Nat) (b : List Nat) : Option ImgErr :=
  let total := imgLe b 8 4
  firstErr [
    need (imgLe b 0 4 == 0x4E525450 && imgLe b 4 2 == 1) (imgErr 0x01),
    need (imgLe b 6 1 == if overlay then 2 else 1) (imgErr 0x02),
    need (total % 16 == 0 && 352 ≤ total && total ≤ (if overlay then 16384 else 262144) && total ≤ avail) (imgErr 0x03)]

/-- The digest of an image: SHA-384 of its signed region (R557). (Log 34: DEDUCED, 85: DESIGN CHOICE) -/
def imgDigest (b : List Nat) : List Nat := sha384 (b.take (imgLe b 8 4 - 208))

/-- Checks of step 2 (R557), with the fuses and the lifecycle state. (Log 34: DEDUCED, 85: DESIGN CHOICE) -/
def imgSignature (fu : Fuses) (lc : Nat) (b : List Nat) : Option ImgErr :=
  let g := b.drop (imgLe b 8 4 - 208)
  let slot := imgLe g 4 1
  let be (o n : Nat) : Nat := ofBytesBe ((g.drop o).take n)
  firstErr [
    need (slot ≤ 3 && fu.prog.getLsbD slot && !fu.revoke.getLsbD slot && (slot != 3 || lc == 1)) (imgErr 0x10),
    need (ofBytesLe (sha384 ((g.drop 0x10).take 96)) == (fu.keyHash.getD slot 0).toNat) (imgErr 0x11),
    need (ecdsaOk (be 0x10 48) (be 0x40 48) (imgDigest b) (be 0x70 48) (be 0xA0 48)) (imgErr 0x12)]

/-- What an overlay is bound to (R564): the tenant of its LOAD, the digest in force, the highest OVL_SEQ accepted (none
when none was), and that overlays are closed. -/
structure Binding where
  ten : Tenant
  digest : List Nat
  seq : Option Nat
  closed : Bool

/-- Checks of step 3; stepping B is bit 2 of STEP_MASK. -/
def imgApplies (lc : Nat) (o : Option Binding) (b : List Nat) : Option ImgErr :=
  firstErr ([
    need ((imgLe b 0x14 2).testBit 2) (imgErr 0x04),
    need ((imgLe b 0x16 1).testBit lc) (imgErr 0x05)] ++
    (match o with
     | none => []
     | some x => [
        need ((b.drop 0x30).take 48 == x.digest) (imgErr 0x60),
        need (imgLe b 0x18 1 % 128 == x.ten.toNat) (imgErr 0x61),
        need (match x.seq with | some q => q < imgLe b 0x20 4 | none => true) (imgErr 0x62),
        need (!x.closed) (imgErr 0x63)]))

/-! ## Step 4: the section table (R544, R545) -/

/-- A section table entry. -/
structure ImgSec where
  typ : Nat
  count : Nat
  len : Nat
  off : Nat
  size : Nat
  rsv : Nat

/-- Section table entry `i`. -/
def imgSec (b : List Nat) (i : Nat) : ImgSec :=
  let e := imgLe b (0x80 + 16 * i) 16
  ⟨recF e 0 16, recF e 16 16, recF e 32 16, recF e 64 32, recF e 96 32, recF e 48 16⟩

/-- The section table. -/
def imgSecs (b : List Nat) : List ImgSec := (List.range (imgLe b 7 1)).map (imgSec b)

/-- REC_LEN of a section type, and the least and most records in a base and in an overlay; none where the section is not
allowed (R545). -/
def secRule : Nat → Option (Nat × (Nat × Nat) × Option (Nat × Nat))
  | 0x01 => some (16, (1, 1), none)
  | 0x02 => some (8, (12, 12), none)
  | 0x03 => some (8, (1, 256), none)
  | 0x04 => some (4, (0, 16), none)
  | 0x05 => some (32, (1, 64), none)
  | 0x06 => some (208, (1, 1), none)
  | 0x07 => some (64, (0, 128), some (0, 1))
  | 0x08 => some (16, (0, 2048), some (0, 16))
  | 0x09 => some (8, (0, 128), some (0, 1))
  | 0x0A => some (16, (0, 1024), some (0, 8))
  | 0x0B => some (16, (1, 1), none)
  | 0x0C => some (16, (1, 1), none)
  | 0x0D => some (16, (1, 1), none)
  | 0x0E => some (16, (1, 1), none)
  | 0x0F => some (32, (1, 1), none)
  | 0x10 => some (16, (1, 1), none)
  | 0x11 => some (16, (1, 1), none)
  | _ => none

/-- An entry keeps the layout of R542 and R544, given the entry before it. -/
def secLayoutOk (total tableEnd : Nat) (before : Option ImgSec) (e : ImgSec) : Bool :=
  e.size == e.count * e.len && e.off % 16 == 0 && tableEnd ≤ e.off && e.off + e.size ≤ total - 208 &&
    (match before with
     | none => true
     | some d => d.typ < e.typ && d.off < e.off && d.off + d.size ≤ e.off)

/-- Checks of one entry by R545. -/
def secTypeErr (overlay : Bool) (i : Nat) (e : ImgSec) : Option ImgErr :=
  match secRule e.typ with
  | none => some ⟨0x07, i, 0⟩
  | some (len, inBase, inOvl) =>
    match if overlay then inOvl else some inBase with
    | none => some ⟨0x08, i, 0⟩
    | some (lo, hi) => firstErr [need (e.len == len) ⟨0x06, i, 0⟩, need (lo ≤ e.count && e.count ≤ hi) ⟨0x09, i, 0⟩]

/-- Checks of step 4. (Log 34: DEDUCED) -/
def imgTable (overlay : Bool) (b : List Nat) : Option ImgErr :=
  let n := imgLe b 7 1
  let secs := imgSecs b
  let total := imgLe b 8 4
  let required := [0x01, 0x02, 0x03, 0x05, 0x06, 0x0B, 0x0C, 0x0D, 0x0E, 0x0F, 0x10, 0x11]
  if n < 1 ∨ 17 < n then some (imgErr 0x06)
  else firstErr [
    (firstBad (fun seen e => !secLayoutOk total (0x80 + 16 * n) seen.getLast? e) [] 0 secs).map (fun i => ⟨0x06, i, 0⟩),
    firstErr (secs.mapIdx (fun i e => secTypeErr overlay i e)),
    need (overlay || required.all (fun t => secs.any (·.typ == t))) (imgErr 0x08)]

/-! ## Step 5: records (R546 to R552, R789) -/

/-- The records of a section. -/
def secRecs (b : List Nat) (e : ImgSec) : List Nat := (List.range e.count).map (fun i => imgLe b (e.off + e.len * i) e.len)

/-- The records of the section of a type; none when it is omitted. -/
def recsOf (b : List Nat) (typ : Nat) : List Nat :=
  match (imgSecs b).find? (·.typ == typ) with
  | some e => secRecs b e
  | none => []

/-- The defined fields of a record, as (lowest bit, width). -/
def recFields : Nat → List (Nat × Nat)
  | 0x01 => [(0, 25), (32, 88)]
  | 0x02 => [(0, 4)]
  | 0x03 => [(0, 35)]
  | 0x04 => [(0, 25)]
  | 0x05 => [(0, 31), (32, 31), (64, 92)]
  | 0x06 => (0, 4) :: (640, 1024) :: (List.range 8).map (fun i => (128 + 64 * i, 52))
  | 0x07 => [(0, 7), (8, 7), (16, 13), (32, 45), (128, 25), (160, 25), (192, 25), (224, 25), (256, 128)]
  | 0x08 => [(0, 7), (8, 7), (16, 31), (48, 31)]
  | 0x09 => [(0, 7), (8, 5), (16, 6)]
  | 0x0A => [(0, 7), (8, 4), (16, 28), (48, 10), (64, 32)]
  | 0x0B => [(0, 21)]
  | 0x0C => [(0, 4)]
  | 0x0D => [(0, 8)]
  | 0x0E => [(0, 3), (4, 4)]
  | 0x0F => [(0, 15), (16, 30), (48, 15), (64, 38), (104, 21), (128, 13)]
  | 0x10 => [(0, 22)]
  | 0x11 => [(0, 3), (4, 30)]
  | _ => []

/-- The bits of a record outside its defined fields. -/
def recRest (typ r : Nat) : Nat := (recFields typ).foldl (fun r f => r - (recF r f.1 f.2) <<< f.1) r

/-- The fields of a record hold no reserved encoding, those apart that a constraint of R555 takes over (R10, R789). -/
def recValuesOk (typ r : Nat) : Bool :=
  let f (lsb wid : Nat) : Nat := recF r lsb wid
  let within (lsb wid lo hi : Nat) : Bool := lo ≤ f lsb wid && f lsb wid ≤ hi
  match typ with
  | 0x01 =>
    (List.range 16).all (fun i => if i < f 20 5 then f (32 + 5 * i) 5 ≤ 17 else f (32 + 5 * i) 5 == 0) &&
      within 112 4 3 10 && within 116 4 2 6
  | 0x02 => (f 0 2 == 0) == (f 2 2 == 0)
  | 0x03 =>
    f 20 5 ≤ 20 && f 26 4 ≤ 11 && f 30 4 ≤ 11 && (!recB r 25 || f 26 4 == 0) && (recB r 34 || f 30 4 == 0)
  | 0x04 => f 20 5 ≤ 20
  | 0x05 =>
    within 66 6 8 30 &&
      (List.range 8).all (fun j => if j < 2 ^ f 64 2 then f (72 + 4 * j) 4 ≤ 11 else f (72 + 4 * j) 4 == 0)
  | 0x06 =>
    f 0 4 ≤ 8 && (List.range 8).all (fun i => i < f 0 4 || f (128 + 64 * i) 52 == 0) &&
      (List.range 256).all (fun j => j < 2 ^ f 0 4 || f (640 + 4 * j) 4 == 0)
  | 0x07 =>
    within 10 5 10 28 && within 32 5 1 16 && f 56 13 ≤ 4096 && within 69 3 1 4 && (f 72 5 ≤ 23 || f 72 5 == 31) &&
      (List.range 4).all (fun d => if d < f 69 3 then f (148 + 32 * d) 5 ≤ 20 else f (128 + 32 * d) 32 == 0)
  | 0x09 => f 8 5 ≤ 20 && within 16 6 1 48
  | 0x0A => 1 ≤ f 36 8 && within 48 10 1 1000 && f 74 6 == 0 && f 87 9 == 0
  | 0x0B => within 16 4 2 6
  | 0x0C => f 0 4 ≤ 10
  | 0x0E => f 0 3 ≤ 4 && f 4 4 ≤ 10
  | 0x0F =>
    1 ≤ f 16 16 && within 32 4 1 8 && f 36 10 ≤ 1000 && f 64 10 ≤ 1000 && within 74 5 1 16 && f 136 5 ≤ 17
  | 0x10 => f 0 4 ≤ 12 && f 4 3 ≤ 6 && 1 ≤ f 7 3 && f 10 4 ≤ 12 && f 14 4 ≤ 12 && f 18 4 ≤ 10
  | _ => true

/-- The key in whose ascending order records stand (R546); a section of one fixed record, or one for each port, has none. -/
def recKey (typ r : Nat) : Option Nat :=
  match typ with
  | 0x03 | 0x04 => some (recF r 0 20)
  | 0x05 => some (recF r 0 31)
  | 0x07 | 0x09 => some (recF r 0 7)
  | 0x08 => some (recF r 0 7 * 16 + recF r 8 4)
  | 0x0A => some (recF r 0 7 * 8 + recF r 8 3)
  | _ => none

/-- Checks of one record, given the one before it. -/
def recErr (ten : Option Tenant) (typ sect i : Nat) (before : Option Nat) (r : Nat) : Option ImgErr :=
  firstErr [
    need (recRest typ r == 0) ⟨0x18, sect, i⟩,
    need (recValuesOk typ r) ⟨0x19, sect, i⟩,
    need (match before.bind (recKey typ), recKey typ r with | some a, some b => a < b | _, _ => true) ⟨0x0A, sect, i⟩,
    need (match ten with | some t => recF r 0 7 == t.toNat | none => true) ⟨0x61, sect, i⟩]

/-- Checks of the records of a section from index `i` on. (Log 34: DEDUCED) -/
def recsErr (ten : Option Tenant) (typ sect : Nat) : Nat → Option Nat → List Nat → Option ImgErr
  | _, _, [] => none
  | i, before, r :: t => match recErr ten typ sect i before r with
    | some e => some e
    | none => recsErr ten typ sect (i + 1) (some r) t

/-- Checks of the sections and of the gap before each; `from_` is where the gap begins. (Log 34: DEDUCED) -/
def secsErr (ten : Option Tenant) (b : List Nat) : Nat → Nat → List ImgSec → Option ImgErr
  | _, from_, [] => need (imgZero b from_ (imgLe b 8 4 - 208)) (imgErr 0x18)
  | i, from_, e :: t =>
    match firstErr [need (imgZero b from_ e.off) (imgErr 0x18), recsErr ten e.typ i 0 none (secRecs b e)] with
    | some x => some x
    | none => secsErr ten b (i + 1) (e.off + e.size) t

/-- Checks of step 5: header, section table, sections, signature block. -/
def imgRecords (ten : Option Tenant) (b : List Nat) : Option ImgErr :=
  let secs := imgSecs b
  let g := imgLe b 8 4 - 208
  let fixed := match ten with
    | none => imgLe b 0x18 1 % 128 == 0 && imgLe b 0x20 4 == 0 && imgZero b 0x30 0x60
    | some _ => imgLe b 0x20 4 != 0
  firstErr [
    need (imgLe b 0x16 1 < 8 && imgLe b 0x17 1 == 0 && imgLe b 0x18 1 < 128 && imgZero b 0x19 0x20 &&
      imgZero b 0x24 0x30 && imgZero b 0x60 0x80) (imgErr 0x18),
    need fixed (imgErr 0x19),
    need (secs.all (·.rsv == 0)) (imgErr 0x18),
    secsErr ten b 0 (0x80 + 16 * secs.length) secs,
    need (imgZero b (g + 5) (g + 16)) (imgErr 0x18),
    need (imgLe b g 4 == 0x31474953) (imgErr 0x19)]

/-! ## What the records spell (R547 to R552) -/

/-- A role by its code. -/
def roleOf : Nat → Role
  | 1 => .client
  | 2 => .memory
  | 3 => .peer
  | _ => .off

/-- First byte of a BASE_G and last byte of a LIMIT_G. -/
def baseOfG (g : Nat) : Nat := g * 2 ^ 21
/-- First byte of a BASE_G and last byte of a LIMIT_G. -/
def limitOfG (g : Nat) : Nat := g * 2 ^ 21 + 0x1FFFFF

/-- A node block in 25 bits. -/
def blockOf (r : Nat) : Node × Nat := (BitVec.ofNat 20 r, recF r 20 5)

/-- A NODEMAP record. -/
def nodeOf (r : Nat) : NodeEnt :=
  { base := BitVec.ofNat 20 r, k := recF r 20 5, home := recB r 25, prim := recF r 26 4,
    alt := if recB r 34 then some (recF r 30 4) else none }

/-- An ADDRMAP record. -/
def rangeOfRec (r : Nat) : HRange :=
  { base := baseOfG (recF r 0 31), limit := limitOfG (recF r 32 31), logw := recF r 64 2, g := recF r 66 6,
    ports := (List.range (2 ^ recF r 64 2)).map (fun j => recF r (72 + 4 * j) 4), memBase := recF r 104 52 }

/-- A WINDOW record. -/
def windowOf (r : Nat) : PWindow :=
  { idx := recF r 8 4, rd := recB r 12, wr := recB r 13, cache := recB r 14, base := baseOfG (recF r 16 31),
    limit := limitOfG (recF r 48 31) }

/-- A VECTOR record. -/
def vectorOf (r : Nat) : PVector :=
  { vec := recF r 8 3, enable := recB r 11, target := BitVec.ofNat 20 (recF r 16 20), coalCount := recF r 36 8,
    coalTime := recF r 48 10, classes := BitVec.ofNat 32 (recF r 64 32) }

/-- The Pattern section of the tenant of a TENANT record (R546, R549). -/
def tenCfgOf (b : List Nat) (r : Nat) : TenCfg :=
  let t := recF r 0 7
  let mine (typ : Nat) : List Nat := (recsOf b typ).filter (fun x => recF x 0 7 == t)
  let sh := (mine 0x09).headD 0
  { ten := BitVec.ofNat 7 t, spec := recB r 8, rcm := recB r 9, snpTmo := recF r 10 5, weight := recF r 16 8,
    cap := recF r 24 5, sfQuota := recF r 32 5, rdAlloc := recB r 37, fillSector := recB r 38, offer := recB r 39,
    wayMask := BitVec.ofNat 16 (recF r 40 16), clampQuota := recF r 56 13, latDef := recF r 72 5,
    dom := (List.range (recF r 69 3)).map (fun d => blockOf (recF r (128 + 32 * d) 25)),
    peers := BitVec.ofNat 128 (recF r 256 128), regionExp := recF sh 8 5, allThresh := recF sh 16 6,
    windows := (mine 0x08).map windowOf, vectors := (mine 0x0A).map vectorOf }

/-- The tenants of an image. -/
def imgTens (b : List Nat) : List TenCfg := (recsOf b 0x07).map (tenCfgOf b)

/-- The Pattern that a base image spells. -/
def imgPattern (b : List Nat) : Pattern :=
  let one (typ : Nat) : Nat := (recsOf b typ).headD 0
  let topo := one 0x01
  let hash := one 0x06
  let hc := one 0x0B
  let ev := one 0x0D
  let pw := one 0x0E
  let sa := one 0x0F
  let wd := one 0x10
  let jg := one 0x11
  { home := BitVec.ofNat 20 topo, nActive := recF topo 20 5,
    lsmap := (List.range (min 16 (recF topo 20 5))).map (fun i => recF topo (32 + 5 * i) 5),
    twin := recF topo 112 4, sfScrub := recF topo 116 4,
    ports := (recsOf b 0x02).map (fun r => (roleOf (recF r 0 2), recF r 2 2)),
    nodemap := (recsOf b 0x03).map nodeOf, masters := (recsOf b 0x04).map blockOf,
    ranges := (recsOf b 0x05).map rangeOfRec, hashBits := recF hash 0 4,
    masks := (List.range (recF hash 0 4)).map (fun i => BitVec.ofNat 52 (recF hash (128 + 64 * i) 52)),
    table := (List.range (2 ^ recF hash 0 4)).map (fun j => recF hash (640 + 4 * j) 4),
    tens := imgTens b, lfsrSeed := BitVec.ofNat 16 hc, hcScrub := recF hc 16 4, hcDisable := recB hc 20,
    ageStep := recF (one 0x0C) 0 4, mgmtNo := BitVec.ofNat 7 ev,
    mgmt := if recB ev 7 then some (BitVec.ofNat 7 ev) else none,
    maxState := recF pw 0 3, entryIdle := recF pw 4 4, cwdPeriod := recF wd 0 4, cwdOpen := recF wd 4 3,
    cwdN := recF wd 7 3, healthy := recF wd 10 4, swdPeriod := recF wd 14 4, swdHard := recF wd 18 4,
    predSfFree := recF sa 0 8, predHcFree := recF sa 8 7, predCe := recF sa 16 16, predLost := recF sa 32 4,
    predAge := recF sa 36 10, degSfFree := recF sa 48 8, degHcFree := recF sa 56 7, degAge := recF sa 64 10,
    minActive := recF sa 74 5, lock := recB sa 79,
    pm := if recB sa 100 then some (BitVec.ofNat 20 (recF sa 80 20)) else none, ovlLocked := recB sa 101,
    smNode := if recB sa 124 then some (BitVec.ofNat 20 (recF sa 104 20)) else none,
    smI3c := if recB sa 135 then some (BitVec.ofNat 7 (recF sa 128 7)) else none, degSpares := recF sa 136 5,
    jigGrant := recB jg 0, jigLink := recB jg 1, jigArray := recB jg 2, jigPorts := BitVec.ofNat 12 (recF jg 4 12),
    jigSlices := BitVec.ofNat 18 (recF jg 16 18) }

/-! ## Step 6: constraints (R555) -/

/-- Where a constraint looks: a record of a section type by its index, or record `i` of a type among those of one
tenant, which stands at index `j` among those of all tenants. -/
inductive PlaceIn where
  | at_ (typ i : Nat)
  | ten (typ : Nat) (t : Tenant) (i j : Nat)

/-- The section and record index of a place (R560): for an overlay only its own tenant's records are in the image. -/
def placeErr (b : List Nat) (o : Option Tenant) (code : Nat) (p : PlaceIn) : ImgErr :=
  let sect (typ i : Nat) : ImgErr := match (imgSecs b).findIdx? (·.typ == typ) with
    | some k => ⟨code, k, i⟩
    | none => imgErr code
  match o, p with
  | none, .at_ typ i => sect typ i
  | none, .ten typ _ _ j => sect typ j
  | some _, .at_ _ _ => imgErr code
  | some n, .ten typ t i _ => if t = n then sect typ i else imgErr code

/-- The role of a port in a Pattern. -/
def Pattern.role (p : Pattern) (i : Nat) : Role := (p.ports.getD i (.off, 0)).1

/-- A node lies in a node map entry on a CLIENT or PEER port. -/
def Pattern.reachable (p : Pattern) (n : Node) : Bool :=
  p.nodemap.any (fun e => !e.home && inBlock n e.base e.k && (p.role e.prim == .client || p.role e.prim == .peer))

/-- Two node blocks have a node in common. -/
def meets (a b : Node × Nat) : Bool := (blockMeet a.1 a.2 b.1 b.2).isSome

/-- The entry belongs to a MEMORY port. -/
def Pattern.memEntry (p : Pattern) (e : NodeEnt) : Bool := !e.home && p.role e.prim == .memory

/-- Every tenant with its index. -/
def Pattern.tenIdx (p : Pattern) : List (TenCfg × Nat) := p.tens.zipIdx

/-- Every window with its tenant and its index among them, in section order. -/
def Pattern.wins (p : Pattern) : List (Tenant × PWindow × Nat) :=
  p.tens.flatMap (fun c => c.windows.zipIdx.map (fun w => (c.ten, w.1, w.2)))

/-- Every vector with its tenant and its index among them, in section order. -/
def Pattern.vecs (p : Pattern) : List (Tenant × PVector × Nat) :=
  p.tens.flatMap (fun c => c.vectors.zipIdx.map (fun v => (c.ten, v.1, v.2)))

/-- The masks are linearly independent over GF(2): none lies in the span of those before it. -/
def masksFree : List (BitVec 52) → List (BitVec 52) → Bool
  | _, [] => true
  | span, m :: t => !span.contains m && masksFree (span ++ span.map (· ^^^ m)) t

/-- Ranges in ascending order cover the bytes from `from_` to `upto`. -/
def covered (ranges : List HRange) (from_ upto : Nat) : Bool :=
  upto < ranges.foldl (fun c r => if r.base ≤ c ∧ c ≤ r.limit then r.limit + 1 else c) from_

/-- A failing element of a list, at the place that `at_` gives. -/
def badAt {α : Type} (l : List α) (bad : List α → α → Bool) (at_ : α → Nat → PlaceIn) : Option PlaceIn :=
  (firstBad bad [] 0 l).bind (fun i => (l[i]?).map (fun x => at_ x i))

/-- The place of a tenant's own record. -/
def tenAt (c : TenCfg × Nat) (_ : Nat) : PlaceIn := .ten 0x07 c.1.ten 0 c.2

/-- The last TENANT record. -/
def lastTen (p : Pattern) : PlaceIn := match p.tenIdx.getLast? with
  | some c => tenAt c 0
  | none => .at_ 0x07 0

/-- A condition on one place. -/
def placeIf (bad : Bool) (p : PlaceIn) : Option PlaceIn := if bad then some p else none

/-- The first of two searches that finds something. -/
def orPlace (a b : Option PlaceIn) : Option PlaceIn := match a with
  | some x => some x
  | none => b

/-- Constraints of nodes and ports, 0x20 to 0x2F. -/
def nodeConstraints (p : Pattern) : List (Nat × Option PlaceIn) :=
  let node (_ : NodeEnt) (i : Nat) : PlaceIn := .at_ 0x03 i
  let off (q : Nat) : Bool := p.role q == .off
  let aligned (b : Node × Nat) : Bool := blockBase b.1 b.2 == b.1
  [ (0x20, placeIf (!(1 ≤ p.nActive && p.nActive ≤ 16)) (.at_ 0x01 0)),
    (0x21, placeIf (p.lsmap.eraseDups.length != p.lsmap.length) (.at_ 0x01 0)),
    (0x2E, orPlace (badAt p.nodemap (fun _ e => !aligned (e.base, e.k)) node)
      (orPlace (badAt p.masters (fun _ b => !aligned b) (fun _ i => .at_ 0x04 i))
        (badAt p.tenIdx (fun _ c => !c.1.dom.all aligned) tenAt))),
    (0x28, badAt p.nodemap (fun seen e => seen.any (fun d => meets (d.base, d.k) (e.base, e.k))) node),
    (0x29, orPlace
      (badAt p.nodemap (fun seen e => e.home && (seen.any (·.home) || e.base != p.home || e.k != 0 || e.alt.isSome)) node)
      (placeIf (!p.nodemap.any (·.home)) (.at_ 0x03 (p.nodemap.length - 1)))),
    (0x2C, badAt p.nodemap (fun _ e => !e.home && (off e.prim || (match e.alt with | some a => off a | none => false))) node),
    (0x2A, badAt p.nodemap (fun _ e => !e.home && (match e.alt with | some a => p.role a != p.role e.prim | none => false)) node),
    (0x2B, orPlace
      (badAt p.nodemap (fun seen e =>
        p.memEntry e && (e.k != 0 || seen.any (fun d => !d.home && d.prim == e.prim))) node)
      (badAt (List.range p.ports.length) (fun _ q =>
        p.role q == .memory && !p.nodemap.any (fun e => !e.home && e.prim == q)) (fun _ i => .at_ 0x02 i))),
    (0x2D, badAt p.tenIdx (fun _ c => c.1.dom.any (fun b =>
      p.nodemap.any (fun e => (e.home || p.memEntry e) && meets b (e.base, e.k)))) tenAt),
    (0x2F, badAt p.tenIdx (fun _ c => (firstBad (fun seen b => seen.any (meets b)) [] 0 c.1.dom).isSome) tenAt) ]

/-- Constraints of addresses and of the hash, 0x30 to 0x48. -/
def mapConstraints (p : Pattern) : List (Nat × Option PlaceIn) :=
  let rng (_ : HRange) (i : Nat) : PlaceIn := .at_ 0x05 i
  [ (0x30, badAt p.ranges (fun _ r => r.limit < r.base) rng),
    (0x31, badAt p.ranges (fun seen r => seen.any (fun q => q.base ≤ r.limit && r.base ≤ q.limit)) rng),
    (0x32, badAt p.ranges (fun _ r => r.ports.eraseDups.length != r.ports.length || r.ports.any (fun q => p.role q != .memory)) rng),
    (0x33, badAt p.ranges (fun _ r => r.memBase % 2 ^ r.g != 0) rng),
    (0x38, placeIf (p.masks.any (fun m => m.toNat % 256 != 0 || m == 0) || !masksFree [0] p.masks) (.at_ 0x06 0)),
    (0x39, placeIf (p.table.any (fun l => p.nActive ≤ l) || !(List.range p.nActive).all p.table.contains) (.at_ 0x06 0)),
    (0x48, placeIf (p.lfsrSeed == 0) (.at_ 0x0B 0)) ]

/-- Constraint 0x44, on the records of the image itself. -/
def recordsConstraint (b : List Nat) : Option ImgErr :=
  let tens (typ : Nat) : List Nat := (recsOf b typ).map (fun r => recF r 0 7)
  let lacks (typ : Nat) (l : List Nat) : Option ImgErr :=
    match firstBad (fun _ t => !l.contains t) [] 0 (tens typ), (imgSecs b).findIdx? (·.typ == typ) with
    | some i, some k => some ⟨0x44, k, i⟩
    | _, _ => none
  firstErr [lacks 0x07 (tens 0x09), lacks 0x08 (tens 0x07), lacks 0x09 (tens 0x07), lacks 0x0A (tens 0x07)]

/-- Constraints of tenants, 0x40 to 0x45. -/
def tenantConstraints (p : Pattern) : List (Nat × Option PlaceIn) :=
  let win (w : Tenant × PWindow × Nat) (j : Nat) : PlaceIn := .ten 0x08 w.1 w.2.2 j
  let vec (v : Tenant × PVector × Nat) (j : Nat) : PlaceIn := .ten 0x0A v.1 v.2.2 j
  let sum (f : TenCfg → Nat) : Nat := p.tens.foldl (fun a c => a + f c) 0
  [ (0x40, badAt p.wins (fun _ w => w.2.1.limit < w.2.1.base || !covered p.ranges w.2.1.base w.2.1.limit) win),
    (0x41, badAt p.wins (fun seen w =>
      seen.any (fun x => x.1 != w.1 && x.2.1.base ≤ w.2.1.limit && w.2.1.base ≤ x.2.1.limit)) win),
    (0x42, orPlace (badAt p.tenIdx (fun _ c => !(1 ≤ c.1.cap && c.1.cap ≤ 16)) tenAt)
      (placeIf (256 < sum (·.weight)) (lastTen p))),
    (0x43, placeIf (4096 < sum (·.clampQuota)) (lastTen p)),
    (0x45, orPlace (badAt p.vecs (fun _ v => !p.reachable v.2.1.target) vec)
      (orPlace (badAt p.vecs (fun seen v => seen.any (fun x => x.1 == v.1 && x.2.1.classes &&& v.2.1.classes != 0)) vec)
        (orPlace (badAt p.vecs (fun _ v => v.1 != p.mgmtNo && v.2.1.classes >>> 16 != 0) vec)
          (placeIf (match p.mgmt with | some t => !p.tens.any (·.ten == t) | none => false) (.at_ 0x0D 0))))) ]

/-- Constraints of SAFETY and JIG, 0x50 to 0x52; `lcMask` is LC_MASK. -/
def safetyConstraints (p : Pattern) (lcMask : Nat) : List (Nat × Option PlaceIn) :=
  let bad (n : Option Node) : Bool := match n with | some x => !p.reachable x | none => false
  [ (0x50, placeIf (p.nActive < p.minActive || bad p.pm || bad p.smNode || (p.smNode.isNone && p.smI3c.isNone)) (.at_ 0x0F 0)),
    (0x51, placeIf (p.lock && (p.jigGrant || p.jigLink || p.jigArray)) (.at_ 0x11 0)),
    (0x52, placeIf (p.lock && !lcMask.testBit 2) (.at_ 0x0F 0)) ]

/-- The first failing constraint of a configuration, for the image that brings it. (Log 34: DEDUCED) -/
def constraintErr (b : List Nat) (o : Option Tenant) (lcMask : Nat) (p : Pattern) : Option ImgErr :=
  let run (l : List (Nat × Option PlaceIn)) : Option ImgErr := firstErr (l.map (fun c => c.2.map (placeErr b o c.1)))
  firstErr [run (nodeConstraints p), run (mapConstraints p), recordsConstraint b, run (tenantConstraints p),
    run (safetyConstraints p lcMask)]

/-! ## The whole validation (R558) -/

/-- Validates a base image; none when it is accepted. -/
def baseErr (fu : Fuses) (lc avail : Nat) (b : List Nat) : Option ImgErr :=
  match firstErr [imgFraming false avail b] with
  | some e => some e
  | none =>
    let x := b.take (imgLe b 8 4)
    match imgSignature fu lc x with
    | some e => some e
    | none => match imgApplies lc none x with
      | some e => some e
      | none => match imgTable false x with
        | some e => some e
        | none => match imgRecords none x with
          | some e => some e
          | none => constraintErr x none (imgLe x 0x16 1) (imgPattern x)

/-- A Pattern with the section of one tenant replaced or removed (R563). -/
def Pattern.withTen (p : Pattern) (t : Tenant) (c : Option TenCfg) : Pattern :=
  let rest := p.tens.filter (fun d => d.ten != t)
  { p with tens := match c with
    | .none => rest
    | .some x => rest.filter (fun d => d.ten < t) ++ [x] ++ rest.filter (fun d => t < d.ten) }

/-- Validates an overlay against the configuration in force and against it with the held overlays `held` of other
tenants in place (R563); none when it is accepted. (Log 35: DEDUCED) -/
def overlayErr (fu : Fuses) (lc : Nat) (bnd : Binding) (p : Pattern) (held : List Overlay) (b : List Nat) : Option ImgErr :=
  match imgFraming true b.length b with
  | some e => some e
  | none =>
    let x := b.take (imgLe b 8 4)
    match imgSignature fu lc x with
    | some e => some e
    | none => match imgApplies lc (some bnd) x with
      | some e => some e
      | none => match imgTable true x with
        | some e => some e
        | none => match imgRecords (some bnd.ten) x with
          | some e => some e
          | none =>
            let c := (imgTens x).head?
            let other := held.foldl (fun (q : Pattern) h => if h.ten = bnd.ten then q else q.withTen h.ten h.cfg) p
            match constraintErr x (some bnd.ten) 0xFF (p.withTen bnd.ten c) with
            | some e => some e
            | none => constraintErr x (some bnd.ten) 0xFF (other.withTen bnd.ten c)

end Sys2Proof.Machine
end

