-- ==== Sys2Proof/Machine/SnoopFilter.lean ====
section
/-!
DEFINITION. The snoop filter of a slice (09_snoop_filter.md): the 118-bit entry and its Hamming code, the checked
lookup, retirement and LOOSE sets, sharer formats and regions, and the choice of a way.
-/
namespace Sys2Proof.Machine

/-! ## The entry and its code (R353, R788) -/

/-- The Hamming position of each data bit 0 to 109: the numbers from 3 on that are no power of two (R788). -/
def sfPositions : List Nat :=
  (List.range 118).filter (fun p => 3 ≤ p && !(p == 4 || p == 8 || p == 16 || p == 32 || p == 64))

/-- Check bit `j` over the 110 data bits: even parity of the bits whose position has bit `j` set. -/
def sfCheckBit (data : Nat) (j : Nat) : Bool :=
  ((List.range 110).zip sfPositions).foldl (fun b x => if x.2.testBit j then b.xor (data.testBit x.1) else b) false

/-- The seven check bits of the data bits 109:0. -/
def sfChecks (data : Nat) : Nat := (List.range 7).foldl (fun c j => c + (if sfCheckBit data j then 2 ^ j else 0)) 0

/-- The entry whose bits 109:0 are given, with its check bits and overall parity (R788). -/
def sfEncode (data : BitVec 110) : BitVec 118 :=
  let c := BitVec.ofNat 7 (sfChecks data.toNat)
  let body : BitVec 117 := c ++ data
  BitVec.ofBool (parity body) ++ body

/-- What the check of a stored entry finds (R788, R354). -/
inductive SfCheck where
  | good (e : BitVec 118)
  | corrected (e : BitVec 118)
  | bad
deriving DecidableEq, Repr

/-- The entry bit at Hamming position `p`: a data bit, or check bit j at position 2^j. -/
def sfBitAt (p : Nat) : Nat :=
  match p with
  | 1 => 110 | 2 => 111 | 4 => 112 | 8 => 113 | 16 => 114 | 32 => 115 | 64 => 116
  | _ => (sfPositions.findIdx? (· == p)).getD 0

/-- FMT and SH keep the layout of R354; a reserved FMT does not. -/
def sfLayoutOk (e : BitVec 118) : Bool :=
  let sh : BitVec 48 := e.extractLsb' 62 48
  match (e.extractLsb' 2 2 : BitVec 2).toNat with
  | 0 => (sh.extractLsb' 42 6 : BitVec 6) == 0
  | 1 => true
  | 2 => sh == 0
  | _ => false

/-- The check of a stored entry (R788), an entry that breaks the layout of R354 being uncorrectable. (Log 2: DESIGN CHOICE) -/
def sfCheck (e : BitVec 118) : SfCheck :=
  let data := (e.extractLsb' 0 110 : BitVec 110).toNat
  let synd := sfChecks data ^^^ (e.extractLsb' 110 7 : BitVec 7).toNat
  let odd := parity e
  let judge (x : BitVec 118) (fixed : Bool) : SfCheck :=
    if x.getLsbD 0 && !sfLayoutOk x then .bad else if fixed then .corrected x else .good x
  if synd = 0 then
    if odd then judge (e ^^^ ((1 : BitVec 118) <<< 117)) true else judge e false
  else if odd ∧ synd ≤ 117 then judge (e ^^^ ((1 : BitVec 118) <<< sfBitAt synd)) true
  else .bad

/-- VALID. -/
def sfValid (e : BitVec 118) : Bool := e.getLsbD 0
/-- REF. -/
def sfRef (e : BitVec 118) : Bool := e.getLsbD 1
/-- TENANT. -/
def sfTen (e : BitVec 118) : Tenant := e.extractLsb' 5 7
/-- TAG: address bits 51:22. -/
def sfTag (e : BitVec 118) : BitVec 30 := e.extractLsb' 12 30

/-- The record an entry holds. -/
def sfRec (e : BitVec 118) : LineRec :=
  let sh : BitVec 48 := e.extractLsb' 62 48
  { own := if e.getLsbD 4 then some (e.extractLsb' 42 20) else none,
    sh := match (e.extractLsb' 2 2 : BitVec 2).toNat with
      | 0 => .p2 (if sh.getLsbD 40 then some (sh.extractLsb' 0 20) else none)
                 (if sh.getLsbD 41 then some (sh.extractLsb' 20 20) else none)
      | 1 => .v48 sh
      | _ => .all }

/-- The SH field and FMT of a sharer set (R354). -/
def shField : Sharers → BitVec 2 × BitVec 48
  | .p2 a b => (0, (0 : BitVec 6) ++ BitVec.ofBool b.isSome ++ BitVec.ofBool a.isSome ++ b.getD 0 ++ a.getD 0)
  | .v48 x => (1, x)
  | .all => (2, 0)

/-- The valid entry for a line of tenant `t` with a record (R353). -/
def sfPack (ref : Bool) (t : Tenant) (a : Addr) (r : LineRec) : BitVec 118 :=
  let f := shField r.sh
  sfEncode (f.2 ++ r.own.getD 0 ++ (a.extractLsb' 22 30 : BitVec 30) ++ t ++ BitVec.ofBool r.own.isSome ++ f.1 ++
    BitVec.ofBool ref ++ (1 : BitVec 1))

/-- The line address an entry of set `set` names (09, Organization). -/
def sfLine (set : Nat) (e : BitVec 118) : Addr :=
  let tag : BitVec 30 := sfTag e
  let hi : Addr := (tag.zeroExtend 52) <<< 22
  let mid : BitVec 16 := BitVec.ofNat 16 set ^^^ hi.extractLsb' 22 16 ^^^ (hi.extractLsb' 38 14 : BitVec 14).zeroExtend 16
  hi ||| ((mid.zeroExtend 52) <<< 6)

/-- The record names no holder, so that it needs no entry (R350). -/
def LineRec.isEmpty (r : LineRec) : Bool := r.own.isNone && r.sh == .p2 Option.none Option.none

/-! ## Regions and the sharer field (R355 to R357) -/

/-- The number of regions that block k contributes (R355). -/
def regionsOf (cfg : TenCfg) (k : Nat) : Nat := if cfg.regionExp ≤ k then 2 ^ (k - cfg.regionExp) else 1

/-- The regions that block b/j meets among the domain blocks given, the first of them being number `n0`: first number
and how many. -/
def regionsMet (cfg : TenCfg) (b : Node) (j : Nat) : List (Node × Nat) → Nat → List (Nat × Nat)
  | [], _ => []
  | (d, k) :: rest, n0 =>
    let here : List (Nat × Nat) :=
      match blockMeet b j d k with
      | none => []
      | some (i, w) =>
        if k < cfg.regionExp then [(n0, 1)]
        else [(n0 + ((i.toNat - d.toNat) >>> cfg.regionExp), regionsOf cfg w)]
    here ++ regionsMet cfg b j rest (n0 + regionsOf cfg k)

/-- The V48 bits of the regions that block b/j meets; none when one of them is numbered 48 or more (R356). -/
def regionBits (cfg : TenCfg) (b : Node) (j : Nat) : Option (BitVec 48) :=
  (regionsMet cfg b j cfg.dom 0).foldl (fun acc x =>
    match acc with
    | none => none
    | some v =>
      if x.1 + x.2 ≤ 48 then some (v ||| BitVec.ofNat 48 (onesMask x.2 <<< x.1)) else none) (some 0)

/-- The node block of region `i` (R355): base and exponent. -/
def regionBlock (cfg : TenCfg) (i : Nat) : List (Node × Nat) → Nat → Option (Node × Nat)
  | [], _ => none
  | (d, k) :: rest, n0 =>
    let n := regionsOf cfg k
    if i < n0 + n then
      if k < cfg.regionExp then some (d, k)
      else some (d + BitVec.ofNat 20 ((i - n0) <<< cfg.regionExp), cfg.regionExp)
    else regionBlock cfg i rest (n0 + n)

/-- V48 of the bits, or ALL when a node is unrepresentable or more than ALL_THRESH bits would be set (R357). -/
def v48OrAll (cfg : TenCfg) (v : Option (BitVec 48)) : Sharers :=
  match v with
  | some x => if pop x ≤ cfg.allThresh then .v48 x else .all
  | none => .all

/-- Bits of two optional region sets together. -/
def orBits (a b : Option (BitVec 48)) : Option (BitVec 48) :=
  match a, b with
  | some x, some y => some (x ||| y)
  | _, _ => none

/-- The V48 bits of P2 pointers. -/
def p2Bits (cfg : TenCfg) (a b : Option Node) : Option (BitVec 48) :=
  orBits (match a with | some n => regionBits cfg n 0 | none => some 0)
         (match b with | some n => regionBits cfg n 0 | none => some 0)

/-- A sharer added to the record (R357). -/
def addSharer (cfg : TenCfg) (sh : Sharers) (n : Node) : Sharers :=
  match sh with
  | .all => .all
  | .v48 x => v48OrAll cfg (orBits (some x) (regionBits cfg n 0))
  | .p2 a b =>
    if a = some n ∨ b = some n then .p2 a b
    else if a = none then .p2 (some n) b
    else if b = none then .p2 a (some n)
    else v48OrAll cfg (orBits (p2Bits cfg a b) (regionBits cfg n 0))

/-- A node block of more than one node added (R357): every region it meets, in V48. -/
def addBlock (cfg : TenCfg) (sh : Sharers) (b : Node) (k : Nat) : Sharers :=
  if k = 0 then addSharer cfg sh b
  else match sh with
    | .all => .all
    | .v48 x => v48OrAll cfg (orBits (some x) (regionBits cfg b k))
    | .p2 a c => v48OrAll cfg (orBits (p2Bits cfg a c) (regionBits cfg b k))

/-- A node taken from the sharer field where it stands as a P2 pointer (R358). -/
def dropPointer (sh : Sharers) (n : Node) : Sharers :=
  match sh with
  | .p2 a b => .p2 (if a = some n then none else a) (if b = some n then none else b)
  | x => x

/-- The node is recorded exactly: as the owner or as a P2 pointer (06 R218). -/
def recordedExactly (r : LineRec) (n : Node) : Bool :=
  r.own == some n || (match r.sh with | .p2 a b => a == some n || b == some n | _ => false)

/-- The format number of a sharer field, for the counts of promotions (R377). -/
def fmtNo : Sharers → Nat
  | .p2 _ _ => 0 | .v48 _ => 1 | .all => 2

/-! ## Errors, retirement, LOOSE sets -/

/-- SET is LOOSE in slice `k` (R368). After a warm reset every set is; the list then names the exceptions. -/
def State.isLoose (s : State) (k set : Nat) : Bool := (s.slice k).allLoose.xor (spGet false (s.slice k).loose set)

/-- Sets the LOOSE bit of a set (R368). -/
def State.setLoose (s : State) (k set : Nat) : State :=
  s.modSlice k (fun c => { c with loose := spSet false c.loose set (!c.allLoose) })

/-- Way `w` of SF set `set` is retired (R367). -/
def State.sfRetired (s : State) (k set w : Nat) : Bool := (s.slice k).sfRet.contains (set, w)

/-- The stored entry of a way. -/
def State.sfAt (s : State) (k set w : Nat) : BitVec 118 := spGet 0 (s.slice k).sf (16 * set + w)
/-- Stores an entry. -/
def State.sfPut (s : State) (k set w : Nat) (e : BitVec 118) : State :=
  s.modSlice k (fun c => { c with sf := spSet 0 c.sf (16 * set + w) e })

/-- The way is recorded in the retirement table, after which no lookup reads it; a full table fences the slice (R367). What
it stored stays for the diagnostic read (R378). -/
def State.sfRetire (s : State) (k set w : Nat) : State :=
  if s.sfRetired k set w then s
  else if 256 ≤ (s.slice k).sfRet.length then s.react (.fence k 0x2A)
  else s.modSlice k (fun c => { c with sfRet := c.sfRet ++ [(set, w)] })

/-- SLCn_SF_ECCLAST of an error (R365). -/
def State.sfEccLast (s : State) (k set w : Nat) (ue : Bool) : State :=
  ((((s.setFlag F.SLC_SF_ECCLAST_VALID true k).setFlag F.SLC_SF_ECCLAST_UE ue k).fset F.SLC_SF_ECCLAST_WAY w k).fset
    F.SLC_SF_ECCLAST_SET set k)

/-- One more corrected error in the ageing interval of slice `k` (13 R507). (Log 65: DEDUCED) -/
def State.countCE (s : State) (k : Nat) : State := s.modSlice k (fun c => { c with ceNow := c.ceNow + 1 })

/-- Reads and checks one way that is not retired (R365, R367, R368): a corrected entry is written back, counted and
reported; an uncorrectable one makes the set LOOSE and retires the way. The Jig's flips are made before the check
(20 R716); a word with more errors than SECDED is sure to detect has a free outcome (19 R784). (Log 2: DESIGN CHOICE) -/
def State.sfCheckWay (s : State) (k set w : Nat) : State :=
  if s.sfRetired k set w then s
  else
    let x := s.jigRead 8 k (if sfValid (s.sfAt k set w) then some (sfLine set (s.sfAt k set w)) else none)
    let s := if x.1 = 0 then x.2 else x.2.sfPut k set w (x.2.sfAt k set w ^^^ BitVec.ofNat 118 x.1)
    let i := s.fresh
    let many := 3 ≤ popNat 118 x.1
    let s := if many then { s with fresh := i + 1 } else s
    let s := if many ∧ Config.beyondOutcome i % 2 = 1
      then s.sfPut k set w (sfEncode ((Config.beyondCode i).extractLsb' 0 110)) else s
    let bad := many ∧ Config.beyondOutcome i % 2 = 0
    match if bad then SfCheck.bad else sfCheck (s.sfAt k set w) with
    | .good _ => s
    | .corrected e =>
      ((((s.sfPut k set w e).countCE k).bump F.SLC_SF_ECCCNT_CE k).sfEccLast k set w false).corrected 0x10 (unitSlice k) none none
    | .bad =>
      (((((s.bump F.SLC_SF_ECCCNT_UE k).sfEccLast k set w true).setLoose k set).corrected 0x11 (unitSlice k) none none)
        ).sfRetire k set w

/-- Checks all 16 ways of a set, as a lookup does (R352). -/
def State.sfCheckSet (s : State) (k set : Nat) : State := forUp (fun w (s : State) => s.sfCheckWay k set w) 0 16 s

/-- The way of a set that holds a valid entry for the line, among the ways that are read (R350). -/
def State.sfWay (s : State) (k : Nat) (a : Addr) : Option Nat :=
  firstFrom (fun w =>
    !s.sfRetired k (sfSetOf a) w && sfValid (s.sfAt k (sfSetOf a) w) &&
      sfTag (s.sfAt k (sfSetOf a) w) == a.extractLsb' 22 30) 0 16

/-- The record of a line in slice `k`: that of its entry, or no holder (R350). -/
def State.recOf (s : State) (k : Nat) (a : Addr) : LineRec :=
  match s.sfWay k a with
  | some w => sfRec (s.sfAt k (sfSetOf a) w)
  | none => LineRec.none

/-- Sets REF of a way (R362). -/
def State.sfTouch (s : State) (k set w : Nat) : State :=
  let e := s.sfAt k set w
  s.sfPut k set w (sfPack true (sfTen e) (sfLine set e) (sfRec e))

/-! ## The choice of a way (R361) -/

/-- Line `a` has an open entry in slice `k`, as a line entry or under a set entry (07 R254, R281). -/
def State.lineOpen (s : State) (k : Nat) (a : Addr) : Bool :=
  (s.slice k).trk.any (fun e => match e.2 with
    | some x => x.opened && (match x.scope with
        | .line b => b == a
        | .sfSet n => n == sfSetOf a
        | .hcSet n => n == hcSetOf a)
    | none => false)

/-- A line has an open line entry in slice `k`. -/
def State.lineEntryOpen (s : State) (k : Nat) (a : Addr) : Bool :=
  (s.slice k).trk.any (fun e => match e.2 with
    | some x => x.opened && x.scope == .line a
    | none => false)

/-- Ways of a set whose valid entry belongs to tenant `t`. -/
def State.sfHeld (s : State) (k set : Nat) (t : Tenant) : Nat :=
  ((List.range 16).filter (fun w =>
    !s.sfRetired k set w && sfValid (s.sfAt k set w) && sfTen (s.sfAt k set w) == t)).length

/-- What the choice of a way comes to. -/
inductive WayChoice where
  /-- A way with VALID = 0. -/
  | free (w : Nat)
  /-- A victim. -/
  | victim (w : Nat)
  /-- No candidate: the transaction waits. -/
  | wait
deriving DecidableEq, Repr

/-- The victim among candidates, in the order of R361, and whether REF must be cleared on all of them first. -/
def State.sfVictim (s : State) (k set : Nat) (cand : List Nat) : Option (Nat × Bool) :=
  let noRef := cand.filter (fun w => !sfRef (s.sfAt k set w))
  let best (l : List Nat) : Option Nat :=
    match l.find? (fun w => (sfRec (s.sfAt k set w)).own.isNone) with
    | some w => some w
    | none => l.head?
  match best noRef with
  | some w => some (w, false)
  | none => (best cand).map (fun w => (w, true))

/-- Clears REF of the ways given. -/
def State.sfClearRef (s : State) (k set : Nat) (ws : List Nat) : State :=
  ws.foldl (fun (s : State) w =>
    let e := s.sfAt k set w
    s.sfPut k set w (sfPack false (sfTen e) (sfLine set e) (sfRec e))) s

/-- Chooses the way for a new entry of tenant `t` in a set (R361); `quota` is whether SF_QUOTA is enforced. An open
line is never a victim (07 R281), except a line under the engine's own set entry. (Log 50: DEDUCED) -/
def State.sfChoose (s : State) (k set : Nat) (t : Tenant) (quota ownSet : Bool) : WayChoice × State :=
  let isOpen (a : Addr) : Bool := if ownSet then s.lineEntryOpen k a else s.lineOpen k a
  let eligible := (List.range 16).filter (fun w =>
    !s.sfRetired k set w &&
      (!sfValid (s.sfAt k set w) || !isOpen (sfLine set (s.sfAt k set w))))
  let under := !quota || s.sfHeld k set t < (s.ten t).sfQuota
  let free := eligible.filter (fun w => !sfValid (s.sfAt k set w))
  match under, free with
  | true, w :: _ => (.free w, s)
  | _, _ =>
    let cand := eligible.filter (fun w =>
      sfValid (s.sfAt k set w) && (under || sfTen (s.sfAt k set w) == t))
    match s.sfVictim k set cand with
    | none => (.wait, s)
    | some (w, clear) => (.victim w, if clear then s.sfClearRef k set cand else s)

/-- Counts a change of format: promotions and demotions (R377). -/
def State.countFmt (s : State) (k : Nat) (old new : Sharers) : State :=
  if fmtNo old < fmtNo new then s.bump F.SLC_SF_XFMT_PROMO k
  else if fmtNo new < fmtNo old then s.bump F.SLC_SF_XFMT_DEMO k
  else s

/-- Counts what a transaction makes of an entry's sharer field: one that invalidates every sharer sets P2 before it adds
those it keeps (R359). (Log 50: DEDUCED) -/
def State.countChange (s : State) (k : Nat) (demotes : Bool) (old new : Sharers) : State :=
  if demotes then (s.countFmt k old (.p2 none none)).countFmt k (.p2 none none) new else s.countFmt k old new

/-- Writes the record of a line into its entry at `w`, or frees the entry when the record names no holder (R350). -/
def State.sfWrite (s : State) (k : Nat) (a : Addr) (t : Tenant) (w : Nat) (r : LineRec) : State :=
  if r.isEmpty then s.sfPut k (sfSetOf a) w 0
  else s.sfPut k (sfSetOf a) w (sfPack true t a r)

end Sys2Proof.Machine
end

