-- ==== Sys2Proof/Machine/HomeCache.lean ====
section
/-!
DEFINITION. The home cache of a slice (10_home_cache.md): the tag and its checks, codewords and poison, the home's copy
of a line, writing, allocation, eviction and the memory writes in flight.
-/
namespace Sys2Proof.Machine

/-! ## The tag (R389) -/

/-- XOR of the even-numbered bits (`odd` false) or odd-numbered bits of the tag's low 53 bits. -/
def tagParity (x : BitVec 53) (odd : Bool) : Bool :=
  (List.range 53).foldl (fun b i => if (i % 2 == 1) == odd then b.xor (x.getLsbD i) else b) false

/-- The tag with its two parity bits. -/
def tagEncode (x : BitVec 53) : BitVec 55 := BitVec.ofBool (tagParity x true) ++ BitVec.ofBool (tagParity x false) ++ x

/-- A tag from its fields: V, the dirty bits (each written twice), TENANT and address bits 51:18. -/
def tagPack (v d : BitVec 4) (t : Tenant) (hi : BitVec 34) : BitVec 55 :=
  let dd : BitVec 8 := BitVec.ofNat 8 ((List.range 4).foldl (fun a k => a + (if d.getLsbD k then 3 * 4 ^ k else 0)) 0)
  tagEncode (hi ++ t ++ dd ++ v)

/-- V bits. -/
def tagV (t : BitVec 55) : BitVec 4 := t.extractLsb' 0 4
/-- D_k. -/
def tagD (t : BitVec 55) (k : Nat) : Bool := t.getLsbD (4 + 2 * k)
/-- The copy D'_k. -/
def tagD' (t : BitVec 55) (k : Nat) : Bool := t.getLsbD (5 + 2 * k)
/-- Sub-block `k` is dirty: both copies are 1. -/
def tagDirty (t : BitVec 55) (k : Nat) : Bool := tagD t k && tagD' t k
/-- The dirty bits as four bits. -/
def tagDirtyBits (t : BitVec 55) : BitVec 4 :=
  BitVec.ofNat 4 ((List.range 4).foldl (fun a k => a + (if tagDirty t k then 2 ^ k else 0)) 0)
/-- TENANT. -/
def tagTen (t : BitVec 55) : Tenant := t.extractLsb' 12 7
/-- TAG: address bits 51:18. -/
def tagHi (t : BitVec 55) : BitVec 34 := t.extractLsb' 19 34

/-- What the check of a tag finds (R406). -/
inductive TagCheck where
  | good | cleanLost | mayBeDirty
deriving DecidableEq, Repr

/-- The check of R406. (Log 2: DESIGN CHOICE) -/
def tagCheck (t : BitVec 55) : TagCheck :=
  let x : BitVec 53 := t.extractLsb' 0 53
  let p0 := tagParity x false == t.getLsbD 53
  let p1 := tagParity x true == t.getLsbD 54
  let pairs := (List.range 4).all (fun k => tagD t k == tagD' t k)
  let clean := (List.range 4).all (fun k => !tagD t k)
  if p0 && p1 && pairs then .good
  else if (p0 != p1) && pairs && clean then .cleanLost
  else .mayBeDirty

/-- The sector address of a frame of set `set` (10, Organization): bits 7:0 zero. -/
def sectorAddr (set : Nat) (t : BitVec 55) : Addr :=
  let hi : Addr := ((tagHi t).zeroExtend 52) <<< 18
  let mid : BitVec 10 := BitVec.ofNat 10 set ^^^ hi.extractLsb' 18 10 ^^^ hi.extractLsb' 28 10 ^^^ hi.extractLsb' 38 10 ^^^
    (hi.extractLsb' 48 4 : BitVec 4).zeroExtend 10
  hi ||| ((mid.zeroExtend 52) <<< 8)

/-- The line address of sub-block `k` of a frame. -/
def subAddr (set : Nat) (t : BitVec 55) (k : Nat) : Addr := sectorAddr set t ||| BitVec.ofNat 52 (64 * k)

/-! ## Frames -/

/-- The frame at a set and way of slice `k`. -/
def State.frame (s : State) (k set w : Nat) : Frame := spGet Frame.free (s.slice k).hc (16 * set + w)
/-- Stores a frame. -/
def State.setFrame (s : State) (k set w : Nat) (f : Frame) : State :=
  s.modSlice k (fun c => { c with hc := spSet Frame.free c.hc (16 * set + w) f })

/-- The frame is retired, or awaits its retirement (R405). -/
def State.hcRetired (s : State) (k set w : Nat) : Bool :=
  (s.slice k).hcRet.contains (set, w) || (s.slice k).memOps.any (fun o => o.retire == some (set, w))

/-- The way is gated: ways 8 to 15 in SLEEP (R422). -/
def State.hcGated (s : State) (k w : Nat) : Bool :=
  8 ≤ w && ((s.slice k).pwr == .sleep || (s.slice k).entering == some .sleep)

/-- The tag of a frame with other V and dirty bits. -/
def Frame.retag (f : Frame) (v d : BitVec 4) : Frame :=
  if v = 0 then Frame.free else { f with tag := tagPack v d (tagTen f.tag) (tagHi f.tag) }

/-- The frame without sub-block `b`. -/
def Frame.dropSub (f : Frame) (b : Nat) : Frame :=
  let m := ~~~(BitVec.ofNat 4 (2 ^ b))
  ({ f with subs := spSet Sub.zero f.subs b Sub.zero }).retag (tagV f.tag &&& m) (tagDirtyBits f.tag &&& m)

/-- The frame with sub-block `b` clean. -/
def Frame.cleanSub (f : Frame) (b : Nat) : Frame :=
  f.retag (tagV f.tag) (tagDirtyBits f.tag &&& ~~~(BitVec.ofNat 4 (2 ^ b)))

/-- The frame with sub-block `b` written: V = 1, and dirty as given. -/
def Frame.writeSub (f : Frame) (b : Nat) (l : Line) (p : BitVec 4) (dirty : Bool) : Frame :=
  let m := BitVec.ofNat 4 (2 ^ b)
  { tag := tagPack (tagV f.tag ||| m) (if dirty then tagDirtyBits f.tag ||| m else tagDirtyBits f.tag &&& ~~~m)
      (tagTen f.tag) (tagHi f.tag),
    subs := spSet Sub.zero f.subs b ⟨l, p, 0, 0⟩ }

/-- SLCn_HC_ERRLAST of an error (R403, R418). -/
def State.hcErrLast (s : State) (k kind sub w set : Nat) : State :=
  ((((s.setFlag F.SLC_HC_ERRLAST_VALID true k).fset F.SLC_HC_ERRLAST_KIND kind k).fset F.SLC_HC_ERRLAST_SUB sub k).fset
    F.SLC_HC_ERRLAST_WAY w k).fset F.SLC_HC_ERRLAST_SET set k

/-- Records a frame in the retirement table and frees it; a full table fences the slice (R405). -/
def State.hcRecordRetired (s : State) (k set w : Nat) : State :=
  if (s.slice k).hcRet.contains (set, w) then s
  else if 128 ≤ (s.slice k).hcRet.length then s.react (.fence k 0x2A)
  else ((s.modSlice k (fun c => { c with hcRet := c.hcRet ++ [(set, w)] })).setFrame k set w Frame.free)

/-- The tenants whose HC_WAYMASK names way `w`, as a mask (R407). (Log 86: DESIGN CHOICE) -/
def State.wayTenants (s : State) (w : Nat) : BitVec 128 :=
  s.pat.tens.foldl (fun m c => if c.wayMask.getLsbD w then m ||| ((1 : BitVec 128) <<< c.ten.toNat) else m) 0

/-- A CONTAINED error for each tenant of a mask, or one for none (R407, 19 R695). (Log 86: DESIGN CHOICE) -/
def State.containedMask (s : State) (cause unit : BitVec 8) (m : BitVec 128) (addr : Option Addr) (src : Option Nat) :
    State :=
  if m = 0 then s.containedNone cause unit addr
  else forUp (fun t (s : State) => if m.getLsbD t then s.contained cause unit (BitVec.ofNat 7 t) addr src else s) 0 128 s

/-- Reads and checks the tag of one frame that is not retired (R406, R407), with the Jig's flips made before the check
(20 R716). (Log 2: DESIGN CHOICE) -/
def State.hcCheckTag (s : State) (k set w : Nat) : State :=
  if s.hcRetired k set w then s
  else
    let x := s.jigRead 0xA k (if tagV (s.frame k set w).tag != 0 then some (sectorAddr set (s.frame k set w).tag) else none)
    let s := if x.1 = 0 then x.2
      else x.2.setFrame k set w { x.2.frame k set w with tag := (x.2.frame k set w).tag ^^^ BitVec.ofNat 55 x.1 }
    let i := s.fresh
    let open_ := x.1 ≠ 0 ∧ tagCheck (s.frame k set w).tag = .good
    let s := if open_ then { s with fresh := i + 1 } else s
    let bad := open_ ∧ Config.beyondOutcome i % 2 = 0
    match if bad then TagCheck.mayBeDirty else tagCheck (s.frame k set w).tag with
    | .good => s
    | .cleanLost =>
      (((s.setFrame k set w Frame.free).bump F.SLC_HC_TAGCNT_CLEAN k).hcErrLast k 3 0 w set).corrected 0x15 (unitSlice k)
        none none
    | .mayBeDirty =>
      let m := s.wayTenants w
      let s1 := ((s.setFrame k set w Frame.free).bump F.SLC_HC_TAGCNT_LOST k).hcErrLast k 4 0 w set
      let s2 := s1.hcRecordRetired k set w
      let s3 := if 8 ≤ (s2.slice k).lost.length then s2.react (.fence k 0x2A)
        else s2.modSlice k (fun c => { c with lost := c.lost ++ [⟨set, w, m⟩] })
      s3.containedMask 0x16 (unitSlice k) m none (some (sliceSource k 7))

/-- Checks the tags of every unretired way of a set, as every lookup does (R406). -/
def State.hcCheckSet (s : State) (k set : Nat) : State := forUp (fun w (s : State) => s.hcCheckTag k set w) 0 16 s

/-- The way whose frame holds the sector of address `a` (10, Organization). -/
def State.hcWay (s : State) (k : Nat) (a : Addr) : Option Nat :=
  firstFrom (fun w =>
    let t := (s.frame k (hcSetOf a) w).tag
    !s.hcRetired k (hcSetOf a) w && tagV t != 0 && tagHi t == a.extractLsb' 18 34) 0 16

/-- The way in which the line of `a` hits (R392). -/
def State.hcHit (s : State) (k : Nat) (a : Addr) : Option Nat :=
  match s.hcWay k a with
  | some w => if (tagV (s.frame k (hcSetOf a) w).tag).getLsbD (hcSubOf a) then some w else none
  | none => none

/-! ## Codewords (R390, R403) -/

/-- A codeword's state: how its check comes out. -/
inductive CwCheck where
  | good | corrected | bad | beyond
deriving DecidableEq, Repr

/-- DEC-TED over a codeword with these bits in error: two are corrected, three detected, more are beyond the code.
(Log 2: DESIGN CHOICE) -/
def cwCheck (flips : BitVec 277) : CwCheck :=
  match pop flips with
  | 0 => .good | 1 => .corrected | 2 => .corrected | 3 => .bad | _ => .beyond

/-- One codeword of a sub-block is read (R403): `h` is 0 for data bytes 0 to 31 and 1 for the rest. The answer is the
sub-block, or none when it has been invalidated. A word beyond the code has no defined outcome (19 R784): a free
choice between uncorrectable and a word used as read, whose content is then free. The answer also says whether a dirty
codeword was poisoned. -/
def State.readCw (s : State) (k set w b h : Nat) : Bool × State :=
  let f := s.frame k set w
  let sb := spGet Sub.zero f.subs b
  let jx := s.jigRead 9 k (some (subAddr set f.tag b))
  let s0 := s
  let s := if (tagV f.tag).getLsbD b then jx.2 else s
  let flips := (if h = 0 then sb.flip0 else sb.flip1) ^^^ BitVec.ofNat 277 jx.1
  let clear (x : Sub) : Sub := if h = 0 then { x with flip0 := 0 } else { x with flip1 := 0 }
  let put (s : State) (x : Sub) : State := s.setFrame k set w { f with subs := spSet Sub.zero f.subs b x }
  let bad (s : State) : Bool × State :=
    if tagDirty f.tag b then
      let x := clear { sb with poison := sb.poison ||| (if h = 0 then 3 else 12) }
      (true, (((put s x).bump F.SLC_HC_ECCCNT_UE k).hcErrLast k 2 b w set).deferred 0x14 (unitSlice k)
        (some (tagTen f.tag)) (some (subAddr set f.tag b)) (some (sliceSource k 8)))
    else
      (false, ((((s.setFrame k set w (f.dropSub b)).countCE k).bump F.SLC_HC_ECCCNT_CE k).hcErrLast k 1 b w set).corrected 0x13
        (unitSlice k) (some (tagTen f.tag)) (some (subAddr set f.tag b)))
  if !(tagV f.tag).getLsbD b then (false, s0)
  else match cwCheck flips with
    | .good => (false, s)
    | .corrected =>
      (false, ((((put s (clear sb)).countCE k).bump F.SLC_HC_ECCCNT_CE k).hcErrLast k 0 b w set).corrected 0x12 (unitSlice k)
        (some (tagTen f.tag)) (some (subAddr set f.tag b)))
    | .bad => bad s
    | .beyond =>
      let (i, s1) := s.draw
      if Config.beyondOutcome i % 2 = 0 then bad s1
      else
        let v := Config.beyondCode i
        let half : BitVec 256 := v.extractLsb' 0 256
        let l : Line := if h = 0 then (sb.data.extractLsb' 256 256 : BitVec 256) ++ half
          else half ++ (sb.data.extractLsb' 0 256 : BitVec 256)
        let p : BitVec 4 := if h = 0 then (sb.poison.extractLsb' 2 2 : BitVec 2) ++ (v.extractLsb' 256 2 : BitVec 2)
          else (v.extractLsb' 256 2 : BitVec 2) ++ (sb.poison.extractLsb' 0 2 : BitVec 2)
        (false, put s1 (clear { sb with data := l, poison := p }))

/-- Reads and checks both codewords of a sub-block (R403), and whether one of them was poisoned. (Log 2: DESIGN CHOICE) -/
def State.readSubP (s : State) (k set w b : Nat) : Bool × State :=
  let x := s.readCw k set w b 0
  let y := x.2.readCw k set w b 1
  (x.1 || y.1, y.2)

/-- Reads and checks both codewords of a sub-block (R403). -/
def State.readSub (s : State) (k set w b : Nat) : State := (s.readSubP k set w b).2

/-- What a valid sub-block holds. -/
def State.subAt (s : State) (k set w b : Nat) : Line × BitVec 4 :=
  let x := spGet Sub.zero (s.frame k set w).subs b
  (x.data, x.poison)

/-! ## Memory writes in flight -/

/-- The last unsuperseded copy of a line among the memory operations in flight: the home's copy for reads (R398). -/
def State.opCopy (s : State) (k : Nat) (a : Addr) : Option MemOp :=
  ((s.slice k).memOps.filter (fun o => o.line == a && !o.dead)).getLast?

/-- A MemWr for the line is outstanding (06 R227), in slice `k` or by the eviction records of a failed slice (R518). -/
def State.wrPending (s : State) (k : Nat) (a : Addr) : Bool :=
  (s.slice k).memOps.any (fun o => o.line == a && !o.offer) ||
    (List.range 16).any (fun l => (s.lsl l).holdLines.contains a && s.now < (s.lsl l).holdLinesUntil)

/-- Copies of a line in flight are superseded (R398). (Log 52: DEDUCED) -/
def State.supersede (s : State) (k : Nat) (a : Addr) : State :=
  s.modSlice k (fun c => { c with memOps := c.memOps.map (fun o => if o.line = a then { o with dead := true } else o) })

/-- A message of the home to the memory chiplet of line `a` (R94): `mk` makes it from the memory address and node. -/
def State.toMemory (s : State) (a : Addr) (mk : Addr → Node → Msg) : State :=
  match s.rangeOf a with
  | none => s
  | some (_, r) =>
    let x := memOf r a
    s.send (mk x.2 (s.memNode x.1))

/-- MemWr of a line (05 R187). -/
def memWrMsg (home : Node) (k : Nat) (t : Tenant) (tag : Tag) (l : Line) (p : BitVec 4) (ma : Addr) (n : Node) : Msg :=
  mkMsg Op.memWr t home n tag (BitVec.ofNat 5 k) 0 false (poison16 p) (ma.zeroExtend 128 :: lineSlots l)

/-- MemCleanOffer of a line (05 R179). -/
def memOfferMsg (home : Node) (k : Nat) (t : Tenant) (tag : Tag) (ma : Addr) (n : Node) : Msg :=
  mkMsg Op.memCleanOffer t home n tag (BitVec.ofNat 5 k) 0 false 0 [ma.zeroExtend 128]

/-- A memory operation of nothing in particular, for the fields a caller does not set. -/
def MemOp.base (tag : Tag) (t : Tenant) (a : Addr) (l : Line) (p : BitVec 4) (deadline : Time) : MemOp :=
  { tag := tag, ten := t, line := a, data := l, poison := p, offer := false, dead := false, deadline := deadline,
    evict := none, clean := none, retire := none, ctx := none, flush := false }

/-- Sends a MemWr and keeps it until its MemWrAck; the deadline is one snoop timeout of the tenant (06 R241). -/
def State.sendMemWr (s : State) (k : Nat) (o : MemOp) : State :=
  (s.modSlice k (fun c => { c with memOps := c.memOps ++ [o] })).toMemory o.line
    (memWrMsg s.home k o.ten o.tag o.data o.poison)

/-- Sends a MemCleanOffer and keeps it until it is resolved (R399). -/
def State.sendOffer (s : State) (k : Nat) (o : MemOp) : State :=
  (s.modSlice k (fun c => { c with memOps := c.memOps ++ [o] })).toMemory o.line (memOfferMsg s.home k o.ten o.tag)

/-- TAG of the messages of eviction buffer entry `e`, of the retirements and of the write-backs of a reset or of a power
entry. None belongs to a Shed transaction, and none is a tracker index (05 R174). -/
def evictTag (e : Nat) : Tag := BitVec.ofNat 12 (0x400 + e)
def retireTag : Tag := 0x420
def flushTag : Tag := 0x421

/-- The lowest eviction buffer entry that is free (R397). -/
def State.evictFree (s : State) (k : Nat) : Option Nat :=
  firstFrom (fun e => !(s.slice k).memOps.any (fun o => o.evict == some e)) 0 32

/-! ## Allocation and eviction -/

/-- MODE of the home cache (R414): 0 ENABLED, 1 DRAINING, 2 DISABLED. -/
def State.hcMode (s : State) : Nat := s.fget F.HCM_MODE_STATUS_MODE

/-- One step of the LFSR (R401). -/
def lfsrStep (x : BitVec 16) : BitVec 16 :=
  let f := ((x.getLsbD 15).xor (x.getLsbD 13)).xor ((x.getLsbD 12).xor (x.getLsbD 10))
  (x <<< 1) ||| (if f then 1 else 0)

/-- Moves the content of a frame into eviction buffer entry `e` and frees the frame (R397). -/
def State.evictFrame (s : State) (k set w e : Nat) : State :=
  let f := s.frame k set w
  let t := tagTen f.tag
  let s0 := s.bump F.SLC_HC_EVICT_SECTORS k
  let s1 := forUp (fun b (s : State) =>
    if !(tagV f.tag).getLsbD b then s
    else
      let s1 := s.readSub k set w b
      let g := s1.frame k set w
      if !(tagV g.tag).getLsbD b then s1
      else
        let x := s1.subAt k set w b
        let o := { MemOp.base (evictTag e) t (subAddr set f.tag b) x.1 x.2 (s1.now + s1.snpTmo t) with evict := some e }
        if tagDirty g.tag b then s1.sendMemWr k o
        else if (s1.ten t).offer then s1.sendOffer k { o with offer := true }
        else s1) 0 4 s0
  s1.setFrame k set w Frame.free

/-- Chooses and prepares a frame for the sector of `a` for tenant `t` (R391, R400): the way, or none for a bypass. -/
def State.hcAllocate (s : State) (k : Nat) (a : Addr) (t : Tenant) : Option Nat × State :=
  let set := hcSetOf a
  let cand := (List.range 16).filter (fun w =>
    (s.ten t).wayMask.getLsbD w && !s.hcRetired k set w && !s.hcGated k w)
  if s.hcMode ≠ 0 ∨ cand = [] then (none, s)
  else match cand.find? (fun w => tagV (s.frame k set w).tag == 0) with
    | some w => (some w, s)
    | none =>
      let elig := cand.filter (fun w =>
        let g := (s.frame k set w).tag
        (List.range 4).all (fun b => !(tagV g).getLsbD b || !s.lineEntryOpen k (subAddr set g b)))
      match elig, s.evictFree k with
      | [], _ => (none, s.bump F.SLC_HC_EVICT_BYPASS k)
      | _, none => (none, s.bump F.SLC_HC_EVICT_BYPASS k)
      | _, some e =>
        let x := lfsrStep (s.slice k).lfsr
        let w := elig.getD (x.toNat % elig.length) 0
        (some w, (s.modSlice k (fun c => { c with lfsr := x })).evictFrame k set w e)

/-- Writes a whole line at the home (R392): into the sub-block on a hit, else in ENABLED into the sector's frame or an
allocated one, else (R414) by MemWr with TAG `tag`. `alloc` false never allocates. The MemWr's fields beyond the line are those of `o`. -/
def State.hcWriteLine (s : State) (k : Nat) (a : Addr) (t : Tenant) (l : Line) (p : BitVec 4) (tag : Tag)
    (alloc : Bool) : State :=
  let set := hcSetOf a
  let b := hcSubOf a
  match s.hcWay k a with
  | some w =>
    if (alloc && s.hcMode == 0) || (tagV (s.frame k set w).tag).getLsbD b then
      (s.supersede k a).setFrame k set w ((s.frame k set w).writeSub b l p true)
    else (s.supersede k a).sendMemWr k (MemOp.base tag t a l p (s.now + s.snpTmo t))
  | none =>
    match if alloc then s.hcAllocate k a t else (none, s) with
    | (some w, s1) =>
      (s1.supersede k a).setFrame k set w
        (({ tag := tagPack 0 0 t (a.extractLsb' 18 34), subs := [] } : Frame).writeSub b l p true)
    | (none, s1) => (s1.supersede k a).sendMemWr k (MemOp.base tag t a l p (s1.now + s1.snpTmo t))

/-- Fills a line read from memory (R392): into the sector's frame when one holds it, else into an allocated frame. The
answer says whether a frame was allocated, which starts the companion fills (R395). -/
def State.hcFillLine (s : State) (k : Nat) (a : Addr) (t : Tenant) (l : Line) (p : BitVec 4) : Bool × State :=
  let set := hcSetOf a
  let b := hcSubOf a
  match s.hcWay k a with
  | some w =>
    if s.hcMode ≠ 0 ∨ (tagV (s.frame k set w).tag).getLsbD b then (false, s)
    else (false, s.setFrame k set w ((s.frame k set w).writeSub b l p false))
  | none =>
    match s.hcAllocate k a t with
    | (some w, s1) =>
      (true, s1.setFrame k set w
        (({ tag := tagPack 0 0 t (a.extractLsb' 18 34), subs := [] } : Frame).writeSub b l p false))
    | (none, s1) => (false, s1)

/-- The home's copy of a line is lost for tenant `t` (R408, 13 R517): it misses, no unsuperseded copy is in flight, and
a lost record or the loss map of the line's logical slice names the tenant and the set. -/
def State.copyLost (s : State) (k : Nat) (a : Addr) (t : Tenant) : Bool :=
  (s.opCopy k a).isNone &&
    ((s.slice k).lost.any (fun r => r.set == hcSetOf a && r.tens.getLsbD t.toNat) ||
     (let h := s.hash a
      let ls := match spGet none s.moved h with | some l => [s.table.getD h 0, l] | none => [s.table.getD h 0]
      ls.any (fun l => spGet false (s.lsl l).lossSets (hcSetOf a) && (s.lsl l).lossTens.getLsbD t.toNat)))

/-- Looks up the line in the home cache (R392, R406): the tags of the set are checked, the hit is counted, and on a hit
its codewords are read and checked. The answer is the home's copy if the slice holds it, and whether the sub-block was
valid, in which case no speculative read is relied on (R403, 06 R226). -/
def State.hcRead (s : State) (k : Nat) (a : Addr) : Option (Line × BitVec 4) × Bool × State :=
  let s1 := s.hcCheckSet k (hcSetOf a)
  match s1.hcHit k a with
  | some w =>
    let s2 := (s1.wrapInc F.SLC_HC_HIT_COUNT k).readSub k (hcSetOf a) w (hcSubOf a)
    match s2.hcHit k a with
    | some w' => (some (s2.subAt k (hcSetOf a) w' (hcSubOf a)), true, s2)
    | none => ((s2.opCopy k a).map (fun o => (o.data, o.poison)), true, s2)
  | none =>
    let s2 := s1.wrapInc F.SLC_HC_MISS_COUNT k
    ((s2.opCopy k a).map (fun o => (o.data, o.poison)), false, s2)

/-- Poisons the home's copy in every chunk (06 R235 step 2): in the home cache, or by a MemWr of zero bytes. The bytes
that a newly allocated sub-block then holds are not given. (Log 14: DESIGN CHOICE) -/
def State.poisonCopy (s : State) (k : Nat) (a : Addr) (t : Tenant) (tag : Tag) : State :=
  match s.hcHit k a with
  | some w => s.hcWriteLine k a t (s.subAt k (hcSetOf a) w (hcSubOf a)).1 0xF tag true
  | none =>
    let s1 := s.hcWriteLine k a t 0 0xF tag true
    match s1.hcHit k a with
    | some w =>
      let i := s1.fresh
      ({ s1 with fresh := i + 1 }).setFrame k (hcSetOf a) w
        ((s1.frame k (hcSetOf a) w).writeSub (hcSubOf a) (Config.poisonedLine i) 0xF true)
    | none => s1

/-- The home's copy of a line as slice `k` holds it: in the home cache, or in a write to memory in flight. -/
def State.copyOf (s : State) (k : Nat) (a : Addr) : Option (Line × BitVec 4) :=
  match s.hcHit k a with
  | some w => some (s.subAt k (hcSetOf a) w (hcSubOf a))
  | none => (s.opCopy k a).map (fun o => (o.data, o.poison))

end Sys2Proof.Machine
end

