-- ==== Sys2Proof/Machine/Window.lean ====
section
/-!
DEFINITION. The completed-transaction window of a logical slice (07_shed_and_races.md R265 to R275): its sets, its
entries, and what a request that matches one meets.
-/
namespace Sys2Proof.Machine

/-- The window set of a key (R270). -/
def winSetOf (src : Node) (t : Tenant) (tag : Tag) : Nat :=
  ((tag.extractLsb' 0 11 : BitVec 11) ^^^ src.extractLsb' 0 11 ^^^ (src.extractLsb' 11 9 : BitVec 9).zeroExtend 11 ^^^
    (t.zeroExtend 11 <<< 4) ^^^ ((BitVec.ofBool (tag.getLsbD 11)).zeroExtend 11 <<< 10)).toNat

/-- The entries of a window set of logical slice `l`. -/
def State.win (s : State) (l set : Nat) : List WEntry := spGet [] (spGet [] s.wins l) set
/-- Replaces the entries of a window set. -/
def State.setWin (s : State) (l set : Nat) (es : List WEntry) : State :=
  { s with wins := spSet [] s.wins l (spSet [] (spGet [] s.wins l) set es) }

/-- The window classes (R267). -/
inductive WClass where
  | stored | acknowledged | repeatable
deriving DecidableEq, Repr

/-- The window class of an opcode (R267). -/
def wclass (op : BitVec 8) : WClass :=
  match op.toNat with
  | 0x01 | 0x02 | 0x05 | 0x06 => .acknowledged
  | 0x03 | 0x04 | 0x0D | 0x10 | 0x11 => .repeatable
  | _ => .stored

/-- TWIN of the window of logical slice `l` (R287). -/
def State.twin (s : State) (l : Nat) : Time := usec (2 ^ s.fget F.SLC_SHED_CTL_TWIN (s.physOf l))

/-- The entry is live (R268). -/
def State.winLive (s : State) (l : Nat) (e : WEntry) : Bool :=
  match e.st with
  | .opened => true
  | _ => decide (s.now < e.time + s.twin l)

/-- The address of element `i` of a gather or scatter (05 R182). -/
def elemAddr (m : Msg) (i : Nat) : Addr := slotField m (2 + i / 2) (64 * (i % 2)) 52

/-- The logical slice that HANDLE names (11 R429). -/
def handleSlice (m : Msg) : Nat := (clHandle m).toNat / 4096 % 16

/-- The address that decides a request's logical slice, or the logical slice itself (R265, 08 R317, R329, 11 R434). -/
def State.reqPlace (s : State) (m : Msg) : Addr ⊕ Nat :=
  match m.op.toNat with
  | 0x10 | 0x11 | 0x12 | 0x13 => .inl (elemAddr m 0)
  | 0x14 | 0x15 => .inr (m.tag.toNat % max s.pat.nActive 1)
  | 0x19 => .inr (clLslice m)
  | 0x1A | 0x1B | 0x1C | 0x1D | 0x1E => .inr (handleSlice m)
  | _ => .inl (lineAddr (msgAddr m))

/-- The entry has the key of the request (R265). -/
def keyOf (m : Msg) (e : WEntry) : Bool := e.src == m.src && e.ten == m.ten && e.tag == m.tag

/-- The live entry with the request's key, if any. -/
def State.winFind (s : State) (l : Nat) (m : Msg) : Option WEntry :=
  (s.win l (winSetOf m.src m.ten m.tag)).find? (fun e => keyOf m e && s.winLive l e)

/-- The logical slice whose window keeps the request (R265): that of its place, or for TWIN after a rehash the one its
SLICE_TABLE entry was reassigned from, while that window holds a live entry for its key (13 R523). -/
def State.winSlice (s : State) (m : Msg) : Nat :=
  match s.reqPlace m with
  | .inr l => l
  | .inl a =>
    let l := s.logOf a
    match spGet none s.moved (s.hash a) with
    | none => l
    | some old =>
      match (s.lsl old).rehashAt, s.winFind old m with
      | some t, some e => if s.now < t + s.twin old ∨ e.st = .opened then old else l
      | _, _ => l

/-- The logical slice that serves the request. -/
def State.reqSlice (s : State) (m : Msg) : Nat :=
  match s.reqPlace m with
  | .inr l => l
  | .inl a => s.logOf a

/-- What a request meets in the window (R269, R270). -/
inductive WinAns where
  /-- It goes on, with a new entry; `re` when it is executed again. -/
  | go (re : Bool)
  | dupOpen
  | resend (r : Msg)
  | quiet
  | lost
  | clash
  /-- No way is free or expired. -/
  | noWay
deriving DecidableEq, Repr

/-- The window's answer to a request (R269, R270). (Log 54: DEDUCED) -/
def State.winAsk (s : State) (l : Nat) (m : Msg) : WinAns :=
  match s.winFind l m with
  | none =>
    let es := s.win l (winSetOf m.src m.ten m.tag)
    if es.length < 16 ∨ es.any (fun e => !s.winLive l e) then .go false else .noWay
  | some e =>
    if e.op ≠ m.op ∨ e.echk ≠ m.echk then .clash
    else match e.st, wclass m.op, e.resp with
      | .opened, _, _ => .dupOpen
      | .unexecuted, _, some r => .resend r
      | .unexecuted, _, none => .quiet
      | .lost, .stored, _ => .lost
      | .lost, _, _ => .go true
      | _, .stored, some r => .resend r
      | _, .stored, none => .quiet
      | .waiting, .acknowledged, _ => .dupOpen
      | .done, .acknowledged, _ => .quiet
      | .expired, .acknowledged, _ => .go true
      | _, .repeatable, _ => .go true

/-- Makes the OPEN entry of a request (R266, R269): in place of one with its key, in a free way, or in the way of an
expired one. (Log 55: DESIGN CHOICE) -/
def State.winOpen (s : State) (l : Nat) (m : Msg) : State :=
  let set := winSetOf m.src m.ten m.tag
  let es := s.win l set
  let e : WEntry := { src := m.src, ten := m.ten, tag := m.tag, op := m.op, echk := m.echk, st := .opened, time := s.now,
                      resp := none }
  match es.findIdx? (keyOf m) with
  | some i => s.setWin l set (es.set i e)
  | none =>
    if es.length < 16 then s.setWin l set (es ++ [e])
    else match es.findIdx? (fun e => !s.winLive l e) with
      | some i => s.setWin l set (es.set i e)
      | none => s

/-- Changes the entry of a request. -/
def State.winMod (s : State) (l : Nat) (m : Msg) (f : WEntry → WEntry) : State :=
  let set := winSetOf m.src m.ten m.tag
  s.setWin l set ((s.win l set).map (fun e => if keyOf m e then f e else e))

/-- The final response of a request leaves: its entry is DONE (R266). -/
def State.winDone (s : State) (l : Nat) (m : Msg) (r : Msg) : State :=
  s.winMod l m (fun e => { e with st := if wclass m.op = .acknowledged then .waiting else .done, time := s.now,
                                  resp := if wclass m.op = .stored then some r else none })

/-- A request is answered without being executed: its entry is DONE with that response (R266). -/
def State.winUnexecuted (s : State) (l : Nat) (m : Msg) (r : Msg) : State :=
  s.winMod l m (fun e => { e with st := .unexecuted, time := s.now, resp := some r })

/-- How an Acknowledged transaction closed (R266). -/
def State.winClose (s : State) (l : Nat) (m : Msg) (st : WState) : State :=
  s.winMod l m (fun e => if e.st = .waiting then { e with st := st } else e)

/-- The entry of a request becomes LOST (R273). -/
def State.winLose (s : State) (l : Nat) (m : Msg) : State :=
  s.winMod l m (fun e => if e.st = .opened then { e with st := .lost, time := s.now } else e)

/-- Every OPEN entry of logical slice `l` becomes LOST (R273). -/
def State.winLoseAll (s : State) (l : Nat) : State :=
  { s with wins := spMod [] s.wins l (fun w => w.map (fun x => (x.1, x.2.map (fun e =>
      if e.st = .opened then { e with st := .lost, time := s.now } else e)))) }

/-- Counts and answers a request that the window does not let through (R269): the state after, or none when it goes on
or waits. `k` is the physical slice whose registers count. -/
def State.winAnswer (s : State) (l : Nat) (m : Msg) (a : WinAns) : Option State :=
  let k := s.physOf l
  match a with
  | .go _ => none
  | .noWay => none
  | .dupOpen => some (s.bump F.SLC_SHED_DUPCNT0_DUP_OPEN k)
  | .resend r => some ((s.bump F.SLC_SHED_DUPCNT0_RESENT k).send r)
  | .quiet => some (s.bump F.SLC_SHED_DUPCNT0_QUIET k)
  | .lost => some ((s.bump F.SLC_SHED_DUPCNT1_LOST k).send (plainResp m Op.homeUnavailable))
  | .clash => some ((s.bump F.SLC_SHED_DUPCNT1_TAGCLASH k).raise (sliceSource k 4) Cls.protocol (some m.ten))

end Sys2Proof.Machine
end

