-- ==== Sys2Proof/Machine/Shed.lean ====
section
/-!
DEFINITION. The Shed of a slice (07_shed_and_races.md R253 to R258): trackers, open entries, the chain, the ingress,
admission, and what holds a request back before it.
-/
namespace Sys2Proof.Machine

/-- A message that carries the tenant and the line of an internal transaction. -/
def internalMsg (t : Tenant) (a : Addr) : Msg :=
  { op := 0, len := 0, rsv := 0, ten := t, rsv23 := false, src := 0, dst := 0, tag := 0, echk := 0, poison := 0,
    rcm := false, spec := false, fspec := 0, htx := 0, body := [a.zeroExtend 128] }

/-- A transaction that has not been admitted. -/
def Txn.new (kind : TKind) (m : Msg) (port : Nat) (scope : Scope) : Txn :=
  { kind := kind, m := m, port := port, scope := scope, phase := .waiting, opened := false, admitted := 0, bound := 0,
    copies := [], sent := false, rcSent := [], kept := [], eff := m.op, constr := false, cond := false, lrec := LineRec.none,
    hadWay := false, wasOwner := false, x := none, xState := 0, data := none, dirty := false, fromMem := false, specHeld := false,
    lostCopy := false, unwritten := false, rcm := false, later := [], ackBy := 0, memRd := none, seized := [],
    rebuilt := [], answers := [] }

/-- The line a transaction's message names. -/
def Txn.line (x : Txn) : Addr := lineAddr (msgAddr x.m)

/-- Internal transactions (07, Entries, chains and admission). -/
def Txn.internal (x : Txn) : Bool :=
  match x.kind with
  | .client | .posted _ _ | .combined _ _ _ | .elem _ _ _ => false
  | _ => true

/-- Two entries conflict (R254). -/
def conflict : Scope → Scope → Bool
  | .line a, .line b => a == b
  | .line a, .sfSet n => sfSetOf a == n
  | .sfSet n, .line a => sfSetOf a == n
  | .line a, .hcSet n => hcSetOf a == n
  | .hcSet n, .line a => hcSetOf a == n
  | .sfSet m, .sfSet n => m == n
  | .hcSet m, .hcSet n => m == n
  | _, _ => false

/-- An open entry of slice `k` conflicts with the scope. -/
def State.conflictsOpen (s : State) (k : Nat) (c : Scope) : Bool :=
  (s.slice k).trk.any (fun e => match e.2 with
    | some x => x.opened && conflict x.scope c
    | none => false)

/-- Trackers of slice `k` that tenant `t` holds for its requests (12 R468). -/
def State.trackersOf (s : State) (k : Nat) (t : Tenant) : Nat :=
  ((s.slice k).trk.filter (fun e => e.1 < 960 && (match e.2 with | some x => x.m.ten == t | none => false))).length

/-- A free tracker for the transaction (R253, 12 R470). (Log 55: DESIGN CHOICE) -/
def State.freeTracker (s : State) (k : Nat) (x : Txn) : Option Nat :=
  let free (i : Nat) : Bool := (s.txn k i).isNone
  if x.internal then firstFrom free 960 64
  else if s.poolOk 960 1 (s.trackersOf k) x.m.ten then firstFrom free 0 960 else none

/-- The chain store has room for the transaction (R253). -/
def State.chainOk (s : State) (k : Nat) (x : Txn) : Bool :=
  (s.slice k).chain.length < 2048 &&
    (x.internal || ((s.slice k).chain.filter (fun y => !y.internal && y.m.ten == x.m.ten)).length < 1024)

/-- The Jig's flips on a read of the tracker, open-entry and chain arrays are a fault of the slice (R292, 20 R716); an
even number of flips escapes parity and has a free outcome (19 R784). (Log 2: DESIGN CHOICE, 42: DEDUCED) -/
def State.ttRead (s : State) (k : Nat) : State :=
  let x := s.jigRead 0xB k none
  if x.1 = 0 then x.2
  else if parityNat 128 x.1 then x.2.react (.fence k 0x17)
  else
    let i := x.2.fresh
    let s1 := { x.2 with fresh := i + 1 }
    if Config.beyondOutcome i % 2 = 0 then s1.react (.fence k 0x17) else s1

/-! ## What holds a request back -/

/-- The SF set of a line is served: no census of the serving slice, for the line's logical slice or for the one its
SLICE_TABLE entry was reassigned from, has still to close it (07 R282, 09 R373, 13 R524). -/
def State.setServed (s : State) (l : Nat) (a : Addr) : Bool :=
  let m := spGet none s.moved (s.hash a)
  (s.slice (s.physOf l)).census.all (fun c =>
    (c.lsl != l && some c.lsl != m) || (sfSetOf a < c.next && !c.opened.contains (sfSetOf a)))

/-- Requests for a line of logical slice `l` are held (01 R38, 13 R513, R516 to R518). -/
def State.held (s : State) (l : Nat) (a : Addr) : Bool :=
  let x := s.lsl l
  let old := match spGet none s.moved (s.hash a) with | some o => (s.lsl o).lossHold || s.now < (s.lsl o).holdUntil | none => false
  x.handover || x.lossHold || s.now < x.holdUntil || old || !s.setServed l a

/-- A slice serves without waking: ACTIVE or DOZE (01 R42, 18 R671). -/
def State.awake (s : State) (k : Nat) : Bool :=
  let c := s.slice k
  c.pwr == .active || c.pwr == .doze

/-- A request for the slice: it wakes a slice deeper than DOZE, and takes one in DOZE to ACTIVE, abandoning an entry into a
deeper state (01 R42, 18 R670, R671). (Log 60: DEDUCED) -/
def State.wakeSlice (s : State) (k : Nat) : State :=
  let c := s.slice k
  if c.pwr = .active then s
  else if c.pwr = .doze then s.modSlice k (fun c => { c with pwr := .active, entering := none })
  else s.modSlice k (fun c => { c with waking := true })

/-! ## Admission -/

/-- The closing bound of R258. -/
def closingBound (t : Time) : Time := 4 * t + t / 16 + usec 24

/-- The transaction is admitted with tracker `t`: its entry is open, and it acts (R255). -/
def State.admitAt (s : State) (k t : Nat) (x : Txn) : State :=
  let tmo := if x.internal then s.maxTmo else s.snpTmo x.m.ten
  (s.setTxn k t (some { x with opened := true, phase := .waiting, admitted := s.now, bound := closingBound tmo })).react
    (.start k t)

/-- Longest chain on one line or set (R287). -/
def State.noteDepth (s : State) (k : Nat) (c : Scope) : State :=
  let n := ((s.slice k).chain.filter (fun y => conflict y.scope c)).length
  s.fset F.SLC_SHED_OCC_MAXDEPTH (max (s.fget F.SLC_SHED_OCC_MAXDEPTH k) (min n 255)) k

/-- The admission point of slice `k` (R255): admitted or chained, or false when the transaction lacks a resource. -/
def State.shed (s : State) (k : Nat) (x : Txn) : Bool × State :=
  let s := s.ttRead k
  if s.conflictsOpen k x.scope then
    if s.chainOk k x then
      (true, (s.modSlice k (fun c => { c with chain := c.chain ++ [x] })).noteDepth k x.scope)
    else (false, s)
  else match s.freeTracker k x with
    | some t => (true, s.admitAt k t x)
    | none => (false, s)

/-- The transaction waits at the ingress of slice `k` (R255). -/
def State.wait (s : State) (k : Nat) (x : Txn) (count : Bool) : State :=
  let s1 := s.modSlice k (fun c => { c with ingress := c.ingress ++ [x] })
  if count then s1.wrapInc F.SLC_SHED_STALL_COUNT k else s1

/-- A request that acts in the slice itself: on one line, or at the Clamp bank. -/
def inSlice (op : BitVec 8) : Bool :=
  let n := op.toNat
  (1 ≤ n && n ≤ 9) || (0x0C ≤ n && n ≤ 0x0F) || (0x19 ≤ n && n ≤ 0x1E)

/-- A Clamp request. -/
def isClamp (op : BitVec 8) : Bool := 0x19 ≤ op.toNat && op.toNat ≤ 0x1E

/-- The request is held back from the admission point. (Log 62: DEDUCED) -/
def State.reqHeld (s : State) (m : Msg) : Bool :=
  if isClamp m.op then (s.lsl (s.reqSlice m)).clampHold
  else if inSlice m.op then s.held (s.reqSlice m) (lineAddr (msgAddr m))
  else 0x10 ≤ m.op.toNat && m.op.toNat ≤ 0x13 && (s.lsl (s.reqSlice m)).handover

/-- A waiting transaction is held back. (Log 54: DEDUCED) -/
def State.waitHeld (s : State) (x : Txn) : Bool :=
  match x.kind with
  | .client => s.reqHeld x.m
  | _ => s.held (s.logOf x.line) x.line

/-- Requests of the tenant wait at slice `k`, and not because they are held: later ones queue behind them (R255). -/
def State.queuedAhead (s : State) (k : Nat) (t : Tenant) : Bool :=
  (s.slice k).ingress.any (fun x => !x.internal && x.m.ten == t && !s.waitHeld x)

/-- A maintenance operation by address on a line whose set is not served, which is held as a request is (10 R409). -/
def State.maintHeld (s : State) (x : Txn) : Bool :=
  match x.kind with
  | .maint _ none => s.held (s.logOf x.line) x.line
  | _ => false

/-- A transaction that the home makes itself reaches slice `k`: an internal one, a write of a buffer, an element. -/
def State.shedOrWait (s : State) (k : Nat) (x : Txn) : State :=
  if x.internal then
    if s.maintHeld x then s.wait k x false
    else if !s.awake k then (s.wait k x false).wakeSlice k
    else
      let r := s.shed k x
      if r.1 then r.2 else r.2.wait k x true
  else if s.held (s.logOf x.line) x.line then s.wait k x false
  else if s.queuedAhead k x.m.ten then s.wait k x true
  else if !s.awake k then (s.wait k x false).wakeSlice k
  else
    let r := (s.wakeSlice k).shed k x
    if r.1 then r.2 else r.2.wait k x true

/-- A tracker whose entry has closed frees once no memory response is due for it (R257). -/
def State.tryFree (s : State) (k t : Nat) : State :=
  match s.txn k t with
  | none => s
  | some x =>
    if x.phase = .closed ∧ x.memRd.isNone ∧
        !(s.slice k).memOps.any (fun o => o.tag == BitVec.ofNat 12 t && o.evict.isNone && o.retire.isNone) then
      ((s.setTxn k t none).react (.way k 0)).react (.admitNext k)
    else s

/-- The SF set of a scope's lines, for transactions that wait for a way of it. -/
def scopeSf : Scope → Nat
  | .line a => sfSetOf a
  | .sfSet n => n
  | .hcSet _ => 0

/-- An open entry closes (R256, R257): a victim of it may be taken, and chained transactions admitted. -/
def State.closeTxn (s : State) (k t : Nat) : State :=
  match s.txn k t with
  | none => s
  | some x =>
    (((s.setTxn k t (some { x with opened := false, phase := .closed, copies := [], unwritten := false })).tryFree k t).react
      (.way k (scopeSf x.scope))).react (.admitNext k)

/-- The first chained transaction that conflicts neither with an open entry nor with an earlier chained one (R256). -/
def State.nextChained (s : State) (k : Nat) : List Txn → List Txn → Option Txn
  | _, [] => none
  | before, x :: t =>
    if !s.conflictsOpen k x.scope && !before.any (fun y => conflict y.scope x.scope) && (s.freeTracker k x).isSome then some x
    else s.nextChained k (before ++ [x]) t

/-- Admits one chained transaction of slice `k`, if one may be, and asks for the next (R256). -/
def State.admitChained (s : State) (k : Nat) : State :=
  match s.nextChained k [] (s.slice k).chain with
  | none => s
  | some x =>
    match s.freeTracker k x with
    | some t => ((s.modSlice k (fun c => { c with chain := c.chain.erase x })).admitAt k t x).react (.admitNext k)
    | none => s

end Sys2Proof.Machine
end

