-- ==== Sys2Proof/Machine/Coherence.lean ====
section
/-!
DEFINITION. What an admitted transaction on a line does (06_coherence_flows.md, and the requests of
08_ordering_atomics_gather.md at the home): lookup and LOOSE recall, snoops, data, the record and the completion, and
the answers and timeouts that move it on.
-/
namespace Sys2Proof.Machine

/-- Changes the transaction of a tracker. -/
def State.modTxn (s : State) (k t : Nat) (f : Txn → Txn) : State :=
  match s.txn k t with
  | some x => s.setTxn k t (some (f x))
  | none => s

/-! ## Messages of a transaction -/

/-- Slot 1 of a snoop or recovery request (05 R183). -/
def snpSlot (a : Addr) (rnode : Node) (rtag : Tag) (k : Nat) (range excl rc : Bool) : Slot :=
  (0 : BitVec 36) ++ BitVec.ofBool rc ++ BitVec.ofBool excl ++ BitVec.ofBool range ++ BitVec.ofNat 5 k ++ rtag ++ rnode ++ a

/-- A snoop or recovery request of tracker `t` of slice `k`. (Log 45: DEDUCED) -/
def State.copyMsg (s : State) (k t : Nat) (ten : Tenant) (op : BitVec 8) (dst : Node) (slot : Slot) : Msg :=
  mkMsg op ten s.home dst (BitVec.ofNat 12 t) (BitVec.ofNat 5 k) 0 false 0 [slot]

/-- MemRd of tracker `t` (05 R179, R174). -/
def memRdMsg (home : Node) (k t : Nat) (ten : Tenant) (spec : Bool) (ma : Addr) (n : Node) : Msg :=
  let base := mkMsg Op.memRd ten home n (BitVec.ofNat 12 t) (BitVec.ofNat 5 k) 0 false 0 [ma.zeroExtend 128]
  sealMsg { base with spec := spec }

/-- MemCancel of tracker `t` (05 R178). -/
def memCancelMsg (home : Node) (k t : Nat) (ten : Tenant) (_ma : Addr) (n : Node) : Msg :=
  mkMsg Op.memCancel ten home n (BitVec.ofNat 12 t) (BitVec.ofNat 5 k) 0 false 0 []

/-- Sends MemRd for the transaction's line (R225). -/
def State.sendMemRd (s : State) (k t : Nat) (spec : Bool) (tmo : Time) : State :=
  match s.txn k t with
  | none => s
  | some x =>
    (s.setTxn k t (some { x with memRd := some ⟨spec, false, s.now + tmo⟩ })).toMemory x.line
      (memRdMsg s.home k t x.m.ten spec)

/-- Sends MemCancel for a speculative read whose data is not needed (R226). -/
def State.cancelMemRd (s : State) (k t : Nat) : State :=
  match s.txn k t with
  | some x =>
    match x.memRd with
    | some r =>
      if r.spec && !r.cancelled then
        let r' := { r with cancelled := true }
        (s.setTxn k t (some { x with memRd := some r' })).toMemory x.line (memCancelMsg s.home k t x.m.ten)
      else s
    | none => s
  | none => s

/-- The transaction holds the home's copy, or dirty data, and needs no memory read (R224, R226). -/
def State.giveData (s : State) (k t : Nat) (d : Line × BitVec 4) (dirty fromMem : Bool) : State :=
  let waste := !fromMem && (match s.txn k t with | some x => x.specHeld | none => false)
  let s1 := s.modTxn k t (fun x => { x with data := some d, dirty := dirty, fromMem := fromMem,
                                             specHeld := x.specHeld && fromMem })
  let s2 := if waste then s1.wrapInc F.SLC_COH_SPECWASTE_COUNT k else s1
  if fromMem then s2 else s2.cancelMemRd k t

/-! ## Reservations (08 R320 to R325) -/

/-- Clears every reservation on a line in slice `k` (08 R321). (Log 56: DEDUCED) -/
def State.clearRsv (s : State) (k : Nat) (a : Addr) : State :=
  s.modSlice k (fun c => { c with rsv := c.rsv.map (fun e => if e.line = a then { e with set := false } else e) })

/-- The entry of a key. -/
def State.rsvOf (s : State) (k : Nat) (src : Node) (t : Tenant) : Option Rsv :=
  (s.slice k).rsv.find? (fun e => e.src == src && e.ten == t)

/-- Replaces or removes the entry of a key. -/
def State.putRsv (s : State) (k : Nat) (src : Node) (t : Tenant) (e : Option Rsv) : State :=
  s.modSlice k (fun c =>
    let rest := c.rsv.filter (fun e => !(e.src == src && e.ten == t))
    { c with rsv := match e with | some x => rest ++ [x] | none => rest })

/-- A hold is in force for the key of an entry (08 R325). -/
def State.holdOf (s : State) (k : Nat) (e : Rsv) : Bool :=
  (s.slice k).trk.any (fun y => match y.2 with
    | some x => x.phase == .hold && x.m.src == e.src && x.m.ten == e.ten
    | none => false)

/-- The entry with the earliest time among those of a list. -/
def oldestRsv (l : List Rsv) : Option Rsv :=
  l.foldl (fun b e => match b with | none => some e | some x => if e.time < x.time then some e else some x) none

/-- ReserveRd sets the reservation of its key on the line (08 R320, R323), `now` being when the CompData leaves. -/
def State.reserve (s : State) (k : Nat) (m : Msg) : State :=
  let a := lineAddr (msgAddr m)
  match s.rsvOf k m.src m.ten with
  | some e =>
    s.putRsv k m.src m.ten (some { e with line := a, set := true, fails := if e.line = a then e.fails else 0, calm := true,
                                          time := s.now })
  | none =>
    let fresh : Rsv := { src := m.src, ten := m.ten, line := a, set := true, fails := 0, calm := true, time := s.now }
    let l := (s.slice k).rsv
    if l.length < 128 then s.putRsv k m.src m.ten (some fresh)
    else
      let victim := match oldestRsv (l.filter (fun e => e.fails == 0)) with
        | some e => some e
        | none => oldestRsv (l.filter (fun e => !s.holdOf k e))
      match victim with
      | some e => ((s.putRsv k e.src e.ten none).bump F.SLC_RSV_CNT1_EVICT k).putRsv k m.src m.ten (some fresh)
      | none => s

/-- A CondWr is decided (08 R322, R324): it succeeds when its key's entry has RSV on the line. -/
def State.condTry (s : State) (k : Nat) (m : Msg) (constr : Bool) : Bool × State :=
  let a := lineAddr (msgAddr m)
  match s.rsvOf k m.src m.ten with
  | none => (false, s)
  | some e =>
    let ok := e.set && e.line == a
    let e' : Option Rsv :=
      if constr && e.line == a then
        if ok then none else some { e with set := false, fails := min (e.fails + 1) 4, calm := false }
      else some { e with set := false, fails := 0, calm := false }
    (ok, s.putRsv k m.src m.ten e')

/-! ## Operands of partial writes and atomics (05 R180, R181; 08 R327) -/

/-- The byte enables of an access of 2^size bytes at address `a`. -/
def accessBe (a : Addr) (size : Nat) : BitVec 64 := BitVec.ofNat 64 (onesMask (2 ^ size) <<< (a.toNat % 64))

/-- A slot whose operand sits at byte offset ADDR mod 16, laid over every chunk of a line. -/
def slotLine (x : Slot) : Line := lineOf x x x x

/-- The bytes, line and poison that a write request writes: BE, the line, the poison of the data written. -/
def writeOf (m : Msg) : BitVec 64 × Line × BitVec 4 :=
  match m.op.toNat with
  | 0x0E =>
    let p := if m.poison.getLsbD 0 then BitVec.ofNat 4 (2 ^ (((msgAddr m).toNat / 16) % 4)) else 0
    (accessBe (msgAddr m) (msgSize m), slotLine (msgSlot m 2), p)
  | 0x09 | 0x0A | 0x0C => (msgBe m, msgLine m 2, msgPoison4 m)
  | _ => (0xFFFFFFFFFFFFFFFF, msgLine m 2, msgPoison4 m)

/-- The write covers the whole line. -/
def fullWrite (m : Msg) : Bool := (writeOf m).1 == 0xFFFFFFFFFFFFFFFF

/-- The value at ADDR of an access of 2^size bytes in a line. -/
def operandAt (l : Line) (a : Addr) (size : Nat) : Nat := (l.toNat >>> (8 * (a.toNat % 64))) % 2 ^ (8 * 2 ^ size)

/-- A value as a two's-complement integer of `w` bits. -/
def asInt (w v : Nat) : Int := if v < 2 ^ (w - 1) then (v : Int) else (v : Int) - (2 ^ w : Nat)

/-- The operation of AOP on the old value and the operands (05 R181, 08 R327); `w` is the width in bits. -/
def atomicResult (aop w old x swap : Nat) : Nat :=
  match aop with
  | 0 => (old + x) % 2 ^ w
  | 1 => x
  | 2 => if old = x then swap else old
  | 3 => old &&& x
  | 4 => old ||| x
  | 5 => old ^^^ x
  | 6 => if asInt w old ≤ asInt w x then old else x
  | 7 => if asInt w x ≤ asInt w old then old else x
  | 8 => min old x
  | _ => max old x

/-- What an AtomicFar makes of the home's copy (08 R327, R328): the new line, the old value's slot, and whether a chunk
it touches is poisoned, when nothing is written. -/
def atomicOf (m : Msg) (d : Line × BitVec 4) : Line × Slot × Bool :=
  let a := msgAddr m
  let size := msgSize m
  let w := 8 * 2 ^ size
  let off := a.toNat % 64
  let at_ (x : Slot) : Nat := (x.toNat >>> (8 * (off % 16))) % 2 ^ w
  let old := operandAt d.1 a size
  let new := atomicResult (msgAop m) w old (at_ (msgSlot m 2)) (at_ (msgSlot m 3))
  let line := mergeLine d.1 (BitVec.ofNat 512 (new <<< (8 * off))) (accessBe a size)
  (line, BitVec.ofNat 128 (old <<< (8 * (off % 16))), d.2.getLsbD (off / 16))

/-- The request merges with, or returns, the home's copy (10 R392). -/
def needsData (eff : BitVec 8) (x : Txn) : Bool :=
  match eff.toNat with
  | 0x01 | 0x02 | 0x03 | 0x04 | 0x0D | 0x0F => true
  | 0x09 | 0x0A | 0x0C => !fullWrite x.m
  | 0x0E => x.cond
  | _ => false

/-- The request writes bytes of the line (08 R321), CondWr apart. -/
def alwaysWrites (op : BitVec 8) : Bool :=
  match op.toNat with
  | 0x09 | 0x0A | 0x0B | 0x0C | 0x0F => true
  | _ => false

/-! ## The choice of snoops (R215, R89) -/

/-- The copies to a sharer field, Q and X apart (R89, R209): node or block base, exponent, range. -/
def State.sharerCopies (s : State) (ten : Tenant) (sh : Sharers) (q : Option Node) (x : Option Node) :
    List (Node × Nat × Bool) :=
  let cfg := s.ten ten
  let rng (b : Node) (k : Nat) : List (Node × Nat × Bool) := (s.rangeCopies b k q).map (fun c => (c.1, c.2.1, true))
  match sh with
  | .p2 a b =>
    let l := (match a with | some n => [n] | none => []) ++ (match b with | some n => [n] | none => [])
    (l.eraseDups.filter (fun n => some n != q && some n != x)).map (fun n => (n, 0, false))
  | .v48 v => (List.range 48).flatMap (fun i =>
      if v.getLsbD i then match regionBlock cfg i cfg.dom 0 with
        | some (b, k) => rng b k
        | none => [] else [])
  | .all => cfg.dom.flatMap (fun d => rng d.1 d.2)

/-- Sends snoop copies of one opcode, whose timers start when they leave (R234), or those with RC = 1 (R231). -/
def State.sendCopies (s : State) (k t : Nat) (op : BitVec 8) (rc : Bool) (toOwner : Bool) (q : Node) (qtag : Tag)
    (excl : Bool) (l : List (Node × Nat × Bool)) : State :=
  match s.txn k t with
  | none => s
  | some x =>
    let ten := x.m.ten
    let a := x.line
    let mk (c : Node × Nat × Bool) : Copy :=
      { op := op, line := a, dst := c.1, k := c.2.1, range := c.2.2, toOwner := toOwner, rc := rc,
        deadline := 0 }
    let cs := l.map mk
    let s1 := s.setTxn k t (some (if rc then { x with rcSent := x.rcSent ++ cs, sent := x.sent || !cs.isEmpty }
      else { x with copies := x.copies ++ cs, sent := x.sent || !cs.isEmpty }))
    cs.foldl (fun (s : State) c => s.send (s.copyMsg k t ten op c.dst
      (snpSlot a (if rc || (excl && c.range) then q else 0) (if rc then qtag else 0) c.k c.range (excl && c.range) rc))) s1

/-- SnpX to the owner, by the request (R215). -/
def ownerSnoop (eff : BitVec 8) (x : Txn) : Option (BitVec 8) :=
  match eff.toNat with
  | 0x01 | 0x0D => some Op.snpShared
  | 0x03 => some Op.snpOnce
  | 0x02 | 0x05 => some Op.snpUnique
  | 0x06 | 0x0B => some Op.snpMakeInv
  | 0x09 | 0x0A => some (if fullWrite x.m then Op.snpMakeInv else Op.snpUnique)
  | 0x0E => if x.cond then some Op.snpUnique else none
  | 0x0F => some Op.snpUnique
  | _ => none

/-- The request invalidates the sharers (R215). -/
def invalidates (eff : BitVec 8) (x : Txn) : Bool :=
  match eff.toNat with
  | 0x02 | 0x05 | 0x06 | 0x09 | 0x0A | 0x0B | 0x0F => true
  | 0x0E => x.cond
  | _ => false

/-- Requester-collects mode can be used, its route condition apart (R230). (Log 47: DEDUCED) -/
def State.rcmWanted (s : State) (k : Nat) (x : Txn) : Bool :=
  x.m.rcm && (x.eff == Op.rdUnique || x.eff == Op.cleanUnique || x.eff == Op.makeUnique) && x.kind == .client &&
    s.flag F.SLC_COH_CTL_RCM_EN k && s.flag F.TNT_CTL_RCM x.m.ten.toNat

/-- Every copy leaves on a PEER port, or on the port of Q (R230). (Log 47: DEDUCED) -/
def State.rcmRoutes (s : State) (q : Node) (l : List (Node × Nat × Bool)) : Bool :=
  !l.isEmpty && l.all (fun c =>
    match s.routeTo c.1 with
    | some p => s.role p == .peer || s.routeTo q == some p
    | none => false)

/-! ## Data from the home (R224, R225, R392) -/

/-- The home's copy is wanted and is not known yet: it comes from memory (R225). (Log 14: DESIGN CHOICE) -/
def State.fetchLine (s : State) (k t : Nat) : State :=
  match s.txn k t with
  | none => s
  | some x =>
    match x.memRd with
    | some _ => s.modTxn k t (fun x => { x with phase := .mem })
    | none => (s.sendMemRd k t false (s.snpTmo x.m.ten)).modTxn k t (fun x => { x with phase := .mem })

/-- Looks the line up in the home cache for a transaction that needs its data (R392, R406, 10 R408). (Log 49: DEDUCED) -/
def State.hcLookup (s : State) (k t : Nat) : State :=
  match s.txn k t with
  | none => s
  | some x =>
    if !needsData x.eff x then s
    else
      let r := s.hcRead k x.line
      let s1 := r.2.2
      match r.1 with
      | some d => s1.giveData k t d false false
      | none =>
        if s1.copyLost k x.line x.m.ten then
          let i := s1.fresh
          (({ s1 with fresh := i + 1 }).modTxn k t (fun x => { x with lostCopy := true })).giveData k t
            (Config.poisonedLine i, 0xF) false false
        else if r.2.1 then s1.cancelMemRd k t else s1

/-! ## Completion -/

/-- What a transaction comes to (R217 to R222, 08 R319): the record, the line to write at the home, the response with
its STATE, and whether dirty data is passed on unwritten. -/
structure Result where
  lrec : LineRec
  write : Option (Line × BitVec 4)
  op : BitVec 8
  st : BitVec 3
  body : List Slot
  poison : BitVec 16
  unwritten : Bool
deriving DecidableEq, Repr

/-- Client states (05 R185). -/
def stI : BitVec 3 := 0
def stS : BitVec 3 := 1
def stUC : BitVec 3 := 2
def stUD : BitVec 3 := 3
def stO : BitVec 3 := 4

/-- The owner's part of the record after its answer (R217): owner if it answered O, sharer if S, removed if I. -/
def ownerAfter (cfg : TenCfg) (x : Txn) (keepOwner : Bool) : LineRec :=
  match x.x with
  | none => { x.lrec with own := none }
  | some n =>
    if x.xState = stO ∨ keepOwner then x.lrec
    else if x.xState = stS then { own := none, sh := addSharer cfg x.lrec.sh n }
    else { x.lrec with own := none }

/-- Sharers kept after a copy timeout are added back (R236, 09 R359). -/
def addKept (cfg : TenCfg) (x : Txn) (r : LineRec) : LineRec :=
  { r with sh := x.kept.foldl (fun sh b => addBlock cfg sh b.1 b.2) r.sh }

/-- The result of a transaction whose snoops are answered and whose data is known. -/
def resultOf (cfg : TenCfg) (x : Txn) : Result :=
  let q := x.m.src
  let d := x.data.getD (0, 0)
  let dataSlots := lineSlots d.1
  let gone := decide (x.xState = stI) && x.x.isSome
  let ownerOnly : LineRec := addKept cfg x ⟨some q, .p2 none none⟩
  let noHolder : LineRec := addKept cfg x LineRec.none
  let comp : Result := { lrec := x.lrec, write := none, op := Op.comp, st := stI, body := [], poison := 0, unwritten := false }
  let dataResp (r : LineRec) (st : BitVec 3) (w : Option (Line × BitVec 4)) (u : Bool) : Result :=
    { lrec := r, write := w, op := Op.compData, st := st, body := dataSlots, poison := poison16 d.2, unwritten := u }
  match x.eff.toNat with
  | 0x01 =>
    let r := ownerAfter cfg x false
    let w := if x.dirty ∧ gone then some d else none
    if r.isEmpty then dataResp ⟨some q, .p2 none none⟩ stUC w false
    else dataResp { r with sh := addSharer cfg r.sh q } stS w false
  | 0x02 =>
    if x.rcm then dataResp ownerOnly stUC (if x.dirty then some d else none) false
    else dataResp ownerOnly (if x.dirty then stUD else stUC) none x.dirty
  | 0x03 => dataResp x.lrec stI (if x.dirty ∧ gone then some d else none) false
  | 0x04 => dataResp x.lrec stI none false
  | 0x0D => dataResp (ownerAfter cfg x false) stI (if x.dirty ∧ gone then some d else none) false
  | 0x05 =>
    { comp with lrec := ownerOnly, st := if x.wasOwner then stUD else stUC, write := if x.dirty then some d else none }
  | 0x06 => { comp with lrec := ownerOnly, st := stUD }
  | 0x07 =>
    { comp with lrec := { own := if x.lrec.own = some q then none else x.lrec.own, sh := dropPointer x.lrec.sh q } }
  | 0x08 =>
    if x.lrec.own = some q then
      { comp with lrec := { x.lrec with own := none }, write := some (msgLine x.m 2, msgPoison4 x.m) }
    else comp
  | 0x0E =>
    if x.cond then
      let w := writeOf x.m
      { comp with lrec := noHolder, write := some (mergeLine d.1 w.2.1 w.1, mergePoison d.2 w.2.2 w.1), op := Op.condOk }
    else { comp with op := Op.condFail }
  | 0x0F =>
    let r := atomicOf x.m d
    { comp with
      lrec := noHolder,
      write := if r.2.2 then (if x.dirty then some d else none) else some (r.1, d.2),
      op := if msgRet x.m then Op.atomicData else Op.comp,
      body := if msgRet x.m then [r.2.1] else [],
      poison := if msgRet x.m ∧ r.2.2 then 1 else 0 }
  | 0x0C =>
    let w := writeOf x.m
    { comp with write := some (if fullWrite x.m then (w.2.1, w.2.2)
        else (mergeLine d.1 w.2.1 w.1, mergePoison d.2 w.2.2 w.1)) }
  | _ =>
    let w := writeOf x.m
    { comp with lrec := noHolder, write := some (if fullWrite x.m then (w.2.1, w.2.2)
        else (mergeLine d.1 w.2.1 w.1, mergePoison d.2 w.2.2 w.1)) }

/-- Whether a response waits for CompAck or Settle (R229, R232). -/
def needsAck (op : BitVec 8) : Bool := wclass op == .acknowledged

/-- A write of a buffer entry is behind a FenceW whose earlier writes are not all visible (08 R315). -/
def State.pendingBelow (s : State) (src : Node) (t : Tenant) (n : Nat) : Bool :=
  s.ports.any (fun e =>
    e.2.pwb.any (fun w => w.m.src == src && w.m.ten == t && decide (w.no < n)) ||
    e.2.cwb.any (fun c => c.src == src && c.ten == t && c.lines.any (fun l => decide (l.2.1 < n))))

/-- Write number `n` of a key may become visible as far as FenceW goes (08 R315). -/
def State.fenceClear (s : State) (src : Node) (t : Tenant) (n : Nat) : Bool :=
  !s.barriers.any (fun b => b.1 == src && b.2.1 == t && decide (b.2.2 ≤ n) && s.pendingBelow src t b.2.2)

/-- Fills the line read from memory, and creates the companion fills of a sector that was allocated for it (R392,
R395). -/
def State.fillFor (s : State) (k : Nat) (x : Txn) : State :=
  let cfg := s.ten x.m.ten
  if x.fromMem && cfg.rdAlloc && x.eff != Op.rdNoSnp && x.eff != Op.wrNoSnp && !x.dirty then
    match x.data with
    | none => s
    | some d =>
      let r := s.hcFillLine k x.line x.m.ten d.1 d.2
      if r.1 && cfg.fillSector then
        forUp (fun b (s : State) =>
          let a : Addr := ((x.line >>> 8) <<< 8) ||| BitVec.ofNat 52 (64 * b)
          if a = x.line then s
          else s.shedOrWait k (Txn.new .companion (internalMsg x.m.ten a) 0 (.line a))) 0 4 r.2
      else r.2
  else s

/-- Writes the record a transaction produces into the SF (R351, 09 R361, R367): done, or waiting for a way (07 R281). A
victim of the set is back-invalidated first. (Log 50: DEDUCED) -/
def State.putRecord (s : State) (k t : Nat) (x : Txn) (r : LineRec) : Bool × State :=
  let set := sfSetOf x.line
  match s.sfWay k x.line with
  | some w =>
    let s1 := s.countChange k (invalidates x.eff x) (sfRec (s.sfAt k set w)).sh r.sh
    (true, s1.sfWrite k x.line x.m.ten w r)
  | none =>
    if r.isEmpty then (true, s)
    else
      let c := s.sfChoose k set x.m.ten (!x.hadWay) false
      match c.1 with
      | .free w => (true, c.2.sfWrite k x.line x.m.ten w r)
      | .victim w =>
        let e := c.2.sfAt k set w
        let bt := Txn.new (.backInv set .alloc) (internalMsg (sfTen e) (sfLine set e)) 0 (.line (sfLine set e))
        match c.2.freeTracker k bt with
        | some i =>
          let bt' := { bt with lrec := sfRec e }
          (false, (c.2.modTxn k t (fun x => { x with phase := .way })).admitAt k i bt')
        | none => (false, c.2.modTxn k t (fun x => { x with phase := .way }))
      | .wait => if x.hadWay then (true, c.2) else (false, c.2.modTxn k t (fun x => { x with phase := .way }))

/-- Element `i` of a gather or scatter is finished with a status, data and poison (08 R330, R335). (Log 58: DEDUCED) -/
def State.elemDone (s : State) (c g i st : Nat) (d : Slot) (p : Bool) : State :=
  (s.modSlice c (fun z => { z with gathers := z.gathers.map (fun e =>
    if e.idx = g then { e with stat := spSet none e.stat i (some st), data := spSet (0, false) e.data i (d, p) } else e)
    })).react (.element c g)

/-- The slot of a gather element: its bytes at byte offset address mod 16, the other bytes zero (05 R188). -/
def elemSlot (l : Line) (a : Addr) (size : Nat) : Slot :=
  BitVec.ofNat 128 (operandAt l a size <<< (8 * (a.toNat % 16)))

/-- Releases the buffer entry of a write that has become visible (08 R308, R314). -/
def State.releaseWrite (s : State) (kind : TKind) : State :=
  match kind with
  | .posted p n => (s.modPort p (fun q => { q with pwb := q.pwb.filter (fun w => w.no != n) })).react .visible
  | .combined p e b =>
    (s.modPort p (fun q =>
      let drop (c : Combine) : Combine :=
        if c.idx = e then { c with lines := c.lines.filter (fun l => l.1 != b) } else c
      { q with cwb := (q.cwb.map drop).filter (fun c => !c.lines.isEmpty) })).react .visible
  | _ => s

/-- The HC and completion part of a transaction whose record has been written. (Log 58: DEDUCED) -/
def State.complete (s : State) (k t : Nat) (x : Txn) (r : Result) : State :=
  let a := x.line
  let ten := x.m.ten
  let tag : Tag := BitVec.ofNat 12 t
  let s0 := if x.specHeld then s.wrapInc F.SLC_COH_SPECUSED_COUNT k else s
  let s1 := if r.st = stUC ∨ r.st = stUD then s0.clearRsv k a else s0
  let s2 := match r.write with
    | some w => s1.hcWriteLine k a ten w.1 w.2 tag (x.eff != Op.wrNoSnp)
    | none => s1.fillFor k x
  let s3 := match x.kind with
    | .client =>
      let resp := respTo x.m r.op (if r.op = Op.comp ∨ r.op = Op.compData
        then fspecComp r.st (if x.rcm then x.rcSent.length else 0) else 0) x.rcm r.poison r.body
      let s3 := ((s2.send resp).winDone (s2.winSlice x.m) x.m resp)
      let s4 := if x.eff = Op.atomicFar then s3.wrapInc F.SLC_ATOM_CNT_COUNT k
        else if x.eff = Op.condWr then s3.bump (if x.cond then F.SLC_RSV_CNT0_OK else F.SLC_RSV_CNT0_FAIL) k
        else s3
      if x.eff = Op.reserveRd then s4.reserve k x.m else s4
    | .elem c g i =>
      let lost := x.lostCopy && !x.dirty
      if x.eff = Op.rdOnce then
        s2.elemDone c g i (if lost then 4 else 0)
          (if lost then 0 else elemSlot (x.data.getD (0, 0)).1 (slotField x.m 2 0 52) (slotField x.m 2 64 3).toNat)
          (!lost && (x.data.getD (0, 0)).2.getLsbD ((slotField x.m 2 0 52 : Addr).toNat / 16 % 4))
      else s2.elemDone c g i (if lost then 4 else 0) 0 false
    | kd => s2.releaseWrite kd
  let ack := x.kind == .client && needsAck x.m.op
  if ack then
    s3.modTxn k t (fun y => { y with
      lrec := r.lrec, unwritten := r.unwritten, phase := if x.rcm then .settle else .ack,
      ackBy := s.now + s.snpTmo ten })
  else if x.constr && x.eff == Op.reserveRd then
    s3.modTxn k t (fun y => { y with lrec := r.lrec, phase := .hold, ackBy := s.now + usec 2 })
  else s3.closeTxn k t

end Sys2Proof.Machine
end

