-- ==== Sys2Proof/Machine/Flow.lean ====
section
/-!
DEFINITION. The course of an admitted request on a line (06_coherence_flows.md R209 to R233, 09 R352, R369): from its
admission through lookup, recall, snoops and data to its record and completion.
-/
namespace Sys2Proof.Machine

/-- The opcodes that look neither at the record nor at the SF (06 R217, R222, 09 R352). (Log 48: DEDUCED) -/
def noSnpOp (op : BitVec 8) : Bool := op == Op.rdNoSnp || op == Op.wrNoSnp

/-! ## The end of a request -/

/-- Writes the record of a transaction that is ready and completes it, unless it must wait for a way (07 R281). (Log 48: DEDUCED) -/
def State.recordAndEnd (s : State) (k t : Nat) : State :=
  match s.txn k t with
  | none => s
  | some x =>
    let r := resultOf (s.ten x.m.ten) x
    if noSnpOp x.eff then s.complete k t x r
    else
      let p := s.putRecord k t x r.lrec
      if p.1 then p.2.complete k t x r else p.2

/-- The number of the write that last merged into line `b` of combining entry `e` of port `p`. -/
def State.lineNo (s : State) (p e b : Nat) : Nat :=
  match (s.port p).cwb.find? (fun c => c.idx == e) with
  | some c => match c.lines.find? (fun l => l.1 == b) with | some l => l.2.1 | none => 0
  | none => 0

/-- The transaction has its snoops and its data: it ends, or waits for its turn to commit (08 R309, R315). -/
def State.finish (s : State) (k t : Nat) : State :=
  match s.txn k t with
  | none => s
  | some x =>
    match x.kind with
    | .posted p w =>
      (s.modTxn k t (fun x => { x with phase := .commit })).modPort p (fun q =>
        { q with pwb := q.pwb.map (fun e => if e.no = w then { e with ready := true } else e) })
    | .combined p e b =>
      if s.fenceClear x.m.src x.m.ten (s.lineNo p e b) then s.recordAndEnd k t
      else s.modTxn k t (fun x => { x with phase := .commit })
    | _ => s.recordAndEnd k t

/-- Reads memory for a transaction that needs the home's copy and whose owner has not dirty data to give (R225, R227). -/
def State.wantMem (s : State) (k t : Nat) : State :=
  match s.txn k t with
  | none => s
  | some x =>
    if needsData x.eff x && x.data.isNone && x.memRd.isNone && !x.copies.any (·.toOwner) && !s.wrPending k x.line then
      s.sendMemRd k t false (s.snpTmo x.m.ten)
    else s

/-- Moves a transaction on that is past its lookup (R229, R231): it waits for answers, then for data, then ends. -/
def State.advance (s : State) (k t : Nat) : State :=
  match s.txn k t with
  | none => s
  | some x =>
    if !x.copies.isEmpty then s.wantMem k t
    else if needsData x.eff x && x.data.isNone then (s.modTxn k t (fun x => { x with phase := .mem })).wantMem k t
    else s.finish k t

/-! ## Snoops -/

/-- The snoops of a transaction without an owner to ask first (R215): in requester-collects mode with RC = 1 where R230
holds, and otherwise with RC = 0. `own` is the owner to snoop, `op` its snoop. -/
def State.snoopAll (s : State) (k t : Nat) (x : Txn) (own : Option (Node × BitVec 8)) (sharers : List (Node × Nat × Bool)) :
    State :=
  let q := x.m.src
  let op := match own with | some o => o.2 | none => Op.snpMakeInv
  let all := (match own with | some o => [(o.1, 0, false)] | none => []) ++ sharers
  if s.rcmWanted k x && (own.isNone || x.eff == Op.makeUnique) && s.rcmRoutes q all then
    (s.sendCopies k t Op.snpMakeInv true false q x.m.tag true all).modTxn k t (fun y => { y with rcm := true })
  else
    let s1 := match own with
      | some o => s.sendCopies k t o.2 false true q x.m.tag true [(o.1, 0, false)]
      | none => s
    s1.sendCopies k t op false false q x.m.tag true sharers

/-- Chooses and sends the snoops of a transaction (R215, R216). -/
def State.sendSnoops (s : State) (k t : Nat) : State :=
  match s.txn k t with
  | none => s
  | some x =>
    let sharers := if invalidates x.eff x then s.sharerCopies x.m.ten x.lrec.sh (some x.m.src) x.lrec.own else []
    match x.lrec.own, ownerSnoop x.eff x with
    | some o, some op =>
      let s1 := s.modTxn k t (fun y => { y with x := some o })
      if s.rcmWanted k x && x.eff != Op.makeUnique && !sharers.isEmpty then
        (s1.sendCopies k t op false true x.m.src x.m.tag true [(o, 0, false)]).modTxn k t (fun y =>
          { y with phase := .owner, later := sharers })
      else s1.snoopAll k t x (some (o, op)) sharers
    | _, _ => s.snoopAll k t x none sharers

/-- The owner of a requester-collects transaction has answered (R216, R230): the sharers are snooped. (Log 47: DEDUCED) -/
def State.ownerAnswered (s : State) (k t : Nat) : State :=
  match s.txn k t with
  | none => s
  | some x =>
    let s1 := s.modTxn k t (fun y => { y with phase := .snoop, later := [] })
    (s1.snoopAll k t x none x.later).advance k t

/-! ## Lookup -/

/-- The record is known (R209, R218): Q leaves it, the home cache is looked up, and the snoops go out. (Log 48: DEDUCED) -/
def State.afterLookup (s : State) (k t : Nat) : State :=
  match s.txn k t with
  | none => s
  | some x =>
    let q := x.m.src
    let eff := if x.eff = Op.cleanUnique ∧ !recordedExactly x.lrec q then Op.rdUnique else x.eff
    let wasOwner := eff == Op.cleanUnique && x.lrec.own == some q
    let keep := x.eff == Op.evictClean || x.eff == Op.wrBackFull
    let r : LineRec := if keep then x.lrec
      else { own := if x.lrec.own = some q then none else x.lrec.own, sh := dropPointer x.lrec.sh q }
    let s1 := s.setTxn k t (some { x with eff := eff, wasOwner := wasOwner, lrec := r, phase := .snoop })
    let s2 := (s1.hcLookup k t).sendSnoops k t
    match s2.txn k t with
    | some y => if y.phase = .owner then s2.wantMem k t else s2.advance k t
    | none => s2

/-- The LOOSE recall of a line (09 R369): RcvInv to every block of the tenant's snoop domain. -/
def State.recall (s : State) (k t : Nat) : State :=
  match s.txn k t with
  | none => s
  | some x =>
    let l := (s.ten x.m.ten).dom.flatMap (fun d => (s.rangeCopies d.1 d.2 none).map (fun c => (c.1, c.2.1, true)))
    let s1 := (s.wrapInc F.SLC_SF_RECALL_COUNT k).modTxn k t (fun y => { y with phase := .recall })
    let s2 := s1.sendCopies k t Op.rcvInv false false 0 0 false l
    if l.isEmpty then s2.afterLookup k t else s2

/-- Every answer of a LOOSE recall is in or has timed out (09 R370): the nodes that did not answer are sharers. -/
def State.recallDone (s : State) (k t : Nat) : State :=
  match s.txn k t with
  | none => s
  | some x =>
    (s.setTxn k t (some { x with lrec := addKept (s.ten x.m.ten) x LineRec.none, kept := [] })).afterLookup k t

/-- A transaction moves on after an answer or a timeout. -/
def State.moveOn (s : State) (k t : Nat) : State :=
  match s.txn k t with
  | none => s
  | some x =>
    match x.phase with
    | .recall => if x.copies.isEmpty then s.recallDone k t else s
    | .owner => if x.copies.isEmpty then s.ownerAnswered k t else s
    | .snoop | .mem => s.advance k t
    | _ => s

/-! ## Admission -/

/-- An admitted request may start a speculative read (R225, 08 R319). -/
def specOp (op : BitVec 8) : Bool :=
  op == Op.rdShared || op == Op.rdUnique || op == Op.rdOnce || op == Op.rdNoSnp || op == Op.reserveRd

/-- A request on a line has been admitted (R225, 08 R321 to R325, 09 R352): reservations, speculation, lookup. -/
def State.beginReq (s : State) (k t : Nat) : State :=
  match s.txn k t with
  | none => s
  | some x =>
    let a := x.line
    let ct := if x.eff = Op.condWr then s.condTry k x.m x.constr else (false, s)
    let s1 := if alwaysWrites x.eff || ct.1 || (needsAck x.eff && x.eff != Op.rdShared) then ct.2.clearRsv k a else ct.2
    let hold := x.eff == Op.reserveRd && s1.flag F.SLC_RSV_CTL_HOLD_EN k &&
      (match s1.rsvOf k x.m.src x.m.ten with | some e => e.fails == 4 && e.line == a | none => false)
    let s2 := if hold then s1.bump F.SLC_RSV_CNT1_HOLDS k else s1
    let s3 := s2.setTxn k t (some { x with cond := ct.1, constr := hold })
    let s4 := if specOp x.eff && s3.flag F.SLC_COH_CTL_SPEC_EN k && s3.flag F.TNT_CTL_SPEC x.m.ten.toNat &&
        !s3.wrPending k a then s3.sendMemRd k t true (s3.snpTmo x.m.ten) else s3
    if noSnpOp x.eff then s4.afterLookup k t
    else
      let s5 := s4.sfCheckSet k (sfSetOf a)
      match s5.sfWay k a with
      | some w =>
        let r := sfRec (s5.sfAt k (sfSetOf a) w)
        ((s5.sfTouch k (sfSetOf a) w).modTxn k t (fun y => { y with lrec := r, hadWay := true })).afterLookup k t
      | none => if s5.isLoose k (sfSetOf a) then s5.recall k t else s5.afterLookup k t

/-- The CondWr of the key that holds a line reaches the held transaction (08 R325), which takes it. -/
def State.takeCondWr (s : State) (k t : Nat) (m : Msg) (constr : Bool) : State :=
  match s.txn k t with
  | none => s
  | some x =>
    let c := s.condTry k m constr
    let s1 := if c.1 then c.2.clearRsv k x.line else c.2
    let y : Txn := { x with m := m, eff := Op.condWr, constr := false, cond := c.1, data := none, dirty := false,
                            fromMem := false, specHeld := false, x := none, xState := 0, phase := .snoop }
    (s1.setTxn k t (some y)).afterLookup k t

/-- Transactions that wait for a way choose again (07 R281). -/
def State.retryWays (s : State) (k : Nat) : State :=
  (s.slice k).trk.foldl (fun (s : State) e =>
    match s.txn k e.1 with
    | some x => if x.phase = .way ∧ !x.internal then s.recordAndEnd k e.1 else s
    | none => s) s

/-- Combined writes that wait behind a fence go on (08 R315). -/
def State.retryCommits (s : State) : State :=
  forUp (fun k (s : State) =>
    (s.slice k).trk.foldl (fun (s : State) e =>
      match s.txn k e.1 with
      | some x =>
        match x.phase, x.kind with
        | .commit, .combined _ _ _ => s.finish k e.1
        | _, _ => s
      | none => s) s) 0 18 s

/-- Reads of a line that waited for the end of a MemWr (06 R227) go to memory. -/
def State.retryMem (s : State) (k : Nat) (a : Addr) : State :=
  (s.slice k).trk.foldl (fun (s : State) e =>
    match s.txn k e.1 with
    | some x => if x.opened ∧ x.phase = .mem ∧ x.line = a then s.wantMem k e.1 else s
    | none => s) s

end Sys2Proof.Machine
end

