-- ==== Sys2Proof/Machine/Engines.lean ====
section
/-!
DEFINITION. The slice's internal transactions: back-invalidation (07 R281, 09 R364), companion fills (10 R395),
maintenance and the range engine (10 R409 to R412), and census (09 R373 to R375).
-/
namespace Sys2Proof.Machine

/-! ## Seizures and recovery messages -/

/-- Counts and records a seizure or copy timeout and raises its event (06 R235 to R237, R243): `f` is the counter, `kind`
the KIND, `j` the source. -/
def State.seizeEvent (s : State) (k : Nat) (f : Fld) (kind j : Nat) (a : Addr) (ten : Tenant) (kk : Nat) (node : Node) :
    State :=
  let s1 := ((s.bump f k).fset F.SLC_COH_LASTSEIZE0_ADDR_LO (a.toNat / 64 % 2 ^ 26) k).fset F.SLC_COH_LASTSEIZE0_KIND kind k
  let s2 := ((s1.setFlag F.SLC_COH_LASTSEIZE1_VALID true k).fset F.SLC_COH_LASTSEIZE1_TENANT ten.toNat k).fset
    F.SLC_COH_LASTSEIZE1_ADDR_HI (a.toNat / 2 ^ 32) k
  let s3 := (s2.fset F.SLC_COH_LASTSEIZE2_K kk k).fset F.SLC_COH_LASTSEIZE2_NODE node.toNat k
  s3.raise (sliceSource k j) Cls.seizure (some ten)

/-- Sends a SeizeNotice or RcvInv of tracker `t` whose answer is only consumed (06 R239). -/
def State.sendRecovery (s : State) (k t : Nat) (ten : Tenant) (op : BitVec 8) (a : Addr) (dst : Node) (kk : Nat)
    (range : Bool) : State :=
  let c : Copy := { op := op, line := a, dst := dst, k := kk, range := range, toOwner := false, rc := false, deadline := 0 }
  (s.modTxn k t (fun x => { x with seized := x.seized ++ [c] })).send
    (s.copyMsg k t ten op dst (snpSlot a 0 0 kk range false false))

/-- The line is seized (06 R235 steps 2 and 4): the home's copy is poisoned, reservations clear, and the error is
reported. -/
def State.seizeLine (s : State) (k t : Nat) (a : Addr) (ten : Tenant) (kk : Nat) (node : Node) : State :=
  (((s.poisonCopy k a ten (BitVec.ofNat 12 t)).clearRsv k a).seizeEvent k F.SLC_COH_SEIZECNT_OWNER 0 0 a ten kk
    node).deferred 0x24 (unitSlice k) (some ten) (some a) none

/-- Frees a way or keeps its entry for the nodes that did not answer (07 R281, 09 R364). -/
def State.backInvEntry (s : State) (k : Nat) (x : Txn) (set : Nat) (why : BackWhy) (r : LineRec) : State :=
  let stays := why == .alloc || why == .tenant
  match s.sfWay k x.line with
  | some w =>
    let s1 := s.countChange k true (sfRec (s.sfAt k set w)).sh r.sh
    let s2 := if r.isEmpty || !stays then s1.sfPut k set w 0 else s1.sfWrite k x.line x.m.ten w r
    let s3 := if !r.isEmpty && !stays then s2.setLoose k set else s2
    if why = .retire then s3.sfRetire k set w else s3
  | none => if !r.isEmpty && !stays then s.setLoose k set else s

/-! ## Back-invalidation -/

/-- Every holder of the victim has answered or timed out (07 R281). -/
def State.endBackInv (s : State) (k t : Nat) (set : Nat) (why : BackWhy) : State :=
  match s.txn k t with
  | none => s
  | some x =>
    let s1 := match x.data with
      | some d => if x.dirty then s.hcWriteLine k x.line x.m.ten d.1 d.2 (BitVec.ofNat 12 t) true else s
      | none => s
    let r := addKept (s.ten x.m.ten) x LineRec.none
    let s2 := s1.backInvEntry k x set why r
    let s3 := if why = .tenant ∧ !r.isEmpty then s2.bump F.TNT_RST_CNT_KEPT x.m.ten.toNat else s2
    s3.closeTxn k t

/-- A back-invalidation has been admitted (09 R364): SnpBackInv goes to every holder that the record names. -/
def State.beginBackInv (s : State) (k t : Nat) (set : Nat) (why : BackWhy) : State :=
  match s.txn k t with
  | none => s
  | some x =>
    let w := s.sfWay k x.line
    let r := match w with | some w => sfRec (s.sfAt k set w) | none => x.lrec
    if w.isNone && why != .surplus then s.closeTxn k t
    else
      let s1 := (s.wrapInc F.SLC_SF_BINV_COUNT k).setTxn k t (some { x with lrec := r, phase := .snoop, x := r.own })
      let s2 := match r.own with
        | some o => s1.sendCopies k t Op.snpBackInv false true 0 0 false [(o, 0, false)]
        | none => s1
      let s3 := s2.sendCopies k t Op.snpBackInv false false 0 0 false (s2.sharerCopies x.m.ten r.sh none r.own)
      match s3.txn k t with
      | some y => if y.copies.isEmpty then s3.endBackInv k t set why else s3
      | none => s3

/-- Back-invalidates the entry of a line for a reason other than an allocation, when it holds one. -/
def State.backInv (s : State) (k : Nat) (t : Tenant) (a : Addr) (why : BackWhy) : State :=
  s.shedOrWait k (Txn.new (.backInv (sfSetOf a) why) (internalMsg t a) 0 (.line a))

/-! ## Companion fills (10 R395, R396) -/

/-- The conditions under which a companion fill goes on. -/
def State.fillOk (s : State) (k : Nat) (a : Addr) : Bool :=
  s.hcMode == 0 && (match s.hcWay k a with
    | some w => !(tagV (s.frame k (hcSetOf a) w).tag).getLsbD (hcSubOf a)
    | none => false)

/-- An admitted companion fill acts: it ends at once, or sends MemRd (R395). -/
def State.companionAct (s : State) (k t : Nat) : State :=
  match s.txn k t with
  | none => s
  | some x =>
    if x.kind ≠ .companion ∨ x.phase ≠ .fill then s
    else
      let s1 := s.hcCheckSet k (hcSetOf x.line)
      if !s1.fillOk k x.line || s1.wrPending k x.line then s1.closeTxn k t
      else (s1.modTxn k t (fun x => { x with phase := .mem })).sendMemRd k t false s1.maxTmo

/-- The MemData of a companion fill (R395). -/
def State.companionData (s : State) (k t : Nat) (l : Line) (p : BitVec 4) : State :=
  match s.txn k t with
  | none => s
  | some x =>
    let s1 := if s.fillOk k x.line then (s.hcFillLine k x.line x.m.ten l p).2 else s
    s1.closeTxn k t

/-! ## Maintenance and range engine (10 R409 to R412) -/

/-- Applies OP to sub-block `b` of a frame (R409): a dirty one is written with MemWr and becomes clean or invalid at its
acknowledgement, a clean one is invalidated. -/
def State.sweepSub (s : State) (k t set w b op : Nat) (ctx : Option Nat) : State :=
  let f := s.frame k set w
  if !(tagV f.tag).getLsbD b then s
  else if tagDirty f.tag b then
    if op = 2 then s
    else
      let r := s.readSubP k set w b
      let s1 := if r.1 ∧ ctx = some 0 then r.2.bump F.HCM_RNG_STATUS_POISONED else r.2
      let x := s1.subAt k set w b
      let ten := tagTen f.tag
      let o := MemOp.base (BitVec.ofNat 12 t) ten (subAddr set f.tag b) x.1 x.2 (s1.now + s1.snpTmo ten)
      s1.sendMemWr k { o with clean := some (set, w, b, op == 1), ctx := ctx }
  else if op = 0 then s
  else s.setFrame k set w (f.dropSub b)

/-- A memory write is still awaited by the tracker (R410): its own, or for an operation by address one of the eviction
buffer for the line (R427). -/
def State.opsDue (s : State) (k t : Nat) (x : Txn) : Bool :=
  (s.slice k).memOps.any (fun o =>
    (o.tag == BitVec.ofNat 12 t && o.evict.isNone && o.retire.isNone && !o.flush) ||
      (match x.kind with
        | .maint op none => op != 2 && o.line == x.line && !o.offer && o.evict.isSome
        | _ => false))

/-- Range transactions of a context that have not closed in slice `k`. -/
def State.rangeOpen (s : State) (k ctx : Nat) : Nat :=
  let is (x : Txn) : Bool := match x.kind with | .range c _ => c == ctx | _ => false
  let c := s.slice k
  (c.trk.filter (fun e => match e.2 with | some x => x.opened && is x | none => false)).length +
    (c.chain.filter is).length + (c.ingress.filter is).length

/-- The walk of a context in slice `k`. -/
def Slice.walk (c : Slice) (ctx : Nat) : Nat := if ctx = 0 then c.walk0 else c.walk1

/-- Sets walked in the slowest active slice (R419). -/
def State.setsDone (s : State) (ctx : Nat) : Nat :=
  s.actives.foldl (fun a k => min a ((s.slice k).walk ctx - s.rangeOpen k ctx)) 1024

/-- A context ends when every active slice has walked its sets and every MemWr it sent has ended (R411). (Log 60: DEDUCED) -/
def State.rangeCheck (s : State) (ctx : Nat) : State :=
  let stop := ctx == 0 && s.flag F.HCM_RNG_STATUS_ABORTED && s.hcMode != 1
  let done := s.actives.all (fun k => (stop || 1024 ≤ (s.slice k).walk ctx) && s.rangeOpen k ctx == 0)
  if ctx = 0 then
    let f := if s.hcMode = 1 then F.HCM_MODE_STATUS_SETS_DONE else F.HCM_RNG_STATUS_SETS_DONE
    let s1 := if s.ctx0.isSome then s.fset f (s.setsDone 0) else s
    if done && s1.ctx0.isSome then ({ s1 with ctx0 := none }).setFlag F.HCM_RNG_STATUS_BUSY false else s1
  else if done && s.ctx1.isSome then { s with ctx1 := none } else s

/-- A maintenance operation or a set of the range engine whose writes have ended closes (R410, R411). -/
def State.sweepEnd (s : State) (k t : Nat) : State :=
  match s.txn k t with
  | none => s
  | some x =>
    if x.phase ≠ .wrAck ∨ s.opsDue k t x then s
    else match x.kind with
      | .maint _ _ => ((s.closeTxn k t).setFlag F.HCM_MOP_STATUS_BUSY false).fset F.HCM_MOP_STATUS_RESULT 1
      | .range c _ => (s.closeTxn k t).rangeCheck c
      | _ => s.closeTxn k t

/-- A maintenance operation has been admitted (R409, R427). -/
def State.beginMaint (s : State) (k t op : Nat) (way : Option Nat) : State :=
  match s.txn k t with
  | none => s
  | some x =>
    let s1 := s.modTxn k t (fun x => { x with phase := .wrAck })
    let s2 := match way, x.scope with
      | some w, .hcSet n =>
        let s2 := s1.hcCheckSet k n
        if s2.hcRetired k n w then s2 else forUp (fun b (s : State) => s.sweepSub k t n w b op none) 0 4 s2
      | _, _ =>
        let a := x.line
        let s2 := s1.hcCheckSet k (hcSetOf a)
        match s2.hcHit k a with
        | some w => s2.sweepSub k t (hcSetOf a) w (hcSubOf a) op none
        | none =>
          let mark (o : MemOp) : MemOp :=
            if o.line = a ∧ o.evict.isSome ∧ ((op = 1 ∧ !o.offer) ∨ (op = 2 ∧ o.offer)) then { o with dead := true } else o
          s2.modSlice k (fun c => { c with memOps := c.memOps.map mark })
    s2.sweepEnd k t

/-- A set of the range engine has been admitted (R411). -/
def State.beginRange (s : State) (k t ctx op : Nat) : State :=
  match s.txn k t, (if ctx = 0 then s.ctx0 else s.ctx1) with
  | some x, some j =>
    let n := match x.scope with | .hcSet n => n | _ => 0
    let s1 := (s.modTxn k t (fun x => { x with phase := .wrAck })).hcCheckSet k n
    let s2 := forUp (fun w (s : State) =>
      if s.hcRetired k n w || !j.ways.getLsbD w then s
      else forUp (fun b (s : State) =>
        let g := (s.frame k n w).tag
        let a := (subAddr n g b).toNat
        let mine : Bool := match j.ten with | some u => tagTen g == u | none => true
        if j.base ≤ a ∧ a ≤ j.limit ∧ mine
          then s.sweepSub k t n w b op (some ctx) else s) 0 4 s) 0 16 s1
    s2.sweepEnd k t
  | some _, none => (s.closeTxn k t).rangeCheck ctx
  | none, _ => s

/-! ## Census (09 R373 to R375) -/

/-- Changes the census of slice `k` for logical slice `l`. -/
def State.modCensus (s : State) (k l : Nat) (f : Census → Census) : State :=
  s.modSlice k (fun c => { c with census := c.census.map (fun x => if x.lsl = l then f x else x) })

/-- The census of logical slice `l` in slice `k` has closed every set: it ends, and the logical slice is SERVED
(13 R515). -/
def State.censusOver (s : State) (k l : Nat) : State :=
  match (s.slice k).census.find? (fun c => c.lsl == l) with
  | none => s
  | some c =>
    if c.next < 65536 ∨ !c.opened.isEmpty then s
    else
      let s1 := s.modSlice k (fun z => { z with census := z.census.filter (fun c => c.lsl != l) })
      let s2 := if (s1.slice k).census.isEmpty then s1.setFlag F.SLC_SF_CENSUS_ACTIVE false k else s1
      s2.modLsl l (fun x => { x with rebuilding := false })

/-- The set entry of a census set closes (R375). -/
def State.censusClose (s : State) (k t l n : Nat) : State :=
  (((s.closeTxn k t).modCensus k l (fun c => { c with opened := c.opened.filter (· != n), hints := spErase n c.hints })).bump F.SLC_SF_CENSUS_DONE k
    ).censusOver k l

/-- Surplus entries of a set that are still being back-invalidated in slice `k`. -/
def State.surplusOpen (s : State) (k n : Nat) : Bool :=
  (s.slice k).trk.any (fun e => match e.2 with
    | some x => x.opened && x.kind == .backInv n .surplus
    | none => false)

/-- Back-invalidates the surplus lines of a census set (R375), as internal trackers allow, and closes the set entry once
none is left. -/
def State.censusSurplus (s : State) (k t l n : Nat) : State :=
  match s.txn k t with
  | none => s
  | some x =>
    let step (s : State) (e : Addr × Tenant × LineRec) : State :=
      let b := Txn.new (.backInv n .surplus) (internalMsg e.2.1 e.1) 0 (.line e.1)
      match s.freeTracker k b with
      | some i =>
        (s.modTxn k t (fun x => { x with rebuilt := x.rebuilt.erase e })).admitAt k i { b with lrec := e.2.2 }
      | none => s
    let s1 := x.rebuilt.foldl step s
    match s1.txn k t with
    | some y => if y.rebuilt.isEmpty && !s1.surplusOpen k n then s1.censusClose k t l n else s1
    | none => s1

/-- The entry that a census writes: REF is 0 (R375). -/
def censusEntry (e : Addr × Tenant × LineRec) : BitVec 118 := sfPack false e.2.1 e.1 e.2.2

/-- Picks `m` victims from a list of entries in the order of R361, the lowest-numbered first. -/
def censusVictims : Nat → List (BitVec 118) → List (BitVec 118)
  | 0, _ => []
  | m + 1, l =>
    let noRef := l.filter (fun e => !sfRef e)
    let v := match noRef.find? (fun e => (sfRec e).own.isNone) with
      | some e => some e
      | none => match noRef.head? with
        | some e => some e
        | none => match l.find? (fun e => (sfRec e).own.isNone) with
          | some e => some e
          | none => l.head?
    match v with
    | some e => e :: censusVictims m (l.erase e)
    | none => []

/-- Places entries in the free unretired ways of a set. -/
def State.placeEntries (s : State) (k n : Nat) : List (BitVec 118) → State
  | [] => s
  | e :: t =>
    match firstFrom (fun w => !s.sfRetired k n w && !sfValid (s.sfAt k n w)) 0 16 with
    | some w => (s.sfPut k n w e).placeEntries k n t
    | none => s

/-- Writes the rebuilt entries of a set, with the surplus back-invalidated (R375). (Log 51: DEDUCED) -/
def State.censusBuild (s : State) (k t l n : Nat) : State :=
  match s.txn k t with
  | none => s
  | some x =>
    let entries := (x.rebuilt.filter (fun e => !e.2.2.isEmpty)).map censusEntry
    let ways := (List.range 16).filter (fun w => !s.sfRetired k n w)
    let held := (ways.filter (fun w => sfValid (s.sfAt k n w))).map (fun w => s.sfAt k n w)
    let excess := (held.length + entries.length) - ways.length
    let victims := censusVictims excess (held ++ entries)
    let s1 := ways.foldl (fun (s : State) w => if victims.contains (s.sfAt k n w) then s.sfPut k n w 0 else s) s
    let s2 := s1.placeEntries k n (entries.filter (fun e => !victims.contains e))
    (s2.modTxn k t (fun x => { x with phase := .way, rebuilt := victims.map (fun e => (sfLine n e, sfTen e, sfRec e)) })
      ).censusSurplus k t l n

/-- Changes the rebuilt record of a line. -/
def State.modRebuilt (s : State) (k t : Nat) (a : Addr) (f : Tenant → LineRec → LineRec) : State :=
  s.modTxn k t (fun x => { x with rebuilt := x.rebuilt.map (fun e => if e.1 = a then (e.1, e.2.1, f e.2.1 e.2.2) else e) })

/-- A record without the nodes of a block. (Log 51: DEDUCED) -/
def dropBlock (r : LineRec) (b : Node) (kk : Nat) : LineRec :=
  let out (o : Option Node) : Option Node := match o with | some n => if inBlock n b kk then none else some n | none => none
  { own := out r.own, sh := match r.sh with | .p2 x y => .p2 (out x) (out y) | y => y }

/-- Every CensusSnp of a set is answered or has timed out (R374): unexplained blocks are recalled. (Log 51: DEDUCED) -/
def State.censusAnswered (s : State) (k t l n : Nat) : State :=
  match s.txn k t with
  | none => s
  | some x =>
    let range := x.answers.filter (fun e => e.2.2.2.1)
    let explained (e : Addr × Node × Nat × Bool × BitVec 3) : Bool :=
      x.answers.any (fun o => !o.2.2.2.1 && o.1 == e.1 && inBlock o.2.1 e.2.1 e.2.2.1 && o.2.2.2.2 == e.2.2.2.2)
    let s1 := (range.filter explained).foldl (fun (s : State) e =>
      s.modRebuilt k t e.1 (fun ten r => { r with sh := addBlock (s.ten ten) r.sh e.2.1 e.2.2.1 })) s
    let bad := range.filter (fun e => !explained e)
    let tenOf (a : Addr) : Tenant := match x.rebuilt.find? (fun e => e.1 == a) with | some e => e.2.1 | none => 0
    let step (s : State) (e : Addr × Node × Nat × Bool × BitVec 3) : State :=
      let c : Copy := { op := Op.rcvInv, line := e.1, dst := e.2.1, k := e.2.2.1, range := true, toOwner := false, rc := false,
                        deadline := 0 }
      (((s.wrapInc F.SLC_SF_RECALL_COUNT k).modRebuilt k t e.1 (fun _ r => dropBlock r e.2.1 e.2.2.1)).modTxn k t
        (fun x => { x with copies := x.copies ++ [c] })).send
          (s.copyMsg k t (tenOf e.1) Op.rcvInv e.2.1 (snpSlot e.1 0 0 e.2.2.1 true false false))
    let s2 := bad.foldl step s1
    if bad.isEmpty then s2.censusBuild k t l n
    else s2.modTxn k t (fun x => { x with phase := .censusRecall })

/-- The CensusSnp copies that a hint asks for (R373): exact to the owner and the pointers, range to regions or domain. -/
def State.hintCopies (s : State) (n : Nat) (e : BitVec 118) : List Copy :=
  let r := sfRec e
  let ten := sfTen e
  let own : List (Node × Nat × Bool) := match r.own with | some o => [(o, 0, false)] | none => []
  (own ++ s.sharerCopies ten r.sh none r.own).map (fun c =>
    { op := Op.censusSnp, line := sfLine n e, dst := c.1, k := c.2.1, range := c.2.2, toOwner := false, rc := false,
      deadline := 0 })

/-- A census set entry has been admitted (R373). -/
def State.beginCensus (s : State) (k t l : Nat) : State :=
  match s.txn k t with
  | none => s
  | some x =>
    let n := match x.scope with | .sfSet n => n | _ => 0
    let hs := match (s.slice k).census.find? (fun c => c.lsl == l) with
      | some c => spGet [] c.hints n
      | none => []
    let cs := hs.flatMap (s.hintCopies n)
    let tenOf (a : Addr) : Tenant := match hs.find? (fun e => sfLine n e == a) with | some e => sfTen e | none => 0
    let y := { x with phase := .snoop, copies := cs, rebuilt := hs.map (fun e => (sfLine n e, sfTen e, LineRec.none)) }
    let s1 := s.setTxn k t (some y)
    let s2 := cs.foldl (fun (s : State) c =>
      s.send (s.copyMsg k t (tenOf c.line) Op.censusSnp c.dst (snpSlot c.line 0 0 c.k c.range false false))) s1
    if cs.isEmpty then s2.censusAnswered k t l n else s2

/-- A census or engine transaction moves on after an answer or a timeout. -/
def State.moveEngine (s : State) (k t : Nat) : State :=
  match s.txn k t with
  | none => s
  | some x =>
    match x.kind, x.scope with
    | .backInv set why, _ => if x.phase = .snoop ∧ x.copies.isEmpty then s.endBackInv k t set why else s
    | .census l, .sfSet n =>
      if !x.copies.isEmpty then s
      else if x.phase = .snoop then s.censusAnswered k t l n
      else if x.phase = .censusRecall then s.censusBuild k t l n
      else s
    | _, _ => s.moveOn k t

/-- Census sets of slice `k` whose surplus waits go on. -/
def State.retrySurplus (s : State) (k : Nat) : State :=
  (s.slice k).trk.foldl (fun (s : State) e =>
    match s.txn k e.1 with
    | some x =>
      match x.kind, x.scope with
      | .census l, .sfSet n => if x.phase = .way then s.censusSurplus k e.1 l n else s
      | _, _ => s
    | none => s) s

/-- The next set of a census is opened (R373): at most 48 at once. -/
def State.censusStart (s : State) (k : Nat) : State :=
  match (s.slice k).census.find? (fun c => c.ready && decide (c.next < 65536)) with
  | none => s
  | some c =>
    if 48 ≤ c.opened.length then s
    else
      let n := c.next
      (s.modCensus k c.lsl (fun c => { c with next := n + 1, opened := c.opened ++ [n] })).shedOrWait k
        (Txn.new (.census c.lsl) (internalMsg 0 0) 0 (.sfSet n))

end Sys2Proof.Machine
end

