-- ==== Sys2Proof/Machine/Answers.lean ====
section
/-!
DEFINITION. The answers of clients and memory chiplets to what the home has sent, and the timeouts in their place
(06 R211, R226 to R241, 07 R264, 10 R396 to R399, 09 R370, R374). An answer that matches nothing is case 0x8 of 05 R193.
-/
namespace Sys2Proof.Machine

/-! ## Snoop responses -/

/-- The STATE and data that a snoop's column of R211 lists. -/
def legalAnswer (op : BitVec 8) (st : BitVec 3) (data : Bool) : Bool :=
  if op = Op.snpShared then (if data then st == stI || st == stO else st == stI || st == stS)
  else if op = Op.snpOnce then (if data then st == stI || st == stUD || st == stO else st == stI || st == stS || st == stUC)
  else if op = Op.snpMakeInv then !data && st == stI
  else st == stI

/-- The tracker and slice that an answer names (05 R174). -/
def msgSlice (m : Msg) : Nat := m.htx.toNat
def msgTrk (m : Msg) : Nat := m.tag.toNat

/-- The copy that an answer matches (03 R92): SRC and AGG, of one of the opcodes given. (Log 49: DEDUCED) -/
def matchCopy (m : Msg) (ops : List (BitVec 8)) (l : List Copy) : Option Copy :=
  l.find? (fun c => c.dst == m.src && c.range == msgAgg m && ops.contains c.op)

/-- The tenant of a copy's line: that of the transaction, or of the line in a census set. -/
def Txn.copyTen (x : Txn) (c : Copy) : Tenant :=
  match x.kind with
  | .census _ => match x.rebuilt.find? (fun e => e.1 == c.line) with | some e => e.2.1 | none => x.m.ten
  | _ => x.m.ten

/-- A SnpRsp or SnpRspData (R211, R216, R264). -/
def State.snoopAnswer (s : State) (p : Nat) (m : Msg) (isData : Bool) : State :=
  let k := msgSlice m
  let t := msgTrk m
  match s.txn k t with
  | none => s.msgCase p m 8
  | some x =>
    match matchCopy m [Op.snpShared, Op.snpUnique, Op.snpOnce, Op.snpMakeInv, Op.snpBackInv] x.copies with
    | none => s.msgCase p m 8
    | some c =>
      if m.ten ≠ x.m.ten ∨ msgDirty m ≠ isData ∨ !legalAnswer c.op (msgState m) isData then s.msgCase p m 8
      else
        let y := { x with copies := x.copies.erase c, xState := if c.toOwner then msgState m else x.xState }
        let s1 := s.setTxn k t (some y)
        let s2 := if !isData then s1
          else if c.toOwner then s1.giveData k t (msgLine m 1, msgPoison4 m) true false
          else s1.wrapInc F.SLC_SHED_XDATA_COUNT k
        s2.moveEngine k t

/-- The timer of an exact snoop to the recorded owner ends (R235). (Log 9: DESIGN CHOICE, 45: DEDUCED) -/
def State.ownerTimeout (s : State) (k t : Nat) : State :=
  match s.txn k t with
  | none => s
  | some x =>
    match x.copies.find? (fun c => c.toOwner && c.deadline != 0) with
    | none => s
    | some c =>
      let y := { x with copies := x.copies.erase c, xState := stI, lrec := { x.lrec with own := none } }
      let s0 := (s.until c.deadline).setTxn k t (some y)
      let counted := match x.kind with
        | .backInv _ .tenant => s0.bump F.TNT_RST_CNT_SEIZED x.m.ten.toNat
        | _ => s0
      let s1 := counted.seizeLine k t x.line x.m.ten 0 c.dst
      let s2 := (s1.sendRecovery k t x.m.ten Op.seizeNotice x.line c.dst 0 false).giveData k t
        ((s1.copyOf k x.line).getD (0, 0xF)) false false
      s2.moveEngine k t

/-- The timer of another snoop copy ends (R236). (Log 45: DEDUCED) -/
def State.sharerTimeout (s : State) (k t : Nat) (dst : Node) (agg : Bool) : State :=
  match s.txn k t with
  | none => s
  | some x =>
    match x.copies.find? (fun c =>
      c.dst == dst && c.range == agg && !c.toOwner && c.op != Op.rcvInv && c.op != Op.censusSnp && c.deadline != 0) with
    | none => s
    | some c =>
      let y := { x with copies := x.copies.erase c, kept := x.kept ++ [(c.dst, c.k)] }
      let s1 := ((s.until c.deadline).setTxn k t (some y)).seizeEvent k F.SLC_COH_SEIZECNT_SHARER 1 1 x.line x.m.ten c.k c.dst
      (s1.sendRecovery k t x.m.ten Op.rcvInv x.line c.dst c.k c.range).moveEngine k t

/-! ## Closing (R229, R232, R237, R238) -/

/-- The tracker of slice `k` on which the request that a follow-on message names waits. -/
def State.waiting (s : State) (k : Nat) (m : Msg) (ph : Phase) : Option Nat :=
  ((s.slice k).trk.find? (fun e => match e.2 with
    | some x => x.opened && x.phase == ph && x.kind == .client && x.m.src == m.src && x.m.ten == m.ten && x.m.tag == m.tag
    | none => false)).map (·.1)

/-- The slice and tracker on which the request of a follow-on message waits. -/
def State.waitingAt (s : State) (m : Msg) (ph : Phase) : Option (Nat × Nat) :=
  (List.range 18).findSome? (fun k => (s.waiting k m ph).map (fun t => (k, t)))

/-- A CompAck or Settle (R229, R232): the entry closes. -/
def State.followOn (s : State) (p : Nat) (m : Msg) (ph : Phase) : State :=
  match s.waitingAt m ph with
  | none => s.msgCase p m 8
  | some (k, t) =>
    match s.txn k t with
    | some x => (s.winClose (s.winSlice x.m) x.m .done).closeTxn k t
    | none => s

/-- Writes a record at once: into the line's entry, or a free way; a set without one is LOOSE by R367 and R368. (Log 50: DEDUCED) -/
def State.putNow (s : State) (k : Nat) (a : Addr) (t : Tenant) (r : LineRec) : State :=
  match s.sfWay k a with
  | some w => (s.countFmt k (sfRec (s.sfAt k (sfSetOf a) w)).sh r.sh).sfWrite k a t w r
  | none =>
    match s.sfChoose k (sfSetOf a) t false false with
    | (.free w, s1) => s1.sfWrite k a t w r
    | (_, s1) => if r.isEmpty then s1 else s1.setLoose k (sfSetOf a)

/-- The settle timer ends (R237). (Log 50: DEDUCED) -/
def State.settleTimeout (s : State) (k t : Nat) : State :=
  match s.txn k t with
  | none => s
  | some x =>
    if x.phase ≠ .settle then s
    else
      let q := x.m.src
      let cfg := s.ten x.m.ten
      let sh := x.rcSent.foldl (fun sh c => addBlock cfg sh c.dst (if c.range then c.k else 0)) x.lrec.sh
      let s1 := x.rcSent.foldl (fun (s : State) c => s.sendRecovery k t x.m.ten Op.rcvInv x.line c.dst c.k c.range)
        (s.until x.ackBy)
      let s2 := (s1.sendRecovery k t x.m.ten Op.seizeNotice x.line q 0 false).putNow k x.line x.m.ten { own := none, sh := sh }
      (s2.seizeEvent k F.SLC_COH_SEIZECNT_SETTLE 2 2 x.line x.m.ten 0 q).modTxn k t (fun y =>
        { y with phase := .seizeClose, ackBy := s2.now + s2.snpTmo x.m.ten })

/-- The entry of a seized requester closes (R237 step 5). -/
def State.seizeClose (s : State) (k t : Nat) : State :=
  match s.txn k t with
  | none => s
  | some x => if x.phase = .seizeClose then (s.winClose (s.winSlice x.m) x.m .expired).closeTxn k t else s

/-- CompAck has not arrived in time (R238, 07 R275). -/
def State.compAckTimeout (s : State) (k t : Nat) : State :=
  match s.txn k t with
  | none => s
  | some x =>
    if x.phase ≠ .ack then s
    else
      let s0 := s.until x.ackBy
      let s1 := match x.data with
        | some d => if x.unwritten then s0.hcWriteLine k x.line x.m.ten d.1 d.2 (BitVec.ofNat 12 t) true else s0
        | none => s0
      (((s1.bump F.SLC_COH_TMOCNT_ACK k).winClose (s1.winSlice x.m) x.m .expired).closeTxn k t)

/-- A SeizeAck (R239). -/
def State.seizeAck (s : State) (p : Nat) (m : Msg) : State :=
  let k := msgSlice m
  let t := msgTrk m
  match s.txn k t with
  | none => s.msgCase p m 8
  | some x =>
    match x.seized.find? (fun c => c.op == Op.seizeNotice && c.dst == m.src) with
    | none => s.msgCase p m 8
    | some c =>
      if m.ten ≠ x.copyTen c then s.msgCase p m 8
      else
        let s1 := s.modTxn k t (fun x => { x with seized := x.seized.erase c })
        if x.phase = .seizeClose ∧ m.src = x.m.src then s1.seizeClose k t else s1

/-! ## Recalls (09 R370) -/

/-- A RcvInvRsp: of a recall, whose dirty data is written to the home's copy, or of another RcvInv (R239). -/
def State.rcvInvRsp (s : State) (p : Nat) (m : Msg) : State :=
  let k := msgSlice m
  let t := msgTrk m
  match s.txn k t with
  | none => s.msgCase p m 8
  | some x =>
    match matchCopy m [Op.rcvInv] x.copies with
    | some c =>
      if m.ten ≠ x.copyTen c then s.msgCase p m 8
      else
        let s1 := s.setTxn k t (some { x with copies := x.copies.erase c })
        let s2 := if msgDirty m
          then s1.hcWriteLine k c.line (x.copyTen c) (msgLine m 1) (msgPoison4 m) (BitVec.ofNat 12 t) true else s1
        s2.moveEngine k t
    | none =>
      match matchCopy m [Op.rcvInv] x.seized with
      | some c =>
        if m.ten ≠ x.copyTen c then s.msgCase p m 8
        else s.modTxn k t (fun x => { x with seized := x.seized.erase c })
      | none => s.msgCase p m 8

/-- A recall copy times out (09 R370): the home's copy is poisoned and the block's nodes are sharers. (Log 56: DEDUCED) -/
def State.recallTimeout (s : State) (k t : Nat) (a : Addr) (dst : Node) : State :=
  match s.txn k t with
  | none => s
  | some x =>
    match x.copies.find? (fun c => c.op == Op.rcvInv && c.line == lineAddr a && c.dst == dst && c.deadline != 0) with
    | none => s
    | some c =>
      let ten := x.copyTen c
      let y := { x with copies := x.copies.erase c,
                        kept := match x.kind with | .census _ => x.kept | _ => x.kept ++ [(c.dst, c.k)] }
      let s1 := ((s.until c.deadline).setTxn k t (some y)).poisonCopy k c.line ten (BitVec.ofNat 12 t)
      let s2 := match x.kind with
        | .census _ => s1.modRebuilt k t c.line (fun ten r => { own := none, sh := addBlock (s.ten ten) r.sh c.dst c.k })
        | _ => s1
      let s3 := (s2.seizeEvent k F.SLC_COH_SEIZECNT_OWNER 0 0 c.line ten c.k c.dst).deferred 0x24 (unitSlice k) (some ten)
        (some c.line) none
      s3.moveEngine k t

/-! ## Census (09 R374, 07 R283) -/

/-- A CensusRsp contributes to its line's record (09 R374). (Log 49: DEDUCED) -/
def State.censusRsp (s : State) (p : Nat) (m : Msg) : State :=
  let k := msgSlice m
  let t := msgTrk m
  match s.txn k t with
  | none => s.msgCase p m 8
  | some x =>
    match matchCopy m [Op.censusSnp] (x.copies.filter (fun c => x.copyTen c == m.ten)) with
    | none => s.msgCase p m 8
    | some c =>
      let st := msgState m
      let own := st == stUC || st == stUD || st == stO
      let s1 := s.setTxn k t (some { x with
        copies := x.copies.erase c,
        answers := if own then x.answers ++ [(c.line, c.dst, c.k, c.range, st)] else x.answers })
      let s2 := s1.modRebuilt k t c.line (fun ten r =>
        if c.range then (if msgHit m && !own then { r with sh := addBlock (s.ten ten) r.sh c.dst c.k } else r)
        else if own then { r with own := some c.dst }
        else if st = stS then { r with sh := addSharer (s.ten ten) r.sh c.dst }
        else r)
      s2.moveEngine k t

/-- A census snoop times out (07 R283). (Log 51: DEDUCED) -/
def State.censusTimeout (s : State) (k t : Nat) (a : Addr) (dst : Node) (agg : Bool) : State :=
  match s.txn k t with
  | none => s
  | some x =>
    match x.copies.find? (fun c =>
      c.op == Op.censusSnp && c.line == lineAddr a && c.dst == dst && c.range == agg && c.deadline != 0) with
    | none => s
    | some c =>
      let ten := x.copyTen c
      let s1 := ((s.until c.deadline).setTxn k t (some { x with copies := x.copies.erase c })).seizeLine k t c.line ten
        (if c.range then c.k else 0) c.dst
      let s2 := if c.range then
          (s1.sendRecovery k t ten Op.rcvInv c.line c.dst c.k true).modRebuilt k t c.line (fun u r =>
            { own := none, sh := addBlock (s.ten u) r.sh c.dst c.k })
        else s1.sendRecovery k t ten Op.seizeNotice c.line c.dst 0 false
      s2.moveEngine k t

/-! ## Memory reads (R226, R241, 10 R395) -/

/-- The transaction has no use for the data of its memory read (R226, R227). -/
def Txn.dataUnused (x : Txn) : Bool :=
  x.data.isSome || !x.opened || !(x.phase == .snoop || x.phase == .mem || x.phase == .owner || x.phase == .recall) ||
    (x.kind != .companion && !needsData x.eff x)

/-- MemData (R226, R280, 10 R395). (Log 49: DEDUCED) -/
def State.memData (s : State) (p : Nat) (m : Msg) : State :=
  let k := msgSlice m
  let t := msgTrk m
  match s.txn k t with
  | none => s.msgCase p m 8
  | some x =>
    match x.memRd with
    | none => s.msgCase p m 8
    | some r =>
      if m.ten ≠ x.m.ten then s.msgCase p m 8
      else
        let s1 := s.modTxn k t (fun x => { x with memRd := none })
        if r.cancelled || x.dataUnused || (x.kind != .companion && s.wrPending k x.line) then
          let s2 := s1.wrapInc F.SLC_COH_SPECWASTE_COUNT k
          if x.opened then s2.moveEngine k t else s2.tryFree k t
        else if x.kind = .companion then s1.companionData k t (msgLine m 1) (msgPoison4 m)
        else
          let s2 := s1.modTxn k t (fun x => { x with specHeld := r.spec })
          (s2.giveData k t (msgLine m 1, msgPoison4 m) false true).moveEngine k t

/-- MemCancelled (05 R178): the memory wait of the tracker ends. -/
def State.memCancelled (s : State) (p : Nat) (m : Msg) : State :=
  let k := msgSlice m
  let t := msgTrk m
  match s.txn k t with
  | none => s.msgCase p m 8
  | some x =>
    match x.memRd with
    | none => s.msgCase p m 8
    | some r =>
      if m.ten ≠ x.m.ten ∨ !r.cancelled then s.msgCase p m 8
      else
        let s1 := (s.modTxn k t (fun x => { x with memRd := none })).wrapInc F.SLC_COH_SPECWASTE_COUNT k
        if x.opened then s1.moveEngine k t else s1.tryFree k t

/-- Counts a memory timeout and raises the memory event (R241). -/
def State.memEvent (s : State) (k : Nat) (t : Tenant) : State :=
  (s.bump F.SLC_COH_TMOCNT_MEM k).raise (sliceSource k 3) Cls.memory (some t)

/-- A MemRd has no response in time (R241). (Log 14: DESIGN CHOICE, 49: DEDUCED) -/
def State.memRdTimeout (s : State) (k t : Nat) : State :=
  match s.txn k t with
  | none => s
  | some x =>
    match x.memRd with
    | none => s
    | some r =>
      if x.kind = .companion then s
      else
        let s1 := (((s.until r.deadline).modTxn k t (fun x => { x with memRd := none })).memEvent k x.m.ten)
        if r.cancelled || x.dataUnused then (if x.opened then s1.moveEngine k t else s1.tryFree k t)
        else
          let i := s1.fresh
          let s2 := ({ s1 with fresh := i + 1 }).deferred 0x25 (unitSlice k) (some x.m.ten) (some x.line) none
          (s2.giveData k t (Config.poisonedLine i, 0xF) false false).moveEngine k t

/-- A companion fill's MemRd has no response in time (10 R396). -/
def State.companionTimeout (s : State) (k t : Nat) : State :=
  match s.txn k t with
  | none => s
  | some x =>
    match x.memRd with
    | some r =>
      if x.kind = .companion then
        (((s.until r.deadline).modTxn k t (fun x => { x with memRd := none })).bump F.SLC_COH_TMOCNT_MEM k).closeTxn k t
      else s
    | none => s

/-! ## Memory writes and offers (R241, 10 R397 to R399, R405, R410) -/

/-- What follows when a memory write has its acknowledgement (`ok`) or has timed out. -/
def State.memOpEnd (s : State) (k : Nat) (o : MemOp) (ok : Bool) : State :=
  let s1 := s.modSlice k (fun c => { c with memOps := c.memOps.erase o })
  let s2 := match o.clean with
    | some (set, w, b, inv) =>
      let f := s1.frame k set w
      if ok && (tagV f.tag).getLsbD b && subAddr set f.tag b == o.line && !o.dead then
        s1.setFrame k set w (if inv then f.dropSub b else f.cleanSub b)
      else s1
    | none => s1
  let s3 := match o.retire with
    | some (set, w) => if (s2.slice k).memOps.any (fun u => u.retire == some (set, w)) then s2 else s2.hcRecordRetired k set w
    | none => s2
  let s4 := (s3.tryFree k o.tag.toNat).retryMem k o.line
  let s5 := (s4.slice k).trk.foldl (fun (s : State) e => s.sweepEnd k e.1) s4
  match o.ctx with
  | some c => s5.rangeCheck c
  | none => s5

/-- A MemWrAck (10 R397): the oldest MemWr of that TAG and tenant has ended. (Log 49: DEDUCED) -/
def State.memWrAck (s : State) (p : Nat) (m : Msg) : State :=
  let k := msgSlice m
  match (s.slice k).memOps.find? (fun o => o.tag == m.tag && o.ten == m.ten && !o.offer) with
  | some o => s.memOpEnd k o true
  | none => s.msgCase p m 8

/-- A MemWr has no MemWrAck in time (R241). The flush of a warm reset waits to its own end (10 R421). (Log 9: DESIGN CHOICE) -/
def State.memWrTimeout (s : State) (k : Nat) (tag : Tag) : State :=
  if s.boot.flushBy.isSome then s else match (s.slice k).memOps.find? (fun o => o.tag == tag && !o.offer) with
  | none => s
  | some o =>
    (((s.until o.deadline).memEvent k o.ten).contained 0x26 (unitSlice k) o.ten (some o.line) none).memOpEnd k o false

/-- The current home copy that answers an accepted offer whose own copy is superseded (10 R399). (Log 52: DEDUCED) -/
def State.offerCopy (s : State) (k : Nat) (o : MemOp) : Option (Line × BitVec 4) :=
  match s.hcHit k o.line with
  | some w => some (s.subAt k (hcSetOf o.line) w (hcSubOf o.line))
  | none => (s.slice k).trk.findSome? (fun e => match e.2 with
      | some x => if x.opened && x.unwritten && x.line == o.line then x.data else none
      | none => none)

/-- An offer is resolved (10 R399). (Log 52: DEDUCED) -/
def State.offerEnd (s : State) (k : Nat) (o : MemOp) (accept : Bool) : State :=
  let s1 := (s.modSlice k (fun c => { c with memOps := c.memOps.erase o })).bump
    (if accept then F.SLC_HC_OFFER_ACCEPT else F.SLC_HC_OFFER_DECLINE) k
  if !accept then s1
  else
    let send (d : Line × BitVec 4) : State :=
      s1.sendMemWr k { o with offer := false, data := d.1, poison := d.2, deadline := s.now + s.snpTmo o.ten }
    if o.dead then match s.offerCopy k o with | some d => send d | none => s1
    else send (o.data, o.poison)

/-- A MemOfferRsp (10 R399). (Log 49: DEDUCED) -/
def State.memOfferRsp (s : State) (p : Nat) (m : Msg) : State :=
  let k := msgSlice m
  match (s.slice k).memOps.find? (fun o => o.tag == m.tag && o.ten == m.ten && o.offer) with
  | some o => s.offerEnd k o (m.fspec.getLsbD 0)
  | none => s.msgCase p m 8

/-- An offer without a response counts as declined (10 R399). -/
def State.offerTimeout (s : State) (k : Nat) (tag : Tag) : State :=
  match (s.slice k).memOps.find? (fun o => o.tag == tag && o.offer) with
  | some o => (s.until o.deadline).offerEnd k o false
  | none => s

end Sys2Proof.Machine
end

