-- ==== Sys2Proof/Machine/Clamp.lean ====
section
/-!
DEFINITION. The Clamp lock and barrier service (11_clamp_service.md): banks, checks, allocation, locks and their grant
order, changes of priority, barriers, broken handles, and what a reset or a loss does to a bank.
-/
namespace Sys2Proof.Machine

/-! ## Banks and records (R429, R430, R443) -/

/-- The bank of logical slice `l`. -/
def State.bank (s : State) (l : Nat) : Bank := spGet Bank.zero s.banks l
/-- The bank changed. -/
def State.modBank (s : State) (l : Nat) (f : Bank → Bank) : State :=
  { s with banks := spSet Bank.zero s.banks l (f (s.bank l)) }
/-- Entry `i` of a bank. -/
def State.ent (s : State) (l i : Nat) : ClampEnt := spGet ClampEnt.zero (s.bank l).ents i
/-- Entry `i` replaced. -/
def State.setEnt (s : State) (l i : Nat) (e : ClampEnt) : State :=
  s.modBank l (fun b => { b with ents := spSet ClampEnt.zero b.ents i e })

/-- Records that an entry uses or has reserved. -/
def ClampEnt.uses (e : ClampEnt) : Nat := if e.res = 0 then e.recs.length else e.res
/-- Records in use or reserved in a bank. -/
def Bank.uses (b : Bank) : Nat := b.ents.foldl (fun a e => a + e.2.uses) 0
/-- Records reserved for BARRIER entries of a bank. -/
def Bank.reserved (b : Bank) : Nat := b.ents.foldl (fun a e => a + e.2.res) 0
/-- Lock records of a tenant in a bank (R443). -/
def Bank.lockRecs (b : Bank) (t : Tenant) : Nat :=
  b.ents.foldl (fun a e => a + (if e.2.res = 0 then (e.2.recs.filter (fun r => r.m.ten == t)).length else 0)) 0
/-- Entries that a tenant holds allocated in a bank. -/
def Bank.held (b : Bank) (t : Tenant) : Nat := (b.ents.filter (fun e => e.2.st != .free && e.2.ten == t)).length

/-- Bank entry that HANDLE names (R429). -/
def handleIdx (m : Msg) : Nat := (clHandle m).toNat % 4096
/-- GEN of HANDLE. -/
def handleGen (m : Msg) : BitVec 12 := (clHandle m).extractLsb' 16 12
/-- The handle of an entry. -/
def mkHandle (l i : Nat) (gen : BitVec 12) : BitVec 32 := BitVec.ofNat 32 (gen.toNat * 65536 + l * 4096 + i)

/-- Slot 1 of a Clamp response (R432). -/
def clampSlot (handle : BitVec 32) (shared : Bool) (epoch : BitVec 16) (code : Nat) : Slot :=
  BitVec.ofNat 128 (handle.toNat + (if shared then 2 ^ 70 else 0) + epoch.toNat * 2 ^ 106 + code * 2 ^ 122)

/-- Sends the final response of a Clamp request and makes its window entry DONE (R434). -/
def State.clampSend (s : State) (l : Nat) (m : Msg) (op : BitVec 8) (slot : Slot) : State :=
  let r := respTo m op 0 false 0 [slot]
  (s.send r).winDone l m r

/-- A response that carries the request's own handle. -/
def State.clampRsp (s : State) (l : Nat) (m : Msg) (op : BitVec 8) (code : Nat) : State :=
  s.clampSend l m op (clampSlot (clHandle m) false 0 code)

/-- HandleStale, counted (R457). -/
def State.clampStale (s : State) (l : Nat) (m : Msg) : State :=
  (s.bump F.SLC_CLAMP_ERRCNT_STALE (s.physOf l)).clampRsp l m Op.handleStale 0

/-- An ownership failure of R436 or R444: counted, with the event on the owner's vectors. -/
def State.notOwner (s : State) (l : Nat) (e : ClampEnt) : State :=
  let k := s.physOf l
  (s.bump F.SLC_CLAMP_ERRCNT_NOTOWN k).raise (sliceSource k 5) Cls.clamp (some e.ten)

/-- The checks of R436 on entry `e`: the state in which they end, or none when the request goes on. (Log 53: DEDUCED) -/
def State.clampCheck (s : State) (l : Nat) (m : Msg) (e : ClampEnt) : Option State :=
  let kindOk := e.st == .broken || (match m.op.toNat with
    | 0x1B | 0x1C => e.st == .lock
    | 0x1D => e.st == .barrier
    | _ => true)
  if e.st = .free ∨ e.gen ≠ handleGen m ∨ !kindOk then some (s.clampStale l m)
  else if m.ten ≠ e.ten ∧ !(s.ten e.ten).peers.getLsbD m.ten.toNat then
    let s1 := s.notOwner l e
    if m.op = Op.clampFree then some (s1.clampRsp l m Op.notOwner 0)
    else
      let r := respTo m Op.accessFault 2 false 0 []
      some ((s1.send r).winDone l m r)
  else none

/-! ## Grant order (R440, R441) -/

/-- AGE_STEP of a logical slice. -/
def State.ageStep (s : State) (l : Nat) : Time := usec (2 ^ s.fget F.SLC_CLAMP_CTL_AGE_STEP (s.physOf l))

/-- The effective class of a waiter (R440). -/
def State.effClass (s : State) (l : Nat) (r : ClampRec) : Nat := min 7 (r.prio + (s.now - r.stamp) / s.ageStep l)

/-- The first waiter in grant order: the highest effective class, then the oldest stamp, then arrival. -/
def State.firstWaiter (s : State) (l : Nat) (rs : List ClampRec) : Option ClampRec :=
  (rs.filter (fun r => r.role == .waiter)).foldl (fun b r =>
    match b with
    | none => some r
    | some x =>
      let cx := s.effClass l x
      let cr := s.effClass l r
      if cx < cr ∨ (cx = cr ∧ r.stamp < x.stamp) then some r else some x) none

/-- A waiter is granted: its record becomes a holder's (R441). -/
def State.grant (s : State) (l i : Nat) (r : ClampRec) : State :=
  let e := s.ent l i
  let k := s.physOf l
  let us := (s.now - r.stamp) / usec 1
  let s1 := s.setEnt l i { e with recs := e.recs.map (fun x => if x = r then { x with role := .holder } else x) }
  let s2 := (s1.wrapInc F.SLC_CLAMP_GRANTS_COUNT k).fset F.SLC_CLAMP_MAXWAIT_US
    (min (max (s1.fget F.SLC_CLAMP_MAXWAIT_US k) us) (2 ^ 31 - 1)) k
  s2.clampSend l r.m Op.lockGrant (clampSlot (clHandle r.m) r.shared 0 0)

/-- Grants waiters of an entry in grant order (R441): the first when nobody holds the lock, and after a shared one the
following shared ones. At most `n` are looked at. -/
def State.grantAll (s : State) (l i : Nat) : Nat → State
  | 0 => s
  | n + 1 =>
    let e := s.ent l i
    let holders := e.recs.filter (fun r => r.role == .holder)
    match s.firstWaiter l e.recs with
    | none => s
    | some r =>
      if holders.isEmpty || (r.shared && holders.all (·.shared)) then (s.grant l i r).grantAll l i n else s

/-- The grants that follow a release (R441); none in the safe state (R460). -/
def State.regrant (s : State) (l i : Nat) : State :=
  let e := s.ent l i
  if s.isSafe || e.recs.any (fun r => r.role == .holder) then s else s.grantAll l i e.recs.length

/-! ## Breaking and freeing (R439, R453) -/

/-- Answers every waiter of an entry LockBroken with a CODE. -/
def State.breakWaiters (s : State) (l : Nat) (rs : List ClampRec) (code : Nat) : State :=
  (rs.filter (fun r => r.role == .waiter)).foldl (fun (s : State) r => s.clampRsp l r.m Op.lockBroken code) s

/-- An entry becomes BROKEN (R453). (Log 53: DEDUCED) -/
def State.breakEnt (s : State) (l i code : Nat) : State :=
  let e := s.ent l i
  ((s.breakWaiters l e.recs code).bump F.SLC_CLAMP_BRKCNT_BROKEN (s.physOf l)).setEnt l i
    { e with st := .broken, cause := code, count := 0, recs := [], came := [] }

/-- Reads entry `i` of a bank (R464, 20 R716): an error that parity shows breaks an allocated handle; an even number of
flips has a free outcome (19 R784). (Log 2: DESIGN CHOICE) -/
def State.clampRead (s : State) (l i : Nat) : State :=
  let k := s.physOf l
  let x := s.jigRead 0xC k none
  if x.1 = 0 then x.2
  else
    let odd := parityNat 64 x.1
    let n := x.2.fresh
    let s1 := if odd then x.2 else { x.2 with fresh := n + 1 }
    if odd || Config.beyondOutcome n % 2 == 0 then
      let e := s1.ent l i
      if e.st = .free then s1.deferred 0x19 (unitSlice k) none none none
      else (s1.breakEnt l i 5).deferred 0x19 (unitSlice k) (some e.ten) none (some (sliceSource k 9))
    else s1

/-- An entry becomes FREE: GEN increments (R430). -/
def State.freeEnt (s : State) (l i : Nat) : State :=
  s.setEnt l i { ClampEnt.zero with gen := (s.ent l i).gen + 1 }

/-! ## The requests (R437 to R452) -/

/-- ClampAlloc (R437, 13 R523). -/
def State.clampAlloc (s : State) (l : Nat) (m : Msg) : State :=
  let b := s.bank l
  let k := s.physOf l
  let res := if clKind m = 1 then (slotField m 1 58 12).toNat + 1 else 0
  let free := firstFrom (fun i => (s.ent l i).st == .free) 0 4096
  let full := (s.lsl l).hosted || (s.ten m.ten).clampQuota ≤ b.held m.ten || 4096 < b.reserved + res ||
    8192 < b.uses + res
  match free with
  | some i =>
    if full then (s.bump F.SLC_CLAMP_BRKCNT_FULL k).clampSend l m Op.clampFull (clampSlot 0 false 0 0)
    else
      let e := s.ent l i
      (s.setEnt l i { e with st := if clKind m = 1 then .barrier else .lock, ten := m.ten, src := m.src,
                             target := (slotField m 1 38 20).toNat, res := res }).clampSend l m Op.clampComp
        (clampSlot (mkHandle l i e.gen) false 0 0)
  | none => (s.bump F.SLC_CLAMP_BRKCNT_FULL k).clampSend l m Op.clampFull (clampSlot 0 false 0 0)

/-- ClampFree (R438, R439). -/
def State.clampFreeReq (s : State) (l : Nat) (m : Msg) : State :=
  let i := handleIdx m
  let e := s.ent l i
  if m.ten ≠ e.ten ∨ m.src ≠ e.src then (s.notOwner l e).clampRsp l m Op.notOwner 0
  else ((s.breakWaiters l e.recs 2).freeEnt l i).clampRsp l m Op.clampComp 0

/-- A LockAcq at the bank (R441, R442, R448): it is granted or waits, or finds no free record (false). (Log 53: DEDUCED) -/
def State.lockAcq (s : State) (l : Nat) (m : Msg) : Bool × State :=
  let i := handleIdx m
  let e := s.ent l i
  let mine (r : ClampRec) : Bool := r.m.src == m.src && r.m.ten == m.ten
  if e.st = .broken then (true, s.clampRsp l m Op.lockBroken e.cause)
  else if e.recs.any (fun r => mine r && r.role != .note) then
    let r := respTo m Op.reqError 1 false 0 []
    (true, (s.send r).winDone l m r)
  else
    let note := e.recs.find? (fun r => mine r && r.role == .note)
    let b := s.bank l
    if note.isNone && (8192 ≤ b.uses || 4096 ≤ b.lockRecs m.ten) then (false, s)
    else
      let prio := match note with | some n => n.note.getD 0 | none => (slotField m 1 71 3).toNat
      let r : ClampRec := { m := m, role := .waiter, shared := slotField m 1 70 1 == 1, prio := prio, stamp := s.now, note := none }
      let rest := e.recs.filter (fun r => !(mine r && r.role == .note))
      let s1 := s.setEnt l i { e with recs := rest ++ [r] }
      let holders := rest.filter (fun r => r.role == .holder)
      let noWait := !rest.any (fun r => r.role == .waiter)
      if noWait && (holders.isEmpty || (r.shared && holders.all (·.shared))) then (true, s1.grant l i r) else (true, s1)

/-- LockRel (R444, R448). -/
def State.lockRel (s : State) (l : Nat) (m : Msg) : State :=
  let i := handleIdx m
  let e := s.ent l i
  if e.st = .broken then s.clampRsp l m Op.clampComp 3
  else match e.recs.find? (fun r => r.role == .holder && r.m.src == m.src && r.m.ten == m.ten) with
    | none => (s.notOwner l e).clampRsp l m Op.notOwner 0
    | some r =>
      let recs := match r.note with
        | some _ => e.recs.map (fun x => if x = r then { x with role := .note } else x)
        | none => e.recs.erase r
      ((s.setEnt l i { e with recs := recs }).clampRsp l m Op.clampComp 0).regrant l i

/-- BarrierArrive (R450, R451). -/
def State.barrierArrive (s : State) (l : Nat) (m : Msg) : State :=
  let i := handleIdx m
  let e := s.ent l i
  if e.st = .broken then s.clampRsp l m Op.lockBroken e.cause
  else
    let n := e.count + (slotField m 1 86 20).toNat + 1
    if e.target + 1 < n ∨ e.res ≤ e.recs.length then (s.breakEnt l i 6).clampRsp l m Op.lockBroken 6
    else
      let r : ClampRec := { m := m, role := .waiter, shared := false, prio := 0, stamp := s.now, note := none }
      if n = e.target + 1 then
        let ep := e.epoch + 1
        (e.recs ++ [r]).foldl (fun (s : State) r =>
          (s.wrapInc F.SLC_CLAMP_GRANTS_COUNT (s.physOf l)).clampSend l r.m Op.barrierDone
            (clampSlot (clHandle r.m) false ep 0)) (s.setEnt l i { e with count := 0, epoch := ep, recs := [], came := [] })
      else s.setEnt l i { e with count := n, recs := e.recs ++ [r], came := if e.came.contains m.ten then e.came else e.came ++ [m.ten] }

/-- ClampSetPrio (R446, R448, R452). -/
def State.clampSetPrio (s : State) (l : Nat) (m : Msg) : State :=
  let i := handleIdx m
  let e := s.ent l i
  let prio := (slotField m 1 71 3).toNat
  let ttag : Tag := slotField m 1 74 12
  let mine (r : ClampRec) : Bool := r.m.src == m.src && r.m.ten == m.ten && r.m.tag == ttag && e.st == .lock
  match e.recs.find? mine with
  | none => s.clampRsp l m Op.clampComp 3
  | some r =>
    match r.role with
    | .waiter =>
      (s.setEnt l i { e with recs := e.recs.map (fun x => if x = r then { x with prio := prio } else x) }).clampRsp l m
        Op.clampComp 1
    | .holder =>
      (s.setEnt l i { e with recs := e.recs.map (fun x => if x = r then { x with note := some prio } else x) }).clampRsp l m
        Op.clampComp 2
    | .note => s.clampRsp l m Op.clampComp 3

/-- A Clamp request reaches the bank of logical slice `l` with its window entry made: done, or no free record. -/
def State.clampAt (s : State) (l : Nat) (m : Msg) : Bool × State :=
  let s := if m.op = Op.clampAlloc then s else s.clampRead l (handleIdx m)
  if m.op = Op.clampAlloc then (true, s.clampAlloc l m)
  else if (s.lsl l).hosted then (true, s.clampStale l m)
  else match s.clampCheck l m (s.ent l (handleIdx m)) with
    | some s1 => (true, s1)
    | none =>
      match m.op.toNat with
      | 0x1A => (true, s.clampFreeReq l m)
      | 0x1B => s.lockAcq l m
      | 0x1C => (true, s.lockRel l m)
      | 0x1D => (true, s.barrierArrive l m)
      | _ => (true, s.clampSetPrio l m)

/-- The oldest LockAcq of the Clamp ingress queue reaches the bank again (R443). -/
def State.clampRetry (s : State) (l : Nat) : State :=
  match (s.bank l).queue with
  | [] => s
  | (m, _) :: t =>
    let r := s.clampAt l m
    if r.1 then r.2.modBank l (fun b => { b with queue := t }) else s

/-! ## What a reset, a loss or the safe state does to a bank (R454, R455, R460, R461) -/

/-- Every entry of a bank changed by `f`, in ascending order. -/
def State.forEnts (s : State) (l : Nat) (f : Nat → ClampEnt → State → State) : State :=
  (s.bank l).ents.foldl (fun (s : State) e => f e.1 (s.ent l e.1) s) s

/-- A tenant reset of `t` in the bank of a logical slice (R454). -/
def State.clampRevoke (s : State) (l : Nat) (t : Tenant) : State :=
  let s1 := s.modBank l (fun b => { b with queue := b.queue.filter (fun x => x.1.ten != t) })
  s1.forEnts l (fun i e s =>
    if e.st = .free then s
    else if e.ten = t then
      (s.breakWaiters l (e.recs.filter (fun r => r.m.ten != t)) 1).freeEnt l i
    else if e.st = .lock ∧ e.recs.any (fun r => r.role == .holder && r.m.ten == t) ∨
        e.st = .barrier ∧ e.came.contains t then
      (s.setEnt l i { e with recs := e.recs.filter (fun r => r.m.ten != t) }).breakEnt l i 1
    else s.setEnt l i { e with recs := e.recs.filter (fun r => r.m.ten != t) })

/-- The waiting requests of tenant `t` are answered (R454, 07 R290): LockAcq and BarrierArrive that wait, and queued. -/
def State.clampQuiesce (s : State) (l : Nat) (t : Tenant) (op : BitVec 8) (all : Bool) : State :=
  let is (m : Msg) : Bool := all || m.ten == t
  let answer (s : State) (m : Msg) : State :=
    let r := plainResp m op
    (s.send r).winUnexecuted l m r
  let s1 := ((s.bank l).queue.filter (fun x => is x.1)).foldl (fun (s : State) x => answer s x.1) s
  let s2 := s1.modBank l (fun b => { b with queue := b.queue.filter (fun x => !is x.1) })
  s2.forEnts l (fun i e s =>
    let gone := e.recs.filter (fun r => r.role == .waiter && is r.m)
    (gone.foldl (fun (s : State) r => answer s r.m) s).setEnt l i
      { e with recs := e.recs.filter (fun r => !(r.role == .waiter && is r.m)) })

/-- The slice of a bank fails (R455): its records and its ingress queue are not carried, and nobody is answered.
(Log 62: DEDUCED) -/
def State.clampDrop (s : State) (l : Nat) : State :=
  let s1 := s.modBank l (fun b => { b with queue := [] })
  s1.forEnts l (fun i e s => s.setEnt l i { e with recs := [] })

/-- The bank of a failed slice as scan-out delivers it (R455): every allocated entry is BROKEN with SLICE_LOSS. Where the
logical slice is HOSTED no register reports its bank, and nothing is counted. (Log 62: DEDUCED) -/
def State.clampLost (s : State) (l : Nat) : State :=
  s.forEnts l (fun i e s =>
    if e.st = .free then s
    else (if e.st = .broken ∨ (s.lsl l).hosted then s else s.bump F.SLC_CLAMP_BRKCNT_BROKEN (s.physOf l)).setEnt l i
      { e with st := .broken, cause := 4, count := 0, recs := [], came := [] })

/-- A warm reset of a bank (R461). -/
def State.clampClear (s : State) (l : Nat) : State :=
  let s1 := s.modBank l (fun b => { b with queue := [] })
  s1.forEnts l (fun i e s => if e.st = .free then s else s.freeEnt l i)

end Sys2Proof.Machine
end

