-- ==== Sys2Proof/Machine/Requests.lean ====
section
/-!
DEFINITION. The requests of clients from their arrival to the Shed (05 R192, 07 R255, R266 to R270): the window, the
buffers of posted and non-temporal writes, fences, gathers and scatters (08), the Clamp ingress (11), and the retry of
what waits.
-/
namespace Sys2Proof.Machine

/-! ## Combining and posted write buffers (08 R308 to R316) -/

/-- The sector of an address: bits 7:0 zero. -/
def sectorOf (a : Addr) : Addr := (a >>> 8) <<< 8

/-- Posted write buffer entries of a tenant on port `p`. -/
def State.pwbUse (s : State) (p : Nat) (t : Tenant) : Nat := ((s.port p).pwb.filter (fun w => w.m.ten == t)).length
/-- Combining buffer entries of a tenant on port `p`. -/
def State.cwbUse (s : State) (p : Nat) (t : Tenant) : Nat := ((s.port p).cwb.filter (fun c => c.ten == t)).length

/-- Flushes combining entry `e` of port `p` (R313, R314): it merges nothing more, each of its lines goes to its slice,
and `f` counts it. -/
def State.flushEntry (s : State) (p e : Nat) (f : Option Fld) : State :=
  match (s.port p).cwb.find? (fun c => c.idx == e && !c.flushing) with
  | none => s
  | some c =>
    let s1 := s.modPort p (fun q => { q with cwb := q.cwb.map (fun x => if x.idx = e then { x with flushing := true } else x) })
    let s2 := match f with | some g => s1.bump g p | none => s1
    c.lines.foldl (fun (s : State) l =>
      s.shedOrWait (s.sliceOf (msgAddr l.2.2)) (Txn.new (.combined p e l.1) l.2.2 p (.line (lineAddr (msgAddr l.2.2))))) s2

/-- Flushes the combining entries of port `p` that `sel` selects. -/
def State.flushWhere (s : State) (p : Nat) (sel : Combine → Bool) (f : Option Fld) : State :=
  ((s.port p).cwb.filter (fun c => sel c && !c.flushing)).foldl (fun (s : State) c => s.flushEntry p c.idx f) s

/-- Flushes combining entries on every port. -/
def State.flushEverywhere (s : State) (sel : Nat → Combine → Bool) (f : Option Fld) : State :=
  forUp (fun p (s : State) => s.flushWhere p (sel p) f) 0 12 s

/-- The lines that a request touches: its own, or those of its elements. -/
def linesOf (m : Msg) : List Addr :=
  let n := m.op.toNat
  if 1 ≤ n ∧ n ≤ 0x0F then [lineAddr (msgAddr m)]
  else if 0x10 ≤ n ∧ n ≤ 0x13 then (List.range (msgN m)).map (fun i => lineAddr (elemAddr m i))
  else []

/-- A request touches the sector of a combining entry of its key (R313): the entry is flushed, on any port; a WrNT that
may merge into an entry of its own port leaves that one. (Log 57: DEDUCED) -/
def State.touchFlush (s : State) (p : Nat) (m : Msg) : State :=
  let ls := linesOf m
  if ls.isEmpty then s
  else s.flushEverywhere (fun q c => c.src == m.src && c.ten == m.ten && ls.any (fun a => sectorOf a == c.sector) &&
    !(m.op == Op.wrNT && q == p)) (some F.PRT_WB_FLUSH1_TOUCH)

/-- A `Comp` that carries STATE I and no count, sent as the final response of a request of logical slice `l`. -/
def State.compDone (s : State) (l : Nat) (m : Msg) : State :=
  let r := respTo m Op.comp 0 false 0 []
  (s.send r).winDone l m r

/-- WrPosted (R308): false when its tenant's share has no entry. -/
def State.runPosted (s : State) (l p : Nat) (m : Msg) : Bool × State :=
  if s.poolOk 128 1 (s.pwbUse p) m.ten then
    let n := s.wno
    let s0 : State := { s.winOpen l m with wno := n + 1 }
    let s1 := s0.modPort p (fun q => { q with pwb := q.pwb ++ [⟨m, n, false⟩] })
    let s2 := s1.fset F.PRT_WB_OCC_PWB_MAX (max (s1.fget F.PRT_WB_OCC_PWB_MAX p) (s1.port p).pwb.length) p
    let a := lineAddr (msgAddr m)
    (true, (s2.compDone l m).shedOrWait (s.sliceOf a) (Txn.new (.posted p n) m p (.line a)))
  else (false, s)

/-- WrNT (R312, R313): it merges into the open entry of its key or takes a new one; false when its tenant's share has
none, and the tenant's oldest entry is then flushed, if it is not being flushed already. (Log 57: DEDUCED) -/
def State.runNT (s : State) (l p : Nat) (m : Msg) : Bool × State :=
  let a := lineAddr (msgAddr m)
  let sec := sectorOf a
  let b := hcSubOf a
  let n := s.wno
  let mine (c : Combine) : Bool := c.src == m.src && c.ten == m.ten && c.sector == sec && !c.flushing
  match (s.port p).cwb.find? mine with
  | some c =>
    let s0 : State := { s.winOpen l m with wno := n + 1 }
    let s1 := s0.modPort p (fun q =>
      { q with cwb := q.cwb.map (fun x =>
          if x.idx = c.idx then { x with lines := x.lines.filter (fun y => y.1 != b) ++ [(b, n, m)] } else x) })
    let s2 := s1.compDone l m
    let full := match (s2.port p).cwb.find? (fun x => x.idx == c.idx) with | some x => x.lines.length == 4 | none => false
    (true, if full then s2.flushEntry p c.idx (some F.PRT_WB_FLUSH2_SECTOR) else s2)
  | none =>
    if s.poolOk 32 1 (s.cwbUse p) m.ten then
      let e := (firstFrom (fun i => !(s.port p).cwb.any (fun c => c.idx == i)) 0 32).getD 0
      let c : Combine := { idx := e, src := m.src, ten := m.ten, sector := sec, lines := [(b, n, m)],
                           until_ := s.now + usec (2 ^ s.fget F.PRT_WB_CTL_CWB_TMO p), flushing := false }
      let s0 : State := { s.winOpen l m with wno := n + 1 }
      let s1 := s0.modPort p (fun q => { q with cwb := q.cwb ++ [c] })
      let s2 := s1.fset F.PRT_WB_OCC_CWB_MAX (max (s1.fget F.PRT_WB_OCC_CWB_MAX p) (s1.port p).cwb.length) p
      (true, s2.compDone l m)
    else
      (false, match (s.port p).cwb.find? (fun c => c.ten == m.ten) with
        | some c => if c.flushing then s else s.flushEntry p c.idx (some F.PRT_WB_FLUSH0_FULL)
        | none => s)

/-- FenceW (R315). (Log 57: DEDUCED) -/
def State.runFenceW (s : State) (l : Nat) (m : Msg) : State :=
  let s1 := (s.winOpen l m).flushEverywhere (fun _ c => c.src == m.src && c.ten == m.ten) (some F.PRT_WB_FLUSH1_FENCE)
  let s2 := if s1.pendingBelow m.src m.ten s1.wno then { s1 with barriers := s1.barriers ++ [(m.src, m.ten, s1.wno)] } else s1
  s2.compDone l m

/-- FenceFull (R316): answered at once when no write is before it. (Log 57: DEDUCED) -/
def State.runFenceFull (s : State) (l p : Nat) (m : Msg) : State :=
  let s1 := (s.winOpen l m).flushEverywhere (fun _ c => c.src == m.src && c.ten == m.ten) (some F.PRT_WB_FLUSH1_FENCE)
  if s1.pendingBelow m.src m.ten s1.wno then
    let i := (firstFrom (fun i => !(s1.port p).fences.any (fun f => f.idx == i)) 0 ((s1.port p).fences.length + 1)).getD 0
    s1.modPort p (fun q => { q with fences := q.fences ++ [⟨i, m, s1.wno⟩] })
  else s1.compDone l m

/-- Every write that a FenceFull covers has become visible: its `Comp` (R316). -/
def State.fenceFullEnd (s : State) (p i : Nat) : State :=
  match (s.port p).fences.find? (fun f => f.idx == i) with
  | none => s
  | some f =>
    if s.pendingBelow f.m.src f.m.ten f.lim then s
    else (s.modPort p (fun q => { q with fences := q.fences.filter (fun f => f.idx != i) })).compDone (s.winSlice f.m) f.m

/-- The turn of posted write `w` of port `p` to commit (R309, R315). -/
def State.postedCommit (s : State) (p w : Nat) : State :=
  match (s.port p).pwb.find? (fun e => e.no == w) with
  | none => s
  | some e =>
    if e.ready && !(s.port p).pwb.any (fun o => o.m.ten == e.m.ten && decide (o.no < w)) && s.fenceClear e.m.src e.m.ten w then
      let at_ := (List.range 18).findSome? (fun k => ((s.slice k).trk.find? (fun y => match y.2 with
        | some x => x.kind == .posted p w && x.phase == .commit
        | none => false)).map (fun y => (k, y.1)))
      match at_ with
      | some (k, t) => s.recordAndEnd k t
      | none => s
    else s

/-- CWB_TMO of an entry ends (R313). -/
def State.cwbTimeout (s : State) (p e : Nat) : State :=
  match (s.port p).cwb.find? (fun c => c.idx == e && !c.flushing) with
  | some c => (s.until c.until_).flushEntry p e (some F.PRT_WB_FLUSH0_TMO)
  | none => s

/-! ## Gathers and scatters (08 R329 to R335) -/

/-- First-fault forms. -/
def isFF (m : Msg) : Bool := m.op == Op.gatherRdFF || m.op == Op.scatterWrFF
/-- Gathers, as against scatters. -/
def isGather (m : Msg) : Bool := m.op == Op.gatherRd || m.op == Op.gatherRdFF

/-- ESTAT of an element that fails a check, in the order of R330: 3 ALIGN, 2 UNHOMED, 1 ACCESS. -/
def State.elemCheck (s : State) (m : Msg) (i : Nat) : Option Nat :=
  let a := elemAddr m i
  if a.toNat % 2 ^ msgSize m ≠ 0 then some 3
  else if (s.rangeOf (lineAddr a)).isNone then some 2
  else if !s.windowOk m.ten (lineAddr a) (permsOf m.op) then some 1
  else none

/-- The message of element `i` (R329): a read of its line that carries the element's address and size, or a write of
its bytes. -/
def elemMsg (m : Msg) (i : Nat) : Msg :=
  let a := elemAddr m i
  let la := lineAddr a
  if isGather m then
    { m with op := Op.rdOnce, body := [la.zeroExtend 128, BitVec.ofNat 128 (a.toNat + msgSize m * 2 ^ 64)] }
  else
    let d := msgSlot m (2 + (msgN m + 1) / 2 + i)
    let p : BitVec 16 := if m.poison.getLsbD i then BitVec.ofNat 16 (2 ^ (a.toNat / 16 % 4)) else 0
    { m with op := Op.wrUnique, poison := p,
             body := (accessBe a (msgSize m) ++ (0 : BitVec 12) ++ la : BitVec 128) :: [d, d, d, d] }

/-- Changes gather `g` of slice `c`. -/
def State.modGather (s : State) (c g : Nat) (f : Gather → Gather) : State :=
  s.modSlice c (fun z => { z with gathers := z.gathers.map (fun e => if e.idx = g then f e else e) })

/-- An element fails a check: its status, and an access fault's record (12 R474). -/
def State.elemFault (s : State) (c g : Nat) (m : Msg) (i st : Nat) : State :=
  let s1 := if st = 1 then s.accessRecord m (lineAddr (elemAddr m i)) 1 (s.windowReason m.ten (lineAddr (elemAddr m i))) else s
  s1.modGather c g (fun e => { e with stat := spSet none e.stat i (some st) })

/-- Dispatches element `i` as a transaction of its line's slice (R329). -/
def State.elemGo (s : State) (c g p : Nat) (m : Msg) (i : Nat) : State :=
  let em := elemMsg m i
  s.shedOrWait (s.sliceOf (msgAddr em)) (Txn.new (.elem c g i) em p (.line (msgAddr em)))

/-- The next element of a first-fault form (R332, R333): once one has faulted the rest are SKIPPED.
(Log 55: DESIGN CHOICE, 58: DEDUCED) -/
def State.gatherStep (s : State) (c g : Nat) : State :=
  match (s.slice c).gathers.find? (fun e => e.idx == g) with
  | none => s
  | some e =>
    let n := msgN e.m
    if !isFF e.m then s
    else
      let done := (List.range e.next).all (fun i => (spGet none e.stat i).isSome)
      let fault := (List.range e.next).any (fun i => (spGet none e.stat i).getD 0 != 0)
      if !done then s
      else if fault then
        s.modGather c g (fun e => { e with next := n, stat := forUp (fun i l => spSet none l i (some 5)) e.next (n - e.next) e.stat })
      else if n ≤ e.next then s
      else
        let i := e.next
        let s1 := s.modGather c g (fun e => { e with next := i + 1 })
        match s1.elemCheck e.m i with
        | some st => (s1.elemFault c g e.m i st).react (.element c g)
        | none => s1.elemGo c g e.port e.m i

/-- A gather or scatter begins at its coordinating slice `c` (R329, R331). -/
def State.runGather (s : State) (l c p : Nat) (m : Msg) : State :=
  let g := (s.slice c).gatherNo
  let e : Gather := { idx := g, m := m, port := p, stat := [], data := [], next := 0 }
  let s1 := (s.winOpen l m).modSlice c (fun z => { z with gathers := z.gathers ++ [e], gatherNo := g + 1 })
  if isFF m then s1.gatherStep c g
  else forUp (fun i (s : State) =>
    match s.elemCheck m i with
    | some st => s.elemFault c g m i st
    | none => s.elemGo c g p m i) 0 (msgN m) s1

/-- Slot 1 of GatherData and ScatterRsp (05 R188). -/
def gatherSlot (n : Nat) (stat : Nat → Nat) : Slot :=
  let isF (i : Nat) : Bool := stat i != 0 && stat i != 5
  let fmask := (List.range n).foldl (fun a i => a + (if isF i then 2 ^ i else 0)) 0
  let first := ((List.range n).find? isF).getD 0x1F
  let estat := (List.range n).foldl (fun a i => a + stat i * 2 ^ (64 + 4 * i)) 0
  BitVec.ofNat 128 (fmask + first * 2 ^ 16 + estat)

/-- Every element is finished: the coordinating slice answers (R335). -/
def State.gatherEnd (s : State) (c g : Nat) : State :=
  match (s.slice c).gathers.find? (fun e => e.idx == g) with
  | none => s
  | some e =>
    let n := msgN e.m
    if !(List.range n).all (fun i => (spGet none e.stat i).isSome) then s
    else
      let st (i : Nat) : Nat := (spGet none e.stat i).getD 0
      let faults := ((List.range n).filter (fun i => st i != 0 && st i != 5)).length
      let skips := ((List.range n).filter (fun i => st i == 5)).length
      let ds := (List.range n).map (fun i => if st i = 0 then (spGet (0, false) e.data i).1 else 0)
      let ps := (List.range n).foldl (fun a i => a + (if st i = 0 ∧ (spGet (0, false) e.data i).2 then 2 ^ i else 0)) 0
      let r := if isGather e.m then respTo e.m Op.gatherData 0 false (BitVec.ofNat 16 ps) (gatherSlot n st :: ds)
        else respTo e.m Op.scatterRsp 0 false 0 [gatherSlot n st]
      let s1 := ((s.bumpBy F.SLC_GATH_CNT_FAULT faults c).bumpBy F.SLC_GATH_CNT_SKIP skips c).modSlice c
        (fun z => { z with gathers := z.gathers.filter (fun e => e.idx != g) })
      (s1.send r).winDone (s1.winSlice e.m) e.m r

/-! ## Arrival and retry -/

/-- What the admission point makes of a request. -/
inductive ReqOut where
  | done
  /-- It lacks a tracker, a chain slot, a buffer entry or an awake slice. -/
  | stall
  /-- It lacks a window way (07 R270). -/
  | wstall
  /-- It is held (01 R38), or its slice wakes first (01 R42). -/
  | held
deriving DecidableEq, Repr

/-- The tracker whose hold a CondWr ends (08 R325). -/
def State.holdFor (s : State) (k : Nat) (m : Msg) : Option Nat :=
  if m.op = Op.condWr then
    ((s.slice k).trk.find? (fun e => match e.2 with
      | some x => x.phase == .hold && x.m.src == m.src && x.m.ten == m.ten && x.line == lineAddr (msgAddr m)
      | none => false)).map (·.1)
  else none

/-- A CondWr attempt is constrained (08 R324). -/
def State.constrained (s : State) (k : Nat) (m : Msg) : Bool :=
  m.op == Op.condWr && (match s.rsvOf k m.src m.ten with
    | some e => e.line == lineAddr (msgAddr m) && e.calm && decide (s.now ≤ e.time + usec 2)
    | none => false)

/-- Another request of a key has reached the slice since its last ReserveRd (08 R324). -/
def State.noteCalm (s : State) (k : Nat) (m : Msg) : State :=
  s.modSlice k (fun c => { c with rsv := c.rsv.map (fun e =>
    if e.src = m.src ∧ e.ten = m.ten ∧ !(m.op = Op.condWr ∧ e.line = lineAddr (msgAddr m)) then { e with calm := false } else e) })

/-- A request that the window lets through takes its resources and its entry, or lacks one (false). (Log 54: DEDUCED) -/
def State.reqRun (s : State) (k l : Nat) (x : Txn) : Bool × State :=
  let m := x.m
  let p := x.port
  match m.op.toNat with
  | 0x0A => s.runPosted l p m
  | 0x0B => s.runNT l p m
  | 0x10 | 0x11 | 0x12 | 0x13 => (true, s.runGather l k p m)
  | 0x14 => (true, s.runFenceW l m)
  | 0x15 => (true, s.runFenceFull l p m)
  | 0x19 | 0x1A | 0x1C | 0x1D | 0x1E => (true, ((s.wakeSlice k).winOpen l m |>.clampAt l m).2)
  | 0x1B =>
    let s1 := (s.wakeSlice k).winOpen l m
    if (s1.bank l).queue.isEmpty then
      let r := s1.clampAt l m
      (true, if r.1 then r.2 else r.2.modBank l (fun b => { b with queue := b.queue ++ [(m, p)] }))
    else (true, s1.modBank l (fun b => { b with queue := b.queue ++ [(m, p)] }))
  | _ =>
    let constr := s.constrained k m
    match s.holdFor k m with
    | some t => (true, (s.winOpen l m).takeCondWr k t m constr)
    | none =>
      let r := (s.wakeSlice k).shed k { x with constr := constr }
      if r.1 then (true, r.2.winOpen l m) else r

/-- A request reaches the admission point of its slice (07 R255, R266). -/
def State.reqGo (s : State) (x : Txn) : ReqOut × State :=
  let m := x.m
  let k := s.physOf (s.reqSlice m)
  let s0 := s.touchFlush x.port m
  if s0.reqHeld m then (.held, s0)
  else if inSlice m.op && !s0.awake k then (.held, s0.wakeSlice k)
  else
    let s1 := s0.noteCalm k m
    let l := s1.winSlice m
    match s1.winAsk l m with
    | .noWay => (.wstall, s1)
    | .go re =>
      let r := s1.reqRun k l x
      if r.1 then (.done, if re then r.2.bump F.SLC_SHED_DUPCNT1_REEXEC (s1.physOf l) else r.2) else (.stall, r.2)
    | a => (.done, (s1.winAnswer l m a).getD s1)

/-- A request of a client that has passed the checks (05 R192): it acts, or waits at the ingress of its slice. (Log 54: DEDUCED) -/
def State.request (s : State) (p : Nat) (m : Msg) : State :=
  let x := Txn.new .client m p (.line (lineAddr (msgAddr m)))
  if isClamp m.op && m.op != Op.clampAlloc && decide (s.pat.nActive ≤ handleSlice m) then
    s.send (respTo m Op.handleStale 0 false 0 [clampSlot (clHandle m) false 0 0])
  else
    let k := s.physOf (s.reqSlice m)
    let fresh := match s.winAsk (s.winSlice m) m with | .go _ => true | .noWay => true | _ => false
    if inSlice m.op && !isClamp m.op && fresh && !s.reqHeld m && s.queuedAhead k m.ten && (s.holdFor k m).isNone then
      s.wait k x true
    else
      let r := s.reqGo x
      match r.1 with
      | .done => r.2
      | .held => r.2.wait k x false
      | .stall => r.2.wait k x true
      | .wstall => (r.2.wait k x false).wrapInc F.SLC_SHED_WSTALL_COUNT k

/-- Removes a transaction from the ingress of slice `k`. -/
def State.dropIngress (s : State) (k : Nat) (x : Txn) : State := s.modSlice k (fun c => { c with ingress := c.ingress.erase x })

/-- The first internal transaction of a tenant that waits at slice `k` reaches the admission point again (07 R255). -/
def State.retryInternal (s : State) (k : Nat) (t : Tenant) : State :=
  match (s.slice k).ingress.find? (fun x => x.internal && x.m.ten == t && !s.maintHeld x) with
  | none => s
  | some x =>
    if !s.awake k then s.wakeSlice k
    else
      let r := s.shed k x
      if r.1 then r.2.dropIngress k x else s

/-- The first request of a tenant that waits at slice `k` and is not held reaches the admission point again (07 R255). -/
def State.retryClient (s : State) (k : Nat) (t : Tenant) : State :=
  match (s.slice k).ingress.find? (fun x => !x.internal && x.m.ten == t && !s.waitHeld x) with
  | none => s
  | some x =>
    match x.kind with
    | .client =>
      let r := s.reqGo x
      if r.1 = .done then r.2.dropIngress k x else r.2
    | _ =>
      if !s.awake k then s.wakeSlice k
      else
        let r := (s.wakeSlice k).shed k x
        if r.1 then r.2.dropIngress k x else r.2

/-- What waits at slice `k` for a tenant reaches the admission point again. -/
def State.ingressRetry (s : State) (k : Nat) (t : Tenant) : State := (s.retryInternal k t).retryClient k t

/-- Everything that waits at slice `k` reaches the admission point again, in order. -/
def State.ingressAll (s : State) (k : Nat) : State :=
  (s.slice k).ingress.foldl (fun (s : State) x => s.ingressRetry k x.m.ten) s

/-! ## Messages at the message layer -/

/-- A message arrives at port `p`: the checks of R192 decide, and `act` is what it does when it passes them. A request
for which the ingress store has no room stays in the receive buffer (05 R164, 12 R469). -/
def State.receive (s : State) (p : Nat) (m : Msg) (act : State → State) : State :=
  let s1 := s.present p m
  match s1.verdict p m with
  | .pass =>
    if opClass m.op = 0 ∧ !s1.ingressOk p m then s1
    else act (s1.consume p m)
  | v => (s1.consume p m).applyVerdict p m v

end Sys2Proof.Machine
end

