-- ==== Sys2Proof/Machine/Spares.lean ====
section
/-!
DEFINITION. Spare slices, failure and degraded operation (13_spares_and_degradation.md R504 to R508, R515 to R529): the
choice of a spare, prediction, the fence of a slice and its replacement by census or rehash, and DEGRADED.
-/
namespace Sys2Proof.Machine

/-! ## Prediction and spares (R504 to R508) -/

/-- The predicates of R507 that slice `k` meets, bit k for row k. (Log 65: DEDUCED) -/
def State.predCause (s : State) (k : Nat) : Nat :=
  let c := s.slice k
  let age := s.fget F.SLC_DMON_AGE_AGE k
  let b (i : Nat) (x : Bool) : Nat := if x then 2 ^ i else 0
  b 0 (256 - c.sfRet.length < s.pat.predSfFree) + b 1 (128 - c.hcRet.length < s.pat.predHcFree) + b 2 c.ceHit +
    b 3 (s.pat.predLost != 0 && decide (s.pat.predLost ≤ c.lost.length)) + b 4 (1000 < s.pat.predAge + age) + b 5 (1000 < age)

/-- Changes the role of a physical slice. (Log 62: DEDUCED) -/
def State.setRole (s : State) (k : Nat) (r : SliceRole) : State := { s with roles := spSet .active s.roles k r }

/-- The lowest-numbered available spare (R506). -/
def State.spare (s : State) : Option Nat := firstFrom (fun k => s.srole k == .spare && s.predCause k == 0) 0 18

/-- Available spares. -/
def State.spareCount (s : State) : Nat := ((List.range 18).filter (fun k => s.srole k == .spare && s.predCause k == 0)).length

/-- Slice `k` leaves the ACTIVE role: its predicted bit clears (R508). -/
def State.unpredict (s : State) (k : Nat) : State :=
  let w := s.fget F.GLB_PRED_STATUS_PRED
  { s.fset F.GLB_PRED_STATUS_PRED (if w.testBit k then w - 2 ^ k else w) with predQ := s.predQ.erase k }

/-- Prediction of slice `k` (R508). -/
def State.predict (s : State) (k : Nat) : State :=
  let c := s.predCause k
  if c = 0 ∨ s.srole k ≠ .active ∨ (s.logicalOn k).isNone ∨ (s.fget F.GLB_PRED_STATUS_PRED).testBit k then s
  else
    let s1 := s.fset F.GLB_PRED_STATUS_PRED (s.fget F.GLB_PRED_STATUS_PRED + 2 ^ k)
    let s2 := ((s1.setFlag F.GLB_PRED_LAST_VALID true).fset F.GLB_PRED_LAST_SLICE k).fset F.GLB_PRED_LAST_CAUSE c
    ({ s2 with predQ := s2.predQ ++ [k] }).raise 16 Cls.prediction none

/-! ## DEGRADED (R526 to R529) -/

/-- HOSTED logical slices. -/
def State.hostedCount (s : State) : Nat := ((List.range s.pat.nActive).filter (fun l => (s.lsl l).hosted)).length

/-- The REASON bits whose condition holds (R526). (Log 64: DEDUCED) -/
def State.degReasons (s : State) : Nat :=
  let act := s.actives
  let b (i : Nat) (x : Bool) : Nat := if x then 2 ^ i else 0
  b 0 (s.spareCount < s.pat.degSpares) + b 1 (act.any (fun k => decide (256 - (s.slice k).sfRet.length < s.pat.degSfFree))) +
    b 2 (act.any (fun k => decide (128 - (s.slice k).hcRet.length < s.pat.degHcFree))) +
    b 3 (act.any (fun k => decide (1000 < s.pat.degAge + s.fget F.SLC_DMON_AGE_AGE k))) + b 4 (s.hostedCount != 0)

/-- Slot 1 of ReplaceRequest (R529). -/
def State.replaceSlot (s : State) (count : BitVec 16) : Slot :=
  let act := s.actives
  let low (f : Nat → Nat) (d : Nat) : Nat := act.foldl (fun a k => min a (f k)) d
  let age := act.foldl (fun a k => max a (s.fget F.SLC_DMON_AGE_AGE k)) 0
  BitVec.ofNat 128 (s.fget F.GLB_SPR_STATUS_REASON + act.length * 2 ^ 8 + s.spareCount * 2 ^ 13 + s.hostedCount * 2 ^ 18 +
    age * 2 ^ 23 + low (fun k => 256 - (s.slice k).sfRet.length) 256 * 2 ^ 39 +
    low (fun k => 128 - (s.slice k).hcRet.length) 128 * 2 ^ 48 + count.toNat * 2 ^ 56)

/-- Sends ReplaceRequest to the platform manager node (R528). -/
def State.replaceRequest (s : State) : State :=
  match s.pat.pm with
  | none => s
  | some d =>
    let s1 : State := { s with replaceNo := s.replaceNo + 1, replaceAt := s.now }
    s1.send (mkMsg Op.replaceRequest 0 s.home d 0 0 0 false 0 [s1.replaceSlot s1.replaceNo])

/-- Evaluates DEGRADED (R526 to R528) from READY on, and keeps the counts of GLB_SPR_STATUS. (Log 64: DEDUCED) -/
def State.degCheck (s : State) : State :=
  let old := s.fget F.GLB_SPR_STATUS_REASON
  let new := if s.ready then old ||| s.degReasons else old
  let serving := s.actives.length
  let spares := s.spareCount
  let hosted := s.hostedCount
  let changed := old != new || s.fget F.GLB_SPR_STATUS_SERVING != serving || s.fget F.GLB_SPR_STATUS_SPARES != spares ||
    s.fget F.GLB_SPR_STATUS_HOSTED != hosted
  if !changed || !s.flag F.PAT_STATUS_SEALED then s
  else
    let s1 := (((s.fset F.GLB_SPR_STATUS_REASON new).fset F.GLB_SPR_STATUS_SERVING serving).fset F.GLB_SPR_STATUS_SPARES
      spares).fset F.GLB_SPR_STATUS_HOSTED hosted
    if new = 0 then s1
    else if old = 0 then ((s1.setFlag F.GLB_SPR_STATUS_DEGRADED true).raise 17 Cls.degradation none).replaceRequest
    else if s.ready then s1.replaceRequest
    else s1

/-- The evaluations of R507 and R526, at the end of every command. (Log 64: DEDUCED) -/
def State.evaluate (s : State) : State :=
  (if s.ready then forUp (fun k (s : State) => s.predict k) 0 18 s else s).degCheck

/-- ReplaceRequest again, 1,024 ms after the last (R528). -/
def State.replacePeriodic (s : State) : State :=
  if s.flag F.GLB_SPR_STATUS_DEGRADED then
    (if s.pat.pm.isSome then s.until (s.replaceAt + msec 1024) else s).replaceRequest
  else s

/-! ## The failure of a slice (R515 to R525) -/

/-- Counters that are kept with the logical slice move from slice `a` to slice `b` (07 R288, 11 R458). (Log 64: DEDUCED) -/
def State.moveCounters (s : State) (a b : Nat) : State :=
  [F.SLC_SHED_DUPCNT0_DUP_OPEN, F.SLC_SHED_DUPCNT0_RESENT, F.SLC_SHED_DUPCNT0_QUIET, F.SLC_SHED_DUPCNT1_REEXEC,
   F.SLC_SHED_DUPCNT1_TAGCLASH, F.SLC_SHED_DUPCNT1_LOST, F.SLC_SHED_WSTALL_COUNT, F.SLC_CLAMP_GRANTS_COUNT,
   F.SLC_CLAMP_ERRCNT_STALE, F.SLC_CLAMP_ERRCNT_NOTOWN, F.SLC_CLAMP_BRKCNT_BROKEN, F.SLC_CLAMP_BRKCNT_FULL,
   F.SLC_CLAMP_MAXWAIT_US].foldl (fun (s : State) f => (s.fset f (s.fget f a) b).fset f 0 a) s

/-- A slice reset: what a slice holds goes, but the retirement tables and what the delay monitor does (02 R69, 09 R378,
10 R420). (Log 78: DEDUCED) -/
def Slice.reset (c : Slice) : Slice :=
  { Slice.zero with sfRet := c.sfRet, hcRet := c.hcRet, loose := c.loose, allLoose := c.allLoose, autoAt := c.autoAt,
                    ageAt := c.ageAt, prevFactor := c.prevFactor, fail := c.fail, gatherNo := c.gatherNo, wakes := c.wakes,
                    lfsr := c.lfsr }

/-- Armed channels of arrays of slice `k` disarm with code 0x4 (20 R720). -/
def State.jigSliceGone (s : State) (k : Nat) : State :=
  forUp (fun c (s : State) =>
    let kind := s.fget F.JIG_CH_CTL_KIND 0 c
    if 8 ≤ kind ∧ kind ≤ 0xC ∧ s.fget F.JIG_CH_CTL_UNIT 0 c = k then s.jigDisarm c (some 4) else s) 0 8 s

/-- Transactions of a failed slice that the home performs again: buffer writes (08 R340), elements coordinated
elsewhere, and maintenance by address (10 R409). -/
def lostWork (k : Nat) (c : Slice) : List Txn :=
  (c.trk.filterMap (fun e => e.2.bind (fun x => if x.opened then some x else none)) ++ c.chain).filter (fun x =>
    match x.kind with
    | .posted _ _ | .combined _ _ _ => true
    | .elem d _ _ => d != k
    | .maint _ none => true
    | _ => false)

/-- A maintenance operation by set and way was lost with its slice: it ends with RESULT 0x3. (Log 59: DEDUCED) -/
def lostMop (c : Slice) : Bool :=
  (c.trk.filterMap (fun e => e.2.bind (fun x => if x.opened then some x else none)) ++ c.chain ++ c.ingress).any (fun x =>
    match x.kind with | .maint _ (some _) => true | _ => false)

/-- The slice that a transaction or a waiting request goes to. -/
def State.destOf (s : State) (x : Txn) : Nat :=
  match x.kind with
  | .client => s.physOf (s.reqSlice x.m)
  | _ => s.sliceOf x.line

/-- What a slice that has failed, or that has handed over, had waiting and in work goes to the slices that now serve it.
(Log 58: DEDUCED) -/
def State.moveWork (s : State) (work waiting : List Txn) : State :=
  let s1 := waiting.foldl (fun (s : State) x =>
    if x.internal ∧ !(match x.kind with | .maint _ none => true | _ => false) then s
    else s.modSlice (s.destOf x) (fun c => { c with ingress := c.ingress ++ [x] })) s
  let s2 := work.foldl (fun (s : State) x =>
    let s' := match x.kind with
      | .posted p w => s.modPort p (fun q => { q with pwb := q.pwb.map (fun (e : Posted) => if e.no = w then { e with ready := false } else e) })
      | _ => s
    s'.shedOrWait (s'.destOf x) (Txn.new x.kind x.m x.port x.scope)) s1
  (s2.rangeCheck 0).rangeCheck 1

/-- The slices to which a scan-out for logical slice `l` goes (R515, R524). -/
def State.dests (s : State) (l : Nat) : List Nat :=
  (List.range 18).filter (fun k => (s.slice k).census.any (fun c => c.lsl == l))

/-- The slice that receives the line of a scan-out for logical slice `l`. -/
def State.lineDest (s : State) (l : Nat) (a : Addr) : Nat := if (s.lsl l).hosted then s.sliceOf a else s.physOf l

/-- A hint for set `n` reaches the census of logical slice `l` (09 R372); one line has one hint. (Log 62: DEDUCED) -/
def State.deliverHint (s : State) (l n : Nat) (e : BitVec 118) : State :=
  s.modCensus (s.lineDest l (sfLine n e)) l (fun c =>
    let h := spGet [] c.hints n
    if h.any (fun x => sfTag x == sfTag e) then c else { c with hints := spSet [] c.hints n (h ++ [e]) })

/-- A census for logical slice `l` is set up in slice `k` (09 R373), from set `start` on. -/
def State.addCensus (s : State) (k l start : Nat) : State :=
  ((((s.modSlice k (fun c => { c with census := c.census ++ [⟨l, [], start, [], false⟩] })).setFlag F.SLC_SF_CENSUS_ACTIVE
    true k).setFlag F.SLC_SF_CENSUS_UNREAD false k).fset F.SLC_SF_CENSUS_DONE 0 k)

/-- Hosted logical slices whose window slice `a` served are served by slice `b` (R523). -/
def State.repointHosted (s : State) (a b : Nat) : State :=
  forUp (fun l (s : State) => if (s.lsl l).hosted && (s.lsl l).phys == a then s.modLsl l (fun x => { x with phys := b }) else s)
    0 16 s

/-- Logical slice `l` is REBUILDING in slice `r`, from unit `unit` on (R515, R520). -/
def State.replaceBy (s : State) (k l r unit : Nat) : State :=
  let old := s.slice k
  let s1 := (s.modLsl l (fun x => { x with phys := r, rebuilding := true, lossHold := unit < 1024, handover := false,
                                           clampHold := true })).setRole r .active
  let s2 := (s1.repointHosted k r).addCensus r l (unit - 1024)
  let s3 := old.census.foldl (fun (s : State) c =>
    if c.lsl = l ∨ c.ready then s else s.addCensus r c.lsl 0) s2
  let s4 := s3.modSlice r (fun c => { c with walk0 := old.walk0, walk1 := old.walk1 })
  (old.census.foldl (fun (s : State) c => c.hints.foldl (fun (s : State) h =>
    h.2.foldl (fun (s : State) e => s.deliverHint l h.1 e) s) s) s4).moveCounters k r

/-- Reassigns the SLICE_TABLE entries that name `l`, from index `i` on, to the logical slices `ls` in turn (R522): the
new table, and the reassigned indices. -/
def reassign (l : Nat) (ls : List Nat) : List Nat → Nat → Nat → List Nat × List Nat
  | [], _, _ => ([], [])
  | x :: t, i, j =>
    if x = l then
      let r := reassign l ls t (i + 1) (j + 1)
      (ls.getD (j % max ls.length 1) 0 :: r.1, i :: r.2)
    else
      let r := reassign l ls t (i + 1) j
      (x :: r.1, r.2)

/-- The logical slice that serves the window of hosted `l`: the next above it, cyclically, that is not HOSTED (R523). -/
def State.nextServing (s : State) (l : Nat) : Nat :=
  let n := s.pat.nActive
  (((List.range n).map (fun i => (l + 1 + i) % max n 1)).find? (fun j => !(s.lsl j).hosted)).getD 0

/-- Logical slice `l`, whose slice `k` has failed, is rehashed (R522 to R524). -/
def State.rehash (s : State) (k l : Nat) : State :=
  let old := s.slice k
  let s1 := s.modLsl l (fun x => { x with hosted := true, rehashAt := some s.now, lossHold := true, handover := false,
                                          clampHold := false })
  let ls := (List.range s.pat.nActive).filter (fun j => !(s1.lsl j).hosted)
  let r := reassign l ls s.table 0 0
  let s2 : State := { s1 with table := r.1, moved := r.2.foldl (fun m i => spSet none m i (some l)) s1.moved }
  let b := s2.physOf (s2.nextServing l)
  let s3 := (s2.modLsl l (fun x => { x with phys := b })).repointHosted k b
  let s4 := (ls.filter (fun j => (r.2.map (fun i => r.1.getD i 0)).contains j)).foldl (fun (s : State) j =>
    s.addCensus (s.physOf j) l 0) s3
  old.census.foldl (fun (s : State) c => c.hints.foldl (fun (s : State) h =>
    h.2.foldl (fun (s : State) e => s.deliverHint l h.1 e) s) s) s4

/-- A migration ends before its handover (R514): the target takes a slice reset and returns to SPARE, or stays FENCED.
(Log 63: DEDUCED) -/
def State.migEnd (s : State) (st : Nat) : State :=
  match s.mig with
  | none => s
  | some g =>
    let s1 := ({ s with mig := none }).fset F.GLB_MIG_STATUS_STATE st
    let s2 := if s1.srole g.dst = .target then (s1.modSlice g.dst Slice.reset).setRole g.dst .spare else s1
    let s3 := match s2.logicalOn g.src with
      | some l => s2.modLsl l (fun x => { x with handover := false })
      | none => s2
    let ts := (s3.slice g.src).trk.filterMap (fun e => match e.2 with
      | some x => if x.kind = .migrate ∧ x.opened then some e.1 else none
      | none => none)
    ts.foldl (fun (s : State) t => s.closeTxn g.src t)
      (s3.modSlice g.src (fun c => { c with chain := c.chain.filter (fun x => x.kind != .migrate),
                                            ingress := c.ingress.filter (fun x => x.kind != .migrate) }))

/-- The failure of ACTIVE slice `k`, which serves logical slice `l` (R515, R520 to R525). (Log 62: DEDUCED) -/
def State.sliceFails (s : State) (k l : Nat) : State :=
  let old := s.slice k
  let work := lostWork k old
  let evict := (old.memOps.filter (fun o => o.evict.isSome && !o.offer)).map (·.line)
  let s1 := forUp (fun j (s : State) => if (s.lsl j).phys = k then s.winLoseAll j else s) 0 16 s
  let unit := match s.mig with
    | some g => if g.src = k ∧ s.srole g.dst = .target then s.fget F.GLB_MIG_STATUS_WATERMARK else 0
    | none => 0
  let s2 := (s1.clampDrop l).modSlice k (fun c =>
    { c with trk := [], chain := [], ingress := [], rsv := [], gathers := [], memOps := [], census := [],
             fail := some ⟨l, unit, s.now, evict, false, false⟩ })
  let s3 := if lostMop old then (s2.setFlag F.HCM_MOP_STATUS_BUSY false).fset F.HCM_MOP_STATUS_RESULT 3 else s2
  let keep := { s3 with slices := spSet Slice.zero s3.slices k { s3.slice k with census := old.census, walk0 := old.walk0, walk1 := old.walk1 } }
  let clear (s : State) : State := s.modSlice k (fun c => { c with census := [] })
  let go (s : State) (r unit : Nat) : State := clear (s.replaceBy k l r unit)
  let mine := match s.mig with | some g => g.src == k | none => false
  let target := match s.mig with | some g => if s.srole g.dst = .target then some g.dst else none | none => none
  let none_ (s : State) : State :=
    let left := ((List.range s.pat.nActive).filter (fun j => !(s.lsl j).hosted && j != l)).length
    if left < s.pat.minActive ∨ left = 0 then clear (s.safeCause 0x2F unitChip) else clear (s.rehash k l)
  let s4 := match mine, target with
    | true, some r => go (({ keep with mig := none }).fset F.GLB_MIG_STATUS_STATE 5) r unit
    | _, _ =>
      let base := if mine then keep.migEnd 5 else keep
      match base.spare with
      | some r => go base r 0
      | none =>
        match target with
        | some _ =>
          let b := base.migEnd 4
          match b.spare with
          | some r => go b r 0
          | none => none_ b
        | none => none_ base
  s4.moveWork work old.ingress

/-- The safety monitor fences slice `k` with a cause (01 R27, 19 R698 to R700). (Log 62: DEDUCED) -/
def State.fence (s : State) (k : Nat) (cause : BitVec 8) : State :=
  if s.srole k = .fenced then s
  else
    let s1 := (s.logEntry (s.entryNow 0 none (unitSlice k) cause none)).notice
      (monitorNotice cause 0 s.isSafe (unitSlice k) none none)
    let w := s1.fget F.SAF_FENCED_FENCED
    let s2 := ((s1.fset F.SAF_FENCED_FENCED (w ||| 2 ^ k)).setFlag F.SAF_FAULT_FENCE true).raiseSafety 2
    let was := s2.srole k
    let l := s2.logicalOn k
    let s3 := ((s2.jigSliceGone k).unpredict k).setRole k .fenced
    match was, l with
    | .active, some l => if s3.boot.flushBy.isSome then s3 else s3.sliceFails k l
    | .target, _ => (s3.migEnd 4).modSlice k Slice.reset
    | _, _ => s3.modSlice k Slice.reset

/-! ## Scan-out (R516 to R518, 09 R372) -/

/-- A dirty sub-block of the failed slice is lost (R516): poison goes to memory, and the loss is logged and reported.
(Log 14: DESIGN CHOICE) -/
def State.loseSub (s : State) (k l : Nat) (a : Addr) (t : Tenant) : State :=
  let d := s.lineDest l a
  let i := s.fresh
  let s1 := ({ s with fresh := i + 1 }).sendMemWr d
    (MemOp.base flushTag t a (Config.poisonedLine i) 0xF (s.now + s.snpTmo t))
  let s2 := if s1.lossLog.length < 1024 then { s1 with lossLog := s1.lossLog ++ [(a, t)] } else s1
  ((s2.bump F.GLB_LOSS_CNT_COUNT).deferred 0x27 (unitSlice k) (some t) (some a) none).raise (sliceSource d 6) Cls.loss (some t)

/-- Enters a set in the loss map of logical slice `l` for the tenants of a mask (R517). -/
def State.loseSet (s : State) (l n : Nat) (m : BitVec 128) : State :=
  s.modLsl l (fun x => { x with lossSets := spSet false x.lossSets n true, lossTens := x.lossTens ||| m })

/-- The scan-out of another slice for logical slice `l` has still to deliver its HC tags. (Log 86: DESIGN CHOICE) -/
def State.moreTags (s : State) (k l : Nat) : Bool :=
  (List.range 18).any (fun j => j != k && (match (s.slice j).fail with | some g => g.lsl == l && !g.hcDone | none => false))

/-- The scan-out of the HC tags and eviction records of failed slice `k` ends (R516 to R518). -/
def State.hcScanDone (s : State) (k : Nat) : State :=
  match (s.slice k).fail with
  | none => s
  | some f =>
    if f.hcDone then s
    else
      let l := f.lsl
      let frames := (s.slice k).hc.filter (fun e => f.unit ≤ e.1 / 16 && !s.hcRetired k (e.1 / 16) (e.1 % 16))
      let s1 := frames.foldl (fun (s : State) e =>
        let set := e.1 / 16
        let g := e.2.tag
        match tagCheck g with
        | .good => forUp (fun b (s : State) =>
            if (tagV g).getLsbD b && tagDirty g b then s.loseSub k l (subAddr set g b) (tagTen g) else s) 0 4 s
        | .cleanLost => s
        | .mayBeDirty =>
          let m := s.wayTenants (e.1 % 16)
          (s.loseSet l set m).containedMask 0x28 (unitSlice k) m none (some (sliceSource k 9))) s
      let s2 := s1.modLsl l (fun x => { x with lossHold := s1.moreTags k l, holdLines := x.holdLines ++ f.lines,
                                               holdLinesUntil := f.at_ + s.maxTmo })
      s2.modSlice k (fun c => { c with hc := [], lost := [], fail := some { f with hcDone := true } })

/-- Tenants whose HC_WAYMASK is not zero. -/
def State.hcTenants (s : State) : BitVec 128 :=
  s.pat.tens.foldl (fun (m : BitVec 128) (c : TenCfg) => if c.wayMask = 0 then m else m ||| ((1 : BitVec 128) <<< c.ten.toNat)) 0

/-- The bound of 100 µs for that scan-out ends (R517, R518): no set was delivered. (Log 62: DEDUCED) -/
def State.hcScanTimeout (s : State) (k : Nat) : State :=
  match (s.slice k).fail with
  | none => s
  | some f =>
    if f.hcDone then s
    else
      let l := f.lsl
      let s0 := s.until (f.at_ + usec 100)
      let m := s0.hcTenants
      let s1 := if f.unit < 1024 then
          (forUp (fun n (s : State) => s.loseSet l n m) f.unit (1024 - f.unit) s0).containedMask 0x28 (unitSlice k) m none
            (some (sliceSource k 9))
        else s0
      let s2 := s1.modLsl l (fun x => { x with lossHold := s1.moreTags k l, holdUntil := f.at_ + s.maxTmo })
      s2.modSlice k (fun c => { c with hc := [], lost := [], fail := some { f with hcDone := true } })

/-- T has passed since the fence (R518): the eviction lines count no longer, and the reads that waited for them go out.
(Log 62: DEDUCED) -/
def State.evictHoldEnd (s : State) (k : Nat) : State :=
  match (s.slice k).fail with
  | none => s
  | some f =>
    if !f.hcDone then s
    else
      let s1 := (s.until (f.at_ + s.maxTmo)).modLsl f.lsl (fun x => { x with holdLines := [] })
      let s2 := (s.lsl f.lsl).holdLines.foldl (fun (s : State) a => forUp (fun j (s : State) => s.retryMem j a) 0 18 s) s1
      if f.sfDone then s2.modSlice k (fun c => { c with fail := none }) else s2

/-- SF and Clamp scan-out of failed slice `k` has ended for logical slice `l`: the censuses that wait for nothing more
begin (R515, R455). -/
def State.sfScanEnd (s : State) (k : Nat) (f : Failure) : State :=
  let l := f.lsl
  let s1 := s.modSlice k (fun c => { c with sf := [], loose := [], allLoose := false, fail := some { f with sfDone := true } })
  let more := (List.range 18).any (fun j => match (s1.slice j).fail with
    | some g => g.lsl == l && !g.sfDone
    | none => false)
  let s2 := (s1.dests l).foldl (fun (s : State) d => s.modCensus d l (fun c => { c with ready := !more })) s1
  if more then s2 else (s2.clampLost l).modLsl l (fun x => { x with clampHold := false })

/-- The scan-out of the SF and Clamp entries of failed slice `k` completes (09 R372). -/
def State.sfScanDone (s : State) (k : Nat) : State :=
  match (s.slice k).fail with
  | none => s
  | some f =>
    if f.sfDone then s
    else
      let l := f.lsl
      let c := s.slice k
      let mark (s : State) (n : Nat) : State := (s.dests l).foldl (fun (s : State) d => s.setLoose d n) s
      let s1 := c.sf.foldl (fun (s : State) e =>
        let n := e.1 / 16
        if 1024 + n < f.unit ∨ c.sfRet.contains (n, e.1 % 16) then s
        else match sfCheck e.2 with
          | .good v => if sfValid v then s.deliverHint l n v else s
          | .corrected v => if sfValid v then s.deliverHint l n v else s
          | .bad => mark s n) s
      let s2 := c.loose.foldl (fun (s : State) e => mark s e.1) s1
      let s3 := if c.allLoose then (s2.dests l).foldl (fun (s : State) d =>
        s.modSlice d (fun z => { z with allLoose := true, loose := [] })) s2 else s2
      s3.sfScanEnd k f

/-- Scan-out has delivered nothing for 1 ms (09 R372, R524): every set not delivered becomes LOOSE. -/
def State.scanStall (s : State) (k : Nat) : State :=
  match (s.slice k).fail with
  | none => s
  | some f =>
    if f.sfDone then s
    else
      let s1 := (s.dests f.lsl).foldl (fun (s : State) d =>
        (s.modSlice d (fun z => { z with allLoose := true, loose := [] })).setFlag F.SLC_SF_CENSUS_UNREAD true d) s
      s1.sfScanEnd k f

end Sys2Proof.Machine
end

