-- ==== Sys2Proof/Machine/Migrate.lean ====
section
/-!
DEFINITION. Live migration (13_spares_and_degradation.md R508 to R514): start, the copy of a unit, dual-writes below the
watermark, handover and abort.
-/
namespace Sys2Proof.Machine

/-- The watermark W. -/
def State.watermark (s : State) : Nat := s.fget F.GLB_MIG_STATUS_WATERMARK

/-- A migration from `src` to `dst` begins, or is refused (R514, R534). (Log 63: DEDUCED) -/
def State.migBegin (s : State) (src dst : Nat) : State :=
  if s.mig.isNone && s.srole src == .active && (s.logicalOn src).isSome && s.srole dst == .spare && s.predCause dst == 0 then
    let s1 := ({ s with mig := some ⟨src, dst, false, false⟩ }).setRole dst .target
    ((s1.fset F.GLB_MIG_STATUS_STATE 1).fset F.GLB_MIG_STATUS_WATERMARK 0).wakeSlice src
  else s.fset F.GLB_MIG_STATUS_STATE 6

/-! ## Dual-writes (R509, 07 R284) -/

/-- The unretired ways of an SF set. -/
def State.sfWays (s : State) (k n : Nat) : List Nat := (List.range 16).filter (fun w => !s.sfRetired k n w)
/-- The unretired ways of an HC set. -/
def State.hcWays (s : State) (k n : Nat) : List Nat := (List.range 16).filter (fun w => !s.hcRetired k n w)

/-- The target's SF set `n` becomes the source's: its valid entries in the target's unretired ways, and its LOOSE bit. An
entry for which the target has no way makes the set LOOSE there. (Log 63: DEDUCED) -/
def State.mirrorSf (s : State) (a b n : Nat) : State :=
  let es := ((s.sfWays a n).map (fun w => s.sfAt a n w)).filter sfValid
  let ws := s.sfWays b n
  let s1 := (ws.zip (es ++ List.replicate 16 0)).foldl (fun (s : State) x => s.sfPut b n x.1 x.2) s
  if (s1.isLoose a n || decide (ws.length < es.length)) && !s1.isLoose b n then s1.setLoose b n else s1

/-- Frames of an HC set of the source for which the target has no way are written to memory and dropped (10 R423).
(Log 63: DEDUCED) -/
def State.spillHc (s : State) (a b n : Nat) : State :=
  let used := (s.hcWays a n).filter (fun w => tagV (s.frame a n w).tag != 0)
  (used.drop (s.hcWays b n).length).foldl (fun (s : State) w =>
    (forUp (fun i (s : State) =>
      let g := (s.frame a n w).tag
      if (tagV g).getLsbD i && tagDirty g i then
        let s1 := s.readSub a n w i
        let x := s1.subAt a n w i
        s1.sendMemWr a (MemOp.base flushTag (tagTen g) (subAddr n g i) x.1 x.2 (s1.now + s1.snpTmo (tagTen g)))
      else s) 0 4 s).setFrame a n w Frame.free) s

/-- The target's HC set `n` becomes the source's. -/
def State.mirrorHc (s : State) (a b n : Nat) : State :=
  let s1 := s.spillHc a b n
  let fs := ((s1.hcWays a n).map (fun w => s1.frame a n w)).filter (fun f => tagV f.tag != 0)
  let clean (f : Frame) : Frame := { f with subs := f.subs.map (fun x => (x.1, { x.2 with flip0 := 0, flip1 := 0 })) }
  ((s1.hcWays b n).zip (fs.map clean ++ List.replicate 16 Frame.free)).foldl (fun (s : State) x => s.setFrame b n x.1 x.2) s1

/-- The sets of a slice that hold anything. -/
def setsOf {α : Type} (l : Sp α) : List Nat := (l.map (fun e => e.1 / 16)).eraseDups

/-- Every unit below the watermark of the running migration stands in the target as in the source (R509): the
dual-writes of what a command has changed. -/
def State.mirror (s : State) : State :=
  match s.mig with
  | none => s
  | some g =>
    let w := s.watermark
    let a := s.slice g.src
    let b := s.slice g.dst
    let hs := ((setsOf a.hc ++ setsOf b.hc).eraseDups).filter (fun n => n < w)
    let ns := ((setsOf a.sf ++ setsOf b.sf ++ a.loose.map (·.1)).eraseDups).filter (fun n => 1024 + n < w)
    ns.foldl (fun (s : State) n => s.mirrorSf g.src g.dst n) (hs.foldl (fun (s : State) n => s.mirrorHc g.src g.dst n) s)

/-! ## The copy engine (R510) -/

/-- The next unit's set entry is asked for (R510), while W is below LIMIT and the copy runs. -/
def State.migCopy (s : State) : State :=
  match s.mig with
  | none => s
  | some g =>
    let w := s.watermark
    if g.busy || g.handover || s.isSafe || decide (s.fget F.GLB_MIG_LIMIT_LIMIT ≤ w) || decide (66560 ≤ w) then s
    else
      ({ s with mig := some { g with busy := true } }).shedOrWait g.src
        (Txn.new .migrate (internalMsg 0 0) 0 (if w < 1024 then .hcSet w else .sfSet (w - 1024)))

/-- The unit's copy is complete in the target: its set entry closes and W advances; at 66,560 handover begins (R513). -/
def State.migAdvance (s : State) (t : Nat) : State :=
  match s.mig with
  | none => s
  | some g =>
    let w := s.watermark + 1
    let s1 := ({ s with mig := some { g with busy := false, handover := 66560 ≤ w } }).fset F.GLB_MIG_STATUS_WATERMARK w
    let s2 := s1.closeTxn g.src t
    if 66560 ≤ w then
      let s3 := s2.fset F.GLB_MIG_STATUS_STATE 2
      match s3.logicalOn g.src with
      | some l => s3.modLsl l (fun x => { x with handover := true })
      | none => s3
    else s2

/-- The surplus of the unit's SF set is back-invalidated, as internal trackers allow (09 R384), and then the set is
copied. -/
def State.migSurplus (s : State) (k t n : Nat) : State :=
  match s.txn k t, s.mig with
  | some x, some g =>
    let step (s : State) (e : Addr × Tenant × LineRec) : State :=
      let b := Txn.new (.backInv n .surplus) (internalMsg e.2.1 e.1) 0 (.line e.1)
      match s.freeTracker k b with
      | some i => (s.modTxn k t (fun x => { x with rebuilt := x.rebuilt.erase e })).admitAt k i { b with lrec := e.2.2 }
      | none => s
    let s1 := x.rebuilt.foldl step s
    match s1.txn k t with
    | some y => if y.rebuilt.isEmpty && !s1.surplusOpen k n then (s1.mirrorSf k g.dst n).migAdvance t else s1
    | none => s1
  | _, _ => s

/-- The set entry of a unit has been admitted (R510): what it holds is checked and copied. -/
def State.migAct (s : State) (k t : Nat) : State :=
  match s.txn k t, s.mig with
  | some x, some g =>
    match x.scope with
    | .hcSet n =>
      let s1 := s.hcCheckSet k n
      let s2 := forUp (fun w (s : State) => if s.hcRetired k n w then s
        else forUp (fun b (s : State) => s.readSub k n w b) 0 4 s) 0 16 s1
      (s2.mirrorHc k g.dst n).migAdvance t
    | .sfSet n =>
      let s1 := s.sfCheckSet k n
      let es := ((s1.sfWays k n).map (fun w => s1.sfAt k n w)).filter sfValid
      let vs := censusVictims (es.length - (s1.sfWays g.dst n).length) es
      (s1.modTxn k t (fun x => { x with phase := .way, rebuilt := vs.map (fun e => (sfLine n e, sfTen e, sfRec e)) })).migSurplus
        k t n
    | .line _ => s.closeTxn k t
  | some _, none => s.closeTxn k t
  | none, _ => s

/-- A unit whose surplus is being back-invalidated goes on. -/
def State.retryMig (s : State) (k : Nat) : State :=
  (s.slice k).trk.foldl (fun (s : State) e =>
    match s.txn k e.1 with
    | some x =>
      match x.kind, x.scope with
      | .migrate, .sfSet n => if x.phase = .way then s.migSurplus k e.1 n else s
      | _, _ => s
    | none => s) s

/-! ## Handover (R513) -/

/-- The source has drained: no open entry, no tracker, no chained transaction, no memory write and no gather, and no
census of its own. (Log 63: DEDUCED) -/
def State.migDrained (s : State) (k : Nat) : Bool :=
  let c := s.slice k
  c.trk.all (fun e => e.2.isNone) && c.chain.isEmpty && c.memOps.isEmpty && c.gathers.isEmpty && c.census.isEmpty

/-- Handover completes (R513 steps 3 to 5). -/
def State.migHandover (s : State) : State :=
  match s.mig with
  | none => s
  | some g =>
    if !g.handover || !s.migDrained g.src then s
    else match s.logicalOn g.src with
    | none => s
    | some l =>
      let old := s.slice g.src
      let s1 := s.mirror
      let s2 := (s1.modLsl l (fun x => { x with phys := g.dst, handover := false })).repointHosted g.src g.dst
      let s3 := ((((s2.setRole g.dst .active).setRole g.src .fenced).unpredict g.src).jigSliceGone g.src).moveCounters g.src g.dst
      let s4 := (s3.modSlice g.src Slice.reset).modSlice g.dst (fun c => { c with walk0 := old.walk0, walk1 := old.walk1,
                                                                                  ingress := old.ingress })
      let s5 := ({ s4 with mig := none }).fset F.GLB_MIG_STATUS_STATE 3
      s5.ingressAll g.dst

/-- GLB_MIG_CTL.ABORT (R514). (Log 63: DEDUCED) -/
def State.migAbort (s : State) : State :=
  match s.mig with
  | none => s
  | some g => (s.migEnd 4).ingressAll g.src

/-- Umevo starts the migration of slice `k` (R508): it is the first predicted one, a spare is available and no migration
runs. -/
def State.migAuto (s : State) (k : Nat) : State :=
  if s.mig.isNone && s.predQ.find? (fun j => s.srole j == .active) == some k then
    match s.spare with
    | some d => ((s.fset F.GLB_MIG_CTL_SRC k).fset F.GLB_MIG_CTL_DST d).migBegin k d
    | none => s
  else s

end Sys2Proof.Machine
end

