-- ==== Sys2Proof/Machine/Tenants.lean ====
section
/-!
DEFINITION. Tenants (12_tenants.md R466 to R503) and their overlays (14_pattern_image.md R563 to R574): staging buffers,
validation of an overlay and its taking effect, and the steps of a tenant reset.
-/
namespace Sys2Proof.Machine

/-- The Umevo core runs: it is neither held in reset nor halted (17 R645, R646). -/
def State.umevoRuns (s : State) : Bool := !s.umv.halted && s.fget F.WDG_UMV_STATUS_STATE % 3 == 0

/-- Umevo writes an entry of its log (17 R630, R631), when it runs. (Log 74: DEDUCED) -/
def State.umvLog (s : State) (code unit : Nat) (ten : Tenant) (detail : Nat) : State :=
  if !s.umevoRuns then s
  else
    let h := s.fget F.WDG_LOG_SEL_HEAD
    let w2 := 2 ^ 31 + ten.toNat * 2 ^ 16 + unit % 256 * 2 ^ 8 + code
    let e : BitVec 128 := BitVec.ofNat 32 detail ++ BitVec.ofNat 32 w2 ++ fab64 s.now
    ({ s with umv := { s.umv with log := spSet 0 s.umv.log h e } }).fset F.WDG_LOG_SEL_HEAD (h + 1)

/-! ## Staging buffers (R476 to R479) -/

/-- The owner tag's master: the I3C mark and the ID; the internal path of Umevo has ID 0. (Log 35: DEDUCED) -/
def masterOf : Party → BitVec 21
  | .i3c id => (1 : BitVec 1) ++ id.zeroExtend 20
  | .mgt src => (0 : BitVec 1) ++ src
  | _ => 0

/-- Staging buffer `i`. -/
def State.stg (s : State) (i : Nat) : Staging := spGet Staging.zero s.tns.staging i

/-- Staging buffer `i` replaced. -/
def State.setStg (s : State) (i : Nat) (b : Staging) : State :=
  { s with tns := { s.tns with staging := spSet Staging.zero s.tns.staging i b } }

/-- A freed buffer (R476). -/
def Staging.freed (b : Staging) : Staging := { Staging.zero with gen := b.gen + 1 }

/-- The checks of R478: 1 DONE, 3 STALE, 4 NOT_OWNER. -/
def State.stgCheck (s : State) (n : Tenant) (master : BitVec 21) (h : BitVec 16) : Nat :=
  let b := s.stg (h.toNat % 32)
  if !b.used || b.gen.toNat != h.toNat / 32 then 3 else if b.ten != n || b.master != master then 4 else 1

/-- Counts a failed check and raises its event (R478). -/
def State.stgReject (s : State) (n : Tenant) (h : BitVec 16) (result : Nat) : State :=
  if result = 3 then s.bump F.TNT_STG_ERRCNT_STALE n.toNat
  else if result = 4 then
    let o := (s.stg (h.toNat % 32)).ten
    (s.bump F.TNT_STG_ERRCNT_NOTOWN o.toNat).raise 20 Cls.staging (some o)
  else s

/-- Records the result of a command (R477). -/
def State.stgResult (s : State) (n : Tenant) (master : BitVec 21) (h : BitVec 16) (result : Nat) : State :=
  let t := n.toNat
  ((((s.setFlag F.TNT_STG_STATUS_VALID true t).fset F.TNT_STG_STATUS_RESULT result t).fset F.TNT_STG_STATUS_HANDLE h.toNat
    t).fset F.TNT_STG_MASTER_I3C (master.toNat / 2 ^ 20) t).fset F.TNT_STG_MASTER_ID master.toNat t

/-- ALLOC (R477): DONE is 1, FULL is 2. -/
def State.stgAlloc (s : State) (n : Tenant) (master : BitVec 21) : State :=
  let held := (s.tns.staging.filter (fun e => e.2.used && e.2.ten == n)).length
  match if held < 2 then firstFrom (fun i => !(s.stg i).used) 0 32 else none with
  | none => s.stgResult n master 0 2
  | some i =>
    let g := (s.stg i).gen
    (s.setStg i ⟨true, g, n, master, []⟩).stgResult n master (BitVec.ofNat 16 (g.toNat * 32 + i)) 1

/-- FREE (R477). -/
def State.stgFree (s : State) (n : Tenant) (master : BitVec 21) (h : BitVec 16) : State :=
  let r := s.stgCheck n master h
  let i := h.toNat % 32
  (if r = 1 then s.setStg i (s.stg i).freed else s.stgReject n h r).stgResult n master h r

/-- LOAD (R477, 14 R569, R573): BUSY is 5. -/
def State.stgLoad (s : State) (n : Tenant) (master : BitVec 21) (h : BitVec 16) : State :=
  let r := s.stgCheck n master h
  if r ≠ 1 then (s.stgReject n h r).stgResult n master h r
  else if s.fget F.PAT_STATUS_LOADER ≠ 0 then s.stgResult n master h 5
  else
    (({ s with tns := { s.tns with load := some (n, (s.stg (h.toNat % 32)).words) } }).fset F.PAT_STATUS_LOADER 2).stgResult
      n master h 1

/-- An access to TNTn_STG_DATA (R479): the word read, zero for a write and for an access that fails its checks. (Log 27: DEDUCED) -/
def State.stgData (s : State) (n : Tenant) (master : BitVec 21) (wr : Option Word) : Word × State :=
  let h := BitVec.ofNat 16 (s.fget F.TNT_STG_ADDR_HANDLE n.toNat)
  let o := s.fget F.TNT_STG_ADDR_OFFSET n.toNat
  let i := h.toNat % 32
  let s1 := s.fset F.TNT_STG_ADDR_OFFSET (o + 1) n.toNat
  let r := s.stgCheck n master h
  if r ≠ 1 then (0, s1.stgReject n h r)
  else match wr with
    | some w => (0, s1.setStg i { s.stg i with words := spSet 0 (s.stg i).words o w })
    | none => (spGet 0 (s.stg i).words o, s1)

/-! ## Overlays (14 R563 to R574) -/

/-- Every node of block `b` lies in the domain `d`, whose blocks do not overlap. -/
def domCovers (d : List (Node × Nat)) (b : Node × Nat) : Bool :=
  d.any (fun c => b.2 ≤ c.2 && inBlock b.1 c.1 c.2) ||
    (d.filter (fun c => c.2 ≤ b.2 && inBlock c.1 b.1 b.2)).foldl (fun a c => a + 2 ^ c.2) 0 == 2 ^ b.2

/-- The change takes an address, a permission or a node away (12 R481). (Log 35: DEDUCED) -/
def narrows (old new : Option TenCfg) : Bool :=
  match old, new with
  | none, _ => false
  | some _, none => true
  | some a, some b =>
    let kept (w : PWindow) : Bool := match b.windows.find? (fun x => x.idx == w.idx) with
      | some x => x.base ≤ w.base && w.limit ≤ x.limit && (!w.rd || x.rd) && (!w.wr || x.wr) && (!w.cache || x.cache)
      | none => false
    !(a.windows.all kept && a.dom.all (domCovers b.dom))

/-- The V48 entries of tenant `t` become ALL entries (09 R385), each a change of format (09 R377). (Log 50: DEDUCED) -/
def State.v48ToAll (s : State) (t : Tenant) : State :=
  let isV48 (e : BitVec 118) : Bool := sfValid e && sfTen e == t && fmtNo (sfRec e).sh == 1
  let read (c : Slice) (e : Nat × BitVec 118) : BitVec 118 :=
    if c.sfRet.contains (e.1 / 16, e.1 % 16) then e.2
    else match sfCheck e.2 with | .corrected x => if sfTen x = t then x else e.2 | _ => e.2
  let live (c : Slice) (e : Nat × BitVec 118) : Bool := !c.sfRet.contains (e.1 / 16, e.1 % 16) && isV48 (read c e)
  let conv (c : Slice) (e : Nat × BitVec 118) : BitVec 118 :=
    let x := read c e
    if live c e then sfPack (sfRef x) t (sfLine (e.1 / 16) x) { sfRec x with sh := .all } else x
  forUp (fun k (s : State) =>
    let n := ((s.slice k).sf.filter (live (s.slice k))).length
    (s.modSlice k (fun c => { c with sf := c.sf.map (fun e => (e.1, conv c e)) })).bumpBy F.SLC_SF_XFMT_PROMO n k) 0 18 s

/-- The registers that hold a tenant's configured values (12 R494). (Log 35: DEDUCED) -/
def State.tenRegs (s : State) (t : Tenant) : State :=
  let c := (s.cfg t).getD { TenCfg.none t with snpTmo := 0, cap := 0 }
  let n := t.toNat
  ((((s.fset F.TNT_CTL_SNP_TMO c.snpTmo n).setFlag F.TNT_CTL_SPEC c.spec n).setFlag F.TNT_CTL_RCM c.rcm n).fset
    F.TNT_POOL_CAP c.cap n).fset F.TNT_POOL_WEIGHT c.weight n

/-- An overlay takes effect at this instant (12 R481). (Log 35: DEDUCED) -/
def State.applyOverlay (s : State) (o : Overlay) : State :=
  let t := o.ten
  let old := s.cfg t
  let regions (c : TenCfg) : List (Node × Nat) × Nat × Nat := (c.dom, c.regionExp, c.allThresh)
  let s0 := match old, o.cfg with
    | some a, some b => if regions a = regions b then s else s.v48ToAll t
    | _, _ => s
  let s1 := ({ s0 with pat := s0.pat.withTen t o.cfg }).tenRegs t
  let s2 := if s1.resetting t then s1 else s1.fset F.TNT_STATUS_STATE (if o.cfg.isSome then 1 else 0) t.toNat
  s2.vectorsOverlay t

/-- Ways that an overlay takes from its tenant. (Log 36: DEDUCED) -/
def State.waysLost (s : State) (o : Overlay) : BitVec 16 :=
  (s.ten o.ten).wayMask &&& ~~~(match o.cfg with | some c => c.wayMask | none => 0)

/-- The tenant holds a sub-block in one of the ways. -/
def State.holdsWays (s : State) (t : Tenant) (ways : BitVec 16) : Bool :=
  (List.range 18).any (fun k => (s.slice k).hc.any (fun e =>
    ways.getLsbD (e.1 % 16) && tagV e.2.tag != 0 && tagTen e.2.tag == t))

/-- A range job of context 1 over the whole space for one tenant starts (10 R411, 12 R487, R499). (Log 36: DEDUCED) -/
def State.startCtx1 (s : State) (t : Tenant) (ways : BitVec 16) : State :=
  let j : RangeJob := { op := 1, base := 0, limit := 2 ^ 52 - 1, ten := some t, ways := ways }
  (forUp (fun k (s : State) =>
    let skip := (s.slice k).pwr == .deep
    let s1 := s.modSlice k (fun c => { c with walk1 := if skip then 1024 else 0 })
    if !skip && (s1.slice k).pwr == .sleep then s1.wakeSlice k else s1) 0 18 { s with ctx1 := some j }).rangeCheck 1

/-- Overlays that wait for the range engine take effect in the order of their acceptance (10 R402, 14 R569): the first
once its tenant holds nothing in the ways it loses. (Log 36: DEDUCED) -/
def State.applyWaiting (s : State) : Nat → State
  | 0 => s
  | n + 1 =>
    match s.tns.waiting with
    | [] => s
    | o :: rest =>
      let ways := s.waysLost o
      let ours := match s.ctx1 with | some j => j.ten == some o.ten && j.ways == ways | none => false
      if s.holdsWays o.ten ways || ours then (if s.ctx1.isSome then s else s.startCtx1 o.ten ways)
      else (({ s with tns := { s.tns with waiting := rest } }).applyOverlay o).applyWaiting n

/-- An accepted overlay that narrows nothing takes effect now, or after those that wait. -/
def State.overlayNow (s : State) (o : Overlay) : State :=
  let s1 := { s with tns := { s.tns with waiting := s.tns.waiting ++ [o] } }
  s1.applyWaiting s1.tns.waiting.length

/-- The result of an overlay is recorded (14 R560, R566), and its event raised (R565). (Log 35: DEDUCED) -/
def State.overlayResult (s : State) (t : Tenant) (code : Nat) (held : Bool) (seq : Nat) : State :=
  ((((s.setFlag F.PAT_OVL_VALID true).setFlag F.PAT_OVL_HELD held).fset F.PAT_OVL_TENANT t.toNat).fset F.PAT_OVL_CODE
    code).fset F.PAT_OVLSEQ_SEQ seq

/-- A rejection is recorded (14 R560, R566). -/
def State.patErr (s : State) (e : ImgErr) (overlay : Bool) (ten : Nat) : State :=
  (((((s.setFlag F.PAT_ERR_VALID true).setFlag F.PAT_ERR_KIND overlay).fset F.PAT_ERR_TENANT ten).fset F.PAT_ERR_CODE
    e.code).fset F.PAT_ERRLOC_SECTION e.sect).fset F.PAT_ERRLOC_RECORD e.rec_

/-- The digest of the base Pattern in force, as PAT_DIGEST reports it. -/
def State.digest (s : State) : List Nat := (List.range 12).flatMap (fun i => bytesLe 4 (s.fget F.PAT_DIGEST_BYTES 0 i))

/-- An accepted overlay (14 R565, 12 R481, R482, R501): it is held when it narrows or its tenant is RESETTING. (Log 35: DEDUCED) -/
def State.overlayAccepted (s : State) (o : Overlay) (seq : Nat) : State :=
  let t := o.ten
  let narrow := narrows (s.cfg t) o.cfg
  let s1 := { s with tns := { s.tns with seq := spSet 0 s.tns.seq t.toNat seq, held := spErase t.toNat s.tns.held } }
  let s2 := (s1.setFlag F.TNT_STATUS_PEND_OVL narrow t.toNat).overlayResult t 0 narrow seq
  let s3 := if narrow || s2.resetting t
    then { s2 with tns := { s2.tns with held := spSet none s2.tns.held t.toNat (some o) } }
    else s2.overlayNow o
  s3.raise 19 Cls.overlay (some t)

/-- Validation of the overlay that the loader holds completes (14 R558, R563, R568). -/
def State.overlayValidated (s : State) : State :=
  match s.tns.load with
  | none => s
  | some (t, words) =>
    if !s.umevoRuns then s
    else
      let b := wordBytes 4096 words
      let seq := imgLe b 0x20 4
      let lc := s.lifecycle
      let last := spGet 0 s.tns.seq t.toNat
      let bnd : Binding := { ten := t, digest := s.digest, seq := if last = 0 then none else some last,
                             closed := s.isSafe || (lc == 2 && !s.pat.ovlLocked) }
      let held := s.tns.waiting ++ s.tns.held.filterMap (·.2)
      let s1 := ({ s with tns := { s.tns with load := none } }).fset F.PAT_STATUS_LOADER 0
      let s2 := match overlayErr s.boot.fuses lc bnd s.pat held b with
        | some e => ((s1.overlayResult t e.code false seq).patErr e true (imgLe b 0x18 1)).raise 19 Cls.overlay (some t)
        | none => s1.overlayAccepted ⟨t, (imgTens b).head?⟩ seq
      s2.umvLog 0x07 0 t (s2.word (F.PAT_OVL_VALID.addr 0 0)).toNat

/-- The validation in progress is abandoned with code 0x64 (14 R568). -/
def State.overlayAbandoned (s : State) : State :=
  match s.tns.load with
  | none => s
  | some (t, words) =>
    ((({ s with tns := { s.tns with load := none } }).fset F.PAT_STATUS_LOADER 0).overlayResult t 0x64 false
      (imgLe (wordBytes 9 words) 0x20 4)).raise 19 Cls.overlay (some t)

/-! ## QUIESCE (R484, R485) -/

/-- A request that waits is answered without being executed (07 R266, R290): `chained` says that its window entry is
made. -/
def State.turnAway (s : State) (op : BitVec 8) (chained : Bool) (m : Msg) : State :=
  let l := s.winSlice m
  let r := plainResp m op
  if chained then (s.send r).winUnexecuted l m r
  else match s.winAsk l m with
    | .go _ => ((s.winOpen l m).send r).winUnexecuted l m r
    | _ => s.send r

/-- A client's own request, as against a transaction that the home makes itself. -/
def Txn.isClient (x : Txn) : Bool := x.kind == .client

/-- Chained requests that `sel` selects, and those at the ingress, are answered with `op`; `ing` says whether the latter
are too. -/
def State.answerWaiting (s : State) (op : BitVec 8) (sel : Txn → Bool) : State :=
  forUp (fun k (s : State) =>
    let mine (x : Txn) : Bool := x.isClient && sel x
    let c := s.slice k
    let s1 := s.modSlice k (fun c => { c with chain := c.chain.filter (fun x => !mine x), ingress := c.ingress.filter (fun x => !mine x) })
    let s2 := (c.chain.filter mine).foldl (fun (s : State) x => s.turnAway op true x.m) s1
    ((c.ingress.filter mine).foldl (fun (s : State) x => s.turnAway op false x.m) s2).react (.admitNext k)) 0 18 s

/-- A transaction of this kind has been admitted and holds a tracker. -/
def State.admittedKind (s : State) (kd : TKind) : Bool :=
  (List.range 18).any (fun k => (s.slice k).trk.any (fun e => match e.2 with | some x => x.kind == kd | none => false))

/-- Removes the waiting transactions that `sel` selects. -/
def State.dropWaiting (s : State) (sel : Txn → Bool) : State :=
  forUp (fun k (s : State) => s.modSlice k (fun c =>
    { c with chain := c.chain.filter (fun x => !sel x), ingress := c.ingress.filter (fun x => !sel x) })) 0 18 s

/-- Posted and combining entries of port `p` that `sel` selects and that no slice has admitted are discarded and counted
in DISC (08 R342, R343). (Log 57: DEDUCED) -/
def State.discardPort (s : State) (p : Nat) (sel : Tenant → Bool) : State :=
  let q := s.port p
  let gone := q.pwb.filter (fun w => sel w.m.ten && !s.admittedKind (.posted p w.no))
  let s1 := gone.foldl (fun (s : State) w => ((s.dropWaiting (fun x => x.kind == .posted p w.no)).modPort p
    (fun q => { q with pwb := q.pwb.filter (fun x => x.no != w.no) })).bump F.PRT_WB_FLUSH2_DISC p) s
  q.cwb.foldl (fun (s : State) c =>
    if !sel c.ten then s
    else
      let lost := c.lines.filter (fun y => !s.admittedKind (.combined p c.idx y.1))
      if lost.isEmpty then s
      else
        let left := c.lines.filter (fun y => s.admittedKind (.combined p c.idx y.1))
        let s1 := s.dropWaiting (fun x => lost.any (fun y => x.kind == .combined p c.idx y.1))
        let keep (l : List Combine) : List Combine :=
          if left.isEmpty then l.filter (fun x => x.idx != c.idx)
          else l.map (fun x => if x.idx = c.idx then { x with lines := left, flushing := true } else x)
        (s1.modPort p (fun q => { q with cwb := keep q.cwb })).bump F.PRT_WB_FLUSH2_DISC p) s1

/-- Outstanding FenceFull requests that `sel` selects are answered with `op`. -/
def State.answerFences (s : State) (op : BitVec 8) (sel : Tenant → Bool) : State :=
  forUp (fun p (s : State) =>
    let gone := (s.port p).fences.filter (fun f => sel f.m.ten)
    gone.foldl (fun (s : State) f => s.turnAway op true f.m)
      (s.modPort p (fun q => { q with fences := q.fences.filter (fun f => !sel f.m.ten) }))) 0 12 s

/-- An admitted transaction that has sent nothing and changed nothing (R485). (Log 58, 73: DEDUCED) -/
def Txn.untouched (x : Txn) : Bool :=
  x.opened && !x.sent && (x.phase == .waiting || x.phase == .mem || x.phase == .way)

/-- Tracker `t` of slice `k` is given up: its entry closes, and it frees when no memory response is due (R485). -/
def State.giveUp (s : State) (k t : Nat) : State := (s.cancelMemRd k t).closeTxn k t

/-- Admitted requests of tenant `t` that are untouched are aborted (R485). (Log 73: DEDUCED) -/
def State.abortClients (s : State) (t : Tenant) : State :=
  forUp (fun k (s : State) => (s.slice k).trk.foldl (fun (s : State) e => match e.2 with
    | some x =>
      if x.isClient && x.m.ten == t && x.untouched then
        let r := plainResp x.m Op.tenantResetting
        (((s.giveUp k e.1).send r).winLose (s.winSlice x.m) x.m).bump F.TNT_RST_CNT_ABORTED t.toNat
      else s
    | none => s) s) 0 18 s

/-- A transaction is an element of gather `g` of slice `c`. -/
def Txn.elemOf (x : Txn) (c g : Nat) : Bool := match x.kind with | .elem a b _ => a == c && b == g | _ => false

/-- Gathers and scatters of tenant `t` of which no element has acted are aborted whole (R485). (Log 58: DEDUCED) -/
def State.abortGathers (s : State) (t : Tenant) : State :=
  forUp (fun c (s : State) => (s.slice c).gathers.foldl (fun (s : State) g =>
    let acted := g.stat.any (fun e => match e.2 with | some st => st == 0 || 4 ≤ st | none => false) ||
      (List.range 18).any (fun k => (s.slice k).trk.any (fun e => match e.2 with
        | some x => x.elemOf c g.idx && !x.untouched
        | none => false))
    if g.m.ten ≠ t ∨ acted then s
    else
      let s1 := s.dropWaiting (fun x => x.elemOf c g.idx)
      let s2 := forUp (fun k (s : State) => (s.slice k).trk.foldl (fun (s : State) e => match e.2 with
        | some x => if x.elemOf c g.idx then s.giveUp k e.1 else s
        | none => s) s) 0 18 s1
      let s3 := s2.modSlice c (fun z => { z with gathers := z.gathers.filter (fun e => e.idx != g.idx) })
      ((s3.send (plainResp g.m Op.tenantResetting)).winLose (s3.winSlice g.m) g.m).bump F.TNT_RST_CNT_ABORTED t.toNat) s) 0 18 s

/-- QUIESCE of tenant `t` (R484). (Log 73: DEDUCED) -/
def State.quiesce (s : State) (t : Tenant) : State :=
  let s1 := s.answerWaiting Op.tenantResetting (fun x => x.m.ten == t)
  let s2 := forUp (fun p (s : State) => s.discardPort p (· == t)) 0 12 s1
  let s3 := s2.answerFences Op.tenantResetting (· == t)
  let s4 := forUp (fun l (s : State) => s.clampQuiesce l t Op.tenantResetting false) 0 s3.pat.nActive s3
  ((s4.abortGathers t).abortClients t).react .visible

/-! ## The steps of a tenant reset (R483 to R489) -/

/-- A GO write, or an automatic request (R483, R496). (Log 73: DEDUCED) -/
def State.tenantGo (s : State) (t : Tenant) : State :=
  let n := t.toNat
  if s.fget F.TNT_STATUS_STATE n ≠ 1 then s
  else
    let s1 := ((s.fset F.TNT_STATUS_STATE 2 n).fset F.TNT_STATUS_STEP 1 n).setFlag F.TNT_STATUS_QUEUED
      (!s.tns.queue.isEmpty) n
    ({ s1 with tns := { s1.tns with queue := s1.tns.queue ++ [t], at_ := spSet 0 s1.tns.at_ n s1.now,
                                    done := s1.tns.done || s1.tns.queue.isEmpty } }).quiesce t

/-- The step after `before` of tenant `t` may start (R483, R497, R498): it is first in the queue, the step in progress
has completed, Umevo runs, and the chiplet is not in the safe state. -/
def State.stepMay (s : State) (t : Tenant) (before : Nat) : Bool :=
  s.tns.queue.head? == some t && s.fget F.TNT_STATUS_STEP t.toNat == before && s.tns.done && s.umevoRuns && !s.isSafe

/-- A step starts. -/
def State.stepStart (s : State) (t : Tenant) (code : Nat) : State :=
  ({ s with tns := { s.tns with done := false } }).fset F.TNT_STATUS_STEP code t.toNat

/-- DRAIN starts. -/
def State.tenantDrain (s : State) (t : Tenant) : State := if s.stepMay t 1 then s.stepStart t 2 else s

/-- Every admitted transaction of the tenant has freed its tracker. -/
def State.tenDrained (s : State) (t : Tenant) : Bool :=
  (List.range 18).all (fun k =>
    (s.slice k).trk.all (fun e => match e.2 with | some x => x.internal || x.m.ten != t | none => true) &&
    (s.slice k).chain.all (fun x => x.internal || x.m.ten != t) && (s.slice k).ingress.all (fun x => x.internal || x.m.ten != t))

/-- Census has closed every set up to set `n` in slice `k` (R500). -/
def State.censusPast (s : State) (k n : Nat) : Bool :=
  (s.slice k).census.all (fun c => decide (n < c.next) && c.opened.all (fun o => decide (n < o)))

/-- Back-invalidations of a tenant reset that slice `k` has not finished. -/
def State.invOpen (s : State) (k : Nat) : Nat :=
  let is (x : Txn) : Bool := match x.kind with | .backInv _ .tenant => true | _ => false
  let c := s.slice k
  (c.trk.filter (fun e => match e.2 with | some x => x.opened && is x | none => false)).length +
    (c.chain.filter is).length + (c.ingress.filter is).length

/-- The scan of INVALIDATE in slice `k` goes on (R486, R491, R500): up to `n` of the tenant's entries from the scan's
place on, with at most 48 open. -/
def State.invStep (s : State) (k : Nat) : Nat → State
  | 0 => s
  | n + 1 =>
    match (s.slice k).inv with
    | none => s
    | some (t, at_) =>
      match (s.slice k).sf.find? (fun e => at_ ≤ e.1 && sfValid e.2 && sfTen e.2 == t && !s.sfRetired k (e.1 / 16) (e.1 % 16)) with
      | none => if s.censusPast k 65535 then s.modSlice k (fun c => { c with inv := none }) else s
      | some e =>
        if 48 ≤ s.invOpen k ∨ !s.censusPast k (e.1 / 16) then s
        else
          let s0 := s.sfCheckSet k (e.1 / 16)
          let v := s0.sfAt k (e.1 / 16) (e.1 % 16)
          let s1 := s0.modSlice k (fun c => { c with inv := some (t, e.1 + 1) })
          let s2 := if sfValid v && sfTen v == t then s1.backInv k t (sfLine (e.1 / 16) v) .tenant else s1
          s2.invStep k n

/-- INVALIDATE starts (R486, R499): it skips slices in DEEP and wakes those in SLEEP. -/
def State.tenantInvalidate (s : State) (t : Tenant) : State :=
  if s.stepMay t 2 then
    s.actives.foldl (fun (s : State) k =>
      if (s.slice k).pwr = .deep then s
      else
        let s1 := s.modSlice k (fun c => { c with inv := some (t, 0) })
        (if (s1.slice k).pwr = .sleep then s1.wakeSlice k else s1).invStep k 1048576) (s.stepStart t 3)
  else s

/-- CLEAN starts (R487), when context 1 is free. (Log 36: DEDUCED) -/
def State.tenantClean (s : State) (t : Tenant) : State :=
  if s.stepMay t 3 && s.ctx1.isNone then (s.stepStart t 4).startCtx1 t 0xFFFF else s

/-- REVOKE starts, in every bank (11 R454). -/
def State.tenantRevoke (s : State) (t : Tenant) : State :=
  if s.stepMay t 4 then forUp (fun l (s : State) => s.clampRevoke l t) 0 s.pat.nActive (s.stepStart t 5) else s

/-- The work of the step in progress is complete. -/
def State.stepOver (s : State) (t : Tenant) : Bool :=
  match s.fget F.TNT_STATUS_STEP t.toNat with
  | 2 => s.tenDrained t
  | 3 => (List.range 18).all (fun k => (s.slice k).inv.isNone && s.invOpen k == 0)
  | 4 => match s.ctx1 with | some j => j.ten != some t | none => true
  | 5 => true
  | _ => false

/-- A step after QUIESCE ends (R484), and Umevo logs it. -/
def State.tenantStepEnd (s : State) (t : Tenant) : State :=
  if s.tns.queue.head? = some t ∧ !s.tns.done ∧ s.stepOver t then
    ({ s with tns := { s.tns with done := true } }).umvLog 0x05 0 t (s.fget F.TNT_STATUS_STEP t.toNat)
  else s

/-- What CLEAR takes from the slices (R488, 08 R342, 10 R408, 13 R517). -/
def State.clearSlices (s : State) (t : Tenant) : State :=
  let keep : BitVec 128 := ~~~(BitVec.ofNat 128 (2 ^ t.toNat))
  let s1 := forUp (fun k (s : State) => s.modSlice k (fun c => { c with
    rsv := c.rsv.filter (fun e => e.ten != t),
    lost := (c.lost.map (fun r => { r with tens := r.tens &&& keep })).filter (fun r => r.tens != 0) })) 0 18 s
  forUp (fun l (s : State) => s.modLsl l (fun x =>
    let m := x.lossTens &&& keep
    { x with lossTens := m, lossSets := if m = 0 then [] else x.lossSets })) 0 s1.pat.nActive s1

/-- The tenant's staging buffers are freed (R488). -/
def State.clearStaging (s : State) (sel : Staging → Bool) : State :=
  s.tns.staging.foldl (fun (s : State) e => if e.2.used && sel e.2 then s.setStg e.1 e.2.freed else s) s

/-- The counters that CLEAR clears (R488). -/
def State.clearCounts (s : State) (t : Nat) : State :=
  let z (s : State) (f : Fld) : State := s.setWord (f.addr t 0) 0
  [F.TNT_ACC_CNT_COUNT, F.TNT_ACC_LAST0_KIND, F.TNT_ACC_LAST1_VALID, F.TNT_ACC_LAST2_SRC, F.TNT_STG_ERRCNT_STALE].foldl z s

/-- The tenant leaves its reset (R489), and the next in the queue goes on. (Log 73: DEDUCED) -/
def State.tenantBack (s : State) (t : Tenant) : State :=
  let n := t.toNat
  let us := min ((s.now - spGet 0 s.tns.at_ n) / usec 1) (2 ^ 31 - 1)
  let s1 := (((s.fset F.TNT_STATUS_STATE (if (s.cfg t).isSome then 1 else 0) n).fset F.TNT_STATUS_STEP 0 n).setFlag
    F.TNT_RST_TIME_VALID true n).fset F.TNT_RST_TIME_US us n
  let s2 := { s1 with tns := { s1.tns with queue := s1.tns.queue.tail, at_ := spErase n s1.tns.at_, done := true } }
  let s3 := match s2.tns.queue with
    | u :: _ => s2.setFlag F.TNT_STATUS_QUEUED false u.toNat
    | [] => { s2 with tns := { s2.tns with done := false } }
  s3.raise 18 Cls.resetDone (some t)

/-- CLEAR (R488, R489). -/
def State.tenantClear (s : State) (t : Tenant) : State :=
  if !s.stepMay t 5 then s
  else
    let n := t.toNat
    let s1 := (((s.stepStart t 6).clearSlices t).clearStaging (fun b => b.ten == t)).setTFatal t false
    let s2 := { s1 with tns := { s1.tns with tol := spErase n s1.tns.tol } }
    let s3 := match spGet none s2.tns.held n with
      | some o =>
        ((({ s2 with tns := { s2.tns with held := spErase n s2.tns.held } }).setFlag F.TNT_STATUS_PEND_OVL false n).setFlag
          F.PAT_OVL_HELD (s2.flag F.PAT_OVL_HELD && s2.fget F.PAT_OVL_TENANT != n)).applyOverlay o |>.raise 19 Cls.overlay (some t)
      | none => s2
    ((((s3.vectorsClear t).tenRegs t).clearCounts n).tenantBack t).umvLog 0x05 0 t 6

end Sys2Proof.Machine
end

