-- ==== Sys2Proof/Machine/Umevo.lean ====
section
/-!
DEFINITION. The Umevo core and the two watchdogs (17_umevo_and_watchdogs.md R627 to R653): the core watchdog and its
ladder, the safety watchdog and its hard timer, an Umevo reset, and the debug halt.
-/
namespace Sys2Proof.Machine

/-- Changes the record of Umevo and the watchdogs. -/
def State.modUmv (s : State) (f : Umv → Umv) : State := { s with umv := f s.umv }

/-- A boot failure is in force (15 R595). -/
def State.bootFailed (s : State) : Bool := s.flag F.GLB_BOOT_STATUS_FAIL

/-- A warm reset is in its flush (15 R589). -/
def State.flushing (s : State) : Bool := s.boot.flushBy.isSome

/-! ## The core watchdog (R632 to R636) -/

/-- Length of the CWD period in progress. -/
def Umv.cwdLen (u : Umv) : Time := msec (2 ^ u.period)

/-- The instant the CWD counts, which stands while it is frozen (R645). -/
def State.cwdNow (s : State) : Time := s.umv.frozen.getD s.now

/-- The period in progress has ended. -/
def State.cwdOver (s : State) : Bool := s.umv.start + s.umv.cwdLen ≤ s.cwdNow

/-- The open window is open (R632). -/
def State.cwdOpenNow (s : State) : Bool :=
  decide (s.umv.start + s.umv.cwdLen * (7 - s.umv.open_) / 8 ≤ s.cwdNow) && !s.cwdOver

/-- A CWD period starts (R632, R635). -/
def State.cwdStart (s : State) : State :=
  s.modUmv (fun u => { u with start := s.now, period := s.fget F.WDG_CWD_CTL_PERIOD, open_ := s.fget F.WDG_CWD_CTL_OPEN,
                              keyA := false, frozen := if u.frozen.isSome then some s.now else none })

/-- The FaultNotice of a watchdog (R640, 19 R700). (Log 74: DEDUCED) -/
def watchdogNotice (cause : BitVec 8) (origin rung : BitVec 2) (safe : Bool) : Notice :=
  { cause := cause, origin := origin, rung := rung, cls := 0, safe := safe, unit := unitUmevo, ten := none, addr := none }

/-- The healthy interval starts again (R638). -/
def State.healthyAgain (s : State) : State :=
  s.modUmv (fun u => { u with healthyFrom := if s.ready then some s.now else none })

/-- CHAIN counts a chip reset that a watchdog causes: once for one warm reset (R638, R649). (Log 74: DEDUCED) -/
def State.chainUp (s : State) : State :=
  s.modUmv (fun u => { u with chain := if u.chained then u.chain else u.chain + 1, chained := true })

/-- An Umevo reset (15 R590): the core restarts at its ROM entry, a trap is discarded (R650), and the load that it was
sequencing is abandoned (14 R568). Before the Pattern is sealed the boot restarts at step 3. (Log 74: DEDUCED) -/
def State.umevoReset (s : State) : State :=
  let s1 := (s.modUmv (fun u => { u with trap := false, took := false })).overlayAbandoned
  let s2 := if s1.fget F.PAT_STATUS_LOADER = 1
    then (s1.patErr (imgErr 0x64) false 0).fset F.PAT_STATUS_LOADER 0 else s1
  let s3 := if s2.umv.halted || s2.fget F.WDG_UMV_STATUS_STATE == 1 then s2 else s2.fset F.WDG_UMV_STATUS_STATE 0
  if s3.flag F.PAT_STATUS_SEALED || s3.bootFailed || s3.flushing || s3.fget F.GLB_BOOT_STATUS_STEP < 3 then s3
  else
    ({ s3 with boot := { s3.boot with image := [], ptr := 0, bytes := 0, accepted := none } }.fset F.GLB_BOOT_STATUS_STEP 3).fset
      F.GLB_BOOT_STATUS_SOURCE 0

/-- A CWD expiry or fault (R634, R637, R640): the notice, FAULT_N, and the rung of the ladder. (Log 74: DEDUCED) -/
def State.cwdExpire (s : State) (cause : BitVec 8) : State :=
  let u := s.umv
  let rung : BitVec 2 :=
    if s.isSafe then 1 else if !u.restarted && !s.bootFailed then 1 else if u.chain < u.n then 2 else 3
  let s1 := ((s.notice (watchdogNotice cause 1 rung (s.isSafe || rung == 3))).setFlag F.SAF_FAULT_CWD true).healthyAgain
  if rung = 1 then
    let s2 := ((s1.raise 8 Cls.watchdog none).umevoReset).cwdStart
    (s2.modUmv (fun u => { u with restarted := u.restarted || !s.isSafe })).umvLog 0x09 0 0 cause.toNat
  else if rung = 2 then s1.chainUp.cwdStart.react .warm
  else s1.cwdStart.enterSafe cause

/-- The CWD period ends without a service (R634). (Log 9: DESIGN CHOICE) -/
def State.cwdExpiry (s : State) : State :=
  if s.umv.frozen.isSome || s.boot.rstN then s else (s.until (s.umv.start + s.umv.cwdLen)).cwdExpire 1

/-- A write to WDG_CWD_SVC or WDG_CWD_CTL that is not Umevo's in machine privilege (R629, R636). -/
def State.cwdReject (s : State) : State := (s.bump F.WDG_REJECT_CWD).raise 10 Cls.watchdog none

/-- A fault outside the window (R634, R648): at or after the end of the period it is the expiry itself. -/
def State.cwdOutside (s : State) (cause : BitVec 8) : State := s.cwdExpire (if s.cwdOver then 1 else cause)

/-- A write of WDG_CWD_SVC.KEY (R633, R634). (Log 74: DEDUCED) -/
def State.cwdService (s : State) (who : Party) (key : BitVec 16) : State :=
  if who ≠ .umevoM then s.cwdReject
  else if !s.umv.keyA then
    if key ≠ 0x3C0F then s.cwdExpire 3
    else if s.cwdOpenNow then s.modUmv (fun u => { u with keyA := true }) else s.cwdOutside 2
  else if key ≠ 0xC3F0 then s.cwdExpire 3
  else if s.cwdOpenNow then (s.modUmv (fun u => { u with restarted := false })).cwdStart
  else s.cwdOutside 2

/-- A write of WDG_CWD_CTL (R635). -/
def State.cwdCtl (s : State) (who : Party) (v : Word) : State :=
  if who ≠ .umevoM then s.cwdReject
  else if !s.cwdOpenNow then s.cwdOutside 4
  else
    let p := getBits v 0 4
    let o := getBits v 4 3
    let s1 := if p ≤ 12 then s.fset F.WDG_CWD_CTL_PERIOD p else s
    if o ≤ 6 then s1.fset F.WDG_CWD_CTL_OPEN o else s1

/-- READY has held for 2^HEALTHY ms without an expiry (R638). -/
def State.healthyEnd (s : State) : State :=
  match s.umv.healthyFrom with
  | some t => if s.ready then (s.until (t + msec (2 ^ s.umv.healthy))).modUmv (fun u => { u with chain := 0, healthyFrom := none }) else s
  | none => s

/-! ## The safety watchdog (R641 to R644) -/

/-- An SWD period of 2^PERIOD ms starts. -/
def State.swdStart (s : State) : State :=
  s.modUmv (fun u => { u with armed := true, swdStart := s.now, swdLen := msec (2 ^ s.fget F.WDG_SWD_CTL_PERIOD) })

/-- The write comes from the safety master (R642). -/
def State.isSafetyMaster (s : State) (who : Party) : Bool :=
  match who with
  | .mgt src => s.pat.smNode == some src
  | .i3c id => s.pat.smI3c == some id
  | _ => false

/-- Umevo takes a pending SWD trap, when it can (R643 step 2): the handler sends the notice and logs the trap. -/
def State.takeTrap (s : State) : State :=
  if !s.umv.trap || s.umv.halted || s.fget F.WDG_UMV_STATUS_STATE != 0 then s
  else
    let s1 := (s.modUmv (fun u => { u with took := true })).fset F.WDG_UMV_STATUS_STATE 3
    if s.umv.took then s1
    else (s1.notice (watchdogNotice s.umv.trapCause 2 0 s.isSafe)).umvLog 0x08 0 0 s.umv.trapCause.toNat

/-- An SWD expiry (R643). (Log 74: DEDUCED) -/
def State.swdExpire (s : State) (cause : BitVec 8) : State :=
  let hard := usec (16 * 2 ^ s.fget F.WDG_SWD_CTL_HARD)
  let s1 := s.modUmv (fun u => { u with trap := true, took := false, trapCause := cause, hardEnd := some (s.now + hard) })
  (((s1.raise 9 Cls.watchdog none).setFlag F.SAF_FAULT_SWD true).healthyAgain).takeTrap

/-- The SWD period ends (R643). (Log 9: DESIGN CHOICE) -/
def State.swdExpiry (s : State) : State :=
  if s.umv.armed && s.umv.hardEnd.isNone then (s.until (s.umv.swdStart + s.umv.swdLen)).swdExpire 8 else s

/-- A write of WDG_SWD_SVC (R642, R648, R652). (Log 74: DEDUCED) -/
def State.swdService (s : State) (who : Party) (key : BitVec 16) : State :=
  if !s.isSafetyMaster who || !s.ready then (s.bump F.WDG_REJECT_SWD).raise 11 Cls.watchdog none
  else if s.umv.hardEnd.isSome then s
  else if key ≠ 0x5A17 then (if s.umv.armed then s.swdExpire 9 else s)
  else if !s.umv.armed then s.swdStart.raise 12 Cls.watchdog none
  else if s.umv.swdStart + s.umv.swdLen ≤ s.now then s.swdExpire 8
  else s.swdStart

/-- The hard timer ends (R643 step 3, R645). (Log 74: DEDUCED) -/
def State.swdHardEnd (s : State) : State :=
  match s.umv.hardEnd with
  | none => s
  | some t =>
    let u := s.umv
    let s1 := (s.until t).modUmv (fun u => { u with hardEnd := none, trap := false, took := false })
    let s2 := if s1.fget F.WDG_UMV_STATUS_STATE = 3 then s1.fset F.WDG_UMV_STATUS_STATE 0 else s1
    if s2.isSafe then s2.swdStart
    else if u.chain < u.n then s2.chainUp.react .warm
    else ((s2.notice (watchdogNotice u.trapCause 2 0 true)).swdStart).enterSafe u.trapCause

/-! ## Debug halt (R645, 15 R582) -/

/-- The Umevo core is halted through JTAG: the CWD freezes. -/
def State.umvHalt (s : State) : State :=
  if s.lifecycle ≠ 1 ∨ s.umv.halted ∨ s.fget F.WDG_UMV_STATUS_STATE = 1 then s
  else (s.modUmv (fun u => { u with halted := true, frozen := some s.now })).fset F.WDG_UMV_STATUS_STATE 2

/-- The core is released: the CWD counts on from where it stood, and a trap that pended is taken. -/
def State.umvResume (s : State) : State :=
  if s.lifecycle ≠ 1 ∨ !s.umv.halted then s
  else
    let s1 := s.modUmv (fun u =>
      { u with halted := false, frozen := none,
               start := match u.frozen with | some f => u.start + (s.now - f) | none => u.start })
    (s1.fset F.WDG_UMV_STATUS_STATE 0).takeTrap

end Sys2Proof.Machine
end

