-- ==== Sys2Proof/Machine/Hcm.lean ====
section
/-!
DEFINITION. What the maintenance registers start (10_home_cache.md R404, R405, R409 to R421), the scrubbers (09 R366), the
diagnostic reads (09 R378, 11 R457) and the hash probe (03 R103).
-/
namespace Sys2Proof.Machine
open Sys2Proof

/-- A 52-bit byte address from the two words of a register pair. -/
def addrOf (lo hi : Nat) : Addr := BitVec.ofNat 52 (hi * 2 ^ 32 + lo * 64)

/-! ## Maintenance operations -/

/-- A maintenance operation ends with a RESULT. -/
def State.mopEnd (s : State) (result : Nat) : State :=
  (s.setFlag F.HCM_MOP_STATUS_BUSY false).fset F.HCM_MOP_STATUS_RESULT result

/-- HCM_MOP_CMD.GO (R409, R419, R420). (Log 59: DEDUCED) -/
def State.mopGo (s : State) : State :=
  if s.flag F.HCM_MOP_STATUS_BUSY then s
  else
    let op := s.fget F.HCM_MOP_CMD_OP
    let s1 := (s.setFlag F.HCM_MOP_STATUS_BUSY true).fset F.HCM_MOP_STATUS_RESULT 0
    if s.flag F.HCM_MOP_CMD_KIND then
      let k := s.fget F.HCM_MOP_CMD_SLICE
      let w := s.fget F.HCM_MOP_CMD_WAY
      let n := s.fget F.HCM_MOP_CMD_SET
      if !s.actives.contains k then s1.mopEnd 3
      else if (s.slice k).hcRet.contains (n, w) then s1.mopEnd 4
      else s1.shedOrWait k (Txn.new (.maint op (some w)) (internalMsg 0 0) 0 (.hcSet n))
    else
      let a := addrOf (s.fget F.HCM_MOP_ADDR_LO_ADDR_LO) (s.fget F.HCM_MOP_ADDR_HI_ADDR_HI)
      if (s.rangeOf a).isNone then s1.mopEnd 2
      else s1.shedOrWait (s.sliceOf a) (Txn.new (.maint op none) (internalMsg 0 a) 0 (.line a))

/-! ## Range engine, context 0 -/

/-- Context 0 starts an operation: every slice walks from set 0, one in DEEP having nothing to walk. -/
def State.startCtx0 (s : State) (j : RangeJob) : State :=
  (forUp (fun k (s : State) =>
    let skip := (s.slice k).pwr == .deep
    let s1 := s.modSlice k (fun c => { c with walk0 := if skip then 1024 else 0 })
    if !skip && (s1.slice k).pwr == .sleep then s1.wakeSlice k else s1) 0 18 { s with ctx0 := some j }).rangeCheck 0

/-- HCM_RNG_CMD.GO (R411, R412, R416, R419, R420). (Log 59: DEDUCED) -/
def State.rngGo (s : State) : State :=
  if s.hcMode = 1 then s.setFlag F.HCM_RNG_STATUS_REJECTED true
  else if s.flag F.HCM_RNG_STATUS_BUSY then s
  else
    let s1 := (((s.setFlag F.HCM_RNG_STATUS_REJECTED false).setFlag F.HCM_RNG_STATUS_ABORTED false).fset
      F.HCM_RNG_STATUS_POISONED 0).fset F.HCM_RNG_STATUS_SETS_DONE 0
    let base := addrOf (s.fget F.HCM_RNG_BASE_LO_ADDR_LO) (s.fget F.HCM_RNG_BASE_HI_ADDR_HI)
    let limit := addrOf (s.fget F.HCM_RNG_LIMIT_LO_ADDR_LO) (s.fget F.HCM_RNG_LIMIT_HI_ADDR_HI)
    if limit.toNat < base.toNat then s1
    else
      (s1.setFlag F.HCM_RNG_STATUS_BUSY true).startCtx0
        { op := s.fget F.HCM_RNG_CMD_OP, base := base.toNat, limit := limit.toNat, ways := 0xFFFF,
          ten := if s.flag F.HCM_RNG_CMD_TFILT then some (BitVec.ofNat 7 (s.fget F.HCM_RNG_CMD_TENANT)) else none }

/-- HCM_RNG_CMD.ABORT (R419): context 0 stops after its open sets close. (Log 59: DEDUCED) -/
def State.rngAbort (s : State) : State :=
  if s.flag F.HCM_RNG_STATUS_BUSY then (s.setFlag F.HCM_RNG_STATUS_ABORTED true).rangeCheck 0 else s

/-- The context is stopped: it opens no further set (R415, R419). -/
def State.ctxStopped (s : State) (ctx : Nat) : Bool :=
  ctx == 0 && s.flag F.HCM_RNG_STATUS_ABORTED && s.hcMode != 1

/-- A context opens the set entry of its next set in slice `k` (R411): one at a time in each slice. (Log 60: DEDUCED) -/
def State.rangeSet (s : State) (k ctx : Nat) : State :=
  match (if ctx = 0 then s.ctx0 else s.ctx1) with
  | none => s
  | some j =>
    let c := s.slice k
    let n := c.walk ctx
    if !s.actives.contains k || decide (1024 ≤ n) || s.rangeOpen k ctx != 0 || s.ctxStopped ctx || c.pwr == .deep then s
    else
      (s.modSlice k (fun c => if ctx = 0 then { c with walk0 := n + 1 } else { c with walk1 := n + 1 })).shedOrWait k
        (Txn.new (.range ctx j.op) (internalMsg (j.ten.getD 0) 0) 0 (.hcSet n))

/-! ## The HC mode -/

/-- HCM_MODE_CTL.DISABLE written 1 (R415, R417). -/
def State.hcDisable (s : State) : State :=
  match s.hcMode with
  | 0 =>
    let s1 := if s.ctx0.isSome then (s.setFlag F.HCM_RNG_STATUS_ABORTED true).setFlag F.HCM_RNG_STATUS_BUSY false else s
    let keep (x : Txn) : Bool := match x.kind with | .range 0 _ => false | _ => true
    let s2 := forUp (fun k (s : State) => s.modSlice k (fun c =>
      { c with chain := c.chain.filter keep, ingress := c.ingress.filter keep })) 0 18 s1
    let s3 := (((s2.fset F.HCM_MODE_STATUS_MODE 1).setFlag F.HCM_MODE_STATUS_BUSY true).setFlag F.HCM_MODE_STATUS_PEND_EN
      false).fset F.HCM_MODE_STATUS_SETS_DONE 0
    (s3.fset F.HCM_RNG_STATUS_POISONED 0).startCtx0 { op := 1, base := 0, limit := 2 ^ 52 - 1, ten := none, ways := 0xFFFF }
  | 1 => s.setFlag F.HCM_MODE_STATUS_PEND_EN false
  | _ => s

/-- HCM_MODE_CTL.DISABLE written 0 (R416, R417). -/
def State.hcEnable (s : State) : State :=
  match s.hcMode with
  | 1 => s.setFlag F.HCM_MODE_STATUS_PEND_EN true
  | 2 => s.fset F.HCM_MODE_STATUS_MODE 0
  | _ => s

/-- A companion fill is open or waits in slice `k`. -/
def State.companionOpen (s : State) (k : Nat) : Bool :=
  let c := s.slice k
  c.trk.any (fun e => match e.2 with | some x => x.kind == .companion | none => false) ||
    c.chain.any (fun x => x.kind == .companion) || c.ingress.any (fun x => x.kind == .companion)

/-- The drain is complete (R415, R405): the walk has ended, the eviction buffers and the frames awaiting retirement are
empty, and no companion fill is open. -/
def State.hcDrained (s : State) : Bool :=
  s.hcMode == 1 && s.ctx0.isNone && (List.range 18).all (fun k =>
    (s.srole k == .fenced || !(s.slice k).memOps.any (fun o => o.evict.isSome || o.retire.isSome)) && !s.companionOpen k)

/-- The mode becomes DISABLED, and ENABLED at once when that is pending (R415, R416). -/
def State.hcDrainComplete (s : State) : State :=
  if s.hcDrained then
    ((s.fset F.HCM_MODE_STATUS_MODE (if s.flag F.HCM_MODE_STATUS_PEND_EN then 0 else 2)).setFlag F.HCM_MODE_STATUS_BUSY
      false).setFlag F.HCM_MODE_STATUS_PEND_EN false
  else s

/-! ## Scrubbing -/

/-- The arrays of slice `k` are scrubbed: it is neither in DEEP nor fenced (01 R27, 09 R379). (Log 61: DEDUCED) -/
def State.scrubbed (s : State) (k : Nat) : Bool := (s.slice k).pwr != .deep && s.srole k != .fenced

/-- A way with a hard fault is retired (09 R366, R367): its line is back-invalidated first when the entry is valid.
(Log 61: DEDUCED) -/
def State.sfHardFault (s : State) (k set w : Nat) : State :=
  if s.sfRetired k set w then s
  else
    let e := s.sfAt k set w
    if sfValid e then s.backInv k (sfTen e) (sfLine set e) .retire else s.sfRetire k set w

/-- The scrubber reads one SF entry (09 R366): after a correction it reads the entry again, and an error that persists, or
that the array is known to have, is a hard fault. -/
def State.sfScrubEntry (s : State) (k set w : Nat) (hard : Bool) : State :=
  if s.sfRetired k set w then s
  else
    let n := (s.slice k).ceNow
    let s1 := s.sfCheckWay k set w
    let s2 := if hard && (s1.slice k).ceNow == n && !s1.sfRetired k set w then
        (((s1.countCE k).bump F.SLC_SF_ECCCNT_CE k).sfEccLast k set w false).corrected 0x10 (unitSlice k) none none
      else s1
    let m := (s2.slice k).ceNow
    if m = n then s2
    else
      let s3 := s2.sfCheckWay k set w
      if hard || (s3.slice k).ceNow != m then s3.sfHardFault k set w else s3

/-- A scrub pass of the SF of slice `k` (09 R366); `hard` names the ways with a hard fault. (Log 61: DEDUCED, 87: DESIGN CHOICE) -/
def State.sfScrub (s : State) (k : Nat) (hard : List (Nat × Nat)) : State :=
  if s.scrubbed k then
    let listed := (s.slice k).sf.map (fun e => (e.1 / 16, e.1 % 16))
    let extra := (hard.filter (fun e => decide (e.1 < 65536) && decide (e.2 < 16) && !listed.contains e)).eraseDups
    (listed ++ extra).foldl (fun (s : State) e => s.sfScrubEntry k e.1 e.2 (hard.contains e)) s
  else s

/-- A frame is retired (R405): its dirty sub-blocks are written to memory first, and the retirement follows their
acknowledgements. (Log 59: DEDUCED) -/
def State.hcRetireFrame (s : State) (k set w : Nat) : State :=
  if s.hcRetired k set w then s
  else
    let s0 := forUp (fun b (s : State) => s.readSub k set w b) 0 4 s
    let f := s0.frame k set w
    let t := tagTen f.tag
    let s1 := forUp (fun b (s : State) =>
      if (tagV f.tag).getLsbD b && tagDirty f.tag b then
        let x := s0.subAt k set w b
        s.sendMemWr k { MemOp.base retireTag t (subAddr set f.tag b) x.1 x.2 (s.now + s.snpTmo t) with retire := some (set, w) }
      else s) 0 4 s0
    if s1.hcRetired k set w then s1.setFrame k set w Frame.free else s1.hcRecordRetired k set w

/-- The scrubber reads one frame (R404): its tag, then each codeword of its valid sub-blocks, and what it corrected again. -/
def State.hcScrubFrame (s : State) (k set w : Nat) (hard : Bool) : State :=
  if s.hcRetired k set w then s
  else
    let s1 := s.hcCheckTag k set w
    let n := (s1.slice k).ceNow
    let s2 := forUp (fun b (s : State) => s.readSub k set w b) 0 4 s1
    let m := (s2.slice k).ceNow
    let s3 := if m = n then s2 else forUp (fun b (s : State) => s.readSub k set w b) 0 4 s2
    if hard || (s3.slice k).ceNow != m then s3.hcRetireFrame k set w else s3

/-- A scrub pass of the home cache of slice `k` (R404); `hard` names the frames with a hard fault.
(Log 61: DEDUCED, 87: DESIGN CHOICE) -/
def State.hcScrub (s : State) (k : Nat) (hard : List (Nat × Nat)) : State :=
  if s.scrubbed k then
    let listed := ((s.slice k).hc.map (fun e => (e.1 / 16, e.1 % 16))).filter (fun e => !s.hcGated k e.2)
    let extra := (hard.filter (fun e => decide (e.1 < 1024) && decide (e.2 < 16) && !listed.contains e)).eraseDups
    (listed ++ extra).foldl (fun (s : State) e => s.hcScrubFrame k e.1 e.2 (hard.contains e)) s
  else s

/-! ## Diagnostic reads -/

/-- A diagnostic read wakes an ACTIVE slice in NAP, SLEEP or DEEP (21 R751). (Log 60: DEDUCED) -/
def State.diagWake (s : State) (k : Nat) : State :=
  if s.srole k = .active && !s.awake k then s.wakeSlice k else s

/-- The arrays of slice `k` answer a diagnostic read; a SPARE or FENCED slice answers zeros (21 R751). (Log 82: DEDUCED) -/
def State.diagReads (s : State) (k : Nat) : Bool := s.srole k == .active || s.srole k == .target

/-- A diagnostic read of slice `k` can complete (21 R751). -/
def State.diagReady (s : State) (k : Nat) : Bool := s.srole k != .active || s.awake k

/-- SLCn_SF_RDSEL.GO (09 R378). (Log 82: DEDUCED) -/
def State.sfRdGo (s : State) (k : Nat) : State :=
  ((s.setFlag F.SLC_SF_RDDATA3_VALID false k).modSlice k (fun c => { c with rdBusy := true })).diagWake k

/-- The diagnostic read of an SF entry ends (09 R378). (Log 82: DEDUCED) -/
def State.sfRdDone (s : State) (k : Nat) : State :=
  if (s.slice k).rdBusy && s.diagReady k then
    let raw := if !s.diagReads k then 0 else s.sfAt k (s.fget F.SLC_SF_RDSEL_SET k) (s.fget F.SLC_SF_RDSEL_WAY k)
    let r : BitVec 118 × Bool := match sfCheck raw with
      | .good e => (e, false)
      | .corrected e => (e, false)
      | .bad => (raw, true)
    let v := r.1.toNat
    let s1 := forUp (fun i (s : State) => s.fset F.SLC_SF_RDDATA_DATA (v / 2 ^ (32 * i)) k i) 0 3 s
    (((s1.fset F.SLC_SF_RDDATA3_DATA (v / 2 ^ 96) k).setFlag F.SLC_SF_RDDATA3_UE r.2 k).setFlag F.SLC_SF_RDDATA3_VALID true
      k).modSlice k (fun c => { c with rdBusy := false })
  else s

/-- SLCn_SF_LOOSE.CLEAR (09 R371). -/
def State.looseClear (s : State) (k : Nat) : State := s.modSlice k (fun c => { c with allLoose := false, loose := [] })

/-- SLCn_CLAMP_BREAK.GO on bank entry `i` (11 R453, R457). (Log 53: DEDUCED) -/
def State.clampBreak (s : State) (k i : Nat) : State :=
  match s.logicalOn k with
  | some l => if (s.ent l i).st = .lock ∨ (s.ent l i).st = .barrier then s.breakEnt l i 3 else s
  | none => s

/-- SLCn_CLAMP_HSEL.GO (11 R457). (Log 82: DEDUCED) -/
def State.hselGo (s : State) (k : Nat) : State :=
  ((s.setFlag F.SLC_CLAMP_HVAL0_VALID false k).modSlice k (fun c => { c with hselBusy := true })).diagWake k

/-- The read of a bank entry ends (11 R457). (Log 82: DEDUCED) -/
def State.hselDone (s : State) (k : Nat) : State :=
  if (s.slice k).hselBusy && s.diagReady k then
    let e := match s.srole k, s.logicalOn k with
      | .active, some l => s.ent l (s.fget F.SLC_CLAMP_HSEL_INDEX k)
      | _, _ => ClampEnt.zero
    let st := match e.st with | .free => 0 | .lock => 1 | .barrier => 2 | .broken => 3
    let holders := e.recs.filter (fun r => r.role == .holder)
    let s1 := (((s.fset F.SLC_CLAMP_HVAL0_STATE st k).setFlag F.SLC_CLAMP_HVAL0_EXCL (holders.any (fun r => !r.shared))
      k).fset F.SLC_CLAMP_HVAL0_GEN e.gen.toNat k).fset F.SLC_CLAMP_HVAL0_WAITERS
        (e.recs.filter (fun r => r.role == .waiter)).length k
    let s2 := ((s1.fset F.SLC_CLAMP_HVAL1_TENANT e.ten.toNat k).fset F.SLC_CLAMP_HVAL1_NODE e.src.toNat k).fset
      F.SLC_CLAMP_HVAL2_COUNT (if e.st = .barrier then e.count else holders.length) k
    (s2.setFlag F.SLC_CLAMP_HVAL0_VALID true k).modSlice k (fun c => { c with hselBusy := false })
  else s

/-! ## The hash probe -/

/-- GLB_HPROBE_ADDR_HI.GO (03 R103). -/
def State.hprobeGo (s : State) : State := { s.setFlag F.GLB_HPROBE_RES0_VALID false with probing := true }

/-- The probe ends (03 R102, R103), with the map current at that moment. -/
def State.hprobeDone (s : State) : State :=
  if s.probing then
    let a := addrOf (s.fget F.GLB_HPROBE_ADDR_LO_ADDR_LO) (s.fget F.GLB_HPROBE_ADDR_HI_ADDR_HI)
    let r := s.rangeOf a
    let on (v : Nat) : Nat := if r.isSome then v else 0
    let port := match r with | some (_, h) => (memOf h a).1 | none => 0
    let s1 := ((s.setFlag F.GLB_HPROBE_RES0_UNHOMED r.isNone).fset F.GLB_HPROBE_RES0_RANGE
      (match r with | some (i, _) => i | none => 0)).fset F.GLB_HPROBE_RES0_MPORT port
    let s2 := ((s1.fset F.GLB_HPROBE_RES0_PSLICE (on (s.sliceOf a))).fset F.GLB_HPROBE_RES0_LSLICE (on (s.logOf a))).fset
      F.GLB_HPROBE_RES0_HASH (on (s.hash a))
    let s3 := (s2.fset F.GLB_HPROBE_RES1_HC_SET (hcSetOf a)).fset F.GLB_HPROBE_RES1_SF_SET (sfSetOf a)
    { s3.setFlag F.GLB_HPROBE_RES0_VALID true with probing := false }
  else s

end Sys2Proof.Machine
end

