-- ==== Sys2Proof/Machine/Power.lean ====
section
/-!
DEFINITION. The delay monitors (02_clockless_timing.md R60 to R73) and the power manager (18_time_and_power.md R667 to R683):
tolerances, the slices' power states and their entries and exits, and the voltage request.
-/
namespace Sys2Proof.Machine
open Sys2Proof

/-! ## Delay monitors -/

/-- A SPEED measurement starts with the current WINDOW (R63, R71). -/
def State.dmonBegin (s : State) (k : Nat) : State :=
  s.modSlice k (fun c => { c with measuring := true, window := s.fget F.SLC_DMON_CTL_WINDOW k })

/-- A measurement of the slice runs. (Log 67: DEDUCED) -/
def Slice.measures (c : Slice) : Bool := c.measuring || c.ageing

/-- SLCn_DMON_CTL.START (R63). (Log 67: DEDUCED) -/
def State.dmonStart (s : State) (k : Nat) : State := if (s.slice k).measures then s else s.dmonBegin k

/-- SLCn_DMON_CTL.CLR_MIN (R63). -/
def State.dmonClrMin (s : State) (k : Nat) : State := s.fset F.SLC_DMON_FACTOR_MIN 0xFFFF k

/-- The next automatic measurement falls due (R72): it starts, or is deferred while another measurement runs. -/
def State.dmonAutoDue (s : State) (k : Nat) : State :=
  if s.flag F.SLC_DMON_CTL_AUTO k && (s.slice k).autoAt != 0 then
    let s1 := s.until (s.slice k).autoAt
    let s2 := s1.modSlice k (fun c => { c with autoAt := c.autoAt + usec (2 ^ s.fget F.SLC_DMON_CTL_INTERVAL k) })
    if (s2.slice k).measures then s2.modSlice k (fun c => { c with deferred := true }) else s2.dmonBegin k
  else s

/-- The length in µs of a window code (R63). -/
def windowUs (code : Nat) : Nat := 4 ^ code

/-- The count of a SPEED window is reported (R60, R64, R65, R73), and the factor before it is kept (R70). (Log 67: DEDUCED) -/
def State.dmonReport (s : State) (k count code : Nat) : State :=
  let n := min count 0xFFFFF
  let f := min (256 * n / (1800 * windowUs code)) 0xFFFF
  let last := if s.flag F.SLC_DMON_SPEED_VALID k then s.fget F.SLC_DMON_FACTOR_FACTOR k else f
  let s1 := ((s.fset F.SLC_DMON_SPEED_COUNT n k).fset F.SLC_DMON_SPEED_WIN code k).setFlag F.SLC_DMON_SPEED_VALID true k
  let s2 := (s1.fset F.SLC_DMON_FACTOR_FACTOR f k).fset F.SLC_DMON_FACTOR_MIN (min f (s.fget F.SLC_DMON_FACTOR_MIN k)) k
  s2.modSlice k (fun c => { c with prevFactor := BitVec.ofNat 16 last })

/-- A deferred measurement is taken when no other runs (R72). -/
def State.dmonDeferred (s : State) (k : Nat) : State :=
  let c := s.slice k
  if c.deferred && !c.measures then (s.modSlice k (fun c => { c with deferred := false })).dmonBegin k else s

/-- A SPEED window ends (R60). -/
def State.dmonEnd (s : State) (k count : Nat) : State :=
  if (s.slice k).measuring then
    ((s.dmonReport k count (s.slice k).window).modSlice k (fun c => { c with measuring := false })).dmonDeferred k
  else s

/-- The ageing interval expires (R60), and the CE row of the failure prediction is evaluated over it (13 R507).
(Log 65, 67: DEDUCED) -/
def State.ageingDue (s : State) (k : Nat) : State :=
  if (s.slice k).ageAt = 0 then s
  else
    (s.until (s.slice k).ageAt).modSlice k (fun c =>
      { c with ageing := true, ageAt := c.ageAt + usec (2 ^ 20), ceHit := decide (s.pat.predCe < c.ceNow), ceNow := 0 })

/-- The ageing measurement ends (R61, R62). AGE stays 1001 where the slice's BASE could not be read (15 R580); with a
FRESH count or a BASE of zero the spec states no value, and AGE is free. (Log 66: DESIGN CHOICE) -/
def State.ageingEnd (s : State) (k speed fresh : Nat) : State :=
  if (s.slice k).ageing then
    let base := s.fget F.SLC_DMON_BASE_BASE k
    let d := fresh * base
    let x := s.draw
    let r : Nat × State :=
      if s.boot.baseBad.getLsbD k then (1001, s)
      else if d = 0 then ((Config.openWord x.1).toNat % 2 ^ 16, x.2)
      else (10000 * (d - speed * 2 ^ 14) / d, s)
    let s1 := (r.2.fset F.SLC_DMON_AGE_AGE r.1 k).setFlag F.SLC_DMON_AGE_VALID true k
    ((s1.dmonReport k speed 3).modSlice k (fun c => { c with ageing := false })).dmonDeferred k
  else s

/-! ## Tolerance -/

/-- Current tolerance code of a tenant (R667, R679). -/
def State.tolOf (s : State) (t : Tenant) : Nat := (spGet none s.tns.tol t.toNat).getD (s.ten t).latDef

/-- The hash bits that address bit `j` takes part in (03 R96). -/
def State.hashCol (s : State) (j : Nat) : Nat :=
  (List.range s.pat.hashBits).foldl (fun h i => h + (if (s.pat.masks.getD i 0).getLsbD j then 2 ^ i else 0)) 0

/-- The hash values of the lines of the aligned block of 2^(6 + k) bytes at `a`. -/
def State.hashSpan (s : State) (a : Nat) : Nat → List Nat
  | 0 => [s.hash (BitVec.ofNat 52 a)]
  | k + 1 =>
    let l := s.hashSpan a k
    let c := s.hashCol (6 + k)
    if l.contains (l.headD 0 ^^^ c) then l else l ++ l.map (· ^^^ c)

/-- Some line of bytes lo to hi within the aligned block of 2^(6 + k) bytes at `a` belongs to logical slice `l`. -/
def State.spanServes (s : State) (l lo hi a : Nat) : Nat → Bool
  | 0 => decide (lo ≤ a + 63) && decide (a ≤ hi) && s.table.getD (s.hash (BitVec.ofNat 52 a)) 0 == l
  | k + 1 =>
    let sz := 2 ^ (7 + k)
    if a + sz ≤ lo ∨ hi < a then false
    else if lo ≤ a ∧ a + sz ≤ hi + 1 then (s.hashSpan a (k + 1)).any (fun h => s.table.getD h 0 == l)
    else s.spanServes l lo hi a k || s.spanServes l lo hi (a + sz / 2) k

/-- Tenant `t` is mapped to logical slice `l` (R668). -/
def State.mappedTo (s : State) (t : Tenant) (l : Nat) : Bool :=
  match s.cfg t with
  | none => false
  | some c => c.clampQuota != 0 || c.windows.any (fun w => s.pat.ranges.any (fun r =>
      let lo := max w.base r.base
      let hi := min w.limit r.limit
      decide (lo ≤ hi) && s.spanServes l lo hi 0 46))

/-- The tolerance code of a slice (R668): 31 is no limit. -/
def State.sliceTol (s : State) (k : Nat) : Nat :=
  match s.logicalOn k with
  | none => 31
  | some l => s.pat.tens.foldl (fun m c => if s.mappedTo c.ten l then min m (s.tolOf c.ten) else m) 31

/-- S of a slice in units of 1/256 (R672, R680). -/
def State.sFactor (s : State) (k : Nat) : Nat :=
  if s.flag F.SLC_DMON_SPEED_VALID k then min (s.fget F.SLC_DMON_FACTOR_FACTOR k) (s.slice k).prevFactor.toNat else 256

/-- Depth of a power state: its code (R670). -/
def pwrCode : PwrState → Nat
  | .active => 0 | .doze => 1 | .nap => 2 | .sleep => 3 | .deep => 4

/-- F and C of a state in ns (R672). -/
def exitTerms : PwrState → Nat × Nat
  | .nap => (40, 160) | .sleep => (1000, 4000) | .deep => (40000, 360000) | _ => (0, 0)

/-- The exit latency of a state in slice `k` fits a tolerance code (R672). -/
def State.exitFits (s : State) (k : Nat) (st : PwrState) (code : Nat) : Bool :=
  let e := exitTerms st
  if e.1 = 0 ∨ code = 31 then true
  else
    let tol := if code = 0 then 0 else 2 ^ (code + 6)
    decide (e.1 ≤ tol) && decide (e.2 * 256 ≤ (tol - e.1) * s.sFactor k)

/-- The bank of logical slice `l` holds a waiting Clamp record (11 R459). -/
def State.clampWaits (s : State) (l : Nat) : Bool :=
  (s.bank l).queue != [] || (s.bank l).ents.any (fun e => e.2.recs.any (fun r => r.role == .waiter))

/-- The deepest state that the limits of R673 allow slice `k`. -/
def State.pwrLimit (s : State) (k : Nat) : Nat :=
  let l := (s.logicalOn k).getD 0
  let moving := match s.mig with | some g => g.src == k || g.dst == k | none => false
  if moving || (s.slice k).census != [] || (s.lsl l).rebuilding then 1
  else if s.isSafe || s.clampWaits l then 2
  else 4

/-- The target of slice `k` (R673). (Log 68: DEDUCED) -/
def State.pwrTarget (s : State) (k : Nat) : PwrState :=
  let tol := s.sliceTol k
  let cap := min (s.fget F.PWR_CTL_MAX_STATE) (s.pwrLimit k)
  ([PwrState.deep, .sleep, .nap].find? (fun st => decide (pwrCode st ≤ cap) && s.exitFits k st tol)).getD .doze

/-- Slice `k` has an open or chained entry (R671). (Log 69: DEDUCED) -/
def State.sliceBusy (s : State) (k : Nat) : Bool :=
  let c := s.slice k
  c.trk.any (fun e => match e.2 with | some x => x.opened | none => false) || c.chain != []

/-- The power state of slice `k` follows what it does and its target (R671, R673, R681). (Log 69: DEDUCED) -/
def State.pwrCheckAt (s : State) (k : Nat) : State :=
  let c := s.slice k
  match c.pwr, c.entering with
  | .active, _ => if s.sliceBusy k then s else s.modSlice k (fun c => { c with pwr := .doze, waking := false, idleAt := s.now })
  | .doze, none => if s.sliceBusy k then s.modSlice k (fun c => { c with pwr := .active, waking := false }) else s
  | .doze, some e =>
    if pwrCode (s.pwrTarget k) < pwrCode e then s.modSlice k (fun c => { c with entering := none, idleAt := s.now }) else s
  | st, _ =>
    if c.waking || s.isSafe then s
    else if pwrCode (s.pwrTarget k) < pwrCode st then s.modSlice k (fun c => { c with waking := true }) else s

/-- The power states follow at the end of a command, for the slices that have one (R670). -/
def State.pwrCheck (s : State) : State :=
  forUp (fun k (s : State) => if s.srole k = .active then s.pwrCheckAt k else s) 0 18 s

/-! ## Entry and exit -/

/-- Every valid sub-block of the ways from `w0` on is cleaned and invalidated, as CLEAN_INV would (10 R422). -/
def State.hcSweepWays (s : State) (k w0 : Nat) : State :=
  (s.slice k).hc.foldl (fun (s : State) e =>
    let n := e.1 / 16
    let w := e.1 % 16
    if w < w0 ∨ s.hcRetired k n w then s
    else forUp (fun b (s : State) =>
      let f := s.frame k n w
      if !(tagV f.tag).getLsbD b then s
      else if tagDirty f.tag b then
        let s1 := s.readSub k n w b
        let x := s1.subAt k n w b
        let t := tagTen f.tag
        s1.sendMemWr k { MemOp.base flushTag t (subAddr n f.tag b) x.1 x.2 (s1.now + s1.snpTmo t) with
          clean := some (n, w, b, true), flush := true }
      else s.setFrame k n w (f.dropSub b)) 0 4 s) s

/-- Every valid SF entry is back-invalidated (09 R379). -/
def State.sfSweepDeep (s : State) (k : Nat) : State :=
  (s.slice k).sf.foldl (fun (s : State) e =>
    if sfValid e.2 && !s.sfRetired k (e.1 / 16) (e.1 % 16) then s.backInv k (sfTen e.2) (sfLine (e.1 / 16) e.2) .deep else s) s

/-- The idle interval of slice `k` ends (R671): it enters its target state. (Log 69: DEDUCED) -/
def State.idleTimeout (s : State) (k : Nat) : State :=
  let c := s.slice k
  if s.srole k != .active || c.pwr != .doze || c.entering.isSome || s.sliceBusy k then s
  else
    let s1 := s.until (c.idleAt + usec (2 ^ s.fget F.PWR_CTL_ENTRY_IDLE))
    match s1.pwrTarget k with
    | .nap => s1.modSlice k (fun c => { c with pwr := .nap })
    | .sleep => (s1.modSlice k (fun c => { c with entering := some .sleep })).hcSweepWays k 8
    | .deep => ((s1.modSlice k (fun c => { c with entering := some .deep })).hcSweepWays k 0).sfSweepDeep k
    | _ => s1

/-- Back-invalidations or write-backs of an entry are under way in slice `k`. -/
def State.entryBusy (s : State) (k : Nat) : Bool :=
  s.sliceBusy k || (s.slice k).ingress != [] || (s.slice k).memOps.any (fun o => o.flush)

/-- What an entry into state `e` leaves to clean in slice `k`. -/
def State.entryLeft (s : State) (k : Nat) (e : PwrState) : Bool :=
  (s.slice k).hc.any (fun f => (e == .deep || decide (8 ≤ f.1 % 16)) && tagV f.2.tag != 0 && !s.hcRetired k (f.1 / 16) (f.1 % 16))
    || (e == .deep && (s.slice k).sf.any (fun f => sfValid f.2 && !s.sfRetired k (f.1 / 16) (f.1 % 16)))

/-- The clean and back-invalidation of an entry finish and the slice is gated (R670, R671); what a write that timed out
has left dirty is written again. (Log 68: DEDUCED) -/
def State.entryDone (s : State) (k : Nat) : State :=
  match (s.slice k).entering with
  | none => s
  | some e =>
    if s.entryBusy k then s
    else if s.entryLeft k e then
      if e = .deep then (s.hcSweepWays k 0).sfSweepDeep k else s.hcSweepWays k 8
    else s.modSlice k (fun c =>
      { c with pwr := e, entering := none, waking := false, rsv := [],
               hc := c.hc.filter (fun f => e != .deep && decide (f.1 % 16 < 8)),
               sf := if e = .deep then [] else c.sf })

/-- A wake completes (R672, R673): the slice serves what waits, or ends in its target. -/
def State.exitDone (s : State) (k : Nat) : State :=
  let c := s.slice k
  if c.waking ∧ 2 ≤ pwrCode c.pwr then
    let s1 := s.modSlice k (fun c => { c with pwr := .doze, waking := false, idleAt := s.now, wakes := min (c.wakes + 1) 0xFFFF })
    if c.ingress = [] ∧ !s1.clampWaits ((s1.logicalOn k).getD 0) ∧ c.inv.isNone ∧ s1.ctx0.isNone ∧ s1.ctx1.isNone then
      let t := s1.pwrTarget k
      if t = .nap ∧ pwrCode t < pwrCode c.pwr then s1.modSlice k (fun c => { c with pwr := .nap })
      else if t = .sleep ∧ c.pwr = .deep then (s1.modSlice k (fun c => { c with entering := some .sleep })).hcSweepWays k 8
      else s1
    else s1.ingressAll k
  else s

/-! ## Latency tolerance -/

/-- Every slice mapped to the tenant is in a state whose exit latency fits its tolerance (R669). -/
def State.tolMet (s : State) (t : Tenant) : Bool :=
  s.actives.all (fun k => match s.logicalOn k with
    | some l => !s.mappedTo t l || s.exitFits k (s.slice k).pwr (s.tolOf t)
    | none => true)

/-- MgtAck with a STATUS (R667). -/
def mgtAck (m : Msg) (status : Nat) : Msg := respTo m Op.mgtAck (BitVec.ofNat 13 status) false 0 []

/-- A LatencyTolerance (R667, R669). (Log 68: DEDUCED) -/
def State.latencyTol (s : State) (m : Msg) : State :=
  let code := (slotField m 1 0 5).toNat
  let dflt := (msgSlot m 1).getLsbD 8
  let t := m.ten
  if (s.cfg t).isNone || !(s.inDomain t m.src || s.pat.masters.any (fun b => inBlock m.src b.1 b.2)) then s.send (mgtAck m 1)
  else if !dflt && decide (24 ≤ code) && code != 31 then s.send (mgtAck m 2)
  else
    let old := s.tolOf t
    let new := if dflt then (s.ten t).latDef else code
    let s1 := { s with tns := { s.tns with tol := spSet none s.tns.tol t.toNat (some new) } }
    if old ≤ new then s1.send (mgtAck m 0)
    else if s1.tolMet t then s1.send (mgtAck m 0)
    else { s1 with tns := { s1.tns with answers := s1.tns.answers ++ [mgtAck m 0] } }

/-- The wakes that a lowered tolerance asked for are complete, and the MgtAck messages are sent (R669). (Log 68: DEDUCED) -/
def State.latencyAck (s : State) (t : Tenant) : State :=
  if s.tns.answers.any (fun m => m.ten == t) && s.tolMet t then
    let ready := s.tns.answers.filter (fun m => m.ten == t)
    ready.foldl (fun (s : State) m => s.send m)
      { s with tns := { s.tns with answers := s.tns.answers.filter (fun m => m.ten != t) } }
  else s

/-! ## Voltage request -/

/-- A voltage evaluation, 16 µs after the last (R675, R678): in HOLD the request is VHOLD; in TRACK it moves by one step at
most. Until boot step 6 it holds 24 (R680). (Log 68: DEDUCED) -/
def State.voltageEval (s : State) : State :=
  if !s.flag F.PAT_STATUS_SEALED then s
  else
    let s1 := s.until (s.tb.evalAt + usec 16)
    let vhold := s.fget F.PWR_VCTL_VHOLD
    if s.flag F.PWR_VCTL_MODE then
      let now := if s.tb.track then s.fget F.PWR_VREQ_VID else vhold
      let evals := if s.tb.track then s.tb.evals else 4
      let vmin := s.fget F.PWR_VCTL_VMIN
      let target := s.fget F.PWR_VCTL_TARGET
      let low := s.actives.foldl (fun m k => min m (s.sFactor k)) 0x10000
      let new := if (low < target ∨ now < vmin) ∧ now < 48 then now + 1
        else if 17 * target < 16 * low ∧ 4 ≤ evals ∧ vmin < now then now - 1
        else now
      { s1.fset F.PWR_VREQ_VID new with
          tb := { s1.tb with evalAt := s1.now, track := true, evals := if new = now then min (evals + 1) 4 else 0 } }
    else { s1.fset F.PWR_VREQ_VID vhold with tb := { s1.tb with evalAt := s1.now, track := false, evals := 0 } }

end Sys2Proof.Machine
end

