-- ==== Sys2Proof/Machine/Time.lean ====
section
/-!
DEFINITION. Setting and aligning fabric time (18_time_and_power.md R656 to R666, R684) and the loss and return of the
reference clock (R74, R158, R666).
-/
namespace Sys2Proof.Machine
open Sys2Proof

/-- Sets TIM_STATUS.LOCKED. -/
def State.setLocked (s : State) (b : Bool) : State := s.setFlag F.TIM_STATUS_LOCKED b

/-- The timebase goes into holdover (R661): the trim is kept and no slew is applied. (Log 70: DEDUCED) -/
def State.holdover (s : State) : State :=
  { s.setLocked false with tb := { s.tb with slew := 0, slewTick := 0, lockRun := 0 } }

/-- A change of SOURCE or SRC_PORT (R659): LOCKED clears, and nothing of the old reference is compared with the new one.
(Log 70: DEDUCED) -/
def State.sourceChanged (s : State) : State :=
  { s.setLocked false with
      tb := { s.tb with slew := 0, slewTick := 0, lockRun := 0, edge := none, delays := [], rejects := 0, req := none, sentAt := s.now } }

/-- TIM_SET_CMD.GO (R657): a later value is taken, any other refused. (Log 70: DEDUCED) -/
def State.timSet (s : State) (ep : BitVec 16) : State :=
  let v : Time := (ep.toNat * 2 ^ 64 + s.fget F.TIM_SET_HI_TIME * 2 ^ 32 + s.fget F.TIM_SET_LO_TIME) * 65536
  if s.now < v then { s with now := v } else s.setFlag F.TIM_STATUS_SET_REJ true

/-- A read of TIM_NOW_LO (R657): it latches the other two registers from the same instant. -/
def State.timLatch (s : State) : Word × State :=
  let t := (fab64 s.now).toNat
  (BitVec.ofNat 32 t,
   ((s.fset F.TIM_NOW_LO_TIME t).fset F.TIM_NOW_HI_TIME (t / 2 ^ 32)).fset F.TIM_NOW_EP_EPOCH (fabEpoch s.now).toNat)

/-- A number in two's complement of `w` bits, saturating. -/
def satInt (w : Nat) (x : Int) : Nat :=
  let lim : Int := 2 ^ (w - 1)
  let y := if lim ≤ x then lim - 1 else if x < -lim then -lim else x
  (y % 2 ^ w).toNat

/-- `TimeSync` requests and PPS edges are 2^INTERVAL µs or 1 s apart: the interval between reference events in clocks of
the timebase (R658). -/
def State.refTicks (s : State) : Nat :=
  if s.fget F.TIM_CTL_SOURCE = 2 then 400 * 2 ^ s.fget F.TIM_SYNC_CTL_INTERVAL else 400000000

/-- The lock limit (R659, R663). -/
def State.lockLimit (s : State) : Time :=
  if s.fget F.TIM_CTL_SOURCE = 2 then
    match (s.port (s.fget F.TIM_CTL_SRC_PORT)).rate.toNat with
    | 3 => nsec 4
    | 2 => nsec 5
    | _ => nsec 7
  else nsec 4

/-- The servo's correction of the trim (R658): the spec bounds it to 1 ppm an event, and does not say how much it is.
(Log 72: DESIGN CHOICE) -/
def State.trimStep (s : State) : State :=
  let x := s.draw
  let d : Int := ((Config.openWord x.1).toNat % 2001 : Nat) - 1000
  let t := s.trim + d
  let u := if 200000 < t then 200000 else if t < -200000 then -200000 else t
  x.2.fset F.TIM_TRIM_PPB (u % 2 ^ 21).toNat

/-- What a reference event with phase error `e` (in 2^-32 ns) does to the timebase (R658): nothing with SERVO = 0 or while
the reference clock is lost (R666), a step forward for an e below -1 µs, and otherwise a slew of at most 500 ppm.
(Log 70, 71: DEDUCED) -/
def State.servo (s : State) (e : Int) : State :=
  if !s.flag F.TIM_CTL_SERVO || s.flag F.TIM_STATUS_BACKUP then s
  else if e < -((usec 1 : Nat) : Int) then
    { s.setLocked false with now := s.now + (-e).toNat, tb := { s.tb with slew := 0, slewTick := 0, lockRun := 0 } }
  else
    let lim : Int := 5 * 2 ^ 31 * 500 / 1000000
    let n : Int := s.refTicks
    let per := (e.natAbs + n - 1) / n
    let q := min per lim
    { s with tb := { s.tb with slew := -e, slewTick := if 0 ≤ e then -q else q } }.trimStep

/-- An accepted reference event with phase error `e` (R658, R659). (Log 70, 71: DEDUCED) -/
def State.refEvent (s : State) (e : Int) : State :=
  let s1 := (s.fset F.TIM_ERR_NS (satInt 32 (e / (2 ^ 32 : Int)))).bump F.TIM_SYNC_CNT_ACCEPTED
  let run := if e.natAbs ≤ s.lockLimit then min (s.tb.lockRun + 1) 4 else 0
  let s2 := { s1 with tb := { s1.tb with lockRun := run } }
  let s3 := if run = 0 then s2.setLocked false else if run = 4 then s2.setLocked true else s2
  s3.servo e

/-! ## PPS -/

/-- TIM_PPS_OFS as a number of ns. -/
def State.ppsOfs (s : State) : Int :=
  let v := s.fget F.TIM_PPS_OFS_NS
  if v < 2 ^ 15 then (v : Int) else (v : Int) - 2 ^ 16

/-- A rising edge at the PPS bump (R658, R661). (Log 70: DEDUCED) -/
def State.ppsEdge (s : State) : State :=
  let pps := s.fget F.TIM_CTL_SOURCE == 1
  let early := match s.tb.edge with | some t => decide (s.now ≤ t + msec 500) | none => false
  if pps && early then s.bump F.TIM_SYNC_CNT_REJECTED
  else
    let t := (fab64 s.now).toNat
    let s1 := (s.fset F.TIM_PPS_CAP_LO_TIME t).fset F.TIM_PPS_CAP_HI_TIME (t / 2 ^ 32)
    if pps then
      let x : Int := (s.now : Int) - s.ppsOfs * (nsec 1 : Nat)
      let sec : Int := (msec 1000 : Nat)
      let e := x - (x + sec / 2) / sec * sec
      let s2 := ({ s1 with tb := { s1.tb with edge := some s1.now } }).setFlag F.TIM_STATUS_PPS_MISS false
      let s3 := s2.refEvent e
      { s3 with tb := { s3.tb with edge := some s3.now } }
    else s1

/-- No PPS edge for 1.5 s (R661). (Log 70: DEDUCED) -/
def State.ppsMiss (s : State) : State :=
  if s.fget F.TIM_CTL_SOURCE = 1 then
    ((s.until (s.tb.edge.getD s.tb.sentAt + msec 1500)).setFlag F.TIM_STATUS_PPS_MISS true).holdover
  else s

/-! ## TimeSync (R662 to R665) -/

/-- A `TimeSync` of the home. -/
def syncMsg (home partner : Node) (tag : Tag) (kind : Nat) (slot : Slot) : Msg :=
  mkMsg Op.timeSync 0 home partner tag 0 (BitVec.ofNat 13 kind) false 0 [slot]

/-- NODE of the partner of port `p`. -/
def State.partnerNode (s : State) (p : Nat) : Node := BitVec.ofNat 20 (s.fget F.PRT_LL_STATUS_PARTNER_NODE p)

/-- An exchange is rejected (R664). -/
def State.syncReject (s : State) : State :=
  let n := min (s.tb.rejects + 1) 16
  let s1 := { s.bump F.TIM_SYNC_CNT_REJECTED with tb := { s.tb with rejects := n, req := none } }
  if n = 16 then (s1.setFlag F.TIM_STATUS_SYNC_LOST true).holdover else s1

/-- The exchange interval expires (R664, R665): an exchange without a response is rejected, and the next request goes out. -/
def State.syncInterval (s : State) : State :=
  let p := s.fget F.TIM_CTL_SRC_PORT
  if s.fget F.TIM_CTL_SOURCE = 2 ∧ (s.port p).st = .active then
    let s1 := s.until (s.tb.sentAt + usec (2 ^ s.fget F.TIM_SYNC_CTL_INTERVAL))
    let s2 := if s1.tb.req.isSome then s1.syncReject else s1
    let tag := s2.tb.seq
    ({ s2 with tb := { s2.tb with seq := tag + 1, req := some (tag, s2.now), sentAt := s2.now } }).sendOn p
      (syncMsg s2.home (s2.partnerNode p) tag 0 0)
  else s

/-- A request reaches port `p` (R665): a leader port answers it, elsewhere it is case 0x5. -/
def State.syncRequest (s : State) (p : Nat) (m : Msg) : State :=
  if (s.fget F.TIM_SYNC_CTL_LEADER).testBit p then
    let x := stampBits s.now
    s.sendOn p (syncMsg s.home (s.partnerNode p) m.tag 1 ((0 : BitVec 16) ++ x.2 ++ (0 : BitVec 32) ++ x.1))
  else s.msgCase p m 5

/-- A response reaches port `p` (R663, R664): offset and delay in extended fabric time. (Log 71: DEDUCED) -/
def State.syncResponse (s : State) (p : Nat) (m : Msg) : State :=
  match s.tb.req with
  | none => s.msgCase p m 8
  | some (tag, t1) =>
    if s.fget F.TIM_CTL_SOURCE ≠ 2 ∨ s.fget F.TIM_CTL_SRC_PORT ≠ p ∨ m.tag ≠ tag then s.msgCase p m 8
    else
      let b := msgSlot m 1
      let ep3 := (b.extractLsb' 96 16 : BitVec 16).toNat
      let t3 : Int := ((ep3 * 2 ^ 64 + (b.extractLsb' 0 64 : BitVec 64).toNat : Nat) : Int)
      let t2 : Int := t3 - ((b.extractLsb' 64 32 : BitVec 32).toNat : Int)
      let t1 : Int := ((t1 / 65536 : Nat) : Int)
      let t4 : Int := ((s.now / 65536 : Nat) : Int)
      let e := ((t2 - t1) - (t4 - t3)) * 2 ^ 16 / 2
      let d := ((t2 - t1) + (t4 - t3)) / 2
      let ep := (fabEpoch s.now).toNat
      let far := match s.tb.delays with
        | [] => false
        | x :: l => decide (l.foldl min x + 4 * 65536 < d)
      if far || decide (ep3 + 1 < ep) || decide (ep + 1 < ep3) then s.syncReject
      else
        let s1 := (s.setFlag F.TIM_STATUS_SYNC_LOST false).fset F.TIM_SYNC_DLY_D (d % 2 ^ 32).toNat
        ({ s1 with tb := { s1.tb with rejects := 0, req := none,
                                      delays := (s1.tb.delays ++ [d]).drop (s1.tb.delays.length - 15) } }).refEvent e

/-- A `TimeSync` that passes the checks (R662): it is consumed at its port. (Log 39: DEDUCED) -/
def State.timeSync (s : State) (p : Nat) (m : Msg) : State :=
  if m.fspec.toNat % 4 = 0 then s.syncRequest p m else s.syncResponse p m

/-! ## Reference clock (R74, R158, R666) -/

/-- A loss of the reference clock. -/
def State.refLoss (s : State) : State :=
  if s.flag F.TIM_STATUS_BACKUP then s
  else
    let s1 := (((s.setFlag F.TIM_STATUS_BACKUP true).setFlag F.TIM_STATUS_REF_LOST true).holdover.corrected 0x2E unitChip none
      none).raiseSafety 1
    forUp (fun p (s : State) => s.portDown p) 0 12 s1

/-- The reference is taken back. -/
def State.refReturn (s : State) : State :=
  if s.flag F.TIM_STATUS_BACKUP then
    forUp (fun p (s : State) => s.startPortReset p) 0 12 (s.setFlag F.TIM_STATUS_BACKUP false)
  else s

end Sys2Proof.Machine
end

