-- ==== Sys2Proof/Machine/Reset.lean ====
section
/-!
DEFINITION. Chip resets (15_reset_and_boot.md R576, R585 to R589, R597 to R599): a cold reset, the entry, the flush and the
clearing of a warm reset, and what entry into the safe state does to what waits (19_safety_and_errors.md R702).
-/
namespace Sys2Proof.Machine

/-! ## The safe state -/

/-- Entry into the safe state: waiting requests are answered, buffer entries not yet admitted are discarded, and the Jig
disarms (06 R247, 08 R343, 11 R460, 20 R720). -/
def State.safeReact (s : State) : State :=
  let s1 := s.answerWaiting Op.homeUnavailable (fun _ => true)
  let s2 := forUp (fun p (s : State) => s.discardPort p (fun _ => true)) 0 12 s1
  let s3 := s2.answerFences Op.homeUnavailable (fun _ => true)
  let s4 := forUp (fun l (s : State) => s.clampQuiesce l 0 Op.homeUnavailable true) 0 s3.pat.nActive s3
  (s4.jigDisarmAll 6).react .visible

/-! ## Cold reset -/

/-- A cold reset (R576, R586): everything is lost but what is no state of the chiplet's logic: the levels at its pins, a
missing supply, and the fuses that have been blown. The model's own queue and counter go on. (Log 19: DEDUCED) -/
def State.coldReset (s : State) : State :=
  { State.reset with
    pending := s.pending, fresh := s.fresh,
    boot := { Boot.zero with blown := s.boot.blown, wrstN := s.boot.wrstN, testEn := s.boot.testEn,
                             phyOut := s.boot.phyOut } }

/-! ## Warm reset -/

/-- The watchdogs at the entry of a chip reset (17 R632, R641, R650): the CWD's boot settings and a period, and the SWD's boot
period from `s.boot.since` where the fuse arms it. -/
def State.watchdogsBoot (s : State) : State :=
  let s1 := ((s.fset F.WDG_CWD_CTL_PERIOD 8).fset F.WDG_CWD_CTL_OPEN 6).cwdStart
  s1.modUmv (fun u => { u with
    trap := false, took := false, hardEnd := none, healthyFrom := none, armed := s.boot.fuses.swdHw,
    swdStart := s.boot.since, swdLen := msec 4096 })

/-- What a slice keeps through the flush (R589): what it stores, its memory writes in flight, and the HC part of a scan-out. -/
def Slice.halted (c : Slice) : Slice :=
  { c with trk := [], chain := [], ingress := [], gathers := [], rsv := [], census := [], inv := none, entering := none,
           waking := false, rdBusy := false, hselBusy := false,
           memOps := c.memOps.filter (fun o => !o.offer),
           fail := c.fail.map (fun f => { f with sfDone := true }) }

/-- What a port keeps through the flush: the link, and not the buffers behind it (08 R343). -/
def Port.halted (q : Port) : Port := { q with pwb := [], cwb := [], fences := [], fwd := [] }

/-- The write-back of a warm reset in slice `k` (10 R421): every dirty sub-block goes to memory. (Log 76: DEDUCED) -/
def State.flushSlice (s : State) (k : Nat) (by_ : Time) : State :=
  (s.slice k).hc.foldl (fun (s : State) e =>
    let n := e.1 / 16
    let w := e.1 % 16
    if s.hcRetired k n w then s
    else forUp (fun b (s : State) =>
      let f := s.frame k n w
      let going := (s.slice k).memOps.any (fun o => !o.dead && (match o.clean with
        | some (a, c, d, _) => a == n && c == w && d == b
        | none => false))
      if !(tagV f.tag).getLsbD b || !tagDirty f.tag b || going then s
      else
        let s1 := s.readSub k n w b
        let x := s1.subAt k n w b
        s1.sendMemWr k { MemOp.base flushTag (tagTen f.tag) (subAddr n f.tag b) x.1 x.2 by_ with
          clean := some (n, w, b, false), flush := true }) 0 4 s) s

/-- A warm reset is triggered (R589 steps 1 and 2, R598): while one is in its sequence, or RST_N is asserted, nothing more
happens. (Log 76: DEDUCED) -/
def State.warmReset (s : State) : State :=
  if s.flushing || s.boot.rstN then s
  else
    let by_ := s.now + msec 2
    let s1 : State := { s with safePin := true, ctx0 := none, ctx1 := none, mig := none, barriers := [],
                               boot := { s.boot with since := s.now, flushBy := some by_ } }
    let s2 := ((s1.setFlag F.GLB_BOOT_STATUS_READY false).fset F.WDG_UMV_STATUS_STATE 1).watchdogsBoot
    let s3 := forUp (fun k (s : State) => s.modSlice k Slice.halted) 0 18 s2
    let s4 := forUp (fun p (s : State) => s.modPort p Port.halted) 0 12 s3
    let s5 := forUp (fun l (s : State) => s.clampClear l) 0 16 s4
    s5.actives.foldl (fun (s : State) k => s.flushSlice k by_) s5

/-- A line whose write-back has no `MemWrAck` is lost (10 R421). (Log 76: DEDUCED) -/
def State.loseFlushed (s : State) (a : Addr) : State :=
  let n := a.toNat
  let s1 := ((s.bump F.HCM_LOSS_CNT_COUNT).fset F.HCM_LOSS_ADDR_LO_ADDR_LO (n / 64)).fset F.HCM_LOSS_ADDR_HI_ADDR_HI (n / 2 ^ 32)
  (s1.setFlag F.HCM_LOSS_ADDR_HI_VALID true).fatal 0x29 unitChip (some a) true

/-- Port `p` in the port reset of a warm reset (R589 step 3): its DOWN_NOTICE flits leave, and it is down. (Log 76: DEDUCED) -/
def State.warmPort (s : State) (p : Nat) : State :=
  let s1 := if (s.port p).st = .active
    then forUp (fun _ (s : State) => s.txNotice p) 0 15
      (s.modPort p (fun q => { q with notices := 16, noticeCause := 8, thenReset := true })) else s
  s1.setPort p { Port.zero with lastTx := (s1.port p).lastTx }

/-- The fields that a warm reset keeps besides those of access RWS, with the number of registers of a group (R586): 13 R527,
R533; 14 R567; 15 R578, R582, R602; 18 R666; 19 R708; 21 R748. -/
def warmKept : List (Fld × Nat) :=
  [(F.SAF_LOG_STAT_USED, 1), (F.SAF_LOG_STAT_DROPPED, 1), (F.SAF_FENCED_FENCED, 1), (F.SAF_NOTICE_COUNT, 1),
   (F.PAT_ERR_VALID, 1), (F.PAT_ERR_KIND, 1), (F.PAT_ERR_TENANT, 1), (F.PAT_ERR_CODE, 1), (F.PAT_ERRLOC_SECTION, 1),
   (F.PAT_ERRLOC_RECORD, 1), (F.PAT_STATUS_LC, 1), (F.GLB_SPR_STATUS_DEGRADED, 1), (F.GLB_SPR_STATUS_REASON, 1),
   (F.GLB_LOSS_CNT_COUNT, 1), (F.GLB_I3C_STATUS_DAVALID, 1), (F.GLB_I3C_STATUS_DA, 1), (F.GLB_I3C_STATUS_STATIC, 1),
   (F.GLB_BOOT_STATUS_BOOT_SEL, 1), (F.GLB_BOOT_STATUS_ADDR_SEL, 1), (F.GLB_RST_CAUSE_WARMS, 1), (F.TIM_STATUS_BACKUP, 1),
   (F.GLB_UNLK_STATUS_PEND, 1), (F.WDG_CWD_CTL_PERIOD, 1), (F.WDG_CWD_CTL_OPEN, 1)]

/-- The fields of access RWS (00 R13). -/
def rwsKept : List (Fld × Nat) :=
  (glbWritable ++ hcmWritable ++ wdgWritable ++ timWritable).filterMap (fun f =>
    if f.acc = .rws then some (f.fld, if f.fld = F.WDG_SWD_SAVE_DATA then 16 else if f.fld = F.GLB_SSCRATCH_DATA then 4 else 1)
    else none)

/-- The bits of the register at byte address `a` that a warm reset keeps. -/
def keptBits (l : List (Fld × Nat)) (a : Nat) : Word :=
  l.foldl (fun (m : Word) e =>
    if (List.range e.2).any (fun i => e.1.addr 0 i == a) then setBits m e.1.lsb e.1.wid (onesMask e.1.wid) else m) 0

/-- The registers after a warm reset (R586): kept bits stay, every other takes its reset value. (Log 76: DEDUCED) -/
def warmRegs (l : Sp Word) : Sp Word :=
  l.filterMap (fun e =>
    let m := keptBits (warmKept ++ rwsKept) e.1
    let v := (regInit e.1 &&& ~~~m) ||| (e.2 &&& m)
    if v = regInit e.1 then none else some (e.1, v))

/-- Everything outside the always-on domain is reset (R589 step 4), and the boot begins at step 2 (step 5). (Log 76: DEDUCED) -/
def State.warmClear (s : State) : State :=
  let s1 : State := { State.reset with
    pending := s.pending, fresh := s.fresh, now := s.now, regs := warmRegs s.regs, safePin := true,
    roles := s.roles.filter (fun e => e.2 == .fenced), ports := s.ports,
    slices := (List.range 18).map (fun k =>
      (k, { Slice.zero with sfRet := (s.slice k).sfRet, hcRet := (s.slice k).hcRet, allLoose := true })),
    banks := s.banks, lossLog := s.lossLog, replaceNo := s.replaceNo, replaceAt := s.replaceAt, vectors := s.vectors,
    log := s.log, dropArm := s.dropArm, due := s.due,
    boot := { s.boot with flushBy := none, image := [], ptr := 0, bytes := 0, accepted := none, nonce := none, record := [],
                          recPtr := 0, unlk := none, ptr3 := 0, bad3 := false },
    umv := { s.umv with chained := false, log := [] },
    tb := { Timebase.zero with sentAt := s.now, evalAt := s.now },
    tns := { Tenants.zero with staging := s.tns.staging.filterMap (fun e =>
      let b := if e.2.used then e.2.freed else e.2
      if b = Staging.zero then none else some (e.1, b)) } }
  let s2 := ((s1.fset F.GLB_RST_CAUSE_CAUSE 2).bump F.GLB_RST_CAUSE_WARMS).vectorsWarm
  let s3 := if s2.flag F.GLB_UNLK_STATUS_PEND && s2.lifecycle != 2 then s2.fset F.PAT_STATUS_LC 1 else s2
  (s3.setFlag F.GLB_UNLK_STATUS_PEND false).fset F.GLB_BOOT_STATUS_STEP 2

/-- The lines of memory writes without their acknowledgement. -/
def State.unacked (s : State) : List Addr :=
  ((List.range 18).flatMap (fun k => (s.slice k).memOps.map (·.line))).eraseDups

/-- The flush of a warm reset ends (R589): at its bound where a write has no acknowledgement. (Log 76: DEDUCED) -/
def State.warmFlushEnd (s : State) : State :=
  match s.boot.flushBy with
  | none => s
  | some t =>
    let lost := s.unacked
    let s1 := if lost.isEmpty then s else lost.foldl (fun (s : State) a => s.loseFlushed a) (s.until t)
    (forUp (fun p (s : State) => s.warmPort p) 0 12 s1).warmClear

/-! ## The pins that start or hold a warm reset (22 R761, R763) -/

/-- WRST_N is asserted. -/
def State.wrstAssert (s : State) : State :=
  if s.boot.wrstN then s else ({ s with boot := { s.boot with wrstN := true } } : State).warmReset

/-- WRST_N is deasserted: the boot goes on from step 2, and EXTEST, CLAMP or HIGHZ in the instruction register acts as
BYPASS from then on (22 R763, R780). -/
def State.wrstDeassert (s : State) : State :=
  let drives := s.boot.ir == 0x00 || s.boot.ir == 0x03 || s.boot.ir == 0x04
  { s with boot := { s.boot with wrstN := false, ir := if drives then 0xFF else s.boot.ir, dr := if drives then 0 else s.boot.dr } }

/-- TEST_EN is 1. -/
def State.testEnAssert (s : State) : State :=
  if s.boot.testEn then s else ({ s with boot := { s.boot with testEn := true } } : State).warmReset

/-- TEST_EN is 0 again. -/
def State.testEnDeassert (s : State) : State := { s with boot := { s.boot with testEn := false } }

/-- A reset of the chip is in force or holds the boot at step 2 (R591, 22 R763). -/
def State.bootHeld (s : State) : Bool := s.boot.rstN || s.flushing || s.boot.wrstN || s.boot.testEn

end Sys2Proof.Machine
end

