-- ==== Sys2Proof/Machine/Boot.lean ====
section
/-!
DEFINITION. The boot sequence (15_reset_and_boot.md R577 to R604): fuses, ROM, the delivery of the base Pattern from SPI NOR or
over I3C, its validation and application, training and READY; the unlock of DEBUG and the revocation of key slots.
-/
namespace Sys2Proof.Machine

/-- Changes the record of the boot. -/
def State.modBoot (s : State) (f : Boot → Boot) : State := { s with boot := f s.boot }

/-- The boot is in step `n` and goes on: no reset holds it and no boot failure has ended it. -/
def State.bootIn (s : State) (n : Nat) : Bool := s.fget F.GLB_BOOT_STATUS_STEP == n && !s.bootHeld && !s.bootFailed

/-- The boot enters a step. -/
def State.bootStep (s : State) (n : Nat) : State := s.fset F.GLB_BOOT_STATUS_STEP n

/-! ## Steps 1 to 3 -/

/-- RST_N deasserts (R578, R591 step 1): the straps are latched and the always-on domain is up. (Log 4: DESIGN CHOICE) -/
def State.rstNDeassert (s : State) (addrSel : BitVec 3) (bootSel : Bool) : State :=
  if !s.boot.rstN then s
  else
    let s1 := s.modBoot (fun b => { b with rstN := false, since := s.now, vidOn := true })
    let s2 := ((s1.setFlag F.GLB_BOOT_STATUS_BOOT_SEL bootSel).fset F.GLB_BOOT_STATUS_ADDR_SEL addrSel.toNat).fset
      F.GLB_I3C_STATUS_STATIC (0x50 + addrSel.toNat)
    s2.cwdStart.bootStep 2

/-- Fuse word `i` as it was read. (Log 31: DEDUCED) -/
def fuseWord (r : FuseRead) (i : Nat) : Nat := (r.words.getD i 0).toNat

/-- The `n` fuse words from word `i` on as one number, the first lowest. (Log 31: DEDUCED) -/
def fuseSpan (r : FuseRead) : Nat → Nat → Nat
  | _, 0 => 0
  | i, n + 1 => fuseWord r i + 2 ^ 64 * fuseSpan r (i + 1) n

/-- The fuses as boot step 2 reads them (R580): a word that cannot be read gives its fields their stated outcomes. The
spec does not say which word holds which field: words 0 to 23 hold the key hashes, word 24 PROG, REVOKE, DEBUG_DISABLE and
SWD_HW_START from bit 0 up, words 25 and 26 DEVICE_ID, and words 27 to 31 four BASE fields each. (Log 31: DEDUCED) -/
def fusesOf (r : FuseRead) (blown : BitVec 4) : Fuses :=
  let bad (i : Nat) : Bool := r.bad.contains i
  let c := if bad 24 then 0x3F0 else fuseWord r 24
  let lost := (List.range 4).foldl (fun m k =>
    if (List.range 6).any (fun i => bad (6 * k + i)) then m + 2 ^ k else m) 0
  { keyHash := (List.range 4).map (fun k => BitVec.ofNat 384 (fuseSpan r (6 * k) 6)),
    prog := BitVec.ofNat 4 c, revoke := BitVec.ofNat 4 (c / 16) ||| BitVec.ofNat 4 lost ||| blown,
    debugDisable := c.testBit 8, swdHw := c.testBit 9,
    deviceId := BitVec.ofNat 128 ((if bad 25 then 0 else fuseWord r 25) + 2 ^ 64 * (if bad 26 then 0 else fuseWord r 26)),
    base := (List.range 18).map (fun k =>
      if bad (27 + k / 4) then 0 else BitVec.ofNat 16 (fuseWord r (27 + k / 4) / 2 ^ (16 * (k % 4)))) }

/-- Boot step 2 (R580): the fuses are read and reported, and Umevo leaves its reset. (Log 5: DESIGN CHOICE, 31: DEDUCED) -/
def State.bootFuse (s : State) (r : FuseRead) : State :=
  if !s.bootIn 2 then s
  else
    let fu := fusesOf r s.boot.blown
    let bad (i : Nat) : Bool := r.bad.contains i
    let baseBad := BitVec.ofNat 18 ((List.range 18).foldl (fun m k => if bad (27 + k / 4) then m + 2 ^ k else m) 0)
    let s1 := s.modBoot (fun b => { b with fuses := fu, baseBad := baseBad })
    let s2 := (((((s1.fset F.GLB_FUSE_STATUS_CE (min 15 r.corrected.eraseDups.length)).fset F.GLB_FUSE_STATUS_UE
      (min 15 r.bad.eraseDups.length)).fset F.GLB_FUSE_STATUS_PROG fu.prog.toNat).fset F.GLB_FUSE_STATUS_REVOKED
      fu.revoke.toNat).setFlag F.GLB_FUSE_STATUS_DBG_DIS fu.debugDisable).setFlag F.GLB_FUSE_STATUS_SWD_HW fu.swdHw
    let s3 := forUp (fun m (s : State) => s.fset F.GLB_DEVID_BYTES (fu.deviceId.toNat / 2 ^ (32 * m)) 0 m) 0 4 s2
    let s4 := s3.setFlag F.GLB_STATUS_DEVID_OK (!bad 25 && !bad 26)
    let s5 := forUp (fun k (s : State) =>
      let s1 := s.fset F.SLC_DMON_BASE_BASE (fu.base.getD k 0).toNat k
      if baseBad.getLsbD k then s1.fset F.SLC_DMON_AGE_AGE 1001 k else s1) 0 18 s4
    let s6 := s5.modUmv (fun u =>
      if u.armed || !fu.swdHw then u else { u with armed := true, swdStart := s.boot.since, swdLen := msec 4096 })
    (s6.fset F.WDG_UMV_STATUS_STATE (if s6.umv.halted then 2 else 0)).takeTrap.bootStep 3

/-- Boot step 3 (R591, R595): the ROM check, and the image buffer is cleared. -/
def State.bootRom (s : State) (crcOk : Bool) : State :=
  if !s.bootIn 3 || !s.umevoRuns then s
  else if crcOk then
    ((s.modBoot (fun b => { b with image := [], ptr := 0, bytes := 0 })).fset F.GLB_BOOT_STATUS_SOURCE
      (if s.flag F.GLB_BOOT_STATUS_BOOT_SEL then 3 else 1)).bootStep 4
  else ((s.setFlag F.GLB_BOOT_STATUS_FAIL true).fset F.GLB_BOOT_STATUS_CODE 1).setFlag F.SAF_FAULT_BOOT_FAIL true

/-! ## Step 4: delivery (R592, R593) -/

/-- The image is rejected: the boot goes back to step 4 with the next source (R591, R593). (Log 33: DEDUCED) -/
def State.nextSource (s : State) : State :=
  let s1 := s.bootStep 4
  match s.fget F.GLB_BOOT_STATUS_SOURCE with
  | 1 => s1.fset F.GLB_BOOT_STATUS_SOURCE 2
  | 2 => ((s1.fset F.GLB_BOOT_STATUS_SOURCE 3).setFlag F.GLB_BOOT_STATUS_SPI_BAD true).setFlag F.SAF_FAULT_SPI_BAD true
  | _ => s1

/-- The Basic Flash Parameter Table of a usable SFDP: its first byte and its length in DWORDs. The layout of the SFDP is
that of the JEDEC standard which R592 rests on. (Log 32: PRESUMED) -/
def sfdpTable (b : List Nat) : Option (Nat × Nat) :=
  if imgLe b 0 4 = 0x50444653 ∧ imgLe b 5 1 = 1 ∧ 6 ≤ imgLe b 4 1 then
    ((List.range (imgLe b 6 1 + 1)).find? (fun i => imgLe b (8 + 8 * i) 1 == 0 && imgLe b (15 + 8 * i) 1 == 0xFF)).map
      (fun i => (imgLe b (12 + 8 * i) 3, imgLe b (11 + 8 * i) 1))
  else none

/-- GLB_BOOT_SPI.MODE that R592 chooses from the table, and whether 3-byte addressing is allowed. (Log 32: PRESUMED) -/
def sfdpMode (b : List Nat) (at_ len : Nat) : Nat × Bool :=
  let d1 := imgLe b at_ 4
  let quad := 15 ≤ len && recF (imgLe b (at_ + 56) 4) 20 3 ≤ 5
  (if quad && d1.testBit 21 then 6 else if quad && d1.testBit 22 then 5 else if d1.testBit 20 then 4
   else if d1.testBit 16 then 3 else 2, recF d1 17 2 != 2)

/-- The words of a list of bytes, the first lowest, from word `i` on. -/
def wordsOf : Nat → List Byte → Sp Word
  | i, a :: b :: c :: d :: t =>
    let w := d ++ c ++ b ++ a
    if w = 0 then wordsOf (i + 1) t else (i, w) :: wordsOf (i + 1) t
  | _, _ => []

/-- The image in the buffer is submitted: step 5 begins. (Log 33: DEDUCED) -/
def State.submit (s : State) (bytes : Nat) : State :=
  ((s.modBoot (fun b => { b with bytes := bytes })).fset F.PAT_STATUS_LOADER 1).bootStep 5

/-- A fetch from SPI NOR completes (R592). (Log 32: PRESUMED, 33: DEDUCED) -/
def State.spiFetch (s : State) (f : SpiFlash) : State :=
  let src := s.fget F.GLB_BOOT_STATUS_SOURCE
  if !s.bootIn 4 || !s.umevoRuns || (src != 1 && src != 2) then s
  else
    let nat (l : List Byte) : List Nat := l.map (·.toNat)
    let sf := if f.answers then nat f.sfdp else []
    let tab := sfdpTable sf
    let mode := match tab with | some (a, n) => sfdpMode sf a n | none => (1, true)
    let s1 := (((s.setFlag F.GLB_BOOT_SPI_SFDP tab.isSome).fset F.GLB_BOOT_SPI_MINOR
      (if imgLe sf 0 4 = 0x50444653 then imgLe sf 4 1 else 0)).fset F.GLB_BOOT_SPI_MODE mode.1)
    let total := imgLe (nat (f.image.take 128)) 8 4
    if !f.answers || !mode.2 || (f.image.take 128).all (· == 0xFF) then
      (s1.setFlag F.GLB_BOOT_SPI_FAIL true).nextSource
    else if total % 16 ≠ 0 ∨ total < 352 ∨ 262144 < total then (s1.patErr (imgErr 0x03) false 0).nextSource
    else (s1.modBoot (fun b => { b with image := wordsOf 0 (f.image.take total) })).submit (min total f.image.length)

/-- An image is delivered over I3C (R593, R597). -/
def State.i3cBoot (s : State) : Bool := s.bootIn 4 && s.fget F.GLB_BOOT_STATUS_SOURCE == 3

/-- GLB_BOOT_ICMD.START (R593). (Log 33: DEDUCED) -/
def State.icmdStart (s : State) : State := if s.i3cBoot then s.modBoot (fun b => { b with ptr := 0 }) else s

/-- GLB_BOOT_IDATA (R593, R596): words beyond 262,144 bytes are ignored. -/
def State.idata (s : State) (v : Word) : State :=
  if s.i3cBoot && decide (s.boot.ptr < 65536) then
    s.modBoot (fun b => { b with image := spSet 0 b.image b.ptr v, ptr := b.ptr + 1 })
  else s

/-- GLB_BOOT_ICMD.LOAD (R593). (Log 33: DEDUCED) -/
def State.icmdLoad (s : State) : State := if s.i3cBoot then s.submit (4 * s.boot.ptr) else s

/-! ## Step 5: validation (14 R558 to R561) -/

/-- Validation of the base image completes. -/
def State.bootAuth (s : State) : State :=
  if !s.bootIn 5 || !s.umevoRuns then s
  else
    let b := wordBytes ((s.boot.bytes + 3) / 4) s.boot.image
    let s1 := (s.bump F.GLB_BOOT_STATUS_ATTEMPTS).fset F.PAT_STATUS_LOADER 0
    let s2 := match baseErr s.boot.fuses s.lifecycle s.boot.bytes b with
      | some e => (s1.patErr e false 0).nextSource
      | none =>
        let x := b.take (imgLe b 8 4)
        let a : Accepted := { pat := imgPattern x, id := BitVec.ofNat 32 (imgLe x 0x0C 4), version := BitVec.ofNat 32 (imgLe x 0x10 4),
                              digest := imgDigest x, key := imgLe x (x.length - 204) 1 }
        ((s1.modBoot (fun c => { c with accepted := some a })).setFlag F.SAF_FAULT_SPI_BAD false).bootStep 6
    s2.umvLog 0x07 0 0 (s2.word (F.PAT_ERR_VALID.addr 0 0)).toNat

/-! ## Step 6: application (14 R562, 13 R535) -/

/-- The map of the Pattern (13 R535): each logical slice is served by its Pattern slice, and the other slices are spares; a
fenced slice stays fenced. -/
def State.mapInit (s : State) : State :=
  let fenced (k : Nat) : Bool := s.srole k == .fenced
  let s1 : State := { s with
    roles := (List.range 18).filterMap (fun k =>
      if fenced k then some (k, SliceRole.fenced) else if s.pat.lsmap.contains k then none else some (k, SliceRole.spare)),
    logic := [], table := s.pat.table, moved := [], cur := [] }
  forUp (fun l (s : State) => s.modLsl l (fun x => { x with phys := s.pat.lsmap.getD l 0 })) 0 s.pat.nActive s1

/-- Logical slice `l`, whose Pattern slice is fenced, takes the lowest available spare, or is rehashed, with no census
(13 R535, R525). -/
def State.mapRepair (s : State) (l : Nat) : State :=
  let k := (s.lsl l).phys
  if s.srole k ≠ .fenced then s
  else match s.spare with
  | some r => (s.modLsl l (fun x => { x with phys := r })).setRole r .active
  | none =>
    let left := ((List.range s.pat.nActive).filter (fun j => !(s.lsl j).hosted && j != l)).length
    if left < s.pat.minActive ∨ left = 0 then s.safeCause 0x2F unitChip
    else
      let s1 := forUp (fun k (s : State) => (s.modSlice k (fun c => { c with census := [] })).setFlag F.SLC_SF_CENSUS_ACTIVE
        false k) 0 18 (s.rehash k l)
      s1.modLsl l (fun x => { x with lossHold := false, rehashAt := none })

/-- The registers whose reset values come from the Pattern. -/
def State.patRegs (s : State) (a : Accepted) : State :=
  let p := s.pat
  let s1 := forUp (fun k (s : State) => (((s.fset F.SLC_SHED_CTL_TWIN p.twin k).fset F.SLC_SF_CTL_SCRUB_INT p.sfScrub k).fset
    F.SLC_HC_CTL_SCRUB_INT p.hcScrub k).fset F.SLC_CLAMP_CTL_AGE_STEP p.ageStep k) 0 18 s
  let s2 := (s1.setFlag F.HCM_MODE_CTL_DISABLE p.hcDisable).fset F.HCM_MODE_STATUS_MODE (if p.hcDisable then 2 else 0)
  let s3 := (s2.fset F.PWR_CTL_MAX_STATE p.maxState).fset F.PWR_CTL_ENTRY_IDLE p.entryIdle
  let s4 := (((s3.fset F.WDG_CWD_CTL_PERIOD p.cwdPeriod).fset F.WDG_CWD_CTL_OPEN p.cwdOpen).fset F.WDG_LADDER_N p.cwdN).fset
    F.WDG_LADDER_HEALTHY p.healthy
  let s5 := ((s4.fset F.WDG_SWD_CTL_HARD p.swdHard).fset F.GLB_CAPS_ACTIVE p.nActive).fset F.GLB_HOME_NODE p.home.toNat
  let s6 := ((s5.fset F.PAT_ID_ID a.id.toNat).fset F.PAT_VERSION_VERSION a.version.toNat).fset F.PAT_STATUS_KEY a.key
  let s7 := forUp (fun m (s : State) => s.fset F.PAT_DIGEST_BYTES (imgLe a.digest (4 * m) 4) 0 m) 0 12 s6
  p.tens.foldl (fun (s : State) c => (s.tenRegs c.ten).fset F.TNT_STATUS_STATE 1 c.ten.toNat) s7

/-- The slices after the initialization of their arrays (R591 step 6; 02 R68; 10 R401; 18 R671). (Log 77: DEDUCED) -/
def State.slicesInit (s : State) : State :=
  forUp (fun k (s : State) => s.modSlice k (fun c =>
    { c with lfsr := s.pat.lfsrSeed, pwr := .doze, idleAt := s.now, autoAt := max s.now 1, ageAt := s.now + usec (2 ^ 20) })) 0 18 s

/-- The ports begin step 7: each that is not OFF trains; without its clock or its supply it is down (04 R158, 22 R778). -/
def State.portsInit (s : State) : State :=
  forUp (fun p (s : State) =>
    s.setPortState p (if s.role p = .off then .off else if s.flag F.TIM_STATUS_BACKUP || s.boot.phyOut then .down else .train)) 0 12 s

/-- Sealing (14 R553, R562; 20 R720). -/
def State.seal (s : State) : State :=
  let s1 := (s.setFlag F.PAT_STATUS_SEALED true).setFlag F.GLB_HOME_VALID true
  if s.pat.lock then (s1.fset F.PAT_STATUS_LC 2).jigDisarmAll 1 else s1

/-- Boot step 6 completes: the Pattern is applied and sealed, and step 7 begins. (Log 77: DEDUCED) -/
def State.bootInit (s : State) : State :=
  match s.boot.accepted with
  | none => s
  | some a =>
    if !s.bootIn 6 || !s.umevoRuns then s
    else
      let s1 := (({ s with pat := a.pat, boot := { s.boot with accepted := none, image := [] } } : State).patRegs a).mapInit
      let s2 := forUp (fun l (s : State) => s.mapRepair l) 0 a.pat.nActive s1
      let s3 := s2.slicesInit.vectorsApply
      let s4 := (s3.modUmv (fun u => { u with n := a.pat.cwdN, healthy := a.pat.healthy })).cwdStart
      let s5 := (s4.seal.fset F.WDG_UMV_STATUS_ROLE 1).portsInit
      (s5.modBoot (fun b => { b with trainBy := s5.now + msec 10 })).bootStep 7

/-! ## Step 7 and READY (R591, R594) -/

/-- Every port that is not OFF has reached the UCIe active state or ended one failed attempt. -/
def State.trainDone (s : State) : Bool :=
  (List.range 12).all (fun p => let q := s.port p
    s.role p == .off || q.ucieUp || decide (0 < q.fails) || q.st == .failed)

/-- Step 7 ends, at its bound where a port is still training, and READY follows (17 R641, R638; 19 R690). (Log 77: DEDUCED) -/
def State.bootTrainEnd (s : State) : State :=
  if !s.bootIn 7 || s.boot.phyOut then s
  else
    let s1 := if s.trainDone then s else s.until s.boot.trainBy
    let s2 := (s1.bootStep 8).setFlag F.GLB_BOOT_STATUS_READY true
    let s3 := (s2.setFlag F.GLB_BOOT_TIME_VALID true).fset F.GLB_BOOT_TIME_US (min ((s2.now - s2.boot.since) / usec 1) 0xFFFFFF)
    let s4 := { s3 with safePin := s3.isSafe, latent := { s3.latent with from_ := some s3.now } }
    let s5 := s4.fset F.WDG_SWD_CTL_PERIOD s4.pat.swdPeriod
    let s6 := if s5.umv.armed && s5.umv.hardEnd.isNone then s5.swdStart else s5
    s6.healthyAgain.evgServe

/-! ## GLB_RST_CMD (R588) -/

/-- GLB_RST_CMD with the KEY: WARM, or UMEVO. -/
def State.rstCmd (s : State) (warm umevo : Bool) (key : BitVec 16) : State :=
  if key ≠ 0xB007 then s else if warm then s.react .warm else if umevo then s.umevoReset else s

/-! ## Unlock (R583, R584, R597) -/

/-- GLB_UNLK_CMD.NONCE. (Log 13: DESIGN CHOICE) -/
def State.unlkNonce (s : State) : State :=
  let x := s.draw
  x.2.modBoot (fun b => { b with nonce := some (Config.nonce x.1), recPtr := 0 })

/-- GLB_UNLK_DATA (R596): words beyond 192 bytes are ignored. -/
def State.unlkData (s : State) (v : Word) : State :=
  if s.boot.recPtr < 48 then s.modBoot (fun b => { b with record := spSet 0 b.record b.recPtr v, recPtr := b.recPtr + 1 }) else s

/-- RESULT of the verification of the unlock record (R583, R596): no nonce is judged first, then the lifecycle and the
fuses, the key hash, and the signature. (Log 77: DEDUCED) -/
def State.unlkResult (s : State) : Nat :=
  match s.boot.nonce with
  | none => 5
  | some n =>
    let fu := s.boot.fuses
    let rec_ := wordBytes 48 s.boot.record
    let be (o k : Nat) : Nat := ofBytesBe ((rec_.drop o).take k)
    if s.lifecycle = 2 ∨ fu.debugDisable ∨ !s.flag F.GLB_STATUS_DEVID_OK ∨ !fu.prog.getLsbD 3 ∨ fu.revoke.getLsbD 3 then 2
    else if ofBytesLe (sha384 (rec_.take 96)) ≠ (fu.keyHash.getD 3 0).toNat then 3
    else if ecdsaOk (be 0 48) (be 48 48) (sha384 (bytesLe 32 n.toNat ++ bytesLe 16 fu.deviceId.toNat)) (be 96 48) (be 144 48) then 1
    else 4

/-- GLB_UNLK_CMD.VERIFY: the record and the nonce as they stand are verified. -/
def State.unlkVerify (s : State) : State :=
  (s.modBoot (fun b => { b with unlk := some s.unlkResult })).setFlag F.GLB_UNLK_STATUS_BUSY true

/-- The verification completes, while Umevo runs: the nonce is consumed. (Log 77: DEDUCED) -/
def State.unlkDone (s : State) : State :=
  match s.boot.unlk with
  | none => s
  | some r =>
    if !s.umevoRuns then s
    else
      let s1 := ((s.modBoot (fun b => { b with unlk := none, nonce := none })).setFlag F.GLB_UNLK_STATUS_BUSY false).fset
        F.GLB_UNLK_STATUS_RESULT r
      if r = 1 then s1.setFlag F.GLB_UNLK_STATUS_PEND true else s1

/-! ## Revocation (R581) -/

/-- GLB_FUSE_CMD.REVOKE by Umevo in machine privilege. (Log 5: DESIGN CHOICE) -/
def State.fuseRevoke (s : State) (slot : BitVec 2) : State :=
  if s.flag F.PAT_STATUS_SEALED && s.fget F.PAT_STATUS_KEY != slot.toNat then
    let bit : BitVec 4 := BitVec.ofNat 4 (2 ^ slot.toNat)
    let s1 := s.modBoot (fun b => { b with blown := b.blown ||| bit, fuses := { b.fuses with revoke := b.fuses.revoke ||| bit } })
    s1.fset F.GLB_FUSE_STATUS_REVOKED s1.boot.fuses.revoke.toNat
  else s

end Sys2Proof.Machine
end

