-- ==== Sys2Proof/Machine/Monitor.lean ====
section
/-!
DEFINITION. The safety monitor (19_safety_and_errors.md R688 to R709): detected faults that are not found in an array, latent
tests, temperature and supplies, the commanded safe state and the logs; and the arming of the Jig (20 R714 to R720).
-/
namespace Sys2Proof.Machine

/-! ## Detected faults (R691, R698 to R700) -/

/-- A port is put in FAILED by its stall monitor or by a failed latent test: PRTn_LL_LASTERR keeps what it holds (R691).
(Log 78: DEDUCED) -/
def State.portFails (s : State) (p : Nat) (cause : BitVec 8) : State :=
  if s.role p = .off ∨ (s.port p).st = .failed then s
  else
    let u := unitPort p
    let s1 := (s.logEntry (s.entryNow 0 none u cause none)).notice (monitorNotice cause 0 s.isSafe u none none)
    let a := F.PRT_LL_LASTERR_CAUSE.addr p 0
    (s1.failPort p 0).setWord a (s1.word a)

/-- The number of a port or slice that UNIT names, if it does (R699). -/
def unitAsSlice (u : BitVec 8) : Option Nat := if u.toNat < 18 then some u.toNat else none
def unitAsPort (u : BitVec 8) : Option Nat := if 0x20 ≤ u.toNat ∧ u.toNat < 0x2C then some (u.toNat - 0x20) else none

/-- A stall monitor finds a stuck handshake (R688, R698). (Log 78: DEDUCED) -/
def State.stall (s : State) (u : BitVec 8) : State :=
  match unitAsSlice u, unitAsPort u with
  | some k, _ => s.react (.fence k 0x20)
  | _, some p => if s.role p = .off then s else (s.portFails p 0x22).setFlag F.SAF_FAULT_PORT true
  | _, _ => s.fatal 0x21 u none s.flushing

/-- Duplicated control disagrees (R688, R698). -/
def State.comparator (s : State) (u : BitVec 8) : State :=
  match unitAsSlice u with
  | some k => s.react (.fence k 0x1E)
  | none => s.fatal 0x1F u none s.flushing

/-- The tracker age monitor (R688): an entry open for twice its closing bound. -/
def State.trackerAge (s : State) (k t : Nat) : State :=
  match s.txn k t with
  | some x => if x.opened then (s.until (x.admitted + 2 * x.bound)).react (.fence k 0x23) else s
  | none => s

/-- SAFE_N or FAULT_N does not read back as driven (R691). (Log 78: DEDUCED) -/
def State.pinMismatch (s : State) : State :=
  let s1 := s.setFlag F.SAF_FAULT_READBACK true
  if s.isSafe then s1 else s1.fatal 0x31 unitChip none s.flushing

/-! ## Latent tests (R690 to R692, R707) -/

/-- The latent tests that apply now, by unit and test: 0 checkers, 1 scrub of the SF, 2 comparators, 3 stall monitors,
4 port checkers, 6 supply, temperature and clock monitors, 7 scrub of the home cache. Pin readback, test 5, is continuous.
(Log 78: DEDUCED) -/
def State.latentTests (s : State) : List (BitVec 8 × BitVec 8) :=
  ((List.range 18).filter (fun k => (s.srole k == .active || s.srole k == .target) && (s.slice k).pwr != .deep)).flatMap
      (fun k => [(unitSlice k, 0), (unitSlice k, 1), (unitSlice k, 2), (unitSlice k, 3), (unitSlice k, 7)]) ++
    ((List.range 12).filter (fun p => s.role p != .off)).map (fun p => (unitPort p, 4)) ++
    [(unitLoom, 0), (unitLoom, 2), (unitLoom, 3), (unitChip, 6)]

/-- The rounds of 100 ms that have ended are judged (R707): one passes when every test that applies completed in it and none
failed. -/
def State.latentSync (s : State) : State :=
  match s.latent.from_ with
  | none => s
  | some t0 =>
    let n := (s.now - t0) / msec 100
    if n ≤ s.latent.round then s
    else
      let passed := !s.latent.failed && s.latentTests.all s.latent.ran.contains
      let s1 := if passed then s.wrapInc F.SAF_LT_PASSES else s
      { s1 with latent := { s1.latent with round := n, ran := [], failed := false } }

/-- A latent test completes without a failure. -/
def State.latentRan (s : State) (u test : BitVec 8) : State :=
  let s1 := s.latentSync
  if s1.latent.ran.contains (u, test) || s1.latent.from_.isNone then s1
  else { s1 with latent := { s1.latent with ran := s1.latent.ran ++ [(u, test)] } }

/-- A latent test fails (R691, R696). -/
def State.latentFails (s : State) (u : BitVec 8) : State :=
  let s1 := s.latentSync
  let s2 := { s1 with latent := { s1.latent with failed := true } }
  let s3 := (((s2.setFlag F.SAF_LT_FAILED true).fset F.SAF_LT_LAST u.toNat).setFlag F.SAF_FAULT_LATENT true).raiseSafety 4
  match unitAsSlice u, unitAsPort u with
  | some k, _ => s3.react (.fence k 0x2B)
  | _, some p => s3.portFails p 0x2B
  | _, _ => s3.fatal 0x2B u none s.flushing

/-- A latent test runs, where it applies. -/
def State.latentTest (s : State) (u test : BitVec 8) (pass : Bool) : State :=
  if !s.latentTests.contains (u, test) then s else if pass then s.latentRan u test else s.latentFails u

/-! ## Temperature and supplies (R704, R705; 22 R777, R778) -/

/-- The highest sensor reading, in °C + 64; at or above TWARN it raises source 3. (Log 80: DEDUCED) -/
def State.tempWarn (s : State) (temp : BitVec 8) : State :=
  let s1 := s.fset F.SAF_STATUS_TEMP temp.toNat
  if s.fget F.SAF_CTL_TWARN + 64 ≤ temp.toNat then s1.raiseSafety 3 else s1

/-- A sensor has read 135 °C or more for 1 ms. (Log 80: DEDUCED, 90: DESIGN CHOICE) -/
def State.tempTrip (s : State) (temp : BitVec 8) : State :=
  let s1 := s.fset F.SAF_STATUS_TEMP temp.toNat
  if 199 ≤ temp.toNat then (s1.setFlag F.SAF_FAULT_ENV true).safeCause 0x2C unitChip else s1

/-- A supply has been beyond its limit for 10 µs. (Log 4, 90: DESIGN CHOICE) -/
def State.supplyFault (s : State) (sup : Supply) : State :=
  let s1 := (s.setFlag F.SAF_FAULT_ENV true).safeCause 0x2D unitChip
  if sup = .phy then
    forUp (fun p (s : State) => s.portDown p) 0 12 (s1.modBoot (fun b => { b with phyOut := true }))
  else s1

/-- VDD_PHY returns to its range: each port that is not OFF takes a port reset, and boot step 7 goes on. (Log 90: DESIGN CHOICE) -/
def State.phyReturn (s : State) : State :=
  if !s.boot.phyOut then s
  else
    let s1 := s.modBoot (fun b => { b with phyOut := false, trainBy := s.now + msec 10 })
    forUp (fun p (s : State) => s.startPortReset p) 0 12 s1

/-! ## SAF_CMD and the logs (R699, R701; 13 R532) -/

/-- SAF_CMD.ENTER by the safety master. -/
def State.safEnter (s : State) (key : BitVec 16) : State := if key = 0x5AFE then s.safeCause 0x30 unitChip else s

/-- SAF_LOG_CMD.NEXT: the oldest entry is removed, and the first drop of the next filling raises source 6 again. -/
def State.logNext (s : State) : State := { s with log := s.log.tail, dropArm := true }

/-- GLB_LOSS_HEAD_HI.NEXT. -/
def State.lossNext (s : State) : State := { s with lossLog := s.lossLog.tail }

/-! ## Arming the Jig (20 R714, R715, R719, R720, R723) -/

/-- The width of the stored word of an injection kind, where bit indices count. -/
def jigWidth : Nat → Option Nat
  | 0x2 => some 2048 | 0x3 => some 128 | 0x8 => some 118 | 0x9 => some 277 | 0xA => some 55 | 0xB => some 128
  | 0xC => some 64 | 0xD => some 39 | _ => none

/-- A field that an arming write of channel `c` would use holds a reserved encoding. (Log 81: DEDUCED) -/
def State.jigReserved (s : State) (c kind unit trig : Nat) : Bool :=
  let b0 := s.fget F.JIG_CH_BITS_BIT0 0 c
  let b1 := s.fget F.JIG_CH_BITS_BIT1 0 c
  let array := decide (8 ≤ kind)
  let bits := match jigWidth kind with
    | some w => decide (w ≤ b0) || decide (w ≤ b1) || (array && s.flag F.JIG_CH_PARAM_DOUBLE 0 c && b0 == b1)
    | none => false
  kind == 0 || kind == 7 || kind == 14 || kind == 15 || trig == 3 || s.fget F.JIG_CH_TRIG_VALUE 0 c == 0 || bits ||
    (kind != 0xD && decide ((if array then 18 else 12) ≤ unit))

/-- The refusal code of an arming write, or none (R719): the conditions in the order of its table. (Log 81: DEDUCED) -/
def State.jigRefusal (s : State) (c kind unit trig : Nat) : Option Nat :=
  let lc := s.lifecycle
  let link := decide (kind ≤ 7)
  let p := s.pat
  if lc = 2 then some 1
  else if lc = 0 ∧ (!p.jigGrant ∨ kind = 0xD ∨ !(if link then p.jigLink else p.jigArray)) then some 2
  else if lc = 0 ∧ !(if link then p.jigPorts.getLsbD unit else p.jigSlices.getLsbD unit) then some 3
  else if kind ≠ 0xD ∧ (if link then decide (unit < 12) && s.role unit == .off
      else decide (unit < 18) && (s.srole unit == .spare || s.srole unit == .fenced)) then some 4
  else if s.jigReserved c kind unit trig then some 5
  else if s.isSafe then some 6
  else none

/-- Writes the fields of JIG_CHc_CTL that the word gives legally (00 R12). -/
def State.jigCtl (s : State) (c : Nat) (v : Word) : State :=
  let k := getBits v 24 4
  let u := getBits v 16 5
  let t := getBits v 28 2
  let s1 := s.setFlag F.JIG_CH_CTL_REPEAT (v.getLsbD 30) 0 c
  let s2 := if t = 3 then s1 else s1.fset F.JIG_CH_CTL_TRIG t 0 c
  let s3 := if k = 0 ∨ k = 7 ∨ 14 ≤ k then s2 else s2.fset F.JIG_CH_CTL_KIND k 0 c
  if 18 ≤ u then s3 else s3.fset F.JIG_CH_CTL_UNIT u 0 c

/-- An arming write to JIG_CHc_CTL; an armed channel takes nothing of it. (Log 81: DEDUCED) -/
def State.jigArm (s : State) (c : Nat) (v : Word) : State :=
  if (spGet none s.jig c).isSome then s
  else
    let s1 := s.jigCtl c v
    match s.jigRefusal c (getBits v 24 4) (getBits v 16 5) (getBits v 28 2) with
    | some code =>
      ((((s1.fset F.JIG_CH_STATUS_CODE code 0 c).bump F.JIG_REFUSE_COUNT).fset F.JIG_REFUSE_CHAN c).fset F.JIG_REFUSE_CODE code)
    | none =>
      { (s1.setFlag F.JIG_CH_CTL_ARM true 0 c).fset F.JIG_CH_STATUS_FIRED 0 0 c with
          jig := spSet none s1.jig c (some ⟨s.now, 0, 0, false⟩) }

/-- A write of ARM = 0 (R720, R723): an armed channel disarms and takes nothing else; a free one takes the other fields. -/
def State.jigOff (s : State) (c : Nat) (v : Word) : State :=
  if (spGet none s.jig c).isSome then s.jigDisarm c (some 8) else s.jigCtl c v

end Sys2Proof.Machine
end

