-- ==== Sys2Proof/Machine/Regs.lean ====
section
/-!
DEFINITION. The register decoder (21_register_reference.md R729 to R755): what each register reads as, what a write of
it does, and the rights of the parties of the three paths.
-/
namespace Sys2Proof.Machine

/-! ## Reading (00 R11, R13; the live fields of the register tables) -/

/-- The register word with field `f` set to `v`. -/
def Fld.put (f : Fld) (v : Nat) (w : Word) : Word := setBits w f.lsb f.wid v

/-- The register word with the one-bit field `f` set. -/
def Fld.putB (f : Fld) (b : Bool) (w : Word) : Word := f.put (if b then 1 else 0) w

/-- The sum of `f` over the elements of a list. -/
def sumBy {α : Type} (f : α → Nat) (l : List α) : Nat := l.foldl (fun a x => a + f x) 0

/-- Some bit of SAF_FAULT is 1, so that FAULT_N is asserted (19 R703). -/
def State.faultPin (s : State) : Bool := s.word 0x3008 != 0 || s.isSafe

/-- ROLE code of a physical slice (13 R504). -/
def roleCode : SliceRole → Nat
  | .active => 0 | .spare => 1 | .target => 2 | .fenced => 3

/-- Words whose byte of logical slice 4m + k stands in bits 8k + 7:8k (13 R532). -/
def State.mapEntry (s : State) (l : Nat) : Nat :=
  let e := s.lsl l
  e.phys + (if e.rebuilding then 64 else 0) + (if e.hosted then 128 else 0)

/-- The GLB block: `o` is the offset and `w` the stored word. -/
def State.readGlb (s : State) (o : Nat) (w : Word) : Word :=
  if o = 0x020 then
    let a := F.GLB_STATUS_READY.putB s.ready (F.GLB_STATUS_SAFE.putB s.isSafe (F.GLB_STATUS_DEGRADED.putB
      (s.flag F.GLB_SPR_STATUS_DEGRADED) (F.GLB_STATUS_SEALED.putB (s.flag F.PAT_STATUS_SEALED) w)))
    F.GLB_STATUS_FAULT.putB s.faultPin (F.GLB_STATUS_BOOT_FAIL.putB (s.flag F.GLB_BOOT_STATUS_FAIL) (F.GLB_STATUS_LC.put
      s.lifecycle (F.GLB_STATUS_HCMODE.put s.hcMode a)))
  else if 0x160 ≤ o ∧ o < 0x180 then
    BitVec.ofNat 32 (sumBy (fun e => if (spGet (false, false) s.cur (32 * ((o - 0x160) / 4) + e)).1 then 2 ^ e else 0)
      (List.range 32))
  else if 0x240 ≤ o ∧ o < 0x260 then (s.boot.nonce.getD 0).extractLsb' (8 * (o - 0x240)) 32
  else if o = 0x304 then BitVec.ofNat 32 (sumBy (fun k => roleCode (s.srole k) * 4 ^ k) (List.range 16))
  else if o = 0x308 then BitVec.ofNat 32 (roleCode (s.srole 16) + 4 * roleCode (s.srole 17))
  else if 0x310 ≤ o ∧ o < 0x320 then
    BitVec.ofNat 32 (sumBy (fun k => s.mapEntry (o - 0x310 + k) * 256 ^ k) (List.range 4))
  else match s.lossLog with
    | [] => w
    | (a, t) :: _ =>
      if o = 0x344 then F.GLB_LOSS_HEAD_LO_ADDR_LO.put (a.toNat / 64) w
      else if o = 0x348 then
        F.GLB_LOSS_HEAD_HI_VALID.putB true (F.GLB_LOSS_HEAD_HI_TENANT.put t.toNat (F.GLB_LOSS_HEAD_HI_ADDR_HI.put (a.toNat / 2 ^ 32) w))
      else w

/-- Whole microseconds from now to `t`. -/
def usLeft (now t : Time) : Nat := (t - now) / usec 1

/-- The WDG block (17 R646). -/
def State.readWdg (s : State) (o : Nat) (w : Word) : Word :=
  let u := s.umv
  if o = 0x008 then
    F.WDG_CWD_STATUS_OPEN_NOW.putB s.cwdOpenNow (F.WDG_CWD_STATUS_KEYA.putB u.keyA (F.WDG_CWD_STATUS_FROZEN.putB
      u.frozen.isSome (F.WDG_CWD_STATUS_LEFT.put (usLeft s.cwdNow (u.start + u.cwdLen)) w)))
  else if o = 0x00C then F.WDG_SWD_CTL_HW_START.putB s.boot.fuses.swdHw w
  else if o = 0x014 then
    let left := match u.hardEnd with
      | some t => usLeft s.now t
      | none => if u.armed then usLeft s.now (u.swdStart + u.swdLen) else 0
    F.WDG_SWD_STATUS_ARMED.putB u.armed (F.WDG_SWD_STATUS_HARD_RUN.putB u.hardEnd.isSome (F.WDG_SWD_STATUS_LEFT.put left w))
  else if o = 0x020 then F.WDG_UMV_STATUS_ROM_VER.put Config.romVersion.toNat w
  else if 0x02C ≤ o ∧ o < 0x03C then (spGet 0 u.log (s.fget F.WDG_LOG_SEL_INDEX)).extractLsb' (8 * (o - 0x02C)) 32
  else w

/-- Word `i` of a log entry, SAF_LOG0 to SAF_LOG4 (19 R699). -/
def LogEntry.word (e : LogEntry) (i : Nat) : Word :=
  let time := (fab64 e.time).toNat
  match i with
  | 0 => BitVec.ofNat 32 time
  | 1 => BitVec.ofNat 32 (time / 2 ^ 32)
  | 2 => BitVec.ofNat 32 (2 ^ 31 + e.cls.toNat * 2 ^ 28 + (if e.inj then 2 ^ 27 else 0) + (if e.ten.isSome then 2 ^ 26 else 0) +
      (e.ten.getD 0).toNat * 2 ^ 16 + e.unit.toNat * 2 ^ 8 + e.cause.toNat)
  | 3 => BitVec.ofNat 32 ((e.addr.getD 0).toNat / 64 * 64 % 2 ^ 32 + (if e.addr.isSome then 1 else 0))
  | _ => BitVec.ofNat 32 ((e.addr.getD 0).toNat / 2 ^ 32)

/-- The SAF block (19 R699, R706, R707). -/
def State.readSaf (s : State) (o : Nat) (w : Word) : Word :=
  if o = 0x000 then (if s.lifecycle = 2 then F.SAF_CTL_FATAL_ACT.put 0 w else w)
  else if o = 0x004 then F.SAF_STATUS_SAFE_PIN.putB s.safePin (F.SAF_STATUS_FAULT_PIN.putB s.faultPin w)
  else if o = 0x008 then F.SAF_FAULT_SAFE.putB s.isSafe w
  else if o = 0x01C then F.SAF_LOG_STAT_USED.put s.log.length w
  else if 0x020 ≤ o ∧ o < 0x034 then
    match s.log with
    | [] => 0
    | e :: _ => e.word ((o - 0x020) / 4)
  else if o = 0x050 then s.latentSync.word 0x3050
  else w

/-- The TIM block (18 R657, R677). -/
def State.readTim (s : State) (o : Nat) (w : Word) : Word :=
  if o = 0x004 then F.TIM_STATUS_EPOCH.put (fabEpoch s.now).toNat w
  else if o = 0x008 then (fab64 s.now).extractLsb' 0 32
  else w

/-- State code of a slice in PWR_STATE (18 R677): 5 ENTERING, 6 GATED. (Log 69: DEDUCED) -/
def State.pwrField (s : State) (k : Nat) : Nat :=
  if s.srole k = .spare ∨ s.srole k = .fenced then 6
  else if (s.slice k).entering.isSome then 5 else pwrCode (s.slice k).pwr

/-- The PWR block (18 R677). (Log 26: DEDUCED) -/
def State.readPwr (s : State) (o : Nat) (w : Word) : Word :=
  if o = 0x010 then BitVec.ofNat 32 (sumBy (fun k => s.pwrField k * 8 ^ k) (List.range 10))
  else if o = 0x014 then BitVec.ofNat 32 (sumBy (fun k => s.pwrField (10 + k) * 8 ^ k) (List.range 8))
  else if o = 0x01C then
    let t := BitVec.ofNat 7 (s.fget F.PWR_TSEL_TENANT)
    F.PWR_TVAL_SET.putB (spGet none s.tns.tol t.toNat).isSome (F.PWR_TVAL_DEF.put (s.ten t).latDef (F.PWR_TVAL_CUR.put (s.tolOf t) w))
  else if o = 0x024 then
    let k := s.fget F.PWR_SSEL_SLICE
    if 18 ≤ k then 0
    else
      let gated := s.srole k = .spare ∨ s.srole k = .fenced
      F.PWR_SVAL_WAKES.put (min (s.slice k).wakes 0xFFFF) (F.PWR_SVAL_TOL.put (s.sliceTol k) (F.PWR_SVAL_TARGET.put
        (if gated then 6 else pwrCode (s.pwrTarget k)) w))
  else w

/-- Some injection is allowed by the lifecycle and the Pattern (20 R719, R723). (Log 26: DEDUCED) -/
def State.jigOpen (s : State) : Bool :=
  s.lifecycle == 1 || (s.lifecycle == 0 && s.pat.jigGrant &&
    ((s.pat.jigLink && s.pat.jigPorts != 0) || (s.pat.jigArray && s.pat.jigSlices != 0)))

/-- The JIG block (20 R723). -/
def State.readJig (s : State) (o : Nat) (w : Word) : Word :=
  let armed (c : Nat) : Bool := (spGet none s.jig c).isSome
  if o = 0x000 then
    F.JIG_STATUS_OPEN.putB s.jigOpen (F.JIG_STATUS_ARMED.put (sumBy (fun c => if armed c then 2 ^ c else 0) (List.range 8)) w)
  else if 0x100 ≤ o ∧ o < 0x200 ∧ o % 0x20 = 0x14 then F.JIG_CH_STATUS_ARMED.putB (armed ((o - 0x100) / 0x20)) w
  else w

/-- The EVG block (16 R618). -/
def State.readEvg (s : State) (o : Nat) (w : Word) : Word :=
  if o = 0x004 then F.EVG_STATUS_OUT.put (sumBy (fun e => if e.2.out.isSome then 1 else 0) s.vectors) w
  else if o = 0x018 then (spGet EvSource.zero s.sources (s.fget F.EVG_SRCSEL_SOURCE)).count
  else if 0x080 ≤ o ∧ o < 0x100 then
    BitVec.ofNat 32 (sumBy (fun e => if (s.vec (32 * ((o - 0x080) / 4) + e)).pend then 2 ^ e else 0) (List.range 32))
  else if 0x4000 ≤ o then
    let v := s.vec ((o - 0x4000) / 16)
    match o % 16 with
    | 0 => F.EVG_VCFG_ENABLE.putB v.enable (F.EVG_VCFG_TARGET.put v.target.toNat 0)
    | 4 => F.EVG_VCOAL_MASK.putB v.mask (F.EVG_VCOAL_TIME.put v.coalTime (F.EVG_VCOAL_COUNT.put v.coalCount 0))
    | 8 => v.classes
    | _ => F.EVG_VSTAT_OUT.putB v.out.isSome (F.EVG_VSTAT_PEND.putB v.pend (F.EVG_VSTAT_OVF.putB v.ovf (F.EVG_VSTAT_IDLE.putB
        v.idle (F.EVG_VSTAT_MINSRC.put v.minsrc (F.EVG_VSTAT_SEQ.put v.seq.toNat (F.EVG_VSTAT_COUNT.put v.count 0))))))
  else w

/-- State codes of a port (04, the states of a port). -/
def portCode : PortState → Nat
  | .down => 0 | .train => 1 | .init => 2 | .active => 3 | .retrain => 4 | .failed => 5 | .off => 6

/-- The block of port `p` (04 R152, 08 R336). -/
def State.readPrt (s : State) (p o : Nat) (w : Word) : Word :=
  let q := s.port p
  let r := q.rep
  if o = 0x004 then
    let repaired := r.rxCtl || r.txCtl || r.rxCount != 0 || r.txCount != 0
    F.PRT_LL_STATUS_REPAIRED.putB repaired (F.PRT_LL_STATUS_RATE.put q.rate.toNat (F.PRT_LL_STATUS_STATE.put
      (if s.role p = .off then 6 else portCode q.st) w))
  else if o = 0x01C then
    F.PRT_LL_REPAIR_RX_CTL.putB r.rxCtl (F.PRT_LL_REPAIR_TX_CTL.putB r.txCtl (F.PRT_LL_REPAIR_RX_COUNT.put r.rxCount.toNat
      (F.PRT_LL_REPAIR_TX_COUNT.put r.txCount.toNat w)))
  else if o = 0x024 then
    let c := q.credit (s.fget F.PRT_LL_CRSEL_CLASS p)
    F.PRT_LL_CRVAL_ADV.put c.adv (F.PRT_LL_CRVAL_AVAIL.put (c.adv - c.used) w)
  else if o = 0x704 then F.PRT_WB_OCC_PWB.put q.pwb.length (F.PRT_WB_OCC_CWB.put q.cwb.length w)
  else w

/-- Valid SF entries of slice `k` that `sel` selects, retired ways apart. (Log 26: DEDUCED) -/
def State.sfCount (s : State) (k : Nat) (sel : BitVec 118 → Bool) : Nat :=
  sumBy (fun e => if sfValid e.2 && sel e.2 && !s.sfRetired k (e.1 / 16) (e.1 % 16) then 1 else 0) (s.slice k).sf

/-- LOOSE sets of slice `k`. -/
def State.looseCount (s : State) (k : Nat) : Nat :=
  let n := (s.slice k).loose.length
  if (s.slice k).allLoose then 65536 - n else n

/-- Window entries of logical slice `l` that are live, LOST ones (`lost`) or the others (07 R287). -/
def State.winCount (s : State) (l : Nat) (lost : Bool) : Nat :=
  sumBy (fun e => sumBy (fun x => if s.winLive l x && ((x.st == .lost) == lost) then 1 else 0) e.2) (spGet [] s.wins l)

/-- Occupancy of the Shed, the reservation table and the Clamp bank of slice `k` (07 R287, 08 R337, 11 R457). -/
def State.readOcc (s : State) (k o : Nat) (w : Word) : Word :=
  let c := s.slice k
  if o = 0xB04 then
    F.SLC_SHED_OCC_CHAIN.put c.chain.length (F.SLC_SHED_OCC_OPEN.put
      (sumBy (fun e => match e.2 with | some x => if x.opened then 1 else 0 | none => 0) c.trk) w)
  else if o = 0xB08 then
    match s.logicalOn k with
    | some l => F.SLC_SHED_WOCC_LOSTN.put (s.winCount l true) (F.SLC_SHED_WOCC_LIVE.put (s.winCount l false) w)
    | none => w
  else if o = 0xC04 then
    let n (p : Rsv → Bool) : Nat := (c.rsv.filter p).length
    F.SLC_RSV_OCC_HOLD.put (n (fun e => s.holdOf k e)) (F.SLC_RSV_OCC_REC.put (n (fun e => !e.set && decide (0 < e.fails)))
      (F.SLC_RSV_OCC_RSV.put (n (·.set)) w))
  else if o = 0xD04 then
    match s.logicalOn k with
    | some l =>
      let b := s.bank l
      F.SLC_CLAMP_OCC_RECORDS.put b.uses (F.SLC_CLAMP_OCC_HANDLES.put (sumBy (fun e => if e.2.st = .free then 0 else 1) b.ents) w)
    | none => w
  else w

/-- The home cache registers of slice `k` (10 R418). -/
def State.readHc (s : State) (k o : Nat) (w : Word) : Word :=
  let c := s.slice k
  if o = 0x904 then F.SLC_HC_VALID_COUNT.put (sumBy (fun e => pop (tagV e.2.tag)) c.hc) w
  else if o = 0x908 then F.SLC_HC_DIRTY_COUNT.put (sumBy (fun e => pop (tagV e.2.tag &&& tagDirtyBits e.2.tag)) c.hc) w
  else if o = 0x928 then F.SLC_HC_RETIRE_USED.put c.hcRet.length w
  else if o = 0x930 then
    match c.lost[s.fget F.SLC_HC_LOSTSEL_INDEX k]? with
    | some r => F.SLC_HC_LOSTVAL_VALID.putB true (F.SLC_HC_LOSTVAL_NTEN.put (pop r.tens) (F.SLC_HC_LOSTVAL_WAY.put r.way
        (F.SLC_HC_LOSTVAL_SET.put r.set w)))
    | none => w
  else if o = 0x934 then F.SLC_HC_LFSR_STATE.put c.lfsr.toNat w
  else if o = 0x93C then
    let t := BitVec.ofNat 7 (s.fget F.SLC_HC_TQSEL_TENANT k)
    F.SLC_HC_TQVAL_WAYMASK.put (s.ten t).wayMask.toNat (F.SLC_HC_TQVAL_SECTORS.put
      (sumBy (fun e => if tagV e.2.tag != 0 && tagTen e.2.tag == t then 1 else 0) c.hc) w)
  else w

/-- The block of physical slice `k` (09 R377 and the tables above). -/
def State.readSlc (s : State) (k o : Nat) (w : Word) : Word :=
  if o = 0x804 then F.SLC_SF_OCC_VALID.put (s.sfCount k (fun _ => true)) w
  else if o = 0x808 then F.SLC_SF_V48N_COUNT.put (s.sfCount k (fun e => fmtNo (sfRec e).sh == 1)) w
  else if o = 0x80C then F.SLC_SF_ALLN_COUNT.put (s.sfCount k (fun e => fmtNo (sfRec e).sh == 2)) w
  else if o = 0x820 then F.SLC_SF_RETIRE_USED.put (s.slice k).sfRet.length w
  else if o = 0x824 then F.SLC_SF_LOOSE_SETS.put (s.looseCount k) w
  else if o = 0x834 then
    let t := BitVec.ofNat 7 (s.fget F.SLC_SF_TQSEL_TENANT k)
    F.SLC_SF_TQVAL_QUOTA.put (s.ten t).sfQuota (F.SLC_SF_TQVAL_HELD.put (s.sfCount k (fun e => sfTen e == t)) w)
  else if 0x900 ≤ o ∧ o < 0xA00 then s.readHc k o w
  else s.readOcc k o w

/-- The block of tenant `t` (12 R494). -/
def State.readTnt (s : State) (n o : Nat) (w : Word) : Word :=
  let t := BitVec.ofNat 7 n
  if o = 0x01C then
    let p := s.fget F.TNT_PSEL_PORT n
    F.TNT_PVAL_CWB.put (s.cwbUse p t) (F.TNT_PVAL_PWB.put (s.pwbUse p t) (F.TNT_PVAL_INGRESS.put (s.ingressUse p t) w))
  else if o = 0x020 then F.TNT_TRK_IN_USE.put (sumBy (fun k => s.trackersOf k t) (List.range 18)) w
  else w

/-- What the register at byte address `a` reads as, the effect of the read apart (R729). -/
def State.look (s : State) (a : Nat) : Word :=
  let w := s.word a
  if a < 0x1000 then s.readGlb a w
  else if a < 0x2000 then w
  else if a < 0x3000 then s.readWdg (a - 0x2000) w
  else if a < 0x4000 then s.readSaf (a - 0x3000) w
  else if a < 0x5000 then s.readTim (a - 0x4000) w
  else if a < 0x6000 then s.readPwr (a - 0x5000) w
  else if a < 0x7000 then w
  else if a < 0x8000 then s.readJig (a - 0x7000) w
  else if a < 0x10000 then s.readEvg (a - 0x8000) w
  else if a < 0x1C000 then s.readPrt ((a - 0x10000) / 0x1000) (a % 0x1000) w
  else if a < 0x20000 then 0
  else if a < 0x32000 then s.readSlc ((a - 0x20000) / 0x1000) (a % 0x1000) w
  else if a < 0x40000 then 0
  else if a < 0x48000 then s.readTnt ((a - 0x40000) / 0x100) (a % 0x100) w
  else 0

/-- The decoder serves the block of byte address `a` (15 R579, R750): none while RST_N is asserted; before boot step 6
has ended, and from warm-reset entry on, the GLB, PAT, WDG and SAF blocks alone. (Log 24: DEDUCED) -/
def State.served (s : State) (a : Nat) : Bool :=
  !s.boot.rstN && (decide (a < 0x4000) || (s.flag F.PAT_STATUS_SEALED && !s.flushing))

/-- A read of the register at byte address `a` (R742): TIM_NOW_LO latches the other two (18 R657), and TNTn_STG_DATA
advances OFFSET (12 R479). (Log 27: DEDUCED) -/
def State.regRead (s : State) (who : Party) (a : Nat) : Word × State :=
  if !s.served a then (0, s)
  else if a = 0x4008 then s.timLatch
  else if 0x40000 ≤ a ∧ a < 0x48000 ∧ a % 0x100 = 0x50 then s.stgData (BitVec.ofNat 7 ((a - 0x40000) / 0x100)) (masterOf who) none
  else (s.look a, s)

/-! ## Rejected accesses (R730, R746, R748) -/

/-- The code of a path in GLB_ACC_LAST. -/
def pathCode : Party → Nat
  | .umevoM => 0 | .umevoU => 0 | .i3c _ => 1 | .mgt _ => 2

/-- An access at byte address `a` is counted in GLB_ACC_ERR0 or GLB_ACC_ERR1 and recorded: KIND 1 DENIED, 2 LOCKED,
3 MISALIGN, 4 PARTIAL, 5 PARITY. (Log 25: DESIGN CHOICE) -/
def State.accErr (s : State) (who : Party) (kind a : Nat) : State :=
  let s1 := match kind with
    | 1 => s.bump F.GLB_ACC_ERR0_DENIED
    | 2 => s.bump F.GLB_ACC_ERR0_LOCKED
    | 3 => s.bump F.GLB_ACC_ERR1_MISALIGN
    | 4 => s.bump F.GLB_ACC_ERR1_PARTIAL
    | _ => s.bump F.GLB_ACC_ERR1_PARITY
  let m := masterOf who
  let s2 := ((s1.setFlag F.GLB_ACC_LAST_VALID true).fset F.GLB_ACC_LAST_PATH (pathCode who)).fset F.GLB_ACC_LAST_KIND kind
  ((s2.fset F.GLB_ACC_LAST_WORD (a / 4)).fset F.GLB_ACC_LASTSRC_I3C (m.toNat / 2 ^ 20)).fset F.GLB_ACC_LASTSRC_ID m.toNat

/-! ## Writing under the access codes (00 R12 to R16) -/

/-- The number of registers of a writable field's group. -/
def Fld.group (f : Fld) : Nat :=
  match f.mstr with
  | 0 => 1 | 16 => 1024 | 32 => 8 | _ => if f.base = 0x2000 then 16 else 4

/-- The member of its group that field `f` of instance `n` has at byte address `a`. -/
def Fld.member (f : Fld) (n a : Nat) : Option Nat :=
  let b := f.addr n 0
  let m := (a - b) / f.mstr
  if a < b then none
  else if f.addr n m = a ∧ m < f.group then some m else none

/-- A write of `v` to one field: reserved encodings leave it (R12), a sealed RWL field is left and the access counted
(R746). -/
def State.writeField (s : State) (who : Party) (n a : Nat) (v : Word) (w : WFld) : State :=
  match w.fld.member n a with
  | none => s
  | some m =>
    let x := getBits v w.fld.lsb w.fld.wid
    let legal := w.legal.isEmpty || w.legal.any (fun r => decide (r.1 ≤ x) && decide (x ≤ r.2))
    match w.acc with
    | .rw | .rws => if legal then s.fset w.fld x n m else s
    | .rwl => if s.flag F.PAT_STATUS_SEALED then s.accErr who 2 a else if legal then s.fset w.fld x n m else s
    | .w1c => if x = 1 then s.fset w.fld 0 n m else s
    | .clr => if x = 0 then s else if a = 0x7008 then s.fset F.JIG_REFUSE_COUNT 0 else s.setWord a 0

/-- A write to the fields of a block's list. (Log 25: DESIGN CHOICE) -/
def State.writeFields (s : State) (who : Party) (n a : Nat) (v : Word) (l : List WFld) : State :=
  l.foldl (fun (s : State) w => s.writeField who n a v w) s

/-! ## Registers whose write does something of its own -/

/-- Applies `f` when bit `i` of the word written is 1. -/
def onBit (v : Word) (i : Nat) (f : State → State) (s : State) : State := if v.getLsbD i then f s else s

/-- The KEY of a write that is reserved to one party (R730): counted in DENIED for any other. (Log 22: DEDUCED) -/
def State.reserved (s : State) (who : Party) (ok : Bool) (a : Nat) (f : State → State) : State :=
  if ok then f s else s.accErr who 1 a

/-- GLB_FUSE_CMD (15 R581, 17 R629). (Log 22: DEDUCED) -/
def State.writeFuse (s : State) (who : Party) (v : Word) : State :=
  s.reserved who (who == .umevoM) 0x234 (onBit v 31 (fun s => s.fuseRevoke (v.extractLsb' 0 2)))

/-- GLB_RST_CMD (15 R588). (Log 22: DEDUCED) -/
def State.writeRst (s : State) (who : Party) (v : Word) : State :=
  s.reserved who (who != .umevoU) 0x220 (fun s => s.rstCmd (v.getLsbD 31) (v.getLsbD 30) (v.extractLsb' 0 16))

/-- GLB_MIG_CTL (13 R532, R514). (Log 20: DESIGN CHOICE) -/
def State.writeMig (s : State) (who : Party) (v : Word) : State :=
  onBit v 30 State.migAbort (onBit v 31 (fun s => s.migBegin (s.fget F.GLB_MIG_CTL_SRC) (s.fget F.GLB_MIG_CTL_DST))
    (s.writeFields who 0 0x320 v glbWritable))

/-- GLB_HPROBE_ADDR_HI (03 R103). -/
def State.writeProbe (s : State) (who : Party) (v : Word) : State :=
  onBit v 31 State.hprobeGo (s.writeFields who 0 0x144 v glbWritable)

/-- The GLB block. (Log 20: DESIGN CHOICE) -/
def State.writeGlb (s : State) (who : Party) (a : Nat) (v : Word) : State :=
  match a with
  | 0x144 => s.writeProbe who v
  | 0x20C => onBit v 31 State.icmdLoad (onBit v 30 State.icmdStart s)
  | 0x210 => s.idata v
  | 0x220 => s.writeRst who v
  | 0x234 => s.writeFuse who v
  | 0x260 => s.unlkData v
  | 0x264 => onBit v 30 State.unlkVerify (onBit v 31 State.unlkNonce s)
  | 0x320 => s.writeMig who v
  | 0x348 => onBit v 30 State.lossNext s
  | _ => s.writeFields who 0 a v glbWritable

/-- The WDG block (17 R629, R646). (Log 22: DEDUCED) -/
def State.writeWdg (s : State) (who : Party) (a : Nat) (v : Word) : State :=
  if a = 0x2000 then s.cwdCtl who v
  else if a = 0x2004 then s.cwdService who (v.extractLsb' 0 16)
  else if a = 0x2010 then s.swdService who (v.extractLsb' 0 16)
  else if 0x2040 ≤ a ∧ a < 0x2080 then s.reserved who (who == .umevoM) a (fun s => s.writeFields who 0 a v wdgWritable)
  else s.writeFields who 0 a v wdgWritable

/-- SAF_CMD (19 R701). (Log 22: DEDUCED) -/
def State.writeSafCmd (s : State) (who : Party) (v : Word) : State :=
  s.reserved who (s.isSafetyMaster who) 0x300C (onBit v 31 (fun s => s.safEnter (v.extractLsb' 0 16)))

/-- The SAF block; in SAFETY_LOCKED a write to FATAL_ACT is ignored (19 R706). -/
def State.writeSaf (s : State) (who : Party) (a : Nat) (v : Word) : State :=
  match a with
  | 0x3000 => s.writeFields who 0 a (if s.lifecycle = 2 then setBits v 0 1 (s.fget F.SAF_CTL_FATAL_ACT) else v) safWritable
  | 0x300C => s.writeSafCmd who v
  | 0x3034 => onBit v 31 State.logNext s
  | _ => s.writeFields who 0 a v safWritable

/-- The TIM block (18 R657, R659, R677). -/
def State.writeTim (s : State) (who : Party) (a : Nat) (v : Word) : State :=
  match a with
  | 0x4000 =>
    let s1 := s.writeFields who 0 a v timWritable
    if s1.fget F.TIM_CTL_SOURCE = s.fget F.TIM_CTL_SOURCE ∧ s1.fget F.TIM_CTL_SRC_PORT = s.fget F.TIM_CTL_SRC_PORT then s1
    else s1.sourceChanged
  | 0x401C => onBit v 31 (fun s => s.timSet (v.extractLsb' 0 16)) s
  | _ => s.writeFields who 0 a v timWritable

/-- HCM_MODE_CTL (10 R415, R416). -/
def State.writeMode (s : State) (who : Party) (v : Word) : State :=
  let s1 := s.writeFields who 0 0x6000 v hcmWritable
  if v.getLsbD 0 then s1.hcDisable else s1.hcEnable

/-- HCM_MOP_CMD (10 R409, R419). -/
def State.writeMop (s : State) (who : Party) (v : Word) : State :=
  onBit v 31 State.mopGo (s.writeFields who 0 0x6018 v hcmWritable)

/-- HCM_RNG_CMD (10 R411, R419). (Log 20: DESIGN CHOICE) -/
def State.writeRng (s : State) (who : Party) (v : Word) : State :=
  onBit v 30 State.rngAbort (onBit v 31 State.rngGo (s.writeFields who 0 0x6030 v hcmWritable))

/-- The HCM block. -/
def State.writeHcm (s : State) (who : Party) (a : Nat) (v : Word) : State :=
  match a with
  | 0x6000 => s.writeMode who v
  | 0x6018 => s.writeMop who v
  | 0x6030 => s.writeRng who v
  | _ => s.writeFields who 0 a v hcmWritable

/-- JIG_CHc_CTL (20 R723). -/
def State.writeChan (s : State) (c : Nat) (v : Word) : State := if v.getLsbD 31 then s.jigArm c v else s.jigOff c v

/-- The JIG block: the other fields of an armed channel take nothing (20 R723). -/
def State.writeJig (s : State) (who : Party) (a : Nat) (v : Word) : State :=
  if a = 0x7004 then onBit v 31 (fun s => s.jigDisarmAll 8) s
  else if 0x7100 ≤ a ∧ a < 0x7200 then
    let c := (a - 0x7100) / 0x20
    if a % 0x20 = 0 then s.writeChan c v
    else if (spGet none s.jig c).isSome then s
    else s.writeFields who 0 a v jigWritable
  else s.writeFields who 0 a v jigWritable

/-- EVG_CMD (16 R613, R618). (Log 20: DESIGN CHOICE) -/
def State.writeEvgCmd (s : State) (v : Word) : State :=
  let n := getBits v 0 10
  onBit v 30 (fun s => s.evgDiscard n) (onBit v 31 (fun s => s.evgAck n) s)

/-- The EVG block. -/
def State.writeEvg (s : State) (who : Party) (a : Nat) (v : Word) : State :=
  if a = 0x8008 then s.writeEvgCmd v
  else if 0xC000 ≤ a then (if a % 16 = 4 then s.vcoalWrite ((a - 0xC000) / 16) v else s)
  else s.writeFields who 0 a v evgWritable

/-- PRTn_LL_CTL.RETRAIN (04 R152). (Log 40: DEDUCED) -/
def State.retrainCmd (s : State) (p : Nat) : State := if (s.port p).st = .active then s.retrain p else s

/-- The block of port `p`. (Log 20: DESIGN CHOICE) -/
def State.writePrt (s : State) (who : Party) (p a : Nat) (v : Word) : State :=
  if a % 0x1000 = 0 then
    onBit v 1 (fun s => s.startPortReset p) (onBit v 2 (fun s => s.retrainCmd p) (s.writeFields who p a v prtWritable))
  else s.writeFields who p a v prtWritable

/-- SLCn_SF_RDSEL (09 R378). -/
def State.writeRdsel (s : State) (who : Party) (k : Nat) (v : Word) : State :=
  onBit v 31 (fun s => s.sfRdGo k) (s.writeFields who k (0x20838 + 0x1000 * k) v slcWritable)

/-- SLCn_CLAMP_HSEL (11 R457). -/
def State.writeHsel (s : State) (who : Party) (k : Nat) (v : Word) : State :=
  onBit v 31 (fun s => s.hselGo k) (s.writeFields who k (0x20D18 + 0x1000 * k) v slcWritable)

/-- The block of physical slice `k`. (Log 20: DESIGN CHOICE) -/
def State.writeSlc (s : State) (who : Party) (k a : Nat) (v : Word) : State :=
  match a % 0x1000 with
  | 0x824 => onBit v 31 (fun s => s.looseClear k) s
  | 0x838 => s.writeRdsel who k v
  | 0xD14 => onBit v 31 (fun s => s.clampBreak k (getBits v 0 12)) s
  | 0xD18 => s.writeHsel who k v
  | 0xE00 => onBit v 8 (fun s => s.dmonStart k) (onBit v 9 (fun s => s.dmonClrMin k) (s.writeFields who k a v slcWritable))
  | _ => s.writeFields who k a v slcWritable

/-- TNTn_STG_CMD (12 R477): OP 0b11 is reserved and does nothing. -/
def State.writeStg (s : State) (who : Party) (t : Tenant) (v : Word) : State :=
  let h := v.extractLsb' 0 16
  if !v.getLsbD 31 then s
  else match getBits v 16 2 with
    | 0 => s.stgAlloc t (masterOf who)
    | 1 => s.stgFree t (masterOf who) h
    | 2 => s.stgLoad t (masterOf who) h
    | _ => s

/-- The block of tenant `t`. -/
def State.writeTnt (s : State) (who : Party) (t : Tenant) (a : Nat) (v : Word) : State :=
  match a % 0x100 with
  | 0x004 => if s.resetting t then s else s.writeFields who t.toNat a v tntWritable
  | 0x008 => onBit v 0 (fun s => s.tenantGo t) s
  | 0x040 => s.writeStg who t v
  | 0x050 => (s.stgData t (masterOf who) (some v)).2
  | _ => s.writeFields who t.toNat a v tntWritable

/-- A write of `v` to the register at byte address `a`, which the decoder serves and the party may write. -/
def State.writeAt (s : State) (who : Party) (a : Nat) (v : Word) : State :=
  if a < 0x1000 then s.writeGlb who a v
  else if a < 0x2000 then s
  else if a < 0x3000 then s.writeWdg who a v
  else if a < 0x4000 then s.writeSaf who a v
  else if a < 0x5000 then s.writeTim who a v
  else if a < 0x6000 then s.writeFields who 0 a v pwrWritable
  else if a < 0x7000 then s.writeHcm who a v
  else if a < 0x8000 then s.writeJig who a v
  else if a < 0x10000 then s.writeEvg who a v
  else if a < 0x1C000 then s.writePrt who ((a - 0x10000) / 0x1000) a v
  else if a < 0x20000 then s
  else if a < 0x32000 then s.writeSlc who ((a - 0x20000) / 0x1000) a v
  else if a < 0x40000 then s
  else if a < 0x48000 then s.writeTnt who (BitVec.ofNat 7 ((a - 0x40000) / 0x100)) a v
  else s

/-! ## Access (R190, R730, R738, R739) -/

/-- The party is a register master, or Umevo (R730). (Log 23: DEDUCED) -/
def State.mayAccess (s : State) (who : Party) : Bool :=
  match who with
  | .mgt src => s.pat.masters.any (fun b => inBlock src b.1 b.2)
  | _ => true

/-- The decoder takes no access of the party: RST_N is asserted, or the MGT class is not served yet (R738). (Log 23, 24: DEDUCED) -/
def State.shut (s : State) (who : Party) : Bool :=
  s.boot.rstN || (match who with | .mgt _ => !s.ready || s.flushing | _ => false)

/-- A write that reaches byte address `a`, whose effect is `f`: refused and counted where the party has no right to it or
the address is no multiple of 4, and without effect where the block is not served. (Log 23: DEDUCED) -/
def State.access (s : State) (who : Party) (a : Nat) (f : State → State) : State :=
  if s.shut who then s
  else if !s.mayAccess who then s.accErr who 1 a
  else if a % 4 ≠ 0 then s.accErr who 3 a
  else if !s.served a then s
  else f s

/-- A write of `v` to the register at byte address `a` by a party. -/
def State.regWrite (s : State) (who : Party) (a : Nat) (v : Word) : State := s.access who a (fun s => s.writeAt who a v)

/-- RegRsp (05 R189): RDATA and STATUS. -/
def regRsp (m : Msg) (data : Word) (status : Nat) : Msg :=
  respTo m Op.regRsp 0 false 0 [BitVec.ofNat 128 (data.toNat + status * 2 ^ 32)]

/-- A RegRd or RegWr that has passed the checks reaches the decoder (R736, R738). (Log 24: DEDUCED) -/
def State.mgtAccess (s : State) (m : Msg) : State :=
  let who := Party.mgt m.src
  let a := (slotField m 1 0 24).toNat
  if s.shut who then s
  else if !s.mayAccess who then (s.accErr who 1 a).send (regRsp m 0 1)
  else if a % 4 ≠ 0 then (s.accErr who 3 a).send (regRsp m 0 2)
  else if m.op = Op.regRd then
    let x := s.regRead who a
    x.2.send (regRsp m x.1 0)
  else (s.regWrite who a (slotField m 1 32 32)).send (regRsp m 0 0)

end Sys2Proof.Machine
end

