-- ==== Sys2Proof/Machine/Settle.lean ====
section
/-!
DEFINITION. What follows a command at once: the reactions that it has decided, one after the other, and then what holds at
the end of every command (migration's dual-writes, the evaluations of failure and degradation, the power states, the
firmware log).
-/
namespace Sys2Proof.Machine

/-- A transaction that has been admitted acts (07 R255). -/
def State.startTxn (s : State) (k t : Nat) : State :=
  match s.txn k t with
  | none => s
  | some x =>
    if !x.opened || x.phase != .waiting then s
    else match x.kind with
      | .client | .posted _ _ | .combined _ _ _ | .elem _ _ _ => s.beginReq k t
      | .backInv set why => s.beginBackInv k t set why
      | .companion => s.modTxn k t (fun x => { x with phase := .fill })
      | .maint op w => s.beginMaint k t op w
      | .range ctx op => s.beginRange k t ctx op
      | .census l => s.beginCensus k t l
      | .migrate => s.migAct k t

/-- FenceW limits behind which nothing waits any more are dropped (08 R315). (Log 57: DEDUCED) -/
def State.pruneBarriers (s : State) : State :=
  { s with barriers := s.barriers.filter (fun b => s.pendingBelow b.1 b.2.1 b.2.2) }

/-- Carries one reaction out. -/
def State.perform (s : State) (r : Reaction) : State :=
  match r with
  | .fence k cause => s.fence k cause
  | .safe => s.safeReact
  | .warm => s.warmReset
  | .tenantReset t => s.tenantGo t
  | .jigSpent c => s.jigDisarm c none
  | .portFlush p => s.flushWhere p (fun _ => true) none
  | .admitNext k => s.admitChained k
  | .way k _ => ((s.retryWays k).retrySurplus k).retryMig k
  | .visible => s.pruneBarriers.retryCommits
  | .start k t => s.startTxn k t
  | .element c g => s.gatherStep c g

/-- Carries reactions out, the oldest first, up to `n` of them. (Log 79: DESIGN CHOICE) -/
def State.settleN : Nat → State → State
  | 0, s => s
  | n + 1, s =>
    match s.due with
    | [] => s
    | r :: rest => State.settleN n (({ s with due := rest } : State).perform r)

/-- Carries every reaction out. The number is beyond what the trackers, chains and buffers of the chiplet can raise.
(Log 78: DEDUCED) -/
def State.react1 (s : State) : State := State.settleN 1048576 s

/-- The Pattern is in force and no chip reset is under way. -/
def State.serving (s : State) : Bool := s.flag F.PAT_STATUS_SEALED && !s.flushing && !s.boot.rstN

/-- What goes on by itself once it can: the scan of INVALIDATE and overlays that wait for the range engine. -/
def State.goOn (s : State) : State :=
  let s1 := forUp (fun k (s : State) => if (s.slice k).inv.isSome then s.invStep k 1048577 else s) 0 18 s
  s1.applyWaiting s1.tns.waiting.length

/-- The reactions to a command and what holds at its end. (Log 78: DEDUCED, 79, 91: DESIGN CHOICE) -/
def State.settle (s : State) : State :=
  let s1 := s.react1
  if !s1.serving then s1
  else
    let s2 := s1.goOn.react1
    if !s2.serving then s2 else s2.mirror.evaluate.react1.pwrCheck

/-! ## The firmware log (17 R631) -/

/-- Entry 0x01 for each port that has begun a link reset or entered FAILED since `s`. (Log 75: DEDUCED) -/
def State.logPorts (s t : State) : State :=
  forUp (fun p (t : State) =>
    let again := s.fget F.PRT_LL_ERRCNT1_LRESET p < t.fget F.PRT_LL_ERRCNT1_LRESET p
    let failed := (s.port p).st != .failed && (t.port p).st == .failed
    if again || failed then t.umvLog 0x01 p 0 (t.word (F.PRT_LL_LASTERR_CAUSE.addr p 0)).toNat else t) 0 12 t

/-- Entries 0x02 to 0x04 for each slice: fenced, census completed, seizure counted. (Log 75: DEDUCED) -/
def State.logSlices (s t : State) : State :=
  let t1 := forUp (fun k (t : State) =>
    if (s.fget F.SAF_FENCED_FENCED).testBit k || !(t.fget F.SAF_FENCED_FENCED).testBit k then t
    else t.umvLog 0x02 k 0 ((s.logicalOn k).getD 0)) 0 18 t
  let t2 := forUp (fun l (t : State) =>
    if (s.lsl l).rebuilding && !(t.lsl l).rebuilding && !(t.lsl l).hosted then
      t.umvLog 0x03 (t.physOf l) 0 (t.fget F.SLC_SF_CENSUS_DONE (t.physOf l))
    else t) 0 t1.pat.nActive t1
  forUp (fun k (t : State) =>
    let c (s : State) : Nat := s.fget F.SLC_COH_SEIZECNT_OWNER k + s.fget F.SLC_COH_SEIZECNT_SHARER k + s.fget F.SLC_COH_SEIZECNT_SETTLE k
    if c s < c t then
      t.umvLog 0x04 k (BitVec.ofNat 7 (t.fget F.SLC_COH_LASTSEIZE1_TENANT k)) (t.word (F.SLC_COH_LASTSEIZE0_KIND.addr k 0)).toNat
    else t) 0 18 t2

/-- Entry 0x06 when GLB_MIG_STATUS.STATE has changed. (Log 75: DEDUCED) -/
def State.logMig (s t : State) : State :=
  if s.fget F.GLB_MIG_STATUS_STATE = t.fget F.GLB_MIG_STATUS_STATE then t
  else
    let src := match s.mig, t.mig with
      | some g, _ => g.src
      | none, some g => g.src
      | none, none => t.fget F.GLB_MIG_CTL_SRC
    t.umvLog 0x06 src 0 (t.word (F.GLB_MIG_STATUS_STATE.addr 0 0)).toNat

/-- Umevo writes the entries of what the command has brought about. (Log 75: DEDUCED) -/
def State.logAll (s t : State) : State := if t.umevoRuns then s.logMig (s.logSlices (s.logPorts t)) else t

/-- A command whose effect is `f`, with all that follows from it at once. While RST_N is asserted the chiplet does nothing. -/
def State.run (s : State) (f : State → State) : State := if s.boot.rstN then s else s.logAll (f s).settle

/-- A command whose effect is `f` and from which nothing else follows. -/
def State.act (s : State) (f : State → State) : State := if s.boot.rstN then s else f s

end Sys2Proof.Machine
end

