-- ==== Sys2Proof/Machine/Bus.lean ====
section
/-!
DEFINITION. The sideband and the test port: the I3C target with its framing and common command codes
(21_register_reference.md R731 to R735, R755), and the TAP (22_electrical_and_package.md R766, R767, R780).
-/
namespace Sys2Proof.Machine

/-! ## The I3C target -/

/-- The dynamic address, if one is held (R749). -/
def State.da (s : State) : Option (BitVec 7) :=
  if s.flag F.GLB_I3C_STATUS_DAVALID then some (BitVec.ofNat 7 (s.fget F.GLB_I3C_STATUS_DA)) else none

/-- The static address (R731). -/
def State.sa (s : State) : BitVec 7 := BitVec.ofNat 7 (s.fget F.GLB_I3C_STATUS_STATIC)

/-- The target listens: boot step 1 has ended and no HDR transfer is being ignored (R731). -/
def State.listens (s : State) : Bool := !s.boot.rstN && !s.boot.hdr3

/-- A private transfer is answered (R733): an I2C one at the static address while no dynamic address is held, an I3C one at
the dynamic address. (Log 28: DEDUCED) -/
def State.answers (s : State) (i2c : Bool) (addr : BitVec 7) : Bool :=
  s.listens && (match s.da with
    | none => i2c && addr == s.sa
    | some d => !i2c && addr == d)

/-- The answer on the bus: bytes, or none for a NACK. -/
def State.reply (s : State) (r : Option (List Byte)) : State := s.modBoot (fun b => { b with out3 := r })

/-- Register values written from the pointer on (R734): each takes effect, with what follows from it, before the next
(R740). Fewer than four bytes at the end are discarded and counted. -/
def State.i3cValues (s : State) (who : Party) : List Byte → State
  | a :: b :: c :: d :: rest =>
    let v : Word := d ++ c ++ b ++ a
    let s1 := s.run (fun s => (s.regWrite who s.boot.ptr3.toNat v).modBoot (fun b => { b with ptr3 := b.ptr3 + 4 }))
    s1.i3cValues who rest
  | [] => s
  | _ => s.accErr who 4 s.boot.ptr3.toNat

/-- The bytes of a private write before the first one with a parity error (R734). -/
def i3cGood (x : I3cWrite) : List Byte :=
  match x.i2c, x.parityAt with
  | false, some k => x.bytes.take k
  | _, _ => x.bytes

/-- A private write without its parity error: the CTRL byte and OFFSET set the pointer, and with WR = 1 the values follow
(R734). `cut` says that the transfer's effect ends before its last byte. (Log 28: DEDUCED) -/
def State.i3cFrame (s : State) (cut : Bool) : List Byte → State
  | c :: o0 :: o1 :: o2 :: data =>
    let id : BitVec 7 := c.extractLsb' 0 7
    let who := Party.i3c id
    let off : BitVec 24 := o2 ++ o1 ++ o0
    let s1 := s.modBoot (fun b => { b with ptr3 := off, id3 := id, bad3 := off.extractLsb' 0 2 != 0 })
    let whole := if cut then data.take (data.length / 4 * 4) else data
    if off.extractLsb' 0 2 ≠ 0 then s1.accErr who 3 off.toNat
    else if c.getLsbD 7 then s1.i3cValues who whole
    else if data.isEmpty then s1 else s1.accErr who 4 off.toNat
  | _ => s

/-- A private write (R733, R734). (Log 28: DEDUCED) -/
def State.i3cWrite (s : State) (x : I3cWrite) : State :=
  if !s.answers x.i2c x.addr then s.reply none
  else
    let bad := decide ((i3cGood x).length < x.bytes.length)
    let s1 := (s.reply (some [])).i3cFrame bad (i3cGood x)
    if bad then
      let who := Party.i3c ((x.bytes.headD 0).extractLsb' 0 7)
      (s1.accErr who 5 s1.boot.ptr3.toNat).modBoot (fun b => { b with parity3 := true })
    else s1

/-- The bytes of a register word, the least significant first. -/
def wordOut (w : Word) : List Byte := (List.range 4).map (fun i => w.extractLsb' (8 * i) 8)

/-- One register read from the pointer. (Log 27: DEDUCED) -/
def State.i3cWord (s : State) : Word × State :=
  if s.boot.bad3 then (0, s) else s.regRead (.i3c s.boot.id3) s.boot.ptr3.toNat

/-- Reads `k` registers from the pointer on. (Log 28: DEDUCED) -/
def State.i3cWords : Nat → State → List Byte × State
  | 0, s => ([], s)
  | k + 1, s =>
    let x := s.i3cWord
    let y := State.i3cWords k (x.2.modBoot (fun b => { b with ptr3 := b.ptr3 + 4 }))
    (wordOut x.1 ++ y.1, y.2)

/-- A private read of `n` bytes (R734): the pointer advances past each register that was read whole. (Log 27, 28: DEDUCED) -/
def State.i3cRead (s : State) (i2c : Bool) (addr : BitVec 7) (n : Nat) : State :=
  if !s.answers i2c addr then s.reply none
  else
    let x := State.i3cWords (n / 4) s
    if n % 4 = 0 then x.2.reply (some x.1)
    else
      let y := x.2.i3cWord
      y.2.reply (some (x.1 ++ (wordOut y.1).take (n % 4)))

/-! ## Common command codes (R732) -/

/-- The provisional ID (R731). -/
def State.pid (s : State) : BitVec 48 := 0x0B4607160000 + BitVec.ofNat 48 (s.fget F.GLB_BOOT_STATUS_ADDR_SEL * 0x1000)

/-- A direct command is addressed to the dynamic address held. -/
def State.named (s : State) (at_ : BitVec 7) : Bool := s.listens && s.da == some at_

/-- Takes a dynamic address. -/
def State.setDa (s : State) (da : BitVec 7) : State :=
  (s.setFlag F.GLB_I3C_STATUS_DAVALID true).fset F.GLB_I3C_STATUS_DA da.toNat

/-- ENTDAA: without a dynamic address the target takes part, and when it has won it takes the address assigned. (Log 29: DEDUCED) -/
def State.entDaa (s : State) (won : Bool) (da : BitVec 7) : State :=
  if s.listens && s.da.isNone && won then s.setDa da else s

/-- SETDASA at the static address. (Log 29: DEDUCED) -/
def State.setDasa (s : State) (at_ da : BitVec 7) : State :=
  if s.listens && at_ == s.sa then (s.setDa da).reply (some []) else s.reply none

/-- SETNEWDA. (Log 29: DEDUCED) -/
def State.setNewDa (s : State) (at_ da : BitVec 7) : State :=
  if s.named at_ then (s.setDa da).reply (some []) else s.reply none

/-- RSTDAA. -/
def State.rstDaa (s : State) : State :=
  if s.listens then (s.setFlag F.GLB_I3C_STATUS_DAVALID false).fset F.GLB_I3C_STATUS_DA 0 else s

/-- A direct command that reads: its bytes, the most significant first as I3C sends them. (Log 29: DEDUCED) -/
def State.getCcc (s : State) (at_ : BitVec 7) (bytes : List Byte) : State := s.reply (if s.named at_ then some bytes else none)

/-- GETPID. (Log 30: PRESUMED) -/
def State.getPid (s : State) (at_ : BitVec 7) : State :=
  s.getCcc at_ ((List.range 6).map (fun i => s.pid.extractLsb' (8 * (5 - i)) 8))

/-- GETSTATUS: bit 5 tells of a parity error, and clears. (Log 30: PRESUMED) -/
def State.getStatus (s : State) (at_ : BitVec 7) : State :=
  let s1 := s.getCcc at_ [0, if s.boot.parity3 then 0x20 else 0]
  if s.named at_ then s1.modBoot (fun b => { b with parity3 := false }) else s1

/-- ENEC and DISEC: accepted with no effect. -/
def State.evCcc (s : State) (at_ : Option (BitVec 7)) : State :=
  match at_ with
  | none => s
  | some x => s.getCcc x []

/-- A code that the table does not list: a direct one is NACKed, a broadcast one ignored. The broadcast codes 0x20 to 0x27
enter an HDR mode, which the target ignores up to the exit pattern (R731). (Log 30: PRESUMED) -/
def State.otherCcc (s : State) (code : Byte) (at_ : Option (BitVec 7)) : State :=
  match at_ with
  | some _ => s.reply none
  | none => if s.listens && decide (0x20 ≤ code.toNat) && decide (code.toNat < 0x28) then s.modBoot (fun b => { b with hdr3 := true }) else s

/-- The HDR Exit Pattern (R731). -/
def State.hdrExit (s : State) : State := s.modBoot (fun b => { b with hdr3 := false })

/-! ## The TAP (22 R766, R767) -/

/-- The identification code. -/
def idcode : BitVec 64 := 0x20716B47

/-- An instruction is in the instruction register, with what its data register holds. (Log 6: DESIGN CHOICE, 19: DEDUCED) -/
def State.tap (s : State) (ir : BitVec 8) (dr : BitVec 64) : State := s.modBoot (fun b => { b with ir := ir, dr := dr })

/-- BYPASS, and every code that acts as it. -/
def State.bypass (s : State) (code : BitVec 8) : State := s.tap code 0

/-- EXTEST: the boundary register drives the outputs, only while WRST_N is asserted; else BYPASS. (Log 16: DESIGN CHOICE) -/
def State.extest (s : State) (bits : BitVec 128) : State :=
  if s.boot.wrstN then (s.tap 0x00 0).modBoot (fun b => { b with bsr := bits }) else s.bypass 0xFF

/-- SAMPLE/PRELOAD: the boundary register captures the levels at the bumps, in a cell order that the spec does not give,
and takes the bits shifted in. (Log 16: DESIGN CHOICE) -/
def State.samplePreload (s : State) (bits : BitVec 128) : State :=
  let x := s.draw
  (x.2.tap 0x01 (Config.openWord x.1)).modBoot (fun b => { b with bsr := bits })

/-- CLAMP and HIGHZ, only while WRST_N is asserted; else BYPASS. (Log 16: DESIGN CHOICE) -/
def State.drivePins (s : State) (code : BitVec 8) : State := if s.boot.wrstN then s.tap code 0 else s.bypass 0xFF

/-- The DEBUG instructions act as BYPASS in every other lifecycle state (15 R582). (Log 18: DEDUCED) -/
def State.debugOnly (s : State) (f : State → State) : State := if s.lifecycle = 1 then f s else s.bypass 0xFF

/-- The 1-bit status of UMV_HALT and UMV_RESUME: the core is halted. (Log 18: DEDUCED) -/
def State.haltBit (s : State) : BitVec 64 := if s.umv.halted then 1 else 0

/-- UMV_HALT. (Log 18: DEDUCED) -/
def State.tapHalt (s : State) : State := s.debugOnly (fun s => let s1 := s.umvHalt; s1.tap 0x20 s1.haltBit)

/-- UMV_RESUME. (Log 18: DEDUCED) -/
def State.tapResume (s : State) : State := s.debugOnly (fun s => let s1 := s.umvResume; s1.tap 0x21 s1.haltBit)

/-- An uncorrectable error in Umevo's private SRAM is a CWD fault (17 R634). -/
def State.umvSramError (s : State) : State := s.cwdExpire 5

/-- A read of Umevo's SRAM meets the flips of the Jig in the word read (17 R653, 20 R716): SECDED corrects one and detects
two; more have a free outcome (19 R784). (Log 17: PRESUMED) -/
def State.umvSramRead (s : State) : State :=
  let x := s.jigRead 0xD 0 none
  let n := popNat 39 x.1
  if n ≤ 1 then x.2
  else if n = 2 then x.2.umvSramError
  else
    let y := x.2.draw
    if Config.beyondOutcome y.1 % 2 = 0 then y.2.umvSramError else y.2

/-- UMV_MEM: the address in bits 31:0, the word read in bits 63:32. The ROM stands in the first 64 KiB; what else can be
read is the private SRAM, whose content is Umevo's own. (Log 17: PRESUMED) -/
def State.umvMem (s : State) (rq : BitVec 64) : State :=
  s.debugOnly (fun s =>
    let a : BitVec 32 := rq.extractLsb' 0 32
    if a.toNat < 0x10000 then s.tap 0x22 ((Config.romWord (a.toNat / 4)) ++ a)
    else
      let x := s.umvSramRead.draw
      x.2.tap 0x22 ((Config.openWord x.1).extractLsb' 0 32 ++ a))

end Sys2Proof.Machine
end

