-- ==== Sys2Proof/Machine/Command.lean ====
section
/-!
DEFINITION. The shapes that the commands share: a command of a port, of a slice, a message at its port, and a command
that is the write of one register.
-/
namespace Sys2Proof.Machine

/-- An effect at Tenon port `p`; the chiplet has ports 0 to 11 (00 R3). (Log 11: DESIGN CHOICE) -/
def State.atPort (s : State) (p : Nat) (f : State → State) : State := if p < 12 then f s else s

/-- An effect at physical slice `k`; the chiplet has slices 0 to 17 (00 R3). (Log 11: DESIGN CHOICE) -/
def State.atSlice (s : State) (k : Nat) (f : State → State) : State := if k < 18 then f s else s

/-- An effect of the level at a pin, whatever else holds. (Log 11: DESIGN CHOICE) -/
def State.pin (s : State) (f : State → State) : State := s.logAll (f s).settle

/-- Port `p` can have message `m` at its message layer: the message is in the receive buffer, or the link can bring it.
(Log 37: DEDUCED) -/
def State.arrives (s : State) (p : Nat) (m : Msg) : Bool :=
  decide (p < 12) && ((s.port p).rx.contains m || (s.port p).st == .active)

/-- A message of opcode `op` at port `p`: the checks of 05 R192 decide, and `f` is its effect when it passes. (Log 37: DEDUCED) -/
def State.message (s : State) (p : Nat) (m : Msg) (op : BitVec 8) (f : Msg → State → State) : State :=
  let m1 := { m with op := op }
  s.run (fun s => if s.arrives p m1 then s.receive p m1 (f m1) else s)

/-- A request of opcode `op` (06, 08, 11). -/
def State.requestOf (s : State) (p : Nat) (m : Msg) (op : BitVec 8) : State := s.message p m op (fun m s => s.request p m)

/-- A message that fails a check of 05 R192, or is not for the home; one that passes is none of these. (Log 37, 38: DEDUCED) -/
def State.rejected (s : State) (p : Nat) (m : Msg) : State :=
  s.run (fun s => if s.arrives p m && (s.present p m).verdict p m != .pass then s.receive p m id else s)

/-- The command is a write of `v` to the register at byte address `a`. (Log 21: DEDUCED) -/
def State.command (s : State) (who : Party) (a : Nat) (v : Word) : State := s.run (fun s => s.regWrite who a v)

/-- A word with bit `i` set. (Log 21: DEDUCED) -/
def bitWord (i : Nat) : Word := BitVec.ofNat 32 (2 ^ i)

/-- The command is a write that sets bit `i` of the register at byte address `a` and writes back what its fields hold, which
lie in the bits of `fields`. (Log 21: DEDUCED) -/
def State.commandBit (s : State) (who : Party) (a : Nat) (fields : Word) (i : Nat) : State :=
  s.command who a ((s.word a &&& fields) ||| bitWord i)

/-- Byte address of a register of physical slice `k`. -/
def slcReg (k o : Nat) : Nat := 0x20000 + 0x1000 * k + o
/-- Byte address of a register of Tenon port `p`. -/
def prtReg (p o : Nat) : Nat := 0x10000 + 0x1000 * p + o
/-- Byte address of a register of a tenant. -/
def tntReg (t : Tenant) (o : Nat) : Nat := 0x40000 + 0x100 * t.toNat + o
/-- Byte address of JIG_CHc_CTL. -/
def chanReg (c : Nat) : Nat := 0x7100 + 0x20 * c
/-- Byte address of EVG_VCOALn. -/
def vcoalReg (n : Nat) : Nat := 0xC004 + 16 * n

end Sys2Proof.Machine
end

