-- ==== Sys2Proof/Machine/CmdAnswer.lean ====
section
/-!
DEFINITION. The answers and follow-on messages of clients, memory chiplets and register masters, and the timers that wait
for them (06, 07, 09, 10, 16, 18, 21).
-/
namespace Sys2Proof.Machine

/-- SNP_RSP (06 R211). -/
def execSnpRsp (p : Nat) (m : Msg) (s : State) : Host.Outcome State Fault Refusal :=
  .next (s.message p m Op.snpRsp (fun m s => s.snoopAnswer p m false))

/-- SNP_RSP_DATA (06 R264). -/
def execSnpRspData (p : Nat) (m : Msg) (s : State) : Host.Outcome State Fault Refusal :=
  .next (s.message p m Op.snpRspData (fun m s => s.snoopAnswer p m true))

/-- COMP_ACK (06 R229). -/
def execCompAck (p : Nat) (m : Msg) (s : State) : Host.Outcome State Fault Refusal :=
  .next (s.message p m Op.compAck (fun m s => s.followOn p m .ack))

/-- SETTLE (06 R232). -/
def execSettle (p : Nat) (m : Msg) (s : State) : Host.Outcome State Fault Refusal :=
  .next (s.message p m Op.settle (fun m s => s.followOn p m .settle))

/-- MEM_DATA (06 R226). -/
def execMemData (p : Nat) (m : Msg) (s : State) : Host.Outcome State Fault Refusal :=
  .next (s.message p m Op.memData (fun m s => s.memData p m))

/-- MEM_CANCELLED (05 R178). -/
def execMemCancelled (p : Nat) (m : Msg) (s : State) : Host.Outcome State Fault Refusal :=
  .next (s.message p m Op.memCancelled (fun m s => s.memCancelled p m))

/-- MEM_WR_ACK (10 R397). -/
def execMemWrAck (p : Nat) (m : Msg) (s : State) : Host.Outcome State Fault Refusal :=
  .next (s.message p m Op.memWrAck (fun m s => s.memWrAck p m))

/-- MEM_OFFER_RSP (10 R399). -/
def execMemOfferRsp (p : Nat) (m : Msg) (s : State) : Host.Outcome State Fault Refusal :=
  .next (s.message p m Op.memOfferRsp (fun m s => s.memOfferRsp p m))

/-- CENSUS_RSP (09 R374). -/
def execCensusRsp (p : Nat) (m : Msg) (s : State) : Host.Outcome State Fault Refusal :=
  .next (s.message p m Op.censusRsp (fun m s => s.censusRsp p m))

/-- SEIZE_ACK (06 R239). -/
def execSeizeAck (p : Nat) (m : Msg) (s : State) : Host.Outcome State Fault Refusal :=
  .next (s.message p m Op.seizeAck (fun m s => s.seizeAck p m))

/-- RCV_INV_RSP (09 R370). -/
def execRcvInvRsp (p : Nat) (m : Msg) (s : State) : Host.Outcome State Fault Refusal :=
  .next (s.message p m Op.rcvInvRsp (fun m s => s.rcvInvRsp p m))

/-- REG_RD (05 R190). -/
def execRegRd (p : Nat) (m : Msg) (s : State) : Host.Outcome State Fault Refusal :=
  .next (s.message p m Op.regRd (fun m s => s.mgtAccess m))

/-- REG_WR (05 R190). -/
def execRegWr (p : Nat) (m : Msg) (s : State) : Host.Outcome State Fault Refusal :=
  .next (s.message p m Op.regWr (fun m s => s.mgtAccess m))

/-- INT_ACK (16 R613). -/
def execIntAck (p : Nat) (m : Msg) (s : State) : Host.Outcome State Fault Refusal :=
  .next (s.message p m Op.intAck (fun m s => s.intAck p m))

/-- IDLE_HINT (16 R614). -/
def execIdleHint (p : Nat) (m : Msg) (s : State) : Host.Outcome State Fault Refusal :=
  .next (s.message p m Op.idleHint (fun m s => s.idleHint m))

/-- LATENCY_TOLERANCE (18 R669). -/
def execLatencyTolerance (p : Nat) (m : Msg) (s : State) : Host.Outcome State Fault Refusal :=
  .next (s.message p m Op.latencyTolerance (fun m s => s.latencyTol m))

/-- TIMESYNC_REQUEST_RX (18 R665). (Log 39: DEDUCED) -/
def execTimesyncRequestRx (p : Nat) (m : Msg) (s : State) : Host.Outcome State Fault Refusal :=
  .next (s.message p m Op.timeSync (fun m s => s.timeSync p m))

/-- TIMESYNC_RESPONSE_RX (18 R664). (Log 39: DEDUCED) -/
def execTimesyncResponseRx (p : Nat) (m : Msg) (s : State) : Host.Outcome State Fault Refusal :=
  .next (s.message p m Op.timeSync (fun m s => s.timeSync p m))

/-- SNOOP_TIMEOUT_OWNER (06 R235). -/
def execSnoopTimeoutOwner (sl trk : Nat) (s : State) : Host.Outcome State Fault Refusal :=
  .next (s.run (fun s => s.atSlice sl (fun s => s.ownerTimeout sl trk)))

/-- SNOOP_TIMEOUT_SHARER (06 R236). -/
def execSnoopTimeoutSharer (sl trk : Nat) (dst : Node) (agg : Bool) (s : State) : Host.Outcome State Fault Refusal :=
  .next (s.run (fun s => s.atSlice sl (fun s => s.sharerTimeout sl trk dst agg)))

/-- CENSUS_SNOOP_TIMEOUT (07 R283). -/
def execCensusSnoopTimeout (sl trk : Nat) (a : Addr) (dst : Node) (agg : Bool) (s : State) : Host.Outcome State Fault Refusal :=
  .next (s.run (fun s => s.atSlice sl (fun s => s.censusTimeout sl trk a dst agg)))

/-- RECALL_COPY_TIMEOUT (09 R370). -/
def execRecallCopyTimeout (sl trk : Nat) (a : Addr) (dst : Node) (s : State) : Host.Outcome State Fault Refusal :=
  .next (s.run (fun s => s.atSlice sl (fun s => s.recallTimeout sl trk a dst)))

/-- SETTLE_TIMEOUT (06 R237). -/
def execSettleTimeout (sl trk : Nat) (s : State) : Host.Outcome State Fault Refusal :=
  .next (s.run (fun s => s.atSlice sl (fun s => s.settleTimeout sl trk)))

/-- SEIZE_CLOSE_TIMEOUT (06 R237). -/
def execSeizeCloseTimeout (sl trk : Nat) (s : State) : Host.Outcome State Fault Refusal :=
  .next (s.run (fun s => s.atSlice sl (fun s => s.seizeClose sl trk)))

/-- COMP_ACK_TIMEOUT (06 R238). -/
def execCompAckTimeout (sl trk : Nat) (s : State) : Host.Outcome State Fault Refusal :=
  .next (s.run (fun s => s.atSlice sl (fun s => s.compAckTimeout sl trk)))

/-- MEMRD_TIMEOUT (06 R241). -/
def execMemrdTimeout (sl trk : Nat) (s : State) : Host.Outcome State Fault Refusal :=
  .next (s.run (fun s => s.atSlice sl (fun s => s.memRdTimeout sl trk)))

/-- MEMWR_TIMEOUT (06 R241). -/
def execMemwrTimeout (sl : Nat) (tag : Tag) (s : State) : Host.Outcome State Fault Refusal :=
  .next (s.run (fun s => s.atSlice sl (fun s => s.memWrTimeout sl tag)))

/-- MEM_OFFER_TIMEOUT (10 R399). -/
def execMemOfferTimeout (sl : Nat) (tag : Tag) (s : State) : Host.Outcome State Fault Refusal :=
  .next (s.run (fun s => s.atSlice sl (fun s => s.offerTimeout sl tag)))

/-- COMPANION_FILL (10 R395). -/
def execCompanionFill (sl trk : Nat) (s : State) : Host.Outcome State Fault Refusal :=
  .next (s.run (fun s => s.atSlice sl (fun s => s.companionAct sl trk)))

/-- COMPANION_FILL_TIMEOUT (10 R396). -/
def execCompanionFillTimeout (sl trk : Nat) (s : State) : Host.Outcome State Fault Refusal :=
  .next (s.run (fun s => s.atSlice sl (fun s => s.companionTimeout sl trk)))

/-- The earliest end of an entry's TWIN in window set `set` of logical slice `l` (07 R268). -/
def State.winEnd (s : State) (l set : Nat) : Option Time :=
  (s.win l set).foldl (fun (a : Option Time) e =>
    if e.st = .opened then a else some (match a with | none => e.time + s.twin l | some t => min t (e.time + s.twin l))) none

/-- TWIN of an entry of a window set passes (07 R268): what is no longer live leaves the set. -/
def State.winExpire (s : State) (l set : Nat) : State :=
  match s.winEnd l set with
  | none => s
  | some t =>
    let s1 := s.until t
    s1.setWin l set ((s1.win l set).filter (fun e => s1.winLive l e))

/-- WINDOW_ENTRY_EXPIRY (07 R268). -/
def execWindowEntryExpiry (ls wset : Nat) (s : State) : Host.Outcome State Fault Refusal :=
  .next (s.run (fun s => if ls < s.pat.nActive ∧ wset < 2048 then s.winExpire ls wset else s))

/-- 2 µs pass without the CondWr of a hold (08 R325). -/
def State.holdTimeout (s : State) (k : Nat) (a : Addr) : State :=
  match (s.slice k).trk.find? (fun e => match e.2 with
      | some x => x.opened && x.phase == .hold && x.scope == .line (lineAddr a)
      | none => false) with
  | some (t, some x) => (s.until x.ackBy).closeTxn k t
  | _ => s

/-- RSV_HOLD_TIMEOUT (08 R325). -/
def execRsvHoldTimeout (sl : Nat) (a : Addr) (s : State) : Host.Outcome State Fault Refusal :=
  .next (s.run (fun s => s.atSlice sl (fun s => s.holdTimeout sl a)))

/-- LATENCY_ACK_AFTER_WAKE (18 R669). -/
def execLatencyAckAfterWake (ten : Tenant) (s : State) : Host.Outcome State Fault Refusal :=
  .next (s.run (fun s => s.latencyAck ten))

/-- TIMESYNC_INTERVAL (18 R665). -/
def execTimesyncInterval (s : State) : Host.Outcome State Fault Refusal := .next (s.run State.syncInterval)

end Sys2Proof.Machine
end

