-- ==== Sys2Proof/Machine/CmdBus.lean ====
section
/-!
DEFINITION. The commands of the I3C target, the TAP and the Umevo debug access (17 R634, R645, 21 R731 to R734, 22 R766, R767).
-/
namespace Sys2Proof.Machine

/-- The instruction codes of 22 R767 that are not BYPASS. -/
def tapCodes : List (BitVec 8) := [0x00, 0x01, 0x02, 0x03, 0x04, 0x20, 0x21, 0x22]

/-- I3C_PRIVATE_WRITE (21 R733, R734). -/
def execI3cPrivateWrite (x : I3cWrite) (s : State) : Host.Outcome State Fault Refusal :=
  .next (s.act (fun s => s.i3cWrite x))

/-- I3C_PRIVATE_READ (21 R734). -/
def execI3cPrivateRead (i2c : Bool) (addr : BitVec 7) (n : Nat) (s : State) : Host.Outcome State Fault Refusal :=
  .next (s.act (fun s => s.i3cRead i2c addr n))

/-- ENTDAA (21 R732). -/
def execEntdaa (won : Bool) (da : BitVec 7) (s : State) : Host.Outcome State Fault Refusal :=
  .next (s.act (fun s => s.entDaa won da))

/-- SETDASA (21 R732). -/
def execSetdasa (at_ da : BitVec 7) (s : State) : Host.Outcome State Fault Refusal :=
  .next (s.act (fun s => s.setDasa at_ da))

/-- SETNEWDA (21 R732). -/
def execSetnewda (at_ da : BitVec 7) (s : State) : Host.Outcome State Fault Refusal :=
  .next (s.act (fun s => s.setNewDa at_ da))

/-- RSTDAA (21 R732). -/
def execRstdaa (s : State) : Host.Outcome State Fault Refusal :=
  .next (s.act State.rstDaa)

/-- GETPID (21 R732). -/
def execGetpid (at_ : BitVec 7) (s : State) : Host.Outcome State Fault Refusal :=
  .next (s.act (fun s => s.getPid at_))

/-- GETBCR (21 R732). -/
def execGetbcr (at_ : BitVec 7) (s : State) : Host.Outcome State Fault Refusal :=
  .next (s.act (fun s => s.getCcc at_ [0]))

/-- GETDCR (21 R732). -/
def execGetdcr (at_ : BitVec 7) (s : State) : Host.Outcome State Fault Refusal :=
  .next (s.act (fun s => s.getCcc at_ [0]))

/-- GETSTATUS (21 R732). -/
def execGetstatus (at_ : BitVec 7) (s : State) : Host.Outcome State Fault Refusal :=
  .next (s.act (fun s => s.getStatus at_))

/-- ENEC (21 R732). -/
def execEnec (at_ : Option (BitVec 7)) (s : State) : Host.Outcome State Fault Refusal :=
  .next (s.act (fun s => s.evCcc at_))

/-- DISEC (21 R732). -/
def execDisec (at_ : Option (BitVec 7)) (s : State) : Host.Outcome State Fault Refusal :=
  .next (s.act (fun s => s.evCcc at_))

/-- UNLISTED_CCC (21 R732). -/
def execUnlistedCcc (code : Byte) (at_ : Option (BitVec 7)) (s : State) : Host.Outcome State Fault Refusal :=
  .next (s.act (fun s => s.otherCcc code at_))

/-- HDR_EXIT_PATTERN (21 R731). -/
def execHdrExitPattern (s : State) : Host.Outcome State Fault Refusal :=
  .next (s.act State.hdrExit)

/-- JTAG_EXTEST (22 R767). -/
def execJtagExtest (bits : BitVec 128) (s : State) : Host.Outcome State Fault Refusal :=
  .next (s.extest bits)

/-- JTAG_SAMPLE_PRELOAD (22 R767). -/
def execJtagSamplePreload (bits : BitVec 128) (s : State) : Host.Outcome State Fault Refusal :=
  .next (s.samplePreload bits)

/-- JTAG_IDCODE (22 R766). -/
def execJtagIdcode (s : State) : Host.Outcome State Fault Refusal :=
  .next (s.tap 0x02 idcode)

/-- JTAG_CLAMP (22 R767). -/
def execJtagClamp (s : State) : Host.Outcome State Fault Refusal :=
  .next (s.drivePins 0x03)

/-- JTAG_HIGHZ (22 R767). -/
def execJtagHighz (s : State) : Host.Outcome State Fault Refusal :=
  .next (s.drivePins 0x04)

/-- UMV_HALT (17 R645, 22 R767). -/
def execUmvHalt (s : State) : Host.Outcome State Fault Refusal :=
  .next (s.pin State.tapHalt)

/-- UMV_RESUME (17 R645, 22 R767). -/
def execUmvResume (s : State) : Host.Outcome State Fault Refusal :=
  .next (s.pin State.tapResume)

/-- UMV_MEM (22 R767). -/
def execUmvMem (rq : BitVec 64) (s : State) : Host.Outcome State Fault Refusal :=
  .next (s.pin (fun s => s.umvMem rq))

/-- JTAG_BYPASS (22 R767). -/
def execJtagBypass (code : BitVec 8) (s : State) : Host.Outcome State Fault Refusal :=
  .next (if tapCodes.contains code then s else s.bypass code)

/-- TRST_N_ASSERT (22 R766). (Log 19: DEDUCED) -/
def execTrstNAssert (s : State) : Host.Outcome State Fault Refusal :=
  .next (s.tap 0x02 idcode)

/-- UMEVO_SRAM_ERROR (17 R634). -/
def execUmevoSramError (s : State) : Host.Outcome State Fault Refusal :=
  .next (s.run State.umvSramError)

end Sys2Proof.Machine
end

