-- ==== Sys2Proof/Machine/CmdLink.lean ====
section
/-!
DEFINITION. The commands of the Tenon ports (04_derzon_link_layer.md, 03 R87, 05 R193, 20 R714): flits, timers, UCIe events
and messages that are not for the home or fail a check.
-/
namespace Sys2Proof.Machine

/-- A flit of type `typ` arrives on port `p` (04 R121, R124, R159). -/
def State.flitOf (s : State) (p : Nat) (f : Flit) (typ : BitVec 4) : State :=
  s.run (fun s => s.atPort p (fun s => s.rxFlit p { f with typ := typ }))

/-- LL_PAYLOAD_RX (04 R130). -/
def execLlPayloadRx (p : Nat) (f : Flit) (s : State) : Host.Outcome State Fault Refusal := .next (s.flitOf p f flitPayload)

/-- LL_IDLE_RX (04 R131). -/
def execLlIdleRx (p : Nat) (f : Flit) (s : State) : Host.Outcome State Fault Refusal := .next (s.flitOf p f flitIdle)

/-- LL_NAK_RX (04 R135). -/
def execLlNakRx (p : Nat) (f : Flit) (s : State) : Host.Outcome State Fault Refusal := .next (s.flitOf p f flitNak)

/-- LL_INIT_RX (04 R124). -/
def execLlInitRx (p : Nat) (f : Flit) (s : State) : Host.Outcome State Fault Refusal := .next (s.flitOf p f flitInit)

/-- LL_DOWN_NOTICE_RX (04 R146). -/
def execLlDownNoticeRx (p : Nat) (f : Flit) (s : State) : Host.Outcome State Fault Refusal := .next (s.flitOf p f flitDown)

/-- LL_DRAIN_DONE (04 R146). -/
def execLlDrainDone (p : Nat) (s : State) : Host.Outcome State Fault Refusal :=
  .next (s.run (fun s => s.atPort p (fun s => s.drained p)))

/-- The acknowledgement delay of port `p` ends: a flit that carries ACK goes out (04 R134). -/
def State.ackDelayEnd (s : State) (p : Nat) : State :=
  if (s.port p).st = .active ∧ (s.port p).ackOwed then (s.until (s.port p).ackT).flitClock p else s

/-- LL_ACK_DELAY_EXPIRY (04 R134). -/
def execLlAckDelayExpiry (p : Nat) (s : State) : Host.Outcome State Fault Refusal :=
  .next (s.run (fun s => s.atPort p (fun s => s.ackDelayEnd p)))

/-- A pending NAK is not answered within the replay timeout (04 R132): it goes out again. -/
def State.nakAgain (s : State) (p : Nat) : State :=
  if (s.port p).st = .active ∧ (s.port p).nakPend then
    let s1 := s.until (s.port p).nakT
    s1.modPort p (fun q => { q with nakDue := true, nakT := s1.now + s1.replayTmo p })
  else s

/-- LL_NAK_RESEND (04 R132). -/
def execLlNakResend (p : Nat) (s : State) : Host.Outcome State Fault Refusal :=
  .next (s.run (fun s => s.atPort p (fun s => s.nakAgain p)))

/-- The replay timer of port `p` ends (04 R136). -/
def State.replayEnd (s : State) (p : Nat) : State :=
  if (s.port p).st = .active ∧ (s.port p).replay ≠ [] then (s.until (s.port p).replayT).startReplay p else s

/-- LL_REPLAY_TIMEOUT (04 R136). -/
def execLlReplayTimeout (p : Nat) (s : State) : Host.Outcome State Fault Refusal :=
  .next (s.run (fun s => s.atPort p (fun s => s.replayEnd p)))

/-- UCIE_PHY_RETRAIN (04 R144). -/
def execUciePhyRetrain (p : Nat) (s : State) : Host.Outcome State Fault Refusal :=
  .next (s.run (fun s => s.atPort p (fun s => s.retrainCmd p)))

/-- LL_RETRAIN_CMD (04 R152). -/
def execLlRetrainCmd (p : Nat) (who : Party) (s : State) : Host.Outcome State Fault Refusal :=
  .next (s.atPort p (fun s => s.commandBit who (prtReg p 0) 0xC0 2))

/-- UCIe has retrained port `p` (04 R144): the RESUME exchange follows. -/
def State.retrained (s : State) (p : Nat) (rep : LaneRepair) : State :=
  if (s.port p).st = .retrain ∧ !(s.port p).ucieUp then s.modPort p (fun q => { q with ucieUp := true, rep := rep }) else s

/-- UCIE_RETRAIN_DONE (04 R144). -/
def execUcieRetrainDone (p : Nat) (rep : LaneRepair) (s : State) : Host.Outcome State Fault Refusal :=
  .next (s.run (fun s => s.atPort p (fun s => s.retrained p rep)))

/-- A retrain has not reached ACTIVE within 1 ms (04 R145). -/
def State.retrainEnd (s : State) (p : Nat) : State :=
  if (s.port p).st = .retrain then (s.until (s.port p).retrainT).linkReset p 7 else s

/-- LL_RETRAIN_TIMEOUT (04 R145). -/
def execLlRetrainTimeout (p : Nat) (s : State) : Host.Outcome State Fault Refusal :=
  .next (s.run (fun s => s.atPort p (fun s => s.retrainEnd p)))

/-- UCIE_TRAIN_DONE (04 R124). -/
def execUcieTrainDone (p : Nat) (rates : BitVec 3) (rep : LaneRepair) (s : State) : Host.Outcome State Fault Refusal :=
  .next (s.run (fun s => s.atPort p (fun s => s.trained p rates rep)))

/-- UCIE_TRAIN_FAIL (04 R151). -/
def execUcieTrainFail (p : Nat) (s : State) : Host.Outcome State Fault Refusal :=
  .next (s.run (fun s => s.atPort p (fun s => if (s.port p).st = .train then s.trainFail p else s)))

/-- LL_LINK_RESET_TIMEOUT (04 R148). -/
def execLlLinkResetTimeout (p : Nat) (s : State) : Host.Outcome State Fault Refusal :=
  .next (s.run (fun s => s.atPort p (fun s => s.linkResetTimeout p)))

/-- PORT_RESET (04 R150). -/
def execPortReset (p : Nat) (who : Party) (s : State) : Host.Outcome State Fault Refusal :=
  .next (s.atPort p (fun s => s.commandBit who (prtReg p 0) 0xC0 1))

/-- UCIE_LOW_POWER_REQUEST (04 R112): refused, and the port goes on as it was. -/
def execUcieLowPowerRequest (_p : Nat) (s : State) : Host.Outcome State Fault Refusal := .next (s.act id)

/-- VENDOR_SIDEBAND_RX (04 R112): discarded. -/
def execVendorSidebandRx (_p : Nat) (_bits : Slot) (s : State) : Host.Outcome State Fault Refusal := .next (s.act id)

/-- MESSAGE_FORWARD (03 R87, 05 R192). (Log 38: DEDUCED) -/
def execMessageForward (p : Nat) (m : Msg) (s : State) : Host.Outcome State Fault Refusal := .next (s.rejected p m)

/-- FLIT_CLOCK (04 R114). -/
def execFlitClock (p : Nat) (s : State) : Host.Outcome State Fault Refusal :=
  .next (s.run (fun s => s.atPort p (fun s => s.flitClock p)))

/-- UNEXPECTED_MESSAGE (05 R193). (Log 38: DEDUCED) -/
def execUnexpectedMessage (p : Nat) (m : Msg) (s : State) : Host.Outcome State Fault Refusal := .next (s.rejected p m)

/-- A partner's sideband access to the UCIe registers of port `p` (04 R112) is answered as UCIe 1.1 requires, with a value that
this spec does not give. -/
def State.sidebandAccess (s : State) (p : Nat) : State :=
  let d := s.draw
  d.2.modPort p (fun q => { q with sideband := some (Config.sideband d.1) })

/-- UCIE_SIDEBAND_REG_ACCESS (04 R112). (Log 15: DESIGN CHOICE) -/
def execUcieSidebandRegAccess (p : Nat) (_wr : Bool) (_a : BitVec 24) (_v : Word) (s : State) :
    Host.Outcome State Fault Refusal :=
  .next (s.act (fun s => s.atPort p (fun s => s.sidebandAccess p)))

/-- The 1 µs of REORDER_ILLEGAL ends (20 R714): the flit that the Jig holds is sent. -/
def State.reorderEnd (s : State) (p : Nat) : State :=
  match (s.port p).held with
  | some (_, _, t, _) => (s.until t).txHeld p
  | none => s

/-- JIG_REORDER_TIMEOUT (20 R714). -/
def execJigReorderTimeout (p : Nat) (s : State) : Host.Outcome State Fault Refusal :=
  .next (s.run (fun s => s.atPort p (fun s => s.reorderEnd p)))

end Sys2Proof.Machine
end

