-- ==== Sys2Proof/Machine/CmdReq.lean ====
section
/-!
DEFINITION. The requests of clients: reads, writes, reservations, atomics, gathers and scatters, fences and the Clamp
(06, 08, 11). What a request does is `State.request`, after the checks of 05 R192.
-/
namespace Sys2Proof.Machine

/-- RD_SHARED (06 R217). -/
def execRdShared (p : Nat) (m : Msg) (s : State) : Host.Outcome State Fault Refusal :=
  .next (s.requestOf p m Op.rdShared)

/-- RD_UNIQUE (06 R217). -/
def execRdUnique (p : Nat) (m : Msg) (s : State) : Host.Outcome State Fault Refusal :=
  .next (s.requestOf p m Op.rdUnique)

/-- RD_ONCE (06 R217). -/
def execRdOnce (p : Nat) (m : Msg) (s : State) : Host.Outcome State Fault Refusal :=
  .next (s.requestOf p m Op.rdOnce)

/-- RD_NO_SNP (06 R217). -/
def execRdNoSnp (p : Nat) (m : Msg) (s : State) : Host.Outcome State Fault Refusal :=
  .next (s.requestOf p m Op.rdNoSnp)

/-- CLEAN_UNIQUE (06 R218). -/
def execCleanUnique (p : Nat) (m : Msg) (s : State) : Host.Outcome State Fault Refusal :=
  .next (s.requestOf p m Op.cleanUnique)

/-- MAKE_UNIQUE (06 R218). -/
def execMakeUnique (p : Nat) (m : Msg) (s : State) : Host.Outcome State Fault Refusal :=
  .next (s.requestOf p m Op.makeUnique)

/-- EVICT_CLEAN (06 R220). -/
def execEvictClean (p : Nat) (m : Msg) (s : State) : Host.Outcome State Fault Refusal :=
  .next (s.requestOf p m Op.evictClean)

/-- WR_BACK_FULL (06 R220). -/
def execWrBackFull (p : Nat) (m : Msg) (s : State) : Host.Outcome State Fault Refusal :=
  .next (s.requestOf p m Op.wrBackFull)

/-- WR_UNIQUE (06 R222). -/
def execWrUnique (p : Nat) (m : Msg) (s : State) : Host.Outcome State Fault Refusal :=
  .next (s.requestOf p m Op.wrUnique)

/-- WR_POSTED (08 R308). -/
def execWrPosted (p : Nat) (m : Msg) (s : State) : Host.Outcome State Fault Refusal :=
  .next (s.requestOf p m Op.wrPosted)

/-- WR_NT (08 R312). -/
def execWrNt (p : Nat) (m : Msg) (s : State) : Host.Outcome State Fault Refusal :=
  .next (s.requestOf p m Op.wrNT)

/-- WR_NO_SNP (06 R222). -/
def execWrNoSnp (p : Nat) (m : Msg) (s : State) : Host.Outcome State Fault Refusal :=
  .next (s.requestOf p m Op.wrNoSnp)

/-- RESERVE_RD (08 R320). -/
def execReserveRd (p : Nat) (m : Msg) (s : State) : Host.Outcome State Fault Refusal :=
  .next (s.requestOf p m Op.reserveRd)

/-- COND_WR (08 R322). -/
def execCondWr (p : Nat) (m : Msg) (s : State) : Host.Outcome State Fault Refusal :=
  .next (s.requestOf p m Op.condWr)

/-- ATOMIC_FAR (08 R327). -/
def execAtomicFar (p : Nat) (m : Msg) (s : State) : Host.Outcome State Fault Refusal :=
  .next (s.requestOf p m Op.atomicFar)

/-- GATHER_RD (08 R331). -/
def execGatherRd (p : Nat) (m : Msg) (s : State) : Host.Outcome State Fault Refusal :=
  .next (s.requestOf p m Op.gatherRd)

/-- GATHER_RD_FF (08 R332). -/
def execGatherRdFf (p : Nat) (m : Msg) (s : State) : Host.Outcome State Fault Refusal :=
  .next (s.requestOf p m Op.gatherRdFF)

/-- SCATTER_WR (08 R331). -/
def execScatterWr (p : Nat) (m : Msg) (s : State) : Host.Outcome State Fault Refusal :=
  .next (s.requestOf p m Op.scatterWr)

/-- SCATTER_WR_FF (08 R333). -/
def execScatterWrFf (p : Nat) (m : Msg) (s : State) : Host.Outcome State Fault Refusal :=
  .next (s.requestOf p m Op.scatterWrFF)

/-- FENCE_W (08 R315). -/
def execFenceW (p : Nat) (m : Msg) (s : State) : Host.Outcome State Fault Refusal :=
  .next (s.requestOf p m Op.fenceW)

/-- FENCE_FULL (08 R316). -/
def execFenceFull (p : Nat) (m : Msg) (s : State) : Host.Outcome State Fault Refusal :=
  .next (s.requestOf p m Op.fenceFull)

/-- CLAMP_ALLOC (11 R437). -/
def execClampAlloc (p : Nat) (m : Msg) (s : State) : Host.Outcome State Fault Refusal :=
  .next (s.requestOf p m Op.clampAlloc)

/-- CLAMP_FREE (11 R439). -/
def execClampFree (p : Nat) (m : Msg) (s : State) : Host.Outcome State Fault Refusal :=
  .next (s.requestOf p m Op.clampFree)

/-- LOCK_ACQ (11 R441). -/
def execLockAcq (p : Nat) (m : Msg) (s : State) : Host.Outcome State Fault Refusal :=
  .next (s.requestOf p m Op.lockAcq)

/-- LOCK_REL (11 R444). -/
def execLockRel (p : Nat) (m : Msg) (s : State) : Host.Outcome State Fault Refusal :=
  .next (s.requestOf p m Op.lockRel)

/-- BARRIER_ARRIVE (11 R450). -/
def execBarrierArrive (p : Nat) (m : Msg) (s : State) : Host.Outcome State Fault Refusal :=
  .next (s.requestOf p m Op.barrierArrive)

/-- CLAMP_SET_PRIO (11 R446). -/
def execClampSetPrio (p : Nat) (m : Msg) (s : State) : Host.Outcome State Fault Refusal :=
  .next (s.requestOf p m Op.clampSetPrio)

/-- GATHER_SCATTER_COMPLETE (08 R335). -/
def execGatherScatterComplete (sl g : Nat) (s : State) : Host.Outcome State Fault Refusal :=
  .next (s.run (fun s => s.atSlice sl (fun s => s.gatherEnd sl g)))

/-- FENCE_FULL_COMP (08 R316). -/
def execFenceFullComp (p fence : Nat) (s : State) : Host.Outcome State Fault Refusal :=
  .next (s.run (fun s => s.atPort p (fun s => s.fenceFullEnd p fence)))

/-- POSTED_WRITE_COMMIT (08 R309). -/
def execPostedWriteCommit (p w : Nat) (s : State) : Host.Outcome State Fault Refusal :=
  .next (s.run (fun s => s.atPort p (fun s => s.postedCommit p w)))

/-- CLAMP_INGRESS_RETRY (11 R443). -/
def execClampIngressRetry (ls : Nat) (s : State) : Host.Outcome State Fault Refusal :=
  .next (s.run (fun s => if ls < s.pat.nActive then s.clampRetry ls else s))

/-- CWB_TIMEOUT (08 R313). -/
def execCwbTimeout (p e : Nat) (s : State) : Host.Outcome State Fault Refusal :=
  .next (s.run (fun s => s.atPort p (fun s => s.cwbTimeout p e)))

/-- INGRESS_RETRY (07 R255). -/
def execIngressRetry (sl : Nat) (ten : Tenant) (s : State) : Host.Outcome State Fault Refusal :=
  .next (s.run (fun s => s.atSlice sl (fun s => s.ingressRetry sl ten)))

end Sys2Proof.Machine
end

