-- ==== Sys2Proof/Machine/CmdReset.lean ====
section
/-!
DEFINITION. The commands of reset, boot, lifecycle, fuses and the environment (15, 22, 18 R666, 19 R704, R705).
-/
namespace Sys2Proof.Machine

/-- COLD_RESET (15 R576, R586). -/
def execColdReset (s : State) : Host.Outcome State Fault Refusal := .next s.coldReset

/-- RST_N_DEASSERT (15 R578, R591 step 1). -/
def execRstNDeassert (addrSel : BitVec 3) (bootSel : Bool) (s : State) : Host.Outcome State Fault Refusal :=
  .next (s.rstNDeassert addrSel bootSel)

/-- BOOT_FUSE (15 R580). -/
def execBootFuse (read : FuseRead) (s : State) : Host.Outcome State Fault Refusal :=
  .next (s.run (fun s => s.bootFuse read))

/-- BOOT_ROM (15 R591, R595). -/
def execBootRom (crcOk : Bool) (s : State) : Host.Outcome State Fault Refusal := .next (s.run (fun s => s.bootRom crcOk))

/-- SPI_IMAGE_FETCH (15 R592). -/
def execSpiImageFetch (flash : SpiFlash) (s : State) : Host.Outcome State Fault Refusal :=
  .next (s.run (fun s => s.spiFetch flash))

/-- BOOT_ICMD_START (15 R593). -/
def execBootIcmdStart (who : Party) (s : State) : Host.Outcome State Fault Refusal :=
  .next (s.command who 0x20C (bitWord 30))

/-- BOOT_IDATA_WRITE (15 R593). -/
def execBootIdataWrite (who : Party) (v : Word) (s : State) : Host.Outcome State Fault Refusal :=
  .next (s.command who 0x210 v)

/-- BOOT_ICMD_LOAD (15 R593). -/
def execBootIcmdLoad (who : Party) (s : State) : Host.Outcome State Fault Refusal :=
  .next (s.command who 0x20C (bitWord 31))

/-- BOOT_AUTH (14 R558). -/
def execBootAuth (s : State) : Host.Outcome State Fault Refusal := .next (s.run State.bootAuth)

/-- BOOT_INIT (14 R562, 15 R591). -/
def execBootInit (s : State) : Host.Outcome State Fault Refusal := .next (s.run State.bootInit)

/-- BOOT_TRAIN_END (15 R591). -/
def execBootTrainEnd (s : State) : Host.Outcome State Fault Refusal := .next (s.run State.bootTrainEnd)

/-- WRST_N_ASSERT (22 R763). -/
def execWrstNAssert (s : State) : Host.Outcome State Fault Refusal := .next (s.pin State.wrstAssert)

/-- WARM_RESET_FLUSH_END (10 R421, 15 R589). -/
def execWarmResetFlushEnd (s : State) : Host.Outcome State Fault Refusal := .next (s.run State.warmFlushEnd)

/-- WRST_N_DEASSERT (22 R763). -/
def execWrstNDeassert (s : State) : Host.Outcome State Fault Refusal := .next s.wrstDeassert

/-- GLB_RST_WARM (15 R588). -/
def execGlbRstWarm (who : Party) (key : BitVec 16) (s : State) : Host.Outcome State Fault Refusal :=
  .next (s.command who 0x220 (bitWord 31 ||| key.zeroExtend 32))

/-- GLB_RST_UMEVO (15 R588). -/
def execGlbRstUmevo (who : Party) (key : BitVec 16) (s : State) : Host.Outcome State Fault Refusal :=
  .next (s.command who 0x220 (bitWord 30 ||| key.zeroExtend 32))

/-- UNLK_NONCE (15 R583). -/
def execUnlkNonce (who : Party) (s : State) : Host.Outcome State Fault Refusal := .next (s.command who 0x264 (bitWord 31))

/-- UNLK_DATA_WRITE (15 R583). -/
def execUnlkDataWrite (who : Party) (v : Word) (s : State) : Host.Outcome State Fault Refusal :=
  .next (s.command who 0x260 v)

/-- UNLK_VERIFY (15 R583). -/
def execUnlkVerify (who : Party) (s : State) : Host.Outcome State Fault Refusal := .next (s.command who 0x264 (bitWord 30))

/-- UNLK_VERIFY_DONE (15 R583). -/
def execUnlkVerifyDone (s : State) : Host.Outcome State Fault Refusal := .next (s.run State.unlkDone)

/-- FUSE_REVOKE (15 R581). -/
def execFuseRevoke (who : Party) (slot : BitVec 2) (s : State) : Host.Outcome State Fault Refusal :=
  .next (s.command who 0x234 (bitWord 31 ||| slot.zeroExtend 32))

/-- TEST_EN_ASSERT (22 R761). -/
def execTestEnAssert (s : State) : Host.Outcome State Fault Refusal := .next (s.pin State.testEnAssert)

/-- TEST_EN_DEASSERT (22 R761). -/
def execTestEnDeassert (s : State) : Host.Outcome State Fault Refusal := .next s.testEnDeassert

/-- SUPPLY_FAULT (19 R705, 22 R778). -/
def execSupplyFault (sup : Supply) (s : State) : Host.Outcome State Fault Refusal :=
  .next (s.run (fun s => s.supplyFault sup))

/-- VDD_PHY_RETURN (22 R778). -/
def execVddPhyReturn (s : State) : Host.Outcome State Fault Refusal := .next (s.run State.phyReturn)

/-- TEMP_WARN (19 R704). -/
def execTempWarn (temp : BitVec 8) (s : State) : Host.Outcome State Fault Refusal := .next (s.run (fun s => s.tempWarn temp))

/-- TEMP_TRIP (19 R704). -/
def execTempTrip (temp : BitVec 8) (s : State) : Host.Outcome State Fault Refusal := .next (s.run (fun s => s.tempTrip temp))

/-- REFCLK_LOSS (18 R661, 04 R158). -/
def execRefclkLoss (s : State) : Host.Outcome State Fault Refusal := .next (s.run State.refLoss)

/-- REFCLK_RETURN (18 R666). -/
def execRefclkReturn (s : State) : Host.Outcome State Fault Refusal := .next (s.run State.refReturn)

end Sys2Proof.Machine
end

