-- ==== Sys2Proof/Machine/CmdSlice.lean ====
section
/-!
DEFINITION. The commands of the slices: scrubbing, diagnostic reads, the home cache engines, failure and census, migration, the
speed monitor, the hash probe and the bank registers (02, 03 R103, 09, 10, 11, 13).
-/
namespace Sys2Proof.Machine

/-- A scrub pass of the SF, which is also the latent test of its stored contents (19 R690). -/
def State.sfScrubPass (s : State) (k : Nat) (hard : List (Nat × Nat)) : State :=
  (s.sfScrub k hard).latentRan (unitSlice k) 1

/-- A scrub pass of the home cache, which is also the latent test of its stored contents (19 R690). -/
def State.hcScrubPass (s : State) (k : Nat) (hard : List (Nat × Nat)) : State :=
  (s.hcScrub k hard).latentRan (unitSlice k) 7

/-- A command word with GO set and the OP given in bits 1:0 (10 R409, R411). -/
def goWord (v : Word) (op : Nat) : Word := setBits (v ||| bitWord 31) 0 2 op

/-- SF_SCRUB_PASS (09 R366, 19 R690). -/
def execSfScrubPass (sl : Nat) (hard : List (Nat × Nat)) (s : State) : Host.Outcome State Fault Refusal :=
  .next (s.run (fun s => s.atSlice sl (fun s => s.sfScrubPass sl hard)))

/-- HC_SCRUB_PASS (10 R404, 19 R690). -/
def execHcScrubPass (sl : Nat) (hard : List (Nat × Nat)) (s : State) : Host.Outcome State Fault Refusal :=
  .next (s.run (fun s => s.atSlice sl (fun s => s.hcScrubPass sl hard)))

/-- SF_RDSEL_GO (09 R378). -/
def execSfRdselGo (who : Party) (sl : Nat) (v : Word) (s : State) : Host.Outcome State Fault Refusal :=
  .next (s.atSlice sl (fun s => s.command who (slcReg sl 0x838) (v ||| bitWord 31)))

/-- SF_LOOSE_CLEAR (09 R371). -/
def execSfLooseClear (who : Party) (sl : Nat) (s : State) : Host.Outcome State Fault Refusal :=
  .next (s.atSlice sl (fun s => s.command who (slcReg sl 0x824) (bitWord 31)))

/-- SF_ENTRY_READ_DONE (09 R378). -/
def execSfEntryReadDone (sl : Nat) (s : State) : Host.Outcome State Fault Refusal :=
  .next (s.run (fun s => s.atSlice sl (fun s => s.sfRdDone sl)))

/-- HC_DISABLE_REQUEST (10 R415). -/
def execHcDisableRequest (who : Party) (s : State) : Host.Outcome State Fault Refusal :=
  .next (s.command who 0x6000 1)

/-- HC_ENABLE_REQUEST (10 R416). -/
def execHcEnableRequest (who : Party) (s : State) : Host.Outcome State Fault Refusal :=
  .next (s.command who 0x6000 0)

/-- HC_DRAIN_COMPLETE (10 R415). -/
def execHcDrainComplete (s : State) : Host.Outcome State Fault Refusal :=
  .next (s.run State.hcDrainComplete)

/-- HCM_MOP_CLEAN (10 R409). -/
def execHcmMopClean (who : Party) (v : Word) (s : State) : Host.Outcome State Fault Refusal :=
  .next (s.command who 0x6018 (goWord v 0))

/-- HCM_MOP_CLEAN_INV (10 R409). -/
def execHcmMopCleanInv (who : Party) (v : Word) (s : State) : Host.Outcome State Fault Refusal :=
  .next (s.command who 0x6018 (goWord v 1))

/-- HCM_MOP_INV_CLEAN (10 R409). -/
def execHcmMopInvClean (who : Party) (v : Word) (s : State) : Host.Outcome State Fault Refusal :=
  .next (s.command who 0x6018 (goWord v 2))

/-- HCM_RNG_CLEAN (10 R411). -/
def execHcmRngClean (who : Party) (v : Word) (s : State) : Host.Outcome State Fault Refusal :=
  .next (s.command who 0x6030 (setBits (goWord v 0) 30 1 0))

/-- HCM_RNG_CLEAN_INV (10 R411). -/
def execHcmRngCleanInv (who : Party) (v : Word) (s : State) : Host.Outcome State Fault Refusal :=
  .next (s.command who 0x6030 (setBits (goWord v 1) 30 1 0))

/-- HCM_RNG_INV_CLEAN (10 R411). -/
def execHcmRngInvClean (who : Party) (v : Word) (s : State) : Host.Outcome State Fault Refusal :=
  .next (s.command who 0x6030 (setBits (goWord v 2) 30 1 0))

/-- HCM_RNG_ABORT (10 R419). -/
def execHcmRngAbort (who : Party) (s : State) : Host.Outcome State Fault Refusal :=
  .next (s.commandBit who 0x6030 0x0001FE03 30)

/-- RANGE_ENGINE_SET (10 R411). -/
def execRangeEngineSet (sl ctx : Nat) (s : State) : Host.Outcome State Fault Refusal :=
  .next (s.run (fun s => s.atSlice sl (fun s => if ctx < 2 then s.rangeSet sl ctx else s)))

/-- SLICE_FAULT (01 R27, 13 R515). (Log 87: DESIGN CHOICE) -/
def execSliceFault (sl : Nat) (cause : BitVec 8) (s : State) : Host.Outcome State Fault Refusal :=
  .next (s.run (fun s => s.atSlice sl (fun s => s.react (.fence sl cause))))

/-- HC_SCANOUT_DONE (13 R516). -/
def execHcScanoutDone (sl : Nat) (s : State) : Host.Outcome State Fault Refusal :=
  .next (s.run (fun s => s.atSlice sl (fun s => s.hcScanDone sl)))

/-- HC_SCANOUT_TIMEOUT (13 R517). -/
def execHcScanoutTimeout (sl : Nat) (s : State) : Host.Outcome State Fault Refusal :=
  .next (s.run (fun s => s.atSlice sl (fun s => s.hcScanTimeout sl)))

/-- SF_SCANOUT_DONE (09 R372). -/
def execSfScanoutDone (sl : Nat) (s : State) : Host.Outcome State Fault Refusal :=
  .next (s.run (fun s => s.atSlice sl (fun s => s.sfScanDone sl)))

/-- SCANOUT_STALL (09 R372). -/
def execScanoutStall (sl : Nat) (s : State) : Host.Outcome State Fault Refusal :=
  .next (s.run (fun s => s.atSlice sl (fun s => s.scanStall sl)))

/-- EVICTION_HOLD_END (13 R518). -/
def execEvictionHoldEnd (sl : Nat) (s : State) : Host.Outcome State Fault Refusal :=
  .next (s.run (fun s => s.atSlice sl (fun s => s.evictHoldEnd sl)))

/-- CENSUS_SET_START (09 R373). -/
def execCensusSetStart (sl : Nat) (s : State) : Host.Outcome State Fault Refusal :=
  .next (s.run (fun s => s.atSlice sl (fun s => s.censusStart sl)))

/-- MIG_START (13 R514, R532). -/
def execMigStart (who : Party) (v : Word) (s : State) : Host.Outcome State Fault Refusal :=
  .next (s.command who 0x320 (setBits (v ||| bitWord 31) 30 1 0))

/-- MIG_AUTO_START (13 R508). -/
def execMigAutoStart (sl : Nat) (s : State) : Host.Outcome State Fault Refusal :=
  .next (s.run (fun s => s.atSlice sl (fun s => s.migAuto sl)))

/-- MIG_ABORT (13 R514). -/
def execMigAbort (who : Party) (s : State) : Host.Outcome State Fault Refusal :=
  .next (s.commandBit who 0x320 0x00031F1F 30)

/-- MIG_LIMIT_WRITE (13 R510). -/
def execMigLimitWrite (who : Party) (v : Word) (s : State) : Host.Outcome State Fault Refusal :=
  .next (s.command who 0x324 v)

/-- MIG_COPY_UNIT (13 R510). -/
def execMigCopyUnit (s : State) : Host.Outcome State Fault Refusal :=
  .next (s.run State.migCopy)

/-- MIG_HANDOVER_COMPLETE (13 R513). -/
def execMigHandoverComplete (s : State) : Host.Outcome State Fault Refusal :=
  .next (s.run State.migHandover)

/-- REPLACE_REQUEST_PERIODIC (13 R528). -/
def execReplaceRequestPeriodic (s : State) : Host.Outcome State Fault Refusal :=
  .next (s.run State.replacePeriodic)

/-- LOSS_LOG_NEXT (13 R532). -/
def execLossLogNext (who : Party) (s : State) : Host.Outcome State Fault Refusal :=
  .next (s.command who 0x348 (bitWord 30))

/-- DMON_START (02 R63). -/
def execDmonStart (who : Party) (sl : Nat) (s : State) : Host.Outcome State Fault Refusal :=
  .next (s.atSlice sl (fun s => s.commandBit who (slcReg sl 0xE00) 0xFD 8))

/-- DMON_CLR_MIN (02 R63). -/
def execDmonClrMin (who : Party) (sl : Nat) (s : State) : Host.Outcome State Fault Refusal :=
  .next (s.atSlice sl (fun s => s.commandBit who (slcReg sl 0xE00) 0xFD 9))

/-- DMON_AUTO_DUE (02 R72). -/
def execDmonAutoDue (sl : Nat) (s : State) : Host.Outcome State Fault Refusal :=
  .next (s.run (fun s => s.atSlice sl (fun s => s.dmonAutoDue sl)))

/-- DMON_MEASURE_END (02 R60). -/
def execDmonMeasureEnd (sl : Nat) (count : Nat) (s : State) : Host.Outcome State Fault Refusal :=
  .next (s.run (fun s => s.atSlice sl (fun s => s.dmonEnd sl count)))

/-- AGEING_DUE (02 R60). -/
def execAgeingDue (sl : Nat) (s : State) : Host.Outcome State Fault Refusal :=
  .next (s.run (fun s => s.atSlice sl (fun s => s.ageingDue sl)))

/-- AGEING_END (02 R61). -/
def execAgeingEnd (sl : Nat) (speed fresh : Nat) (s : State) : Host.Outcome State Fault Refusal :=
  .next (s.run (fun s => s.atSlice sl (fun s => s.ageingEnd sl speed fresh)))

/-- HPROBE_GO (03 R103). -/
def execHprobeGo (who : Party) (v : Word) (s : State) : Host.Outcome State Fault Refusal :=
  .next (s.command who 0x144 (v ||| bitWord 31))

/-- HPROBE_DONE (03 R103). -/
def execHprobeDone (s : State) : Host.Outcome State Fault Refusal :=
  .next (s.run State.hprobeDone)

/-- CLAMP_BREAK (11 R453, R457). -/
def execClampBreak (who : Party) (sl : Nat) (idx : BitVec 12) (s : State) : Host.Outcome State Fault Refusal :=
  .next (s.atSlice sl (fun s => s.command who (slcReg sl 0xD14) (bitWord 31 ||| idx.zeroExtend 32)))

/-- CLAMP_HSEL_GO (11 R457). -/
def execClampHselGo (who : Party) (sl : Nat) (idx : BitVec 12) (s : State) : Host.Outcome State Fault Refusal :=
  .next (s.atSlice sl (fun s => s.command who (slcReg sl 0xD18) (bitWord 31 ||| idx.zeroExtend 32)))

/-- CLAMP_ENTRY_READ_DONE (11 R457). -/
def execClampEntryReadDone (sl : Nat) (s : State) : Host.Outcome State Fault Refusal :=
  .next (s.run (fun s => s.atSlice sl (fun s => s.hselDone sl)))

end Sys2Proof.Machine
end

