-- ==== Sys2Proof/Machine/CmdSystem.lean ====
section
/-!
DEFINITION. The commands of the watchdogs, the timebase, power, safety and the Jig, and the plain register write (17, 18, 19, 20, 00
R13).
-/
namespace Sys2Proof.Machine

/-- CWD_KEY_A (17 R633). -/
def execCwdKeyA (who : Party) (key : BitVec 16) (s : State) : Host.Outcome State Fault Refusal :=
  .next (s.command who 0x2004 (key.zeroExtend 32))

/-- CWD_KEY_B (17 R633). -/
def execCwdKeyB (who : Party) (key : BitVec 16) (s : State) : Host.Outcome State Fault Refusal :=
  .next (s.command who 0x2004 (key.zeroExtend 32))

/-- CWD_CTL_WRITE (17 R635). -/
def execCwdCtlWrite (who : Party) (v : Word) (s : State) : Host.Outcome State Fault Refusal :=
  .next (s.command who 0x2000 v)

/-- CWD_REJECTED_WRITE (17 R636). -/
def execCwdRejectedWrite (who : Party) (off : Nat) (s : State) : Host.Outcome State Fault Refusal :=
  .next (if who != .umevoM && (off == 0 || off == 4) then s.command who (0x2000 + off) 0 else s)

/-- CWD_EXPIRY (17 R637). -/
def execCwdExpiry (s : State) : Host.Outcome State Fault Refusal :=
  .next (s.run State.cwdExpiry)

/-- HEALTHY_INTERVAL_END (17 R638). -/
def execHealthyIntervalEnd (s : State) : Host.Outcome State Fault Refusal :=
  .next (s.run State.healthyEnd)

/-- SWD_SERVICE (17 R642). -/
def execSwdService (who : Party) (key : BitVec 16) (s : State) : Host.Outcome State Fault Refusal :=
  .next (s.command who 0x2010 (key.zeroExtend 32))

/-- SWD_EXPIRY (17 R643). -/
def execSwdExpiry (s : State) : Host.Outcome State Fault Refusal :=
  .next (s.run State.swdExpiry)

/-- SWD_HARD_TIMER_END (17 R643). -/
def execSwdHardTimerEnd (s : State) : Host.Outcome State Fault Refusal :=
  .next (s.run State.swdHardEnd)

/-- TIM_SET_GO (18 R657). -/
def execTimSetGo (who : Party) (ep : BitVec 16) (s : State) : Host.Outcome State Fault Refusal :=
  .next (s.command who 0x401C (bitWord 31 ||| ep.zeroExtend 32))

/-- TIM_NOW_READ (18 R657). -/
def execTimNowRead (who : Party) (s : State) : Host.Outcome State Fault Refusal :=
  .next (s.act (fun s => s.access who 0x4008 (fun s => (s.regRead who 0x4008).2)))

/-- PPS_EDGE (18 R658). -/
def execPpsEdge (s : State) : Host.Outcome State Fault Refusal :=
  .next (s.run State.ppsEdge)

/-- PPS_MISS (18 R661). -/
def execPpsMiss (s : State) : Host.Outcome State Fault Refusal :=
  .next (s.run State.ppsMiss)

/-- SLICE_IDLE_TIMEOUT (18 R671). -/
def execSliceIdleTimeout (sl : Nat) (s : State) : Host.Outcome State Fault Refusal :=
  .next (s.run (fun s => s.atSlice sl (fun s => s.idleTimeout sl)))

/-- POWER_ENTRY_DONE (18 R671). -/
def execPowerEntryDone (sl : Nat) (s : State) : Host.Outcome State Fault Refusal :=
  .next (s.run (fun s => s.atSlice sl (fun s => s.entryDone sl)))

/-- SLICE_EXIT_DONE (18 R673). -/
def execSliceExitDone (sl : Nat) (s : State) : Host.Outcome State Fault Refusal :=
  .next (s.run (fun s => s.atSlice sl (fun s => s.exitDone sl)))

/-- VOLTAGE_EVALUATION (18 R675). -/
def execVoltageEvaluation (s : State) : Host.Outcome State Fault Refusal :=
  .next (s.run State.voltageEval)

/-- STALL_DETECTED (19 R688). -/
def execStallDetected (unit : BitVec 8) (s : State) : Host.Outcome State Fault Refusal :=
  .next (s.run (fun s => s.stall unit))

/-- COMPARATOR_MISMATCH (19 R698). -/
def execComparatorMismatch (unit : BitVec 8) (s : State) : Host.Outcome State Fault Refusal :=
  .next (s.run (fun s => s.comparator unit))

/-- TRACKER_AGE_EXCEEDED (19 R698). -/
def execTrackerAgeExceeded (sl trk : Nat) (s : State) : Host.Outcome State Fault Refusal :=
  .next (s.run (fun s => s.atSlice sl (fun s => s.trackerAge sl trk)))

/-- LATENT_TEST (19 R690). -/
def execLatentTest (unit : BitVec 8) (test : BitVec 8) (pass : Bool) (s : State) : Host.Outcome State Fault Refusal :=
  .next (s.run (fun s => s.latentTest unit test pass))

/-- PIN_READBACK_MISMATCH (19 R691). -/
def execPinReadbackMismatch (s : State) : Host.Outcome State Fault Refusal :=
  .next (s.run State.pinMismatch)

/-- SAF_CMD_ENTER (19 R701). -/
def execSafCmdEnter (who : Party) (key : BitVec 16) (s : State) : Host.Outcome State Fault Refusal :=
  .next (s.command who 0x300C (bitWord 31 ||| key.zeroExtend 32))

/-- SAF_LOG_NEXT (19 R699). -/
def execSafLogNext (who : Party) (s : State) : Host.Outcome State Fault Refusal :=
  .next (s.command who 0x3034 (bitWord 31))

/-- JIG_ARM (20 R719). -/
def execJigArm (who : Party) (ch : Nat) (v : Word) (s : State) : Host.Outcome State Fault Refusal :=
  .next (if ch < 8 then s.command who (chanReg ch) (v ||| bitWord 31) else s)

/-- JIG_DISARM (20 R720). -/
def execJigDisarm (who : Party) (ch : Nat) (s : State) : Host.Outcome State Fault Refusal :=
  .next (if ch < 8 then s.command who (chanReg ch) (setBits (s.word (chanReg ch)) 31 1 0) else s)

/-- JIG_DISARM_ALL (20 R720). -/
def execJigDisarmAll (who : Party) (s : State) : Host.Outcome State Fault Refusal :=
  .next (s.command who 0x7004 (bitWord 31))

/-- REGISTER_WRITE (00 R13, 21 R730). -/
def execRegisterWrite (who : Party) (off : BitVec 24) (v : Word) (s : State) : Host.Outcome State Fault Refusal :=
  .next (s.command who off.toNat v)

end Sys2Proof.Machine
end

