-- ==== Sys2Proof/Machine/CmdTenant.lean ====
section
/-!
DEFINITION. The commands of tenants, staging buffers, overlays and the event gatherer (11 R454, 12, 14 R565, 16).
-/
namespace Sys2Proof.Machine

/-- The word of TNTn_STG_CMD with GO, an OP and a HANDLE (12 R477). -/
def stgWord (op : Nat) (h : BitVec 16) : Word := bitWord 31 ||| BitVec.ofNat 32 (op * 2 ^ 16) ||| h.zeroExtend 32

/-- A read or write of TNTn_STG_DATA (12 R479). -/
def State.stgAccess (s : State) (who : Party) (t : Tenant) (wr : Option Word) : State :=
  match wr with
  | some v => s.command who (tntReg t 0x50) v
  | none => s.run (fun s => s.access who (tntReg t 0x50) (fun s => (s.regRead who (tntReg t 0x50)).2))

/-- A command of one of the 1,024 vectors (16 R608). -/
def State.vecCommand (s : State) (n : Nat) (f : State → State) : State := if n < 1024 then f s else s

/-- Every physical slice is in DEEP, spare or fenced (16 R617). -/
def State.allDeep (s : State) : Bool :=
  (List.range 18).all (fun k => (s.slice k).pwr == .deep || s.srole k == .spare || s.srole k == .fenced)

/-- TENANT_RESET_GO (12 R483). -/
def execTenantResetGo (who : Party) (ten : Tenant) (s : State) : Host.Outcome State Fault Refusal :=
  .next (s.command who (tntReg ten 0x8) 1)

/-- TENANT_DRAIN (12 R484). -/
def execTenantDrain (ten : Tenant) (s : State) : Host.Outcome State Fault Refusal :=
  .next (s.run (fun s => s.tenantDrain ten))

/-- TENANT_INVALIDATE (12 R486). -/
def execTenantInvalidate (ten : Tenant) (s : State) : Host.Outcome State Fault Refusal :=
  .next (s.run (fun s => s.tenantInvalidate ten))

/-- TENANT_CLEAN (12 R487). -/
def execTenantClean (ten : Tenant) (s : State) : Host.Outcome State Fault Refusal :=
  .next (s.run (fun s => s.tenantClean ten))

/-- TENANT_REVOKE (11 R454). -/
def execTenantRevoke (ten : Tenant) (s : State) : Host.Outcome State Fault Refusal :=
  .next (s.run (fun s => s.tenantRevoke ten))

/-- TENANT_CLEAR (12 R488). -/
def execTenantClear (ten : Tenant) (s : State) : Host.Outcome State Fault Refusal :=
  .next (s.run (fun s => s.tenantClear ten))

/-- TENANT_STEP_END (12 R484). -/
def execTenantStepEnd (ten : Tenant) (s : State) : Host.Outcome State Fault Refusal :=
  .next (s.run (fun s => s.tenantStepEnd ten))

/-- STG_ALLOC (12 R477). -/
def execStgAlloc (who : Party) (ten : Tenant) (s : State) : Host.Outcome State Fault Refusal :=
  .next (s.command who (tntReg ten 0x40) (stgWord 0 0))

/-- STG_FREE (12 R477). -/
def execStgFree (who : Party) (ten : Tenant) (h : BitVec 16) (s : State) : Host.Outcome State Fault Refusal :=
  .next (s.command who (tntReg ten 0x40) (stgWord 1 h))

/-- STG_LOAD (12 R477). -/
def execStgLoad (who : Party) (ten : Tenant) (h : BitVec 16) (s : State) : Host.Outcome State Fault Refusal :=
  .next (s.command who (tntReg ten 0x40) (stgWord 2 h))

/-- STG_DATA_ACCESS (12 R479). -/
def execStgDataAccess (who : Party) (ten : Tenant) (wr : Option Word) (s : State) : Host.Outcome State Fault Refusal :=
  .next (s.stgAccess who ten wr)

/-- OVERLAY_VALIDATED (14 R565). -/
def execOverlayValidated (s : State) : Host.Outcome State Fault Refusal :=
  .next (s.run State.overlayValidated)

/-- EVENT_TAKEN (16 R609). -/
def execEventTaken (src : Nat) (s : State) : Host.Outcome State Fault Refusal :=
  .next (s.run (fun s => s.takeEvent src))

/-- VECTOR_COAL_TIMEOUT (16 R610). -/
def execVectorCoalTimeout (vec : Nat) (s : State) : Host.Outcome State Fault Refusal :=
  .next (s.run (fun s => if vec < 1024 then s.coalTimeout vec else s))

/-- INTERRUPT_RESEND (16 R616). -/
def execInterruptResend (vec : Nat) (s : State) : Host.Outcome State Fault Refusal :=
  .next (s.run (fun s => if vec < 1024 then s.evgResend vec else s))

/-- EVG_ACK (16 R613). -/
def execEvgAck (who : Party) (vec : Nat) (s : State) : Host.Outcome State Fault Refusal :=
  .next (s.vecCommand vec (fun s => s.command who 0x8008 (bitWord 31 ||| BitVec.ofNat 32 vec)))

/-- EVG_FLUSH (16 R618). -/
def execEvgFlush (who : Party) (vec : Nat) (s : State) : Host.Outcome State Fault Refusal :=
  .next (s.vecCommand vec (fun s => s.command who 0x8008 (bitWord 30 ||| BitVec.ofNat 32 vec)))

/-- EVG_VCOAL_WRITE (16 R619). -/
def execEvgVcoalWrite (who : Party) (vec : Nat) (v : Word) (s : State) : Host.Outcome State Fault Refusal :=
  .next (s.vecCommand vec (fun s => s.command who (vcoalReg vec) v))

/-- EVG_RETAIN (16 R617). -/
def execEvgRetain (s : State) : Host.Outcome State Fault Refusal :=
  .next (s.run (fun s => s.evgRetain s.allDeep))

/-- EVG_WAKE (16 R617). (Log 83: DEDUCED) -/
def execEvgWake (s : State) : Host.Outcome State Fault Refusal :=
  .next (s.run State.evgAwake)

end Sys2Proof.Machine
end

