-- ==== Sys2Proof/Machine/Dispatch.lean ====
section
/-! DEFINITION. The dispatch: one arm for each command, each one call of its meaning. -/
namespace Sys2Proof.Machine
open Sys2Proof

/-- The effect of a command on everything but the queue. -/
def exec (i : Instr) (s : State) : Host.Outcome State Fault Refusal :=
  match i with
  | .coldReset => Sys2Proof.Machine.execColdReset s
  | .rstNDeassert addrSel bootSel => Sys2Proof.Machine.execRstNDeassert addrSel bootSel s
  | .bootFuse read => Sys2Proof.Machine.execBootFuse read s
  | .bootRom crcOk => Sys2Proof.Machine.execBootRom crcOk s
  | .spiImageFetch flash => Sys2Proof.Machine.execSpiImageFetch flash s
  | .bootIcmdStart who => Sys2Proof.Machine.execBootIcmdStart who s
  | .bootIdataWrite who v => Sys2Proof.Machine.execBootIdataWrite who v s
  | .bootIcmdLoad who => Sys2Proof.Machine.execBootIcmdLoad who s
  | .bootAuth => Sys2Proof.Machine.execBootAuth s
  | .bootInit => Sys2Proof.Machine.execBootInit s
  | .bootTrainEnd => Sys2Proof.Machine.execBootTrainEnd s
  | .wrstNAssert => Sys2Proof.Machine.execWrstNAssert s
  | .warmResetFlushEnd => Sys2Proof.Machine.execWarmResetFlushEnd s
  | .wrstNDeassert => Sys2Proof.Machine.execWrstNDeassert s
  | .glbRstWarm who key => Sys2Proof.Machine.execGlbRstWarm who key s
  | .glbRstUmevo who key => Sys2Proof.Machine.execGlbRstUmevo who key s
  | .unlkNonce who => Sys2Proof.Machine.execUnlkNonce who s
  | .unlkDataWrite who v => Sys2Proof.Machine.execUnlkDataWrite who v s
  | .unlkVerify who => Sys2Proof.Machine.execUnlkVerify who s
  | .unlkVerifyDone => Sys2Proof.Machine.execUnlkVerifyDone s
  | .fuseRevoke who slot => Sys2Proof.Machine.execFuseRevoke who slot s
  | .testEnAssert => Sys2Proof.Machine.execTestEnAssert s
  | .supplyFault sup => Sys2Proof.Machine.execSupplyFault sup s
  | .vddPhyReturn => Sys2Proof.Machine.execVddPhyReturn s
  | .tempWarn temp => Sys2Proof.Machine.execTempWarn temp s
  | .tempTrip temp => Sys2Proof.Machine.execTempTrip temp s
  | .refclkLoss => Sys2Proof.Machine.execRefclkLoss s
  | .refclkReturn => Sys2Proof.Machine.execRefclkReturn s
  | .llPayloadRx p f => Sys2Proof.Machine.execLlPayloadRx p f s
  | .llIdleRx p f => Sys2Proof.Machine.execLlIdleRx p f s
  | .llNakRx p f => Sys2Proof.Machine.execLlNakRx p f s
  | .llInitRx p f => Sys2Proof.Machine.execLlInitRx p f s
  | .llDownNoticeRx p f => Sys2Proof.Machine.execLlDownNoticeRx p f s
  | .llDrainDone p => Sys2Proof.Machine.execLlDrainDone p s
  | .llAckDelayExpiry p => Sys2Proof.Machine.execLlAckDelayExpiry p s
  | .llNakResend p => Sys2Proof.Machine.execLlNakResend p s
  | .llReplayTimeout p => Sys2Proof.Machine.execLlReplayTimeout p s
  | .uciePhyRetrain p => Sys2Proof.Machine.execUciePhyRetrain p s
  | .llRetrainCmd p who => Sys2Proof.Machine.execLlRetrainCmd p who s
  | .ucieRetrainDone p rep => Sys2Proof.Machine.execUcieRetrainDone p rep s
  | .llRetrainTimeout p => Sys2Proof.Machine.execLlRetrainTimeout p s
  | .ucieTrainDone p rates rep => Sys2Proof.Machine.execUcieTrainDone p rates rep s
  | .ucieTrainFail p => Sys2Proof.Machine.execUcieTrainFail p s
  | .llLinkResetTimeout p => Sys2Proof.Machine.execLlLinkResetTimeout p s
  | .portReset p who => Sys2Proof.Machine.execPortReset p who s
  | .ucieLowPowerRequest p => Sys2Proof.Machine.execUcieLowPowerRequest p s
  | .vendorSidebandRx p bits => Sys2Proof.Machine.execVendorSidebandRx p bits s
  | .messageForward p m => Sys2Proof.Machine.execMessageForward p m s
  | .rdShared p m => Sys2Proof.Machine.execRdShared p m s
  | .rdUnique p m => Sys2Proof.Machine.execRdUnique p m s
  | .rdOnce p m => Sys2Proof.Machine.execRdOnce p m s
  | .rdNoSnp p m => Sys2Proof.Machine.execRdNoSnp p m s
  | .cleanUnique p m => Sys2Proof.Machine.execCleanUnique p m s
  | .makeUnique p m => Sys2Proof.Machine.execMakeUnique p m s
  | .evictClean p m => Sys2Proof.Machine.execEvictClean p m s
  | .wrBackFull p m => Sys2Proof.Machine.execWrBackFull p m s
  | .wrUnique p m => Sys2Proof.Machine.execWrUnique p m s
  | .wrPosted p m => Sys2Proof.Machine.execWrPosted p m s
  | .wrNt p m => Sys2Proof.Machine.execWrNt p m s
  | .wrNoSnp p m => Sys2Proof.Machine.execWrNoSnp p m s
  | .reserveRd p m => Sys2Proof.Machine.execReserveRd p m s
  | .condWr p m => Sys2Proof.Machine.execCondWr p m s
  | .atomicFar p m => Sys2Proof.Machine.execAtomicFar p m s
  | .gatherRd p m => Sys2Proof.Machine.execGatherRd p m s
  | .gatherRdFf p m => Sys2Proof.Machine.execGatherRdFf p m s
  | .scatterWr p m => Sys2Proof.Machine.execScatterWr p m s
  | .scatterWrFf p m => Sys2Proof.Machine.execScatterWrFf p m s
  | .gatherScatterComplete sl g => Sys2Proof.Machine.execGatherScatterComplete sl g s
  | .fenceW p m => Sys2Proof.Machine.execFenceW p m s
  | .fenceFull p m => Sys2Proof.Machine.execFenceFull p m s
  | .fenceFullComp p fence => Sys2Proof.Machine.execFenceFullComp p fence s
  | .postedWriteCommit p w => Sys2Proof.Machine.execPostedWriteCommit p w s
  | .clampAlloc p m => Sys2Proof.Machine.execClampAlloc p m s
  | .clampFree p m => Sys2Proof.Machine.execClampFree p m s
  | .lockAcq p m => Sys2Proof.Machine.execLockAcq p m s
  | .lockRel p m => Sys2Proof.Machine.execLockRel p m s
  | .barrierArrive p m => Sys2Proof.Machine.execBarrierArrive p m s
  | .clampSetPrio p m => Sys2Proof.Machine.execClampSetPrio p m s
  | .clampIngressRetry ls => Sys2Proof.Machine.execClampIngressRetry ls s
  | .snpRsp p m => Sys2Proof.Machine.execSnpRsp p m s
  | .snpRspData p m => Sys2Proof.Machine.execSnpRspData p m s
  | .compAck p m => Sys2Proof.Machine.execCompAck p m s
  | .settle p m => Sys2Proof.Machine.execSettle p m s
  | .ingressRetry sl ten => Sys2Proof.Machine.execIngressRetry sl ten s
  | .memData p m => Sys2Proof.Machine.execMemData p m s
  | .memCancelled p m => Sys2Proof.Machine.execMemCancelled p m s
  | .memWrAck p m => Sys2Proof.Machine.execMemWrAck p m s
  | .memOfferRsp p m => Sys2Proof.Machine.execMemOfferRsp p m s
  | .censusRsp p m => Sys2Proof.Machine.execCensusRsp p m s
  | .seizeAck p m => Sys2Proof.Machine.execSeizeAck p m s
  | .rcvInvRsp p m => Sys2Proof.Machine.execRcvInvRsp p m s
  | .regRd p m => Sys2Proof.Machine.execRegRd p m s
  | .regWr p m => Sys2Proof.Machine.execRegWr p m s
  | .intAck p m => Sys2Proof.Machine.execIntAck p m s
  | .idleHint p m => Sys2Proof.Machine.execIdleHint p m s
  | .latencyTolerance p m => Sys2Proof.Machine.execLatencyTolerance p m s
  | .latencyAckAfterWake ten => Sys2Proof.Machine.execLatencyAckAfterWake ten s
  | .timesyncRequestRx p m => Sys2Proof.Machine.execTimesyncRequestRx p m s
  | .timesyncResponseRx p m => Sys2Proof.Machine.execTimesyncResponseRx p m s
  | .timesyncInterval => Sys2Proof.Machine.execTimesyncInterval s
  | .snoopTimeoutOwner sl trk => Sys2Proof.Machine.execSnoopTimeoutOwner sl trk s
  | .snoopTimeoutSharer sl trk dst agg => Sys2Proof.Machine.execSnoopTimeoutSharer sl trk dst agg s
  | .censusSnoopTimeout sl trk a dst agg => Sys2Proof.Machine.execCensusSnoopTimeout sl trk a dst agg s
  | .recallCopyTimeout sl trk a dst => Sys2Proof.Machine.execRecallCopyTimeout sl trk a dst s
  | .settleTimeout sl trk => Sys2Proof.Machine.execSettleTimeout sl trk s
  | .seizeCloseTimeout sl trk => Sys2Proof.Machine.execSeizeCloseTimeout sl trk s
  | .compAckTimeout sl trk => Sys2Proof.Machine.execCompAckTimeout sl trk s
  | .memrdTimeout sl trk => Sys2Proof.Machine.execMemrdTimeout sl trk s
  | .memwrTimeout sl tag => Sys2Proof.Machine.execMemwrTimeout sl tag s
  | .memOfferTimeout sl tag => Sys2Proof.Machine.execMemOfferTimeout sl tag s
  | .companionFill sl trk => Sys2Proof.Machine.execCompanionFill sl trk s
  | .companionFillTimeout sl trk => Sys2Proof.Machine.execCompanionFillTimeout sl trk s
  | .windowEntryExpiry ls wset => Sys2Proof.Machine.execWindowEntryExpiry ls wset s
  | .rsvHoldTimeout sl a => Sys2Proof.Machine.execRsvHoldTimeout sl a s
  | .cwbTimeout p e => Sys2Proof.Machine.execCwbTimeout p e s
  | .sfScrubPass sl hard => Sys2Proof.Machine.execSfScrubPass sl hard s
  | .hcScrubPass sl hard => Sys2Proof.Machine.execHcScrubPass sl hard s
  | .sfRdselGo who sl v => Sys2Proof.Machine.execSfRdselGo who sl v s
  | .sfLooseClear who sl => Sys2Proof.Machine.execSfLooseClear who sl s
  | .hcDisableRequest who => Sys2Proof.Machine.execHcDisableRequest who s
  | .hcEnableRequest who => Sys2Proof.Machine.execHcEnableRequest who s
  | .hcDrainComplete => Sys2Proof.Machine.execHcDrainComplete s
  | .hcmMopClean who v => Sys2Proof.Machine.execHcmMopClean who v s
  | .hcmMopCleanInv who v => Sys2Proof.Machine.execHcmMopCleanInv who v s
  | .hcmMopInvClean who v => Sys2Proof.Machine.execHcmMopInvClean who v s
  | .hcmRngClean who v => Sys2Proof.Machine.execHcmRngClean who v s
  | .hcmRngCleanInv who v => Sys2Proof.Machine.execHcmRngCleanInv who v s
  | .hcmRngInvClean who v => Sys2Proof.Machine.execHcmRngInvClean who v s
  | .hcmRngAbort who => Sys2Proof.Machine.execHcmRngAbort who s
  | .rangeEngineSet sl ctx => Sys2Proof.Machine.execRangeEngineSet sl ctx s
  | .sliceFault sl cause => Sys2Proof.Machine.execSliceFault sl cause s
  | .hcScanoutDone sl => Sys2Proof.Machine.execHcScanoutDone sl s
  | .sfScanoutDone sl => Sys2Proof.Machine.execSfScanoutDone sl s
  | .scanoutStall sl => Sys2Proof.Machine.execScanoutStall sl s
  | .evictionHoldEnd sl => Sys2Proof.Machine.execEvictionHoldEnd sl s
  | .censusSetStart sl => Sys2Proof.Machine.execCensusSetStart sl s
  | .migStart who v => Sys2Proof.Machine.execMigStart who v s
  | .migAutoStart sl => Sys2Proof.Machine.execMigAutoStart sl s
  | .migAbort who => Sys2Proof.Machine.execMigAbort who s
  | .migLimitWrite who v => Sys2Proof.Machine.execMigLimitWrite who v s
  | .migCopyUnit => Sys2Proof.Machine.execMigCopyUnit s
  | .migHandoverComplete => Sys2Proof.Machine.execMigHandoverComplete s
  | .replaceRequestPeriodic => Sys2Proof.Machine.execReplaceRequestPeriodic s
  | .lossLogNext who => Sys2Proof.Machine.execLossLogNext who s
  | .dmonStart who sl => Sys2Proof.Machine.execDmonStart who sl s
  | .dmonClrMin who sl => Sys2Proof.Machine.execDmonClrMin who sl s
  | .dmonAutoDue sl => Sys2Proof.Machine.execDmonAutoDue sl s
  | .dmonMeasureEnd sl count => Sys2Proof.Machine.execDmonMeasureEnd sl count s
  | .ageingDue sl => Sys2Proof.Machine.execAgeingDue sl s
  | .ageingEnd sl speed fresh => Sys2Proof.Machine.execAgeingEnd sl speed fresh s
  | .hprobeGo who v => Sys2Proof.Machine.execHprobeGo who v s
  | .hprobeDone => Sys2Proof.Machine.execHprobeDone s
  | .clampBreak who sl idx => Sys2Proof.Machine.execClampBreak who sl idx s
  | .clampHselGo who sl idx => Sys2Proof.Machine.execClampHselGo who sl idx s
  | .tenantResetGo who ten => Sys2Proof.Machine.execTenantResetGo who ten s
  | .tenantDrain ten => Sys2Proof.Machine.execTenantDrain ten s
  | .tenantInvalidate ten => Sys2Proof.Machine.execTenantInvalidate ten s
  | .tenantClean ten => Sys2Proof.Machine.execTenantClean ten s
  | .tenantRevoke ten => Sys2Proof.Machine.execTenantRevoke ten s
  | .tenantClear ten => Sys2Proof.Machine.execTenantClear ten s
  | .tenantStepEnd ten => Sys2Proof.Machine.execTenantStepEnd ten s
  | .stgAlloc who ten => Sys2Proof.Machine.execStgAlloc who ten s
  | .stgFree who ten h => Sys2Proof.Machine.execStgFree who ten h s
  | .stgLoad who ten h => Sys2Proof.Machine.execStgLoad who ten h s
  | .stgDataAccess who ten wr => Sys2Proof.Machine.execStgDataAccess who ten wr s
  | .overlayValidated => Sys2Proof.Machine.execOverlayValidated s
  | .eventTaken src => Sys2Proof.Machine.execEventTaken src s
  | .vectorCoalTimeout vec => Sys2Proof.Machine.execVectorCoalTimeout vec s
  | .interruptResend vec => Sys2Proof.Machine.execInterruptResend vec s
  | .evgAck who vec => Sys2Proof.Machine.execEvgAck who vec s
  | .evgFlush who vec => Sys2Proof.Machine.execEvgFlush who vec s
  | .evgVcoalWrite who vec v => Sys2Proof.Machine.execEvgVcoalWrite who vec v s
  | .evgRetain => Sys2Proof.Machine.execEvgRetain s
  | .evgWake => Sys2Proof.Machine.execEvgWake s
  | .cwdKeyA who key => Sys2Proof.Machine.execCwdKeyA who key s
  | .cwdKeyB who key => Sys2Proof.Machine.execCwdKeyB who key s
  | .cwdCtlWrite who v => Sys2Proof.Machine.execCwdCtlWrite who v s
  | .cwdRejectedWrite who off => Sys2Proof.Machine.execCwdRejectedWrite who off s
  | .cwdExpiry => Sys2Proof.Machine.execCwdExpiry s
  | .healthyIntervalEnd => Sys2Proof.Machine.execHealthyIntervalEnd s
  | .swdService who key => Sys2Proof.Machine.execSwdService who key s
  | .swdExpiry => Sys2Proof.Machine.execSwdExpiry s
  | .swdHardTimerEnd => Sys2Proof.Machine.execSwdHardTimerEnd s
  | .timSetGo who ep => Sys2Proof.Machine.execTimSetGo who ep s
  | .timNowRead who => Sys2Proof.Machine.execTimNowRead who s
  | .ppsEdge => Sys2Proof.Machine.execPpsEdge s
  | .ppsMiss => Sys2Proof.Machine.execPpsMiss s
  | .sliceIdleTimeout sl => Sys2Proof.Machine.execSliceIdleTimeout sl s
  | .powerEntryDone sl => Sys2Proof.Machine.execPowerEntryDone sl s
  | .sliceExitDone sl => Sys2Proof.Machine.execSliceExitDone sl s
  | .voltageEvaluation => Sys2Proof.Machine.execVoltageEvaluation s
  | .stallDetected unit => Sys2Proof.Machine.execStallDetected unit s
  | .comparatorMismatch unit => Sys2Proof.Machine.execComparatorMismatch unit s
  | .trackerAgeExceeded sl trk => Sys2Proof.Machine.execTrackerAgeExceeded sl trk s
  | .latentTest unit test pass => Sys2Proof.Machine.execLatentTest unit test pass s
  | .pinReadbackMismatch => Sys2Proof.Machine.execPinReadbackMismatch s
  | .safCmdEnter who key => Sys2Proof.Machine.execSafCmdEnter who key s
  | .safLogNext who => Sys2Proof.Machine.execSafLogNext who s
  | .jigArm who ch v => Sys2Proof.Machine.execJigArm who ch v s
  | .jigDisarm who ch => Sys2Proof.Machine.execJigDisarm who ch s
  | .jigDisarmAll who => Sys2Proof.Machine.execJigDisarmAll who s
  | .jigReorderTimeout p => Sys2Proof.Machine.execJigReorderTimeout p s
  | .i3cPrivateWrite x => Sys2Proof.Machine.execI3cPrivateWrite x s
  | .i3cPrivateRead i2c addr n => Sys2Proof.Machine.execI3cPrivateRead i2c addr n s
  | .entdaa won da => Sys2Proof.Machine.execEntdaa won da s
  | .setdasa at_ da => Sys2Proof.Machine.execSetdasa at_ da s
  | .setnewda at_ da => Sys2Proof.Machine.execSetnewda at_ da s
  | .rstdaa => Sys2Proof.Machine.execRstdaa s
  | .getpid at_ => Sys2Proof.Machine.execGetpid at_ s
  | .getbcr at_ => Sys2Proof.Machine.execGetbcr at_ s
  | .getdcr at_ => Sys2Proof.Machine.execGetdcr at_ s
  | .getstatus at_ => Sys2Proof.Machine.execGetstatus at_ s
  | .enec at_ => Sys2Proof.Machine.execEnec at_ s
  | .disec at_ => Sys2Proof.Machine.execDisec at_ s
  | .jtagExtest bits => Sys2Proof.Machine.execJtagExtest bits s
  | .jtagSamplePreload bits => Sys2Proof.Machine.execJtagSamplePreload bits s
  | .jtagIdcode => Sys2Proof.Machine.execJtagIdcode s
  | .jtagClamp => Sys2Proof.Machine.execJtagClamp s
  | .jtagHighz => Sys2Proof.Machine.execJtagHighz s
  | .umvHalt => Sys2Proof.Machine.execUmvHalt s
  | .umvResume => Sys2Proof.Machine.execUmvResume s
  | .umvMem rq => Sys2Proof.Machine.execUmvMem rq s
  | .jtagBypass code => Sys2Proof.Machine.execJtagBypass code s
  | .trstNAssert => Sys2Proof.Machine.execTrstNAssert s
  | .registerWrite who off v => Sys2Proof.Machine.execRegisterWrite who off v s
  | .flitClock p => Sys2Proof.Machine.execFlitClock p s
  | .unexpectedMessage p m => Sys2Proof.Machine.execUnexpectedMessage p m s
  | .ucieSidebandRegAccess p wr a v => Sys2Proof.Machine.execUcieSidebandRegAccess p wr a v s
  | .testEnDeassert => Sys2Proof.Machine.execTestEnDeassert s
  | .hcScanoutTimeout sl => Sys2Proof.Machine.execHcScanoutTimeout sl s
  | .sfEntryReadDone sl => Sys2Proof.Machine.execSfEntryReadDone sl s
  | .clampEntryReadDone sl => Sys2Proof.Machine.execClampEntryReadDone sl s
  | .umevoSramError => Sys2Proof.Machine.execUmevoSramError s
  | .unlistedCcc code at_ => Sys2Proof.Machine.execUnlistedCcc code at_ s
  | .hdrExitPattern => Sys2Proof.Machine.execHdrExitPattern s

end Sys2Proof.Machine
end

