-- ==== Sys2Proof/Safety.lean ====
section
/-!
DEFINITION. What a safe run is, and what every step keeps: the registers that the chip hard-wires, the canonical form of the
arrays of the state, the rule of SAFE_N, the legal lifecycle states and the capacities of the logs and event queues.
-/
namespace Sys2Proof.Machine

/-- The outcome is a next state. -/
def completes (o : Host.Outcome State Fault Refusal) : Prop := ∃ t, o = .next t

/-- A run of `n` steps from `s` meets no fault and no refusal. -/
def runsSafely : Nat → State → Prop
  | 0, _ => True
  | n + 1, s => ∃ t, step s = .next t ∧ runsSafely n t

/-- The state in which a command on `s` leaves the chiplet, when its own effect leaves it in `u`: the reactions to that effect,
what holds at the end of every command, and Umevo's log of what the command has brought about (17 R631). -/
def State.after (s u : State) : State := s.logAll u.settle

/-- Register address `a` takes the accesses of party `who` (15 R579, 21 R730, R738, R750): RST_N is deasserted, the path is
served, the party has its rights and the block of `a` is served. -/
def State.takes (s : State) (who : Party) (a : Nat) : Prop :=
  s.shut who = false ∧ s.mayAccess who = true ∧ a % 4 = 0 ∧ s.served a = true

/-- Message `m` reaches port `p` and passes the checks (05 R192), and if it is a request the ingress store has room. -/
def State.admits (s : State) (p : Nat) (m : Msg) : Prop :=
  s.boot.rstN = false ∧ s.arrives p m = true ∧ (s.present p m).verdict p m = .pass ∧
    (opClass m.op = 0 → (s.present p m).ingressOk p m = true)

/-- The state in which message `m` has been taken out of the receive buffer of port `p` (05 R171). -/
def State.heard (s : State) (p : Nat) (m : Msg) : State := (s.present p m).consume p m

/-- In state `u` message `m` waits at the port on which state `s` routes it. -/
def State.sends (s u : State) (m : Msg) : Prop := ∀ d, s.routeTo m.dst = some d → m ∈ (u.port d).tx

/-- No write waits in a combining buffer that a request could flush. -/
def State.uncombined (s : State) : Prop := ∀ p, p < 12 → (s.port p).cwb = []

/-- The window of logical slice `l` takes the request as a new one, and nothing waits to be flushed (07 R265, R269). -/
def State.takesNew (s : State) (l : Nat) (m : Msg) : Prop :=
  s.uncombined ∧ s.jig = [] ∧ s.winSlice m = l ∧ s.winAsk l m = .go false

/-- GLB_ID and GLB_VERSION hold what the chip hard-wires, and so do the fields of GLB_CAPS other than ACTIVE (21 R748). -/
def State.idsHold (s : State) : Prop :=
  s.word 0x000 = 0xAE171620 ∧ s.word 0x004 = 0x01000101 ∧ getBits (s.word 0x008) 16 16 = 0x7F0C ∧ getBits (s.word 0x008) 0 8 = 18

/-- Every array of the state stands in its canonical form. -/
structure State.ArraysWf (s : State) : Prop where
  regs : SpCanon regInit s.regs
  cur : SpCanon (fun _ => (false, false)) s.cur
  roles : SpCanon (fun _ => SliceRole.active) s.roles
  logic : SpCanon (fun _ => LogSlice.zero) s.logic
  moved : SpCanon (fun _ => (none : Option Nat)) s.moved
  ports : SpCanon (fun _ => Port.zero) s.ports
  slices : SpCanon (fun _ => Slice.zero) s.slices
  wins : SpCanon (fun _ => ([] : Sp (List WEntry))) s.wins
  banks : SpCanon (fun _ => Bank.zero) s.banks
  sources : SpCanon (fun _ => EvSource.zero) s.sources
  vectors : SpCanon (fun _ => EvVector.zero) s.vectors
  jig : SpCanon (fun _ => (none : Option JigRun)) s.jig

/-- SAFE_N is deasserted only while READY is 1 and the safe state is not in force (15 R594, 19 R703). -/
def State.pinRule (s : State) : Prop := s.safePin = false → s.ready = true ∧ s.isSafe = false

/-- The registers stand in canonical form and the lifecycle state is one of the three (15 R582). -/
def State.lcLegal (s : State) : Prop := SpCanon regInit s.regs ∧ s.lifecycle ≤ 2

/-- No event source holds more than 16 events (16 R609). -/
def State.queuesFit (s : State) : Prop := ∀ e ∈ s.sources, e.2.q.length ≤ 16

end Sys2Proof.Machine
end

