-- ==== Sys2Proof/Certificates/Slice0/Obligations.lean ====
section
/-!
DEFINITION. The statements about the chiplet that are to be proved: what each command does where it has its own effect, where it
waits or is refused, and what every step keeps. The rules of the spec stand in each statement's comment.
-/
open Sys2Proof Sys2Proof.Machine

/-- Addressing and the common command codes of the I3C target (21 R731, R732): each command completes with exactly the effect of its row
of the table, and nothing else of the state changes. A command to another address gets no acknowledgement, and the HDR Exit Pattern ends
the transfers that the target ignores.
Where it goes beyond the words of the rules it says what the model chooses: log entries 28, 29 and 30. -/
def Obligations.I3cCommonCodes : Prop :=
  (∀ s : State, s.listens = true →
    (∀ da, s.da = none → exec (.entdaa true da) s =
      .next ((s.setFlag F.GLB_I3C_STATUS_DAVALID true).fset F.GLB_I3C_STATUS_DA da.toNat)) ∧
    (∀ won da, (won = false ∨ s.da ≠ none) → exec (.entdaa won da) s = .next s) ∧
    (∀ da, exec (.setdasa s.sa da) s =
      .next (((s.setFlag F.GLB_I3C_STATUS_DAVALID true).fset F.GLB_I3C_STATUS_DA da.toNat).reply (some []))) ∧
    (∀ a da, s.da = some a → exec (.setnewda a da) s =
      .next (((s.setFlag F.GLB_I3C_STATUS_DAVALID true).fset F.GLB_I3C_STATUS_DA da.toNat).reply (some []))) ∧
    exec .rstdaa s = .next ((s.setFlag F.GLB_I3C_STATUS_DAVALID false).fset F.GLB_I3C_STATUS_DA 0) ∧
    (∀ a, s.da = some a →
      exec (.getpid a) s = .next (s.reply (some [0x0B, 0x46, 0x07, 0x16,
        BitVec.ofNat 8 (16 * s.fget F.GLB_BOOT_STATUS_ADDR_SEL), 0x00])) ∧
      exec (.getbcr a) s = .next (s.reply (some [0x00])) ∧
      exec (.getdcr a) s = .next (s.reply (some [0x00])) ∧
      exec (.getstatus a) s = .next { s with boot := { s.boot with
        out3 := some [0x00, if s.boot.parity3 then 0x20 else 0x00], parity3 := false } } ∧
      exec (.enec (some a)) s = .next (s.reply (some [])) ∧
      exec (.disec (some a)) s = .next (s.reply (some []))) ∧
    exec (.enec none) s = .next s ∧ exec (.disec none) s = .next s ∧
    (∀ code a, exec (.unlistedCcc code (some a)) s = .next (s.reply none)) ∧
    (∀ code : Byte, code.toNat < 0x20 ∨ 0x28 ≤ code.toNat → exec (.unlistedCcc code none) s = .next s) ∧
    (∀ a da, s.da ≠ some a → exec (.getpid a) s = .next (s.reply none) ∧ exec (.setnewda a da) s = .next (s.reply none))) ∧
  (∀ s : State, s.boot.rstN = false →
    exec .hdrExitPattern s = .next { s with boot := { s.boot with hdr3 := false } } ∧
    ({ s with boot := { s.boot with hdr3 := false } } : State).listens = true ∧
    (∀ code : Byte, 0x20 ≤ code.toNat ∧ code.toNat < 0x28 → s.boot.hdr3 = false → ∃ t, exec (.unlistedCcc code none) s = .next t ∧
      t.listens = false ∧ ∀ a n, exec (.i3cPrivateRead false a n) t = .next (t.reply none)))

/-- Register accesses over I3C (21 R734): what a private write does that sets the pointer, one that writes a register, one with a
misaligned OFFSET, and what a private read of one register returns.
Where it goes beyond the words of the rules it says what the model chooses: log entries 27 and 28. -/
def Obligations.I3cTransfers : Prop :=
  ∀ (s : State) (i2c : Bool) (addr : BitVec 7), s.answers i2c addr = true →
    (∀ (c o0 o1 o2 : Byte), c.getLsbD 7 = false → o0.extractLsb' 0 2 = 0 →
      exec (.i3cPrivateWrite ⟨i2c, addr, [c, o0, o1, o2], none⟩) s = .next { s with boot := { s.boot with
        out3 := some [], ptr3 := o2 ++ o1 ++ o0, id3 := c.extractLsb' 0 7, bad3 := false } }) ∧
    (∀ (c o0 o1 o2 v0 v1 v2 v3 : Byte), c.getLsbD 7 = true → o0.extractLsb' 0 2 = 0 →
      ∃ u : State, u = { s with boot := { s.boot with
          out3 := some [], ptr3 := o2 ++ o1 ++ o0, id3 := c.extractLsb' 0 7, bad3 := false } } ∧
        exec (.i3cPrivateWrite ⟨i2c, addr, [c, o0, o1, o2, v0, v1, v2, v3], none⟩) s =
          .next (u.after ((u.regWrite (.i3c (c.extractLsb' 0 7)) (o2 ++ o1 ++ o0 : BitVec 24).toNat
            (v3 ++ v2 ++ v1 ++ v0)).modBoot (fun b => { b with ptr3 := b.ptr3 + 4 })))) ∧
    (∀ (c o0 o1 o2 : Byte) (data : List Byte), o0.extractLsb' 0 2 ≠ 0 →
      ∃ u : State, u = { s with boot := { s.boot with
          out3 := some [], ptr3 := o2 ++ o1 ++ o0, id3 := c.extractLsb' 0 7, bad3 := true } } ∧
        exec (.i3cPrivateWrite ⟨i2c, addr, c :: o0 :: o1 :: o2 :: data, none⟩) s =
          .next (u.accErr (.i3c (c.extractLsb' 0 7)) 3 (o2 ++ o1 ++ o0 : BitVec 24).toNat)) ∧
    (s.boot.bad3 = false → s.served s.boot.ptr3.toNat = true → s.boot.ptr3 ≠ 0x4008 → s.boot.ptr3.toNat < 0x40000 →
      exec (.i3cPrivateRead i2c addr 4) s = .next { s with boot := { s.boot with
        out3 := some (wordOut (s.look s.boot.ptr3.toNat)), ptr3 := s.boot.ptr3 + 4 } }) ∧
    (s.boot.bad3 = true → exec (.i3cPrivateRead i2c addr 4) s = .next { s with boot := { s.boot with
        out3 := some [0, 0, 0, 0], ptr3 := s.boot.ptr3 + 4 } })

/-- The TAP (22 R766, R767): what each code selects and its data register shows; EXTEST, CLAMP and HIGHZ act while WRST_N is
asserted and are BYPASS otherwise, the DEBUG instructions are BYPASS in every other lifecycle state, and every code of no row is
BYPASS.
Where it goes beyond the words of the rules it says what the model chooses: log entries 6, 16, 18 and 19. -/
def Obligations.TapInstructions : Prop :=
  ∀ s : State,
    exec .jtagIdcode s = .next { s with boot := { s.boot with ir := 0x02, dr := 0x20716B47 } } ∧
    exec .trstNAssert s = .next { s with boot := { s.boot with ir := 0x02, dr := 0x20716B47 } } ∧
    (∀ bits, exec (.jtagSamplePreload bits) s = .next { s with fresh := s.fresh + 1, boot := { s.boot with
      ir := 0x01, bsr := bits, dr := Config.openWord s.fresh } }) ∧
    (s.boot.wrstN = true →
      (∀ bits, exec (.jtagExtest bits) s = .next { s with boot := { s.boot with ir := 0x00, bsr := bits, dr := 0 } }) ∧
      exec .jtagClamp s = .next { s with boot := { s.boot with ir := 0x03, dr := 0 } } ∧
      exec .jtagHighz s = .next { s with boot := { s.boot with ir := 0x04, dr := 0 } }) ∧
    (s.boot.wrstN = false →
      (∀ bits, exec (.jtagExtest bits) s = .next { s with boot := { s.boot with ir := 0xFF, dr := 0 } }) ∧
      exec .jtagClamp s = .next { s with boot := { s.boot with ir := 0xFF, dr := 0 } } ∧
      exec .jtagHighz s = .next { s with boot := { s.boot with ir := 0xFF, dr := 0 } }) ∧
    (∀ code : BitVec 8, 4 < code.toNat → (code.toNat < 0x20 ∨ 0x22 < code.toNat) →
      exec (.jtagBypass code) s = .next { s with boot := { s.boot with ir := code, dr := 0 } }) ∧
    (s.lifecycle ≠ 1 →
      exec .umvHalt s = .next (s.after { s with boot := { s.boot with ir := 0xFF, dr := 0 } }) ∧
      exec .umvResume s = .next (s.after { s with boot := { s.boot with ir := 0xFF, dr := 0 } }) ∧
      (∀ rq, exec (.umvMem rq) s = .next (s.after { s with boot := { s.boot with ir := 0xFF, dr := 0 } })))

/-- The debug access to Umevo in lifecycle state DEBUG (17 R645, 22 R767): the halt freezes the CWD, the release lets it count on from
where it stood, and UMV_MEM reads the ROM. The address bits and the word are where R767 puts them.
Where it goes beyond the words of the rules it says what the model chooses: log entries 17 and 18. -/
def Obligations.UmevoDebug : Prop :=
  ∀ s : State, s.lifecycle = 1 →
    (s.umv.halted = false → s.fget F.WDG_UMV_STATUS_STATE ≠ 1 →
      exec .umvHalt s = .next (s.after
        { ({ s with umv := { s.umv with halted := true, frozen := some s.now } } : State).fset F.WDG_UMV_STATUS_STATE 2 with
          boot := { s.boot with ir := 0x20, dr := 1 } })) ∧
    (∀ f, s.umv.halted = true → s.umv.frozen = some f → s.umv.trap = false →
      exec .umvResume s = .next (s.after
        { ({ s with umv := { s.umv with halted := false, frozen := none, start := s.umv.start + (s.now - f) } } : State).fset F.WDG_UMV_STATUS_STATE 0 with
          boot := { s.boot with ir := 0x21, dr := 0 } })) ∧
    (∀ rq : BitVec 64, (rq.extractLsb' 0 32).toNat < 0x10000 →
      exec (.umvMem rq) s = .next (s.after { s with boot := { s.boot with
        ir := 0x22, dr := Config.romWord ((rq.extractLsb' 0 32).toNat / 4) ++ rq.extractLsb' 0 32 } }))

/-- The cold reset and the end of RST_N (15 R576, R578, R586, R591 step 1): what a cold reset leaves, and what boot step 1 does.
Where it goes beyond the words of the rules it says what the model chooses: log entries 3, 4, 6 and 19. -/
def Obligations.ColdResetAndStraps : Prop :=
  (∀ s : State, ∃ t, exec .coldReset s = .next t ∧ (∀ a, t.word a = regInit a) ∧ t.boot.rstN = true ∧ t.safePin = true ∧
    t.lifecycle = 0 ∧ t.ports = [] ∧ t.slices = [] ∧ t.log = [] ∧ t.pat = Pattern.none ∧ t.umv = Umv.zero ∧
    t.boot.blown = s.boot.blown ∧ t.pending = s.pending) ∧
  (∀ (s : State) (sel : BitVec 3) (src : Bool), s.boot.rstN = true → ∃ t, exec (.rstNDeassert sel src) s = .next t ∧
    t.boot.rstN = false ∧ t.boot.since = s.now ∧ t.fget F.GLB_BOOT_STATUS_ADDR_SEL = sel.toNat ∧
    t.flag F.GLB_BOOT_STATUS_BOOT_SEL = src ∧ t.fget F.GLB_I3C_STATUS_STATIC = 0x50 + sel.toNat ∧
    t.fget F.GLB_BOOT_STATUS_STEP = 2 ∧ t.umv.start = s.now ∧ t.safePin = s.safePin ∧ t.now = s.now ∧
    (∀ a, a ≠ 0x200 → a ≠ 0x110 → t.word a = s.word a)) ∧
  (∀ (s : State) (sel : BitVec 3) (src : Bool), s.boot.rstN = false → exec (.rstNDeassert sel src) s = .next s)

/-- The boot steps 2 to 8 (15 R591 to R595): each command completes the step in which the boot stands, moves GLB_BOOT_STATUS.STEP and
records what the step decides.
Where it goes beyond the words of the rules it says what the model chooses: log entries 31, 32, 33 and 77. -/
def Obligations.BootSteps : Prop :=
  (∀ (s : State) (read : FuseRead), s.bootIn 2 = true → exec (.bootFuse read) s = .next (s.after (s.bootFuse read)) ∧
    (s.bootFuse read).fget F.GLB_BOOT_STATUS_STEP = 3 ∧ (s.bootFuse read).boot.fuses = fusesOf read s.boot.blown) ∧
  (∀ s : State, s.bootIn 3 = true → s.umevoRuns = true →
    exec (.bootRom true) s = .next (s.after (s.bootRom true)) ∧ (s.bootRom true).fget F.GLB_BOOT_STATUS_STEP = 4 ∧
    (s.bootRom true).fget F.GLB_BOOT_STATUS_SOURCE = (if s.flag F.GLB_BOOT_STATUS_BOOT_SEL then 3 else 1) ∧
    (s.bootRom true).boot = { s.boot with image := [], ptr := 0, bytes := 0 } ∧
    exec (.bootRom false) s = .next (s.after (s.bootRom false)) ∧ (s.bootRom false).flag F.GLB_BOOT_STATUS_FAIL = true ∧
    (s.bootRom false).fget F.GLB_BOOT_STATUS_CODE = 1 ∧ (s.bootRom false).fget F.GLB_BOOT_STATUS_STEP = 3 ∧
    (s.bootRom false).flag F.SAF_FAULT_BOOT_FAIL = true ∧ (s.bootRom false).safePin = s.safePin) ∧
  (∀ (s : State) (flash : SpiFlash), s.bootIn 4 = true → s.umevoRuns = true → s.fget F.GLB_BOOT_STATUS_SOURCE = 1 →
    flash.answers = false → exec (.spiImageFetch flash) s = .next (s.after (s.spiFetch flash)) ∧
    (s.spiFetch flash).flag F.GLB_BOOT_SPI_FAIL = true ∧ (s.spiFetch flash).fget F.GLB_BOOT_STATUS_STEP = 4 ∧
    (s.spiFetch flash).fget F.GLB_BOOT_STATUS_SOURCE = 2) ∧
  (∀ s : State, s.bootIn 5 = true → s.umevoRuns = true →
    exec .bootAuth s = .next (s.after s.bootAuth) ∧ s.bootAuth.fget F.PAT_STATUS_LOADER = 0 ∧
    match baseErr s.boot.fuses s.lifecycle s.boot.bytes (wordBytes ((s.boot.bytes + 3) / 4) s.boot.image) with
    | none => s.bootAuth.fget F.GLB_BOOT_STATUS_STEP = 6 ∧ s.bootAuth.boot.accepted.isSome = true ∧
        s.bootAuth.flag F.SAF_FAULT_SPI_BAD = false
    | some e => s.bootAuth.fget F.GLB_BOOT_STATUS_STEP = 4 ∧ s.bootAuth.flag F.PAT_ERR_VALID = true ∧
        s.bootAuth.flag F.PAT_ERR_KIND = false ∧ s.bootAuth.fget F.PAT_ERR_CODE = e.code % 256 ∧
        s.bootAuth.boot.accepted = s.boot.accepted ∧
        (s.fget F.GLB_BOOT_STATUS_SOURCE = 1 → s.bootAuth.fget F.GLB_BOOT_STATUS_SOURCE = 2) ∧
        (s.fget F.GLB_BOOT_STATUS_SOURCE = 2 → s.bootAuth.fget F.GLB_BOOT_STATUS_SOURCE = 3 ∧
          s.bootAuth.flag F.SAF_FAULT_SPI_BAD = true)) ∧
  (∀ (s : State) (a : Accepted), s.bootIn 6 = true → s.umevoRuns = true → s.boot.accepted = some a →
    exec .bootInit s = .next (s.after s.bootInit) ∧ s.bootInit.fget F.GLB_BOOT_STATUS_STEP = 7 ∧
    s.bootInit.flag F.PAT_STATUS_SEALED = true ∧ s.bootInit.flag F.GLB_HOME_VALID = true ∧
    s.bootInit.fget F.WDG_UMV_STATUS_ROLE = 1) ∧
  (∀ s : State, s.bootIn 7 = true → s.boot.phyOut = false → exec .bootTrainEnd s = .next (s.after s.bootTrainEnd) ∧
    s.bootTrainEnd.ready = true ∧ s.bootTrainEnd.fget F.GLB_BOOT_STATUS_STEP = 8 ∧ s.bootTrainEnd.safePin = s.isSafe ∧
    s.bootTrainEnd.flag F.GLB_BOOT_TIME_VALID = true)

/-- Delivery of the image over I3C (15 R593, R597): START, IDATA and LOAD act while the boot stands in step 4 with SOURCE 0b11, and are
without effect otherwise.
Where it goes beyond the words of the rules it says what the model chooses: log entry 33. -/
def Obligations.ImageDelivery : Prop :=
  ∀ (s : State) (who : Party) (v : Word),
    (s.i3cBoot = true → s.takes who 0x20C →
      exec (.bootIcmdStart who) s = .next (s.after { s with boot := { s.boot with ptr := 0 } }) ∧
      exec (.bootIcmdLoad who) s = .next (s.after ((State.fset { s with boot := { s.boot with bytes := 4 * s.boot.ptr } }
        F.PAT_STATUS_LOADER 1).fset F.GLB_BOOT_STATUS_STEP 5))) ∧
    (s.i3cBoot = true → s.takes who 0x210 → s.boot.ptr < 65536 →
      exec (.bootIdataWrite who v) s = .next (s.after { s with boot := { s.boot with
        image := spSet 0 s.boot.image s.boot.ptr v, ptr := s.boot.ptr + 1 } })) ∧
    (s.i3cBoot = true → s.takes who 0x210 → 65536 ≤ s.boot.ptr → exec (.bootIdataWrite who v) s = .next (s.after s)) ∧
    (s.i3cBoot = false → s.takes who 0x20C → exec (.bootIcmdStart who) s = .next (s.after s) ∧
      exec (.bootIcmdLoad who) s = .next (s.after s)) ∧
    (s.i3cBoot = false → s.takes who 0x210 → exec (.bootIdataWrite who v) s = .next (s.after s))

/-- The warm reset (15 R585, R588, R589, R598; 22 R761, R763): what triggers it, what its entry does, and what its end leaves.
Where it goes beyond the words of the rules it says what the model chooses: log entry 76. -/
def Obligations.WarmResetSequence : Prop :=
  (∀ s : State, s.boot.wrstN = false → exec .wrstNAssert s = .next (s.after
    (State.warmReset { s with boot := { s.boot with wrstN := true } }))) ∧
  (∀ s : State, s.boot.testEn = false → exec .testEnAssert s = .next (s.after
    (State.warmReset { s with boot := { s.boot with testEn := true } }))) ∧
  (∀ (s : State) (who : Party), who ≠ .umevoU → s.takes who 0x220 →
    exec (.glbRstWarm who 0xB007) s = .next (s.after (s.react .warm)) ∧
    (∀ key, key ≠ 0xB007 → exec (.glbRstWarm who key) s = .next (s.after s))) ∧
  (∀ s : State, s.boot.rstN = false → s.boot.flushBy = none → (∀ k, (s.slice k).hc = []) →
    s.warmReset.safePin = true ∧ s.warmReset.ready = false ∧ s.warmReset.boot.flushBy = some (s.now + msec 2) ∧
    s.warmReset.boot.since = s.now ∧ s.warmReset.fget F.WDG_UMV_STATUS_STATE = 1 ∧ s.warmReset.mig = none ∧
    s.warmReset.barriers = [] ∧ (∀ k, k < 18 → (s.warmReset.slice k).trk = [] ∧ (s.warmReset.slice k).ingress = [])) ∧
  (∀ s : State, s.boot.flushBy ≠ none ∨ s.boot.rstN = true → s.warmReset = s) ∧
  (∀ (s : State) (by_ : Time), s.boot.rstN = false → s.boot.flushBy = some by_ →
    exec .warmResetFlushEnd s = .next (s.after s.warmFlushEnd) ∧ s.warmFlushEnd.fget F.GLB_BOOT_STATUS_STEP = 2 ∧
    s.warmFlushEnd.boot.flushBy = none ∧ s.warmFlushEnd.fget F.GLB_RST_CAUSE_CAUSE = 2 ∧ s.warmFlushEnd.safePin = true ∧
    s.warmFlushEnd.flag F.GLB_UNLK_STATUS_PEND = false ∧ s.warmFlushEnd.pat = Pattern.none) ∧
  (∀ s : State, exec .testEnDeassert s = .next { s with boot := { s.boot with testEn := false } }) ∧
  (∀ s : State, s.boot.ir ≠ 0x00 → s.boot.ir ≠ 0x03 → s.boot.ir ≠ 0x04 →
    exec .wrstNDeassert s = .next { s with boot := { s.boot with wrstN := false } }) ∧
  (∀ s : State, s.boot.ir = 0x00 ∨ s.boot.ir = 0x03 ∨ s.boot.ir = 0x04 →
    exec .wrstNDeassert s = .next { s with boot := { s.boot with wrstN := false, ir := 0xFF, dr := 0 } })

/-- The unlock of DEBUG, the revocation of a key slot and the reset of Umevo (15 R581, R583, R588, R590): who may command them,
and their effect.
Where it goes beyond the words of the rules it says what the model chooses: log entries 13, 22 and 77. -/
def Obligations.UnlockAndFuses : Prop :=
  (∀ (s : State) (who : Party), s.takes who 0x264 →
    exec (.unlkNonce who) s = .next (s.after { s with fresh := s.fresh + 1, boot := { s.boot with
      nonce := some (Config.nonce s.fresh), recPtr := 0 } }) ∧
    exec (.unlkVerify who) s = .next (s.after (State.setFlag { s with boot := { s.boot with unlk := some s.unlkResult } }
      F.GLB_UNLK_STATUS_BUSY true)) ∧
    (s.boot.nonce = none → s.unlkResult = 5) ∧
    (s.boot.nonce ≠ none → s.lifecycle = 2 → s.unlkResult = 2)) ∧
  (∀ (s : State) (who : Party) (v : Word), s.takes who 0x260 →
    exec (.unlkDataWrite who v) s = .next (s.after (if s.boot.recPtr < 48 then { s with boot := { s.boot with
      record := spSet 0 s.boot.record s.boot.recPtr v, recPtr := s.boot.recPtr + 1 } } else s))) ∧
  (∀ (s : State) (r : Nat), s.boot.rstN = false → s.umevoRuns = true → s.boot.unlk = some r → r < 8 →
    exec .unlkVerifyDone s = .next (s.after s.unlkDone) ∧ s.unlkDone.flag F.GLB_UNLK_STATUS_BUSY = false ∧
    s.unlkDone.fget F.GLB_UNLK_STATUS_RESULT = r ∧ s.unlkDone.boot.nonce = none ∧
    s.unlkDone.flag F.GLB_UNLK_STATUS_PEND = (s.flag F.GLB_UNLK_STATUS_PEND || r == 1)) ∧
  (∀ (s : State) (slot : BitVec 2), s.takes .umevoM 0x234 → s.flag F.PAT_STATUS_SEALED = true →
    s.fget F.PAT_STATUS_KEY ≠ slot.toNat → ∃ u, exec (.fuseRevoke .umevoM slot) s = .next (s.after u) ∧
    u.boot.blown.getLsbD slot.toNat = true ∧ u.boot.fuses.revoke.getLsbD slot.toNat = true ∧
    (∀ i : Nat, i ≠ slot.toNat → u.boot.fuses.revoke.getLsbD i = s.boot.fuses.revoke.getLsbD i) ∧
    u.fget F.GLB_FUSE_STATUS_REVOKED = u.boot.fuses.revoke.toNat) ∧
  (∀ (s : State) (slot : BitVec 2), s.takes .umevoM 0x234 → (s.flag F.PAT_STATUS_SEALED = false ∨
    s.fget F.PAT_STATUS_KEY = slot.toNat) → exec (.fuseRevoke .umevoM slot) s = .next (s.after s)) ∧
  (∀ (s : State) (who : Party) (slot : BitVec 2), who ≠ .umevoM → s.takes who 0x234 →
    exec (.fuseRevoke who slot) s = .next (s.after (s.accErr who 1 0x234))) ∧
  (∀ (s : State) (who : Party), who ≠ .umevoU → s.takes who 0x220 →
    exec (.glbRstUmevo who 0xB007) s = .next (s.after s.umevoReset) ∧
    (s.umv.halted = false → s.fget F.WDG_UMV_STATUS_STATE ≠ 1 → s.umevoReset.fget F.WDG_UMV_STATUS_STATE = 0) ∧
    s.umevoReset.umv.trap = false)

/-- Temperature, supplies and the reference clock (18 R661, R666; 19 R704, R705; 22 R778): what the commands that report them do. -/
def Obligations.Environment : Prop :=
  ∀ s : State, s.boot.rstN = false →
    (∀ temp : BitVec 8, temp.toNat < s.fget F.SAF_CTL_TWARN + 64 →
      exec (.tempWarn temp) s = .next (s.after (s.fset F.SAF_STATUS_TEMP temp.toNat))) ∧
    (∀ temp : BitVec 8, s.fget F.SAF_CTL_TWARN + 64 ≤ temp.toNat →
      exec (.tempWarn temp) s = .next (s.after ((s.fset F.SAF_STATUS_TEMP temp.toNat).raiseSafety 3))) ∧
    (∀ temp : BitVec 8, 199 ≤ temp.toNat → ∃ u, exec (.tempTrip temp) s = .next (s.after u) ∧
      u = ((s.fset F.SAF_STATUS_TEMP temp.toNat).setFlag F.SAF_FAULT_ENV true).safeCause 0x2C unitChip ∧
      (s.isSafe = false → u.isSafe = true ∧ u.fget F.SAF_STATUS_SAFE_CAUSE = 0x2C ∧ u.safePin = true)) ∧
    (∀ temp : BitVec 8, temp.toNat < 199 → exec (.tempTrip temp) s = .next (s.after (s.fset F.SAF_STATUS_TEMP temp.toNat))) ∧
    (∀ sup, sup ≠ Supply.phy → exec (.supplyFault sup) s =
      .next (s.after ((s.setFlag F.SAF_FAULT_ENV true).safeCause 0x2D unitChip))) ∧
    (∃ v : State, v = (s.setFlag F.SAF_FAULT_ENV true).safeCause 0x2D unitChip ∧ exec (.supplyFault .phy) s =
      .next (s.after (forUp (fun p u => u.portDown p) 0 12 { v with boot := { v.boot with phyOut := true } }))) ∧
    (s.boot.phyOut = true → exec .vddPhyReturn s = .next (s.after (forUp (fun p u => u.startPortReset p) 0 12
      { s with boot := { s.boot with phyOut := false, trainBy := s.now + msec 10 } }))) ∧
    (s.flag F.TIM_STATUS_BACKUP = false → ∃ v : State, v.flag F.TIM_STATUS_BACKUP = true ∧
      v.flag F.TIM_STATUS_REF_LOST = true ∧ v.flag F.TIM_STATUS_LOCKED = false ∧ v.tb.slew = 0 ∧
      v.fget F.TIM_TRIM_PPB = s.fget F.TIM_TRIM_PPB ∧ v.fget F.SAF_CNT0_CORR = min (s.fget F.SAF_CNT0_CORR + 1) 0x7FFF ∧
      exec .refclkLoss s = .next (s.after (forUp (fun p u => u.portDown p) 0 12 v))) ∧
    (s.flag F.TIM_STATUS_BACKUP = true → exec .refclkReturn s = .next (s.after (forUp (fun p u => u.startPortReset p) 0 12
      (s.setFlag F.TIM_STATUS_BACKUP false))))

/-- The safe state and the class FATAL (19 R695, R697, R701): what entry into the safe state does, and when a FATAL error leads to
it or to a warm reset. -/
def Obligations.SafeStateEntry : Prop :=
  (∀ (s : State) (cause unit : BitVec 8), s.isSafe = false →
    (s.safeCause cause unit).isSafe = true ∧ (s.safeCause cause unit).fget F.SAF_STATUS_SAFE_CAUSE = cause.toNat ∧
    (s.safeCause cause unit).safePin = true ∧ Reaction.safe ∈ (s.safeCause cause unit).due ∧
    (s.log.length < 256 → (s.safeCause cause unit).log = s.log ++ [s.entryNow 0 none unit cause none])) ∧
  (∀ (s : State) (cause unit : BitVec 8), s.isSafe = true → s.safeCause cause unit = s) ∧
  (∀ (s : State) (cause unit : BitVec 8) (a : Option Addr),
    (s.fatal cause unit a false).flag F.SAF_FAULT_FATAL = true ∧
    (s.fatal cause unit a false).fget F.SAF_CNT1_FATAL = min (s.fget F.SAF_CNT1_FATAL + 1) 0x7FFF ∧
    (s.isSafe = false → (s.flag F.SAF_CTL_FATAL_ACT = false ∨ s.lifecycle = 2) →
      (s.fatal cause unit a false).isSafe = true ∧ (s.fatal cause unit a false).safePin = true ∧
      (s.fatal cause unit a false).fget F.SAF_STATUS_SAFE_CAUSE = cause.toNat) ∧
    (s.isSafe = false → s.flag F.SAF_CTL_FATAL_ACT = true → s.lifecycle ≠ 2 →
      Reaction.warm ∈ (s.fatal cause unit a false).due ∧ (s.fatal cause unit a false).isSafe = false))

/-- The safety monitor (19 R688, R690, R691, R698, R699, R701): each detected fault takes the reaction of its row, a latent test that
passes is recorded, and the commands of the safety master and of the log have their effect.
Where it goes beyond the words of the rules it says what the model chooses: log entries 9 and 78. -/
def Obligations.SafetyMonitor : Prop :=
  ∀ s : State, s.boot.rstN = false →
    (∀ unit : BitVec 8, unit.toNat < 18 →
      exec (.stallDetected unit) s = .next (s.after (s.react (.fence unit.toNat 0x20))) ∧
      exec (.comparatorMismatch unit) s = .next (s.after (s.react (.fence unit.toNat 0x1E)))) ∧
    (∀ unit : BitVec 8, 0x2C ≤ unit.toNat →
      exec (.stallDetected unit) s = .next (s.after (s.fatal 0x21 unit none s.flushing)) ∧
      exec (.comparatorMismatch unit) s = .next (s.after (s.fatal 0x1F unit none s.flushing))) ∧
    (∀ p : Nat, p < 12 → s.role p ≠ .off → (s.port p).st ≠ .failed → ∃ u, exec (.stallDetected (BitVec.ofNat 8 (0x20 + p))) s =
      .next (s.after u) ∧ u.flag F.SAF_FAULT_PORT = true) ∧
    (∀ (sl trk : Nat) (x : Txn), sl < 18 → s.txn sl trk = some x → x.opened = true → exec (.trackerAgeExceeded sl trk) s =
      .next (s.after ((s.until (x.admitted + 2 * x.bound)).react (.fence sl 0x23)))) ∧
    (∀ (unit test : BitVec 8), s.latentTests.contains (unit, test) = true → s.latent.from_.isSome = true →
      ∃ u, exec (.latentTest unit test true) s = .next (s.after u) ∧ (unit, test) ∈ u.latent.ran) ∧
    (∀ (unit test : BitVec 8), s.latentTests.contains (unit, test) = true → unit.toNat < 18 → ∃ u,
      exec (.latentTest unit test false) s = .next (s.after u) ∧ u.latent.failed = true ∧ u.flag F.SAF_LT_FAILED = true ∧
      u.flag F.SAF_FAULT_LATENT = true ∧ u.fget F.SAF_LT_LAST = unit.toNat ∧ Reaction.fence unit.toNat 0x2B ∈ u.due) ∧
    (s.isSafe = true → exec .pinReadbackMismatch s = .next (s.after (s.setFlag F.SAF_FAULT_READBACK true))) ∧
    (s.isSafe = false → exec .pinReadbackMismatch s =
      .next (s.after ((s.setFlag F.SAF_FAULT_READBACK true).fatal 0x31 unitChip none s.flushing))) ∧
    (∀ who, s.takes who 0x300C → s.isSafetyMaster who = true →
      exec (.safCmdEnter who 0x5AFE) s = .next (s.after (s.safeCause 0x30 unitChip))) ∧
    (∀ who key, s.takes who 0x300C → s.isSafetyMaster who = false →
      exec (.safCmdEnter who key) s = .next (s.after (s.accErr who 1 0x300C))) ∧
    (∀ who, s.takes who 0x3034 → exec (.safLogNext who) s = .next (s.after { s with log := s.log.tail, dropArm := true }))

/-- The core watchdog (17 R629, R632 to R638): service, control and fault. The rung is the one of the ladder's table.
Where it goes beyond the words of the rules it says what the model chooses: log entries 9 and 74. -/
def Obligations.CoreWatchdog : Prop :=
  (∀ s : State, s.takes .umevoM 0x2004 → s.cwdOpenNow = true →
    (s.umv.keyA = false → exec (.cwdKeyA .umevoM 0x3C0F) s = .next (s.after { s with umv := { s.umv with keyA := true } })) ∧
    (s.umv.keyA = true → s.umv.frozen = none → exec (.cwdKeyB .umevoM 0xC3F0) s = .next (s.after { s with umv := { s.umv with
      restarted := false, start := s.now, period := s.fget F.WDG_CWD_CTL_PERIOD, open_ := s.fget F.WDG_CWD_CTL_OPEN,
      keyA := false } }))) ∧
  (∀ (s : State) (key : BitVec 16), s.takes .umevoM 0x2004 →
    (s.umv.keyA = false → key ≠ 0x3C0F → exec (.cwdKeyA .umevoM key) s = .next (s.after (s.cwdExpire 3))) ∧
    (s.umv.keyA = true → key ≠ 0xC3F0 → exec (.cwdKeyB .umevoM key) s = .next (s.after (s.cwdExpire 3)))) ∧
  (∀ s : State, s.takes .umevoM 0x2004 → s.cwdOpenNow = false → s.cwdOver = false → s.umv.keyA = false →
    exec (.cwdKeyA .umevoM 0x3C0F) s = .next (s.after (s.cwdExpire 2))) ∧
  (∀ (s : State) (v : Word), s.takes .umevoM 0x2000 → s.cwdOpenNow = true → getBits v 0 4 ≤ 12 → getBits v 4 3 ≤ 6 →
    exec (.cwdCtlWrite .umevoM v) s = .next (s.after ((s.fset F.WDG_CWD_CTL_PERIOD (getBits v 0 4)).fset F.WDG_CWD_CTL_OPEN
      (getBits v 4 3)))) ∧
  (∀ (s : State) (who : Party), who ≠ .umevoM →
    (s.takes who 0x2000 → exec (.cwdRejectedWrite who 0) s = .next (s.after ((s.bump F.WDG_REJECT_CWD).raise 10 Cls.watchdog none))) ∧
    (s.takes who 0x2004 → exec (.cwdRejectedWrite who 4) s = .next (s.after ((s.bump F.WDG_REJECT_CWD).raise 10 Cls.watchdog none)))) ∧
  (∀ s : State, s.boot.rstN = false → s.umv.frozen = none →
    exec .cwdExpiry s = .next (s.after ((s.until (s.umv.start + s.umv.cwdLen)).cwdExpire 1)) ∧
    exec .umevoSramError s = .next (s.after (s.cwdExpire 5))) ∧
  (∀ (s : State) (cause : BitVec 8), s.isSafe = false → s.bootFailed = false ∧ s.umv.restarted = false →
    (s.cwdExpire cause).umv.restarted = true) ∧
  (∀ (s : State) (cause : BitVec 8), s.isSafe = false → s.bootFailed = true ∨ s.umv.restarted = true →
    (s.umv.chain < s.umv.n → s.umv.chained = false → (s.cwdExpire cause).umv.chain = s.umv.chain + 1 ∧
      Reaction.warm ∈ (s.cwdExpire cause).due) ∧
    (s.umv.n ≤ s.umv.chain → (s.cwdExpire cause).isSafe = true ∧ (s.cwdExpire cause).safePin = true ∧
      (s.cwdExpire cause).fget F.SAF_STATUS_SAFE_CAUSE = cause.toNat)) ∧
  (∀ (s : State) (t : Time), s.boot.rstN = false → s.ready = true → s.umv.healthyFrom = some t → exec .healthyIntervalEnd s =
    .next (s.after { s with now := max s.now (t + msec (2 ^ s.umv.healthy)), umv := { s.umv with chain := 0, healthyFrom := none } }))

/-- The safety watchdog (17 R642, R643).
Where it goes beyond the words of the rules it says what the model chooses: log entries 9 and 74. -/
def Obligations.SafetyWatchdog : Prop :=
  (∀ (s : State) (who : Party), s.takes who 0x2010 → s.isSafetyMaster who = true → s.ready = true → s.umv.hardEnd = none →
    s.umv.armed = true → s.now < s.umv.swdStart + s.umv.swdLen → exec (.swdService who 0x5A17) s = .next (s.after { s with
      umv := { s.umv with armed := true, swdStart := s.now, swdLen := msec (2 ^ s.fget F.WDG_SWD_CTL_PERIOD) } })) ∧
  (∀ (s : State) (who : Party) (key : BitVec 16), s.takes who 0x2010 → (s.isSafetyMaster who = false ∨ s.ready = false) →
    exec (.swdService who key) s = .next (s.after ((s.bump F.WDG_REJECT_SWD).raise 11 Cls.watchdog none))) ∧
  (∀ s : State, s.boot.rstN = false → s.umv.armed = true → s.umv.hardEnd = none → ∃ u, exec .swdExpiry s = .next (s.after u) ∧
    u.umv.trap = true ∧ u.umv.trapCause = 8 ∧ u.flag F.SAF_FAULT_SWD = true ∧
    u.umv.hardEnd = some (max s.now (s.umv.swdStart + s.umv.swdLen) + usec (16 * 2 ^ s.fget F.WDG_SWD_CTL_HARD))) ∧
  (∀ (s : State) (t : Time), s.boot.rstN = false → s.umv.hardEnd = some t → s.isSafe = false → s.umv.chain < s.umv.n →
    s.umv.chained = false → ∃ u, exec .swdHardTimerEnd s = .next (s.after u) ∧ u.umv.hardEnd = none ∧ u.umv.trap = false ∧
    u.umv.chain = s.umv.chain + 1 ∧ Reaction.warm ∈ u.due ∧ u.now = max s.now t) ∧
  (∀ (s : State) (t : Time), s.boot.rstN = false → s.umv.hardEnd = some t → s.isSafe = false → s.umv.n ≤ s.umv.chain →
    ∃ u, exec .swdHardTimerEnd s = .next (s.after u) ∧ u.isSafe = true ∧ u.safePin = true)

/-- Fabric time (18 R657 to R661): setting it, reading it, and the PPS reference. -/
def Obligations.FabricTime : Prop :=
  (∀ (s : State) (who : Party) (ep : BitVec 16), s.takes who 0x401C → ∃ v : Time, v = (ep.toNat * 2 ^ 64 +
      s.fget F.TIM_SET_HI_TIME * 2 ^ 32 + s.fget F.TIM_SET_LO_TIME) * 65536 ∧
    (s.now < v → exec (.timSetGo who ep) s = .next (s.after { s with now := v })) ∧
    (v ≤ s.now → exec (.timSetGo who ep) s = .next (s.after (s.setFlag F.TIM_STATUS_SET_REJ true)))) ∧
  (∀ (s : State) (who : Party), s.takes who 0x4008 → ∃ t, exec (.timNowRead who) s = .next t ∧ t.now = s.now ∧
    t.fget F.TIM_NOW_LO_TIME = (fab64 s.now).toNat % 2 ^ 32 ∧ t.fget F.TIM_NOW_HI_TIME = (fab64 s.now).toNat / 2 ^ 32 ∧
    t.fget F.TIM_NOW_EP_EPOCH = (fabEpoch s.now).toNat ∧ ∀ a, a ≠ 0x4008 → a ≠ 0x400C → a ≠ 0x4010 → t.word a = s.word a) ∧
  (∀ (s : State) (t : Time), s.boot.rstN = false → s.fget F.TIM_CTL_SOURCE = 1 → s.tb.edge = some t → s.now ≤ t + msec 500 →
    exec .ppsEdge s = .next (s.after (s.bump F.TIM_SYNC_CNT_REJECTED))) ∧
  (∀ s : State, s.boot.rstN = false → s.fget F.TIM_CTL_SOURCE = 1 → (∀ t, s.tb.edge = some t → t + msec 500 < s.now) → ∃ u,
    exec .ppsEdge s = .next (s.after u) ∧ u.tb.edge = some u.now ∧ u.flag F.TIM_STATUS_PPS_MISS = false ∧
    u.fget F.TIM_SYNC_CNT_ACCEPTED = min (s.fget F.TIM_SYNC_CNT_ACCEPTED + 1) 0x7FFF ∧
    (s.flag F.TIM_CTL_SERVO = false → u.now = s.now ∧ u.fget F.TIM_TRIM_PPB = s.fget F.TIM_TRIM_PPB)) ∧
  (∀ s : State, s.boot.rstN = false → s.fget F.TIM_CTL_SOURCE = 1 → ∃ u, exec .ppsMiss s = .next (s.after u) ∧
    u.flag F.TIM_STATUS_PPS_MISS = true ∧ u.flag F.TIM_STATUS_LOCKED = false ∧ u.tb.slew = 0 ∧ u.tb.slewTick = 0 ∧
    u.fget F.TIM_TRIM_PPB = s.fget F.TIM_TRIM_PPB)

/-- The exchange of time between partners (18 R662 to R665): the requests of a follower, the answers of a leader port, and what a
response that is accepted does. An edge that is not a reference is captured as its 48.16 count (R677).
Where it goes beyond the words of the rules it says what the model chooses: log entries 9, 39, 70 and 71. -/
def Obligations.TimeExchange : Prop :=
  (∀ (s : State) (p : Nat), s.boot.rstN = false → s.fget F.TIM_CTL_SOURCE = 2 → p = s.fget F.TIM_CTL_SRC_PORT →
    (s.port p).st = .active → s.tb.req = none → ∃ u v, exec .timesyncInterval s = .next (s.after u) ∧
    v = s.until (s.tb.sentAt + usec (2 ^ s.fget F.TIM_SYNC_CTL_INTERVAL)) ∧
    u = State.sendOn { v with tb := { v.tb with seq := s.tb.seq + 1, req := some (s.tb.seq, v.now), sentAt := v.now } } p
      (syncMsg s.home (s.partnerNode p) s.tb.seq 0 0)) ∧
  (∀ (s : State) (p : Nat) (m w : Msg), w = { m with op := Op.timeSync } → s.admits p w → m.fspec.toNat % 4 = 0 →
    ((s.heard p w).fget F.TIM_SYNC_CTL_LEADER).testBit p = true → ∃ u x, exec (.timesyncRequestRx p m) s = .next (s.after u) ∧
    x = stampBits (s.heard p w).now ∧ u = (s.heard p w).sendOn p (syncMsg (s.heard p w).home ((s.heard p w).partnerNode p) m.tag 1
      ((0 : BitVec 16) ++ x.2 ++ (0 : BitVec 32) ++ x.1))) ∧
  (∀ (s : State) (p : Nat) (m w : Msg), w = { m with op := Op.timeSync } → s.admits p w → m.fspec.toNat % 4 = 1 →
    (s.heard p w).tb.req = none → exec (.timesyncResponseRx p m) s = .next (s.after ((s.heard p w).msgCase p w 8))) ∧
  (∀ (s : State) (p : Nat) (m w : Msg) (t1 : Time), w = { m with op := Op.timeSync } → s.admits p w → m.fspec.toNat % 4 = 1 →
    (s.heard p w).tb.req = some (m.tag, t1) → (s.heard p w).fget F.TIM_CTL_SOURCE = 2 →
    (s.heard p w).fget F.TIM_CTL_SRC_PORT = p → (s.heard p w).tb.delays = [] → ((s.heard p w).flag F.TIM_CTL_SERVO = false) →
    ((msgSlot m 1).extractLsb' 96 16 : BitVec 16) = fabEpoch (s.heard p w).now → ∃ u,
    exec (.timesyncResponseRx p m) s = .next (s.after u) ∧ u.tb.req = none ∧ u.tb.rejects = 0 ∧ u.tb.delays.length = 1 ∧
    u.flag F.TIM_STATUS_SYNC_LOST = false ∧
    u.fget F.TIM_SYNC_CNT_ACCEPTED = min ((s.heard p w).fget F.TIM_SYNC_CNT_ACCEPTED + 1) 0x7FFF) ∧
  (∀ s : State, s.boot.rstN = false → s.fget F.TIM_CTL_SOURCE ≠ 1 → exec .ppsEdge s =
    .next (s.after ((s.fset F.TIM_PPS_CAP_LO_TIME (fab64 s.now).toNat).fset F.TIM_PPS_CAP_HI_TIME ((fab64 s.now).toNat / 2 ^ 32)))) ∧
  (∀ (s : State) (t : Time), s.boot.rstN = false → s.fget F.TIM_CTL_SOURCE = 1 → s.tb.edge = some t → ∃ u,
    exec .ppsMiss s = .next (s.after u) ∧ u.now = max s.now (t + msec 1500))

/-- The power states of the slices and the voltage request (18 R671 to R675).
Where it goes beyond the words of the rules it says what the model chooses: log entries 9, 68 and 69. -/
def Obligations.PowerStates : Prop :=
  (∀ (s : State) (k : Nat), s.boot.rstN = false → k < 18 → s.srole k = .active → (s.slice k).pwr = .doze →
    (s.slice k).entering = none → s.sliceBusy k = false → ∃ v, v = s.until ((s.slice k).idleAt +
      usec (2 ^ s.fget F.PWR_CTL_ENTRY_IDLE)) ∧
    (v.pwrTarget k = .nap → exec (.sliceIdleTimeout k) s = .next (s.after (v.modSlice k (fun c => { c with pwr := .nap })))) ∧
    (v.pwrTarget k = .doze → exec (.sliceIdleTimeout k) s = .next (s.after v))) ∧
  (∀ (s : State) (k : Nat) (e : PwrState), s.boot.rstN = false → k < 18 → (s.slice k).entering = some e → s.entryBusy k = false →
    s.entryLeft k e = false → ∃ u, exec (.powerEntryDone k) s = .next (s.after u) ∧ (u.slice k).pwr = e ∧
    (u.slice k).entering = none ∧ (u.slice k).rsv = [] ∧ (e = .deep → (u.slice k).hc = [] ∧ (u.slice k).sf = []) ∧
    (e = .sleep → (u.slice k).sf = (s.slice k).sf ∧ (u.slice k).hc = (s.slice k).hc.filter (fun f => decide (f.1 % 16 < 8)))) ∧
  (∀ (s : State) (k : Nat), s.boot.rstN = false → k < 18 → (s.slice k).waking = true → (s.slice k).pwr = .nap →
    (s.slice k).ingress = [] → (s.slice k).inv = none → s.ctx0 = none → s.ctx1 = none → ∃ u,
    exec (.sliceExitDone k) s = .next (s.after u) ∧ (u.slice k).pwr = .doze ∧ (u.slice k).waking = false ∧
    (u.slice k).wakes = min ((s.slice k).wakes + 1) 0xFFFF ∧ (u.slice k).idleAt = s.now) ∧
  (∀ s : State, s.boot.rstN = false → s.flag F.PAT_STATUS_SEALED = true → s.flag F.PWR_VCTL_MODE = false → ∃ u,
    exec .voltageEvaluation s = .next (s.after u) ∧ u.fget F.PWR_VREQ_VID = s.fget F.PWR_VCTL_VHOLD ∧ u.tb.track = false) ∧
  (∀ s : State, s.boot.rstN = false → s.flag F.PAT_STATUS_SEALED = true → s.flag F.PWR_VCTL_MODE = true → s.tb.track = true →
    s.fget F.PWR_VREQ_VID ≤ 48 → ∃ u, exec .voltageEvaluation s = .next (s.after u) ∧ u.fget F.PWR_VREQ_VID ≤ 48 ∧
    u.fget F.PWR_VREQ_VID ≤ s.fget F.PWR_VREQ_VID + 1 ∧ s.fget F.PWR_VREQ_VID ≤ u.fget F.PWR_VREQ_VID + 1 ∧
    (u.fget F.PWR_VREQ_VID < s.fget F.PWR_VREQ_VID → s.fget F.PWR_VCTL_VMIN < s.fget F.PWR_VREQ_VID ∧ 4 ≤ s.tb.evals))

/-- Latency tolerances (18 R667, R669): a tolerance is set for its tenant, an answer goes out at once or when the slices have woken, and a
request without the right or with a reserved code changes nothing.
Where it goes beyond the words of the rules it says what the model chooses: log entry 68. -/
def Obligations.LatencyTolerances : Prop :=
  (∀ (s : State) (p : Nat) (m w : Msg) (v : State), w = { m with op := Op.latencyTolerance } → v = s.heard p w → s.admits p w →
    ((v.cfg m.ten).isSome = true ∧ (v.inDomain m.ten m.src || v.pat.masters.any (fun b => inBlock m.src b.1 b.2)) = true) →
    (msgSlot m 1).getLsbD 8 = false → (slotField m 1 0 5).toNat < 24 →
    (∃ u, exec (.latencyTolerance p m) s = .next (s.after u) ∧
      spGet none u.tns.tol m.ten.toNat = some (slotField m 1 0 5).toNat) ∧
    (v.tolOf m.ten ≤ (slotField m 1 0 5).toNat → exec (.latencyTolerance p m) s = .next (s.after (State.send { v with
      tns := { v.tns with tol := spSet none v.tns.tol m.ten.toNat (some (slotField m 1 0 5).toNat) } } (mgtAck w 0))))) ∧
  (∀ (s : State) (p : Nat) (m w : Msg) (v : State), w = { m with op := Op.latencyTolerance } → v = s.heard p w → s.admits p w →
    (v.cfg m.ten).isNone = true → exec (.latencyTolerance p m) s = .next (s.after (v.send (mgtAck w 1)))) ∧
  (∀ (s : State) (t : Tenant) (m : Msg), s.boot.rstN = false → s.tns.answers = [m] → m.ten = t → s.tolMet t = true →
    exec (.latencyAckAfterWake t) s = .next (s.after (State.send { s with tns := { s.tns with answers := [] } } m)))

/-- What a port receives (04 R121, R125, R130, R131, R135, R142, R146): a flit that no state expects has no effect, a damaged one
is counted, a PAYLOAD flit in order is accepted, an old one counted, a gap asks for a replay, a sequence number out of range is a
link protocol error, and a DOWN_NOTICE resets the link.
Where it goes beyond the words of the rules it says what the model chooses: log entry 37. -/
def Obligations.LinkReceive : Prop :=
  ∀ (s : State) (p : Nat) (f : Flit), s.boot.rstN = false → p < 12 →
    (∀ c g, (c, g) ∈ [(Instr.llPayloadRx p f, { f with typ := flitPayload }), (Instr.llIdleRx p f, { f with typ := flitIdle }),
        (Instr.llNakRx p f, { f with typ := flitNak }), (Instr.llInitRx p f, { f with typ := flitInit }),
        (Instr.llDownNoticeRx p f, { f with typ := flitDown })] →
      ((s.port p).st = .down ∨ (s.port p).st = .train ∨ (s.port p).st = .failed → exec c s = .next (s.after s)) ∧
      ((s.port p).st = .active ∨ (s.port p).st = .init → g.crc ≠ flitCrc g →
        exec c s = .next (s.after (s.bump F.PRT_LL_ERRCNT0_CRC p))) ∧
      ((s.port p).st = .active → g.crc = flitCrc g → (s.port p).notices = 0 → g.typ ≠ flitInit → g.typ ≠ flitDown →
        512 ≤ (f.seq - (s.port p).expect).toNat → (f.seq - (s.port p).expect).toNat < 3584 →
        exec c s = .next (s.after (s.linkError p 2))) ∧
      ((s.port p).st = .active → g.crc = flitCrc g → (s.port p).notices = 0 → g.typ ≠ flitInit → g.typ ≠ flitDown →
        1 ≤ (f.seq - (s.port p).expect).toNat → (f.seq - (s.port p).expect).toNat ≤ 511 → (s.port p).nakPend = false →
        f.ack + 1 = ((s.port p).replay.headD ((s.port p).nextSeq, [])).1 → f.cls0 = 7 → f.cls1 = 7 → g.typ ≠ flitNak →
        ∃ u, exec c s = .next (s.after u) ∧ (u.port p).nakPend = true ∧ (u.port p).nakDue = true ∧
          (u.port p).nakT = s.now + s.replayTmo p ∧ (u.port p).expect = (s.port p).expect ∧ (u.port p).rx = (s.port p).rx ∧
          u.regs = s.regs ∧ ∀ j, j ≠ p → u.port j = s.port j)) ∧
    (∀ g, g = { f with typ := flitPayload } → g.crc = flitCrc g → (s.port p).st = .active → (s.port p).notices = 0 →
      (f.seq = (s.port p).expect → ∃ u, exec (.llPayloadRx p f) s = .next (s.after u) ∧ (u.port p).expect = f.seq + 1 ∧
        (u.port p).nakPend = false ∧ (u.port p).ackOwed = true ∧ u.regs = s.regs ∧ (∀ j, j ≠ p → u.port j = s.port j) ∧
        (∀ h : Slot, f.slots = padSlots [h] → (s.port p).rxPart = none → (h.extractLsb' 0 8 : BitVec 8) ≠ 0 →
          opClass (h.extractLsb' 0 8) < 6 → (h.extractLsb' 8 5 : BitVec 5) = 0 →
          (u.port p).rx = (s.port p).rx ++ [ofSlots h []])) ∧
      (3584 ≤ (f.seq - (s.port p).expect).toNat → ∃ u, exec (.llPayloadRx p f) s = .next (s.after u) ∧
        u.fget F.PRT_LL_DUPCNT_DUP p = min (s.fget F.PRT_LL_DUPCNT_DUP p + 1) (onesMask F.PRT_LL_DUPCNT_DUP.wid) ∧
        (u.port p).expect = (s.port p).expect ∧ (u.port p).rx = (s.port p).rx)) ∧
    (∀ (g : Flit) (o : BitVec 12) (x : List Slot) (rest : List (BitVec 12 × List Slot)), g = { f with typ := flitNak } →
      g.crc = flitCrc g → (s.port p).st = .active → (s.port p).notices = 0 → f.seq = (s.port p).expect →
      (s.port p).replay = (o, x) :: rest → f.ack + 1 = o → f.cls0 = 7 → f.cls1 = 7 → (s.port p).replayAt = none →
      (s.port p).replays < s.fget F.PRT_LL_TIMER_REPLAY_LIMIT p → ∃ u, exec (.llNakRx p f) s = .next (s.after u) ∧
        (u.port p).replayAt = some o ∧ (u.port p).replays = (s.port p).replays + 1 ∧ (u.port p).replay = (s.port p).replay ∧
        u.fget F.PRT_LL_ERRCNT1_REPLAY p = min (s.fget F.PRT_LL_ERRCNT1_REPLAY p + 1) (onesMask F.PRT_LL_ERRCNT1_REPLAY.wid)) ∧
    (∀ g, g = { f with typ := flitIdle } → g.crc = flitCrc g → (s.port p).st = .active → (s.port p).notices = 0 →
      f.seq = (s.port p).expect → f.ack + 1 = ((s.port p).replay.headD ((s.port p).nextSeq, [])).1 → f.cls0 = 7 → f.cls1 = 7 →
      ∃ u, exec (.llIdleRx p f) s = .next (s.after u) ∧ (∀ j, u.port j = s.port j) ∧ u.regs = s.regs) ∧
    (∀ g, g = { f with typ := flitInit } → g.crc = flitCrc g → (s.port p).st = .active → (s.port p).notices = 0 →
      exec (.llInitRx p f) s = .next (s.after (s.linkError p 6))) ∧
    (∀ g, g = { f with typ := flitDown } → g.crc = flitCrc g → (s.port p).st = .active →
      exec (.llDownNoticeRx p f) s = .next (s.after (s.linkReset p 9)))

/-- The exchange of INIT records (04 R122, R124, R125): a FULL record of the right version and agent is accepted, the port enters
ACTIVE when RX_OK has gone both ways, and a record of another version or agent fails the port.
Where it goes beyond the words of the rules it says what the model chooses: log entries 37 and 40. -/
def Obligations.LinkInitExchange : Prop :=
  ∀ (s : State) (p : Nat) (f g : Flit) (r : Slot), s.boot.rstN = false → p < 12 → g = { f with typ := flitInit } → g.crc = flitCrc g →
    (s.port p).st = .init → (s.port p).notices = 0 → r = f.slots.headD 0 →
    ((r.extractLsb' 0 8 : BitVec 8) ≠ 1 → exec (.llInitRx p f) s = .next (s.after (s.failPort p 0xA))) ∧
    ((r.extractLsb' 0 8 : BitVec 8) = 1 → (r.extractLsb' 8 2 : BitVec 2).toNat < 2 →
      agentOk (s.role p) (r.extractLsb' 12 4 : BitVec 4).toNat = false →
      exec (.llInitRx p f) s = .next (s.after (s.failPort p 0xB))) ∧
    ((r.extractLsb' 0 8 : BitVec 8) = 1 → (r.extractLsb' 8 2 : BitVec 2) = 0 → (s.port p).resume = false →
      agentOk (s.role p) (r.extractLsb' 12 4 : BitVec 4).toNat = true →
      (∀ c ∈ sends (s.role p), c < 6 ∧ 32 ≤ (r.extractLsb' (36 + 12 * c) 12 : BitVec 12).toNat) →
      ∃ u, exec (.llInitRx p f) s = .next (s.after u) ∧
        u.fget F.PRT_LL_STATUS_PARTNER_NODE p = (r.extractLsb' 16 20 : BitVec 20).toNat ∧
        u.fget F.PRT_LL_STATUS_PARTNER_AGENT p = (r.extractLsb' 12 4 : BitVec 4).toNat ∧ (u.port p).gotInit = true ∧
        ((s.port p).sentOk = true → r.getLsbD 10 = true → (u.port p).st = .active ∧ (u.port p).fails = 0) ∧
        ((s.port p).sentOk = false → (u.port p).st = .init) ∧
        (∀ c, c < 6 → ((u.port p).credit c).adv = (r.extractLsb' (36 + 12 * c) 12 : BitVec 12).toNat)) ∧
    (∀ cause, (s.failPort p cause).fget F.PRT_LL_LASTERR_CAUSE p = cause.toNat ∧ (s.failPort p cause).flag F.PRT_LL_LASTERR_VALID p = true ∧
      ((s.failPort p cause).port p).st = .failed)

/-- What a port sends in one flit clock (04 R114, R122, R123, R126, R129, R131, R135, R146).
Where it goes beyond the words of the rules it says what the model chooses: log entry 42. -/
def Obligations.LinkTransmit : Prop :=
  ∀ (s : State) (p : Nat), s.boot.rstN = false → p < 12 →
    ((s.port p).st = .down ∨ (s.port p).st = .train ∨ (s.port p).st = .failed → exec (.flitClock p) s = .next (s.after s)) ∧
    ((s.port p).st = .init → s.ready = true → (s.port p).gotInit = false → (s.port p).sentOk = false → ∃ u f,
      exec (.flitClock p) s = .next (s.after u) ∧ (u.port p).lastTx = some f ∧ f.typ = flitInit ∧ f.crc = flitCrc f ∧
      ((s.port p).resume = false → f.seq = 0 ∧ f.ack = 0xFFF) ∧ u.regs = s.regs ∧ (u.port p).st = .init) ∧
    ((s.port p).st = .active → 1 < (s.port p).notices → ∃ u f, exec (.flitClock p) s = .next (s.after u) ∧
      (u.port p).lastTx = some f ∧ f.typ = flitDown ∧ f.seq = (s.port p).nextSeq ∧ f.crc = flitCrc f ∧
      (u.port p).notices = (s.port p).notices - 1 ∧ (u.port p).st = .active) ∧
    ((s.port p).st = .active → (s.port p).notices = 1 → (s.port p).thenReset = false → ∃ u f, exec (.flitClock p) s = .next (s.after u) ∧
      u = State.linkReset (s.modPort p (fun q => { q with lastTx := some f, notices := 0 })) p (s.port p).noticeCause) ∧
    ((s.port p).st = .active → (s.port p).notices = 0 → (s.port p).held = none → (s.port p).again = none →
      ((s.port p).nakDue = true → ∃ u f, exec (.flitClock p) s = .next (s.after u) ∧ (u.port p).lastTx = some f ∧ f.typ = flitNak ∧
        f.ack = (s.port p).expect - 1 ∧ f.crc = flitCrc f ∧ (u.port p).nakDue = false ∧ (u.port p).ackOwed = false ∧
        u.fget F.PRT_LL_ERRCNT0_NAK p = min (s.fget F.PRT_LL_ERRCNT0_NAK p + 1) (onesMask F.PRT_LL_ERRCNT0_NAK.wid)) ∧
      ((s.port p).nakDue = false → (∀ n x, (s.port p).replayAt = some n → (s.port p).replay.find? (fun r => r.1 == n) = some (n, x) →
        ∃ u f, exec (.flitClock p) s = .next (s.after u) ∧ (u.port p).lastTx = some f ∧ f.typ = flitPayload ∧ f.seq = n ∧ f.slots = x ∧
        (u.port p).replayAt = (if n + 1 = (s.port p).nextSeq then none else some (n + 1)) ∧ (u.port p).nextSeq = (s.port p).nextSeq) ∧
        ((s.port p).replayAt = none → (s.port p).tx = [] → (s.port p).txSlots = [] → ∃ u f, exec (.flitClock p) s = .next (s.after u) ∧
          (u.port p).lastTx = some f ∧ f.typ = flitIdle ∧ f.seq = (s.port p).nextSeq ∧ f.ack = (s.port p).expect - 1 ∧
          f.crc = flitCrc f ∧ (u.port p).replay = (s.port p).replay ∧ (u.port p).nextSeq = (s.port p).nextSeq ∧ u.regs = s.regs) ∧
        (∀ m, (s.port p).replayAt = none → (s.port p).txSlots = [] → (s.port p).tx = [m] → (s.port p).wait = none → s.jig = [] →
          m.op ≠ Op.timeSync → m.body.length < 15 → (s.port p).replay.length < 512 →
          ((s.port p).credit (opClass m.op)).used + m.body.length + 1 ≤ ((s.port p).credit (opClass m.op)).adv →
          ∃ u f, exec (.flitClock p) s = .next (s.after u) ∧ (u.port p).lastTx = some f ∧ f.typ = flitPayload ∧
            f.seq = (s.port p).nextSeq ∧ f.slots = padSlots (toSlots m) ∧ f.crc = flitCrc f ∧ (u.port p).tx = [] ∧
            (u.port p).nextSeq = (s.port p).nextSeq + 1 ∧
            (u.port p).replay = (s.port p).replay ++ [((s.port p).nextSeq, padSlots (toSlots m))] ∧
            ((u.port p).credit (opClass m.op)).used = ((s.port p).credit (opClass m.op)).used + m.body.length + 1)))

/-- The timers and training of a port (04 R124, R132, R134, R136, R137, R144 to R148, R151, R158; 22 R778), and the UCIe sideband (R112).
Where it goes beyond the words of the rules it says what the model chooses: log entries 9, 15, 40 and 41. -/
def Obligations.LinkTimersAndTraining : Prop :=
  ∀ (s : State) (p : Nat), s.boot.rstN = false → p < 12 →
    ((s.port p).st = .active → (s.port p).ackOwed = true → (s.port p).notices = 0 → ∃ u,
      exec (.llAckDelayExpiry p) s = .next (s.after u) ∧ (u.port p).lastTx.isSome = true ∧ u.now = max s.now (s.port p).ackT) ∧
    ((s.port p).st = .active → (s.port p).nakPend = true → ∃ u, exec (.llNakResend p) s = .next (s.after u) ∧ (u.port p).nakDue = true ∧
      u.now = max s.now (s.port p).nakT ∧ (u.port p).nakT = u.now + s.replayTmo p) ∧
    (∀ o x rest, (s.port p).st = .active → (s.port p).replay = (o, x) :: rest →
      ((s.port p).replays < s.fget F.PRT_LL_TIMER_REPLAY_LIMIT p → ∃ u, exec (.llReplayTimeout p) s = .next (s.after u) ∧
        (u.port p).replayAt = some o ∧ (u.port p).replays = (s.port p).replays + 1) ∧
      (s.fget F.PRT_LL_TIMER_REPLAY_LIMIT p ≤ (s.port p).replays →
        exec (.llReplayTimeout p) s = .next (s.after ((s.until (s.port p).replayT).retrain p)))) ∧
    ((s.port p).st = .active → (s.port p).retrains = [] → 0 < s.fget F.PRT_LL_TIMER_RETRAIN_LIMIT p → ∃ u,
      exec (.uciePhyRetrain p) s = .next (s.after u) ∧ (u.port p).st = .retrain ∧ (u.port p).ucieUp = false ∧
      (u.port p).resume = true ∧ (u.port p).retrainT = s.now + msec 1 ∧ (u.port p).replay = (s.port p).replay ∧
      u.fget F.PRT_LL_ERRCNT1_RETRAIN p = min (s.fget F.PRT_LL_ERRCNT1_RETRAIN p + 1) (onesMask F.PRT_LL_ERRCNT1_RETRAIN.wid)) ∧
    (∀ who, s.takes who (prtReg p 0) → s.ArraysWf → exec (.llRetrainCmd p who) s = .next (s.after (s.retrainCmd p)) ∧
      exec (.portReset p who) s = .next (s.after (s.startPortReset p))) ∧
    (∀ rep, (s.port p).st = .retrain → (s.port p).ucieUp = false → exec (.ucieRetrainDone p rep) s =
      .next (s.after (s.modPort p (fun q => { q with ucieUp := true, rep := rep })))) ∧
    ((s.port p).st = .retrain → exec (.llRetrainTimeout p) s = .next (s.after ((s.until (s.port p).retrainT).linkReset p 7))) ∧
    (∀ (rates : BitVec 3) (rep : LaneRepair), (s.port p).st = .train →
      (rates.getLsbD (s.rateCap p - 1) = true → 1 ≤ s.rateCap p → s.rateCap p ≤ 3 → ∃ u,
        exec (.ucieTrainDone p rates rep) s = .next (s.after u) ∧ (u.port p).st = .init ∧ (u.port p).ucieUp = true ∧
        (u.port p).rate.toNat = s.rateCap p ∧ (u.port p).rep = rep ∧ (u.port p).nextSeq = 0 ∧ (u.port p).expect = 0 ∧
        (u.port p).replay = []) ∧
      ((∀ r, 1 ≤ r → r ≤ s.rateCap p → r ≤ 3 → rates.getLsbD (r - 1) = false) → exec (.ucieTrainDone p rates rep) s =
        exec (.ucieTrainFail p) s)) ∧
    ((s.port p).st = .train → (s.port p).fails < 2 → exec (.ucieTrainFail p) s =
      .next (s.after (s.modPort p (fun q => { q with fails := q.fails + 1 })))) ∧
    ((s.port p).st = .train → (s.port p).fails = 2 → ∃ u, exec (.ucieTrainFail p) s = .next (s.after u) ∧ (u.port p).st = .failed ∧
      u.fget F.PRT_LL_LASTERR_CAUSE p = 0xD) ∧
    ((s.port p).draining = true → (s.port p).rx = [] → s.flag F.TIM_STATUS_BACKUP = false → s.boot.phyOut = false → ∃ u,
      exec (.llDrainDone p) s = .next (s.after u) ∧ (u.port p).st = (if (s.port p).ucieUp then .init else .train) ∧
      (u.port p).draining = false ∧ (u.port p).drainT = s.now + msec 10) ∧
    ((s.port p).inReset = true → (s.port p).draining = false → (s.port p).st = .train ∨ (s.port p).st = .init → (s.port p).fails = 2 →
      ∃ u, exec (.llLinkResetTimeout p) s = .next (s.after u) ∧ (u.port p).st = .failed) ∧
    ((s.port p).inReset = true → (s.port p).draining = false → (s.port p).st = .train ∨ (s.port p).st = .init → (s.port p).fails < 2 →
      ∃ u v, exec (.llLinkResetTimeout p) s = .next (s.after u) ∧ u = v.linkReset p (BitVec.ofNat 4 (s.fget F.PRT_LL_LASTERR_CAUSE p)) ∧
      v = (s.until (s.port p).drainT).modPort p (fun q => { q with fails := q.fails + 1 })) ∧
    exec (.ucieLowPowerRequest p) s = .next s ∧ (∀ bits, exec (.vendorSidebandRx p bits) s = .next s) ∧
    (∀ wr a v, exec (.ucieSidebandRegAccess p wr a v) s = .next
      ({ s with fresh := s.fresh + 1 }.modPort p (fun q => { q with sideband := some (Config.sideband s.fresh) })))

/-- The link reset (04 R146, R148, R149, R152): LASTERR names the cause, the count moves, the receive buffers drain and a partial message
is dropped; the fourth reset within 100 ms of the first of three fails the port instead.
Where it goes beyond the words of the rules it says what the model chooses: log entries 40 and 41. -/
def Obligations.LinkReset : Prop :=
  ∀ (s : State) (p : Nat) (cause : BitVec 4) (u : State), u = s.linkReset p cause →
    u.fget F.PRT_LL_LASTERR_CAUSE p = cause.toNat ∧ u.flag F.PRT_LL_LASTERR_VALID p = true ∧
    u.fget F.PRT_LL_LASTERR_EXPECT p = (s.port p).expect.toNat ∧
    u.fget F.PRT_LL_ERRCNT1_LRESET p = min (s.fget F.PRT_LL_ERRCNT1_LRESET p + 1) (onesMask F.PRT_LL_ERRCNT1_LRESET.wid) ∧
    ((s.port p).resets.length < 3 → (u.port p).st = .down ∧ (u.port p).inReset = true ∧ (u.port p).draining = true ∧
      (u.port p).rx = (s.port p).rx ∧ (u.port p).replay = [] ∧ (u.port p).rxPart = none ∧ (u.port p).nextSeq = 0) ∧
    (∀ a b c, (s.port p).resets = [a, b, c] → s.now ≤ a + msec 100 → (u.port p).st = .failed ∧ (u.port p).inReset = false)

/-- A request on one line at the Shed (06 R209; 07 R253, R255, R256, R258, R266): one that nothing holds back takes a tracker, opens its entry
and its window entry, and changes nothing else; one whose line has an open entry joins the chain; one without a tracker waits at the ingress
and is counted; one that is held waits there, and so does one whose slice sleeps, which wakes it.
Where it goes beyond the words of the rules it says what the model chooses: log entries 37, 48, 54 and 55. -/
def Obligations.LineRequests : Prop :=
  ∀ (s v : State) (p k l : Nat) (m w : Msg) (c : Instr) (o : BitVec 8) (a : Addr) (x : Txn),
    (c, o) ∈ [(Instr.rdShared p m, Op.rdShared), (.rdUnique p m, Op.rdUnique), (.rdOnce p m, Op.rdOnce), (.rdNoSnp p m, Op.rdNoSnp),
      (.cleanUnique p m, Op.cleanUnique), (.makeUnique p m, Op.makeUnique), (.evictClean p m, Op.evictClean),
      (.wrBackFull p m, Op.wrBackFull), (.wrUnique p m, Op.wrUnique), (.wrNoSnp p m, Op.wrNoSnp), (.reserveRd p m, Op.reserveRd),
      (.condWr p m, Op.condWr), (.atomicFar p m, Op.atomicFar)] →
    w = { m with op := o } → s.admits p w → v = s.heard p w → a = lineAddr (msgAddr w) → l = v.logOf a → k = v.physOf l →
    x = Txn.new .client w p (.line a) → v.takesNew l w → (∀ e ∈ (v.slice k).trk, ∀ y, e.2 = some y → y.phase ≠ .hold) →
    (v.held l a = false → v.queuedAhead k w.ten = false → (v.slice k).pwr = .active →
      (∀ t, v.conflictsOpen k (.line a) = false → v.freeTracker k x = some t → ∃ u y, exec c s = .next (s.after u) ∧
        u.txn k t = some y ∧ y.m = w ∧ y.scope = .line a ∧ y.port = p ∧ y.opened = true ∧ y.admitted = v.now ∧
        y.bound = closingBound (v.snpTmo w.ten) ∧ Reaction.start k t ∈ u.due ∧
        (∃ e ∈ u.win l (winSetOf w.src w.ten w.tag), keyOf w e = true ∧ e.st = .opened ∧ e.op = w.op ∧ e.echk = w.echk) ∧
        u.regs = v.regs ∧ (∀ j, j ≠ t → u.txn k j = v.txn k j) ∧ (∀ j, j ≠ k → u.slice j = v.slice j) ∧ (∀ q, u.port q = v.port q)) ∧
      (v.conflictsOpen k (.line a) = true → v.chainOk k x = true → ∃ u y, exec c s = .next (s.after u) ∧
        (u.slice k).chain = (v.slice k).chain ++ [y] ∧ y.m = w ∧ y.scope = .line a ∧ (∀ j, u.txn k j = v.txn k j)) ∧
      (v.conflictsOpen k (.line a) = false → v.freeTracker k x = none → ∃ u, exec c s = .next (s.after u) ∧
        (u.slice k).ingress = (v.slice k).ingress ++ [x] ∧ u.fget F.SLC_SHED_STALL_COUNT k =
          (v.fget F.SLC_SHED_STALL_COUNT k + 1) % 2 ^ F.SLC_SHED_STALL_COUNT.wid)) ∧
    (v.held l a = true → ∃ u, exec c s = .next (s.after u) ∧ (u.slice k).ingress = (v.slice k).ingress ++ [x] ∧ u.regs = v.regs) ∧
    (v.held l a = false → v.queuedAhead k w.ten = false → v.awake k = false → ∃ u, exec c s = .next (s.after u) ∧
      (u.slice k).ingress = (v.slice k).ingress ++ [x] ∧ (u.slice k).waking = true ∧ u.regs = v.regs)

/-- A request that the window knows (07 R266, R267, R269): what is counted, and what is answered.
Where it goes beyond the words of the rules it says what the model chooses: log entry 54. -/
def Obligations.WindowAnswers : Prop :=
  ∀ (s v : State) (p k l : Nat) (m w : Msg) (c : Instr) (o : BitVec 8),
    (c, o) ∈ [(Instr.rdShared p m, Op.rdShared), (.makeUnique p m, Op.makeUnique), (.wrBackFull p m, Op.wrBackFull),
      (.atomicFar p m, Op.atomicFar), (.wrPosted p m, Op.wrPosted), (.fenceFull p m, Op.fenceFull)] →
    w = { m with op := o } → s.admits p w → v = s.heard p w → v.uncombined → l = v.winSlice w → l = v.reqSlice w → k = v.physOf l →
    v.reqHeld w = false → (v.slice k).pwr = .active →
    (v.winAsk l w = .dupOpen → ∃ u, exec c s = .next (s.after u) ∧ (∀ q, u.port q = v.port q) ∧ u.fget F.SLC_SHED_DUPCNT0_DUP_OPEN k =
      min (v.fget F.SLC_SHED_DUPCNT0_DUP_OPEN k + 1) (onesMask F.SLC_SHED_DUPCNT0_DUP_OPEN.wid)) ∧
    (∀ r, v.winAsk l w = .resend r → ∃ u, exec c s = .next (s.after u) ∧ v.sends u r ∧ (v.routeTo r.dst ≠ none →
      u.fget F.SLC_SHED_DUPCNT0_RESENT k = min (v.fget F.SLC_SHED_DUPCNT0_RESENT k + 1) (onesMask F.SLC_SHED_DUPCNT0_RESENT.wid))) ∧
    (v.winAsk l w = .quiet → ∃ u, exec c s = .next (s.after u) ∧ (∀ q, u.port q = v.port q) ∧ u.fget F.SLC_SHED_DUPCNT0_QUIET k =
      min (v.fget F.SLC_SHED_DUPCNT0_QUIET k + 1) (onesMask F.SLC_SHED_DUPCNT0_QUIET.wid)) ∧
    (v.winAsk l w = .lost → ∃ u, exec c s = .next (s.after u) ∧ v.sends u (plainResp w Op.homeUnavailable)) ∧
    (v.winAsk l w = .clash → ∃ u, exec c s = .next (s.after u) ∧ (∀ q, u.port q = v.port q) ∧
      (∀ j, u.slice j = v.slice j ∨ j = k) ∧ (u.slice k).trk = (v.slice k).trk)

/-- Posted, non-temporal and fencing requests (08 R308, R312, R313, R315, R316): the buffer entry taken, the completion sent at once, and what
a fence waits for.
Where it goes beyond the words of the rules it says what the model chooses: log entries 37 and 57. -/
def Obligations.BufferedWrites : Prop :=
  ∀ (s v : State) (p l : Nat) (m w : Msg) (o : BitVec 8), w = { m with op := o } → s.admits p w → v = s.heard p w → v.takesNew l w → p < 12 →
    (o = Op.wrPosted → v.poolOk 128 1 (v.pwbUse p) w.ten = true → ∃ u, exec (.wrPosted p m) s = .next (s.after u) ∧ u.wno = v.wno + 1 ∧
      (u.port p).pwb = (v.port p).pwb ++ [⟨w, v.wno, false⟩] ∧ v.sends u (respTo w Op.comp 0 false 0 [])) ∧
    (o = Op.wrNT → v.poolOk 32 1 (v.cwbUse p) w.ten = true → ∃ u c, exec (.wrNt p m) s = .next (s.after u) ∧ u.wno = v.wno + 1 ∧
      (u.port p).cwb = [c] ∧ c.src = w.src ∧ c.ten = w.ten ∧ c.sector = sectorOf (lineAddr (msgAddr w)) ∧ c.flushing = false ∧
      c.lines = [(hcSubOf (lineAddr (msgAddr w)), v.wno, w)] ∧ c.until_ = v.now + usec (2 ^ v.fget F.PRT_WB_CTL_CWB_TMO p) ∧ v.sends u (respTo w Op.comp 0 false 0 [])) ∧
    (o = Op.fenceW → ∃ u, exec (.fenceW p m) s = .next (s.after u) ∧ v.sends u (respTo w Op.comp 0 false 0 []) ∧
      u.barriers = (if v.pendingBelow w.src w.ten v.wno then v.barriers ++ [(w.src, w.ten, v.wno)] else v.barriers)) ∧
    (o = Op.fenceFull → v.pendingBelow w.src w.ten v.wno = false → ∃ u, exec (.fenceFull p m) s = .next (s.after u) ∧
      v.sends u (respTo w Op.comp 0 false 0 [])) ∧
    (o = Op.fenceFull → v.pendingBelow w.src w.ten v.wno = true → ∃ u i, exec (.fenceFull p m) s = .next (s.after u) ∧
      (u.port p).fences = (v.port p).fences ++ [⟨i, w, v.wno⟩] ∧ (∀ q, (u.port q).tx = (v.port q).tx))

/-- What the buffers do later (08 R309, R313, R316; 07 R255): the end of a fence, the commit of a posted write, the end of a combining entry's
time, and a request that waited at the ingress.
Where it goes beyond the words of the rules it says what the model chooses: log entries 9 and 57. -/
def Obligations.BufferTimers : Prop :=
  ∀ s : State, s.boot.rstN = false →
    (∀ (p : Nat) (f : Fence), p < 12 → (s.port p).fences = [f] → s.pendingBelow f.m.src f.m.ten f.lim = false → ∃ u,
      exec (.fenceFullComp p f.idx) s = .next (s.after u) ∧ (u.port p).fences = [] ∧ s.sends u (respTo f.m Op.comp 0 false 0 [])) ∧
    (∀ (p : Nat) (f : Fence), p < 12 → (s.port p).fences = [f] → s.pendingBelow f.m.src f.m.ten f.lim = true →
      exec (.fenceFullComp p f.idx) s = .next (s.after s)) ∧
    (∀ (p k t w : Nat) (e : Posted) (x : Txn), p < 12 → k < 18 → (s.port p).pwb = [e] → e.no = w → e.ready = true →
      s.fenceClear e.m.src e.m.ten w = true → (s.slice k).trk = [(t, some x)] → (∀ j, j < 18 → j ≠ k → (s.slice j).trk = []) →
      x.kind = .posted p w → x.phase = .commit → exec (.postedWriteCommit p w) s = .next (s.after (s.recordAndEnd k t))) ∧
    (∀ (p w : Nat) (e : Posted), p < 12 → (s.port p).pwb = [e] → e.no = w → e.ready = false →
      exec (.postedWriteCommit p w) s = .next (s.after s)) ∧
    (∀ (p : Nat) (c : Combine), p < 12 → (s.port p).cwb = [c] → c.flushing = false → ∃ u, exec (.cwbTimeout p c.idx) s = .next (s.after u) ∧
      (u.port p).cwb = [{ c with flushing := true }] ∧ u.now = max s.now c.until_) ∧
    (∀ (k : Nat) (x : Txn) (r : State), k < 18 → (s.slice k).ingress = [x] → x.kind = .client → s.waitHeld x = false →
      s.reqGo x = (.done, r) → exec (.ingressRetry k x.m.ten) s = .next (s.after (r.dropIngress k x))) ∧
    (∀ (k : Nat) (t : Tenant), k < 18 → (s.slice k).ingress = [] → exec (.ingressRetry k t) s = .next (s.after s))

/-- Gathers and scatters (08 R329 to R335): the coordinating slice takes one up, an element that fails a check has its status at once, a
first-fault form begins with its first element, and the end is one response and the counts.
Where it goes beyond the words of the rules it says what the model chooses: log entries 37 and 58. -/
def Obligations.GathersAndScatters : Prop :=
  (∀ (s v : State) (p k l : Nat) (m w : Msg) (c : Instr) (o : BitVec 8),
    (c, o) ∈ [(Instr.gatherRd p m, Op.gatherRd), (.scatterWr p m, Op.scatterWr), (.gatherRdFf p m, Op.gatherRdFF),
      (.scatterWrFf p m, Op.scatterWrFF)] → w = { m with op := o } → s.admits p w → v = s.heard p w → l = v.reqSlice w → k = v.physOf l →
    v.takesNew l w → (v.lsl l).handover = false → (v.slice k).gathers = [] → ∃ u e, exec c s = .next (s.after u) ∧
      (u.slice k).gathers = [e] ∧ e.m = w ∧ e.idx = (v.slice k).gatherNo ∧ e.port = p ∧ (u.slice k).gatherNo = (v.slice k).gatherNo + 1 ∧
      (∀ i st, i < msgN w → (isFF w = true → i = 0) → v.elemCheck w i = some st → spGet none e.stat i = some st) ∧
      (∀ i, i < msgN w → v.elemCheck w i = none → spGet none e.stat i = none)) ∧
  (∀ (s : State) (k : Nat) (e : Gather), s.boot.rstN = false → k < 18 → (s.slice k).gathers = [e] →
    (∀ i, i < msgN e.m → (spGet none e.stat i).isSome = true) → ∃ u r, exec (.gatherScatterComplete k e.idx) s = .next (s.after u) ∧
      (u.slice k).gathers = [] ∧ s.sends u r ∧ r.op = (if isGather e.m then Op.gatherData else Op.scatterRsp) ∧ r.dst = e.m.src ∧
      r.tag = e.m.tag) ∧
  (∀ (s : State) (k i : Nat) (e : Gather), s.boot.rstN = false → k < 18 → (s.slice k).gathers = [e] → i < msgN e.m → spGet none e.stat i = none →
    exec (.gatherScatterComplete k e.idx) s = .next (s.after s))

/-- The locks of the Clamp (11 R436 to R444): allocation, the grant of a free lock, a wait for a held one, the grant that follows a release,
and the freeing of the handle. -/
def Obligations.ClampLocks : Prop :=
  ∀ (s v : State) (p l i : Nat) (m w : Msg) (o : BitVec 8) (e : ClampEnt), w = { m with op := o } → s.admits p w → v = s.heard p w →
    v.takesNew l w → (v.lsl l).clampHold = false → (v.lsl l).hosted = false → (v.slice (v.physOf l)).pwr = .active → v.ent l i = e →
    (o = Op.clampAlloc → l = clLslice w → clKind w = 0 → (∀ j, j < i → (v.ent l j).st ≠ .free) → i < 4096 → e.st = .free →
      (v.bank l).held w.ten < (v.ten w.ten).clampQuota → (v.bank l).reserved ≤ 4096 → (v.bank l).uses ≤ 8192 → ∃ u,
      exec (.clampAlloc p m) s = .next (s.after u) ∧ (u.ent l i).st = .lock ∧ (u.ent l i).ten = w.ten ∧ (u.ent l i).src = w.src ∧
      (u.ent l i).gen = e.gen ∧ v.sends u (respTo w Op.clampComp 0 false 0 [clampSlot (mkHandle l i e.gen) false 0 0])) ∧
    (o = Op.clampAlloc → l = clLslice w → (v.ten w.ten).clampQuota ≤ (v.bank l).held w.ten → ∃ u, exec (.clampAlloc p m) s = .next (s.after u) ∧
      u.bank l = v.bank l ∧ v.sends u (respTo w Op.clampFull 0 false 0 [clampSlot 0 false 0 0])) ∧
    (l = handleSlice w → l < v.pat.nActive → i = handleIdx w → e.st = .lock → e.gen = handleGen w → w.ten = e.ten →
      (o = Op.lockAcq → (v.bank l).queue = [] → e.recs = [] → (v.bank l).uses < 8192 → (v.bank l).lockRecs w.ten < 4096 → ∃ u r,
        exec (.lockAcq p m) s = .next (s.after u) ∧ (u.ent l i).recs = [r] ∧ r.role = .holder ∧ r.m = w ∧
        r.shared = (slotField w 1 70 1 == 1) ∧ v.sends u (respTo w Op.lockGrant 0 false 0 [clampSlot (clHandle w) r.shared 0 0])) ∧
      (∀ h, o = Op.lockAcq → (v.bank l).queue = [] → e.recs = [h] → h.role = .holder → h.shared = false →
        (h.m.src ≠ w.src ∨ h.m.ten ≠ w.ten) → (v.bank l).uses < 8192 → (v.bank l).lockRecs w.ten < 4096 → ∃ u r,
        exec (.lockAcq p m) s = .next (s.after u) ∧ (u.ent l i).recs = [h, r] ∧ r.role = .waiter ∧ r.m = w ∧ r.stamp = v.now ∧
        r.prio = (slotField w 1 71 3).toNat ∧ ∀ q, u.port q = v.port q) ∧
      (∀ r ∈ e.recs, o = Op.lockAcq → (v.bank l).queue = [] → r.m.src = w.src → r.m.ten = w.ten → r.role = .holder ∨ r.role = .waiter → ∃ u,
        exec (.lockAcq p m) s = .next (s.after u) ∧ u.bank l = v.bank l ∧ v.sends u (respTo w Op.reqError 1 false 0 [])) ∧
      (∀ h r, o = Op.lockRel → e.recs = [h, r] → h.role = .holder → h.m.src = w.src → h.m.ten = w.ten → h.note = none → r.role = .waiter →
        v.isSafe = false → ∃ u, exec (.lockRel p m) s = .next (s.after u) ∧ (u.ent l i).recs = [{ r with role := .holder }] ∧
        v.sends u (respTo w Op.clampComp 0 false 0 [clampSlot (clHandle w) false 0 0]) ∧
        v.sends u (respTo r.m Op.lockGrant 0 false 0 [clampSlot (clHandle r.m) r.shared 0 0])) ∧
      (o = Op.lockRel → e.recs = [] → ∃ u, exec (.lockRel p m) s = .next (s.after u) ∧ (u.ent l i) = e ∧
        v.sends u (respTo w Op.notOwner 0 false 0 [clampSlot (clHandle w) false 0 0])) ∧
      (o = Op.clampFree → w.src = e.src → ∃ u, exec (.clampFree p m) s = .next (s.after u) ∧
        u.ent l i = { ClampEnt.zero with gen := e.gen + 1 } ∧
        v.sends u (respTo w Op.clampComp 0 false 0 [clampSlot (clHandle w) false 0 0]) ∧
        ∀ r ∈ e.recs, r.role = .waiter → v.sends u (respTo r.m Op.lockBroken 0 false 0 [clampSlot (clHandle r.m) false 0 2])) ∧
      (∀ r, o = Op.clampSetPrio → e.recs = [r] → r.role = .waiter → r.m.src = w.src → r.m.ten = w.ten → r.m.tag = slotField w 1 74 12 → ∃ u,
        exec (.clampSetPrio p m) s = .next (s.after u) ∧ (u.ent l i).recs = [{ r with prio := (slotField w 1 71 3).toNat }] ∧
        v.sends u (respTo w Op.clampComp 0 false 0 [clampSlot (clHandle w) false 0 1])))

/-- The barriers of the Clamp, and what is no longer valid (11 R429, R436, R443, R450, R451).
Where it goes beyond the words of the rules it says what the model chooses: log entry 37. -/
def Obligations.ClampBarriers : Prop :=
  (∀ (s v : State) (p l i : Nat) (m w : Msg) (o : BitVec 8) (e : ClampEnt), w = { m with op := o } → s.admits p w → v = s.heard p w →
    v.takesNew l w → (v.lsl l).clampHold = false → (v.lsl l).hosted = false → (v.slice (v.physOf l)).pwr = .active → v.ent l i = e →
    l = handleSlice w → l < v.pat.nActive → i = handleIdx w →
    (o = Op.barrierArrive → e.st = .barrier → e.gen = handleGen w → w.ten = e.ten → e.recs.length < e.res →
      (e.count + (slotField w 1 86 20).toNat + 1 < e.target + 1 → ∃ u r, exec (.barrierArrive p m) s = .next (s.after u) ∧
        (u.ent l i).count = e.count + (slotField w 1 86 20).toNat + 1 ∧ (u.ent l i).recs = e.recs ++ [r] ∧ r.m = w ∧
        (u.ent l i).epoch = e.epoch ∧ ∀ q, u.port q = v.port q) ∧
      (e.count + (slotField w 1 86 20).toNat + 1 = e.target + 1 → ∃ u, exec (.barrierArrive p m) s = .next (s.after u) ∧
        (u.ent l i).count = 0 ∧ (u.ent l i).recs = [] ∧ (u.ent l i).epoch = e.epoch + 1 ∧
        v.sends u (respTo w Op.barrierDone 0 false 0 [clampSlot (clHandle w) false (e.epoch + 1) 0]) ∧
        ∀ r ∈ e.recs, v.sends u (respTo r.m Op.barrierDone 0 false 0 [clampSlot (clHandle r.m) false (e.epoch + 1) 0])) ∧
      (e.target + 1 < e.count + (slotField w 1 86 20).toNat + 1 → ∃ u, exec (.barrierArrive p m) s = .next (s.after u) ∧
        (u.ent l i).st = .broken ∧ (u.ent l i).cause = 6 ∧ (u.ent l i).recs = [] ∧
        v.sends u (respTo w Op.lockBroken 0 false 0 [clampSlot (clHandle w) false 0 6]))) ∧
    (∀ c, (c, o) ∈ [(Instr.clampFree p m, Op.clampFree), (.lockAcq p m, Op.lockAcq), (.lockRel p m, Op.lockRel),
        (.barrierArrive p m, Op.barrierArrive), (.clampSetPrio p m, Op.clampSetPrio)] → (v.bank l).queue = [] →
      e.st = .free ∨ e.gen ≠ handleGen w → ∃ u, exec c s = .next (s.after u) ∧ u.bank l = v.bank l ∧
      v.sends u (respTo w Op.handleStale 0 false 0 [clampSlot (clHandle w) false 0 0]))) ∧
  (∀ (s v : State) (p : Nat) (m w : Msg), w = { m with op := Op.lockAcq } → s.admits p w → v = s.heard p w → v.pat.nActive ≤ handleSlice w →
    exec (.lockAcq p m) s = .next (s.after (v.send (respTo w Op.handleStale 0 false 0 [clampSlot (clHandle w) false 0 0])))) ∧
  (∀ (s : State) (l : Nat), s.boot.rstN = false → l < s.pat.nActive →
    ((s.bank l).queue = [] → exec (.clampIngressRetry l) s = .next (s.after s)) ∧
    (∀ m p t r, (s.bank l).queue = (m, p) :: t → s.clampAt l m = (true, r) →
      exec (.clampIngressRetry l) s = .next (s.after (r.modBank l (fun b => { b with queue := t })))) ∧
    (∀ m p t r, (s.bank l).queue = (m, p) :: t → s.clampAt l m = (false, r) → exec (.clampIngressRetry l) s = .next (s.after s)))

/-- Answers to snoops (05 R174, R193; 06 R211, R216, R224, R264): one that matches no transaction is counted; one that matches takes its
copy off the list, tells the owner's STATE and gives the owner's dirty data; a STATE that its column of R211 does not list is counted.
Where it goes beyond the words of the rules it says what the model chooses: log entries 37 and 49. -/
def Obligations.SnoopResponses : Prop :=
  ∀ (s v : State) (p k t : Nat) (m w : Msg) (row : Instr) (o : BitVec 8) (isData : Bool),
    (row, o, isData) ∈ [(Instr.snpRsp p m, Op.snpRsp, false), (.snpRspData p m, Op.snpRspData, true)] →
    w = { m with op := o } → s.admits p w → v = s.heard p w → k = w.htx.toNat → t = w.tag.toNat →
    (v.txn k t = none → exec row s = .next (s.after (v.msgCase p w 8))) ∧
    (∀ (x : Txn) (c d : Copy), v.txn k t = some x → x.kind = .client → x.phase = .snoop → x.copies = [c, d] → c.dst = w.src →
      c.range = msgAgg w → c.op ∈ [Op.snpShared, Op.snpUnique, Op.snpOnce, Op.snpMakeInv, Op.snpBackInv] → w.ten = x.m.ten →
      (msgDirty w = isData → legalAnswer c.op (msgState w) isData = true → ∃ u y, exec row s = .next (s.after u) ∧ u.txn k t = some y ∧
        y.copies = [d] ∧ y.xState = (if c.toOwner then msgState w else x.xState) ∧ y.lrec = x.lrec ∧
        (isData = true → c.toOwner = true → y.data = some (msgLine w 1, msgPoison4 w) ∧ y.dirty = true) ∧
        (isData = true → c.toOwner = false → y.data = x.data ∧ u.fget F.SLC_SHED_XDATA_COUNT k =
          (v.fget F.SLC_SHED_XDATA_COUNT k + 1) % 2 ^ F.SLC_SHED_XDATA_COUNT.wid)) ∧
      (msgDirty w ≠ isData ∨ legalAnswer c.op (msgState w) isData = false → exec row s = .next (s.after (v.msgCase p w 8))))

/-- The end of an acknowledged transaction (06 R229, R232; 07 R256, R257, R266): CompAck and Settle close the entry that waits for them, and are
counted when none does.
Where it goes beyond the words of the rules it says what the model chooses: log entry 37. -/
def Obligations.FollowOnMessages : Prop :=
  ∀ (s v : State) (p : Nat) (m w : Msg) (row : Instr) (o : BitVec 8) (ph : Phase),
    (row, o, ph) ∈ [(Instr.compAck p m, Op.compAck, .ack), (.settle p m, Op.settle, .settle)] →
    w = { m with op := o } → s.admits p w → v = s.heard p w →
    (v.waitingAt w ph = none → exec row s = .next (s.after (v.msgCase p w 8))) ∧
    (∀ k t x, v.waitingAt w ph = some (k, t) → v.txn k t = some x → ∃ u, exec row s = .next (s.after u) ∧
      (∀ y, u.txn k t = some y → y.opened = false ∧ y.phase = .closed ∧ y.copies = []) ∧ Reaction.admitNext k ∈ u.due ∧
      (∀ e ∈ u.win (v.winSlice x.m) (winSetOf x.m.src x.m.ten x.m.tag), keyOf x.m e = true → e.st ≠ .waiting) ∧
      (∀ j, j ≠ t → u.txn k j = v.txn k j) ∧ u.regs = v.regs)

/-- The answers of memory (05 R178; 06 R226; 07 R257; 10 R397, R399, R409): data for a transaction, data that is too late, the end of a write
and of an offer, and an answer that matches nothing.
Where it goes beyond the words of the rules it says what the model chooses: log entries 37, 49 and 52. -/
def Obligations.MemoryAnswers : Prop :=
  ∀ (s v : State) (p k t : Nat) (m w : Msg) (o : BitVec 8), w = { m with op := o } → s.admits p w → v = s.heard p w →
    k = w.htx.toNat → t = w.tag.toNat →
    (v.txn k t = none → (o = Op.memData → exec (.memData p m) s = .next (s.after (v.msgCase p w 8))) ∧
      (o = Op.memCancelled → exec (.memCancelled p m) s = .next (s.after (v.msgCase p w 8)))) ∧
    (∀ (x : Txn) (r : MemWait) (d : Copy), o = Op.memData → v.txn k t = some x → x.memRd = some r → w.ten = x.m.ten → r.cancelled = false →
      x.dataUnused = false → x.kind = .client → v.wrPending k x.line = false → x.copies = [d] → x.phase = .snoop → ∃ u,
      exec (.memData p m) s = .next (s.after u) ∧ u.txn k t = some { x with
        memRd := none, specHeld := r.spec, data := some (msgLine w 1, msgPoison4 w), dirty := false, fromMem := true }) ∧
    (∀ (x : Txn) (r : MemWait), v.txn k t = some x → x.memRd = some r → w.ten = x.m.ten → x.opened = false → x.phase = .closed →
      (v.slice k).memOps = [] →
      (o = Op.memData → ∃ u, exec (.memData p m) s = .next (s.after u) ∧ u.txn k t = none ∧ u.fget F.SLC_COH_SPECWASTE_COUNT k =
        (v.fget F.SLC_COH_SPECWASTE_COUNT k + 1) % 2 ^ F.SLC_COH_SPECWASTE_COUNT.wid) ∧
      (o = Op.memCancelled → r.cancelled = true → ∃ u, exec (.memCancelled p m) s = .next (s.after u) ∧ u.txn k t = none ∧
        u.fget F.SLC_COH_SPECWASTE_COUNT k = (v.fget F.SLC_COH_SPECWASTE_COUNT k + 1) % 2 ^ F.SLC_COH_SPECWASTE_COUNT.wid)) ∧
    ((v.slice k).memOps = [] → (o = Op.memWrAck → exec (.memWrAck p m) s = .next (s.after (v.msgCase p w 8))) ∧
      (o = Op.memOfferRsp → exec (.memOfferRsp p m) s = .next (s.after (v.msgCase p w 8)))) ∧
    (∀ b : MemOp, (v.slice k).memOps = [b] → b.tag = w.tag → b.ten = w.ten → b.retire = none → b.ctx = none → (v.slice k).trk = [] →
      (o = Op.memWrAck → b.offer = false → b.clean = none →
        exec (.memWrAck p m) s = .next (s.after (v.modSlice k (fun c => { c with memOps := [] })))) ∧
      (∀ set way i, o = Op.memWrAck → b.offer = false → b.dead = false → b.clean = some (set, way, i, false) →
        (tagV (v.frame k set way).tag).getLsbD i = true → subAddr set (v.frame k set way).tag i = b.line → ∃ u,
        exec (.memWrAck p m) s = .next (s.after u) ∧ (u.slice k).memOps = [] ∧ u.frame k set way = (v.frame k set way).cleanSub i) ∧
      (o = Op.memOfferRsp → b.offer = true → b.dead = false → w.fspec.getLsbD 0 = true → ∃ u, exec (.memOfferRsp p m) s = .next (s.after u) ∧
        (u.slice k).memOps = [{ b with offer := false, deadline := v.now + v.snpTmo b.ten }] ∧
        u.fget F.SLC_HC_OFFER_ACCEPT k = min (v.fget F.SLC_HC_OFFER_ACCEPT k + 1) (onesMask F.SLC_HC_OFFER_ACCEPT.wid)) ∧
      (o = Op.memOfferRsp → b.offer = true → w.fspec.getLsbD 0 = false → ∃ u, exec (.memOfferRsp p m) s = .next (s.after u) ∧
        (u.slice k).memOps = [] ∧
        u.fget F.SLC_HC_OFFER_DECLINE k = min (v.fget F.SLC_HC_OFFER_DECLINE k + 1) (onesMask F.SLC_HC_OFFER_DECLINE.wid)))

/-- Answers to the recovery and census messages (06 R237, R239; 09 R370, R374).
Where it goes beyond the words of the rules it says what the model chooses: log entries 37 and 51. -/
def Obligations.RecoveryAnswers : Prop :=
  ∀ (s v : State) (p k t : Nat) (m w : Msg) (o : BitVec 8) (x : Txn), w = { m with op := o } → s.admits p w → v = s.heard p w →
    k = w.htx.toNat → t = w.tag.toNat → v.txn k t = some x →
    (∀ c, o = Op.seizeAck → x.seized = [c] → c.op = Op.seizeNotice → c.dst = w.src → w.ten = x.copyTen c → x.phase ≠ .seizeClose →
      exec (.seizeAck p m) s = .next (s.after (v.setTxn k t (some { x with seized := [] })))) ∧
    (∀ c, o = Op.seizeAck → x.seized = [c] → c.op = Op.seizeNotice → c.dst = w.src → w.ten = x.copyTen c → x.phase = .seizeClose →
      w.src = x.m.src → ∃ u, exec (.seizeAck p m) s = .next (s.after u) ∧ ∀ y, u.txn k t = some y → y.opened = false ∧ y.phase = .closed) ∧
    (o = Op.seizeAck → x.seized = [] → exec (.seizeAck p m) s = .next (s.after (v.msgCase p w 8))) ∧
    (∀ c d, o = Op.rcvInvRsp → x.kind = .client → x.phase = .recall → x.copies = [c, d] → c.op = Op.rcvInv → c.dst = w.src →
      c.range = msgAgg w → w.ten = x.m.ten →
      (msgDirty w = false → exec (.rcvInvRsp p m) s = .next (s.after (v.setTxn k t (some { x with copies := [d] })))) ∧
      (msgDirty w = true → exec (.rcvInvRsp p m) s = .next (s.after ((v.setTxn k t (some { x with copies := [d] })).hcWriteLine k c.line
        x.m.ten (msgLine w 1) (msgPoison4 w) (BitVec.ofNat 12 t) true)))) ∧
    (∀ c, o = Op.rcvInvRsp → x.copies = [] → x.seized = [c] → c.op = Op.rcvInv → c.dst = w.src → c.range = msgAgg w → w.ten = x.copyTen c →
      exec (.rcvInvRsp p m) s = .next (s.after (v.setTxn k t (some { x with seized := [] })))) ∧
    (∀ l n c d r, o = Op.censusRsp → x.kind = .census l → x.scope = .sfSet n → x.copies = [c, d] → c.op = Op.censusSnp → c.range = false →
      c.dst = w.src → msgAgg w = false → x.rebuilt = [(c.line, w.ten, r)] → ∃ u y, exec (.censusRsp p m) s = .next (s.after u) ∧
      u.txn k t = some y ∧ y.copies = [d] ∧ y.rebuilt = [(c.line, w.ten,
        if msgState w = stUC ∨ msgState w = stUD ∨ msgState w = stO then { r with own := some c.dst }
        else if msgState w = stS then { r with sh := addSharer (v.ten w.ten) r.sh c.dst } else r)])

/-- Snoops that are not answered (06 R235, R236; 07 R283; 09 R370): the line is seized or the block kept, the count and record move, and the
transaction goes on without the copy.
Where it goes beyond the words of the rules it says what the model chooses: log entries 9, 45 and 51. -/
def Obligations.SnoopTimeouts : Prop :=
  ∀ (s : State) (k t : Nat) (x : Txn) (c d : Copy), s.boot.rstN = false → k < 18 → s.txn k t = some x → x.copies = [c, d] → c.deadline ≠ 0 →
    (x.kind = .client → x.phase = .snoop → c.toOwner = true → ∃ u y, exec (.snoopTimeoutOwner k t) s = .next (s.after u) ∧
      u.txn k t = some y ∧ y.copies = [d] ∧ y.lrec.own = none ∧ y.xState = stI ∧ y.data.isSome = true ∧ u.now = max s.now c.deadline ∧
      u.fget F.SLC_COH_SEIZECNT_OWNER k = min (s.fget F.SLC_COH_SEIZECNT_OWNER k + 1) (onesMask F.SLC_COH_SEIZECNT_OWNER.wid) ∧
      u.fget F.SLC_COH_LASTSEIZE2_NODE k = c.dst.toNat ∧ u.fget F.SLC_COH_LASTSEIZE0_KIND k = 0) ∧
    (x.kind = .client → x.phase = .snoop → c.toOwner = false → c.op ≠ Op.rcvInv → c.op ≠ Op.censusSnp → ∃ u y,
      exec (.snoopTimeoutSharer k t c.dst c.range) s = .next (s.after u) ∧ u.txn k t = some y ∧ y.copies = [d] ∧
      y.kept = x.kept ++ [(c.dst, c.k)] ∧ u.now = max s.now c.deadline ∧
      u.fget F.SLC_COH_SEIZECNT_SHARER k = min (s.fget F.SLC_COH_SEIZECNT_SHARER k + 1) (onesMask F.SLC_COH_SEIZECNT_SHARER.wid) ∧
      u.fget F.SLC_COH_LASTSEIZE0_KIND k = 1) ∧
    (∀ l n, x.kind = .census l → x.scope = .sfSet n → c.op = Op.censusSnp → c.line = lineAddr c.line → ∃ u y,
      exec (.censusSnoopTimeout k t c.line c.dst c.range) s = .next (s.after u) ∧ u.txn k t = some y ∧ y.copies = [d] ∧
      u.now = max s.now c.deadline ∧
      u.fget F.SLC_COH_SEIZECNT_OWNER k = min (s.fget F.SLC_COH_SEIZECNT_OWNER k + 1) (onesMask F.SLC_COH_SEIZECNT_OWNER.wid)) ∧
    (x.kind = .client → x.phase = .recall → c.op = Op.rcvInv → c.line = lineAddr c.line → ∃ u y,
      exec (.recallCopyTimeout k t c.line c.dst) s = .next (s.after u) ∧ u.txn k t = some y ∧ y.copies = [d] ∧
      y.kept = x.kept ++ [(c.dst, c.k)] ∧ u.now = max s.now c.deadline ∧
      u.fget F.SLC_COH_SEIZECNT_OWNER k = min (s.fget F.SLC_COH_SEIZECNT_OWNER k + 1) (onesMask F.SLC_COH_SEIZECNT_OWNER.wid))

/-- Completions, memory and holds that time out (06 R237, R238, R241; 08 R325; 10 R395, R396, R399; 07 R268).
Where it goes beyond the words of the rules it says what the model chooses: log entries 9, 14 and 50. -/
def Obligations.TransactionTimeouts : Prop :=
  (∀ (s : State) (k t : Nat) (x : Txn), s.boot.rstN = false → k < 18 → s.txn k t = some x →
    (x.phase = .settle → ∃ u y, exec (.settleTimeout k t) s = .next (s.after u) ∧ u.txn k t = some y ∧ y.phase = .seizeClose ∧
      u.now = max s.now x.ackBy ∧ y.ackBy = u.now + s.snpTmo x.m.ten ∧
      u.fget F.SLC_COH_SEIZECNT_SETTLE k = min (s.fget F.SLC_COH_SEIZECNT_SETTLE k + 1) (onesMask F.SLC_COH_SEIZECNT_SETTLE.wid) ∧
      u.fget F.SLC_COH_LASTSEIZE0_KIND k = 2) ∧
    (x.phase = .seizeClose → ∃ u, exec (.seizeCloseTimeout k t) s = .next (s.after u) ∧
      ∀ y, u.txn k t = some y → y.opened = false ∧ y.phase = .closed) ∧
    (x.phase ≠ .settle → exec (.settleTimeout k t) s = .next (s.after s)) ∧
    (x.phase ≠ .seizeClose → exec (.seizeCloseTimeout k t) s = .next (s.after s)) ∧
    (x.phase ≠ .ack → exec (.compAckTimeout k t) s = .next (s.after s)) ∧
    (x.phase = .ack → ∃ u, exec (.compAckTimeout k t) s = .next (s.after u) ∧ u.now = max s.now x.ackBy ∧
      (∀ y, u.txn k t = some y → y.opened = false ∧ y.phase = .closed) ∧
      u.fget F.SLC_COH_TMOCNT_ACK k = min (s.fget F.SLC_COH_TMOCNT_ACK k + 1) (onesMask F.SLC_COH_TMOCNT_ACK.wid)) ∧
    (∀ r d, x.kind = .client → x.memRd = some r → r.cancelled = false → x.dataUnused = false → x.copies = [d] → x.phase = .snoop → ∃ u y l,
      exec (.memrdTimeout k t) s = .next (s.after u) ∧ u.txn k t = some y ∧ y.memRd = none ∧ y.data = some (l, 0xF) ∧
      u.now = max s.now r.deadline ∧
      u.fget F.SLC_COH_TMOCNT_MEM k = min (s.fget F.SLC_COH_TMOCNT_MEM k + 1) (onesMask F.SLC_COH_TMOCNT_MEM.wid)) ∧
    (∀ v, x.kind = .companion → x.phase = .fill → v = s.hcCheckSet k (hcSetOf x.line) →
      (v.fillOk k x.line = true → v.wrPending k x.line = false → ∃ u y, exec (.companionFill k t) s = .next (s.after u) ∧
        u.txn k t = some y ∧ y.phase = .mem ∧ y.memRd = some ⟨false, false, v.now + v.maxTmo⟩) ∧
      (v.fillOk k x.line = false ∨ v.wrPending k x.line = true → ∃ u, exec (.companionFill k t) s = .next (s.after u) ∧
        ∀ y, u.txn k t = some y → y.opened = false ∧ y.phase = .closed)) ∧
    (∀ r, x.kind = .companion → x.memRd = some r → ∃ u, exec (.companionFillTimeout k t) s = .next (s.after u) ∧
      u.now = max s.now r.deadline ∧ (∀ y, u.txn k t = some y → y.opened = false ∧ y.phase = .closed) ∧
      u.fget F.SLC_COH_TMOCNT_MEM k = min (s.fget F.SLC_COH_TMOCNT_MEM k + 1) (onesMask F.SLC_COH_TMOCNT_MEM.wid)) ∧
    (∀ a, x.phase = .hold → x.opened = true → x.scope = .line (lineAddr a) → (s.slice k).trk = [(t, some x)] → ∃ u,
      exec (.rsvHoldTimeout k a) s = .next (s.after u) ∧ u.now = max s.now x.ackBy ∧
      ∀ y, u.txn k t = some y → y.opened = false ∧ y.phase = .closed)) ∧
  (∀ (s : State) (k : Nat) (b : MemOp), s.boot.rstN = false → k < 18 → (s.slice k).memOps = [b] → (s.slice k).trk = [] → b.retire = none →
    b.ctx = none → b.clean = none →
    (s.boot.flushBy = none → b.offer = false → ∃ u, exec (.memwrTimeout k b.tag) s = .next (s.after u) ∧ (u.slice k).memOps = [] ∧
      u.now = max s.now b.deadline ∧ u.flag F.SAF_FAULT_CONTAINED = true ∧
      u.fget F.SLC_COH_TMOCNT_MEM k = min (s.fget F.SLC_COH_TMOCNT_MEM k + 1) (onesMask F.SLC_COH_TMOCNT_MEM.wid)) ∧
    (b.offer = true → ∃ u, exec (.memOfferTimeout k b.tag) s = .next (s.after u) ∧ (u.slice k).memOps = [] ∧ u.now = max s.now b.deadline ∧
      u.fget F.SLC_HC_OFFER_DECLINE k = min (s.fget F.SLC_HC_OFFER_DECLINE k + 1) (onesMask F.SLC_HC_OFFER_DECLINE.wid))) ∧
  (∀ (s : State) (l set : Nat) (t : Time), s.boot.rstN = false → l < s.pat.nActive → set < 2048 → s.winEnd l set = some t → ∃ u,
    exec (.windowEntryExpiry l set) s = .next (s.after u) ∧ u.now = max s.now t ∧
    (∀ e, e ∈ u.win l set ↔ e ∈ s.win l set ∧ u.winLive l e = true)) ∧
  (∀ (s : State) (l set : Nat), s.boot.rstN = false → s.winEnd l set = none → exec (.windowEntryExpiry l set) s = .next (s.after s))

/-- Scrubbing and the diagnostic reads (09 R366, R367, R371, R378; 10 R404, R405; 03 R103; 11 R453, R457; 21 R751): a way with a hard fault is
retired, GO clears VALID and the end of the read sets it beside the entry, and the probe answers with the map.
Where it goes beyond the words of the rules it says what the model chooses: log entries 60, 61 and 82. -/
def Obligations.ScrubAndDiagnostics : Prop :=
  (∀ (s : State) (k n w : Nat), s.boot.rstN = false → k < 18 → s.scrubbed k = true → s.jig = [] → w < 16 →
    ((s.slice k).sf = [] → exec (.sfScrubPass k []) s = .next (s.after (s.latentRan (unitSlice k) 1))) ∧
    ((s.slice k).hc = [] → exec (.hcScrubPass k []) s = .next (s.after (s.latentRan (unitSlice k) 7))) ∧
    (n < 65536 → (s.slice k).sf = [] → s.sfRetired k n w = false → (s.slice k).sfRet.length < 256 → ∃ u,
      exec (.sfScrubPass k [(n, w)]) s = .next (s.after u) ∧ (u.slice k).sfRet = (s.slice k).sfRet ++ [(n, w)] ∧
      u.fget F.SLC_SF_ECCCNT_CE k = min (s.fget F.SLC_SF_ECCCNT_CE k + 1) (onesMask F.SLC_SF_ECCCNT_CE.wid)) ∧
    (n < 1024 → (s.slice k).hc = [] → (s.slice k).memOps = [] → (s.slice k).hcRet.contains (n, w) = false →
      (s.slice k).hcRet.length < 128 → ∃ u, exec (.hcScrubPass k [(n, w)]) s = .next (s.after u) ∧
      (u.slice k).hcRet = (s.slice k).hcRet ++ [(n, w)])) ∧
  (∀ (s : State) (who : Party) (k : Nat) (v : Word) (i : BitVec 12), k < 18 →
    (s.takes who (slcReg k 0x838) → ∃ u, exec (.sfRdselGo who k v) s = .next (s.after u) ∧ (u.slice k).rdBusy = true ∧
      u.flag F.SLC_SF_RDDATA3_VALID k = false ∧ u.fget F.SLC_SF_RDSEL_SET k = getBits v 0 16 ∧
      u.fget F.SLC_SF_RDSEL_WAY k = getBits v 16 4) ∧
    (s.takes who (slcReg k 0x824) → exec (.sfLooseClear who k) s =
      .next (s.after (s.modSlice k (fun c => { c with allLoose := false, loose := [] })))) ∧
    (s.takes who (slcReg k 0xD18) → ∃ u, exec (.clampHselGo who k i) s = .next (s.after u) ∧ (u.slice k).hselBusy = true ∧
      u.flag F.SLC_CLAMP_HVAL0_VALID k = false ∧ u.fget F.SLC_CLAMP_HSEL_INDEX k = i.toNat) ∧
    (∀ l, s.takes who (slcReg k 0xD14) → s.logicalOn k = some l → (s.ent l i.toNat).st = .lock → ∃ u,
      exec (.clampBreak who k i) s = .next (s.after u) ∧ (u.ent l i.toNat).st = .broken ∧ (u.ent l i.toNat).cause = 3 ∧
      (u.ent l i.toNat).recs = [] ∧ ∀ r ∈ (s.ent l i.toNat).recs, r.role = .waiter →
        s.sends u (respTo r.m Op.lockBroken 0 false 0 [clampSlot (clHandle r.m) false 0 3])) ∧
    (s.takes who 0x144 → ∃ u, exec (.hprobeGo who v) s = .next (s.after u) ∧ u.probing = true ∧
      u.flag F.GLB_HPROBE_RES0_VALID = false ∧ u.fget F.GLB_HPROBE_ADDR_HI_ADDR_HI = getBits v 0 20)) ∧
  (∀ (s : State) (k : Nat), s.boot.rstN = false → k < 18 →
    (∀ e, (s.slice k).rdBusy = true → s.diagReady k = true → s.diagReads k = true →
      sfCheck (s.sfAt k (s.fget F.SLC_SF_RDSEL_SET k) (s.fget F.SLC_SF_RDSEL_WAY k)) = .good e → ∃ u,
      exec (.sfEntryReadDone k) s = .next (s.after u) ∧ (u.slice k).rdBusy = false ∧ u.flag F.SLC_SF_RDDATA3_VALID k = true ∧
      u.flag F.SLC_SF_RDDATA3_UE k = false ∧ (∀ i, i < 3 → u.fget F.SLC_SF_RDDATA_DATA k i = e.toNat / 2 ^ (32 * i) % 2 ^ 32) ∧
      u.fget F.SLC_SF_RDDATA3_DATA k = e.toNat / 2 ^ 96) ∧
    ((s.slice k).rdBusy = false → exec (.sfEntryReadDone k) s = .next (s.after s)) ∧
    (∀ l e, (s.slice k).hselBusy = true → s.awake k = true → s.srole k = .active → s.logicalOn k = some l →
      e = s.ent l (s.fget F.SLC_CLAMP_HSEL_INDEX k) → ∃ u, exec (.clampEntryReadDone k) s = .next (s.after u) ∧
      (u.slice k).hselBusy = false ∧ u.flag F.SLC_CLAMP_HVAL0_VALID k = true ∧ u.fget F.SLC_CLAMP_HVAL0_GEN k = e.gen.toNat ∧
      u.fget F.SLC_CLAMP_HVAL1_TENANT k = e.ten.toNat ∧ u.fget F.SLC_CLAMP_HVAL1_NODE k = e.src.toNat ∧
      (e.st = .free → u.fget F.SLC_CLAMP_HVAL0_STATE k = 0) ∧ (e.st = .broken → u.fget F.SLC_CLAMP_HVAL0_STATE k = 3)) ∧
    ((s.slice k).hselBusy = false → exec (.clampEntryReadDone k) s = .next (s.after s))) ∧
  (∀ (s : State) (a : Addr), s.boot.rstN = false → s.probing = true →
    a = addrOf (s.fget F.GLB_HPROBE_ADDR_LO_ADDR_LO) (s.fget F.GLB_HPROBE_ADDR_HI_ADDR_HI) → ∃ u,
    exec .hprobeDone s = .next (s.after u) ∧ u.probing = false ∧ u.flag F.GLB_HPROBE_RES0_VALID = true ∧
    u.fget F.GLB_HPROBE_RES1_HC_SET = hcSetOf a ∧ u.fget F.GLB_HPROBE_RES1_SF_SET = sfSetOf a ∧
    u.flag F.GLB_HPROBE_RES0_UNHOMED = (s.rangeOf a).isNone ∧
    ((s.rangeOf a).isSome = true → u.fget F.GLB_HPROBE_RES0_HASH = s.hash a % 256 ∧ u.fget F.GLB_HPROBE_RES0_LSLICE = s.logOf a % 16 ∧
      u.fget F.GLB_HPROBE_RES0_PSLICE = s.sliceOf a % 32))

/-- The home cache's mode, its maintenance operations and its range engine (10 R409, R411, R412, R415, R416, R419).
Where it goes beyond the words of the rules it says what the model chooses: log entries 21, 59 and 60. -/
def Obligations.HomeCacheMaintenance : Prop :=
  (∀ (s : State) (who : Party), s.takes who 0x6000 →
    (s.hcMode = 0 → ∃ u, exec (.hcDisableRequest who) s = .next (s.after u) ∧ u.hcMode = 1 ∧ u.flag F.HCM_MODE_STATUS_BUSY = true ∧
      u.flag F.HCM_MODE_STATUS_PEND_EN = false ∧ ((∃ k ∈ s.actives, (s.slice k).pwr ≠ .deep) →
        u.ctx0 = some { op := 1, base := 0, limit := 2 ^ 52 - 1, ten := none, ways := 0xFFFF })) ∧
    (s.hcMode = 1 → ∃ u, exec (.hcEnableRequest who) s = .next (s.after u) ∧ u.hcMode = 1 ∧ u.flag F.HCM_MODE_STATUS_PEND_EN = true) ∧
    (s.hcMode = 2 → ∃ u, exec (.hcEnableRequest who) s = .next (s.after u) ∧ u.hcMode = 0)) ∧
  (∀ s : State, s.boot.rstN = false →
    (s.hcDrained = true → ∃ u, exec .hcDrainComplete s = .next (s.after u) ∧ u.flag F.HCM_MODE_STATUS_BUSY = false ∧
      u.flag F.HCM_MODE_STATUS_PEND_EN = false ∧ u.hcMode = (if s.flag F.HCM_MODE_STATUS_PEND_EN then 0 else 2)) ∧
    (s.hcDrained = false → exec .hcDrainComplete s = .next (s.after s))) ∧
  (∀ (s : State) (who : Party) (v : Word) (c : Instr) (j : Nat),
    (c, j) ∈ [(Instr.hcmMopClean who v, 0), (.hcmMopCleanInv who v, 1), (.hcmMopInvClean who v, 2)] → s.takes who 0x6018 →
    (s.flag F.HCM_MOP_STATUS_BUSY = true → ∃ u, exec c s = .next (s.after u) ∧ u.flag F.HCM_MOP_STATUS_BUSY = true ∧
      u.fget F.HCM_MOP_STATUS_RESULT = s.fget F.HCM_MOP_STATUS_RESULT ∧ u.slices = s.slices) ∧
    (s.flag F.HCM_MOP_STATUS_BUSY = false → v.getLsbD 2 = false →
      s.rangeOf (addrOf (s.fget F.HCM_MOP_ADDR_LO_ADDR_LO) (s.fget F.HCM_MOP_ADDR_HI_ADDR_HI)) = none → ∃ u,
      exec c s = .next (s.after u) ∧ u.flag F.HCM_MOP_STATUS_BUSY = false ∧ u.fget F.HCM_MOP_STATUS_RESULT = 2 ∧ u.slices = s.slices ∧
      u.fget F.HCM_MOP_CMD_OP = j) ∧
    (s.flag F.HCM_MOP_STATUS_BUSY = false → v.getLsbD 2 = true → getBits v 21 5 ∉ s.actives → ∃ u, exec c s = .next (s.after u) ∧
      u.flag F.HCM_MOP_STATUS_BUSY = false ∧ u.fget F.HCM_MOP_STATUS_RESULT = 3 ∧ u.slices = s.slices) ∧
    (s.flag F.HCM_MOP_STATUS_BUSY = false → v.getLsbD 2 = true → getBits v 21 5 ∈ s.actives →
      (s.slice (getBits v 21 5)).hcRet.contains (getBits v 7 10, getBits v 17 4) = false → ∃ u, exec c s = .next (s.after u) ∧
      u.flag F.HCM_MOP_STATUS_BUSY = true ∧ u.fget F.HCM_MOP_STATUS_RESULT = 0)) ∧
  (∀ (s : State) (who : Party) (v : Word) (c : Instr) (j : Nat) (base limit : Addr),
    (c, j) ∈ [(Instr.hcmRngClean who v, 0), (.hcmRngCleanInv who v, 1), (.hcmRngInvClean who v, 2)] → s.takes who 0x6030 →
    base = addrOf (s.fget F.HCM_RNG_BASE_LO_ADDR_LO) (s.fget F.HCM_RNG_BASE_HI_ADDR_HI) →
    limit = addrOf (s.fget F.HCM_RNG_LIMIT_LO_ADDR_LO) (s.fget F.HCM_RNG_LIMIT_HI_ADDR_HI) →
    (s.hcMode = 1 → ∃ u, exec c s = .next (s.after u) ∧ u.flag F.HCM_RNG_STATUS_REJECTED = true ∧ u.ctx0 = s.ctx0) ∧
    (s.hcMode ≠ 1 → s.flag F.HCM_RNG_STATUS_BUSY = false → limit.toNat < base.toNat → ∃ u, exec c s = .next (s.after u) ∧
      u.flag F.HCM_RNG_STATUS_BUSY = false ∧ u.flag F.HCM_RNG_STATUS_REJECTED = false ∧ u.ctx0 = s.ctx0) ∧
    (s.hcMode ≠ 1 → s.flag F.HCM_RNG_STATUS_BUSY = false → base.toNat ≤ limit.toNat → (∃ k ∈ s.actives, (s.slice k).pwr ≠ .deep) → ∃ u x,
      exec c s = .next (s.after u) ∧ u.flag F.HCM_RNG_STATUS_BUSY = true ∧ u.ctx0 = some x ∧ x.op = j ∧ x.base = base.toNat ∧
      x.limit = limit.toNat)) ∧
  (∀ (s : State) (who : Party), s.takes who 0x6030 → s.ArraysWf →
    (s.flag F.HCM_RNG_STATUS_BUSY = true → ∃ u, exec (.hcmRngAbort who) s = .next (s.after u) ∧ u.flag F.HCM_RNG_STATUS_ABORTED = true) ∧
    (s.flag F.HCM_RNG_STATUS_BUSY = false → exec (.hcmRngAbort who) s = .next (s.after s))) ∧
  (∀ (s : State) (k : Nat) (j : RangeJob), s.boot.rstN = false → k ∈ s.actives → s.rangeOpen k 0 = 0 → s.ctxStopped 0 = false →
    (s.slice k).pwr ≠ .deep → s.ctx0 = some j → (s.slice k).walk0 < 1024 → ∃ u, exec (.rangeEngineSet k 0) s = .next (s.after u) ∧
    (u.slice k).walk0 = (s.slice k).walk0 + 1) ∧
  (∀ (s : State) (k : Nat), s.boot.rstN = false → s.ctx1 = none → exec (.rangeEngineSet k 1) s = .next (s.after s))

/-- The failure of a slice and the two scan-outs that follow (01 R27; 09 R372, R373; 13 R515 to R518; 19 R699).
Where it goes beyond the words of the rules it says what the model chooses: log entry 62. -/
def Obligations.SliceFailure : Prop :=
  (∀ (s : State) (k : Nat) (cause : BitVec 8), s.boot.rstN = false → k < 18 →
    exec (.sliceFault k cause) s = .next (s.after (s.react (.fence k cause))) ∧ (s.srole k = .fenced → s.fence k cause = s) ∧
    (s.srole k = .spare → ((s.fence k cause).srole k = .fenced ∧ (s.fence k cause).flag F.SAF_FAULT_FENCE = true ∧
      ((s.fence k cause).fget F.SAF_FENCED_FENCED).testBit k = true ∧
      (s.log.length < 256 → s.entryNow 0 none (unitSlice k) cause none ∈ (s.fence k cause).log)))) ∧
  (∀ (s : State) (k : Nat) (f : Failure), s.boot.rstN = false → k < 18 → (s.slice k).fail = some f →
    (f.hcDone = false → ∃ u, exec (.hcScanoutDone k) s = .next (s.after u) ∧ (u.slice k).fail = some { f with hcDone := true } ∧
      (u.slice k).hc = [] ∧ (u.slice k).lost = [] ∧ (u.lsl f.lsl).holdLinesUntil = f.at_ + s.maxTmo) ∧
    (f.hcDone = false → ∃ u, exec (.hcScanoutTimeout k) s = .next (s.after u) ∧ (u.slice k).fail = some { f with hcDone := true } ∧
      (u.slice k).hc = [] ∧ u.now = max s.now (f.at_ + usec 100) ∧ (u.lsl f.lsl).holdUntil = f.at_ + s.maxTmo) ∧
    (f.hcDone = true → exec (.hcScanoutDone k) s = .next (s.after s) ∧ exec (.hcScanoutTimeout k) s = .next (s.after s)) ∧
    (f.hcDone = true → ∃ u, exec (.evictionHoldEnd k) s = .next (s.after u) ∧ u.now = max s.now (f.at_ + s.maxTmo) ∧
      (u.lsl f.lsl).holdLines = [] ∧ (u.slice k).fail = (if f.sfDone then none else some f)) ∧
    (f.sfDone = false → ∃ u, exec (.sfScanoutDone k) s = .next (s.after u) ∧ (u.slice k).fail = some { f with sfDone := true } ∧
      (u.slice k).sf = []) ∧
    (f.sfDone = false → ∃ u, exec (.scanoutStall k) s = .next (s.after u) ∧ (u.slice k).fail = some { f with sfDone := true } ∧
      (u.slice k).sf = [] ∧ (∀ d ∈ s.dests f.lsl, u.flag F.SLC_SF_CENSUS_UNREAD d = true ∧ (d ≠ k → (u.slice d).allLoose = true ∧
        (u.slice d).loose = []))) ∧
    (f.sfDone = true → exec (.sfScanoutDone k) s = .next (s.after s) ∧ exec (.scanoutStall k) s = .next (s.after s))) ∧
  (∀ (s : State) (k : Nat), s.boot.rstN = false → k < 18 →
    (∀ c, (s.slice k).census = [c] → c.ready = true → c.next < 65536 → c.opened.length < 48 → ∃ u,
      exec (.censusSetStart k) s = .next (s.after u) ∧
      (u.slice k).census = [{ c with next := c.next + 1, opened := c.opened ++ [c.next] }]) ∧
    ((s.slice k).census = [] → exec (.censusSetStart k) s = .next (s.after s)))

/-- Live migration (13 R508 to R514, R528, R532, R533).
Where it goes beyond the words of the rules it says what the model chooses: log entry 63. -/
def Obligations.MigrationControl : Prop :=
  (∀ (s : State) (who : Party) (v : Word) (a b : Nat), s.takes who 0x320 → a = getBits v 0 5 → b = getBits v 8 5 →
    (s.mig = none → s.srole a = .active → (s.logicalOn a).isSome = true → s.srole b = .spare → s.predCause b = 0 → ∃ u,
      exec (.migStart who v) s = .next (s.after u) ∧ u.mig = some ⟨a, b, false, false⟩ ∧ u.srole b = .target ∧
      u.fget F.GLB_MIG_STATUS_STATE = 1 ∧ u.fget F.GLB_MIG_STATUS_WATERMARK = 0 ∧ u.fget F.GLB_MIG_CTL_SRC = a ∧
      u.fget F.GLB_MIG_CTL_DST = b) ∧
    (s.mig ≠ none ∨ s.srole a ≠ .active ∨ s.srole b ≠ .spare ∨ s.predCause b ≠ 0 → ∃ u, exec (.migStart who v) s = .next (s.after u) ∧
      u.mig = s.mig ∧ u.fget F.GLB_MIG_STATUS_STATE = 6 ∧ ∀ k, u.srole k = s.srole k)) ∧
  (∀ (s : State) (k d : Nat), s.boot.rstN = false → k < 18 → s.mig = none → s.predQ.find? (fun j => s.srole j == .active) = some k →
    (s.logicalOn k).isSome = true → s.spare = some d → ∃ u, exec (.migAutoStart k) s = .next (s.after u) ∧
    u.mig = some ⟨k, d, false, false⟩ ∧ u.srole d = .target ∧ u.fget F.GLB_MIG_STATUS_STATE = 1) ∧
  (∀ (s : State) (k : Nat), s.boot.rstN = false → s.mig ≠ none → exec (.migAutoStart k) s = .next (s.after s)) ∧
  (∀ (s : State) (who : Party), s.takes who 0x320 → s.ArraysWf → (s.mig = none → exec (.migAbort who) s = .next (s.after s)) ∧
    (∀ g, s.mig = some g → (s.slice g.src).ingress = [] → g.src ≠ g.dst → s.srole g.dst = .target → ∃ u,
      exec (.migAbort who) s = .next (s.after u) ∧ u.mig = none ∧ u.srole g.dst = .spare ∧ u.fget F.GLB_MIG_STATUS_STATE = 4)) ∧
  (∀ (s : State) (who : Party) (v : Word), s.takes who 0x324 → getBits v 0 17 ≤ 66560 →
    exec (.migLimitWrite who v) s = .next (s.after (s.fset F.GLB_MIG_LIMIT_LIMIT (getBits v 0 17)))) ∧
  (∀ s : State, s.boot.rstN = false →
    (∀ g, s.mig = some g → g.busy = false → g.handover = false → s.isSafe = false → s.watermark < s.fget F.GLB_MIG_LIMIT_LIMIT →
      s.watermark < 66560 → ∃ u, exec .migCopyUnit s = .next (s.after u) ∧ u.mig = some { g with busy := true } ∧ u.watermark = s.watermark) ∧
    (∀ g, s.mig = some g → g.busy = true ∨ g.handover = true ∨ s.fget F.GLB_MIG_LIMIT_LIMIT ≤ s.watermark →
      exec .migCopyUnit s = .next (s.after s)) ∧
    (∀ g l, s.mig = some g → g.handover = true → s.migDrained g.src = true → s.logicalOn g.src = some l → l < 16 → g.src ≠ g.dst →
      (s.slice g.src).ingress = [] → ∃ u, exec .migHandoverComplete s = .next (s.after u) ∧ u.mig = none ∧ u.physOf l = g.dst ∧
      u.srole g.dst = .active ∧ u.srole g.src = .fenced ∧ u.fget F.GLB_MIG_STATUS_STATE = 3) ∧
    (∀ g, s.mig = some g → g.handover = false → exec .migHandoverComplete s = .next (s.after s)) ∧
    (∀ d, s.flag F.GLB_SPR_STATUS_DEGRADED = true → s.pat.pm = some d → ∃ u, exec .replaceRequestPeriodic s = .next (s.after u) ∧
      u.replaceNo = s.replaceNo + 1 ∧ u.now = max s.now (s.replaceAt + msec 1024) ∧ u.replaceAt = u.now ∧
      ∃ m, s.sends u m ∧ m.op = Op.replaceRequest ∧ m.dst = d) ∧
    (s.flag F.GLB_SPR_STATUS_DEGRADED = false → exec .replaceRequestPeriodic s = .next (s.after s))) ∧
  (∀ (s : State) (who : Party), s.takes who 0x348 → exec (.lossLogNext who) s = .next (s.after { s with lossLog := s.lossLog.tail }))

/-- The delay monitors (02 R60 to R65, R72, R73; 15 R580): the factor of a count, the ageing in parts per ten thousand, and what starts each.
Where it goes beyond the words of the rules it says what the model chooses: log entries 9, 65, 66 and 67. -/
def Obligations.DelayMonitors : Prop :=
  (∀ (s : State) (who : Party) (k : Nat), k < 18 → s.takes who (slcReg k 0xE00) → s.ArraysWf →
    ((s.slice k).measures = false → exec (.dmonStart who k) s = .next (s.after (s.modSlice k (fun c =>
      { c with measuring := true, window := s.fget F.SLC_DMON_CTL_WINDOW k })))) ∧
    ((s.slice k).measures = true → exec (.dmonStart who k) s = .next (s.after s)) ∧
    exec (.dmonClrMin who k) s = .next (s.after (s.fset F.SLC_DMON_FACTOR_MIN 0xFFFF k))) ∧
  (∀ (s : State) (k : Nat), s.boot.rstN = false → k < 18 →
    (s.flag F.SLC_DMON_CTL_AUTO k = true → (s.slice k).autoAt ≠ 0 → ∃ u, exec (.dmonAutoDue k) s = .next (s.after u) ∧
      u.now = max s.now (s.slice k).autoAt ∧ (u.slice k).autoAt = (s.slice k).autoAt + usec (2 ^ s.fget F.SLC_DMON_CTL_INTERVAL k) ∧
      ((s.slice k).measures = true → (u.slice k).deferred = true) ∧ ((s.slice k).measures = false → (u.slice k).measuring = true)) ∧
    (s.flag F.SLC_DMON_CTL_AUTO k = false → exec (.dmonAutoDue k) s = .next (s.after s)) ∧
    (∀ count f, (s.slice k).measuring = true → f = min (256 * min count 0xFFFFF / (1800 * 4 ^ (s.slice k).window)) 0xFFFF → ∃ u,
      exec (.dmonMeasureEnd k count) s = .next (s.after u) ∧ u.fget F.SLC_DMON_SPEED_COUNT k = min count 0xFFFFF ∧
      u.flag F.SLC_DMON_SPEED_VALID k = true ∧ u.fget F.SLC_DMON_FACTOR_FACTOR k = f ∧
      u.fget F.SLC_DMON_FACTOR_MIN k = min f (s.fget F.SLC_DMON_FACTOR_MIN k) ∧
      ((s.slice k).deferred = false → (u.slice k).measuring = false)) ∧
    (∀ count, (s.slice k).measuring = false → exec (.dmonMeasureEnd k count) s = .next (s.after s)) ∧
    ((s.slice k).ageAt ≠ 0 → ∃ u, exec (.ageingDue k) s = .next (s.after u) ∧ (u.slice k).ageing = true ∧
      (u.slice k).ageAt = (s.slice k).ageAt + usec (2 ^ 20) ∧ u.now = max s.now (s.slice k).ageAt ∧ (u.slice k).ceNow = 0 ∧
      (u.slice k).ceHit = decide (s.pat.predCe < (s.slice k).ceNow)) ∧
    (∀ speed fresh, (s.slice k).ageing = true → s.boot.baseBad.getLsbD k = false → 0 < fresh * s.fget F.SLC_DMON_BASE_BASE k → ∃ u,
      exec (.ageingEnd k speed fresh) s = .next (s.after u) ∧ u.flag F.SLC_DMON_AGE_VALID k = true ∧ (u.slice k).ageing = false ∧
      u.fget F.SLC_DMON_AGE_AGE k = 10000 * (fresh * s.fget F.SLC_DMON_BASE_BASE k - speed * 2 ^ 14) /
        (fresh * s.fget F.SLC_DMON_BASE_BASE k)) ∧
    (∀ speed fresh, (s.slice k).ageing = true → s.boot.baseBad.getLsbD k = true → ∃ u, exec (.ageingEnd k speed fresh) s = .next (s.after u) ∧
      u.fget F.SLC_DMON_AGE_AGE k = 1001 ∧ u.flag F.SLC_DMON_AGE_VALID k = true) ∧
    (∀ speed fresh, (s.slice k).ageing = false → exec (.ageingEnd k speed fresh) s = .next (s.after s)))

/-- The start of a tenant reset (12 R483, R484): GO in ACTIVE makes the tenant RESETTING and starts QUIESCE, which answers every request of
the tenant that waits; in every other state GO does nothing.
Where it goes beyond the words of the rules it says what the model chooses: log entry 73. -/
def Obligations.TenantResetGo : Prop :=
  (∀ (s : State) (who : Party) (t : Tenant), s.takes who (tntReg t 0x8) →
    (s.fget F.TNT_STATUS_STATE t.toNat = 1 → ∃ u : State, exec (.tenantResetGo who t) s = .next (s.after (u.quiesce t)) ∧
      u.fget F.TNT_STATUS_STATE t.toNat = 2 ∧ u.fget F.TNT_STATUS_STEP t.toNat = 1 ∧
      u.flag F.TNT_STATUS_QUEUED t.toNat = (!s.tns.queue.isEmpty) ∧ u.tns.queue = s.tns.queue ++ [t] ∧ u.slices = s.slices ∧
      u.ports = s.ports ∧ u.banks = s.banks) ∧
    (s.fget F.TNT_STATUS_STATE t.toNat ≠ 1 → exec (.tenantResetGo who t) s = .next (s.after s))) ∧
  (∀ (u : State) (t : Tenant),
    (∀ k x, k < 18 → x ∈ ((u.quiesce t).slice k).chain ∨ x ∈ ((u.quiesce t).slice k).ingress → x.isClient = true → x.m.ten ≠ t) ∧
    (∀ p f, p < 12 → f ∈ ((u.quiesce t).port p).fences → f.m.ten ≠ t))

/-- The steps after QUIESCE (11 R454; 12 R483, R484, R486 to R489): the first tenant of the queue runs them one after the other, each starts
when the one before it has completed its work, and CLEAR leaves the tenant as R488 and R489 say.
Where it goes beyond the words of the rules it says what the model chooses: log entries 36 and 73. -/
def Obligations.TenantResetSteps : Prop :=
  ∀ (s : State) (t : Tenant), s.boot.rstN = false → s.tns.queue.head? = some t → s.umevoRuns = true → s.isSafe = false →
    (s.tns.done = true →
      (s.fget F.TNT_STATUS_STEP t.toNat = 1 → exec (.tenantDrain t) s = .next (s.after (s.stepStart t 2)) ∧
        (s.stepStart t 2).fget F.TNT_STATUS_STEP t.toNat = 2 ∧ (s.stepStart t 2).tns.done = false) ∧
      (s.fget F.TNT_STATUS_STEP t.toNat = 2 → (∀ k ∈ s.actives, (s.slice k).sf = [] ∧ (s.slice k).census = []) → ∃ u,
        exec (.tenantInvalidate t) s = .next (s.after u) ∧ u.fget F.TNT_STATUS_STEP t.toNat = 3 ∧ u.tns.done = false ∧
        ∀ k ∈ s.actives, (s.slice k).pwr ≠ .deep → (u.slice k).inv = none ∧ ((s.slice k).pwr = .sleep → (u.slice k).waking = true)) ∧
      (s.fget F.TNT_STATUS_STEP t.toNat = 3 → s.ctx1 = none → ∃ u, exec (.tenantClean t) s = .next (s.after u) ∧
        u.fget F.TNT_STATUS_STEP t.toNat = 4 ∧ u.tns.done = false ∧ ((∃ k ∈ s.actives, (s.slice k).pwr ≠ .deep) →
          u.ctx1 = some { op := 1, base := 0, limit := 2 ^ 52 - 1, ten := some t, ways := 0xFFFF })) ∧
      (s.fget F.TNT_STATUS_STEP t.toNat = 3 → s.ctx1 ≠ none → exec (.tenantClean t) s = .next (s.after s)) ∧
      (∀ l i e, s.fget F.TNT_STATUS_STEP t.toNat = 4 → s.pat.nActive = l + 1 → (s.bank l).ents = [(i, e)] → e.st ≠ .free → e.ten = t →
        (∀ j, j < l → s.bank j = Bank.zero) → ∃ u, exec (.tenantRevoke t) s = .next (s.after u) ∧
        u.fget F.TNT_STATUS_STEP t.toNat = 5 ∧ u.ent l i = { ClampEnt.zero with gen := e.gen + 1 }) ∧
      (s.fget F.TNT_STATUS_STEP t.toNat = 5 → spGet none s.tns.held t.toNat = none → SpCanon (fun _ => Staging.zero) s.tns.staging → ∃ u,
        exec (.tenantClear t) s = .next (s.after u) ∧
        u.fget F.TNT_STATUS_STATE t.toNat = (if (s.cfg t).isSome then 1 else 0) ∧ u.fget F.TNT_STATUS_STEP t.toNat = 0 ∧
        u.tns.queue = s.tns.queue.tail ∧ u.flag F.TNT_RST_TIME_VALID t.toNat = true ∧
        u.fget F.TNT_RST_TIME_US t.toNat = min ((s.now - spGet 0 s.tns.at_ t.toNat) / usec 1) (2 ^ 31 - 1) ∧
        spGet none u.tns.tol t.toNat = none ∧ (∀ i, (u.stg i).used = true → (u.stg i).ten ≠ t) ∧
        (∀ k, k < 18 → ∀ r ∈ (u.slice k).rsv, r.ten ≠ t) ∧
        (u.fget F.SAF_TFATAL_TENANT 0 (t.toNat / 32)).testBit (t.toNat % 32) = false ∧ u.fget F.TNT_ACC_CNT_COUNT t.toNat = 0 ∧
        u.flag F.TNT_ACC_LAST1_VALID t.toNat = false ∧ u.fget F.TNT_STG_ERRCNT_STALE t.toNat = 0 ∧
        (∀ v, v < 8 → (u.vec (8 * t.toNat + v)).pend = false ∧ (u.vec (8 * t.toNat + v)).out = none ∧ (u.vec (8 * t.toNat + v)).seq = 0)) ∧
      exec (.tenantStepEnd t) s = .next (s.after s)) ∧
    (s.tns.done = false →
      (s.fget F.TNT_STATUS_STEP t.toNat = 5 ∨ s.fget F.TNT_STATUS_STEP t.toNat = 2 ∧
        (∀ k, k < 18 → (s.slice k).trk = [] ∧ (s.slice k).chain = [] ∧ (s.slice k).ingress = []) → ∃ u,
        exec (.tenantStepEnd t) s = .next (s.after u) ∧ u.tns.done = true ∧
        u.fget F.TNT_STATUS_STEP t.toNat = s.fget F.TNT_STATUS_STEP t.toNat) ∧
      (∀ k j x, s.fget F.TNT_STATUS_STEP t.toNat = 2 → k < 18 → (j, some x) ∈ (s.slice k).trk → x.isClient = true → x.m.ten = t →
        exec (.tenantStepEnd t) s = .next (s.after s)) ∧
      exec (.tenantDrain t) s = .next (s.after s) ∧ exec (.tenantClear t) s = .next (s.after s))

/-- The staging buffers (12 R476 to R479): ALLOC, FREE, LOAD and the data register, with the checks of the handle and of the owner tag and
what each records. -/
def Obligations.StagingBuffers : Prop :=
  (∀ (s : State) (who : Party) (t : Tenant) (n i : Nat), s.takes who (tntReg t 0x40) →
    n = (s.tns.staging.filter (fun e => e.2.used && e.2.ten == t)).length →
    (n < 2 → i < 32 → (s.stg i).used = false → (∀ j, j < i → (s.stg j).used = true) → ∃ u, exec (.stgAlloc who t) s = .next (s.after u) ∧
      u.stg i = ⟨true, (s.stg i).gen, t, masterOf who, []⟩ ∧ (∀ j, j ≠ i → u.stg j = s.stg j) ∧ u.fget F.TNT_STG_STATUS_RESULT t.toNat = 1 ∧
      u.flag F.TNT_STG_STATUS_VALID t.toNat = true ∧ u.fget F.TNT_STG_STATUS_HANDLE t.toNat = (s.stg i).gen.toNat * 32 + i ∧
      u.fget F.TNT_STG_MASTER_ID t.toNat = (masterOf who).toNat % 2 ^ 20) ∧
    (2 ≤ n ∨ (∀ j, j < 32 → (s.stg j).used = true) → ∃ u, exec (.stgAlloc who t) s = .next (s.after u) ∧ u.tns = s.tns ∧ u.fget F.TNT_STG_STATUS_RESULT t.toNat = 2)) ∧
  (∀ (s : State) (who : Party) (t : Tenant) (h : BitVec 16) (b : Staging), s.takes who (tntReg t 0x40) → b = s.stg (h.toNat % 32) →
    (b.used = true → b.gen.toNat = h.toNat / 32 → b.ten = t → b.master = masterOf who →
      (∃ u, exec (.stgFree who t h) s = .next (s.after u) ∧ u.stg (h.toNat % 32) = { Staging.zero with gen := b.gen + 1 } ∧
        u.fget F.TNT_STG_STATUS_RESULT t.toNat = 1 ∧ u.fget F.TNT_STG_STATUS_HANDLE t.toNat = h.toNat) ∧
      (s.fget F.PAT_STATUS_LOADER = 0 → ∃ u, exec (.stgLoad who t h) s = .next (s.after u) ∧ u.tns.load = some (t, b.words) ∧
        u.fget F.PAT_STATUS_LOADER = 2 ∧ u.fget F.TNT_STG_STATUS_RESULT t.toNat = 1) ∧
      (s.fget F.PAT_STATUS_LOADER ≠ 0 → ∃ u, exec (.stgLoad who t h) s = .next (s.after u) ∧ u.tns = s.tns ∧
        u.fget F.TNT_STG_STATUS_RESULT t.toNat = 5)) ∧
    (∀ c, c = Instr.stgFree who t h ∨ c = Instr.stgLoad who t h → (b.used = false ∨ b.gen.toNat ≠ h.toNat / 32) → ∃ u,
      exec c s = .next (s.after u) ∧ u.tns = s.tns ∧ u.sources = s.sources ∧ u.fget F.TNT_STG_STATUS_RESULT t.toNat = 3 ∧
      u.fget F.TNT_STG_ERRCNT_STALE t.toNat = min (s.fget F.TNT_STG_ERRCNT_STALE t.toNat + 1) (onesMask F.TNT_STG_ERRCNT_STALE.wid)) ∧
    (∀ c, c = Instr.stgFree who t h ∨ c = Instr.stgLoad who t h → b.used = true → b.gen.toNat = h.toNat / 32 →
      (b.ten ≠ t ∨ b.master ≠ masterOf who) → ∃ u, exec c s = .next (s.after u) ∧ u.tns = s.tns ∧
      u.fget F.TNT_STG_STATUS_RESULT t.toNat = 4 ∧ u.fget F.TNT_STG_ERRCNT_NOTOWN b.ten.toNat =
        min (s.fget F.TNT_STG_ERRCNT_NOTOWN b.ten.toNat + 1) (onesMask F.TNT_STG_ERRCNT_NOTOWN.wid))) ∧
  (∀ (s : State) (who : Party) (t : Tenant) (v : Word) (o i : Nat) (b : Staging), s.takes who (tntReg t 0x50) →
    o = s.fget F.TNT_STG_ADDR_OFFSET t.toNat → i = s.fget F.TNT_STG_ADDR_HANDLE t.toNat % 32 → b = s.stg i →
    (b.used = true → b.gen.toNat = s.fget F.TNT_STG_ADDR_HANDLE t.toNat / 32 → b.ten = t → b.master = masterOf who →
      (∃ u, exec (.stgDataAccess who t (some v)) s = .next (s.after u) ∧ spGet 0 (u.stg i).words o = v ∧
        (∀ j, j ≠ o → spGet 0 (u.stg i).words j = spGet 0 b.words j) ∧ u.fget F.TNT_STG_ADDR_OFFSET t.toNat = (o + 1) % 4096) ∧
      (∃ u, exec (.stgDataAccess who t none) s = .next (s.after u) ∧ u.tns = s.tns ∧
        u.fget F.TNT_STG_ADDR_OFFSET t.toNat = (o + 1) % 4096 ∧ s.regRead who (tntReg t 0x50) = (spGet 0 b.words o, u))) ∧
    (b.used = false ∨ b.gen.toNat ≠ s.fget F.TNT_STG_ADDR_HANDLE t.toNat / 32 ∨ b.ten ≠ t ∨ b.master ≠ masterOf who →
      (∃ u, exec (.stgDataAccess who t (some v)) s = .next (s.after u) ∧ u.tns = s.tns ∧
        u.fget F.TNT_STG_ADDR_OFFSET t.toNat = (o + 1) % 4096) ∧
      (∃ u, exec (.stgDataAccess who t none) s = .next (s.after u) ∧ u.tns = s.tns ∧
        u.fget F.TNT_STG_ADDR_OFFSET t.toNat = (o + 1) % 4096 ∧ s.regRead who (tntReg t 0x50) = (0, u))))

/-- The end of the validation of an overlay (12 R481; 14 R558, R565, R566): without a load it does nothing; a rejected overlay changes nothing but
what is recorded of it; an accepted one is held when it narrows, and is in force at once otherwise.
Where it goes beyond the words of the rules it says what the model chooses: log entries 35 and 36. -/
def Obligations.OverlayValidation : Prop :=
  ∀ s : State, s.boot.rstN = false →
    (s.tns.load = none ∨ s.umevoRuns = false → exec .overlayValidated s = .next (s.after s)) ∧
    (∀ (t : Tenant) (words : Sp Word) (b : List Nat) (bnd : Binding) (o : Overlay), s.tns.load = some (t, words) → s.umevoRuns = true →
      b = wordBytes 4096 words → o = ⟨t, (imgTens b).head?⟩ → bnd.ten = t → bnd.digest = s.digest →
      bnd.seq = (if spGet 0 s.tns.seq t.toNat = 0 then none else some (spGet 0 s.tns.seq t.toNat)) →
      bnd.closed = (s.isSafe || (s.lifecycle == 2 && !s.pat.ovlLocked)) → ∃ u, exec .overlayValidated s = .next (s.after u) ∧
      match overlayErr s.boot.fuses s.lifecycle bnd s.pat (s.tns.waiting ++ s.tns.held.filterMap (·.2)) b with
      | some e => u.tns.load = none ∧ u.fget F.PAT_STATUS_LOADER = 0 ∧ u.flag F.PAT_OVL_VALID = true ∧ u.flag F.PAT_OVL_HELD = false ∧
          u.fget F.PAT_OVL_TENANT = t.toNat ∧ u.fget F.PAT_OVL_CODE = e.code % 256 ∧ u.flag F.PAT_ERR_VALID = true ∧
          u.flag F.PAT_ERR_KIND = true ∧ u.fget F.PAT_ERR_CODE = e.code % 256 ∧ u.pat = s.pat ∧ u.tns.held = s.tns.held ∧
          u.tns.waiting = s.tns.waiting ∧ u.tns.seq = s.tns.seq
      | none =>
        (narrows (s.cfg t) o.cfg = true → u.pat = s.pat ∧ spGet none u.tns.held t.toNat = some o ∧ u.fget F.PAT_OVL_CODE = 0 ∧
          u.flag F.PAT_OVL_HELD = true ∧ u.flag F.TNT_STATUS_PEND_OVL t.toNat = true ∧
          spGet 0 u.tns.seq t.toNat = imgLe b 0x20 4) ∧
        (narrows (s.cfg t) o.cfg = false → s.resetting t = false → s.tns.waiting = [] → s.ctx1 = none →
          s.holdsWays t (s.waysLost o) = false → u.pat = s.pat.withTen t o.cfg ∧ spGet 0 u.tns.seq t.toNat = imgLe b 0x20 4))

/-- Gathering (16 R607 to R609): an event taken joins the batch of its vector, the first opens it, and an event of no vector is counted. -/
def Obligations.EventBatches : Prop :=
  (∀ (s : State) (i : Nat) (e : Ev) (q : List Ev), s.boot.rstN = false → (spGet EvSource.zero s.sources i).q = e :: q →
    (∀ n, s.vecFor e = some n → ∃ u : State, exec (.eventTaken i) s = .next (s.after u.evgServe) ∧
      (spGet EvSource.zero u.sources i).q = q ∧ (∀ j, j ≠ n → u.vec j = s.vec j) ∧ u.regs = s.regs ∧ u.ports = s.ports ∧
      (u.vec n).pend = true ∧ ((s.vec n).pend = false → (u.vec n).count = 1 ∧ (u.vec n).ovf = false ∧ (u.vec n).minsrc = i ∧
        (u.vec n).seen = BitVec.ofNat 32 (2 ^ e.cls) ∧ (u.vec n).t0 = s.now) ∧
      ((s.vec n).pend = true → (u.vec n).count = min 255 ((s.vec n).count + 1) ∧ (u.vec n).minsrc = min (s.vec n).minsrc i ∧
        (u.vec n).ovf = ((s.vec n).ovf || (s.vec n).count == 255) ∧ (u.vec n).seen = (s.vec n).seen ||| BitVec.ofNat 32 (2 ^ e.cls) ∧
        (u.vec n).t0 = (s.vec n).t0)) ∧
    (s.vecFor e = none → ∃ u, exec (.eventTaken i) s = .next (s.after u) ∧ (spGet EvSource.zero u.sources i).q = q ∧
      u.vectors = s.vectors ∧ u.fget F.EVG_DROP_NOVEC = min (s.fget F.EVG_DROP_NOVEC + 1) (onesMask F.EVG_DROP_NOVEC.wid))) ∧
  (∀ (s : State) (i : Nat), s.boot.rstN = false → (spGet EvSource.zero s.sources i).q = [] →
    exec (.eventTaken i) s = .next (s.after s))

/-- The end of a delivery (16 R613, R618, R622): an IntAck or the register acknowledges it, an IntAck that matches none is case 8, and FLUSH empties a
batch. The TARGET of a delivery is the one to which it was first sent. -/
def Obligations.InterruptDelivery : Prop :=
  (∀ (s v : State) (p n : Nat) (m w : Msg), w = { m with op := Op.intAck } → s.admits p w → v = (s.heard p w).evgAwake → n = 8 * w.ten.toNat + w.tag.toNat % 8 →
    (∀ d, (v.vec n).out = some d → d.m.dst = w.src → d.m.ten = w.ten → d.m.tag = w.tag → d.m.htx = w.htx →
      exec (.intAck p m) s = .next (s.after (v.modVec n (fun x => { x with out := none })).evgServe)) ∧
    ((∀ d, (v.vec n).out = some d → d.m.dst ≠ w.src ∨ d.m.ten ≠ w.ten ∨ d.m.tag ≠ w.tag ∨ d.m.htx ≠ w.htx) → ∃ u,
      exec (.intAck p m) s = .next (s.after u) ∧ u.vectors = v.vectors ∧ u.fget F.PRT_MSG_LAST_CASE p = 8 ∧
      u.fget F.PRT_MSG_ERRCNT1_UNEXP p = min (v.fget F.PRT_MSG_ERRCNT1_UNEXP p + 1) (onesMask F.PRT_MSG_ERRCNT1_UNEXP.wid))) ∧
  (∀ (s : State) (who : Party) (n : Nat), s.takes who 0x8008 → n < 1024 →
    ((s.vec n).out ≠ none →
      exec (.evgAck who n) s = .next (s.after (s.evgAwake.modVec n (fun x => { x with out := none })).evgServe)) ∧
    ((s.vec n).out = none → exec (.evgAck who n) s = .next (s.after s.evgAwake)) ∧
    ((s.vec n).pend = true → ∃ u, exec (.evgFlush who n) s = .next (s.after u) ∧ (u.vec n).pend = false ∧ (u.vec n).count = 0 ∧
      (u.vec n).out = (s.vec n).out ∧ (∀ j, j ≠ n → u.vec j = s.vec j) ∧
      u.fget F.EVG_DROP_DISC = min (s.fget F.EVG_DROP_DISC + 1) (onesMask F.EVG_DROP_DISC.wid)) ∧
    ((s.vec n).pend = false → exec (.evgFlush who n) s = .next (s.after s)))

/-- Idle hints, the coalescing registers and retention (16 R614, R617 to R619), the Interrupt of a vector whose coalescing time ends (R610, R611, R615),
and the one that is sent again (R616).
Where it goes beyond the words of the rules it says what the model chooses: log entries 9, 37 and 83. -/
def Obligations.EventGatherer : Prop :=
  (∀ (s v : State) (p : Nat) (m w : Msg), w = { m with op := Op.idleHint } → s.admits p w → v = s.heard p w →
    v.flag F.EVG_STATUS_RETAINED = false →
    ((∀ r ∈ (v.ten w.ten).vectors, r.target ≠ w.src) → ∃ u, exec (.idleHint p m) s = .next (s.after u) ∧ u.vectors = v.vectors ∧
      u.fget F.EVG_DROP_HINT = min (v.fget F.EVG_DROP_HINT + 1) (onesMask F.EVG_DROP_HINT.wid)) ∧
    (∀ r, (v.ten w.ten).vectors.filter (fun x => x.target == w.src) = [r] → exec (.idleHint p m) s =
      .next (s.after (v.modVec (8 * w.ten.toNat + r.vec) (fun x => { x with idle := w.fspec.getLsbD 0 })).evgServe))) ∧
  (∀ (s : State) (who : Party) (n : Nat) (v : Word), n < 1024 → s.takes who (vcoalReg n) → s.flag F.EVG_STATUS_RETAINED = false →
    ∃ u : State, exec (.evgVcoalWrite who n v) s = .next (s.after u.evgServe) ∧ (u.vec n).mask = v.getLsbD 31 ∧
    (1 ≤ getBits v 16 10 → getBits v 16 10 ≤ 1000 → (u.vec n).coalTime = getBits v 16 10) ∧
    (getBits v 16 10 = 0 ∨ 1000 < getBits v 16 10 → (u.vec n).coalTime = (s.vec n).coalTime) ∧
    (getBits v 0 8 ≠ 0 → (u.vec n).coalCount = getBits v 0 8) ∧ (getBits v 0 8 = 0 → (u.vec n).coalCount = (s.vec n).coalCount) ∧
    (∀ j, j ≠ n → u.vec j = s.vec j) ∧ u.regs = s.regs) ∧
  (∀ s : State, s.boot.rstN = false →
    (s.allDeep = true → s.fget F.PWR_CTL_MAX_STATE = 4 → (∀ e ∈ s.vectors, e.2.out = none ∧ e.2.pend = false) →
      exec .evgRetain s = .next (s.after (s.setFlag F.EVG_STATUS_RETAINED true))) ∧
    ((s.allDeep = false ∨ s.fget F.PWR_CTL_MAX_STATE ≠ 4 ∨ ∃ e ∈ s.vectors, e.2.out ≠ none) →
      exec .evgRetain s = .next (s.after s)) ∧
    (s.flag F.EVG_STATUS_RETAINED = true → s.evgServe = s ∧
      exec .evgWake s = .next (s.after (s.setFlag F.EVG_STATUS_RETAINED false).evgServe)) ∧
    (s.flag F.EVG_STATUS_RETAINED = true → s.evgAwake = (s.setFlag F.EVG_STATUS_RETAINED false).evgServe) ∧
    (s.flag F.EVG_STATUS_RETAINED = false → s.evgAwake = s ∧ exec .evgWake s = .next (s.after s))) ∧
  (∀ (s : State) (n : Nat) (v : EvVector), s.boot.rstN = false → n < 1024 → s.vectors = [(n, v)] → s.ready = true →
    s.flag F.EVG_STATUS_RETAINED = false → v.pend = true → v.mask = false → v.enable = true → v.out = none → ∃ u m,
    exec (.vectorCoalTimeout n) s = .next (s.after u) ∧ u.now = max s.now (v.t0 + usec v.coalTime) ∧ (u.vec n).pend = false ∧
    (u.vec n).out = some ⟨m, u.now⟩ ∧ (u.vec n).seq = v.seq + 1 ∧ s.sends u m ∧ m.op = Op.interrupt ∧ m.dst = v.target ∧
    m.ten = vecTen n ∧ m.htx = 0x1F ∧ m.tag = (v.seq.zeroExtend 12 <<< 3 ||| BitVec.ofNat 12 (n % 8)) ∧
    m.body = [interruptSlot (n % 8) v false false]) ∧
  (∀ (s : State) (n : Nat), s.boot.rstN = false → n < 1024 → (s.vec n).pend = false ∨ (s.vec n).mask = true →
    exec (.vectorCoalTimeout n) s = .next (s.after s)) ∧
  (∀ (s : State) (n r : Nat), s.boot.rstN = false → n < 1024 → s.ready = true → r = s.fget F.EVG_CTL_RESEND →
    (∀ d, (s.vec n).out = some d → r ≠ 0 → ∃ u x, exec (.interruptResend n) s = .next (s.after u) ∧
      u.now = max s.now (d.time + usec (2 ^ r)) ∧ (u.vec n).out = some ⟨x, u.now⟩ ∧ s.sends u x ∧ x.op = d.m.op ∧ x.dst = d.m.dst ∧
      x.tag = d.m.tag ∧ x.ten = d.m.ten ∧ x.body = d.m.body.map (fun y => y ||| BitVec.ofNat 128 (2 ^ 18)) ∧
      u.fget F.EVG_RESENT_COUNT = (s.fget F.EVG_RESENT_COUNT + 1) % 2 ^ 32) ∧
    ((s.vec n).out = none ∨ r = 0 → exec (.interruptResend n) s = .next (s.after s)))

/-- The Jig (20 R714, R719, R720, R723): an arming write is checked in the order of R719 and arms the channel or is refused and counted, an armed
channel takes nothing of it, and what disarms a channel.
Where it goes beyond the words of the rules it says what the model chooses: log entries 9 and 81. -/
def Obligations.JigChannels : Prop :=
  (∀ (s : State) (who : Party) (c : Nat) (v w : Word) (k un tr : Nat), c < 8 → s.takes who (chanReg c) → w = v ||| bitWord 31 →
    k = getBits w 24 4 → un = getBits w 16 5 → tr = getBits w 28 2 →
    (spGet none s.jig c ≠ none → exec (.jigArm who c v) s = .next (s.after s)) ∧
    (spGet none s.jig c = none →
      (∀ code, s.jigRefusal c k un tr = some code → ∃ u, exec (.jigArm who c v) s = .next (s.after u) ∧ u.jig = s.jig ∧
        u.fget F.JIG_CH_STATUS_CODE 0 c = code ∧ u.fget F.JIG_REFUSE_CHAN = c ∧ u.fget F.JIG_REFUSE_CODE = code ∧
        u.fget F.JIG_REFUSE_COUNT = min (s.fget F.JIG_REFUSE_COUNT + 1) (onesMask F.JIG_REFUSE_COUNT.wid) ∧
        u.fget F.JIG_CH_CTL_ARM 0 c = s.fget F.JIG_CH_CTL_ARM 0 c ∧ u.log = s.log ∧ u.sources = s.sources) ∧
      (s.jigRefusal c k un tr = none → ∃ u, exec (.jigArm who c v) s = .next (s.after u) ∧
        spGet none u.jig c = some ⟨s.now, 0, 0, false⟩ ∧ u.flag F.JIG_CH_CTL_ARM 0 c = true ∧ u.fget F.JIG_CH_STATUS_FIRED 0 c = 0 ∧
        u.fget F.JIG_CH_CTL_KIND 0 c = k ∧ u.fget F.JIG_CH_CTL_TRIG 0 c = tr ∧ (k ≠ 0xD → u.fget F.JIG_CH_CTL_UNIT 0 c = un) ∧
        (∀ j, j ≠ c → spGet none u.jig j = spGet none s.jig j))) ∧
    (s.lifecycle = 2 → s.jigRefusal c k un tr = some 1) ∧
    (s.lifecycle = 0 → s.pat.jigGrant = false → s.jigRefusal c k un tr = some 2) ∧
    (s.lifecycle = 1 → k = 0 ∨ k = 0xE ∨ tr = 3 → (∀ q, q < 12 → s.role q ≠ .off) → (∀ q, q < 18 → s.srole q = .active) →
      s.jigRefusal c k un tr = some 5) ∧
    (s.isSafe = true → s.jigRefusal c k un tr ≠ none)) ∧
  (∀ (s : State) (who : Party) (c : Nat), c < 8 → s.takes who (chanReg c) →
    (spGet none s.jig c ≠ none → ∃ u, exec (.jigDisarm who c) s = .next (s.after u) ∧
      spGet none u.jig c = none ∧ u.flag F.JIG_CH_CTL_ARM 0 c = false ∧ u.fget F.JIG_CH_STATUS_CODE 0 c = 8 ∧
      (∀ j, j ≠ c → spGet none u.jig j = spGet none s.jig j) ∧
      u.fget F.JIG_CH_CTL_KIND 0 c = s.fget F.JIG_CH_CTL_KIND 0 c) ∧
    (spGet none s.jig c = none → ∃ u, exec (.jigDisarm who c) s = .next (s.after u) ∧ u.jig = s.jig ∧
      (∀ a, a ≠ chanReg c → u.word a = s.word a))) ∧
  (∀ (s : State) (who : Party), s.takes who 0x7004 → ∃ u, exec (.jigDisarmAll who) s = .next (s.after u) ∧
    (∀ c, c < 8 → spGet none u.jig c = none ∧ (spGet none s.jig c ≠ none → u.flag F.JIG_CH_CTL_ARM 0 c = false ∧
      u.fget F.JIG_CH_STATUS_CODE 0 c = 8))) ∧
  (∀ (s : State) (p : Nat), s.boot.rstN = false → p < 12 →
    (∀ h, (s.port p).held = some h → exec (.jigReorderTimeout p) s = .next (s.after ((s.until h.2.2.1).txHeld p))) ∧
    ((s.port p).held = none → exec (.jigReorderTimeout p) s = .next (s.after s)))

/-- Register writes (00 R12, R13, R16; 21 R730, R746, R748, R750): who may write, what a refused write records, and what the access codes do, shown by a
scratch register (RW), GLB_ID (RO), SLCn_SHED_CTL.TWIN (sealed RWL), EVG_CTL.RESEND (a reserved encoding) and EVG_DROP (CLR).
Where it goes beyond the words of the rules it says what the model chooses: log entries 21 and 25. -/
def Obligations.RegisterWrites : Prop :=
  ∀ (s : State) (who : Party) (off : BitVec 24) (v : Word),
    (s.boot.rstN = true → exec (.registerWrite who off v) s = .next s) ∧
    (s.boot.rstN = false → s.shut who = true → exec (.registerWrite who off v) s = .next (s.after s)) ∧
    (s.shut who = false → s.mayAccess who = false → ∃ u, exec (.registerWrite who off v) s = .next (s.after u) ∧
      u.fget F.GLB_ACC_ERR0_DENIED = min (s.fget F.GLB_ACC_ERR0_DENIED + 1) (onesMask F.GLB_ACC_ERR0_DENIED.wid) ∧
      u.fget F.GLB_ACC_LAST_KIND = 1 ∧ u.fget F.GLB_ACC_LAST_WORD = off.toNat / 4 ∧ u.flag F.GLB_ACC_LAST_VALID = true ∧
      (∀ a, a ≠ 0x100 → a ≠ 0x108 → a ≠ 0x10C → u.word a = s.word a)) ∧
    (s.shut who = false → s.mayAccess who = true → off.toNat % 4 ≠ 0 → ∃ u, exec (.registerWrite who off v) s = .next (s.after u) ∧
      u.fget F.GLB_ACC_ERR1_MISALIGN = min (s.fget F.GLB_ACC_ERR1_MISALIGN + 1) (onesMask F.GLB_ACC_ERR1_MISALIGN.wid) ∧
      u.fget F.GLB_ACC_LAST_KIND = 3) ∧
    (s.shut who = false → s.mayAccess who = true → off.toNat % 4 = 0 → s.served off.toNat = false →
      exec (.registerWrite who off v) s = .next (s.after s)) ∧
    (s.takes who off.toNat →
      (∀ i, i < 4 → off.toNat = 0x30 + 4 * i → exec (.registerWrite who off v) s =
        .next (s.after (s.setWord off.toNat v))) ∧
      (off.toNat < 0x30 → exec (.registerWrite who off v) s = .next (s.after s)) ∧
      (0x48000 ≤ off.toNat → exec (.registerWrite who off v) s = .next (s.after s)) ∧
      (∀ k, k < 18 → off.toNat = F.SLC_SHED_CTL_TWIN.addr k 0 → s.flag F.PAT_STATUS_SEALED = true → ∃ u,
        exec (.registerWrite who off v) s = .next (s.after u) ∧ u.fget F.SLC_SHED_CTL_TWIN k = s.fget F.SLC_SHED_CTL_TWIN k ∧
        u.fget F.GLB_ACC_ERR0_LOCKED = min (s.fget F.GLB_ACC_ERR0_LOCKED + 1) (onesMask F.GLB_ACC_ERR0_LOCKED.wid) ∧
        u.fget F.GLB_ACC_LAST_KIND = 2) ∧
      (off.toNat = 0x8000 → ∃ u, exec (.registerWrite who off v) s = .next (s.after u) ∧
        u.fget F.EVG_CTL_RESEND = (if getBits v 0 4 = 15 then s.fget F.EVG_CTL_RESEND else getBits v 0 4)) ∧
      (off.toNat = 0x800C → ∃ u, exec (.registerWrite who off v) s = .next (s.after u) ∧
        (v.getLsbD 31 = true → u.word 0x800C = 0) ∧ (v.getLsbD 31 = false → u.word 0x800C = s.word 0x800C)))

/-- Register accesses in the MGT class (05 R189, R190; 21 R736, R738, R739): a read answers with the register, a write takes effect and is answered, and a
source without the right and a misaligned offset are answered so and change nothing else than the counts.
Where it goes beyond the words of the rules it says what the model chooses: log entries 24 and 37. -/
def Obligations.MgtAccesses : Prop :=
  ∀ (s v : State) (p a : Nat) (m w : Msg) (c : Instr) (o : BitVec 8), (c, o) ∈ [(Instr.regRd p m, Op.regRd), (.regWr p m, Op.regWr)] →
    w = { m with op := o } → s.admits p w → v = s.heard p w → a = (slotField w 1 0 24).toNat →
    (v.ready = false ∨ v.flushing = true → exec c s = .next (s.after v)) ∧
    (v.ready = true → v.flushing = false →
      (v.mayAccess (.mgt w.src) = false → exec c s = .next (s.after ((v.accErr (.mgt w.src) 1 a).send (regRsp w 0 1)))) ∧
      (v.mayAccess (.mgt w.src) = true → a % 4 ≠ 0 →
        exec c s = .next (s.after ((v.accErr (.mgt w.src) 3 a).send (regRsp w 0 2)))) ∧
      (v.mayAccess (.mgt w.src) = true → a % 4 = 0 → o = Op.regRd → a < 0x40000 → a ≠ 0x4008 → v.served a = true →
        exec c s = .next (s.after (v.send (regRsp w (v.look a) 0)))) ∧
      (v.mayAccess (.mgt w.src) = true → a % 4 = 0 → o = Op.regRd → v.served a = false →
        exec c s = .next (s.after (v.send (regRsp w 0 0)))) ∧
      (v.mayAccess (.mgt w.src) = true → a % 4 = 0 → o = Op.regWr → v.served a = true →
        exec c s = .next (s.after ((v.writeAt (.mgt w.src) a (slotField w 1 32 32)).send (regRsp w 0 0)))))

/-- Messages that are not for the home or fail a check (03 R87; 05 R192, R193): the first failing check decides, each case has its counter, a message
between a client and a peer is forwarded, and one that passes every check is neither.
Where it goes beyond the words of the rules it says what the model chooses: log entry 38. -/
def Obligations.RejectedMessages : Prop :=
  ∀ (s v : State) (p : Nat) (m : Msg) (c : Instr), c = Instr.messageForward p m ∨ c = Instr.unexpectedMessage p m →
    s.boot.rstN = false → s.arrives p m = true → v = s.heard p m →
    ((s.present p m).verdict p m = .pass → exec c s = .next (s.after s)) ∧
    (∀ i, (s.present p m).verdict p m = .discard i → i < 9 → ∃ u, exec c s = .next (s.after u) ∧ u.fget F.PRT_MSG_LAST_CASE p = i ∧
      u.fget F.PRT_MSG_LAST_OPCODE p = m.op.toNat ∧ u.fget F.PRT_MSG_LASTSRC_SRC p = m.src.toNat ∧
      u.flag F.PRT_MSG_LAST_VALID p = true ∧ u.ports = v.ports) ∧
    ((s.present p m).verdict p m = .badSource → ∃ u, exec c s = .next (s.after u) ∧ u.ports = v.ports ∧
      u.fget F.PRT_RT_ERRCNT_SRC p = min (v.fget F.PRT_RT_ERRCNT_SRC p + 1) (onesMask F.PRT_RT_ERRCNT_SRC.wid)) ∧
    ((s.present p m).verdict p m = .forward →
      (∀ i, v.role p = .client → v.entryOf m.dst = some i → (v.entry i).home = false → v.role (v.entry i).prim = .peer → v.isSafe = false →
        ∃ u, exec c s = .next (s.after u) ∧ v.sends u m) ∧
      (∀ i, v.role p = .client → v.entryOf m.dst = some i → (v.entry i).home = false → v.role (v.entry i).prim = .client → ∃ u,
        exec c s = .next (s.after u) ∧ u.ports = v.ports ∧
        u.fget F.PRT_RT_ERRCNT_XIT p = min (v.fget F.PRT_RT_ERRCNT_XIT p + 1) (onesMask F.PRT_RT_ERRCNT_XIT.wid)) ∧
      (v.entryOf m.dst = none → ∃ u, exec c s = .next (s.after u) ∧ u.ports = v.ports ∧
        u.fget F.PRT_RT_ERRCNT_XIT p = min (v.fget F.PRT_RT_ERRCNT_XIT p + 1) (onesMask F.PRT_RT_ERRCNT_XIT.wid))) ∧
    ((s.present p m).verdict p m = .unavailable → exec c s = .next (s.after (v.send (plainResp m Op.homeUnavailable)))) ∧
    ((s.present p m).verdict p m = .resetting → exec c s = .next (s.after (v.send (plainResp m Op.tenantResetting)))) ∧
    ((s.present p m).verdict p m = .unhomed → exec c s = .next (s.after (v.send (plainResp m Op.addrUnhomed)))) ∧
    ((s.present p m).verdict p m = .noClass → exec c s = .next (s.after (v.linkError p 5)))

/-- A step takes the command at the front of the queue and runs it on the state with the queue's rest; on an empty queue one clock period of
the timebase passes, and nothing else happens (the model's choice, log entry 8). -/
def Obligations.StepRunsFront : Prop :=
  (∀ (s : State) (c : Instr) (rest : List Instr), step { s with pending := c :: rest } = exec c { s with pending := rest }) ∧
  (∀ s : State, s.pending = [] → step s = .next s.tick ∧ (s.boot.rstN = true → s.tick = s) ∧
    (s.boot.rstN = false → s.tb.slew = 0 → s.trim = 0 → s.tick = { s with now := s.now + 5 * 2 ^ 31 }))

/-- The state after reset (00 R11; 15 R576, R587, R594; 19 R699, R703): every register reads its reset value, RST_N and SAFE_N are asserted, nothing waits or
is under way, and everything that a step keeps holds.
Where it goes beyond the words of the rules it says what the model chooses: log entries 3, 4, 5, 6, 7 and 12. -/
def Obligations.ResetState : Prop :=
  (∀ a, State.reset.word a = regInit a) ∧ State.reset.boot.rstN = true ∧ State.reset.safePin = true ∧ State.reset.pending = [] ∧
  State.reset.log = [] ∧ State.reset.due = [] ∧ State.reset.fget F.GLB_RST_CAUSE_CAUSE = 1 ∧ State.reset.idsHold ∧ State.reset.ArraysWf ∧
  State.reset.pinRule ∧ State.reset.lcLegal ∧ State.reset.queuesFit

/-- Every command ends in a next state, whatever the state, and no command touches the commands that wait behind it. -/
def Obligations.EveryCommandEnds : Prop :=
  ∀ (c : Instr) (s : State), ∃ t, exec c s = .next t ∧ t.pending = s.pending

/-- Every step keeps the canonical form of all arrays of the state, registers, ports, slices, windows, handle banks and vectors among them. -/
def Obligations.ArraysStayCanonical : Prop :=
  ∀ s t : State, s.ArraysWf → step s = .next t → t.ArraysWf

/-- No step changes what the chip hard-wires (21 R748): GLB_ID, GLB_VERSION and the fixed fields of GLB_CAPS. -/
def Obligations.IdentityStays : Prop :=
  ∀ s t : State, s.idsHold → step s = .next t → t.idsHold

/-- Every step keeps the rule of SAFE_N, deasserted only while READY is 1 and the safe state is not in force (15 R594, 19 R703), and a legal
lifecycle state (15 R582). -/
def Obligations.SafePinRuleStays : Prop :=
  ∀ s t : State, step s = .next t → (s.pinRule → t.pinRule) ∧ (s.lcLegal → t.lcLegal)

/-- No step lets a log or an event queue grow beyond what the chip has room for (13 R533, 16 R609, 19 R699). -/
def Obligations.CapacitiesHold : Prop :=
  ∀ s t : State, step s = .next t → (s.log.length ≤ 256 → t.log.length ≤ 256) ∧
    (s.lossLog.length ≤ 1024 → t.lossLog.length ≤ 1024) ∧ (s.queuesFit → t.queuesFit)

/-- While RST_N is asserted no command but a cold reset and the deassertion of RST_N changes a register, a port, a slice, the Pattern, the error log, the
event queues or the timebase (15 R576; the TAP and the pins alone still act).
Where it goes beyond the words of the rules it says what the model chooses: log entry 19. -/
def Obligations.ResetHolds : Prop :=
  ∀ (c : Instr) (s : State), s.boot.rstN = true → s.due = [] → s.lifecycle = 0 → c ≠ .coldReset → (∀ a b, c ≠ .rstNDeassert a b) →
    ∃ t, exec c s = .next t ∧ t.regs = s.regs ∧ t.ports = s.ports ∧ t.slices = s.slices ∧ t.pat = s.pat ∧ t.log = s.log ∧
      t.sources = s.sources ∧ t.now = s.now ∧ t.safePin = s.safePin ∧ t.boot.rstN = true
end

