-- ==== Sys2Proof/Laws/Bits.lean ====
section
/-!
SUPPORT. Laws of the bit fields of a register word: a field read after it has been set, and a field read after another has
been set.
-/
namespace Sys2Proof.Machine

/-- Bit `i` of a word after a field of it has been set. -/
theorem getLsbD_setBits (w : Word) (lsb wid v i : Nat) (hi : i < 32) :
    (setBits w lsb wid v).getLsbD i =
      if lsb ≤ i ∧ i < lsb + wid then v.testBit (i - lsb) else w.getLsbD i := by
  have hm : (onesMask wid).testBit (i - lsb) = decide (i - lsb < wid) := by
    unfold onesMask; rw [Nat.testBit_two_pow_sub_one]
  simp only [setBits, BitVec.getLsbD_or, BitVec.getLsbD_and, BitVec.getLsbD_not, BitVec.getLsbD_ofNat, hi, decide_true,
    Bool.true_and, Nat.testBit_shiftLeft, hm, Nat.testBit_mod_two_pow]
  by_cases h1 : lsb ≤ i
  · have h2 : (i - lsb < wid) ↔ i < lsb + wid := by omega
    by_cases h3 : i < lsb + wid <;> simp [h1, h2, h3]
  · simp [h1]

/-- Bit `i` of a field read as a number. -/
theorem testBit_getBits (w : Word) (lsb wid i : Nat) :
    (getBits w lsb wid).testBit i = (decide (i < wid) && w.getLsbD (lsb + i)) := by
  simp [getBits, Nat.testBit_mod_two_pow, Nat.testBit_shiftRight, BitVec.getLsbD]

/-- A field that has been set reads as the value, taken modulo its width. -/
theorem getBits_setBits_same (w : Word) (lsb wid v : Nat) (h : lsb + wid ≤ 32) :
    getBits (setBits w lsb wid v) lsb wid = v % 2 ^ wid := by
  apply Nat.eq_of_testBit_eq
  intro i
  rw [testBit_getBits, Nat.testBit_mod_two_pow]
  by_cases hi : i < wid
  · rw [getLsbD_setBits _ _ _ _ _ (by omega)]
    have h1 : lsb ≤ lsb + i ∧ lsb + i < lsb + wid := by omega
    simp [hi]
  · simp [hi]

/-- A field apart from the one that has been set reads as before. -/
theorem getBits_setBits_other (w : Word) (lsb wid v l n : Nat) (h : l + n ≤ lsb ∨ lsb + wid ≤ l) (hn : l + n ≤ 32) :
    getBits (setBits w lsb wid v) l n = getBits w l n := by
  apply Nat.eq_of_testBit_eq
  intro i
  rw [testBit_getBits, testBit_getBits]
  by_cases hi : i < n
  · rw [getLsbD_setBits _ _ _ _ _ (by omega)]
    have h1 : ¬(lsb ≤ l + i ∧ l + i < lsb + wid) := by omega
    simp [h1]
  · simp [hi]

end Sys2Proof.Machine
end

