-- ==== Sys2Proof/Laws/Sparse.lean ====
section
/-!
SUPPORT. Laws of the sparse arrays: a read after a write, and that a write keeps the canonical form.
-/
namespace Sys2Proof.Machine
variable {α : Type}

theorem spGet_spInsert (d : α) (k j : Nat) (v : α) (l : Sp α) :
    spGet d (spInsert k v l) j = if k = j then v else spGet d l j := by
  induction l with
  | nil => simp [spInsert, spGet]
  | cons e t ih =>
    obtain ⟨i, w⟩ := e
    by_cases h1 : k < i
    · simp [spInsert, spGet, h1]
    · by_cases h2 : k = i
      · subst h2
        by_cases h3 : k = j <;> simp [spInsert, spGet, h3]
      · by_cases h4 : i = j
        · subst h4; simp [spInsert, spGet, h1, h2]
        · simp [spInsert, spGet, h1, h2, ih, h4]

theorem spGet_spErase (d : α) (k j : Nat) (l : Sp α) : spGet d (spErase k l) j = if k = j then d else spGet d l j := by
  unfold spErase
  induction l with
  | nil => simp [spGet]
  | cons e t ih =>
    obtain ⟨i, w⟩ := e
    rw [List.filter_cons]
    by_cases h1 : i = k
    · subst h1
      by_cases h2 : i = j
      · subst h2; simpa using ih
      · simp [spGet, ih, h2]
    · have h4 : ((i, w).1 != k) = true := by simpa using h1
      rw [if_pos h4]
      by_cases h3 : i = j
      · subst h3
        have h5 : k ≠ i := fun h => h1 h.symm
        simp [spGet, h5]
      · simp only [spGet, h3, if_false, ih]

/-- What is read at `j` after `v` has been written at `k`. -/
theorem spGet_spSet [DecidableEq α] (d : α) (l : Sp α) (k j : Nat) (v : α) :
    spGet d (spSet d l k v) j = if k = j then v else spGet d l j := by
  unfold spSet
  split
  · rename_i h; subst h; simp [spGet_spErase]
  · simp [spGet_spInsert]

theorem spGet_spMod [DecidableEq α] (d : α) (l : Sp α) (k j : Nat) (f : α → α) :
    spGet d (spMod d l k f) j = if k = j then f (spGet d l k) else spGet d l j := by
  simp [spMod, spGet_spSet]

/-- Every index of the list is above `lo`. -/
theorem spRising_weaken (lo hi : Nat) (h : lo ≤ hi) (l : Sp α) : spRising (some hi) l = true → spRising (some lo) l = true := by
  cases l with
  | nil => simp [spRising]
  | cons e t =>
    obtain ⟨i, w⟩ := e
    simp only [spRising, Bool.and_eq_true, decide_eq_true_eq]
    exact fun ⟨a, b⟩ => ⟨by omega, b⟩

theorem spRising_spInsert (k : Nat) (v : α) (l : Sp α) (lo : Option Nat) (hk : ∀ j, lo = some j → j < k)
    (h : spRising lo l = true) : spRising lo (spInsert k v l) = true := by
  induction l generalizing lo with
  | nil => cases lo <;> simp_all [spInsert, spRising]
  | cons e t ih =>
    obtain ⟨i, w⟩ := e
    simp only [spRising, Bool.and_eq_true] at h
    by_cases h1 : k < i
    · cases lo <;> simp_all [spInsert, spRising]
    · by_cases h2 : k = i
      · subst h2; cases lo <;> simp_all [spInsert, spRising]
      · have h3 := ih (some i) (by intro j hj; cases hj; omega) h.2
        simp [spInsert, spRising, h1, h2, h3, h.1]

theorem spRising_none {i : Nat} {l : Sp α} (h : spRising (some i) l = true) : spRising none l = true := by
  cases l with
  | nil => rfl
  | cons e t =>
    obtain ⟨j, z⟩ := e
    simp only [spRising, Bool.and_eq_true] at h ⊢
    exact ⟨trivial, h.2⟩

theorem spRising_filter (q : Nat × α → Bool) (l : Sp α) (lo : Option Nat) (h : spRising lo l = true) :
    spRising lo (l.filter q) = true := by
  induction l generalizing lo with
  | nil => simp [spRising]
  | cons e t ih =>
    obtain ⟨i, w⟩ := e
    simp only [spRising, Bool.and_eq_true] at h
    rw [List.filter_cons]
    split
    · simp only [spRising, Bool.and_eq_true]
      exact ⟨h.1, ih _ h.2⟩
    · refine ih lo ?_
      cases lo with
      | none => exact spRising_none h.2
      | some j => exact spRising_weaken j i (by have := h.1; simp at this; omega) t h.2

theorem mem_spInsert {k : Nat} {v : α} {l : Sp α} {e : Nat × α} (h : e ∈ spInsert k v l) : e = (k, v) ∨ e ∈ l := by
  induction l with
  | nil => simpa [spInsert] using h
  | cons a t ih =>
    obtain ⟨i, w⟩ := a
    unfold spInsert at h
    split at h
    · simpa using h
    · split at h
      · rcases List.mem_cons.1 h with h | h
        · exact .inl h
        · exact .inr (List.mem_cons_of_mem _ h)
      · rcases List.mem_cons.1 h with h | h
        · exact .inr (h ▸ List.mem_cons_self)
        · rcases ih h with h | h
          · exact .inl h
          · exact .inr (List.mem_cons_of_mem _ h)

/-- Every element of the array after a write is the one written or was there. -/
theorem mem_spSet [DecidableEq α] {d : α} {l : Sp α} {k : Nat} {v : α} {e : Nat × α} (h : e ∈ spSet d l k v) :
    e = (k, v) ∨ e ∈ l := by
  unfold spSet at h
  split at h
  · exact .inr ((List.mem_filter.1 h).1)
  · exact mem_spInsert h

theorem SpCanon.nil (d : Nat → α) : SpCanon d ([] : Sp α) := ⟨rfl, by simp⟩

theorem SpCanon.set [DecidableEq α] {d : Nat → α} {l : Sp α} (h : SpCanon d l) (k : Nat) (v : α) :
    SpCanon d (spSet (d k) l k v) := by
  unfold spSet
  split
  · exact ⟨spRising_filter _ _ _ h.1, fun e he => h.2 e ((List.mem_filter.1 he).1)⟩
  · rename_i hv
    refine ⟨spRising_spInsert k v l none (by simp) h.1, fun e he => ?_⟩
    rcases mem_spInsert he with rfl | he
    · exact hv
    · exact h.2 e he

theorem SpCanon.filter {d : Nat → α} {l : Sp α} (h : SpCanon d l) (q : Nat × α → Bool) : SpCanon d (l.filter q) :=
  ⟨spRising_filter q l none h.1, fun e he => h.2 e ((List.mem_filter.1 he).1)⟩

/-- A list made of ascending indexes, each taken or left, is in canonical form. -/
theorem SpCanon.ofRange {d : Nat → α} (n : Nat) (f : Nat → Option (Nat × α)) (hf : ∀ k e, f k = some e → e.1 = k ∧ e.2 ≠ d k) :
    SpCanon d ((List.range n).filterMap f) := by
  refine ⟨?_, fun e he => ?_⟩
  · have key : ∀ (m i : Nat) (lo : Option Nat), (∀ j, lo = some j → j < i) →
        spRising lo ((List.range' i m).filterMap f) = true := by
      intro m
      induction m with
      | zero => intro i lo _; simp [spRising]
      | succ m ih =>
        intro i lo hlo
        rw [List.range'_succ, List.filterMap_cons]
        cases hfi : f i with
        | none => exact ih (i + 1) lo (fun j hj => Nat.lt_succ_of_lt (hlo j hj))
        | some e =>
          obtain ⟨e1, _⟩ := hf i e hfi
          obtain ⟨a, b⟩ := e
          have e1' : a = i := e1
          subst e1'
          simp only [spRising, Bool.and_eq_true]
          refine ⟨?_, ih (a + 1) (some a) (fun j hj => by cases hj; omega)⟩
          cases lo with
          | none => rfl
          | some j => simpa using hlo j rfl
    rw [List.range_eq_range']
    exact key n 0 none (by simp)
  · obtain ⟨k, _, hk⟩ := List.mem_filterMap.1 he
    obtain ⟨e1, e2⟩ := hf k e hk
    rw [e1]; exact e2

/-- `spWf` says the canonical form. -/
theorem spWf_iff [DecidableEq α] (d : α) (l : Sp α) : spWf d l = true ↔ SpCanon (fun _ => d) l := by
  simp [spWf, SpCanon, List.all_eq_true]

/-- A write keeps the canonical form. -/
theorem spWf_spSet [DecidableEq α] (d : α) (l : Sp α) (k : Nat) (v : α) (h : spWf d l = true) :
    spWf d (spSet d l k v) = true :=
  (spWf_iff d _).2 (((spWf_iff d l).1 h).set k v)

end Sys2Proof.Machine
end

