-- ==== Sys2Proof/Laws/State.lean ====
section
/-!
SUPPORT. The small laws of the state: what each named update leaves alone, a register read after a write, and a field of a
register read after a field has been set.
-/
namespace Sys2Proof.Machine

/-! ## Registers -/

theorem State.word_setWord (s : State) (a b : Nat) (w : Word) :
    (s.setWord a w).word b = if a = b then w else s.word b := by
  unfold State.word State.setWord
  by_cases h : a = b
  · subst h; simp [spGet_spSet]
  · have h1 : ∀ d : Word, spGet d (spSet (regInit a) s.regs a w) b = spGet d s.regs b := by
      intro d
      unfold spSet
      split
      · rw [spGet_spErase]; simp [h]
      · rw [spGet_spInsert]; simp [h]
    simp [h, h1]

@[simp] theorem State.word_setWord_same (s : State) (a : Nat) (w : Word) : (s.setWord a w).word a = w := by
  simp [State.word_setWord]

theorem State.word_setWord_other (s : State) (a b : Nat) (w : Word) (h : a ≠ b) : (s.setWord a w).word b = s.word b := by
  simp [State.word_setWord, h]

/-- A field reads as the value set, taken modulo its width. -/
theorem State.fget_fset_same (s : State) (f : Fld) (v n m : Nat) (h : f.lsb + f.wid ≤ 32) :
    (s.fset f v n m).fget f n m = v % 2 ^ f.wid := by
  simp [State.fget, State.fset, getBits_setBits_same _ _ _ _ h]

/-- A field of another register, or other bits of the same one, reads as before. -/
theorem State.fget_fset_other (s : State) (f g : Fld) (v n m n' m' : Nat)
    (h : f.addr n m ≠ g.addr n' m' ∨ g.lsb + g.wid ≤ f.lsb ∨ f.lsb + f.wid ≤ g.lsb) (hg : g.lsb + g.wid ≤ 32) :
    (s.fset f v n m).fget g n' m' = s.fget g n' m' := by
  unfold State.fget State.fset
  by_cases ha : f.addr n m = g.addr n' m'
  · rw [ha, State.word_setWord_same]
    exact getBits_setBits_other _ _ _ _ _ _ (by rcases h with h | h; exact absurd ha h; exact h) hg
  · rw [State.word_setWord_other _ _ _ _ ha]

theorem State.word_fset_other (s : State) (f : Fld) (v n m b : Nat) (h : f.addr n m ≠ b) :
    (s.fset f v n m).word b = s.word b := by
  unfold State.fset; exact State.word_setWord_other _ _ _ _ h

/-- A flag reads as it has been set. -/
theorem State.flag_setFlag_same (s : State) (f : Fld) (b : Bool) (n m : Nat) (h : f.lsb + f.wid ≤ 32) (hw : 0 < f.wid) :
    (s.setFlag f b n m).flag f n m = b := by
  unfold State.flag State.setFlag
  rw [State.fget_fset_same _ _ _ _ _ h]
  have h2 : 1 < 2 ^ f.wid := Nat.one_lt_two_pow (by omega)
  cases b
  · simp
  · simp only [if_true, Nat.mod_eq_of_lt h2]; rfl

/-- A one-bit field as a number, after it has been set. -/
theorem State.fget_setFlag_same (s : State) (f : Fld) (b : Bool) (n m : Nat) (h : f.lsb + f.wid ≤ 32) (hw : 0 < f.wid) :
    (s.setFlag f b n m).fget f n m = if b then 1 else 0 := by
  unfold State.setFlag
  rw [State.fget_fset_same _ _ _ _ _ h]
  have h2 : 1 < 2 ^ f.wid := Nat.one_lt_two_pow (by omega)
  cases b
  · simp
  · simp only [if_true, Nat.mod_eq_of_lt h2]

theorem State.fget_setFlag_other (s : State) (f g : Fld) (b : Bool) (n m n' m' : Nat)
    (h : f.addr n m ≠ g.addr n' m' ∨ g.lsb + g.wid ≤ f.lsb ∨ f.lsb + f.wid ≤ g.lsb) (hg : g.lsb + g.wid ≤ 32) :
    (s.setFlag f b n m).fget g n' m' = s.fget g n' m' :=
  State.fget_fset_other s f g _ n m n' m' h hg

theorem State.fget_lt (s : State) (f : Fld) (n m : Nat) : s.fget f n m < 2 ^ f.wid := by
  unfold State.fget getBits; exact Nat.mod_lt _ (Nat.two_pow_pos _)

/-- A counter that saturates reads one more, or stays at all ones (00 R15). -/
theorem State.fget_bumpBy_same (s : State) (f : Fld) (k n m : Nat) (h : f.lsb + f.wid ≤ 32) :
    (s.bumpBy f k n m).fget f n m = min (s.fget f n m + k) (onesMask f.wid) := by
  unfold State.bumpBy
  rw [State.fget_fset_same _ _ _ _ _ h, Nat.mod_eq_of_lt]
  have := Nat.two_pow_pos f.wid
  unfold onesMask
  omega

theorem State.fget_bumpBy_other (s : State) (f g : Fld) (k n m n' m' : Nat)
    (h : f.addr n m ≠ g.addr n' m' ∨ g.lsb + g.wid ≤ f.lsb ∨ f.lsb + f.wid ≤ g.lsb) (hg : g.lsb + g.wid ≤ 32) :
    (s.bumpBy f k n m).fget g n' m' = s.fget g n' m' :=
  State.fget_fset_other s f g _ n m n' m' h hg

/-- A counter that wraps. -/
theorem State.fget_wrapBy_same (s : State) (f : Fld) (k n m : Nat) (h : f.lsb + f.wid ≤ 32) :
    (s.wrapBy f k n m).fget f n m = (s.fget f n m + k) % 2 ^ f.wid :=
  State.fget_fset_same _ _ _ _ _ h

/-! ## Ports and slices -/

theorem State.port_setPort (s : State) (p p' : Nat) (q : Port) :
    (s.setPort p q).port p' = if p = p' then q else s.port p' := by
  simp [State.port, State.setPort, spGet_spSet]

theorem State.slice_setSlice (s : State) (k k' : Nat) (x : Slice) :
    (s.setSlice k x).slice k' = if k = k' then x else s.slice k' := by
  simp [State.slice, State.setSlice, spGet_spSet]

@[simp] theorem State.port_setPort_same (s : State) (p : Nat) (q : Port) : (s.setPort p q).port p = q := by
  simp [State.port_setPort]

@[simp] theorem State.slice_setSlice_same (s : State) (k : Nat) (x : Slice) : (s.setSlice k x).slice k = x := by
  simp [State.slice_setSlice]

@[simp] theorem State.port_modPort_same (s : State) (p : Nat) (f : Port → Port) : (s.modPort p f).port p = f (s.port p) := by
  simp [State.modPort]

@[simp] theorem State.slice_modSlice_same (s : State) (k : Nat) (f : Slice → Slice) :
    (s.modSlice k f).slice k = f (s.slice k) := by
  simp [State.modSlice]

/-! ## What each update leaves alone -/

@[simp] theorem State.setWord_pending (s : State) (a : Nat) (w : Word) : (s.setWord a w).pending = s.pending := rfl
@[simp] theorem State.setWord_fresh (s : State) (a : Nat) (w : Word) : (s.setWord a w).fresh = s.fresh := rfl
@[simp] theorem State.setWord_now (s : State) (a : Nat) (w : Word) : (s.setWord a w).now = s.now := rfl
@[simp] theorem State.setWord_pat (s : State) (a : Nat) (w : Word) : (s.setWord a w).pat = s.pat := rfl
@[simp] theorem State.setWord_cur (s : State) (a : Nat) (w : Word) : (s.setWord a w).cur = s.cur := rfl
@[simp] theorem State.setWord_roles (s : State) (a : Nat) (w : Word) : (s.setWord a w).roles = s.roles := rfl
@[simp] theorem State.setWord_logic (s : State) (a : Nat) (w : Word) : (s.setWord a w).logic = s.logic := rfl
@[simp] theorem State.setWord_table (s : State) (a : Nat) (w : Word) : (s.setWord a w).table = s.table := rfl
@[simp] theorem State.setWord_moved (s : State) (a : Nat) (w : Word) : (s.setWord a w).moved = s.moved := rfl
@[simp] theorem State.setWord_ports (s : State) (a : Nat) (w : Word) : (s.setWord a w).ports = s.ports := rfl
@[simp] theorem State.setWord_slices (s : State) (a : Nat) (w : Word) : (s.setWord a w).slices = s.slices := rfl
@[simp] theorem State.setWord_wins (s : State) (a : Nat) (w : Word) : (s.setWord a w).wins = s.wins := rfl
@[simp] theorem State.setWord_wno (s : State) (a : Nat) (w : Word) : (s.setWord a w).wno = s.wno := rfl
@[simp] theorem State.setWord_barriers (s : State) (a : Nat) (w : Word) : (s.setWord a w).barriers = s.barriers := rfl
@[simp] theorem State.setWord_banks (s : State) (a : Nat) (w : Word) : (s.setWord a w).banks = s.banks := rfl
@[simp] theorem State.setWord_ctx0 (s : State) (a : Nat) (w : Word) : (s.setWord a w).ctx0 = s.ctx0 := rfl
@[simp] theorem State.setWord_ctx1 (s : State) (a : Nat) (w : Word) : (s.setWord a w).ctx1 = s.ctx1 := rfl
@[simp] theorem State.setWord_mig (s : State) (a : Nat) (w : Word) : (s.setWord a w).mig = s.mig := rfl
@[simp] theorem State.setWord_lossLog (s : State) (a : Nat) (w : Word) : (s.setWord a w).lossLog = s.lossLog := rfl
@[simp] theorem State.setWord_predQ (s : State) (a : Nat) (w : Word) : (s.setWord a w).predQ = s.predQ := rfl
@[simp] theorem State.setWord_replaceNo (s : State) (a : Nat) (w : Word) : (s.setWord a w).replaceNo = s.replaceNo := rfl
@[simp] theorem State.setWord_replaceAt (s : State) (a : Nat) (w : Word) : (s.setWord a w).replaceAt = s.replaceAt := rfl
@[simp] theorem State.setWord_sources (s : State) (a : Nat) (w : Word) : (s.setWord a w).sources = s.sources := rfl
@[simp] theorem State.setWord_vectors (s : State) (a : Nat) (w : Word) : (s.setWord a w).vectors = s.vectors := rfl
@[simp] theorem State.setWord_jig (s : State) (a : Nat) (w : Word) : (s.setWord a w).jig = s.jig := rfl
@[simp] theorem State.setWord_log (s : State) (a : Nat) (w : Word) : (s.setWord a w).log = s.log := rfl
@[simp] theorem State.setWord_dropArm (s : State) (a : Nat) (w : Word) : (s.setWord a w).dropArm = s.dropArm := rfl
@[simp] theorem State.setWord_due (s : State) (a : Nat) (w : Word) : (s.setWord a w).due = s.due := rfl
@[simp] theorem State.setWord_safePin (s : State) (a : Nat) (w : Word) : (s.setWord a w).safePin = s.safePin := rfl
@[simp] theorem State.setWord_boot (s : State) (a : Nat) (w : Word) : (s.setWord a w).boot = s.boot := rfl
@[simp] theorem State.setWord_umv (s : State) (a : Nat) (w : Word) : (s.setWord a w).umv = s.umv := rfl
@[simp] theorem State.setWord_tb (s : State) (a : Nat) (w : Word) : (s.setWord a w).tb = s.tb := rfl
@[simp] theorem State.setWord_tns (s : State) (a : Nat) (w : Word) : (s.setWord a w).tns = s.tns := rfl
@[simp] theorem State.setWord_latent (s : State) (a : Nat) (w : Word) : (s.setWord a w).latent = s.latent := rfl
@[simp] theorem State.setWord_probing (s : State) (a : Nat) (w : Word) : (s.setWord a w).probing = s.probing := rfl
@[simp] theorem State.setWord_port (s : State) (a : Nat) (w : Word) (z : Nat) : (s.setWord a w).port z = s.port z := rfl
@[simp] theorem State.setWord_slice (s : State) (a : Nat) (w : Word) (z : Nat) : (s.setWord a w).slice z = s.slice z := rfl

@[simp] theorem State.fset_pending (s : State) (f : Fld) (v n m : Nat) : (s.fset f v n m).pending = s.pending := rfl
@[simp] theorem State.fset_fresh (s : State) (f : Fld) (v n m : Nat) : (s.fset f v n m).fresh = s.fresh := rfl
@[simp] theorem State.fset_now (s : State) (f : Fld) (v n m : Nat) : (s.fset f v n m).now = s.now := rfl
@[simp] theorem State.fset_pat (s : State) (f : Fld) (v n m : Nat) : (s.fset f v n m).pat = s.pat := rfl
@[simp] theorem State.fset_cur (s : State) (f : Fld) (v n m : Nat) : (s.fset f v n m).cur = s.cur := rfl
@[simp] theorem State.fset_roles (s : State) (f : Fld) (v n m : Nat) : (s.fset f v n m).roles = s.roles := rfl
@[simp] theorem State.fset_logic (s : State) (f : Fld) (v n m : Nat) : (s.fset f v n m).logic = s.logic := rfl
@[simp] theorem State.fset_table (s : State) (f : Fld) (v n m : Nat) : (s.fset f v n m).table = s.table := rfl
@[simp] theorem State.fset_moved (s : State) (f : Fld) (v n m : Nat) : (s.fset f v n m).moved = s.moved := rfl
@[simp] theorem State.fset_ports (s : State) (f : Fld) (v n m : Nat) : (s.fset f v n m).ports = s.ports := rfl
@[simp] theorem State.fset_slices (s : State) (f : Fld) (v n m : Nat) : (s.fset f v n m).slices = s.slices := rfl
@[simp] theorem State.fset_wins (s : State) (f : Fld) (v n m : Nat) : (s.fset f v n m).wins = s.wins := rfl
@[simp] theorem State.fset_wno (s : State) (f : Fld) (v n m : Nat) : (s.fset f v n m).wno = s.wno := rfl
@[simp] theorem State.fset_barriers (s : State) (f : Fld) (v n m : Nat) : (s.fset f v n m).barriers = s.barriers := rfl
@[simp] theorem State.fset_banks (s : State) (f : Fld) (v n m : Nat) : (s.fset f v n m).banks = s.banks := rfl
@[simp] theorem State.fset_ctx0 (s : State) (f : Fld) (v n m : Nat) : (s.fset f v n m).ctx0 = s.ctx0 := rfl
@[simp] theorem State.fset_ctx1 (s : State) (f : Fld) (v n m : Nat) : (s.fset f v n m).ctx1 = s.ctx1 := rfl
@[simp] theorem State.fset_mig (s : State) (f : Fld) (v n m : Nat) : (s.fset f v n m).mig = s.mig := rfl
@[simp] theorem State.fset_lossLog (s : State) (f : Fld) (v n m : Nat) : (s.fset f v n m).lossLog = s.lossLog := rfl
@[simp] theorem State.fset_predQ (s : State) (f : Fld) (v n m : Nat) : (s.fset f v n m).predQ = s.predQ := rfl
@[simp] theorem State.fset_replaceNo (s : State) (f : Fld) (v n m : Nat) : (s.fset f v n m).replaceNo = s.replaceNo := rfl
@[simp] theorem State.fset_replaceAt (s : State) (f : Fld) (v n m : Nat) : (s.fset f v n m).replaceAt = s.replaceAt := rfl
@[simp] theorem State.fset_sources (s : State) (f : Fld) (v n m : Nat) : (s.fset f v n m).sources = s.sources := rfl
@[simp] theorem State.fset_vectors (s : State) (f : Fld) (v n m : Nat) : (s.fset f v n m).vectors = s.vectors := rfl
@[simp] theorem State.fset_jig (s : State) (f : Fld) (v n m : Nat) : (s.fset f v n m).jig = s.jig := rfl
@[simp] theorem State.fset_log (s : State) (f : Fld) (v n m : Nat) : (s.fset f v n m).log = s.log := rfl
@[simp] theorem State.fset_dropArm (s : State) (f : Fld) (v n m : Nat) : (s.fset f v n m).dropArm = s.dropArm := rfl
@[simp] theorem State.fset_due (s : State) (f : Fld) (v n m : Nat) : (s.fset f v n m).due = s.due := rfl
@[simp] theorem State.fset_safePin (s : State) (f : Fld) (v n m : Nat) : (s.fset f v n m).safePin = s.safePin := rfl
@[simp] theorem State.fset_boot (s : State) (f : Fld) (v n m : Nat) : (s.fset f v n m).boot = s.boot := rfl
@[simp] theorem State.fset_umv (s : State) (f : Fld) (v n m : Nat) : (s.fset f v n m).umv = s.umv := rfl
@[simp] theorem State.fset_tb (s : State) (f : Fld) (v n m : Nat) : (s.fset f v n m).tb = s.tb := rfl
@[simp] theorem State.fset_tns (s : State) (f : Fld) (v n m : Nat) : (s.fset f v n m).tns = s.tns := rfl
@[simp] theorem State.fset_latent (s : State) (f : Fld) (v n m : Nat) : (s.fset f v n m).latent = s.latent := rfl
@[simp] theorem State.fset_probing (s : State) (f : Fld) (v n m : Nat) : (s.fset f v n m).probing = s.probing := rfl
@[simp] theorem State.fset_port (s : State) (f : Fld) (v n m : Nat) (z : Nat) : (s.fset f v n m).port z = s.port z := rfl
@[simp] theorem State.fset_slice (s : State) (f : Fld) (v n m : Nat) (z : Nat) : (s.fset f v n m).slice z = s.slice z := rfl

@[simp] theorem State.setFlag_pending (s : State) (f : Fld) (b : Bool) (n m : Nat) : (s.setFlag f b n m).pending = s.pending := rfl
@[simp] theorem State.setFlag_fresh (s : State) (f : Fld) (b : Bool) (n m : Nat) : (s.setFlag f b n m).fresh = s.fresh := rfl
@[simp] theorem State.setFlag_now (s : State) (f : Fld) (b : Bool) (n m : Nat) : (s.setFlag f b n m).now = s.now := rfl
@[simp] theorem State.setFlag_pat (s : State) (f : Fld) (b : Bool) (n m : Nat) : (s.setFlag f b n m).pat = s.pat := rfl
@[simp] theorem State.setFlag_cur (s : State) (f : Fld) (b : Bool) (n m : Nat) : (s.setFlag f b n m).cur = s.cur := rfl
@[simp] theorem State.setFlag_roles (s : State) (f : Fld) (b : Bool) (n m : Nat) : (s.setFlag f b n m).roles = s.roles := rfl
@[simp] theorem State.setFlag_logic (s : State) (f : Fld) (b : Bool) (n m : Nat) : (s.setFlag f b n m).logic = s.logic := rfl
@[simp] theorem State.setFlag_table (s : State) (f : Fld) (b : Bool) (n m : Nat) : (s.setFlag f b n m).table = s.table := rfl
@[simp] theorem State.setFlag_moved (s : State) (f : Fld) (b : Bool) (n m : Nat) : (s.setFlag f b n m).moved = s.moved := rfl
@[simp] theorem State.setFlag_ports (s : State) (f : Fld) (b : Bool) (n m : Nat) : (s.setFlag f b n m).ports = s.ports := rfl
@[simp] theorem State.setFlag_slices (s : State) (f : Fld) (b : Bool) (n m : Nat) : (s.setFlag f b n m).slices = s.slices := rfl
@[simp] theorem State.setFlag_wins (s : State) (f : Fld) (b : Bool) (n m : Nat) : (s.setFlag f b n m).wins = s.wins := rfl
@[simp] theorem State.setFlag_wno (s : State) (f : Fld) (b : Bool) (n m : Nat) : (s.setFlag f b n m).wno = s.wno := rfl
@[simp] theorem State.setFlag_barriers (s : State) (f : Fld) (b : Bool) (n m : Nat) : (s.setFlag f b n m).barriers = s.barriers := rfl
@[simp] theorem State.setFlag_banks (s : State) (f : Fld) (b : Bool) (n m : Nat) : (s.setFlag f b n m).banks = s.banks := rfl
@[simp] theorem State.setFlag_ctx0 (s : State) (f : Fld) (b : Bool) (n m : Nat) : (s.setFlag f b n m).ctx0 = s.ctx0 := rfl
@[simp] theorem State.setFlag_ctx1 (s : State) (f : Fld) (b : Bool) (n m : Nat) : (s.setFlag f b n m).ctx1 = s.ctx1 := rfl
@[simp] theorem State.setFlag_mig (s : State) (f : Fld) (b : Bool) (n m : Nat) : (s.setFlag f b n m).mig = s.mig := rfl
@[simp] theorem State.setFlag_lossLog (s : State) (f : Fld) (b : Bool) (n m : Nat) : (s.setFlag f b n m).lossLog = s.lossLog := rfl
@[simp] theorem State.setFlag_predQ (s : State) (f : Fld) (b : Bool) (n m : Nat) : (s.setFlag f b n m).predQ = s.predQ := rfl
@[simp] theorem State.setFlag_replaceNo (s : State) (f : Fld) (b : Bool) (n m : Nat) : (s.setFlag f b n m).replaceNo = s.replaceNo := rfl
@[simp] theorem State.setFlag_replaceAt (s : State) (f : Fld) (b : Bool) (n m : Nat) : (s.setFlag f b n m).replaceAt = s.replaceAt := rfl
@[simp] theorem State.setFlag_sources (s : State) (f : Fld) (b : Bool) (n m : Nat) : (s.setFlag f b n m).sources = s.sources := rfl
@[simp] theorem State.setFlag_vectors (s : State) (f : Fld) (b : Bool) (n m : Nat) : (s.setFlag f b n m).vectors = s.vectors := rfl
@[simp] theorem State.setFlag_jig (s : State) (f : Fld) (b : Bool) (n m : Nat) : (s.setFlag f b n m).jig = s.jig := rfl
@[simp] theorem State.setFlag_log (s : State) (f : Fld) (b : Bool) (n m : Nat) : (s.setFlag f b n m).log = s.log := rfl
@[simp] theorem State.setFlag_dropArm (s : State) (f : Fld) (b : Bool) (n m : Nat) : (s.setFlag f b n m).dropArm = s.dropArm := rfl
@[simp] theorem State.setFlag_due (s : State) (f : Fld) (b : Bool) (n m : Nat) : (s.setFlag f b n m).due = s.due := rfl
@[simp] theorem State.setFlag_safePin (s : State) (f : Fld) (b : Bool) (n m : Nat) : (s.setFlag f b n m).safePin = s.safePin := rfl
@[simp] theorem State.setFlag_boot (s : State) (f : Fld) (b : Bool) (n m : Nat) : (s.setFlag f b n m).boot = s.boot := rfl
@[simp] theorem State.setFlag_umv (s : State) (f : Fld) (b : Bool) (n m : Nat) : (s.setFlag f b n m).umv = s.umv := rfl
@[simp] theorem State.setFlag_tb (s : State) (f : Fld) (b : Bool) (n m : Nat) : (s.setFlag f b n m).tb = s.tb := rfl
@[simp] theorem State.setFlag_tns (s : State) (f : Fld) (b : Bool) (n m : Nat) : (s.setFlag f b n m).tns = s.tns := rfl
@[simp] theorem State.setFlag_latent (s : State) (f : Fld) (b : Bool) (n m : Nat) : (s.setFlag f b n m).latent = s.latent := rfl
@[simp] theorem State.setFlag_probing (s : State) (f : Fld) (b : Bool) (n m : Nat) : (s.setFlag f b n m).probing = s.probing := rfl
@[simp] theorem State.setFlag_port (s : State) (f : Fld) (b : Bool) (n m : Nat) (z : Nat) : (s.setFlag f b n m).port z = s.port z := rfl
@[simp] theorem State.setFlag_slice (s : State) (f : Fld) (b : Bool) (n m : Nat) (z : Nat) : (s.setFlag f b n m).slice z = s.slice z := rfl

@[simp] theorem State.bumpBy_pending (s : State) (f : Fld) (k n m : Nat) : (s.bumpBy f k n m).pending = s.pending := rfl
@[simp] theorem State.bumpBy_fresh (s : State) (f : Fld) (k n m : Nat) : (s.bumpBy f k n m).fresh = s.fresh := rfl
@[simp] theorem State.bumpBy_now (s : State) (f : Fld) (k n m : Nat) : (s.bumpBy f k n m).now = s.now := rfl
@[simp] theorem State.bumpBy_pat (s : State) (f : Fld) (k n m : Nat) : (s.bumpBy f k n m).pat = s.pat := rfl
@[simp] theorem State.bumpBy_cur (s : State) (f : Fld) (k n m : Nat) : (s.bumpBy f k n m).cur = s.cur := rfl
@[simp] theorem State.bumpBy_roles (s : State) (f : Fld) (k n m : Nat) : (s.bumpBy f k n m).roles = s.roles := rfl
@[simp] theorem State.bumpBy_logic (s : State) (f : Fld) (k n m : Nat) : (s.bumpBy f k n m).logic = s.logic := rfl
@[simp] theorem State.bumpBy_table (s : State) (f : Fld) (k n m : Nat) : (s.bumpBy f k n m).table = s.table := rfl
@[simp] theorem State.bumpBy_moved (s : State) (f : Fld) (k n m : Nat) : (s.bumpBy f k n m).moved = s.moved := rfl
@[simp] theorem State.bumpBy_ports (s : State) (f : Fld) (k n m : Nat) : (s.bumpBy f k n m).ports = s.ports := rfl
@[simp] theorem State.bumpBy_slices (s : State) (f : Fld) (k n m : Nat) : (s.bumpBy f k n m).slices = s.slices := rfl
@[simp] theorem State.bumpBy_wins (s : State) (f : Fld) (k n m : Nat) : (s.bumpBy f k n m).wins = s.wins := rfl
@[simp] theorem State.bumpBy_wno (s : State) (f : Fld) (k n m : Nat) : (s.bumpBy f k n m).wno = s.wno := rfl
@[simp] theorem State.bumpBy_barriers (s : State) (f : Fld) (k n m : Nat) : (s.bumpBy f k n m).barriers = s.barriers := rfl
@[simp] theorem State.bumpBy_banks (s : State) (f : Fld) (k n m : Nat) : (s.bumpBy f k n m).banks = s.banks := rfl
@[simp] theorem State.bumpBy_ctx0 (s : State) (f : Fld) (k n m : Nat) : (s.bumpBy f k n m).ctx0 = s.ctx0 := rfl
@[simp] theorem State.bumpBy_ctx1 (s : State) (f : Fld) (k n m : Nat) : (s.bumpBy f k n m).ctx1 = s.ctx1 := rfl
@[simp] theorem State.bumpBy_mig (s : State) (f : Fld) (k n m : Nat) : (s.bumpBy f k n m).mig = s.mig := rfl
@[simp] theorem State.bumpBy_lossLog (s : State) (f : Fld) (k n m : Nat) : (s.bumpBy f k n m).lossLog = s.lossLog := rfl
@[simp] theorem State.bumpBy_predQ (s : State) (f : Fld) (k n m : Nat) : (s.bumpBy f k n m).predQ = s.predQ := rfl
@[simp] theorem State.bumpBy_replaceNo (s : State) (f : Fld) (k n m : Nat) : (s.bumpBy f k n m).replaceNo = s.replaceNo := rfl
@[simp] theorem State.bumpBy_replaceAt (s : State) (f : Fld) (k n m : Nat) : (s.bumpBy f k n m).replaceAt = s.replaceAt := rfl
@[simp] theorem State.bumpBy_sources (s : State) (f : Fld) (k n m : Nat) : (s.bumpBy f k n m).sources = s.sources := rfl
@[simp] theorem State.bumpBy_vectors (s : State) (f : Fld) (k n m : Nat) : (s.bumpBy f k n m).vectors = s.vectors := rfl
@[simp] theorem State.bumpBy_jig (s : State) (f : Fld) (k n m : Nat) : (s.bumpBy f k n m).jig = s.jig := rfl
@[simp] theorem State.bumpBy_log (s : State) (f : Fld) (k n m : Nat) : (s.bumpBy f k n m).log = s.log := rfl
@[simp] theorem State.bumpBy_dropArm (s : State) (f : Fld) (k n m : Nat) : (s.bumpBy f k n m).dropArm = s.dropArm := rfl
@[simp] theorem State.bumpBy_due (s : State) (f : Fld) (k n m : Nat) : (s.bumpBy f k n m).due = s.due := rfl
@[simp] theorem State.bumpBy_safePin (s : State) (f : Fld) (k n m : Nat) : (s.bumpBy f k n m).safePin = s.safePin := rfl
@[simp] theorem State.bumpBy_boot (s : State) (f : Fld) (k n m : Nat) : (s.bumpBy f k n m).boot = s.boot := rfl
@[simp] theorem State.bumpBy_umv (s : State) (f : Fld) (k n m : Nat) : (s.bumpBy f k n m).umv = s.umv := rfl
@[simp] theorem State.bumpBy_tb (s : State) (f : Fld) (k n m : Nat) : (s.bumpBy f k n m).tb = s.tb := rfl
@[simp] theorem State.bumpBy_tns (s : State) (f : Fld) (k n m : Nat) : (s.bumpBy f k n m).tns = s.tns := rfl
@[simp] theorem State.bumpBy_latent (s : State) (f : Fld) (k n m : Nat) : (s.bumpBy f k n m).latent = s.latent := rfl
@[simp] theorem State.bumpBy_probing (s : State) (f : Fld) (k n m : Nat) : (s.bumpBy f k n m).probing = s.probing := rfl
@[simp] theorem State.bumpBy_port (s : State) (f : Fld) (k n m : Nat) (z : Nat) : (s.bumpBy f k n m).port z = s.port z := rfl
@[simp] theorem State.bumpBy_slice (s : State) (f : Fld) (k n m : Nat) (z : Nat) : (s.bumpBy f k n m).slice z = s.slice z := rfl

@[simp] theorem State.bump_pending (s : State) (f : Fld) (n m : Nat) : (s.bump f n m).pending = s.pending := rfl
@[simp] theorem State.bump_fresh (s : State) (f : Fld) (n m : Nat) : (s.bump f n m).fresh = s.fresh := rfl
@[simp] theorem State.bump_now (s : State) (f : Fld) (n m : Nat) : (s.bump f n m).now = s.now := rfl
@[simp] theorem State.bump_pat (s : State) (f : Fld) (n m : Nat) : (s.bump f n m).pat = s.pat := rfl
@[simp] theorem State.bump_cur (s : State) (f : Fld) (n m : Nat) : (s.bump f n m).cur = s.cur := rfl
@[simp] theorem State.bump_roles (s : State) (f : Fld) (n m : Nat) : (s.bump f n m).roles = s.roles := rfl
@[simp] theorem State.bump_logic (s : State) (f : Fld) (n m : Nat) : (s.bump f n m).logic = s.logic := rfl
@[simp] theorem State.bump_table (s : State) (f : Fld) (n m : Nat) : (s.bump f n m).table = s.table := rfl
@[simp] theorem State.bump_moved (s : State) (f : Fld) (n m : Nat) : (s.bump f n m).moved = s.moved := rfl
@[simp] theorem State.bump_ports (s : State) (f : Fld) (n m : Nat) : (s.bump f n m).ports = s.ports := rfl
@[simp] theorem State.bump_slices (s : State) (f : Fld) (n m : Nat) : (s.bump f n m).slices = s.slices := rfl
@[simp] theorem State.bump_wins (s : State) (f : Fld) (n m : Nat) : (s.bump f n m).wins = s.wins := rfl
@[simp] theorem State.bump_wno (s : State) (f : Fld) (n m : Nat) : (s.bump f n m).wno = s.wno := rfl
@[simp] theorem State.bump_barriers (s : State) (f : Fld) (n m : Nat) : (s.bump f n m).barriers = s.barriers := rfl
@[simp] theorem State.bump_banks (s : State) (f : Fld) (n m : Nat) : (s.bump f n m).banks = s.banks := rfl
@[simp] theorem State.bump_ctx0 (s : State) (f : Fld) (n m : Nat) : (s.bump f n m).ctx0 = s.ctx0 := rfl
@[simp] theorem State.bump_ctx1 (s : State) (f : Fld) (n m : Nat) : (s.bump f n m).ctx1 = s.ctx1 := rfl
@[simp] theorem State.bump_mig (s : State) (f : Fld) (n m : Nat) : (s.bump f n m).mig = s.mig := rfl
@[simp] theorem State.bump_lossLog (s : State) (f : Fld) (n m : Nat) : (s.bump f n m).lossLog = s.lossLog := rfl
@[simp] theorem State.bump_predQ (s : State) (f : Fld) (n m : Nat) : (s.bump f n m).predQ = s.predQ := rfl
@[simp] theorem State.bump_replaceNo (s : State) (f : Fld) (n m : Nat) : (s.bump f n m).replaceNo = s.replaceNo := rfl
@[simp] theorem State.bump_replaceAt (s : State) (f : Fld) (n m : Nat) : (s.bump f n m).replaceAt = s.replaceAt := rfl
@[simp] theorem State.bump_sources (s : State) (f : Fld) (n m : Nat) : (s.bump f n m).sources = s.sources := rfl
@[simp] theorem State.bump_vectors (s : State) (f : Fld) (n m : Nat) : (s.bump f n m).vectors = s.vectors := rfl
@[simp] theorem State.bump_jig (s : State) (f : Fld) (n m : Nat) : (s.bump f n m).jig = s.jig := rfl
@[simp] theorem State.bump_log (s : State) (f : Fld) (n m : Nat) : (s.bump f n m).log = s.log := rfl
@[simp] theorem State.bump_dropArm (s : State) (f : Fld) (n m : Nat) : (s.bump f n m).dropArm = s.dropArm := rfl
@[simp] theorem State.bump_due (s : State) (f : Fld) (n m : Nat) : (s.bump f n m).due = s.due := rfl
@[simp] theorem State.bump_safePin (s : State) (f : Fld) (n m : Nat) : (s.bump f n m).safePin = s.safePin := rfl
@[simp] theorem State.bump_boot (s : State) (f : Fld) (n m : Nat) : (s.bump f n m).boot = s.boot := rfl
@[simp] theorem State.bump_umv (s : State) (f : Fld) (n m : Nat) : (s.bump f n m).umv = s.umv := rfl
@[simp] theorem State.bump_tb (s : State) (f : Fld) (n m : Nat) : (s.bump f n m).tb = s.tb := rfl
@[simp] theorem State.bump_tns (s : State) (f : Fld) (n m : Nat) : (s.bump f n m).tns = s.tns := rfl
@[simp] theorem State.bump_latent (s : State) (f : Fld) (n m : Nat) : (s.bump f n m).latent = s.latent := rfl
@[simp] theorem State.bump_probing (s : State) (f : Fld) (n m : Nat) : (s.bump f n m).probing = s.probing := rfl
@[simp] theorem State.bump_port (s : State) (f : Fld) (n m : Nat) (z : Nat) : (s.bump f n m).port z = s.port z := rfl
@[simp] theorem State.bump_slice (s : State) (f : Fld) (n m : Nat) (z : Nat) : (s.bump f n m).slice z = s.slice z := rfl

@[simp] theorem State.wrapBy_pending (s : State) (f : Fld) (k n m : Nat) : (s.wrapBy f k n m).pending = s.pending := rfl
@[simp] theorem State.wrapBy_fresh (s : State) (f : Fld) (k n m : Nat) : (s.wrapBy f k n m).fresh = s.fresh := rfl
@[simp] theorem State.wrapBy_now (s : State) (f : Fld) (k n m : Nat) : (s.wrapBy f k n m).now = s.now := rfl
@[simp] theorem State.wrapBy_pat (s : State) (f : Fld) (k n m : Nat) : (s.wrapBy f k n m).pat = s.pat := rfl
@[simp] theorem State.wrapBy_cur (s : State) (f : Fld) (k n m : Nat) : (s.wrapBy f k n m).cur = s.cur := rfl
@[simp] theorem State.wrapBy_roles (s : State) (f : Fld) (k n m : Nat) : (s.wrapBy f k n m).roles = s.roles := rfl
@[simp] theorem State.wrapBy_logic (s : State) (f : Fld) (k n m : Nat) : (s.wrapBy f k n m).logic = s.logic := rfl
@[simp] theorem State.wrapBy_table (s : State) (f : Fld) (k n m : Nat) : (s.wrapBy f k n m).table = s.table := rfl
@[simp] theorem State.wrapBy_moved (s : State) (f : Fld) (k n m : Nat) : (s.wrapBy f k n m).moved = s.moved := rfl
@[simp] theorem State.wrapBy_ports (s : State) (f : Fld) (k n m : Nat) : (s.wrapBy f k n m).ports = s.ports := rfl
@[simp] theorem State.wrapBy_slices (s : State) (f : Fld) (k n m : Nat) : (s.wrapBy f k n m).slices = s.slices := rfl
@[simp] theorem State.wrapBy_wins (s : State) (f : Fld) (k n m : Nat) : (s.wrapBy f k n m).wins = s.wins := rfl
@[simp] theorem State.wrapBy_wno (s : State) (f : Fld) (k n m : Nat) : (s.wrapBy f k n m).wno = s.wno := rfl
@[simp] theorem State.wrapBy_barriers (s : State) (f : Fld) (k n m : Nat) : (s.wrapBy f k n m).barriers = s.barriers := rfl
@[simp] theorem State.wrapBy_banks (s : State) (f : Fld) (k n m : Nat) : (s.wrapBy f k n m).banks = s.banks := rfl
@[simp] theorem State.wrapBy_ctx0 (s : State) (f : Fld) (k n m : Nat) : (s.wrapBy f k n m).ctx0 = s.ctx0 := rfl
@[simp] theorem State.wrapBy_ctx1 (s : State) (f : Fld) (k n m : Nat) : (s.wrapBy f k n m).ctx1 = s.ctx1 := rfl
@[simp] theorem State.wrapBy_mig (s : State) (f : Fld) (k n m : Nat) : (s.wrapBy f k n m).mig = s.mig := rfl
@[simp] theorem State.wrapBy_lossLog (s : State) (f : Fld) (k n m : Nat) : (s.wrapBy f k n m).lossLog = s.lossLog := rfl
@[simp] theorem State.wrapBy_predQ (s : State) (f : Fld) (k n m : Nat) : (s.wrapBy f k n m).predQ = s.predQ := rfl
@[simp] theorem State.wrapBy_replaceNo (s : State) (f : Fld) (k n m : Nat) : (s.wrapBy f k n m).replaceNo = s.replaceNo := rfl
@[simp] theorem State.wrapBy_replaceAt (s : State) (f : Fld) (k n m : Nat) : (s.wrapBy f k n m).replaceAt = s.replaceAt := rfl
@[simp] theorem State.wrapBy_sources (s : State) (f : Fld) (k n m : Nat) : (s.wrapBy f k n m).sources = s.sources := rfl
@[simp] theorem State.wrapBy_vectors (s : State) (f : Fld) (k n m : Nat) : (s.wrapBy f k n m).vectors = s.vectors := rfl
@[simp] theorem State.wrapBy_jig (s : State) (f : Fld) (k n m : Nat) : (s.wrapBy f k n m).jig = s.jig := rfl
@[simp] theorem State.wrapBy_log (s : State) (f : Fld) (k n m : Nat) : (s.wrapBy f k n m).log = s.log := rfl
@[simp] theorem State.wrapBy_dropArm (s : State) (f : Fld) (k n m : Nat) : (s.wrapBy f k n m).dropArm = s.dropArm := rfl
@[simp] theorem State.wrapBy_due (s : State) (f : Fld) (k n m : Nat) : (s.wrapBy f k n m).due = s.due := rfl
@[simp] theorem State.wrapBy_safePin (s : State) (f : Fld) (k n m : Nat) : (s.wrapBy f k n m).safePin = s.safePin := rfl
@[simp] theorem State.wrapBy_boot (s : State) (f : Fld) (k n m : Nat) : (s.wrapBy f k n m).boot = s.boot := rfl
@[simp] theorem State.wrapBy_umv (s : State) (f : Fld) (k n m : Nat) : (s.wrapBy f k n m).umv = s.umv := rfl
@[simp] theorem State.wrapBy_tb (s : State) (f : Fld) (k n m : Nat) : (s.wrapBy f k n m).tb = s.tb := rfl
@[simp] theorem State.wrapBy_tns (s : State) (f : Fld) (k n m : Nat) : (s.wrapBy f k n m).tns = s.tns := rfl
@[simp] theorem State.wrapBy_latent (s : State) (f : Fld) (k n m : Nat) : (s.wrapBy f k n m).latent = s.latent := rfl
@[simp] theorem State.wrapBy_probing (s : State) (f : Fld) (k n m : Nat) : (s.wrapBy f k n m).probing = s.probing := rfl
@[simp] theorem State.wrapBy_port (s : State) (f : Fld) (k n m : Nat) (z : Nat) : (s.wrapBy f k n m).port z = s.port z := rfl
@[simp] theorem State.wrapBy_slice (s : State) (f : Fld) (k n m : Nat) (z : Nat) : (s.wrapBy f k n m).slice z = s.slice z := rfl

@[simp] theorem State.wrapInc_pending (s : State) (f : Fld) (n m : Nat) : (s.wrapInc f n m).pending = s.pending := rfl
@[simp] theorem State.wrapInc_fresh (s : State) (f : Fld) (n m : Nat) : (s.wrapInc f n m).fresh = s.fresh := rfl
@[simp] theorem State.wrapInc_now (s : State) (f : Fld) (n m : Nat) : (s.wrapInc f n m).now = s.now := rfl
@[simp] theorem State.wrapInc_pat (s : State) (f : Fld) (n m : Nat) : (s.wrapInc f n m).pat = s.pat := rfl
@[simp] theorem State.wrapInc_cur (s : State) (f : Fld) (n m : Nat) : (s.wrapInc f n m).cur = s.cur := rfl
@[simp] theorem State.wrapInc_roles (s : State) (f : Fld) (n m : Nat) : (s.wrapInc f n m).roles = s.roles := rfl
@[simp] theorem State.wrapInc_logic (s : State) (f : Fld) (n m : Nat) : (s.wrapInc f n m).logic = s.logic := rfl
@[simp] theorem State.wrapInc_table (s : State) (f : Fld) (n m : Nat) : (s.wrapInc f n m).table = s.table := rfl
@[simp] theorem State.wrapInc_moved (s : State) (f : Fld) (n m : Nat) : (s.wrapInc f n m).moved = s.moved := rfl
@[simp] theorem State.wrapInc_ports (s : State) (f : Fld) (n m : Nat) : (s.wrapInc f n m).ports = s.ports := rfl
@[simp] theorem State.wrapInc_slices (s : State) (f : Fld) (n m : Nat) : (s.wrapInc f n m).slices = s.slices := rfl
@[simp] theorem State.wrapInc_wins (s : State) (f : Fld) (n m : Nat) : (s.wrapInc f n m).wins = s.wins := rfl
@[simp] theorem State.wrapInc_wno (s : State) (f : Fld) (n m : Nat) : (s.wrapInc f n m).wno = s.wno := rfl
@[simp] theorem State.wrapInc_barriers (s : State) (f : Fld) (n m : Nat) : (s.wrapInc f n m).barriers = s.barriers := rfl
@[simp] theorem State.wrapInc_banks (s : State) (f : Fld) (n m : Nat) : (s.wrapInc f n m).banks = s.banks := rfl
@[simp] theorem State.wrapInc_ctx0 (s : State) (f : Fld) (n m : Nat) : (s.wrapInc f n m).ctx0 = s.ctx0 := rfl
@[simp] theorem State.wrapInc_ctx1 (s : State) (f : Fld) (n m : Nat) : (s.wrapInc f n m).ctx1 = s.ctx1 := rfl
@[simp] theorem State.wrapInc_mig (s : State) (f : Fld) (n m : Nat) : (s.wrapInc f n m).mig = s.mig := rfl
@[simp] theorem State.wrapInc_lossLog (s : State) (f : Fld) (n m : Nat) : (s.wrapInc f n m).lossLog = s.lossLog := rfl
@[simp] theorem State.wrapInc_predQ (s : State) (f : Fld) (n m : Nat) : (s.wrapInc f n m).predQ = s.predQ := rfl
@[simp] theorem State.wrapInc_replaceNo (s : State) (f : Fld) (n m : Nat) : (s.wrapInc f n m).replaceNo = s.replaceNo := rfl
@[simp] theorem State.wrapInc_replaceAt (s : State) (f : Fld) (n m : Nat) : (s.wrapInc f n m).replaceAt = s.replaceAt := rfl
@[simp] theorem State.wrapInc_sources (s : State) (f : Fld) (n m : Nat) : (s.wrapInc f n m).sources = s.sources := rfl
@[simp] theorem State.wrapInc_vectors (s : State) (f : Fld) (n m : Nat) : (s.wrapInc f n m).vectors = s.vectors := rfl
@[simp] theorem State.wrapInc_jig (s : State) (f : Fld) (n m : Nat) : (s.wrapInc f n m).jig = s.jig := rfl
@[simp] theorem State.wrapInc_log (s : State) (f : Fld) (n m : Nat) : (s.wrapInc f n m).log = s.log := rfl
@[simp] theorem State.wrapInc_dropArm (s : State) (f : Fld) (n m : Nat) : (s.wrapInc f n m).dropArm = s.dropArm := rfl
@[simp] theorem State.wrapInc_due (s : State) (f : Fld) (n m : Nat) : (s.wrapInc f n m).due = s.due := rfl
@[simp] theorem State.wrapInc_safePin (s : State) (f : Fld) (n m : Nat) : (s.wrapInc f n m).safePin = s.safePin := rfl
@[simp] theorem State.wrapInc_boot (s : State) (f : Fld) (n m : Nat) : (s.wrapInc f n m).boot = s.boot := rfl
@[simp] theorem State.wrapInc_umv (s : State) (f : Fld) (n m : Nat) : (s.wrapInc f n m).umv = s.umv := rfl
@[simp] theorem State.wrapInc_tb (s : State) (f : Fld) (n m : Nat) : (s.wrapInc f n m).tb = s.tb := rfl
@[simp] theorem State.wrapInc_tns (s : State) (f : Fld) (n m : Nat) : (s.wrapInc f n m).tns = s.tns := rfl
@[simp] theorem State.wrapInc_latent (s : State) (f : Fld) (n m : Nat) : (s.wrapInc f n m).latent = s.latent := rfl
@[simp] theorem State.wrapInc_probing (s : State) (f : Fld) (n m : Nat) : (s.wrapInc f n m).probing = s.probing := rfl
@[simp] theorem State.wrapInc_port (s : State) (f : Fld) (n m : Nat) (z : Nat) : (s.wrapInc f n m).port z = s.port z := rfl
@[simp] theorem State.wrapInc_slice (s : State) (f : Fld) (n m : Nat) (z : Nat) : (s.wrapInc f n m).slice z = s.slice z := rfl

@[simp] theorem State.setPort_pending (s : State) (p : Nat) (q : Port) : (s.setPort p q).pending = s.pending := rfl
@[simp] theorem State.setPort_fresh (s : State) (p : Nat) (q : Port) : (s.setPort p q).fresh = s.fresh := rfl
@[simp] theorem State.setPort_now (s : State) (p : Nat) (q : Port) : (s.setPort p q).now = s.now := rfl
@[simp] theorem State.setPort_regs (s : State) (p : Nat) (q : Port) : (s.setPort p q).regs = s.regs := rfl
@[simp] theorem State.setPort_pat (s : State) (p : Nat) (q : Port) : (s.setPort p q).pat = s.pat := rfl
@[simp] theorem State.setPort_cur (s : State) (p : Nat) (q : Port) : (s.setPort p q).cur = s.cur := rfl
@[simp] theorem State.setPort_roles (s : State) (p : Nat) (q : Port) : (s.setPort p q).roles = s.roles := rfl
@[simp] theorem State.setPort_logic (s : State) (p : Nat) (q : Port) : (s.setPort p q).logic = s.logic := rfl
@[simp] theorem State.setPort_table (s : State) (p : Nat) (q : Port) : (s.setPort p q).table = s.table := rfl
@[simp] theorem State.setPort_moved (s : State) (p : Nat) (q : Port) : (s.setPort p q).moved = s.moved := rfl
@[simp] theorem State.setPort_slices (s : State) (p : Nat) (q : Port) : (s.setPort p q).slices = s.slices := rfl
@[simp] theorem State.setPort_wins (s : State) (p : Nat) (q : Port) : (s.setPort p q).wins = s.wins := rfl
@[simp] theorem State.setPort_wno (s : State) (p : Nat) (q : Port) : (s.setPort p q).wno = s.wno := rfl
@[simp] theorem State.setPort_barriers (s : State) (p : Nat) (q : Port) : (s.setPort p q).barriers = s.barriers := rfl
@[simp] theorem State.setPort_banks (s : State) (p : Nat) (q : Port) : (s.setPort p q).banks = s.banks := rfl
@[simp] theorem State.setPort_ctx0 (s : State) (p : Nat) (q : Port) : (s.setPort p q).ctx0 = s.ctx0 := rfl
@[simp] theorem State.setPort_ctx1 (s : State) (p : Nat) (q : Port) : (s.setPort p q).ctx1 = s.ctx1 := rfl
@[simp] theorem State.setPort_mig (s : State) (p : Nat) (q : Port) : (s.setPort p q).mig = s.mig := rfl
@[simp] theorem State.setPort_lossLog (s : State) (p : Nat) (q : Port) : (s.setPort p q).lossLog = s.lossLog := rfl
@[simp] theorem State.setPort_predQ (s : State) (p : Nat) (q : Port) : (s.setPort p q).predQ = s.predQ := rfl
@[simp] theorem State.setPort_replaceNo (s : State) (p : Nat) (q : Port) : (s.setPort p q).replaceNo = s.replaceNo := rfl
@[simp] theorem State.setPort_replaceAt (s : State) (p : Nat) (q : Port) : (s.setPort p q).replaceAt = s.replaceAt := rfl
@[simp] theorem State.setPort_sources (s : State) (p : Nat) (q : Port) : (s.setPort p q).sources = s.sources := rfl
@[simp] theorem State.setPort_vectors (s : State) (p : Nat) (q : Port) : (s.setPort p q).vectors = s.vectors := rfl
@[simp] theorem State.setPort_jig (s : State) (p : Nat) (q : Port) : (s.setPort p q).jig = s.jig := rfl
@[simp] theorem State.setPort_log (s : State) (p : Nat) (q : Port) : (s.setPort p q).log = s.log := rfl
@[simp] theorem State.setPort_dropArm (s : State) (p : Nat) (q : Port) : (s.setPort p q).dropArm = s.dropArm := rfl
@[simp] theorem State.setPort_due (s : State) (p : Nat) (q : Port) : (s.setPort p q).due = s.due := rfl
@[simp] theorem State.setPort_safePin (s : State) (p : Nat) (q : Port) : (s.setPort p q).safePin = s.safePin := rfl
@[simp] theorem State.setPort_boot (s : State) (p : Nat) (q : Port) : (s.setPort p q).boot = s.boot := rfl
@[simp] theorem State.setPort_umv (s : State) (p : Nat) (q : Port) : (s.setPort p q).umv = s.umv := rfl
@[simp] theorem State.setPort_tb (s : State) (p : Nat) (q : Port) : (s.setPort p q).tb = s.tb := rfl
@[simp] theorem State.setPort_tns (s : State) (p : Nat) (q : Port) : (s.setPort p q).tns = s.tns := rfl
@[simp] theorem State.setPort_latent (s : State) (p : Nat) (q : Port) : (s.setPort p q).latent = s.latent := rfl
@[simp] theorem State.setPort_probing (s : State) (p : Nat) (q : Port) : (s.setPort p q).probing = s.probing := rfl
@[simp] theorem State.setPort_word (s : State) (p : Nat) (q : Port) (z : Nat) : (s.setPort p q).word z = s.word z := rfl
@[simp] theorem State.setPort_fget (s : State) (p : Nat) (q : Port) (g : Fld) (i j : Nat) : (s.setPort p q).fget g i j = s.fget g i j := rfl
@[simp] theorem State.setPort_flag (s : State) (p : Nat) (q : Port) (g : Fld) (i j : Nat) : (s.setPort p q).flag g i j = s.flag g i j := rfl
@[simp] theorem State.setPort_slice (s : State) (p : Nat) (q : Port) (z : Nat) : (s.setPort p q).slice z = s.slice z := rfl

@[simp] theorem State.modPort_pending (s : State) (p : Nat) (f : Port → Port) : (s.modPort p f).pending = s.pending := rfl
@[simp] theorem State.modPort_fresh (s : State) (p : Nat) (f : Port → Port) : (s.modPort p f).fresh = s.fresh := rfl
@[simp] theorem State.modPort_now (s : State) (p : Nat) (f : Port → Port) : (s.modPort p f).now = s.now := rfl
@[simp] theorem State.modPort_regs (s : State) (p : Nat) (f : Port → Port) : (s.modPort p f).regs = s.regs := rfl
@[simp] theorem State.modPort_pat (s : State) (p : Nat) (f : Port → Port) : (s.modPort p f).pat = s.pat := rfl
@[simp] theorem State.modPort_cur (s : State) (p : Nat) (f : Port → Port) : (s.modPort p f).cur = s.cur := rfl
@[simp] theorem State.modPort_roles (s : State) (p : Nat) (f : Port → Port) : (s.modPort p f).roles = s.roles := rfl
@[simp] theorem State.modPort_logic (s : State) (p : Nat) (f : Port → Port) : (s.modPort p f).logic = s.logic := rfl
@[simp] theorem State.modPort_table (s : State) (p : Nat) (f : Port → Port) : (s.modPort p f).table = s.table := rfl
@[simp] theorem State.modPort_moved (s : State) (p : Nat) (f : Port → Port) : (s.modPort p f).moved = s.moved := rfl
@[simp] theorem State.modPort_slices (s : State) (p : Nat) (f : Port → Port) : (s.modPort p f).slices = s.slices := rfl
@[simp] theorem State.modPort_wins (s : State) (p : Nat) (f : Port → Port) : (s.modPort p f).wins = s.wins := rfl
@[simp] theorem State.modPort_wno (s : State) (p : Nat) (f : Port → Port) : (s.modPort p f).wno = s.wno := rfl
@[simp] theorem State.modPort_barriers (s : State) (p : Nat) (f : Port → Port) : (s.modPort p f).barriers = s.barriers := rfl
@[simp] theorem State.modPort_banks (s : State) (p : Nat) (f : Port → Port) : (s.modPort p f).banks = s.banks := rfl
@[simp] theorem State.modPort_ctx0 (s : State) (p : Nat) (f : Port → Port) : (s.modPort p f).ctx0 = s.ctx0 := rfl
@[simp] theorem State.modPort_ctx1 (s : State) (p : Nat) (f : Port → Port) : (s.modPort p f).ctx1 = s.ctx1 := rfl
@[simp] theorem State.modPort_mig (s : State) (p : Nat) (f : Port → Port) : (s.modPort p f).mig = s.mig := rfl
@[simp] theorem State.modPort_lossLog (s : State) (p : Nat) (f : Port → Port) : (s.modPort p f).lossLog = s.lossLog := rfl
@[simp] theorem State.modPort_predQ (s : State) (p : Nat) (f : Port → Port) : (s.modPort p f).predQ = s.predQ := rfl
@[simp] theorem State.modPort_replaceNo (s : State) (p : Nat) (f : Port → Port) : (s.modPort p f).replaceNo = s.replaceNo := rfl
@[simp] theorem State.modPort_replaceAt (s : State) (p : Nat) (f : Port → Port) : (s.modPort p f).replaceAt = s.replaceAt := rfl
@[simp] theorem State.modPort_sources (s : State) (p : Nat) (f : Port → Port) : (s.modPort p f).sources = s.sources := rfl
@[simp] theorem State.modPort_vectors (s : State) (p : Nat) (f : Port → Port) : (s.modPort p f).vectors = s.vectors := rfl
@[simp] theorem State.modPort_jig (s : State) (p : Nat) (f : Port → Port) : (s.modPort p f).jig = s.jig := rfl
@[simp] theorem State.modPort_log (s : State) (p : Nat) (f : Port → Port) : (s.modPort p f).log = s.log := rfl
@[simp] theorem State.modPort_dropArm (s : State) (p : Nat) (f : Port → Port) : (s.modPort p f).dropArm = s.dropArm := rfl
@[simp] theorem State.modPort_due (s : State) (p : Nat) (f : Port → Port) : (s.modPort p f).due = s.due := rfl
@[simp] theorem State.modPort_safePin (s : State) (p : Nat) (f : Port → Port) : (s.modPort p f).safePin = s.safePin := rfl
@[simp] theorem State.modPort_boot (s : State) (p : Nat) (f : Port → Port) : (s.modPort p f).boot = s.boot := rfl
@[simp] theorem State.modPort_umv (s : State) (p : Nat) (f : Port → Port) : (s.modPort p f).umv = s.umv := rfl
@[simp] theorem State.modPort_tb (s : State) (p : Nat) (f : Port → Port) : (s.modPort p f).tb = s.tb := rfl
@[simp] theorem State.modPort_tns (s : State) (p : Nat) (f : Port → Port) : (s.modPort p f).tns = s.tns := rfl
@[simp] theorem State.modPort_latent (s : State) (p : Nat) (f : Port → Port) : (s.modPort p f).latent = s.latent := rfl
@[simp] theorem State.modPort_probing (s : State) (p : Nat) (f : Port → Port) : (s.modPort p f).probing = s.probing := rfl
@[simp] theorem State.modPort_word (s : State) (p : Nat) (f : Port → Port) (z : Nat) : (s.modPort p f).word z = s.word z := rfl
@[simp] theorem State.modPort_fget (s : State) (p : Nat) (f : Port → Port) (g : Fld) (i j : Nat) : (s.modPort p f).fget g i j = s.fget g i j := rfl
@[simp] theorem State.modPort_flag (s : State) (p : Nat) (f : Port → Port) (g : Fld) (i j : Nat) : (s.modPort p f).flag g i j = s.flag g i j := rfl
@[simp] theorem State.modPort_slice (s : State) (p : Nat) (f : Port → Port) (z : Nat) : (s.modPort p f).slice z = s.slice z := rfl

@[simp] theorem State.setSlice_pending (s : State) (k : Nat) (x : Slice) : (s.setSlice k x).pending = s.pending := rfl
@[simp] theorem State.setSlice_fresh (s : State) (k : Nat) (x : Slice) : (s.setSlice k x).fresh = s.fresh := rfl
@[simp] theorem State.setSlice_now (s : State) (k : Nat) (x : Slice) : (s.setSlice k x).now = s.now := rfl
@[simp] theorem State.setSlice_regs (s : State) (k : Nat) (x : Slice) : (s.setSlice k x).regs = s.regs := rfl
@[simp] theorem State.setSlice_pat (s : State) (k : Nat) (x : Slice) : (s.setSlice k x).pat = s.pat := rfl
@[simp] theorem State.setSlice_cur (s : State) (k : Nat) (x : Slice) : (s.setSlice k x).cur = s.cur := rfl
@[simp] theorem State.setSlice_roles (s : State) (k : Nat) (x : Slice) : (s.setSlice k x).roles = s.roles := rfl
@[simp] theorem State.setSlice_logic (s : State) (k : Nat) (x : Slice) : (s.setSlice k x).logic = s.logic := rfl
@[simp] theorem State.setSlice_table (s : State) (k : Nat) (x : Slice) : (s.setSlice k x).table = s.table := rfl
@[simp] theorem State.setSlice_moved (s : State) (k : Nat) (x : Slice) : (s.setSlice k x).moved = s.moved := rfl
@[simp] theorem State.setSlice_ports (s : State) (k : Nat) (x : Slice) : (s.setSlice k x).ports = s.ports := rfl
@[simp] theorem State.setSlice_wins (s : State) (k : Nat) (x : Slice) : (s.setSlice k x).wins = s.wins := rfl
@[simp] theorem State.setSlice_wno (s : State) (k : Nat) (x : Slice) : (s.setSlice k x).wno = s.wno := rfl
@[simp] theorem State.setSlice_barriers (s : State) (k : Nat) (x : Slice) : (s.setSlice k x).barriers = s.barriers := rfl
@[simp] theorem State.setSlice_banks (s : State) (k : Nat) (x : Slice) : (s.setSlice k x).banks = s.banks := rfl
@[simp] theorem State.setSlice_ctx0 (s : State) (k : Nat) (x : Slice) : (s.setSlice k x).ctx0 = s.ctx0 := rfl
@[simp] theorem State.setSlice_ctx1 (s : State) (k : Nat) (x : Slice) : (s.setSlice k x).ctx1 = s.ctx1 := rfl
@[simp] theorem State.setSlice_mig (s : State) (k : Nat) (x : Slice) : (s.setSlice k x).mig = s.mig := rfl
@[simp] theorem State.setSlice_lossLog (s : State) (k : Nat) (x : Slice) : (s.setSlice k x).lossLog = s.lossLog := rfl
@[simp] theorem State.setSlice_predQ (s : State) (k : Nat) (x : Slice) : (s.setSlice k x).predQ = s.predQ := rfl
@[simp] theorem State.setSlice_replaceNo (s : State) (k : Nat) (x : Slice) : (s.setSlice k x).replaceNo = s.replaceNo := rfl
@[simp] theorem State.setSlice_replaceAt (s : State) (k : Nat) (x : Slice) : (s.setSlice k x).replaceAt = s.replaceAt := rfl
@[simp] theorem State.setSlice_sources (s : State) (k : Nat) (x : Slice) : (s.setSlice k x).sources = s.sources := rfl
@[simp] theorem State.setSlice_vectors (s : State) (k : Nat) (x : Slice) : (s.setSlice k x).vectors = s.vectors := rfl
@[simp] theorem State.setSlice_jig (s : State) (k : Nat) (x : Slice) : (s.setSlice k x).jig = s.jig := rfl
@[simp] theorem State.setSlice_log (s : State) (k : Nat) (x : Slice) : (s.setSlice k x).log = s.log := rfl
@[simp] theorem State.setSlice_dropArm (s : State) (k : Nat) (x : Slice) : (s.setSlice k x).dropArm = s.dropArm := rfl
@[simp] theorem State.setSlice_due (s : State) (k : Nat) (x : Slice) : (s.setSlice k x).due = s.due := rfl
@[simp] theorem State.setSlice_safePin (s : State) (k : Nat) (x : Slice) : (s.setSlice k x).safePin = s.safePin := rfl
@[simp] theorem State.setSlice_boot (s : State) (k : Nat) (x : Slice) : (s.setSlice k x).boot = s.boot := rfl
@[simp] theorem State.setSlice_umv (s : State) (k : Nat) (x : Slice) : (s.setSlice k x).umv = s.umv := rfl
@[simp] theorem State.setSlice_tb (s : State) (k : Nat) (x : Slice) : (s.setSlice k x).tb = s.tb := rfl
@[simp] theorem State.setSlice_tns (s : State) (k : Nat) (x : Slice) : (s.setSlice k x).tns = s.tns := rfl
@[simp] theorem State.setSlice_latent (s : State) (k : Nat) (x : Slice) : (s.setSlice k x).latent = s.latent := rfl
@[simp] theorem State.setSlice_probing (s : State) (k : Nat) (x : Slice) : (s.setSlice k x).probing = s.probing := rfl
@[simp] theorem State.setSlice_word (s : State) (k : Nat) (x : Slice) (z : Nat) : (s.setSlice k x).word z = s.word z := rfl
@[simp] theorem State.setSlice_fget (s : State) (k : Nat) (x : Slice) (g : Fld) (i j : Nat) : (s.setSlice k x).fget g i j = s.fget g i j := rfl
@[simp] theorem State.setSlice_flag (s : State) (k : Nat) (x : Slice) (g : Fld) (i j : Nat) : (s.setSlice k x).flag g i j = s.flag g i j := rfl
@[simp] theorem State.setSlice_port (s : State) (k : Nat) (x : Slice) (z : Nat) : (s.setSlice k x).port z = s.port z := rfl

@[simp] theorem State.modSlice_pending (s : State) (k : Nat) (f : Slice → Slice) : (s.modSlice k f).pending = s.pending := rfl
@[simp] theorem State.modSlice_fresh (s : State) (k : Nat) (f : Slice → Slice) : (s.modSlice k f).fresh = s.fresh := rfl
@[simp] theorem State.modSlice_now (s : State) (k : Nat) (f : Slice → Slice) : (s.modSlice k f).now = s.now := rfl
@[simp] theorem State.modSlice_regs (s : State) (k : Nat) (f : Slice → Slice) : (s.modSlice k f).regs = s.regs := rfl
@[simp] theorem State.modSlice_pat (s : State) (k : Nat) (f : Slice → Slice) : (s.modSlice k f).pat = s.pat := rfl
@[simp] theorem State.modSlice_cur (s : State) (k : Nat) (f : Slice → Slice) : (s.modSlice k f).cur = s.cur := rfl
@[simp] theorem State.modSlice_roles (s : State) (k : Nat) (f : Slice → Slice) : (s.modSlice k f).roles = s.roles := rfl
@[simp] theorem State.modSlice_logic (s : State) (k : Nat) (f : Slice → Slice) : (s.modSlice k f).logic = s.logic := rfl
@[simp] theorem State.modSlice_table (s : State) (k : Nat) (f : Slice → Slice) : (s.modSlice k f).table = s.table := rfl
@[simp] theorem State.modSlice_moved (s : State) (k : Nat) (f : Slice → Slice) : (s.modSlice k f).moved = s.moved := rfl
@[simp] theorem State.modSlice_ports (s : State) (k : Nat) (f : Slice → Slice) : (s.modSlice k f).ports = s.ports := rfl
@[simp] theorem State.modSlice_wins (s : State) (k : Nat) (f : Slice → Slice) : (s.modSlice k f).wins = s.wins := rfl
@[simp] theorem State.modSlice_wno (s : State) (k : Nat) (f : Slice → Slice) : (s.modSlice k f).wno = s.wno := rfl
@[simp] theorem State.modSlice_barriers (s : State) (k : Nat) (f : Slice → Slice) : (s.modSlice k f).barriers = s.barriers := rfl
@[simp] theorem State.modSlice_banks (s : State) (k : Nat) (f : Slice → Slice) : (s.modSlice k f).banks = s.banks := rfl
@[simp] theorem State.modSlice_ctx0 (s : State) (k : Nat) (f : Slice → Slice) : (s.modSlice k f).ctx0 = s.ctx0 := rfl
@[simp] theorem State.modSlice_ctx1 (s : State) (k : Nat) (f : Slice → Slice) : (s.modSlice k f).ctx1 = s.ctx1 := rfl
@[simp] theorem State.modSlice_mig (s : State) (k : Nat) (f : Slice → Slice) : (s.modSlice k f).mig = s.mig := rfl
@[simp] theorem State.modSlice_lossLog (s : State) (k : Nat) (f : Slice → Slice) : (s.modSlice k f).lossLog = s.lossLog := rfl
@[simp] theorem State.modSlice_predQ (s : State) (k : Nat) (f : Slice → Slice) : (s.modSlice k f).predQ = s.predQ := rfl
@[simp] theorem State.modSlice_replaceNo (s : State) (k : Nat) (f : Slice → Slice) : (s.modSlice k f).replaceNo = s.replaceNo := rfl
@[simp] theorem State.modSlice_replaceAt (s : State) (k : Nat) (f : Slice → Slice) : (s.modSlice k f).replaceAt = s.replaceAt := rfl
@[simp] theorem State.modSlice_sources (s : State) (k : Nat) (f : Slice → Slice) : (s.modSlice k f).sources = s.sources := rfl
@[simp] theorem State.modSlice_vectors (s : State) (k : Nat) (f : Slice → Slice) : (s.modSlice k f).vectors = s.vectors := rfl
@[simp] theorem State.modSlice_jig (s : State) (k : Nat) (f : Slice → Slice) : (s.modSlice k f).jig = s.jig := rfl
@[simp] theorem State.modSlice_log (s : State) (k : Nat) (f : Slice → Slice) : (s.modSlice k f).log = s.log := rfl
@[simp] theorem State.modSlice_dropArm (s : State) (k : Nat) (f : Slice → Slice) : (s.modSlice k f).dropArm = s.dropArm := rfl
@[simp] theorem State.modSlice_due (s : State) (k : Nat) (f : Slice → Slice) : (s.modSlice k f).due = s.due := rfl
@[simp] theorem State.modSlice_safePin (s : State) (k : Nat) (f : Slice → Slice) : (s.modSlice k f).safePin = s.safePin := rfl
@[simp] theorem State.modSlice_boot (s : State) (k : Nat) (f : Slice → Slice) : (s.modSlice k f).boot = s.boot := rfl
@[simp] theorem State.modSlice_umv (s : State) (k : Nat) (f : Slice → Slice) : (s.modSlice k f).umv = s.umv := rfl
@[simp] theorem State.modSlice_tb (s : State) (k : Nat) (f : Slice → Slice) : (s.modSlice k f).tb = s.tb := rfl
@[simp] theorem State.modSlice_tns (s : State) (k : Nat) (f : Slice → Slice) : (s.modSlice k f).tns = s.tns := rfl
@[simp] theorem State.modSlice_latent (s : State) (k : Nat) (f : Slice → Slice) : (s.modSlice k f).latent = s.latent := rfl
@[simp] theorem State.modSlice_probing (s : State) (k : Nat) (f : Slice → Slice) : (s.modSlice k f).probing = s.probing := rfl
@[simp] theorem State.modSlice_word (s : State) (k : Nat) (f : Slice → Slice) (z : Nat) : (s.modSlice k f).word z = s.word z := rfl
@[simp] theorem State.modSlice_fget (s : State) (k : Nat) (f : Slice → Slice) (g : Fld) (i j : Nat) : (s.modSlice k f).fget g i j = s.fget g i j := rfl
@[simp] theorem State.modSlice_flag (s : State) (k : Nat) (f : Slice → Slice) (g : Fld) (i j : Nat) : (s.modSlice k f).flag g i j = s.flag g i j := rfl
@[simp] theorem State.modSlice_port (s : State) (k : Nat) (f : Slice → Slice) (z : Nat) : (s.modSlice k f).port z = s.port z := rfl

@[simp] theorem State.setTxn_pending (s : State) (k t : Nat) (x : Option Txn) : (s.setTxn k t x).pending = s.pending := rfl
@[simp] theorem State.setTxn_fresh (s : State) (k t : Nat) (x : Option Txn) : (s.setTxn k t x).fresh = s.fresh := rfl
@[simp] theorem State.setTxn_now (s : State) (k t : Nat) (x : Option Txn) : (s.setTxn k t x).now = s.now := rfl
@[simp] theorem State.setTxn_regs (s : State) (k t : Nat) (x : Option Txn) : (s.setTxn k t x).regs = s.regs := rfl
@[simp] theorem State.setTxn_pat (s : State) (k t : Nat) (x : Option Txn) : (s.setTxn k t x).pat = s.pat := rfl
@[simp] theorem State.setTxn_cur (s : State) (k t : Nat) (x : Option Txn) : (s.setTxn k t x).cur = s.cur := rfl
@[simp] theorem State.setTxn_roles (s : State) (k t : Nat) (x : Option Txn) : (s.setTxn k t x).roles = s.roles := rfl
@[simp] theorem State.setTxn_logic (s : State) (k t : Nat) (x : Option Txn) : (s.setTxn k t x).logic = s.logic := rfl
@[simp] theorem State.setTxn_table (s : State) (k t : Nat) (x : Option Txn) : (s.setTxn k t x).table = s.table := rfl
@[simp] theorem State.setTxn_moved (s : State) (k t : Nat) (x : Option Txn) : (s.setTxn k t x).moved = s.moved := rfl
@[simp] theorem State.setTxn_ports (s : State) (k t : Nat) (x : Option Txn) : (s.setTxn k t x).ports = s.ports := rfl
@[simp] theorem State.setTxn_wins (s : State) (k t : Nat) (x : Option Txn) : (s.setTxn k t x).wins = s.wins := rfl
@[simp] theorem State.setTxn_wno (s : State) (k t : Nat) (x : Option Txn) : (s.setTxn k t x).wno = s.wno := rfl
@[simp] theorem State.setTxn_barriers (s : State) (k t : Nat) (x : Option Txn) : (s.setTxn k t x).barriers = s.barriers := rfl
@[simp] theorem State.setTxn_banks (s : State) (k t : Nat) (x : Option Txn) : (s.setTxn k t x).banks = s.banks := rfl
@[simp] theorem State.setTxn_ctx0 (s : State) (k t : Nat) (x : Option Txn) : (s.setTxn k t x).ctx0 = s.ctx0 := rfl
@[simp] theorem State.setTxn_ctx1 (s : State) (k t : Nat) (x : Option Txn) : (s.setTxn k t x).ctx1 = s.ctx1 := rfl
@[simp] theorem State.setTxn_mig (s : State) (k t : Nat) (x : Option Txn) : (s.setTxn k t x).mig = s.mig := rfl
@[simp] theorem State.setTxn_lossLog (s : State) (k t : Nat) (x : Option Txn) : (s.setTxn k t x).lossLog = s.lossLog := rfl
@[simp] theorem State.setTxn_predQ (s : State) (k t : Nat) (x : Option Txn) : (s.setTxn k t x).predQ = s.predQ := rfl
@[simp] theorem State.setTxn_replaceNo (s : State) (k t : Nat) (x : Option Txn) : (s.setTxn k t x).replaceNo = s.replaceNo := rfl
@[simp] theorem State.setTxn_replaceAt (s : State) (k t : Nat) (x : Option Txn) : (s.setTxn k t x).replaceAt = s.replaceAt := rfl
@[simp] theorem State.setTxn_sources (s : State) (k t : Nat) (x : Option Txn) : (s.setTxn k t x).sources = s.sources := rfl
@[simp] theorem State.setTxn_vectors (s : State) (k t : Nat) (x : Option Txn) : (s.setTxn k t x).vectors = s.vectors := rfl
@[simp] theorem State.setTxn_jig (s : State) (k t : Nat) (x : Option Txn) : (s.setTxn k t x).jig = s.jig := rfl
@[simp] theorem State.setTxn_log (s : State) (k t : Nat) (x : Option Txn) : (s.setTxn k t x).log = s.log := rfl
@[simp] theorem State.setTxn_dropArm (s : State) (k t : Nat) (x : Option Txn) : (s.setTxn k t x).dropArm = s.dropArm := rfl
@[simp] theorem State.setTxn_due (s : State) (k t : Nat) (x : Option Txn) : (s.setTxn k t x).due = s.due := rfl
@[simp] theorem State.setTxn_safePin (s : State) (k t : Nat) (x : Option Txn) : (s.setTxn k t x).safePin = s.safePin := rfl
@[simp] theorem State.setTxn_boot (s : State) (k t : Nat) (x : Option Txn) : (s.setTxn k t x).boot = s.boot := rfl
@[simp] theorem State.setTxn_umv (s : State) (k t : Nat) (x : Option Txn) : (s.setTxn k t x).umv = s.umv := rfl
@[simp] theorem State.setTxn_tb (s : State) (k t : Nat) (x : Option Txn) : (s.setTxn k t x).tb = s.tb := rfl
@[simp] theorem State.setTxn_tns (s : State) (k t : Nat) (x : Option Txn) : (s.setTxn k t x).tns = s.tns := rfl
@[simp] theorem State.setTxn_latent (s : State) (k t : Nat) (x : Option Txn) : (s.setTxn k t x).latent = s.latent := rfl
@[simp] theorem State.setTxn_probing (s : State) (k t : Nat) (x : Option Txn) : (s.setTxn k t x).probing = s.probing := rfl
@[simp] theorem State.setTxn_word (s : State) (k t : Nat) (x : Option Txn) (z : Nat) : (s.setTxn k t x).word z = s.word z := rfl
@[simp] theorem State.setTxn_fget (s : State) (k t : Nat) (x : Option Txn) (g : Fld) (i j : Nat) : (s.setTxn k t x).fget g i j = s.fget g i j := rfl
@[simp] theorem State.setTxn_flag (s : State) (k t : Nat) (x : Option Txn) (g : Fld) (i j : Nat) : (s.setTxn k t x).flag g i j = s.flag g i j := rfl
@[simp] theorem State.setTxn_port (s : State) (k t : Nat) (x : Option Txn) (z : Nat) : (s.setTxn k t x).port z = s.port z := rfl

@[simp] theorem State.until_pending (s : State) (t : Time) : (s.until t).pending = s.pending := rfl
@[simp] theorem State.until_fresh (s : State) (t : Time) : (s.until t).fresh = s.fresh := rfl
@[simp] theorem State.until_regs (s : State) (t : Time) : (s.until t).regs = s.regs := rfl
@[simp] theorem State.until_pat (s : State) (t : Time) : (s.until t).pat = s.pat := rfl
@[simp] theorem State.until_cur (s : State) (t : Time) : (s.until t).cur = s.cur := rfl
@[simp] theorem State.until_roles (s : State) (t : Time) : (s.until t).roles = s.roles := rfl
@[simp] theorem State.until_logic (s : State) (t : Time) : (s.until t).logic = s.logic := rfl
@[simp] theorem State.until_table (s : State) (t : Time) : (s.until t).table = s.table := rfl
@[simp] theorem State.until_moved (s : State) (t : Time) : (s.until t).moved = s.moved := rfl
@[simp] theorem State.until_ports (s : State) (t : Time) : (s.until t).ports = s.ports := rfl
@[simp] theorem State.until_slices (s : State) (t : Time) : (s.until t).slices = s.slices := rfl
@[simp] theorem State.until_wins (s : State) (t : Time) : (s.until t).wins = s.wins := rfl
@[simp] theorem State.until_wno (s : State) (t : Time) : (s.until t).wno = s.wno := rfl
@[simp] theorem State.until_barriers (s : State) (t : Time) : (s.until t).barriers = s.barriers := rfl
@[simp] theorem State.until_banks (s : State) (t : Time) : (s.until t).banks = s.banks := rfl
@[simp] theorem State.until_ctx0 (s : State) (t : Time) : (s.until t).ctx0 = s.ctx0 := rfl
@[simp] theorem State.until_ctx1 (s : State) (t : Time) : (s.until t).ctx1 = s.ctx1 := rfl
@[simp] theorem State.until_mig (s : State) (t : Time) : (s.until t).mig = s.mig := rfl
@[simp] theorem State.until_lossLog (s : State) (t : Time) : (s.until t).lossLog = s.lossLog := rfl
@[simp] theorem State.until_predQ (s : State) (t : Time) : (s.until t).predQ = s.predQ := rfl
@[simp] theorem State.until_replaceNo (s : State) (t : Time) : (s.until t).replaceNo = s.replaceNo := rfl
@[simp] theorem State.until_replaceAt (s : State) (t : Time) : (s.until t).replaceAt = s.replaceAt := rfl
@[simp] theorem State.until_sources (s : State) (t : Time) : (s.until t).sources = s.sources := rfl
@[simp] theorem State.until_vectors (s : State) (t : Time) : (s.until t).vectors = s.vectors := rfl
@[simp] theorem State.until_jig (s : State) (t : Time) : (s.until t).jig = s.jig := rfl
@[simp] theorem State.until_log (s : State) (t : Time) : (s.until t).log = s.log := rfl
@[simp] theorem State.until_dropArm (s : State) (t : Time) : (s.until t).dropArm = s.dropArm := rfl
@[simp] theorem State.until_due (s : State) (t : Time) : (s.until t).due = s.due := rfl
@[simp] theorem State.until_safePin (s : State) (t : Time) : (s.until t).safePin = s.safePin := rfl
@[simp] theorem State.until_boot (s : State) (t : Time) : (s.until t).boot = s.boot := rfl
@[simp] theorem State.until_umv (s : State) (t : Time) : (s.until t).umv = s.umv := rfl
@[simp] theorem State.until_tb (s : State) (t : Time) : (s.until t).tb = s.tb := rfl
@[simp] theorem State.until_tns (s : State) (t : Time) : (s.until t).tns = s.tns := rfl
@[simp] theorem State.until_latent (s : State) (t : Time) : (s.until t).latent = s.latent := rfl
@[simp] theorem State.until_probing (s : State) (t : Time) : (s.until t).probing = s.probing := rfl
@[simp] theorem State.until_word (s : State) (t : Time) (z : Nat) : (s.until t).word z = s.word z := rfl
@[simp] theorem State.until_fget (s : State) (t : Time) (g : Fld) (i j : Nat) : (s.until t).fget g i j = s.fget g i j := rfl
@[simp] theorem State.until_flag (s : State) (t : Time) (g : Fld) (i j : Nat) : (s.until t).flag g i j = s.flag g i j := rfl
@[simp] theorem State.until_port (s : State) (t : Time) (z : Nat) : (s.until t).port z = s.port z := rfl
@[simp] theorem State.until_slice (s : State) (t : Time) (z : Nat) : (s.until t).slice z = s.slice z := rfl

/-! ## Registers under an update of another field -/

@[simp] theorem State.with_pending_word (s : State) x (z : Nat) : (State.word { s with pending := x } z) = s.word z := rfl
@[simp] theorem State.with_pending_fget (s : State) x (g : Fld) (i j : Nat) : (State.fget { s with pending := x } g i j) = s.fget g i j := rfl
@[simp] theorem State.with_pending_flag (s : State) x (g : Fld) (i j : Nat) : (State.flag { s with pending := x } g i j) = s.flag g i j := rfl
@[simp] theorem State.with_fresh_word (s : State) x (z : Nat) : (State.word { s with fresh := x } z) = s.word z := rfl
@[simp] theorem State.with_fresh_fget (s : State) x (g : Fld) (i j : Nat) : (State.fget { s with fresh := x } g i j) = s.fget g i j := rfl
@[simp] theorem State.with_fresh_flag (s : State) x (g : Fld) (i j : Nat) : (State.flag { s with fresh := x } g i j) = s.flag g i j := rfl
@[simp] theorem State.with_now_word (s : State) x (z : Nat) : (State.word { s with now := x } z) = s.word z := rfl
@[simp] theorem State.with_now_fget (s : State) x (g : Fld) (i j : Nat) : (State.fget { s with now := x } g i j) = s.fget g i j := rfl
@[simp] theorem State.with_now_flag (s : State) x (g : Fld) (i j : Nat) : (State.flag { s with now := x } g i j) = s.flag g i j := rfl
@[simp] theorem State.with_pat_word (s : State) x (z : Nat) : (State.word { s with pat := x } z) = s.word z := rfl
@[simp] theorem State.with_pat_fget (s : State) x (g : Fld) (i j : Nat) : (State.fget { s with pat := x } g i j) = s.fget g i j := rfl
@[simp] theorem State.with_pat_flag (s : State) x (g : Fld) (i j : Nat) : (State.flag { s with pat := x } g i j) = s.flag g i j := rfl
@[simp] theorem State.with_cur_word (s : State) x (z : Nat) : (State.word { s with cur := x } z) = s.word z := rfl
@[simp] theorem State.with_cur_fget (s : State) x (g : Fld) (i j : Nat) : (State.fget { s with cur := x } g i j) = s.fget g i j := rfl
@[simp] theorem State.with_cur_flag (s : State) x (g : Fld) (i j : Nat) : (State.flag { s with cur := x } g i j) = s.flag g i j := rfl
@[simp] theorem State.with_roles_word (s : State) x (z : Nat) : (State.word { s with roles := x } z) = s.word z := rfl
@[simp] theorem State.with_roles_fget (s : State) x (g : Fld) (i j : Nat) : (State.fget { s with roles := x } g i j) = s.fget g i j := rfl
@[simp] theorem State.with_roles_flag (s : State) x (g : Fld) (i j : Nat) : (State.flag { s with roles := x } g i j) = s.flag g i j := rfl
@[simp] theorem State.with_logic_word (s : State) x (z : Nat) : (State.word { s with logic := x } z) = s.word z := rfl
@[simp] theorem State.with_logic_fget (s : State) x (g : Fld) (i j : Nat) : (State.fget { s with logic := x } g i j) = s.fget g i j := rfl
@[simp] theorem State.with_logic_flag (s : State) x (g : Fld) (i j : Nat) : (State.flag { s with logic := x } g i j) = s.flag g i j := rfl
@[simp] theorem State.with_table_word (s : State) x (z : Nat) : (State.word { s with table := x } z) = s.word z := rfl
@[simp] theorem State.with_table_fget (s : State) x (g : Fld) (i j : Nat) : (State.fget { s with table := x } g i j) = s.fget g i j := rfl
@[simp] theorem State.with_table_flag (s : State) x (g : Fld) (i j : Nat) : (State.flag { s with table := x } g i j) = s.flag g i j := rfl
@[simp] theorem State.with_moved_word (s : State) x (z : Nat) : (State.word { s with moved := x } z) = s.word z := rfl
@[simp] theorem State.with_moved_fget (s : State) x (g : Fld) (i j : Nat) : (State.fget { s with moved := x } g i j) = s.fget g i j := rfl
@[simp] theorem State.with_moved_flag (s : State) x (g : Fld) (i j : Nat) : (State.flag { s with moved := x } g i j) = s.flag g i j := rfl
@[simp] theorem State.with_ports_word (s : State) x (z : Nat) : (State.word { s with ports := x } z) = s.word z := rfl
@[simp] theorem State.with_ports_fget (s : State) x (g : Fld) (i j : Nat) : (State.fget { s with ports := x } g i j) = s.fget g i j := rfl
@[simp] theorem State.with_ports_flag (s : State) x (g : Fld) (i j : Nat) : (State.flag { s with ports := x } g i j) = s.flag g i j := rfl
@[simp] theorem State.with_slices_word (s : State) x (z : Nat) : (State.word { s with slices := x } z) = s.word z := rfl
@[simp] theorem State.with_slices_fget (s : State) x (g : Fld) (i j : Nat) : (State.fget { s with slices := x } g i j) = s.fget g i j := rfl
@[simp] theorem State.with_slices_flag (s : State) x (g : Fld) (i j : Nat) : (State.flag { s with slices := x } g i j) = s.flag g i j := rfl
@[simp] theorem State.with_wins_word (s : State) x (z : Nat) : (State.word { s with wins := x } z) = s.word z := rfl
@[simp] theorem State.with_wins_fget (s : State) x (g : Fld) (i j : Nat) : (State.fget { s with wins := x } g i j) = s.fget g i j := rfl
@[simp] theorem State.with_wins_flag (s : State) x (g : Fld) (i j : Nat) : (State.flag { s with wins := x } g i j) = s.flag g i j := rfl
@[simp] theorem State.with_wno_word (s : State) x (z : Nat) : (State.word { s with wno := x } z) = s.word z := rfl
@[simp] theorem State.with_wno_fget (s : State) x (g : Fld) (i j : Nat) : (State.fget { s with wno := x } g i j) = s.fget g i j := rfl
@[simp] theorem State.with_wno_flag (s : State) x (g : Fld) (i j : Nat) : (State.flag { s with wno := x } g i j) = s.flag g i j := rfl
@[simp] theorem State.with_barriers_word (s : State) x (z : Nat) : (State.word { s with barriers := x } z) = s.word z := rfl
@[simp] theorem State.with_barriers_fget (s : State) x (g : Fld) (i j : Nat) : (State.fget { s with barriers := x } g i j) = s.fget g i j := rfl
@[simp] theorem State.with_barriers_flag (s : State) x (g : Fld) (i j : Nat) : (State.flag { s with barriers := x } g i j) = s.flag g i j := rfl
@[simp] theorem State.with_banks_word (s : State) x (z : Nat) : (State.word { s with banks := x } z) = s.word z := rfl
@[simp] theorem State.with_banks_fget (s : State) x (g : Fld) (i j : Nat) : (State.fget { s with banks := x } g i j) = s.fget g i j := rfl
@[simp] theorem State.with_banks_flag (s : State) x (g : Fld) (i j : Nat) : (State.flag { s with banks := x } g i j) = s.flag g i j := rfl
@[simp] theorem State.with_ctx0_word (s : State) x (z : Nat) : (State.word { s with ctx0 := x } z) = s.word z := rfl
@[simp] theorem State.with_ctx0_fget (s : State) x (g : Fld) (i j : Nat) : (State.fget { s with ctx0 := x } g i j) = s.fget g i j := rfl
@[simp] theorem State.with_ctx0_flag (s : State) x (g : Fld) (i j : Nat) : (State.flag { s with ctx0 := x } g i j) = s.flag g i j := rfl
@[simp] theorem State.with_ctx1_word (s : State) x (z : Nat) : (State.word { s with ctx1 := x } z) = s.word z := rfl
@[simp] theorem State.with_ctx1_fget (s : State) x (g : Fld) (i j : Nat) : (State.fget { s with ctx1 := x } g i j) = s.fget g i j := rfl
@[simp] theorem State.with_ctx1_flag (s : State) x (g : Fld) (i j : Nat) : (State.flag { s with ctx1 := x } g i j) = s.flag g i j := rfl
@[simp] theorem State.with_mig_word (s : State) x (z : Nat) : (State.word { s with mig := x } z) = s.word z := rfl
@[simp] theorem State.with_mig_fget (s : State) x (g : Fld) (i j : Nat) : (State.fget { s with mig := x } g i j) = s.fget g i j := rfl
@[simp] theorem State.with_mig_flag (s : State) x (g : Fld) (i j : Nat) : (State.flag { s with mig := x } g i j) = s.flag g i j := rfl
@[simp] theorem State.with_lossLog_word (s : State) x (z : Nat) : (State.word { s with lossLog := x } z) = s.word z := rfl
@[simp] theorem State.with_lossLog_fget (s : State) x (g : Fld) (i j : Nat) : (State.fget { s with lossLog := x } g i j) = s.fget g i j := rfl
@[simp] theorem State.with_lossLog_flag (s : State) x (g : Fld) (i j : Nat) : (State.flag { s with lossLog := x } g i j) = s.flag g i j := rfl
@[simp] theorem State.with_predQ_word (s : State) x (z : Nat) : (State.word { s with predQ := x } z) = s.word z := rfl
@[simp] theorem State.with_predQ_fget (s : State) x (g : Fld) (i j : Nat) : (State.fget { s with predQ := x } g i j) = s.fget g i j := rfl
@[simp] theorem State.with_predQ_flag (s : State) x (g : Fld) (i j : Nat) : (State.flag { s with predQ := x } g i j) = s.flag g i j := rfl
@[simp] theorem State.with_replaceNo_word (s : State) x (z : Nat) : (State.word { s with replaceNo := x } z) = s.word z := rfl
@[simp] theorem State.with_replaceNo_fget (s : State) x (g : Fld) (i j : Nat) : (State.fget { s with replaceNo := x } g i j) = s.fget g i j := rfl
@[simp] theorem State.with_replaceNo_flag (s : State) x (g : Fld) (i j : Nat) : (State.flag { s with replaceNo := x } g i j) = s.flag g i j := rfl
@[simp] theorem State.with_replaceAt_word (s : State) x (z : Nat) : (State.word { s with replaceAt := x } z) = s.word z := rfl
@[simp] theorem State.with_replaceAt_fget (s : State) x (g : Fld) (i j : Nat) : (State.fget { s with replaceAt := x } g i j) = s.fget g i j := rfl
@[simp] theorem State.with_replaceAt_flag (s : State) x (g : Fld) (i j : Nat) : (State.flag { s with replaceAt := x } g i j) = s.flag g i j := rfl
@[simp] theorem State.with_sources_word (s : State) x (z : Nat) : (State.word { s with sources := x } z) = s.word z := rfl
@[simp] theorem State.with_sources_fget (s : State) x (g : Fld) (i j : Nat) : (State.fget { s with sources := x } g i j) = s.fget g i j := rfl
@[simp] theorem State.with_sources_flag (s : State) x (g : Fld) (i j : Nat) : (State.flag { s with sources := x } g i j) = s.flag g i j := rfl
@[simp] theorem State.with_vectors_word (s : State) x (z : Nat) : (State.word { s with vectors := x } z) = s.word z := rfl
@[simp] theorem State.with_vectors_fget (s : State) x (g : Fld) (i j : Nat) : (State.fget { s with vectors := x } g i j) = s.fget g i j := rfl
@[simp] theorem State.with_vectors_flag (s : State) x (g : Fld) (i j : Nat) : (State.flag { s with vectors := x } g i j) = s.flag g i j := rfl
@[simp] theorem State.with_jig_word (s : State) x (z : Nat) : (State.word { s with jig := x } z) = s.word z := rfl
@[simp] theorem State.with_jig_fget (s : State) x (g : Fld) (i j : Nat) : (State.fget { s with jig := x } g i j) = s.fget g i j := rfl
@[simp] theorem State.with_jig_flag (s : State) x (g : Fld) (i j : Nat) : (State.flag { s with jig := x } g i j) = s.flag g i j := rfl
@[simp] theorem State.with_log_word (s : State) x (z : Nat) : (State.word { s with log := x } z) = s.word z := rfl
@[simp] theorem State.with_log_fget (s : State) x (g : Fld) (i j : Nat) : (State.fget { s with log := x } g i j) = s.fget g i j := rfl
@[simp] theorem State.with_log_flag (s : State) x (g : Fld) (i j : Nat) : (State.flag { s with log := x } g i j) = s.flag g i j := rfl
@[simp] theorem State.with_dropArm_word (s : State) x (z : Nat) : (State.word { s with dropArm := x } z) = s.word z := rfl
@[simp] theorem State.with_dropArm_fget (s : State) x (g : Fld) (i j : Nat) : (State.fget { s with dropArm := x } g i j) = s.fget g i j := rfl
@[simp] theorem State.with_dropArm_flag (s : State) x (g : Fld) (i j : Nat) : (State.flag { s with dropArm := x } g i j) = s.flag g i j := rfl
@[simp] theorem State.with_due_word (s : State) x (z : Nat) : (State.word { s with due := x } z) = s.word z := rfl
@[simp] theorem State.with_due_fget (s : State) x (g : Fld) (i j : Nat) : (State.fget { s with due := x } g i j) = s.fget g i j := rfl
@[simp] theorem State.with_due_flag (s : State) x (g : Fld) (i j : Nat) : (State.flag { s with due := x } g i j) = s.flag g i j := rfl
@[simp] theorem State.with_safePin_word (s : State) x (z : Nat) : (State.word { s with safePin := x } z) = s.word z := rfl
@[simp] theorem State.with_safePin_fget (s : State) x (g : Fld) (i j : Nat) : (State.fget { s with safePin := x } g i j) = s.fget g i j := rfl
@[simp] theorem State.with_safePin_flag (s : State) x (g : Fld) (i j : Nat) : (State.flag { s with safePin := x } g i j) = s.flag g i j := rfl
@[simp] theorem State.with_boot_word (s : State) x (z : Nat) : (State.word { s with boot := x } z) = s.word z := rfl
@[simp] theorem State.with_boot_fget (s : State) x (g : Fld) (i j : Nat) : (State.fget { s with boot := x } g i j) = s.fget g i j := rfl
@[simp] theorem State.with_boot_flag (s : State) x (g : Fld) (i j : Nat) : (State.flag { s with boot := x } g i j) = s.flag g i j := rfl
@[simp] theorem State.with_umv_word (s : State) x (z : Nat) : (State.word { s with umv := x } z) = s.word z := rfl
@[simp] theorem State.with_umv_fget (s : State) x (g : Fld) (i j : Nat) : (State.fget { s with umv := x } g i j) = s.fget g i j := rfl
@[simp] theorem State.with_umv_flag (s : State) x (g : Fld) (i j : Nat) : (State.flag { s with umv := x } g i j) = s.flag g i j := rfl
@[simp] theorem State.with_tb_word (s : State) x (z : Nat) : (State.word { s with tb := x } z) = s.word z := rfl
@[simp] theorem State.with_tb_fget (s : State) x (g : Fld) (i j : Nat) : (State.fget { s with tb := x } g i j) = s.fget g i j := rfl
@[simp] theorem State.with_tb_flag (s : State) x (g : Fld) (i j : Nat) : (State.flag { s with tb := x } g i j) = s.flag g i j := rfl
@[simp] theorem State.with_tns_word (s : State) x (z : Nat) : (State.word { s with tns := x } z) = s.word z := rfl
@[simp] theorem State.with_tns_fget (s : State) x (g : Fld) (i j : Nat) : (State.fget { s with tns := x } g i j) = s.fget g i j := rfl
@[simp] theorem State.with_tns_flag (s : State) x (g : Fld) (i j : Nat) : (State.flag { s with tns := x } g i j) = s.flag g i j := rfl
@[simp] theorem State.with_latent_word (s : State) x (z : Nat) : (State.word { s with latent := x } z) = s.word z := rfl
@[simp] theorem State.with_latent_fget (s : State) x (g : Fld) (i j : Nat) : (State.fget { s with latent := x } g i j) = s.fget g i j := rfl
@[simp] theorem State.with_latent_flag (s : State) x (g : Fld) (i j : Nat) : (State.flag { s with latent := x } g i j) = s.flag g i j := rfl
@[simp] theorem State.with_probing_word (s : State) x (z : Nat) : (State.word { s with probing := x } z) = s.word z := rfl
@[simp] theorem State.with_probing_fget (s : State) x (g : Fld) (i j : Nat) : (State.fget { s with probing := x } g i j) = s.fget g i j := rfl
@[simp] theorem State.with_probing_flag (s : State) x (g : Fld) (i j : Nat) : (State.flag { s with probing := x } g i j) = s.flag g i j := rfl

end Sys2Proof.Machine
end

