-- ==== Sys2Proof/Laws/Commands.lean ====
section
/-!
SUPPORT. What the shapes that the commands share come to, once each: a command under way, a register write, a message that
passes its checks, and the reactions to a state that has none.
-/
namespace Sys2Proof.Machine

theorem State.run_eq {s : State} (f : State → State) (h : s.boot.rstN = false) : s.run f = s.after (f s) := by
  simp [State.run, State.after, h]

theorem State.run_asserted {s : State} (f : State → State) (h : s.boot.rstN = true) : s.run f = s := by
  simp [State.run, h]

theorem State.act_eq {s : State} (f : State → State) (h : s.boot.rstN = false) : s.act f = f s := by
  simp [State.act, h]

theorem State.rstN_of_served {s : State} {a : Nat} (h : s.served a = true) : s.boot.rstN = false := by
  simp only [State.served, Bool.and_eq_true, Bool.not_eq_true'] at h
  exact h.1

theorem State.takes.rstN {s : State} {who : Party} {a : Nat} (h : s.takes who a) : s.boot.rstN = false :=
  State.rstN_of_served h.2.2.2

/-- An access that the decoder takes has its effect. -/
theorem State.access_eq {s : State} {who : Party} {a : Nat} (f : State → State) (h : s.takes who a) : s.access who a f = f s := by
  obtain ⟨h1, h2, h3, h4⟩ := h
  simp [State.access, h1, h2, h3, h4]

theorem State.regWrite_eq {s : State} {who : Party} {a : Nat} (v : Word) (h : s.takes who a) :
    s.regWrite who a v = s.writeAt who a v :=
  State.access_eq _ h

/-- A register command that the decoder takes is the write of its word. -/
theorem State.command_eq {s : State} {who : Party} {a : Nat} (v : Word) (h : s.takes who a) :
    s.command who a v = s.after (s.writeAt who a v) := by
  rw [State.command, State.run_eq _ h.rstN, State.regWrite_eq v h]

/-- A message that passes the checks has its effect on the state in which it has been taken. -/
theorem State.message_eq {s : State} {p : Nat} {m : Msg} {op : BitVec 8} (f : Msg → State → State)
    (h : s.admits p { m with op := op }) : s.message p m op f = s.after (f { m with op := op } (s.heard p { m with op := op })) := by
  obtain ⟨h1, h2, h3, h4⟩ := h
  rw [State.message, State.run_eq _ h1]
  simp only [h2, if_true, State.receive, h3]
  have : ¬(opClass op = 0 ∧ (!(s.present p { m with op := op }).ingressOk p { m with op := op }) = true) := by
    rintro ⟨a, b⟩
    simp [h4 a] at b
  simp only [this, if_false, State.heard]

/-! ## States from which nothing follows -/

theorem State.settleN_nil (n : Nat) {s : State} (h : s.due = []) : State.settleN n s = s := by
  cases n with
  | zero => rfl
  | succ n => unfold State.settleN; rw [h]

theorem State.react1_nil {s : State} (h : s.due = []) : s.react1 = s := State.settleN_nil _ h

theorem State.settle_idle {s : State} (h : s.due = []) (g : s.serving = false) : s.settle = s := by
  unfold State.settle
  simp only [State.react1_nil h, g, Bool.not_false, if_true]

theorem State.logAll_silent {s t : State} (h : t.umevoRuns = false) : s.logAll t = t := by
  simp [State.logAll, h]

/-- Before the Pattern is in force a command without reactions ends with its own effect. -/
theorem State.after_idle {s u : State} (h : u.due = []) (g : u.serving = false) (r : u.umevoRuns = false) : s.after u = u := by
  rw [State.after, State.settle_idle h g, State.logAll_silent r]

end Sys2Proof.Machine
end

