-- ==== Sys2Proof/Laws/Keeps.lean ====
section
/-!
SUPPORT. What every operation of the machine keeps of a state, as one relation, and the laws of the primitive updates for
it. The files KeepsA, KeepsB, ... say it of every operation, one law each; nothing else of them need be unfolded.
-/
namespace Sys2Proof.Machine
set_option linter.all false

/-- From `s` to `t` the queue stays, and each invariant of Safety.lean that held goes on holding. -/
structure Keeps (s t : State) : Prop where
  pending : t.pending = s.pending
  ids : s.idsHold → t.idsHold
  arrays : s.ArraysWf → t.ArraysWf
  pin : s.pinRule → t.pinRule
  lc : s.lcLegal → t.lcLegal
  log : s.log.length ≤ 256 → t.log.length ≤ 256
  loss : s.lossLog.length ≤ 1024 → t.lossLog.length ≤ 1024
  queues : s.queuesFit → t.queuesFit

theorem Keeps.refl (s : State) : Keeps s s := ⟨rfl, id, id, id, id, id, id, id⟩

theorem Keeps.trans {s t u : State} (h : Keeps s t) (g : Keeps t u) : Keeps s u :=
  ⟨g.pending.trans h.pending, g.ids ∘ h.ids, g.arrays ∘ h.arrays, g.pin ∘ h.pin, g.lc ∘ h.lc, g.log ∘ h.log, g.loss ∘ h.loss,
    g.queues ∘ h.queues⟩

/-- An update of fields that no invariant names. -/
theorem Keeps.same {s0 s t : State} (h : Keeps s0 s) (e1 : t.pending = s.pending) (e2 : t.regs = s.regs)
    (e3 : t.safePin = s.safePin) (e4 : t.log = s.log) (e5 : t.lossLog = s.lossLog) (e6 : t.sources = s.sources)
    (a : t.cur = s.cur ∧ t.roles = s.roles ∧ t.logic = s.logic ∧ t.moved = s.moved ∧ t.ports = s.ports ∧ t.slices = s.slices ∧
      t.wins = s.wins ∧ t.banks = s.banks ∧ t.vectors = s.vectors ∧ t.jig = s.jig) : Keeps s0 t := by
  have hw : ∀ b, t.word b = s.word b := fun b => by unfold State.word; rw [e2]
  have hf : ∀ f n m, t.fget f n m = s.fget f n m := fun f n m => by unfold State.fget; rw [hw]
  refine h.trans ⟨e1, ?_, ?_, ?_, ?_, ?_, ?_, ?_⟩
  · simp only [State.idsHold, hw]; exact id
  · rintro ⟨a1, a2, a3, a4, a5, a6, a7, a8, a9, a10, a11, a12⟩
    obtain ⟨b2, b3, b4, b5, b6, b7, b8, b9, b11, b12⟩ := a
    exact ⟨e2 ▸ a1, b2 ▸ a2, b3 ▸ a3, b4 ▸ a4, b5 ▸ a5, b6 ▸ a6, b7 ▸ a7, b8 ▸ a8, b9 ▸ a9, e6 ▸ a10, b11 ▸ a11, b12 ▸ a12⟩
  · simp only [State.pinRule, State.ready, State.isSafe, State.flag, hf, e3]; exact id
  · simp only [State.lcLegal, State.lifecycle, hf, e2]; exact id
  · rw [e4]; exact id
  · rw [e5]; exact id
  · simp only [State.queuesFit, e6]; exact id

/-- An update of arrays that keeps their canonical form. -/
theorem Keeps.arr {s0 s t : State} (h : Keeps s0 s) (ha : s.ArraysWf → t.ArraysWf) (e1 : t.pending = s.pending)
    (e2 : t.regs = s.regs) (e3 : t.safePin = s.safePin) (e4 : t.log = s.log) (e5 : t.lossLog = s.lossLog)
    (e6 : s.queuesFit → t.queuesFit) : Keeps s0 t := by
  have hw : ∀ b, t.word b = s.word b := fun b => by unfold State.word; rw [e2]
  have hf : ∀ f n m, t.fget f n m = s.fget f n m := fun f n m => by unfold State.fget; rw [hw]
  refine h.trans ⟨e1, ?_, ha, ?_, ?_, ?_, ?_, e6⟩
  · simp only [State.idsHold, hw]; exact id
  · simp only [State.pinRule, State.ready, State.isSafe, State.flag, hf, e3]; exact id
  · simp only [State.lcLegal, State.lifecycle, hf, e2]; exact id
  · rw [e4]; exact id
  · rw [e5]; exact id

/-- The two ways in which the outcome of a choice keeps what holds. -/
theorem Keeps.ite {s0 a b : State} {c : Prop} [Decidable c] (ha : Keeps s0 a) (hb : Keeps s0 b) :
    Keeps s0 (if c then a else b) := by
  split
  · exact ha
  · exact hb

/-- A state named on the way keeps what holds, and what follows from it then does. -/
theorem Keeps.cut {s0 t : State} (x : State) (h : Keeps s0 x) (g : Keeps s0 x → Keeps s0 t) : Keeps s0 t := g h

/-! ## Registers -/

/-- A register that no invariant names. -/
def plainAddr (a : Nat) : Bool := !([0x000, 0x004, 0x008, 0x200, 0x3004, 0x1000].contains a)

theorem State.ArraysWf.setWord {s : State} (h : s.ArraysWf) (a : Nat) (w : Word) : (s.setWord a w).ArraysWf :=
  ⟨h.regs.set a w, h.cur, h.roles, h.logic, h.moved, h.ports, h.slices, h.wins, h.banks, h.sources, h.vectors, h.jig⟩

/-- The write of a register: what the invariants read of it must not change to its harm. -/
theorem setWord_keepsOf {s0 s : State} {a : Nat} {w : Word} (h : Keeps s0 s) (hid : a ≠ 0 ∧ a ≠ 4)
    (hc : getBits ((s.setWord a w).word 8) 16 16 = getBits (s.word 8) 16 16 ∧
      getBits ((s.setWord a w).word 8) 0 8 = getBits (s.word 8) 0 8)
    (hp : (s.setWord a w).ready = s.ready ∧ (s.setWord a w).isSafe = s.isSafe)
    (hl : (s.setWord a w).lifecycle = s.lifecycle) : Keeps s0 (s.setWord a w) := by
  refine h.trans ⟨rfl, ?_, fun x => x.setWord a w, ?_, ?_, id, id, id⟩
  · simp only [State.idsHold, hc.1, hc.2, State.word_setWord_other _ _ _ _ hid.1, State.word_setWord_other _ _ _ _ hid.2]
    exact id
  · rw [State.pinRule, State.pinRule, hp.1, hp.2]; exact id
  · exact fun x => ⟨x.1.set a w, hl ▸ x.2⟩

theorem setWord_keeps {s0 s : State} (h : Keeps s0 s) {a : Nat} {w : Word} (ha : plainAddr a = true) :
    Keeps s0 (s.setWord a w) := by
  simp only [plainAddr, List.contains_eq_mem, List.mem_cons, List.not_mem_nil, or_false,
    Bool.not_eq_true', decide_eq_false_iff_not, not_or] at ha
  obtain ⟨h0, h4, h8, h2, h3, h1⟩ := ha
  have e2 : (s.setWord a w).fget F.GLB_BOOT_STATUS_READY = s.fget F.GLB_BOOT_STATUS_READY := by
    unfold State.fget; rw [State.word_setWord_other]; exact h2
  have e3 : (s.setWord a w).fget F.SAF_STATUS_SAFE = s.fget F.SAF_STATUS_SAFE := by
    unfold State.fget; rw [State.word_setWord_other]; exact h3
  have e1 : (s.setWord a w).fget F.PAT_STATUS_LC = s.fget F.PAT_STATUS_LC := by
    unfold State.fget; rw [State.word_setWord_other]; exact h1
  refine setWord_keepsOf h ⟨h0, h4⟩ ⟨?_, ?_⟩ ⟨?_, ?_⟩ e1
  · rw [State.word_setWord_other _ _ _ _ h8]
  · rw [State.word_setWord_other _ _ _ _ h8]
  · simp only [State.ready, State.flag, e2]
  · simp only [State.isSafe, State.flag, e3]

/-- The instances of a field never stand at the address of register `a`, or the bits are others. -/
def Fld.apart (f : Fld) (a lsb wid : Nat) : Bool :=
  decide (f.lsb + f.wid ≤ lsb) || decide (lsb + wid ≤ f.lsb) || decide (a < f.base + f.off) ||
    (f.stride == 0 && f.mstr == 0 && f.base + f.off != a)

/-- A field whose instances touch nothing that an invariant reads but, it may be, READY or SAFE. -/
def Fld.calm (f : Fld) : Bool :=
  decide (4 < f.base + f.off) && f.apart 0x1000 8 2 && f.apart 8 16 16 && f.apart 8 0 8

/-- A field whose instances touch nothing that an invariant reads. -/
def Fld.plain (f : Fld) : Bool := f.calm && f.apart 0x200 31 1 && f.apart 0x3004 31 1

theorem Fld.apart_other {f : Fld} {a lsb wid : Nat} (h : f.apart a lsb wid = true) (n m : Nat) :
    f.addr n m ≠ a ∨ lsb + wid ≤ f.lsb ∨ f.lsb + f.wid ≤ lsb := by
  simp only [Fld.apart, Bool.or_eq_true, decide_eq_true_eq, Bool.and_eq_true, beq_iff_eq, bne_iff_ne] at h
  rcases h with ((h | h) | h) | h
  · exact .inr (.inr h)
  · exact .inr (.inl h)
  · left; unfold Fld.addr; omega
  · left; unfold Fld.addr; simp only [h.1.1, h.1.2, Nat.zero_mul, Nat.add_zero]; exact h.2

theorem State.bits_fset_other (s : State) (f : Fld) (v n m a l w : Nat)
    (h : f.addr n m ≠ a ∨ l + w ≤ f.lsb ∨ f.lsb + f.wid ≤ l) (hw : l + w ≤ 32) :
    getBits ((s.fset f v n m).word a) l w = getBits (s.word a) l w := by
  unfold State.fset
  by_cases ha : f.addr n m = a
  · rw [ha, State.word_setWord_same]
    exact getBits_setBits_other _ _ _ _ _ _ (by rcases h with h | h; exact absurd ha h; exact h) hw
  · rw [State.word_setWord_other _ _ _ _ ha]

theorem fset_keepsOf {s0 s : State} (h : Keeps s0 s) {f : Fld} {v n m : Nat} (hf : f.calm = true)
    (hp : s.pinRule → (s.fset f v n m).pinRule) : Keeps s0 (s.fset f v n m) := by
  simp only [Fld.calm, Bool.and_eq_true, decide_eq_true_eq] at hf
  obtain ⟨⟨⟨h4, h1⟩, ha⟩, hb⟩ := hf
  have h0 : 4 < f.addr n m := by unfold Fld.addr; omega
  have e1 : (s.fset f v n m).fget F.PAT_STATUS_LC = s.fget F.PAT_STATUS_LC :=
    State.fget_fset_other s f _ v n m 0 0 (Fld.apart_other h1 n m) (by decide)
  have ea := State.bits_fset_other s f v n m 8 16 16 (Fld.apart_other ha n m) (by decide)
  have eb := State.bits_fset_other s f v n m 8 0 8 (Fld.apart_other hb n m) (by decide)
  refine h.trans ⟨rfl, fun x => ⟨?_, ?_, ea.trans x.2.2.1, eb.trans x.2.2.2⟩, fun x => x.setWord _ _, hp,
    fun x => ⟨x.1.set _ _, Nat.le_trans (Nat.le_of_eq e1) x.2⟩, id, id, id⟩
  · exact (State.word_setWord_other _ _ _ _ (by omega)).trans x.1
  · exact (State.word_setWord_other _ _ _ _ (by omega)).trans x.2.1

/-- While SAFE_N is asserted, READY and SAFE may change. -/
theorem fset_keeps_pinned {s0 s : State} (h : Keeps s0 s) {f : Fld} {v n m : Nat} (hs : s.safePin = true)
    (hf : f.calm = true) : Keeps s0 (s.fset f v n m) :=
  fset_keepsOf h hf (fun _ hp => by
    have hp' : s.safePin = false := hp
    rw [hs] at hp'; cases hp')

theorem fset_keeps {s0 s : State} (h : Keeps s0 s) {f : Fld} {v n m : Nat} (hf : f.plain = true) :
    Keeps s0 (s.fset f v n m) := by
  simp only [Fld.plain, Bool.and_eq_true] at hf
  obtain ⟨⟨hc, h2⟩, h3⟩ := hf
  have e2 : (s.fset f v n m).fget F.GLB_BOOT_STATUS_READY = s.fget F.GLB_BOOT_STATUS_READY :=
    State.fget_fset_other s f _ v n m 0 0 (Fld.apart_other h2 n m) (by decide)
  have e3 : (s.fset f v n m).fget F.SAF_STATUS_SAFE = s.fget F.SAF_STATUS_SAFE :=
    State.fget_fset_other s f _ v n m 0 0 (Fld.apart_other h3 n m) (by decide)
  refine fset_keepsOf h hc (fun x hp => ?_)
  have := x hp
  simp only [State.ready, State.isSafe, State.flag, e2, e3] at this ⊢
  exact this

/-- SAFE_N is asserted. -/
theorem pinSet_keeps {s0 s : State} (h : Keeps s0 s) : Keeps s0 { s with safePin := true } :=
  h.trans ⟨rfl, id, fun x => ⟨x.regs, x.cur, x.roles, x.logic, x.moved, x.ports, x.slices, x.wins, x.banks, x.sources, x.vectors, x.jig⟩,
    fun _ hp => Bool.noConfusion hp, id, id, id, id⟩

theorem setFlag_keeps {s0 s : State} (h : Keeps s0 s) {f : Fld} {b : Bool} {n m : Nat} (hf : f.plain = true) :
    Keeps s0 (s.setFlag f b n m) := fset_keeps h hf

theorem bumpBy_keeps {s0 s : State} (h : Keeps s0 s) {f : Fld} {k n m : Nat} (hf : f.plain = true) :
    Keeps s0 (s.bumpBy f k n m) := fset_keeps h hf

theorem bump_keeps {s0 s : State} (h : Keeps s0 s) {f : Fld} {n m : Nat} (hf : f.plain = true) :
    Keeps s0 (s.bump f n m) := fset_keeps h hf

theorem wrapBy_keeps {s0 s : State} (h : Keeps s0 s) {f : Fld} {k n m : Nat} (hf : f.plain = true) :
    Keeps s0 (s.wrapBy f k n m) := fset_keeps h hf

theorem wrapInc_keeps {s0 s : State} (h : Keeps s0 s) {f : Fld} {n m : Nat} (hf : f.plain = true) :
    Keeps s0 (s.wrapInc f n m) := fset_keeps h hf

/-- The lifecycle field takes a legal value. -/
theorem lcSet_keeps {s0 s : State} (h : Keeps s0 s) {v : Nat} (hv : v ≤ 2) : Keeps s0 (s.fset F.PAT_STATUS_LC v) := by
  have e2 : (s.fset F.PAT_STATUS_LC v).fget F.GLB_BOOT_STATUS_READY = s.fget F.GLB_BOOT_STATUS_READY :=
    State.fget_fset_other s _ _ v 0 0 0 0 (by decide) (by decide)
  have e3 : (s.fset F.PAT_STATUS_LC v).fget F.SAF_STATUS_SAFE = s.fget F.SAF_STATUS_SAFE :=
    State.fget_fset_other s _ _ v 0 0 0 0 (by decide) (by decide)
  have e1 : (s.fset F.PAT_STATUS_LC v).fget F.PAT_STATUS_LC = v % 2 ^ 2 := State.fget_fset_same s F.PAT_STATUS_LC v 0 0 (by decide)
  have eo : ∀ b, b ≠ 0x1000 → (s.fset F.PAT_STATUS_LC v).word b = s.word b := fun b hb =>
    State.word_setWord_other _ _ _ _ (fun e => hb e.symm)
  refine h.trans ⟨rfl, fun x => ?_, fun x => x.setWord _ _, fun x hp => ?_, fun x => ⟨x.1.set _ _, ?_⟩, id, id, id⟩
  · unfold State.idsHold
    rw [eo 0 (by decide), eo 4 (by decide), eo 8 (by decide)]; exact x
  · have := x hp
    simp only [State.ready, State.isSafe, State.flag, e2, e3] at this ⊢
    exact this
  · simp only [State.lifecycle, e1]
    exact Nat.le_trans (Nat.mod_le _ _) hv

/-! ## Ports, slices, time and the free values -/

theorem setPort_keeps {s0 s : State} (h : Keeps s0 s) {p : Nat} {q : Port} : Keeps s0 (s.setPort p q) :=
  h.arr (fun x => ⟨x.regs, x.cur, x.roles, x.logic, x.moved, x.ports.set (d := fun _ => Port.zero) p q, x.slices, x.wins, x.banks, x.sources, x.vectors, x.jig⟩)
    rfl rfl rfl rfl rfl id

theorem modPort_keeps {s0 s : State} (h : Keeps s0 s) {p : Nat} {f : Port → Port} : Keeps s0 (s.modPort p f) := setPort_keeps h

theorem setSlice_keeps {s0 s : State} (h : Keeps s0 s) {k : Nat} {c : Slice} : Keeps s0 (s.setSlice k c) :=
  h.arr (fun x => ⟨x.regs, x.cur, x.roles, x.logic, x.moved, x.ports, x.slices.set (d := fun _ => Slice.zero) k c, x.wins, x.banks, x.sources, x.vectors, x.jig⟩)
    rfl rfl rfl rfl rfl id

theorem modSlice_keeps {s0 s : State} (h : Keeps s0 s) {k : Nat} {f : Slice → Slice} : Keeps s0 (s.modSlice k f) :=
  setSlice_keeps h

theorem setTxn_keeps {s0 s : State} (h : Keeps s0 s) {k t : Nat} {x : Option Txn} : Keeps s0 (s.setTxn k t x) := setSlice_keeps h

theorem until_keeps {s0 s : State} (h : Keeps s0 s) {t : Time} : Keeps s0 (s.until t) :=
  h.same rfl rfl rfl rfl rfl rfl ⟨rfl, rfl, rfl, rfl, rfl, rfl, rfl, rfl, rfl, rfl⟩

theorem draw_keeps {s0 s : State} (h : Keeps s0 s) : Keeps s0 s.draw.2 :=
  h.same rfl rfl rfl rfl rfl rfl ⟨rfl, rfl, rfl, rfl, rfl, rfl, rfl, rfl, rfl, rfl⟩

theorem tick_keeps {s0 s : State} (h : Keeps s0 s) : Keeps s0 s.tick := by
  unfold State.tick
  split
  · exact h
  · exact h.same rfl rfl rfl rfl rfl rfl ⟨rfl, rfl, rfl, rfl, rfl, rfl, rfl, rfl, rfl, rfl⟩

/-! ## The fields that no invariant names -/

theorem freshSet_keeps {s0 s : State} (h : Keeps s0 s) {freshv : Nat} :
    Keeps s0 { s with fresh := freshv } :=
  h.same rfl rfl rfl rfl rfl rfl ⟨rfl, rfl, rfl, rfl, rfl, rfl, rfl, rfl, rfl, rfl⟩

theorem nowSet_keeps {s0 s : State} (h : Keeps s0 s) {nowv : Time} :
    Keeps s0 { s with now := nowv } :=
  h.same rfl rfl rfl rfl rfl rfl ⟨rfl, rfl, rfl, rfl, rfl, rfl, rfl, rfl, rfl, rfl⟩

theorem patSet_keeps {s0 s : State} (h : Keeps s0 s) {patv : Pattern} :
    Keeps s0 { s with pat := patv } :=
  h.same rfl rfl rfl rfl rfl rfl ⟨rfl, rfl, rfl, rfl, rfl, rfl, rfl, rfl, rfl, rfl⟩

theorem wnoSet_keeps {s0 s : State} (h : Keeps s0 s) {wnov : Nat} :
    Keeps s0 { s with wno := wnov } :=
  h.same rfl rfl rfl rfl rfl rfl ⟨rfl, rfl, rfl, rfl, rfl, rfl, rfl, rfl, rfl, rfl⟩

theorem barriersSet_keeps {s0 s : State} (h : Keeps s0 s) {barriersv : List (Node × Tenant × Nat)} :
    Keeps s0 { s with barriers := barriersv } :=
  h.same rfl rfl rfl rfl rfl rfl ⟨rfl, rfl, rfl, rfl, rfl, rfl, rfl, rfl, rfl, rfl⟩

theorem ctx0Set_keeps {s0 s : State} (h : Keeps s0 s) {ctx0v : Option RangeJob} :
    Keeps s0 { s with ctx0 := ctx0v } :=
  h.same rfl rfl rfl rfl rfl rfl ⟨rfl, rfl, rfl, rfl, rfl, rfl, rfl, rfl, rfl, rfl⟩

theorem ctx1Set_keeps {s0 s : State} (h : Keeps s0 s) {ctx1v : Option RangeJob} :
    Keeps s0 { s with ctx1 := ctx1v } :=
  h.same rfl rfl rfl rfl rfl rfl ⟨rfl, rfl, rfl, rfl, rfl, rfl, rfl, rfl, rfl, rfl⟩

theorem migSet_keeps {s0 s : State} (h : Keeps s0 s) {migv : Option Migration} :
    Keeps s0 { s with mig := migv } :=
  h.same rfl rfl rfl rfl rfl rfl ⟨rfl, rfl, rfl, rfl, rfl, rfl, rfl, rfl, rfl, rfl⟩

theorem predQSet_keeps {s0 s : State} (h : Keeps s0 s) {predQv : List Nat} :
    Keeps s0 { s with predQ := predQv } :=
  h.same rfl rfl rfl rfl rfl rfl ⟨rfl, rfl, rfl, rfl, rfl, rfl, rfl, rfl, rfl, rfl⟩

theorem dropArmSet_keeps {s0 s : State} (h : Keeps s0 s) {dropArmv : Bool} :
    Keeps s0 { s with dropArm := dropArmv } :=
  h.same rfl rfl rfl rfl rfl rfl ⟨rfl, rfl, rfl, rfl, rfl, rfl, rfl, rfl, rfl, rfl⟩

theorem dueSet_keeps {s0 s : State} (h : Keeps s0 s) {duev : List Reaction} :
    Keeps s0 { s with due := duev } :=
  h.same rfl rfl rfl rfl rfl rfl ⟨rfl, rfl, rfl, rfl, rfl, rfl, rfl, rfl, rfl, rfl⟩

theorem bootSet_keeps {s0 s : State} (h : Keeps s0 s) {bootv : Boot} :
    Keeps s0 { s with boot := bootv } :=
  h.same rfl rfl rfl rfl rfl rfl ⟨rfl, rfl, rfl, rfl, rfl, rfl, rfl, rfl, rfl, rfl⟩

theorem umvSet_keeps {s0 s : State} (h : Keeps s0 s) {umvv : Umv} :
    Keeps s0 { s with umv := umvv } :=
  h.same rfl rfl rfl rfl rfl rfl ⟨rfl, rfl, rfl, rfl, rfl, rfl, rfl, rfl, rfl, rfl⟩

theorem tbSet_keeps {s0 s : State} (h : Keeps s0 s) {tbv : Timebase} :
    Keeps s0 { s with tb := tbv } :=
  h.same rfl rfl rfl rfl rfl rfl ⟨rfl, rfl, rfl, rfl, rfl, rfl, rfl, rfl, rfl, rfl⟩

theorem tnsSet_keeps {s0 s : State} (h : Keeps s0 s) {tnsv : Tenants} :
    Keeps s0 { s with tns := tnsv } :=
  h.same rfl rfl rfl rfl rfl rfl ⟨rfl, rfl, rfl, rfl, rfl, rfl, rfl, rfl, rfl, rfl⟩

theorem latentSet_keeps {s0 s : State} (h : Keeps s0 s) {latentv : Latent} :
    Keeps s0 { s with latent := latentv } :=
  h.same rfl rfl rfl rfl rfl rfl ⟨rfl, rfl, rfl, rfl, rfl, rfl, rfl, rfl, rfl, rfl⟩

theorem probingSet_keeps {s0 s : State} (h : Keeps s0 s) {probingv : Bool} :
    Keeps s0 { s with probing := probingv } :=
  h.same rfl rfl rfl rfl rfl rfl ⟨rfl, rfl, rfl, rfl, rfl, rfl, rfl, rfl, rfl, rfl⟩

theorem nowtbSet_keeps {s0 s : State} (h : Keeps s0 s) {nowv : Time} {tbv : Timebase} :
    Keeps s0 { s with now := nowv, tb := tbv } :=
  h.same rfl rfl rfl rfl rfl rfl ⟨rfl, rfl, rfl, rfl, rfl, rfl, rfl, rfl, rfl, rfl⟩

theorem patbootSet_keeps {s0 s : State} (h : Keeps s0 s) {patv : Pattern} {bootv : Boot} :
    Keeps s0 { s with pat := patv, boot := bootv } :=
  h.same rfl rfl rfl rfl rfl rfl ⟨rfl, rfl, rfl, rfl, rfl, rfl, rfl, rfl, rfl, rfl⟩

theorem replaceNoreplaceAtSet_keeps {s0 s : State} (h : Keeps s0 s) {replaceNov : BitVec 16} {replaceAtv : Time} :
    Keeps s0 { s with replaceNo := replaceNov, replaceAt := replaceAtv } :=
  h.same rfl rfl rfl rfl rfl rfl ⟨rfl, rfl, rfl, rfl, rfl, rfl, rfl, rfl, rfl, rfl⟩

/-! ## The other arrays -/

theorem curSet_keeps {s0 s : State} (h : Keeps s0 s) {k : Nat} {v : Bool × Bool} :
    Keeps s0 { s with cur := spSet (false, false) s.cur k v } :=
  h.arr (fun x => ⟨x.regs, x.cur.set (d := fun _ => (false, false)) k v, x.roles, x.logic, x.moved, x.ports, x.slices, x.wins, x.banks, x.sources, x.vectors, x.jig⟩)
    rfl rfl rfl rfl rfl id

theorem rolesSet_keeps {s0 s : State} (h : Keeps s0 s) {k : Nat} {v : SliceRole} :
    Keeps s0 { s with roles := spSet SliceRole.active s.roles k v } :=
  h.arr (fun x => ⟨x.regs, x.cur, x.roles.set (d := fun _ => SliceRole.active) k v, x.logic, x.moved, x.ports, x.slices, x.wins, x.banks, x.sources, x.vectors, x.jig⟩)
    rfl rfl rfl rfl rfl id

theorem logicSet_keeps {s0 s : State} (h : Keeps s0 s) {k : Nat} {v : LogSlice} :
    Keeps s0 { s with logic := spSet LogSlice.zero s.logic k v } :=
  h.arr (fun x => ⟨x.regs, x.cur, x.roles, x.logic.set (d := fun _ => LogSlice.zero) k v, x.moved, x.ports, x.slices, x.wins, x.banks, x.sources, x.vectors, x.jig⟩)
    rfl rfl rfl rfl rfl id

theorem movedSet_keeps {s0 s : State} (h : Keeps s0 s) {k : Nat} {v : Option Nat} :
    Keeps s0 { s with moved := spSet none s.moved k v } :=
  h.arr (fun x => ⟨x.regs, x.cur, x.roles, x.logic, x.moved.set (d := fun _ => none) k v, x.ports, x.slices, x.wins, x.banks, x.sources, x.vectors, x.jig⟩)
    rfl rfl rfl rfl rfl id

theorem winsSet_keeps {s0 s : State} (h : Keeps s0 s) {k : Nat} {v : Sp (List WEntry)} :
    Keeps s0 { s with wins := spSet [] s.wins k v } :=
  h.arr (fun x => ⟨x.regs, x.cur, x.roles, x.logic, x.moved, x.ports, x.slices, x.wins.set (d := fun _ => []) k v, x.banks, x.sources, x.vectors, x.jig⟩)
    rfl rfl rfl rfl rfl id

theorem banksSet_keeps {s0 s : State} (h : Keeps s0 s) {k : Nat} {v : Bank} :
    Keeps s0 { s with banks := spSet Bank.zero s.banks k v } :=
  h.arr (fun x => ⟨x.regs, x.cur, x.roles, x.logic, x.moved, x.ports, x.slices, x.wins, x.banks.set (d := fun _ => Bank.zero) k v, x.sources, x.vectors, x.jig⟩)
    rfl rfl rfl rfl rfl id

theorem vectorsSet_keeps {s0 s : State} (h : Keeps s0 s) {k : Nat} {v : EvVector} :
    Keeps s0 { s with vectors := spSet EvVector.zero s.vectors k v } :=
  h.arr (fun x => ⟨x.regs, x.cur, x.roles, x.logic, x.moved, x.ports, x.slices, x.wins, x.banks, x.sources, x.vectors.set (d := fun _ => EvVector.zero) k v, x.jig⟩)
    rfl rfl rfl rfl rfl id

theorem jigSet_keeps {s0 s : State} (h : Keeps s0 s) {k : Nat} {v : Option JigRun} :
    Keeps s0 { s with jig := spSet none s.jig k v } :=
  h.arr (fun x => ⟨x.regs, x.cur, x.roles, x.logic, x.moved, x.ports, x.slices, x.wins, x.banks, x.sources, x.vectors, x.jig.set (d := fun _ => none) k v⟩)
    rfl rfl rfl rfl rfl id

theorem jigErase_keeps {s0 s : State} (h : Keeps s0 s) {k : Nat} : Keeps s0 { s with jig := spErase k s.jig } :=
  h.arr (fun x => ⟨x.regs, x.cur, x.roles, x.logic, x.moved, x.ports, x.slices, x.wins, x.banks, x.sources, x.vectors, x.jig.filter _⟩)
    rfl rfl rfl rfl rfl id

theorem sourcesSet_keeps {s0 s : State} (h : Keeps s0 s) {k : Nat} {v : EvSource}
    (hv : s.queuesFit → v.q.length ≤ 16) : Keeps s0 { s with sources := spSet EvSource.zero s.sources k v } :=
  h.arr (fun x => ⟨x.regs, x.cur, x.roles, x.logic, x.moved, x.ports, x.slices, x.wins, x.banks, x.sources.set (d := fun _ => EvSource.zero) k v, x.vectors, x.jig⟩)
    rfl rfl rfl rfl rfl (fun x e he => by
      rcases mem_spSet he with rfl | he
      · exact hv x
      · exact x e he)

/-- What is read from an array is its default or one of its elements. -/
theorem spGet_mem {α : Type} (d : α) (l : Sp α) (k : Nat) : spGet d l k = d ∨ (k, spGet d l k) ∈ l := by
  induction l with
  | nil => exact .inl rfl
  | cons e t ih =>
    obtain ⟨i, v⟩ := e
    by_cases h : i = k
    · subst h; right; simp [spGet]
    · simp only [spGet, h, if_false]
      rcases ih with ih | ih
      · exact .inl ih
      · exact .inr (List.mem_cons_of_mem _ ih)

theorem State.queuesFit.get {s : State} (h : s.queuesFit) (k : Nat) : (spGet EvSource.zero s.sources k).q.length ≤ 16 := by
  rcases spGet_mem EvSource.zero s.sources k with e | e
  · rw [e]; decide
  · exact h _ e

/-! ## Repetition -/

theorem forUp_keeps {s0 s : State} (h : Keeps s0 s) {f : Nat → State → State} {i n : Nat}
    (hf : ∀ k u, Keeps s0 u → Keeps s0 (f k u)) : Keeps s0 (forUp f i n s) := by
  induction n generalizing i s with
  | zero => exact h
  | succ n ih => exact ih (hf i s h)

theorem foldl_keeps {α : Type} {s0 s : State} (h : Keeps s0 s) {f : State → α → State} {l : List α}
    (hf : ∀ u a, Keeps s0 u → Keeps s0 (f u a)) : Keeps s0 (l.foldl f s) := by
  induction l generalizing s with
  | nil => exact h
  | cons a l ih => exact ih (hf s a h)

theorem foldl_snd_keeps {α β : Type} {s0 s : State} (h : Keeps s0 s) {f : β × State → α → β × State} {l : List α} {b : β}
    (hf : ∀ b u a, Keeps s0 u → Keeps s0 (f (b, u) a).2) : Keeps s0 (l.foldl f (b, s)).2 := by
  induction l generalizing s b with
  | nil => exact h
  | cons a l ih =>
    rw [List.foldl_cons]
    exact ih (s := (f (b, s) a).2) (b := (f (b, s) a).1) (hf b s a h)

end Sys2Proof.Machine
end

