-- ==== Sys2Proof/Laws/Effects.lean ====
section
/-!
SUPPORT. What the operations that many commands share leave alone: reactions, events, messages sent, notices, the error log,
the entry into the safe state, the delivery of interrupts and Umevo's log. Each law `..._field` says it of anything that can be
read of a state; a register field apart from those an operation counts in reads as before.
-/
namespace Sys2Proof.Machine
set_option linter.all false

/-- The register field at address `a` is apart from every instance of the fields of the list. -/
def Fld.allApart (l : List Fld) (a lsb wid : Nat) : Bool := l.all (fun f => f.apart a lsb wid)

theorem Fld.allApart_mem {l : List Fld} {a lsb wid : Nat} (h : Fld.allApart l a lsb wid = true) {f : Fld} (hf : f ∈ l) :
    f.apart a lsb wid = true := by
  unfold Fld.allApart at h
  exact List.all_eq_true.mp h f hf

/-- A field of a register apart from the one written reads as before. -/
theorem State.fget_fset_apart (s : State) {f g : Fld} (v n m i j : Nat) (h : f.apart (g.addr i j) g.lsb g.wid = true)
    (hg : g.lsb + g.wid ≤ 32) : (s.fset f v n m).fget g i j = s.fget g i j :=
  State.fget_fset_other s f g v n m i j (Fld.apart_other h n m) hg

theorem State.forUp_field {α : Type} (get : State → α) {f : Nat → State → State} (h : ∀ i s, get (f i s) = get s) :
    ∀ (n i : Nat) (s : State), get (forUp f i n s) = get s
  | 0, _, _ => rfl
  | n + 1, i, s => (State.forUp_field get h n (i + 1) (f i s)).trans (h i s)

theorem State.foldl_field {α β : Type} (get : State → α) {f : State → β → State} (h : ∀ s x, get (f s x) = get s) :
    ∀ (l : List β) (s : State), get (l.foldl f s) = get s
  | [], _ => rfl
  | x :: l, s => (State.foldl_field get h l (f s x)).trans (h s x)

theorem State.react_field {α : Type} (get : State → α)
    (hdue : ∀ (s : State) x, get { s with due := x } = get s) (s : State) (r : Reaction) :
    get (s.react r) = get s := by
  exact hdue _ _

@[simp] theorem State.react_now (s : State) (r : Reaction) : (s.react r).now = s.now :=
  State.react_field (·.now) (fun _ _ => rfl) s r
@[simp] theorem State.react_regs (s : State) (r : Reaction) : (s.react r).regs = s.regs :=
  State.react_field (·.regs) (fun _ _ => rfl) s r
@[simp] theorem State.react_pat (s : State) (r : Reaction) : (s.react r).pat = s.pat :=
  State.react_field (·.pat) (fun _ _ => rfl) s r
@[simp] theorem State.react_roles (s : State) (r : Reaction) : (s.react r).roles = s.roles :=
  State.react_field (·.roles) (fun _ _ => rfl) s r
@[simp] theorem State.react_logic (s : State) (r : Reaction) : (s.react r).logic = s.logic :=
  State.react_field (·.logic) (fun _ _ => rfl) s r
@[simp] theorem State.react_ports (s : State) (r : Reaction) : (s.react r).ports = s.ports :=
  State.react_field (·.ports) (fun _ _ => rfl) s r
@[simp] theorem State.react_slices (s : State) (r : Reaction) : (s.react r).slices = s.slices :=
  State.react_field (·.slices) (fun _ _ => rfl) s r
@[simp] theorem State.react_wins (s : State) (r : Reaction) : (s.react r).wins = s.wins :=
  State.react_field (·.wins) (fun _ _ => rfl) s r
@[simp] theorem State.react_banks (s : State) (r : Reaction) : (s.react r).banks = s.banks :=
  State.react_field (·.banks) (fun _ _ => rfl) s r
@[simp] theorem State.react_mig (s : State) (r : Reaction) : (s.react r).mig = s.mig :=
  State.react_field (·.mig) (fun _ _ => rfl) s r
@[simp] theorem State.react_lossLog (s : State) (r : Reaction) : (s.react r).lossLog = s.lossLog :=
  State.react_field (·.lossLog) (fun _ _ => rfl) s r
@[simp] theorem State.react_sources (s : State) (r : Reaction) : (s.react r).sources = s.sources :=
  State.react_field (·.sources) (fun _ _ => rfl) s r
@[simp] theorem State.react_vectors (s : State) (r : Reaction) : (s.react r).vectors = s.vectors :=
  State.react_field (·.vectors) (fun _ _ => rfl) s r
@[simp] theorem State.react_jig (s : State) (r : Reaction) : (s.react r).jig = s.jig :=
  State.react_field (·.jig) (fun _ _ => rfl) s r
@[simp] theorem State.react_log (s : State) (r : Reaction) : (s.react r).log = s.log :=
  State.react_field (·.log) (fun _ _ => rfl) s r
@[simp] theorem State.react_safePin (s : State) (r : Reaction) : (s.react r).safePin = s.safePin :=
  State.react_field (·.safePin) (fun _ _ => rfl) s r
@[simp] theorem State.react_boot (s : State) (r : Reaction) : (s.react r).boot = s.boot :=
  State.react_field (·.boot) (fun _ _ => rfl) s r
@[simp] theorem State.react_umv (s : State) (r : Reaction) : (s.react r).umv = s.umv :=
  State.react_field (·.umv) (fun _ _ => rfl) s r
@[simp] theorem State.react_tb (s : State) (r : Reaction) : (s.react r).tb = s.tb :=
  State.react_field (·.tb) (fun _ _ => rfl) s r
@[simp] theorem State.react_tns (s : State) (r : Reaction) : (s.react r).tns = s.tns :=
  State.react_field (·.tns) (fun _ _ => rfl) s r
@[simp] theorem State.react_latent (s : State) (r : Reaction) : (s.react r).latent = s.latent :=
  State.react_field (·.latent) (fun _ _ => rfl) s r
@[simp] theorem State.react_port (s : State) (r : Reaction) (z : Nat) : (s.react r).port z = s.port z :=
  State.react_field (·.port z) (fun _ _ => rfl) s r
@[simp] theorem State.react_slice (s : State) (r : Reaction) (z : Nat) : (s.react r).slice z = s.slice z :=
  State.react_field (·.slice z) (fun _ _ => rfl) s r
@[simp] theorem State.react_srole (s : State) (r : Reaction) (z : Nat) : (s.react r).srole z = s.srole z :=
  State.react_field (·.srole z) (fun _ _ => rfl) s r
@[simp] theorem State.react_lsl (s : State) (r : Reaction) (z : Nat) : (s.react r).lsl z = s.lsl z :=
  State.react_field (·.lsl z) (fun _ _ => rfl) s r
@[simp] theorem State.react_word (s : State) (r : Reaction) (z : Nat) : (s.react r).word z = s.word z :=
  State.react_field (·.word z) (fun _ _ => rfl) s r
@[simp] theorem State.react_fget (s : State) (r : Reaction) (g : Fld) (i j : Nat) : (s.react r).fget g i j = s.fget g i j :=
  State.react_field (·.fget g i j) (fun _ _ => rfl) s r

theorem State.modVec_field {α : Type} (get : State → α)
    (hvectors : ∀ (s : State) x, get { s with vectors := x } = get s) (s : State) (n : Nat) (f : EvVector → EvVector) :
    get (s.modVec n f) = get s := by
  exact hvectors _ _

@[simp] theorem State.modVec_now (s : State) (n : Nat) (f : EvVector → EvVector) : (s.modVec n f).now = s.now :=
  State.modVec_field (·.now) (fun _ _ => rfl) s n f
@[simp] theorem State.modVec_regs (s : State) (n : Nat) (f : EvVector → EvVector) : (s.modVec n f).regs = s.regs :=
  State.modVec_field (·.regs) (fun _ _ => rfl) s n f
@[simp] theorem State.modVec_pat (s : State) (n : Nat) (f : EvVector → EvVector) : (s.modVec n f).pat = s.pat :=
  State.modVec_field (·.pat) (fun _ _ => rfl) s n f
@[simp] theorem State.modVec_roles (s : State) (n : Nat) (f : EvVector → EvVector) : (s.modVec n f).roles = s.roles :=
  State.modVec_field (·.roles) (fun _ _ => rfl) s n f
@[simp] theorem State.modVec_logic (s : State) (n : Nat) (f : EvVector → EvVector) : (s.modVec n f).logic = s.logic :=
  State.modVec_field (·.logic) (fun _ _ => rfl) s n f
@[simp] theorem State.modVec_ports (s : State) (n : Nat) (f : EvVector → EvVector) : (s.modVec n f).ports = s.ports :=
  State.modVec_field (·.ports) (fun _ _ => rfl) s n f
@[simp] theorem State.modVec_slices (s : State) (n : Nat) (f : EvVector → EvVector) : (s.modVec n f).slices = s.slices :=
  State.modVec_field (·.slices) (fun _ _ => rfl) s n f
@[simp] theorem State.modVec_wins (s : State) (n : Nat) (f : EvVector → EvVector) : (s.modVec n f).wins = s.wins :=
  State.modVec_field (·.wins) (fun _ _ => rfl) s n f
@[simp] theorem State.modVec_banks (s : State) (n : Nat) (f : EvVector → EvVector) : (s.modVec n f).banks = s.banks :=
  State.modVec_field (·.banks) (fun _ _ => rfl) s n f
@[simp] theorem State.modVec_mig (s : State) (n : Nat) (f : EvVector → EvVector) : (s.modVec n f).mig = s.mig :=
  State.modVec_field (·.mig) (fun _ _ => rfl) s n f
@[simp] theorem State.modVec_lossLog (s : State) (n : Nat) (f : EvVector → EvVector) : (s.modVec n f).lossLog = s.lossLog :=
  State.modVec_field (·.lossLog) (fun _ _ => rfl) s n f
@[simp] theorem State.modVec_sources (s : State) (n : Nat) (f : EvVector → EvVector) : (s.modVec n f).sources = s.sources :=
  State.modVec_field (·.sources) (fun _ _ => rfl) s n f
@[simp] theorem State.modVec_jig (s : State) (n : Nat) (f : EvVector → EvVector) : (s.modVec n f).jig = s.jig :=
  State.modVec_field (·.jig) (fun _ _ => rfl) s n f
@[simp] theorem State.modVec_log (s : State) (n : Nat) (f : EvVector → EvVector) : (s.modVec n f).log = s.log :=
  State.modVec_field (·.log) (fun _ _ => rfl) s n f
@[simp] theorem State.modVec_due (s : State) (n : Nat) (f : EvVector → EvVector) : (s.modVec n f).due = s.due :=
  State.modVec_field (·.due) (fun _ _ => rfl) s n f
@[simp] theorem State.modVec_safePin (s : State) (n : Nat) (f : EvVector → EvVector) : (s.modVec n f).safePin = s.safePin :=
  State.modVec_field (·.safePin) (fun _ _ => rfl) s n f
@[simp] theorem State.modVec_boot (s : State) (n : Nat) (f : EvVector → EvVector) : (s.modVec n f).boot = s.boot :=
  State.modVec_field (·.boot) (fun _ _ => rfl) s n f
@[simp] theorem State.modVec_umv (s : State) (n : Nat) (f : EvVector → EvVector) : (s.modVec n f).umv = s.umv :=
  State.modVec_field (·.umv) (fun _ _ => rfl) s n f
@[simp] theorem State.modVec_tb (s : State) (n : Nat) (f : EvVector → EvVector) : (s.modVec n f).tb = s.tb :=
  State.modVec_field (·.tb) (fun _ _ => rfl) s n f
@[simp] theorem State.modVec_tns (s : State) (n : Nat) (f : EvVector → EvVector) : (s.modVec n f).tns = s.tns :=
  State.modVec_field (·.tns) (fun _ _ => rfl) s n f
@[simp] theorem State.modVec_latent (s : State) (n : Nat) (f : EvVector → EvVector) : (s.modVec n f).latent = s.latent :=
  State.modVec_field (·.latent) (fun _ _ => rfl) s n f
@[simp] theorem State.modVec_port (s : State) (n : Nat) (f : EvVector → EvVector) (z : Nat) : (s.modVec n f).port z = s.port z :=
  State.modVec_field (·.port z) (fun _ _ => rfl) s n f
@[simp] theorem State.modVec_slice (s : State) (n : Nat) (f : EvVector → EvVector) (z : Nat) : (s.modVec n f).slice z = s.slice z :=
  State.modVec_field (·.slice z) (fun _ _ => rfl) s n f
@[simp] theorem State.modVec_srole (s : State) (n : Nat) (f : EvVector → EvVector) (z : Nat) : (s.modVec n f).srole z = s.srole z :=
  State.modVec_field (·.srole z) (fun _ _ => rfl) s n f
@[simp] theorem State.modVec_lsl (s : State) (n : Nat) (f : EvVector → EvVector) (z : Nat) : (s.modVec n f).lsl z = s.lsl z :=
  State.modVec_field (·.lsl z) (fun _ _ => rfl) s n f
@[simp] theorem State.modVec_word (s : State) (n : Nat) (f : EvVector → EvVector) (z : Nat) : (s.modVec n f).word z = s.word z :=
  State.modVec_field (·.word z) (fun _ _ => rfl) s n f
@[simp] theorem State.modVec_fget (s : State) (n : Nat) (f : EvVector → EvVector) (g : Fld) (i j : Nat) : (s.modVec n f).fget g i j = s.fget g i j :=
  State.modVec_field (·.fget g i j) (fun _ _ => rfl) s n f

theorem State.modBoot_field {α : Type} (get : State → α)
    (hboot : ∀ (s : State) x, get { s with boot := x } = get s) (s : State) (f : Boot → Boot) :
    get (s.modBoot f) = get s := by
  exact hboot _ _

@[simp] theorem State.modBoot_now (s : State) (f : Boot → Boot) : (s.modBoot f).now = s.now :=
  State.modBoot_field (·.now) (fun _ _ => rfl) s f
@[simp] theorem State.modBoot_regs (s : State) (f : Boot → Boot) : (s.modBoot f).regs = s.regs :=
  State.modBoot_field (·.regs) (fun _ _ => rfl) s f
@[simp] theorem State.modBoot_pat (s : State) (f : Boot → Boot) : (s.modBoot f).pat = s.pat :=
  State.modBoot_field (·.pat) (fun _ _ => rfl) s f
@[simp] theorem State.modBoot_roles (s : State) (f : Boot → Boot) : (s.modBoot f).roles = s.roles :=
  State.modBoot_field (·.roles) (fun _ _ => rfl) s f
@[simp] theorem State.modBoot_logic (s : State) (f : Boot → Boot) : (s.modBoot f).logic = s.logic :=
  State.modBoot_field (·.logic) (fun _ _ => rfl) s f
@[simp] theorem State.modBoot_ports (s : State) (f : Boot → Boot) : (s.modBoot f).ports = s.ports :=
  State.modBoot_field (·.ports) (fun _ _ => rfl) s f
@[simp] theorem State.modBoot_slices (s : State) (f : Boot → Boot) : (s.modBoot f).slices = s.slices :=
  State.modBoot_field (·.slices) (fun _ _ => rfl) s f
@[simp] theorem State.modBoot_wins (s : State) (f : Boot → Boot) : (s.modBoot f).wins = s.wins :=
  State.modBoot_field (·.wins) (fun _ _ => rfl) s f
@[simp] theorem State.modBoot_banks (s : State) (f : Boot → Boot) : (s.modBoot f).banks = s.banks :=
  State.modBoot_field (·.banks) (fun _ _ => rfl) s f
@[simp] theorem State.modBoot_mig (s : State) (f : Boot → Boot) : (s.modBoot f).mig = s.mig :=
  State.modBoot_field (·.mig) (fun _ _ => rfl) s f
@[simp] theorem State.modBoot_lossLog (s : State) (f : Boot → Boot) : (s.modBoot f).lossLog = s.lossLog :=
  State.modBoot_field (·.lossLog) (fun _ _ => rfl) s f
@[simp] theorem State.modBoot_sources (s : State) (f : Boot → Boot) : (s.modBoot f).sources = s.sources :=
  State.modBoot_field (·.sources) (fun _ _ => rfl) s f
@[simp] theorem State.modBoot_vectors (s : State) (f : Boot → Boot) : (s.modBoot f).vectors = s.vectors :=
  State.modBoot_field (·.vectors) (fun _ _ => rfl) s f
@[simp] theorem State.modBoot_jig (s : State) (f : Boot → Boot) : (s.modBoot f).jig = s.jig :=
  State.modBoot_field (·.jig) (fun _ _ => rfl) s f
@[simp] theorem State.modBoot_log (s : State) (f : Boot → Boot) : (s.modBoot f).log = s.log :=
  State.modBoot_field (·.log) (fun _ _ => rfl) s f
@[simp] theorem State.modBoot_due (s : State) (f : Boot → Boot) : (s.modBoot f).due = s.due :=
  State.modBoot_field (·.due) (fun _ _ => rfl) s f
@[simp] theorem State.modBoot_safePin (s : State) (f : Boot → Boot) : (s.modBoot f).safePin = s.safePin :=
  State.modBoot_field (·.safePin) (fun _ _ => rfl) s f
@[simp] theorem State.modBoot_umv (s : State) (f : Boot → Boot) : (s.modBoot f).umv = s.umv :=
  State.modBoot_field (·.umv) (fun _ _ => rfl) s f
@[simp] theorem State.modBoot_tb (s : State) (f : Boot → Boot) : (s.modBoot f).tb = s.tb :=
  State.modBoot_field (·.tb) (fun _ _ => rfl) s f
@[simp] theorem State.modBoot_tns (s : State) (f : Boot → Boot) : (s.modBoot f).tns = s.tns :=
  State.modBoot_field (·.tns) (fun _ _ => rfl) s f
@[simp] theorem State.modBoot_latent (s : State) (f : Boot → Boot) : (s.modBoot f).latent = s.latent :=
  State.modBoot_field (·.latent) (fun _ _ => rfl) s f
@[simp] theorem State.modBoot_port (s : State) (f : Boot → Boot) (z : Nat) : (s.modBoot f).port z = s.port z :=
  State.modBoot_field (·.port z) (fun _ _ => rfl) s f
@[simp] theorem State.modBoot_slice (s : State) (f : Boot → Boot) (z : Nat) : (s.modBoot f).slice z = s.slice z :=
  State.modBoot_field (·.slice z) (fun _ _ => rfl) s f
@[simp] theorem State.modBoot_srole (s : State) (f : Boot → Boot) (z : Nat) : (s.modBoot f).srole z = s.srole z :=
  State.modBoot_field (·.srole z) (fun _ _ => rfl) s f
@[simp] theorem State.modBoot_lsl (s : State) (f : Boot → Boot) (z : Nat) : (s.modBoot f).lsl z = s.lsl z :=
  State.modBoot_field (·.lsl z) (fun _ _ => rfl) s f
@[simp] theorem State.modBoot_word (s : State) (f : Boot → Boot) (z : Nat) : (s.modBoot f).word z = s.word z :=
  State.modBoot_field (·.word z) (fun _ _ => rfl) s f
@[simp] theorem State.modBoot_fget (s : State) (f : Boot → Boot) (g : Fld) (i j : Nat) : (s.modBoot f).fget g i j = s.fget g i j :=
  State.modBoot_field (·.fget g i j) (fun _ _ => rfl) s f

theorem State.modUmv_field {α : Type} (get : State → α)
    (humv : ∀ (s : State) x, get { s with umv := x } = get s) (s : State) (f : Umv → Umv) :
    get (s.modUmv f) = get s := by
  exact humv _ _

@[simp] theorem State.modUmv_now (s : State) (f : Umv → Umv) : (s.modUmv f).now = s.now :=
  State.modUmv_field (·.now) (fun _ _ => rfl) s f
@[simp] theorem State.modUmv_regs (s : State) (f : Umv → Umv) : (s.modUmv f).regs = s.regs :=
  State.modUmv_field (·.regs) (fun _ _ => rfl) s f
@[simp] theorem State.modUmv_pat (s : State) (f : Umv → Umv) : (s.modUmv f).pat = s.pat :=
  State.modUmv_field (·.pat) (fun _ _ => rfl) s f
@[simp] theorem State.modUmv_roles (s : State) (f : Umv → Umv) : (s.modUmv f).roles = s.roles :=
  State.modUmv_field (·.roles) (fun _ _ => rfl) s f
@[simp] theorem State.modUmv_logic (s : State) (f : Umv → Umv) : (s.modUmv f).logic = s.logic :=
  State.modUmv_field (·.logic) (fun _ _ => rfl) s f
@[simp] theorem State.modUmv_ports (s : State) (f : Umv → Umv) : (s.modUmv f).ports = s.ports :=
  State.modUmv_field (·.ports) (fun _ _ => rfl) s f
@[simp] theorem State.modUmv_slices (s : State) (f : Umv → Umv) : (s.modUmv f).slices = s.slices :=
  State.modUmv_field (·.slices) (fun _ _ => rfl) s f
@[simp] theorem State.modUmv_wins (s : State) (f : Umv → Umv) : (s.modUmv f).wins = s.wins :=
  State.modUmv_field (·.wins) (fun _ _ => rfl) s f
@[simp] theorem State.modUmv_banks (s : State) (f : Umv → Umv) : (s.modUmv f).banks = s.banks :=
  State.modUmv_field (·.banks) (fun _ _ => rfl) s f
@[simp] theorem State.modUmv_mig (s : State) (f : Umv → Umv) : (s.modUmv f).mig = s.mig :=
  State.modUmv_field (·.mig) (fun _ _ => rfl) s f
@[simp] theorem State.modUmv_lossLog (s : State) (f : Umv → Umv) : (s.modUmv f).lossLog = s.lossLog :=
  State.modUmv_field (·.lossLog) (fun _ _ => rfl) s f
@[simp] theorem State.modUmv_sources (s : State) (f : Umv → Umv) : (s.modUmv f).sources = s.sources :=
  State.modUmv_field (·.sources) (fun _ _ => rfl) s f
@[simp] theorem State.modUmv_vectors (s : State) (f : Umv → Umv) : (s.modUmv f).vectors = s.vectors :=
  State.modUmv_field (·.vectors) (fun _ _ => rfl) s f
@[simp] theorem State.modUmv_jig (s : State) (f : Umv → Umv) : (s.modUmv f).jig = s.jig :=
  State.modUmv_field (·.jig) (fun _ _ => rfl) s f
@[simp] theorem State.modUmv_log (s : State) (f : Umv → Umv) : (s.modUmv f).log = s.log :=
  State.modUmv_field (·.log) (fun _ _ => rfl) s f
@[simp] theorem State.modUmv_due (s : State) (f : Umv → Umv) : (s.modUmv f).due = s.due :=
  State.modUmv_field (·.due) (fun _ _ => rfl) s f
@[simp] theorem State.modUmv_safePin (s : State) (f : Umv → Umv) : (s.modUmv f).safePin = s.safePin :=
  State.modUmv_field (·.safePin) (fun _ _ => rfl) s f
@[simp] theorem State.modUmv_boot (s : State) (f : Umv → Umv) : (s.modUmv f).boot = s.boot :=
  State.modUmv_field (·.boot) (fun _ _ => rfl) s f
@[simp] theorem State.modUmv_tb (s : State) (f : Umv → Umv) : (s.modUmv f).tb = s.tb :=
  State.modUmv_field (·.tb) (fun _ _ => rfl) s f
@[simp] theorem State.modUmv_tns (s : State) (f : Umv → Umv) : (s.modUmv f).tns = s.tns :=
  State.modUmv_field (·.tns) (fun _ _ => rfl) s f
@[simp] theorem State.modUmv_latent (s : State) (f : Umv → Umv) : (s.modUmv f).latent = s.latent :=
  State.modUmv_field (·.latent) (fun _ _ => rfl) s f
@[simp] theorem State.modUmv_port (s : State) (f : Umv → Umv) (z : Nat) : (s.modUmv f).port z = s.port z :=
  State.modUmv_field (·.port z) (fun _ _ => rfl) s f
@[simp] theorem State.modUmv_slice (s : State) (f : Umv → Umv) (z : Nat) : (s.modUmv f).slice z = s.slice z :=
  State.modUmv_field (·.slice z) (fun _ _ => rfl) s f
@[simp] theorem State.modUmv_srole (s : State) (f : Umv → Umv) (z : Nat) : (s.modUmv f).srole z = s.srole z :=
  State.modUmv_field (·.srole z) (fun _ _ => rfl) s f
@[simp] theorem State.modUmv_lsl (s : State) (f : Umv → Umv) (z : Nat) : (s.modUmv f).lsl z = s.lsl z :=
  State.modUmv_field (·.lsl z) (fun _ _ => rfl) s f
@[simp] theorem State.modUmv_word (s : State) (f : Umv → Umv) (z : Nat) : (s.modUmv f).word z = s.word z :=
  State.modUmv_field (·.word z) (fun _ _ => rfl) s f
@[simp] theorem State.modUmv_fget (s : State) (f : Umv → Umv) (g : Fld) (i j : Nat) : (s.modUmv f).fget g i j = s.fget g i j :=
  State.modUmv_field (·.fget g i j) (fun _ _ => rfl) s f

theorem State.sendOn_field {α : Type} (get : State → α)
    (hports : ∀ (s : State) x, get { s with ports := x } = get s) (s : State) (p : Nat) (m : Msg) :
    get (s.sendOn p m) = get s := by
  exact hports _ _

@[simp] theorem State.sendOn_now (s : State) (p : Nat) (m : Msg) : (s.sendOn p m).now = s.now :=
  State.sendOn_field (·.now) (fun _ _ => rfl) s p m
@[simp] theorem State.sendOn_regs (s : State) (p : Nat) (m : Msg) : (s.sendOn p m).regs = s.regs :=
  State.sendOn_field (·.regs) (fun _ _ => rfl) s p m
@[simp] theorem State.sendOn_pat (s : State) (p : Nat) (m : Msg) : (s.sendOn p m).pat = s.pat :=
  State.sendOn_field (·.pat) (fun _ _ => rfl) s p m
@[simp] theorem State.sendOn_roles (s : State) (p : Nat) (m : Msg) : (s.sendOn p m).roles = s.roles :=
  State.sendOn_field (·.roles) (fun _ _ => rfl) s p m
@[simp] theorem State.sendOn_logic (s : State) (p : Nat) (m : Msg) : (s.sendOn p m).logic = s.logic :=
  State.sendOn_field (·.logic) (fun _ _ => rfl) s p m
@[simp] theorem State.sendOn_slices (s : State) (p : Nat) (m : Msg) : (s.sendOn p m).slices = s.slices :=
  State.sendOn_field (·.slices) (fun _ _ => rfl) s p m
@[simp] theorem State.sendOn_wins (s : State) (p : Nat) (m : Msg) : (s.sendOn p m).wins = s.wins :=
  State.sendOn_field (·.wins) (fun _ _ => rfl) s p m
@[simp] theorem State.sendOn_banks (s : State) (p : Nat) (m : Msg) : (s.sendOn p m).banks = s.banks :=
  State.sendOn_field (·.banks) (fun _ _ => rfl) s p m
@[simp] theorem State.sendOn_mig (s : State) (p : Nat) (m : Msg) : (s.sendOn p m).mig = s.mig :=
  State.sendOn_field (·.mig) (fun _ _ => rfl) s p m
@[simp] theorem State.sendOn_lossLog (s : State) (p : Nat) (m : Msg) : (s.sendOn p m).lossLog = s.lossLog :=
  State.sendOn_field (·.lossLog) (fun _ _ => rfl) s p m
@[simp] theorem State.sendOn_sources (s : State) (p : Nat) (m : Msg) : (s.sendOn p m).sources = s.sources :=
  State.sendOn_field (·.sources) (fun _ _ => rfl) s p m
@[simp] theorem State.sendOn_vectors (s : State) (p : Nat) (m : Msg) : (s.sendOn p m).vectors = s.vectors :=
  State.sendOn_field (·.vectors) (fun _ _ => rfl) s p m
@[simp] theorem State.sendOn_jig (s : State) (p : Nat) (m : Msg) : (s.sendOn p m).jig = s.jig :=
  State.sendOn_field (·.jig) (fun _ _ => rfl) s p m
@[simp] theorem State.sendOn_log (s : State) (p : Nat) (m : Msg) : (s.sendOn p m).log = s.log :=
  State.sendOn_field (·.log) (fun _ _ => rfl) s p m
@[simp] theorem State.sendOn_due (s : State) (p : Nat) (m : Msg) : (s.sendOn p m).due = s.due :=
  State.sendOn_field (·.due) (fun _ _ => rfl) s p m
@[simp] theorem State.sendOn_safePin (s : State) (p : Nat) (m : Msg) : (s.sendOn p m).safePin = s.safePin :=
  State.sendOn_field (·.safePin) (fun _ _ => rfl) s p m
@[simp] theorem State.sendOn_boot (s : State) (p : Nat) (m : Msg) : (s.sendOn p m).boot = s.boot :=
  State.sendOn_field (·.boot) (fun _ _ => rfl) s p m
@[simp] theorem State.sendOn_umv (s : State) (p : Nat) (m : Msg) : (s.sendOn p m).umv = s.umv :=
  State.sendOn_field (·.umv) (fun _ _ => rfl) s p m
@[simp] theorem State.sendOn_tb (s : State) (p : Nat) (m : Msg) : (s.sendOn p m).tb = s.tb :=
  State.sendOn_field (·.tb) (fun _ _ => rfl) s p m
@[simp] theorem State.sendOn_tns (s : State) (p : Nat) (m : Msg) : (s.sendOn p m).tns = s.tns :=
  State.sendOn_field (·.tns) (fun _ _ => rfl) s p m
@[simp] theorem State.sendOn_latent (s : State) (p : Nat) (m : Msg) : (s.sendOn p m).latent = s.latent :=
  State.sendOn_field (·.latent) (fun _ _ => rfl) s p m
@[simp] theorem State.sendOn_slice (s : State) (p : Nat) (m : Msg) (z : Nat) : (s.sendOn p m).slice z = s.slice z :=
  State.sendOn_field (·.slice z) (fun _ _ => rfl) s p m
@[simp] theorem State.sendOn_srole (s : State) (p : Nat) (m : Msg) (z : Nat) : (s.sendOn p m).srole z = s.srole z :=
  State.sendOn_field (·.srole z) (fun _ _ => rfl) s p m
@[simp] theorem State.sendOn_lsl (s : State) (p : Nat) (m : Msg) (z : Nat) : (s.sendOn p m).lsl z = s.lsl z :=
  State.sendOn_field (·.lsl z) (fun _ _ => rfl) s p m
@[simp] theorem State.sendOn_word (s : State) (p : Nat) (m : Msg) (z : Nat) : (s.sendOn p m).word z = s.word z :=
  State.sendOn_field (·.word z) (fun _ _ => rfl) s p m
@[simp] theorem State.sendOn_fget (s : State) (p : Nat) (m : Msg) (g : Fld) (i j : Nat) : (s.sendOn p m).fget g i j = s.fget g i j :=
  State.sendOn_field (·.fget g i j) (fun _ _ => rfl) s p m

theorem State.startTimer_field {α : Type} (get : State → α)
    (hslices : ∀ (s : State) x, get { s with slices := x } = get s) (s : State) (m : Msg) :
    get (s.startTimer m) = get s := by
  unfold State.startTimer; dsimp only
  split
  · rfl
  · split
    · rfl
    · split
      · exact hslices _ _
      · rfl

@[simp] theorem State.startTimer_now (s : State) (m : Msg) : (s.startTimer m).now = s.now :=
  State.startTimer_field (·.now) (fun _ _ => rfl) s m
@[simp] theorem State.startTimer_regs (s : State) (m : Msg) : (s.startTimer m).regs = s.regs :=
  State.startTimer_field (·.regs) (fun _ _ => rfl) s m
@[simp] theorem State.startTimer_pat (s : State) (m : Msg) : (s.startTimer m).pat = s.pat :=
  State.startTimer_field (·.pat) (fun _ _ => rfl) s m
@[simp] theorem State.startTimer_roles (s : State) (m : Msg) : (s.startTimer m).roles = s.roles :=
  State.startTimer_field (·.roles) (fun _ _ => rfl) s m
@[simp] theorem State.startTimer_logic (s : State) (m : Msg) : (s.startTimer m).logic = s.logic :=
  State.startTimer_field (·.logic) (fun _ _ => rfl) s m
@[simp] theorem State.startTimer_ports (s : State) (m : Msg) : (s.startTimer m).ports = s.ports :=
  State.startTimer_field (·.ports) (fun _ _ => rfl) s m
@[simp] theorem State.startTimer_wins (s : State) (m : Msg) : (s.startTimer m).wins = s.wins :=
  State.startTimer_field (·.wins) (fun _ _ => rfl) s m
@[simp] theorem State.startTimer_banks (s : State) (m : Msg) : (s.startTimer m).banks = s.banks :=
  State.startTimer_field (·.banks) (fun _ _ => rfl) s m
@[simp] theorem State.startTimer_mig (s : State) (m : Msg) : (s.startTimer m).mig = s.mig :=
  State.startTimer_field (·.mig) (fun _ _ => rfl) s m
@[simp] theorem State.startTimer_lossLog (s : State) (m : Msg) : (s.startTimer m).lossLog = s.lossLog :=
  State.startTimer_field (·.lossLog) (fun _ _ => rfl) s m
@[simp] theorem State.startTimer_sources (s : State) (m : Msg) : (s.startTimer m).sources = s.sources :=
  State.startTimer_field (·.sources) (fun _ _ => rfl) s m
@[simp] theorem State.startTimer_vectors (s : State) (m : Msg) : (s.startTimer m).vectors = s.vectors :=
  State.startTimer_field (·.vectors) (fun _ _ => rfl) s m
@[simp] theorem State.startTimer_jig (s : State) (m : Msg) : (s.startTimer m).jig = s.jig :=
  State.startTimer_field (·.jig) (fun _ _ => rfl) s m
@[simp] theorem State.startTimer_log (s : State) (m : Msg) : (s.startTimer m).log = s.log :=
  State.startTimer_field (·.log) (fun _ _ => rfl) s m
@[simp] theorem State.startTimer_due (s : State) (m : Msg) : (s.startTimer m).due = s.due :=
  State.startTimer_field (·.due) (fun _ _ => rfl) s m
@[simp] theorem State.startTimer_safePin (s : State) (m : Msg) : (s.startTimer m).safePin = s.safePin :=
  State.startTimer_field (·.safePin) (fun _ _ => rfl) s m
@[simp] theorem State.startTimer_boot (s : State) (m : Msg) : (s.startTimer m).boot = s.boot :=
  State.startTimer_field (·.boot) (fun _ _ => rfl) s m
@[simp] theorem State.startTimer_umv (s : State) (m : Msg) : (s.startTimer m).umv = s.umv :=
  State.startTimer_field (·.umv) (fun _ _ => rfl) s m
@[simp] theorem State.startTimer_tb (s : State) (m : Msg) : (s.startTimer m).tb = s.tb :=
  State.startTimer_field (·.tb) (fun _ _ => rfl) s m
@[simp] theorem State.startTimer_tns (s : State) (m : Msg) : (s.startTimer m).tns = s.tns :=
  State.startTimer_field (·.tns) (fun _ _ => rfl) s m
@[simp] theorem State.startTimer_latent (s : State) (m : Msg) : (s.startTimer m).latent = s.latent :=
  State.startTimer_field (·.latent) (fun _ _ => rfl) s m
@[simp] theorem State.startTimer_port (s : State) (m : Msg) (z : Nat) : (s.startTimer m).port z = s.port z :=
  State.startTimer_field (·.port z) (fun _ _ => rfl) s m
@[simp] theorem State.startTimer_srole (s : State) (m : Msg) (z : Nat) : (s.startTimer m).srole z = s.srole z :=
  State.startTimer_field (·.srole z) (fun _ _ => rfl) s m
@[simp] theorem State.startTimer_lsl (s : State) (m : Msg) (z : Nat) : (s.startTimer m).lsl z = s.lsl z :=
  State.startTimer_field (·.lsl z) (fun _ _ => rfl) s m
@[simp] theorem State.startTimer_word (s : State) (m : Msg) (z : Nat) : (s.startTimer m).word z = s.word z :=
  State.startTimer_field (·.word z) (fun _ _ => rfl) s m
@[simp] theorem State.startTimer_fget (s : State) (m : Msg) (g : Fld) (i j : Nat) : (s.startTimer m).fget g i j = s.fget g i j :=
  State.startTimer_field (·.fget g i j) (fun _ _ => rfl) s m

theorem State.raise_field {α : Type} (get : State → α)
    (hsources : ∀ (s : State) x, get { s with sources := x } = get s)
    (k0 : ∀ (s : State) v n m, get (s.fset F.EVG_DROP_FULL v n m) = get s) (s : State) (x c : Nat) (t : Option Tenant) :
    get (s.raise x c t) = get s := by
  unfold State.raise; dsimp only
  split
  · exact hsources _ _
  · exact (k0 _ _ _ _).trans (hsources _ _)

@[simp] theorem State.raise_now (s : State) (x c : Nat) (t : Option Tenant) : (s.raise x c t).now = s.now :=
  State.raise_field (·.now) (fun _ _ => rfl) (fun _ _ _ _ => rfl) s x c t
@[simp] theorem State.raise_pat (s : State) (x c : Nat) (t : Option Tenant) : (s.raise x c t).pat = s.pat :=
  State.raise_field (·.pat) (fun _ _ => rfl) (fun _ _ _ _ => rfl) s x c t
@[simp] theorem State.raise_roles (s : State) (x c : Nat) (t : Option Tenant) : (s.raise x c t).roles = s.roles :=
  State.raise_field (·.roles) (fun _ _ => rfl) (fun _ _ _ _ => rfl) s x c t
@[simp] theorem State.raise_logic (s : State) (x c : Nat) (t : Option Tenant) : (s.raise x c t).logic = s.logic :=
  State.raise_field (·.logic) (fun _ _ => rfl) (fun _ _ _ _ => rfl) s x c t
@[simp] theorem State.raise_ports (s : State) (x c : Nat) (t : Option Tenant) : (s.raise x c t).ports = s.ports :=
  State.raise_field (·.ports) (fun _ _ => rfl) (fun _ _ _ _ => rfl) s x c t
@[simp] theorem State.raise_slices (s : State) (x c : Nat) (t : Option Tenant) : (s.raise x c t).slices = s.slices :=
  State.raise_field (·.slices) (fun _ _ => rfl) (fun _ _ _ _ => rfl) s x c t
@[simp] theorem State.raise_wins (s : State) (x c : Nat) (t : Option Tenant) : (s.raise x c t).wins = s.wins :=
  State.raise_field (·.wins) (fun _ _ => rfl) (fun _ _ _ _ => rfl) s x c t
@[simp] theorem State.raise_banks (s : State) (x c : Nat) (t : Option Tenant) : (s.raise x c t).banks = s.banks :=
  State.raise_field (·.banks) (fun _ _ => rfl) (fun _ _ _ _ => rfl) s x c t
@[simp] theorem State.raise_mig (s : State) (x c : Nat) (t : Option Tenant) : (s.raise x c t).mig = s.mig :=
  State.raise_field (·.mig) (fun _ _ => rfl) (fun _ _ _ _ => rfl) s x c t
@[simp] theorem State.raise_lossLog (s : State) (x c : Nat) (t : Option Tenant) : (s.raise x c t).lossLog = s.lossLog :=
  State.raise_field (·.lossLog) (fun _ _ => rfl) (fun _ _ _ _ => rfl) s x c t
@[simp] theorem State.raise_vectors (s : State) (x c : Nat) (t : Option Tenant) : (s.raise x c t).vectors = s.vectors :=
  State.raise_field (·.vectors) (fun _ _ => rfl) (fun _ _ _ _ => rfl) s x c t
@[simp] theorem State.raise_jig (s : State) (x c : Nat) (t : Option Tenant) : (s.raise x c t).jig = s.jig :=
  State.raise_field (·.jig) (fun _ _ => rfl) (fun _ _ _ _ => rfl) s x c t
@[simp] theorem State.raise_log (s : State) (x c : Nat) (t : Option Tenant) : (s.raise x c t).log = s.log :=
  State.raise_field (·.log) (fun _ _ => rfl) (fun _ _ _ _ => rfl) s x c t
@[simp] theorem State.raise_due (s : State) (x c : Nat) (t : Option Tenant) : (s.raise x c t).due = s.due :=
  State.raise_field (·.due) (fun _ _ => rfl) (fun _ _ _ _ => rfl) s x c t
@[simp] theorem State.raise_safePin (s : State) (x c : Nat) (t : Option Tenant) : (s.raise x c t).safePin = s.safePin :=
  State.raise_field (·.safePin) (fun _ _ => rfl) (fun _ _ _ _ => rfl) s x c t
@[simp] theorem State.raise_boot (s : State) (x c : Nat) (t : Option Tenant) : (s.raise x c t).boot = s.boot :=
  State.raise_field (·.boot) (fun _ _ => rfl) (fun _ _ _ _ => rfl) s x c t
@[simp] theorem State.raise_umv (s : State) (x c : Nat) (t : Option Tenant) : (s.raise x c t).umv = s.umv :=
  State.raise_field (·.umv) (fun _ _ => rfl) (fun _ _ _ _ => rfl) s x c t
@[simp] theorem State.raise_tb (s : State) (x c : Nat) (t : Option Tenant) : (s.raise x c t).tb = s.tb :=
  State.raise_field (·.tb) (fun _ _ => rfl) (fun _ _ _ _ => rfl) s x c t
@[simp] theorem State.raise_tns (s : State) (x c : Nat) (t : Option Tenant) : (s.raise x c t).tns = s.tns :=
  State.raise_field (·.tns) (fun _ _ => rfl) (fun _ _ _ _ => rfl) s x c t
@[simp] theorem State.raise_latent (s : State) (x c : Nat) (t : Option Tenant) : (s.raise x c t).latent = s.latent :=
  State.raise_field (·.latent) (fun _ _ => rfl) (fun _ _ _ _ => rfl) s x c t
@[simp] theorem State.raise_port (s : State) (x c : Nat) (t : Option Tenant) (z : Nat) : (s.raise x c t).port z = s.port z :=
  State.raise_field (·.port z) (fun _ _ => rfl) (fun _ _ _ _ => rfl) s x c t
@[simp] theorem State.raise_slice (s : State) (x c : Nat) (t : Option Tenant) (z : Nat) : (s.raise x c t).slice z = s.slice z :=
  State.raise_field (·.slice z) (fun _ _ => rfl) (fun _ _ _ _ => rfl) s x c t
@[simp] theorem State.raise_srole (s : State) (x c : Nat) (t : Option Tenant) (z : Nat) : (s.raise x c t).srole z = s.srole z :=
  State.raise_field (·.srole z) (fun _ _ => rfl) (fun _ _ _ _ => rfl) s x c t
@[simp] theorem State.raise_lsl (s : State) (x c : Nat) (t : Option Tenant) (z : Nat) : (s.raise x c t).lsl z = s.lsl z :=
  State.raise_field (·.lsl z) (fun _ _ => rfl) (fun _ _ _ _ => rfl) s x c t
theorem State.raise_fget (s : State) (x c : Nat) (t : Option Tenant) (g : Fld) (i j : Nat)
    (h : Fld.allApart [F.EVG_DROP_FULL] (g.addr i j) g.lsb g.wid = true) (hg : g.lsb + g.wid ≤ 32) :
    (s.raise x c t).fget g i j = s.fget g i j :=
  State.raise_field (·.fget g i j) (fun _ _ => rfl) (fun s v n m => State.fget_fset_apart s v n m i j (Fld.allApart_mem h (f := F.EVG_DROP_FULL) (by simp)) hg) s x c t

theorem State.raiseSafety_field {α : Type} (get : State → α)
    (hsources : ∀ (s : State) x, get { s with sources := x } = get s)
    (k0 : ∀ (s : State) v n m, get (s.fset F.EVG_DROP_FULL v n m) = get s) (s : State) (x : Nat) :
    get (s.raiseSafety x) = get s := by
  have eraise := State.raise_field get hsources k0
  exact eraise _ _ _ _

@[simp] theorem State.raiseSafety_now (s : State) (x : Nat) : (s.raiseSafety x).now = s.now :=
  State.raiseSafety_field (·.now) (fun _ _ => rfl) (fun _ _ _ _ => rfl) s x
@[simp] theorem State.raiseSafety_pat (s : State) (x : Nat) : (s.raiseSafety x).pat = s.pat :=
  State.raiseSafety_field (·.pat) (fun _ _ => rfl) (fun _ _ _ _ => rfl) s x
@[simp] theorem State.raiseSafety_roles (s : State) (x : Nat) : (s.raiseSafety x).roles = s.roles :=
  State.raiseSafety_field (·.roles) (fun _ _ => rfl) (fun _ _ _ _ => rfl) s x
@[simp] theorem State.raiseSafety_logic (s : State) (x : Nat) : (s.raiseSafety x).logic = s.logic :=
  State.raiseSafety_field (·.logic) (fun _ _ => rfl) (fun _ _ _ _ => rfl) s x
@[simp] theorem State.raiseSafety_ports (s : State) (x : Nat) : (s.raiseSafety x).ports = s.ports :=
  State.raiseSafety_field (·.ports) (fun _ _ => rfl) (fun _ _ _ _ => rfl) s x
@[simp] theorem State.raiseSafety_slices (s : State) (x : Nat) : (s.raiseSafety x).slices = s.slices :=
  State.raiseSafety_field (·.slices) (fun _ _ => rfl) (fun _ _ _ _ => rfl) s x
@[simp] theorem State.raiseSafety_wins (s : State) (x : Nat) : (s.raiseSafety x).wins = s.wins :=
  State.raiseSafety_field (·.wins) (fun _ _ => rfl) (fun _ _ _ _ => rfl) s x
@[simp] theorem State.raiseSafety_banks (s : State) (x : Nat) : (s.raiseSafety x).banks = s.banks :=
  State.raiseSafety_field (·.banks) (fun _ _ => rfl) (fun _ _ _ _ => rfl) s x
@[simp] theorem State.raiseSafety_mig (s : State) (x : Nat) : (s.raiseSafety x).mig = s.mig :=
  State.raiseSafety_field (·.mig) (fun _ _ => rfl) (fun _ _ _ _ => rfl) s x
@[simp] theorem State.raiseSafety_lossLog (s : State) (x : Nat) : (s.raiseSafety x).lossLog = s.lossLog :=
  State.raiseSafety_field (·.lossLog) (fun _ _ => rfl) (fun _ _ _ _ => rfl) s x
@[simp] theorem State.raiseSafety_vectors (s : State) (x : Nat) : (s.raiseSafety x).vectors = s.vectors :=
  State.raiseSafety_field (·.vectors) (fun _ _ => rfl) (fun _ _ _ _ => rfl) s x
@[simp] theorem State.raiseSafety_jig (s : State) (x : Nat) : (s.raiseSafety x).jig = s.jig :=
  State.raiseSafety_field (·.jig) (fun _ _ => rfl) (fun _ _ _ _ => rfl) s x
@[simp] theorem State.raiseSafety_log (s : State) (x : Nat) : (s.raiseSafety x).log = s.log :=
  State.raiseSafety_field (·.log) (fun _ _ => rfl) (fun _ _ _ _ => rfl) s x
@[simp] theorem State.raiseSafety_due (s : State) (x : Nat) : (s.raiseSafety x).due = s.due :=
  State.raiseSafety_field (·.due) (fun _ _ => rfl) (fun _ _ _ _ => rfl) s x
@[simp] theorem State.raiseSafety_safePin (s : State) (x : Nat) : (s.raiseSafety x).safePin = s.safePin :=
  State.raiseSafety_field (·.safePin) (fun _ _ => rfl) (fun _ _ _ _ => rfl) s x
@[simp] theorem State.raiseSafety_boot (s : State) (x : Nat) : (s.raiseSafety x).boot = s.boot :=
  State.raiseSafety_field (·.boot) (fun _ _ => rfl) (fun _ _ _ _ => rfl) s x
@[simp] theorem State.raiseSafety_umv (s : State) (x : Nat) : (s.raiseSafety x).umv = s.umv :=
  State.raiseSafety_field (·.umv) (fun _ _ => rfl) (fun _ _ _ _ => rfl) s x
@[simp] theorem State.raiseSafety_tb (s : State) (x : Nat) : (s.raiseSafety x).tb = s.tb :=
  State.raiseSafety_field (·.tb) (fun _ _ => rfl) (fun _ _ _ _ => rfl) s x
@[simp] theorem State.raiseSafety_tns (s : State) (x : Nat) : (s.raiseSafety x).tns = s.tns :=
  State.raiseSafety_field (·.tns) (fun _ _ => rfl) (fun _ _ _ _ => rfl) s x
@[simp] theorem State.raiseSafety_latent (s : State) (x : Nat) : (s.raiseSafety x).latent = s.latent :=
  State.raiseSafety_field (·.latent) (fun _ _ => rfl) (fun _ _ _ _ => rfl) s x
@[simp] theorem State.raiseSafety_port (s : State) (x : Nat) (z : Nat) : (s.raiseSafety x).port z = s.port z :=
  State.raiseSafety_field (·.port z) (fun _ _ => rfl) (fun _ _ _ _ => rfl) s x
@[simp] theorem State.raiseSafety_slice (s : State) (x : Nat) (z : Nat) : (s.raiseSafety x).slice z = s.slice z :=
  State.raiseSafety_field (·.slice z) (fun _ _ => rfl) (fun _ _ _ _ => rfl) s x
@[simp] theorem State.raiseSafety_srole (s : State) (x : Nat) (z : Nat) : (s.raiseSafety x).srole z = s.srole z :=
  State.raiseSafety_field (·.srole z) (fun _ _ => rfl) (fun _ _ _ _ => rfl) s x
@[simp] theorem State.raiseSafety_lsl (s : State) (x : Nat) (z : Nat) : (s.raiseSafety x).lsl z = s.lsl z :=
  State.raiseSafety_field (·.lsl z) (fun _ _ => rfl) (fun _ _ _ _ => rfl) s x
theorem State.raiseSafety_fget (s : State) (x : Nat) (g : Fld) (i j : Nat)
    (h : Fld.allApart [F.EVG_DROP_FULL] (g.addr i j) g.lsb g.wid = true) (hg : g.lsb + g.wid ≤ 32) :
    (s.raiseSafety x).fget g i j = s.fget g i j :=
  State.raiseSafety_field (·.fget g i j) (fun _ _ => rfl) (fun s v n m => State.fget_fset_apart s v n m i j (Fld.allApart_mem h (f := F.EVG_DROP_FULL) (by simp)) hg) s x

theorem State.send_field {α : Type} (get : State → α)
    (hports : ∀ (s : State) x, get { s with ports := x } = get s)
    (hslices : ∀ (s : State) x, get { s with slices := x } = get s)
    (k0 : ∀ (s : State) v n m, get (s.fset F.PRT_RT_DROPCNT_NOROUTE v n m) = get s) (s : State) (m : Msg) :
    get (s.send m) = get s := by
  have esendOn := State.sendOn_field get hports
  have estartTimer := State.startTimer_field get hslices
  unfold State.send
  split
  · exact esendOn _ _ _
  · exact (estartTimer _ _).trans (k0 _ _ _ _)

@[simp] theorem State.send_now (s : State) (m : Msg) : (s.send m).now = s.now :=
  State.send_field (·.now) (fun _ _ => rfl) (fun _ _ => rfl) (fun _ _ _ _ => rfl) s m
@[simp] theorem State.send_pat (s : State) (m : Msg) : (s.send m).pat = s.pat :=
  State.send_field (·.pat) (fun _ _ => rfl) (fun _ _ => rfl) (fun _ _ _ _ => rfl) s m
@[simp] theorem State.send_roles (s : State) (m : Msg) : (s.send m).roles = s.roles :=
  State.send_field (·.roles) (fun _ _ => rfl) (fun _ _ => rfl) (fun _ _ _ _ => rfl) s m
@[simp] theorem State.send_logic (s : State) (m : Msg) : (s.send m).logic = s.logic :=
  State.send_field (·.logic) (fun _ _ => rfl) (fun _ _ => rfl) (fun _ _ _ _ => rfl) s m
@[simp] theorem State.send_wins (s : State) (m : Msg) : (s.send m).wins = s.wins :=
  State.send_field (·.wins) (fun _ _ => rfl) (fun _ _ => rfl) (fun _ _ _ _ => rfl) s m
@[simp] theorem State.send_banks (s : State) (m : Msg) : (s.send m).banks = s.banks :=
  State.send_field (·.banks) (fun _ _ => rfl) (fun _ _ => rfl) (fun _ _ _ _ => rfl) s m
@[simp] theorem State.send_mig (s : State) (m : Msg) : (s.send m).mig = s.mig :=
  State.send_field (·.mig) (fun _ _ => rfl) (fun _ _ => rfl) (fun _ _ _ _ => rfl) s m
@[simp] theorem State.send_lossLog (s : State) (m : Msg) : (s.send m).lossLog = s.lossLog :=
  State.send_field (·.lossLog) (fun _ _ => rfl) (fun _ _ => rfl) (fun _ _ _ _ => rfl) s m
@[simp] theorem State.send_sources (s : State) (m : Msg) : (s.send m).sources = s.sources :=
  State.send_field (·.sources) (fun _ _ => rfl) (fun _ _ => rfl) (fun _ _ _ _ => rfl) s m
@[simp] theorem State.send_vectors (s : State) (m : Msg) : (s.send m).vectors = s.vectors :=
  State.send_field (·.vectors) (fun _ _ => rfl) (fun _ _ => rfl) (fun _ _ _ _ => rfl) s m
@[simp] theorem State.send_jig (s : State) (m : Msg) : (s.send m).jig = s.jig :=
  State.send_field (·.jig) (fun _ _ => rfl) (fun _ _ => rfl) (fun _ _ _ _ => rfl) s m
@[simp] theorem State.send_log (s : State) (m : Msg) : (s.send m).log = s.log :=
  State.send_field (·.log) (fun _ _ => rfl) (fun _ _ => rfl) (fun _ _ _ _ => rfl) s m
@[simp] theorem State.send_due (s : State) (m : Msg) : (s.send m).due = s.due :=
  State.send_field (·.due) (fun _ _ => rfl) (fun _ _ => rfl) (fun _ _ _ _ => rfl) s m
@[simp] theorem State.send_safePin (s : State) (m : Msg) : (s.send m).safePin = s.safePin :=
  State.send_field (·.safePin) (fun _ _ => rfl) (fun _ _ => rfl) (fun _ _ _ _ => rfl) s m
@[simp] theorem State.send_boot (s : State) (m : Msg) : (s.send m).boot = s.boot :=
  State.send_field (·.boot) (fun _ _ => rfl) (fun _ _ => rfl) (fun _ _ _ _ => rfl) s m
@[simp] theorem State.send_umv (s : State) (m : Msg) : (s.send m).umv = s.umv :=
  State.send_field (·.umv) (fun _ _ => rfl) (fun _ _ => rfl) (fun _ _ _ _ => rfl) s m
@[simp] theorem State.send_tb (s : State) (m : Msg) : (s.send m).tb = s.tb :=
  State.send_field (·.tb) (fun _ _ => rfl) (fun _ _ => rfl) (fun _ _ _ _ => rfl) s m
@[simp] theorem State.send_tns (s : State) (m : Msg) : (s.send m).tns = s.tns :=
  State.send_field (·.tns) (fun _ _ => rfl) (fun _ _ => rfl) (fun _ _ _ _ => rfl) s m
@[simp] theorem State.send_latent (s : State) (m : Msg) : (s.send m).latent = s.latent :=
  State.send_field (·.latent) (fun _ _ => rfl) (fun _ _ => rfl) (fun _ _ _ _ => rfl) s m
@[simp] theorem State.send_srole (s : State) (m : Msg) (z : Nat) : (s.send m).srole z = s.srole z :=
  State.send_field (·.srole z) (fun _ _ => rfl) (fun _ _ => rfl) (fun _ _ _ _ => rfl) s m
@[simp] theorem State.send_lsl (s : State) (m : Msg) (z : Nat) : (s.send m).lsl z = s.lsl z :=
  State.send_field (·.lsl z) (fun _ _ => rfl) (fun _ _ => rfl) (fun _ _ _ _ => rfl) s m
theorem State.send_fget (s : State) (m : Msg) (g : Fld) (i j : Nat)
    (h : Fld.allApart [F.PRT_RT_DROPCNT_NOROUTE] (g.addr i j) g.lsb g.wid = true) (hg : g.lsb + g.wid ≤ 32) :
    (s.send m).fget g i j = s.fget g i j :=
  State.send_field (·.fget g i j) (fun _ _ => rfl) (fun _ _ => rfl) (fun s v n m => State.fget_fset_apart s v n m i j (Fld.allApart_mem h (f := F.PRT_RT_DROPCNT_NOROUTE) (by simp)) hg) s m

theorem State.notice_field {α : Type} (get : State → α)
    (hports : ∀ (s : State) x, get { s with ports := x } = get s)
    (hslices : ∀ (s : State) x, get { s with slices := x } = get s)
    (k0 : ∀ (s : State) v n m, get (s.fset F.SAF_NOTICE_COUNT v n m) = get s)
    (k1 : ∀ (s : State) v n m, get (s.fset F.PRT_RT_DROPCNT_NOROUTE v n m) = get s) (s : State) (x : Notice) :
    get (s.notice x) = get s := by
  have esend := State.send_field get hports hslices k1
  unfold State.notice
  split
  · rfl
  · exact (esend _ _).trans (k0 _ _ _ _)

@[simp] theorem State.notice_now (s : State) (x : Notice) : (s.notice x).now = s.now :=
  State.notice_field (·.now) (fun _ _ => rfl) (fun _ _ => rfl) (fun _ _ _ _ => rfl) (fun _ _ _ _ => rfl) s x
@[simp] theorem State.notice_pat (s : State) (x : Notice) : (s.notice x).pat = s.pat :=
  State.notice_field (·.pat) (fun _ _ => rfl) (fun _ _ => rfl) (fun _ _ _ _ => rfl) (fun _ _ _ _ => rfl) s x
@[simp] theorem State.notice_roles (s : State) (x : Notice) : (s.notice x).roles = s.roles :=
  State.notice_field (·.roles) (fun _ _ => rfl) (fun _ _ => rfl) (fun _ _ _ _ => rfl) (fun _ _ _ _ => rfl) s x
@[simp] theorem State.notice_logic (s : State) (x : Notice) : (s.notice x).logic = s.logic :=
  State.notice_field (·.logic) (fun _ _ => rfl) (fun _ _ => rfl) (fun _ _ _ _ => rfl) (fun _ _ _ _ => rfl) s x
@[simp] theorem State.notice_wins (s : State) (x : Notice) : (s.notice x).wins = s.wins :=
  State.notice_field (·.wins) (fun _ _ => rfl) (fun _ _ => rfl) (fun _ _ _ _ => rfl) (fun _ _ _ _ => rfl) s x
@[simp] theorem State.notice_banks (s : State) (x : Notice) : (s.notice x).banks = s.banks :=
  State.notice_field (·.banks) (fun _ _ => rfl) (fun _ _ => rfl) (fun _ _ _ _ => rfl) (fun _ _ _ _ => rfl) s x
@[simp] theorem State.notice_mig (s : State) (x : Notice) : (s.notice x).mig = s.mig :=
  State.notice_field (·.mig) (fun _ _ => rfl) (fun _ _ => rfl) (fun _ _ _ _ => rfl) (fun _ _ _ _ => rfl) s x
@[simp] theorem State.notice_lossLog (s : State) (x : Notice) : (s.notice x).lossLog = s.lossLog :=
  State.notice_field (·.lossLog) (fun _ _ => rfl) (fun _ _ => rfl) (fun _ _ _ _ => rfl) (fun _ _ _ _ => rfl) s x
@[simp] theorem State.notice_sources (s : State) (x : Notice) : (s.notice x).sources = s.sources :=
  State.notice_field (·.sources) (fun _ _ => rfl) (fun _ _ => rfl) (fun _ _ _ _ => rfl) (fun _ _ _ _ => rfl) s x
@[simp] theorem State.notice_vectors (s : State) (x : Notice) : (s.notice x).vectors = s.vectors :=
  State.notice_field (·.vectors) (fun _ _ => rfl) (fun _ _ => rfl) (fun _ _ _ _ => rfl) (fun _ _ _ _ => rfl) s x
@[simp] theorem State.notice_jig (s : State) (x : Notice) : (s.notice x).jig = s.jig :=
  State.notice_field (·.jig) (fun _ _ => rfl) (fun _ _ => rfl) (fun _ _ _ _ => rfl) (fun _ _ _ _ => rfl) s x
@[simp] theorem State.notice_log (s : State) (x : Notice) : (s.notice x).log = s.log :=
  State.notice_field (·.log) (fun _ _ => rfl) (fun _ _ => rfl) (fun _ _ _ _ => rfl) (fun _ _ _ _ => rfl) s x
@[simp] theorem State.notice_due (s : State) (x : Notice) : (s.notice x).due = s.due :=
  State.notice_field (·.due) (fun _ _ => rfl) (fun _ _ => rfl) (fun _ _ _ _ => rfl) (fun _ _ _ _ => rfl) s x
@[simp] theorem State.notice_safePin (s : State) (x : Notice) : (s.notice x).safePin = s.safePin :=
  State.notice_field (·.safePin) (fun _ _ => rfl) (fun _ _ => rfl) (fun _ _ _ _ => rfl) (fun _ _ _ _ => rfl) s x
@[simp] theorem State.notice_boot (s : State) (x : Notice) : (s.notice x).boot = s.boot :=
  State.notice_field (·.boot) (fun _ _ => rfl) (fun _ _ => rfl) (fun _ _ _ _ => rfl) (fun _ _ _ _ => rfl) s x
@[simp] theorem State.notice_umv (s : State) (x : Notice) : (s.notice x).umv = s.umv :=
  State.notice_field (·.umv) (fun _ _ => rfl) (fun _ _ => rfl) (fun _ _ _ _ => rfl) (fun _ _ _ _ => rfl) s x
@[simp] theorem State.notice_tb (s : State) (x : Notice) : (s.notice x).tb = s.tb :=
  State.notice_field (·.tb) (fun _ _ => rfl) (fun _ _ => rfl) (fun _ _ _ _ => rfl) (fun _ _ _ _ => rfl) s x
@[simp] theorem State.notice_tns (s : State) (x : Notice) : (s.notice x).tns = s.tns :=
  State.notice_field (·.tns) (fun _ _ => rfl) (fun _ _ => rfl) (fun _ _ _ _ => rfl) (fun _ _ _ _ => rfl) s x
@[simp] theorem State.notice_latent (s : State) (x : Notice) : (s.notice x).latent = s.latent :=
  State.notice_field (·.latent) (fun _ _ => rfl) (fun _ _ => rfl) (fun _ _ _ _ => rfl) (fun _ _ _ _ => rfl) s x
@[simp] theorem State.notice_srole (s : State) (x : Notice) (z : Nat) : (s.notice x).srole z = s.srole z :=
  State.notice_field (·.srole z) (fun _ _ => rfl) (fun _ _ => rfl) (fun _ _ _ _ => rfl) (fun _ _ _ _ => rfl) s x
@[simp] theorem State.notice_lsl (s : State) (x : Notice) (z : Nat) : (s.notice x).lsl z = s.lsl z :=
  State.notice_field (·.lsl z) (fun _ _ => rfl) (fun _ _ => rfl) (fun _ _ _ _ => rfl) (fun _ _ _ _ => rfl) s x
theorem State.notice_fget (s : State) (x : Notice) (g : Fld) (i j : Nat)
    (h : Fld.allApart [F.SAF_NOTICE_COUNT, F.PRT_RT_DROPCNT_NOROUTE] (g.addr i j) g.lsb g.wid = true) (hg : g.lsb + g.wid ≤ 32) :
    (s.notice x).fget g i j = s.fget g i j :=
  State.notice_field (·.fget g i j) (fun _ _ => rfl) (fun _ _ => rfl) (fun s v n m => State.fget_fset_apart s v n m i j (Fld.allApart_mem h (f := F.SAF_NOTICE_COUNT) (by simp)) hg) (fun s v n m => State.fget_fset_apart s v n m i j (Fld.allApart_mem h (f := F.PRT_RT_DROPCNT_NOROUTE) (by simp)) hg) s x

theorem State.logEntry_field {α : Type} (get : State → α)
    (hlog : ∀ (s : State) x, get { s with log := x } = get s)
    (hdropArm : ∀ (s : State) x, get { s with dropArm := x } = get s)
    (hsources : ∀ (s : State) x, get { s with sources := x } = get s)
    (k0 : ∀ (s : State) v n m, get (s.fset F.SAF_LOG_STAT_DROPPED v n m) = get s)
    (k1 : ∀ (s : State) v n m, get (s.fset F.EVG_DROP_FULL v n m) = get s) (s : State) (e : LogEntry) :
    get (s.logEntry e) = get s := by
  have eraiseSafety := State.raiseSafety_field get hsources k1
  unfold State.logEntry; dsimp only
  split
  · exact hlog _ _
  · split
    · exact hlog _ _
    · split
      · exact (eraiseSafety _ _).trans ((hdropArm _ _).trans (k0 _ _ _ _))
      · exact k0 _ _ _ _

@[simp] theorem State.logEntry_now (s : State) (e : LogEntry) : (s.logEntry e).now = s.now :=
  State.logEntry_field (·.now) (fun _ _ => rfl) (fun _ _ => rfl) (fun _ _ => rfl) (fun _ _ _ _ => rfl) (fun _ _ _ _ => rfl) s e
@[simp] theorem State.logEntry_pat (s : State) (e : LogEntry) : (s.logEntry e).pat = s.pat :=
  State.logEntry_field (·.pat) (fun _ _ => rfl) (fun _ _ => rfl) (fun _ _ => rfl) (fun _ _ _ _ => rfl) (fun _ _ _ _ => rfl) s e
@[simp] theorem State.logEntry_roles (s : State) (e : LogEntry) : (s.logEntry e).roles = s.roles :=
  State.logEntry_field (·.roles) (fun _ _ => rfl) (fun _ _ => rfl) (fun _ _ => rfl) (fun _ _ _ _ => rfl) (fun _ _ _ _ => rfl) s e
@[simp] theorem State.logEntry_logic (s : State) (e : LogEntry) : (s.logEntry e).logic = s.logic :=
  State.logEntry_field (·.logic) (fun _ _ => rfl) (fun _ _ => rfl) (fun _ _ => rfl) (fun _ _ _ _ => rfl) (fun _ _ _ _ => rfl) s e
@[simp] theorem State.logEntry_ports (s : State) (e : LogEntry) : (s.logEntry e).ports = s.ports :=
  State.logEntry_field (·.ports) (fun _ _ => rfl) (fun _ _ => rfl) (fun _ _ => rfl) (fun _ _ _ _ => rfl) (fun _ _ _ _ => rfl) s e
@[simp] theorem State.logEntry_slices (s : State) (e : LogEntry) : (s.logEntry e).slices = s.slices :=
  State.logEntry_field (·.slices) (fun _ _ => rfl) (fun _ _ => rfl) (fun _ _ => rfl) (fun _ _ _ _ => rfl) (fun _ _ _ _ => rfl) s e
@[simp] theorem State.logEntry_wins (s : State) (e : LogEntry) : (s.logEntry e).wins = s.wins :=
  State.logEntry_field (·.wins) (fun _ _ => rfl) (fun _ _ => rfl) (fun _ _ => rfl) (fun _ _ _ _ => rfl) (fun _ _ _ _ => rfl) s e
@[simp] theorem State.logEntry_banks (s : State) (e : LogEntry) : (s.logEntry e).banks = s.banks :=
  State.logEntry_field (·.banks) (fun _ _ => rfl) (fun _ _ => rfl) (fun _ _ => rfl) (fun _ _ _ _ => rfl) (fun _ _ _ _ => rfl) s e
@[simp] theorem State.logEntry_mig (s : State) (e : LogEntry) : (s.logEntry e).mig = s.mig :=
  State.logEntry_field (·.mig) (fun _ _ => rfl) (fun _ _ => rfl) (fun _ _ => rfl) (fun _ _ _ _ => rfl) (fun _ _ _ _ => rfl) s e
@[simp] theorem State.logEntry_lossLog (s : State) (e : LogEntry) : (s.logEntry e).lossLog = s.lossLog :=
  State.logEntry_field (·.lossLog) (fun _ _ => rfl) (fun _ _ => rfl) (fun _ _ => rfl) (fun _ _ _ _ => rfl) (fun _ _ _ _ => rfl) s e
@[simp] theorem State.logEntry_vectors (s : State) (e : LogEntry) : (s.logEntry e).vectors = s.vectors :=
  State.logEntry_field (·.vectors) (fun _ _ => rfl) (fun _ _ => rfl) (fun _ _ => rfl) (fun _ _ _ _ => rfl) (fun _ _ _ _ => rfl) s e
@[simp] theorem State.logEntry_jig (s : State) (e : LogEntry) : (s.logEntry e).jig = s.jig :=
  State.logEntry_field (·.jig) (fun _ _ => rfl) (fun _ _ => rfl) (fun _ _ => rfl) (fun _ _ _ _ => rfl) (fun _ _ _ _ => rfl) s e
@[simp] theorem State.logEntry_due (s : State) (e : LogEntry) : (s.logEntry e).due = s.due :=
  State.logEntry_field (·.due) (fun _ _ => rfl) (fun _ _ => rfl) (fun _ _ => rfl) (fun _ _ _ _ => rfl) (fun _ _ _ _ => rfl) s e
@[simp] theorem State.logEntry_safePin (s : State) (e : LogEntry) : (s.logEntry e).safePin = s.safePin :=
  State.logEntry_field (·.safePin) (fun _ _ => rfl) (fun _ _ => rfl) (fun _ _ => rfl) (fun _ _ _ _ => rfl) (fun _ _ _ _ => rfl) s e
@[simp] theorem State.logEntry_boot (s : State) (e : LogEntry) : (s.logEntry e).boot = s.boot :=
  State.logEntry_field (·.boot) (fun _ _ => rfl) (fun _ _ => rfl) (fun _ _ => rfl) (fun _ _ _ _ => rfl) (fun _ _ _ _ => rfl) s e
@[simp] theorem State.logEntry_umv (s : State) (e : LogEntry) : (s.logEntry e).umv = s.umv :=
  State.logEntry_field (·.umv) (fun _ _ => rfl) (fun _ _ => rfl) (fun _ _ => rfl) (fun _ _ _ _ => rfl) (fun _ _ _ _ => rfl) s e
@[simp] theorem State.logEntry_tb (s : State) (e : LogEntry) : (s.logEntry e).tb = s.tb :=
  State.logEntry_field (·.tb) (fun _ _ => rfl) (fun _ _ => rfl) (fun _ _ => rfl) (fun _ _ _ _ => rfl) (fun _ _ _ _ => rfl) s e
@[simp] theorem State.logEntry_tns (s : State) (e : LogEntry) : (s.logEntry e).tns = s.tns :=
  State.logEntry_field (·.tns) (fun _ _ => rfl) (fun _ _ => rfl) (fun _ _ => rfl) (fun _ _ _ _ => rfl) (fun _ _ _ _ => rfl) s e
@[simp] theorem State.logEntry_latent (s : State) (e : LogEntry) : (s.logEntry e).latent = s.latent :=
  State.logEntry_field (·.latent) (fun _ _ => rfl) (fun _ _ => rfl) (fun _ _ => rfl) (fun _ _ _ _ => rfl) (fun _ _ _ _ => rfl) s e
@[simp] theorem State.logEntry_port (s : State) (e : LogEntry) (z : Nat) : (s.logEntry e).port z = s.port z :=
  State.logEntry_field (·.port z) (fun _ _ => rfl) (fun _ _ => rfl) (fun _ _ => rfl) (fun _ _ _ _ => rfl) (fun _ _ _ _ => rfl) s e
@[simp] theorem State.logEntry_slice (s : State) (e : LogEntry) (z : Nat) : (s.logEntry e).slice z = s.slice z :=
  State.logEntry_field (·.slice z) (fun _ _ => rfl) (fun _ _ => rfl) (fun _ _ => rfl) (fun _ _ _ _ => rfl) (fun _ _ _ _ => rfl) s e
@[simp] theorem State.logEntry_srole (s : State) (e : LogEntry) (z : Nat) : (s.logEntry e).srole z = s.srole z :=
  State.logEntry_field (·.srole z) (fun _ _ => rfl) (fun _ _ => rfl) (fun _ _ => rfl) (fun _ _ _ _ => rfl) (fun _ _ _ _ => rfl) s e
@[simp] theorem State.logEntry_lsl (s : State) (e : LogEntry) (z : Nat) : (s.logEntry e).lsl z = s.lsl z :=
  State.logEntry_field (·.lsl z) (fun _ _ => rfl) (fun _ _ => rfl) (fun _ _ => rfl) (fun _ _ _ _ => rfl) (fun _ _ _ _ => rfl) s e
theorem State.logEntry_fget (s : State) (e : LogEntry) (g : Fld) (i j : Nat)
    (h : Fld.allApart [F.SAF_LOG_STAT_DROPPED, F.EVG_DROP_FULL] (g.addr i j) g.lsb g.wid = true) (hg : g.lsb + g.wid ≤ 32) :
    (s.logEntry e).fget g i j = s.fget g i j :=
  State.logEntry_field (·.fget g i j) (fun _ _ => rfl) (fun _ _ => rfl) (fun _ _ => rfl) (fun s v n m => State.fget_fset_apart s v n m i j (Fld.allApart_mem h (f := F.SAF_LOG_STAT_DROPPED) (by simp)) hg) (fun s v n m => State.fget_fset_apart s v n m i j (Fld.allApart_mem h (f := F.EVG_DROP_FULL) (by simp)) hg) s e

theorem State.enterSafe_field {α : Type} (get : State → α)
    (hsafePin : ∀ (s : State) x, get { s with safePin := x } = get s)
    (hsources : ∀ (s : State) x, get { s with sources := x } = get s)
    (hdue : ∀ (s : State) x, get { s with due := x } = get s)
    (k0 : ∀ (s : State) v n m, get (s.fset F.SAF_STATUS_SAFE v n m) = get s)
    (k1 : ∀ (s : State) v n m, get (s.fset F.SAF_STATUS_SAFE_CAUSE v n m) = get s)
    (k2 : ∀ (s : State) v n m, get (s.fset F.EVG_DROP_FULL v n m) = get s) (s : State) (c : BitVec 8) :
    get (s.enterSafe c) = get s := by
  have ereact := State.react_field get hdue
  have eraiseSafety := State.raiseSafety_field get hsources k2
  unfold State.enterSafe; dsimp only
  split
  · rfl
  · exact (ereact _ _).trans ((eraiseSafety _ _).trans ((hsafePin _ _).trans ((k1 _ _ _ _).trans (k0 _ _ _ _))))

@[simp] theorem State.enterSafe_now (s : State) (c : BitVec 8) : (s.enterSafe c).now = s.now :=
  State.enterSafe_field (·.now) (fun _ _ => rfl) (fun _ _ => rfl) (fun _ _ => rfl) (fun _ _ _ _ => rfl) (fun _ _ _ _ => rfl) (fun _ _ _ _ => rfl) s c
@[simp] theorem State.enterSafe_pat (s : State) (c : BitVec 8) : (s.enterSafe c).pat = s.pat :=
  State.enterSafe_field (·.pat) (fun _ _ => rfl) (fun _ _ => rfl) (fun _ _ => rfl) (fun _ _ _ _ => rfl) (fun _ _ _ _ => rfl) (fun _ _ _ _ => rfl) s c
@[simp] theorem State.enterSafe_roles (s : State) (c : BitVec 8) : (s.enterSafe c).roles = s.roles :=
  State.enterSafe_field (·.roles) (fun _ _ => rfl) (fun _ _ => rfl) (fun _ _ => rfl) (fun _ _ _ _ => rfl) (fun _ _ _ _ => rfl) (fun _ _ _ _ => rfl) s c
@[simp] theorem State.enterSafe_logic (s : State) (c : BitVec 8) : (s.enterSafe c).logic = s.logic :=
  State.enterSafe_field (·.logic) (fun _ _ => rfl) (fun _ _ => rfl) (fun _ _ => rfl) (fun _ _ _ _ => rfl) (fun _ _ _ _ => rfl) (fun _ _ _ _ => rfl) s c
@[simp] theorem State.enterSafe_ports (s : State) (c : BitVec 8) : (s.enterSafe c).ports = s.ports :=
  State.enterSafe_field (·.ports) (fun _ _ => rfl) (fun _ _ => rfl) (fun _ _ => rfl) (fun _ _ _ _ => rfl) (fun _ _ _ _ => rfl) (fun _ _ _ _ => rfl) s c
@[simp] theorem State.enterSafe_slices (s : State) (c : BitVec 8) : (s.enterSafe c).slices = s.slices :=
  State.enterSafe_field (·.slices) (fun _ _ => rfl) (fun _ _ => rfl) (fun _ _ => rfl) (fun _ _ _ _ => rfl) (fun _ _ _ _ => rfl) (fun _ _ _ _ => rfl) s c
@[simp] theorem State.enterSafe_wins (s : State) (c : BitVec 8) : (s.enterSafe c).wins = s.wins :=
  State.enterSafe_field (·.wins) (fun _ _ => rfl) (fun _ _ => rfl) (fun _ _ => rfl) (fun _ _ _ _ => rfl) (fun _ _ _ _ => rfl) (fun _ _ _ _ => rfl) s c
@[simp] theorem State.enterSafe_banks (s : State) (c : BitVec 8) : (s.enterSafe c).banks = s.banks :=
  State.enterSafe_field (·.banks) (fun _ _ => rfl) (fun _ _ => rfl) (fun _ _ => rfl) (fun _ _ _ _ => rfl) (fun _ _ _ _ => rfl) (fun _ _ _ _ => rfl) s c
@[simp] theorem State.enterSafe_mig (s : State) (c : BitVec 8) : (s.enterSafe c).mig = s.mig :=
  State.enterSafe_field (·.mig) (fun _ _ => rfl) (fun _ _ => rfl) (fun _ _ => rfl) (fun _ _ _ _ => rfl) (fun _ _ _ _ => rfl) (fun _ _ _ _ => rfl) s c
@[simp] theorem State.enterSafe_lossLog (s : State) (c : BitVec 8) : (s.enterSafe c).lossLog = s.lossLog :=
  State.enterSafe_field (·.lossLog) (fun _ _ => rfl) (fun _ _ => rfl) (fun _ _ => rfl) (fun _ _ _ _ => rfl) (fun _ _ _ _ => rfl) (fun _ _ _ _ => rfl) s c
@[simp] theorem State.enterSafe_vectors (s : State) (c : BitVec 8) : (s.enterSafe c).vectors = s.vectors :=
  State.enterSafe_field (·.vectors) (fun _ _ => rfl) (fun _ _ => rfl) (fun _ _ => rfl) (fun _ _ _ _ => rfl) (fun _ _ _ _ => rfl) (fun _ _ _ _ => rfl) s c
@[simp] theorem State.enterSafe_jig (s : State) (c : BitVec 8) : (s.enterSafe c).jig = s.jig :=
  State.enterSafe_field (·.jig) (fun _ _ => rfl) (fun _ _ => rfl) (fun _ _ => rfl) (fun _ _ _ _ => rfl) (fun _ _ _ _ => rfl) (fun _ _ _ _ => rfl) s c
@[simp] theorem State.enterSafe_log (s : State) (c : BitVec 8) : (s.enterSafe c).log = s.log :=
  State.enterSafe_field (·.log) (fun _ _ => rfl) (fun _ _ => rfl) (fun _ _ => rfl) (fun _ _ _ _ => rfl) (fun _ _ _ _ => rfl) (fun _ _ _ _ => rfl) s c
@[simp] theorem State.enterSafe_boot (s : State) (c : BitVec 8) : (s.enterSafe c).boot = s.boot :=
  State.enterSafe_field (·.boot) (fun _ _ => rfl) (fun _ _ => rfl) (fun _ _ => rfl) (fun _ _ _ _ => rfl) (fun _ _ _ _ => rfl) (fun _ _ _ _ => rfl) s c
@[simp] theorem State.enterSafe_umv (s : State) (c : BitVec 8) : (s.enterSafe c).umv = s.umv :=
  State.enterSafe_field (·.umv) (fun _ _ => rfl) (fun _ _ => rfl) (fun _ _ => rfl) (fun _ _ _ _ => rfl) (fun _ _ _ _ => rfl) (fun _ _ _ _ => rfl) s c
@[simp] theorem State.enterSafe_tb (s : State) (c : BitVec 8) : (s.enterSafe c).tb = s.tb :=
  State.enterSafe_field (·.tb) (fun _ _ => rfl) (fun _ _ => rfl) (fun _ _ => rfl) (fun _ _ _ _ => rfl) (fun _ _ _ _ => rfl) (fun _ _ _ _ => rfl) s c
@[simp] theorem State.enterSafe_tns (s : State) (c : BitVec 8) : (s.enterSafe c).tns = s.tns :=
  State.enterSafe_field (·.tns) (fun _ _ => rfl) (fun _ _ => rfl) (fun _ _ => rfl) (fun _ _ _ _ => rfl) (fun _ _ _ _ => rfl) (fun _ _ _ _ => rfl) s c
@[simp] theorem State.enterSafe_latent (s : State) (c : BitVec 8) : (s.enterSafe c).latent = s.latent :=
  State.enterSafe_field (·.latent) (fun _ _ => rfl) (fun _ _ => rfl) (fun _ _ => rfl) (fun _ _ _ _ => rfl) (fun _ _ _ _ => rfl) (fun _ _ _ _ => rfl) s c
@[simp] theorem State.enterSafe_port (s : State) (c : BitVec 8) (z : Nat) : (s.enterSafe c).port z = s.port z :=
  State.enterSafe_field (·.port z) (fun _ _ => rfl) (fun _ _ => rfl) (fun _ _ => rfl) (fun _ _ _ _ => rfl) (fun _ _ _ _ => rfl) (fun _ _ _ _ => rfl) s c
@[simp] theorem State.enterSafe_slice (s : State) (c : BitVec 8) (z : Nat) : (s.enterSafe c).slice z = s.slice z :=
  State.enterSafe_field (·.slice z) (fun _ _ => rfl) (fun _ _ => rfl) (fun _ _ => rfl) (fun _ _ _ _ => rfl) (fun _ _ _ _ => rfl) (fun _ _ _ _ => rfl) s c
@[simp] theorem State.enterSafe_srole (s : State) (c : BitVec 8) (z : Nat) : (s.enterSafe c).srole z = s.srole z :=
  State.enterSafe_field (·.srole z) (fun _ _ => rfl) (fun _ _ => rfl) (fun _ _ => rfl) (fun _ _ _ _ => rfl) (fun _ _ _ _ => rfl) (fun _ _ _ _ => rfl) s c
@[simp] theorem State.enterSafe_lsl (s : State) (c : BitVec 8) (z : Nat) : (s.enterSafe c).lsl z = s.lsl z :=
  State.enterSafe_field (·.lsl z) (fun _ _ => rfl) (fun _ _ => rfl) (fun _ _ => rfl) (fun _ _ _ _ => rfl) (fun _ _ _ _ => rfl) (fun _ _ _ _ => rfl) s c
theorem State.enterSafe_fget (s : State) (c : BitVec 8) (g : Fld) (i j : Nat)
    (h : Fld.allApart [F.SAF_STATUS_SAFE, F.SAF_STATUS_SAFE_CAUSE, F.EVG_DROP_FULL] (g.addr i j) g.lsb g.wid = true) (hg : g.lsb + g.wid ≤ 32) :
    (s.enterSafe c).fget g i j = s.fget g i j :=
  State.enterSafe_field (·.fget g i j) (fun _ _ => rfl) (fun _ _ => rfl) (fun _ _ => rfl) (fun s v n m => State.fget_fset_apart s v n m i j (Fld.allApart_mem h (f := F.SAF_STATUS_SAFE) (by simp)) hg) (fun s v n m => State.fget_fset_apart s v n m i j (Fld.allApart_mem h (f := F.SAF_STATUS_SAFE_CAUSE) (by simp)) hg) (fun s v n m => State.fget_fset_apart s v n m i j (Fld.allApart_mem h (f := F.EVG_DROP_FULL) (by simp)) hg) s c

theorem State.safeCause_field {α : Type} (get : State → α)
    (hports : ∀ (s : State) x, get { s with ports := x } = get s)
    (hslices : ∀ (s : State) x, get { s with slices := x } = get s)
    (hlog : ∀ (s : State) x, get { s with log := x } = get s)
    (hdropArm : ∀ (s : State) x, get { s with dropArm := x } = get s)
    (hsources : ∀ (s : State) x, get { s with sources := x } = get s)
    (hsafePin : ∀ (s : State) x, get { s with safePin := x } = get s)
    (hdue : ∀ (s : State) x, get { s with due := x } = get s)
    (k0 : ∀ (s : State) v n m, get (s.fset F.SAF_LOG_STAT_DROPPED v n m) = get s)
    (k1 : ∀ (s : State) v n m, get (s.fset F.EVG_DROP_FULL v n m) = get s)
    (k2 : ∀ (s : State) v n m, get (s.fset F.SAF_NOTICE_COUNT v n m) = get s)
    (k3 : ∀ (s : State) v n m, get (s.fset F.PRT_RT_DROPCNT_NOROUTE v n m) = get s)
    (k4 : ∀ (s : State) v n m, get (s.fset F.SAF_STATUS_SAFE v n m) = get s)
    (k5 : ∀ (s : State) v n m, get (s.fset F.SAF_STATUS_SAFE_CAUSE v n m) = get s) (s : State) (c u : BitVec 8) :
    get (s.safeCause c u) = get s := by
  have eenterSafe := State.enterSafe_field get hsafePin hsources hdue k4 k5 k1
  have enotice := State.notice_field get hports hslices k2 k3
  have elogEntry := State.logEntry_field get hlog hdropArm hsources k0 k1
  unfold State.safeCause
  split
  · rfl
  · exact (eenterSafe _ _).trans ((enotice _ _).trans (elogEntry _ _))

@[simp] theorem State.safeCause_now (s : State) (c u : BitVec 8) : (s.safeCause c u).now = s.now :=
  State.safeCause_field (·.now) (fun _ _ => rfl) (fun _ _ => rfl) (fun _ _ => rfl) (fun _ _ => rfl) (fun _ _ => rfl) (fun _ _ => rfl) (fun _ _ => rfl) (fun _ _ _ _ => rfl) (fun _ _ _ _ => rfl) (fun _ _ _ _ => rfl) (fun _ _ _ _ => rfl) (fun _ _ _ _ => rfl) (fun _ _ _ _ => rfl) s c u
@[simp] theorem State.safeCause_pat (s : State) (c u : BitVec 8) : (s.safeCause c u).pat = s.pat :=
  State.safeCause_field (·.pat) (fun _ _ => rfl) (fun _ _ => rfl) (fun _ _ => rfl) (fun _ _ => rfl) (fun _ _ => rfl) (fun _ _ => rfl) (fun _ _ => rfl) (fun _ _ _ _ => rfl) (fun _ _ _ _ => rfl) (fun _ _ _ _ => rfl) (fun _ _ _ _ => rfl) (fun _ _ _ _ => rfl) (fun _ _ _ _ => rfl) s c u
@[simp] theorem State.safeCause_roles (s : State) (c u : BitVec 8) : (s.safeCause c u).roles = s.roles :=
  State.safeCause_field (·.roles) (fun _ _ => rfl) (fun _ _ => rfl) (fun _ _ => rfl) (fun _ _ => rfl) (fun _ _ => rfl) (fun _ _ => rfl) (fun _ _ => rfl) (fun _ _ _ _ => rfl) (fun _ _ _ _ => rfl) (fun _ _ _ _ => rfl) (fun _ _ _ _ => rfl) (fun _ _ _ _ => rfl) (fun _ _ _ _ => rfl) s c u
@[simp] theorem State.safeCause_logic (s : State) (c u : BitVec 8) : (s.safeCause c u).logic = s.logic :=
  State.safeCause_field (·.logic) (fun _ _ => rfl) (fun _ _ => rfl) (fun _ _ => rfl) (fun _ _ => rfl) (fun _ _ => rfl) (fun _ _ => rfl) (fun _ _ => rfl) (fun _ _ _ _ => rfl) (fun _ _ _ _ => rfl) (fun _ _ _ _ => rfl) (fun _ _ _ _ => rfl) (fun _ _ _ _ => rfl) (fun _ _ _ _ => rfl) s c u
@[simp] theorem State.safeCause_wins (s : State) (c u : BitVec 8) : (s.safeCause c u).wins = s.wins :=
  State.safeCause_field (·.wins) (fun _ _ => rfl) (fun _ _ => rfl) (fun _ _ => rfl) (fun _ _ => rfl) (fun _ _ => rfl) (fun _ _ => rfl) (fun _ _ => rfl) (fun _ _ _ _ => rfl) (fun _ _ _ _ => rfl) (fun _ _ _ _ => rfl) (fun _ _ _ _ => rfl) (fun _ _ _ _ => rfl) (fun _ _ _ _ => rfl) s c u
@[simp] theorem State.safeCause_banks (s : State) (c u : BitVec 8) : (s.safeCause c u).banks = s.banks :=
  State.safeCause_field (·.banks) (fun _ _ => rfl) (fun _ _ => rfl) (fun _ _ => rfl) (fun _ _ => rfl) (fun _ _ => rfl) (fun _ _ => rfl) (fun _ _ => rfl) (fun _ _ _ _ => rfl) (fun _ _ _ _ => rfl) (fun _ _ _ _ => rfl) (fun _ _ _ _ => rfl) (fun _ _ _ _ => rfl) (fun _ _ _ _ => rfl) s c u
@[simp] theorem State.safeCause_mig (s : State) (c u : BitVec 8) : (s.safeCause c u).mig = s.mig :=
  State.safeCause_field (·.mig) (fun _ _ => rfl) (fun _ _ => rfl) (fun _ _ => rfl) (fun _ _ => rfl) (fun _ _ => rfl) (fun _ _ => rfl) (fun _ _ => rfl) (fun _ _ _ _ => rfl) (fun _ _ _ _ => rfl) (fun _ _ _ _ => rfl) (fun _ _ _ _ => rfl) (fun _ _ _ _ => rfl) (fun _ _ _ _ => rfl) s c u
@[simp] theorem State.safeCause_lossLog (s : State) (c u : BitVec 8) : (s.safeCause c u).lossLog = s.lossLog :=
  State.safeCause_field (·.lossLog) (fun _ _ => rfl) (fun _ _ => rfl) (fun _ _ => rfl) (fun _ _ => rfl) (fun _ _ => rfl) (fun _ _ => rfl) (fun _ _ => rfl) (fun _ _ _ _ => rfl) (fun _ _ _ _ => rfl) (fun _ _ _ _ => rfl) (fun _ _ _ _ => rfl) (fun _ _ _ _ => rfl) (fun _ _ _ _ => rfl) s c u
@[simp] theorem State.safeCause_vectors (s : State) (c u : BitVec 8) : (s.safeCause c u).vectors = s.vectors :=
  State.safeCause_field (·.vectors) (fun _ _ => rfl) (fun _ _ => rfl) (fun _ _ => rfl) (fun _ _ => rfl) (fun _ _ => rfl) (fun _ _ => rfl) (fun _ _ => rfl) (fun _ _ _ _ => rfl) (fun _ _ _ _ => rfl) (fun _ _ _ _ => rfl) (fun _ _ _ _ => rfl) (fun _ _ _ _ => rfl) (fun _ _ _ _ => rfl) s c u
@[simp] theorem State.safeCause_jig (s : State) (c u : BitVec 8) : (s.safeCause c u).jig = s.jig :=
  State.safeCause_field (·.jig) (fun _ _ => rfl) (fun _ _ => rfl) (fun _ _ => rfl) (fun _ _ => rfl) (fun _ _ => rfl) (fun _ _ => rfl) (fun _ _ => rfl) (fun _ _ _ _ => rfl) (fun _ _ _ _ => rfl) (fun _ _ _ _ => rfl) (fun _ _ _ _ => rfl) (fun _ _ _ _ => rfl) (fun _ _ _ _ => rfl) s c u
@[simp] theorem State.safeCause_boot (s : State) (c u : BitVec 8) : (s.safeCause c u).boot = s.boot :=
  State.safeCause_field (·.boot) (fun _ _ => rfl) (fun _ _ => rfl) (fun _ _ => rfl) (fun _ _ => rfl) (fun _ _ => rfl) (fun _ _ => rfl) (fun _ _ => rfl) (fun _ _ _ _ => rfl) (fun _ _ _ _ => rfl) (fun _ _ _ _ => rfl) (fun _ _ _ _ => rfl) (fun _ _ _ _ => rfl) (fun _ _ _ _ => rfl) s c u
@[simp] theorem State.safeCause_umv (s : State) (c u : BitVec 8) : (s.safeCause c u).umv = s.umv :=
  State.safeCause_field (·.umv) (fun _ _ => rfl) (fun _ _ => rfl) (fun _ _ => rfl) (fun _ _ => rfl) (fun _ _ => rfl) (fun _ _ => rfl) (fun _ _ => rfl) (fun _ _ _ _ => rfl) (fun _ _ _ _ => rfl) (fun _ _ _ _ => rfl) (fun _ _ _ _ => rfl) (fun _ _ _ _ => rfl) (fun _ _ _ _ => rfl) s c u
@[simp] theorem State.safeCause_tb (s : State) (c u : BitVec 8) : (s.safeCause c u).tb = s.tb :=
  State.safeCause_field (·.tb) (fun _ _ => rfl) (fun _ _ => rfl) (fun _ _ => rfl) (fun _ _ => rfl) (fun _ _ => rfl) (fun _ _ => rfl) (fun _ _ => rfl) (fun _ _ _ _ => rfl) (fun _ _ _ _ => rfl) (fun _ _ _ _ => rfl) (fun _ _ _ _ => rfl) (fun _ _ _ _ => rfl) (fun _ _ _ _ => rfl) s c u
@[simp] theorem State.safeCause_tns (s : State) (c u : BitVec 8) : (s.safeCause c u).tns = s.tns :=
  State.safeCause_field (·.tns) (fun _ _ => rfl) (fun _ _ => rfl) (fun _ _ => rfl) (fun _ _ => rfl) (fun _ _ => rfl) (fun _ _ => rfl) (fun _ _ => rfl) (fun _ _ _ _ => rfl) (fun _ _ _ _ => rfl) (fun _ _ _ _ => rfl) (fun _ _ _ _ => rfl) (fun _ _ _ _ => rfl) (fun _ _ _ _ => rfl) s c u
@[simp] theorem State.safeCause_latent (s : State) (c u : BitVec 8) : (s.safeCause c u).latent = s.latent :=
  State.safeCause_field (·.latent) (fun _ _ => rfl) (fun _ _ => rfl) (fun _ _ => rfl) (fun _ _ => rfl) (fun _ _ => rfl) (fun _ _ => rfl) (fun _ _ => rfl) (fun _ _ _ _ => rfl) (fun _ _ _ _ => rfl) (fun _ _ _ _ => rfl) (fun _ _ _ _ => rfl) (fun _ _ _ _ => rfl) (fun _ _ _ _ => rfl) s c u
@[simp] theorem State.safeCause_srole (s : State) (c u : BitVec 8) (z : Nat) : (s.safeCause c u).srole z = s.srole z :=
  State.safeCause_field (·.srole z) (fun _ _ => rfl) (fun _ _ => rfl) (fun _ _ => rfl) (fun _ _ => rfl) (fun _ _ => rfl) (fun _ _ => rfl) (fun _ _ => rfl) (fun _ _ _ _ => rfl) (fun _ _ _ _ => rfl) (fun _ _ _ _ => rfl) (fun _ _ _ _ => rfl) (fun _ _ _ _ => rfl) (fun _ _ _ _ => rfl) s c u
@[simp] theorem State.safeCause_lsl (s : State) (c u : BitVec 8) (z : Nat) : (s.safeCause c u).lsl z = s.lsl z :=
  State.safeCause_field (·.lsl z) (fun _ _ => rfl) (fun _ _ => rfl) (fun _ _ => rfl) (fun _ _ => rfl) (fun _ _ => rfl) (fun _ _ => rfl) (fun _ _ => rfl) (fun _ _ _ _ => rfl) (fun _ _ _ _ => rfl) (fun _ _ _ _ => rfl) (fun _ _ _ _ => rfl) (fun _ _ _ _ => rfl) (fun _ _ _ _ => rfl) s c u
theorem State.safeCause_fget (s : State) (c u : BitVec 8) (g : Fld) (i j : Nat)
    (h : Fld.allApart [F.SAF_LOG_STAT_DROPPED, F.EVG_DROP_FULL, F.SAF_NOTICE_COUNT, F.PRT_RT_DROPCNT_NOROUTE, F.SAF_STATUS_SAFE, F.SAF_STATUS_SAFE_CAUSE] (g.addr i j) g.lsb g.wid = true) (hg : g.lsb + g.wid ≤ 32) :
    (s.safeCause c u).fget g i j = s.fget g i j :=
  State.safeCause_field (·.fget g i j) (fun _ _ => rfl) (fun _ _ => rfl) (fun _ _ => rfl) (fun _ _ => rfl) (fun _ _ => rfl) (fun _ _ => rfl) (fun _ _ => rfl) (fun s v n m => State.fget_fset_apart s v n m i j (Fld.allApart_mem h (f := F.SAF_LOG_STAT_DROPPED) (by simp)) hg) (fun s v n m => State.fget_fset_apart s v n m i j (Fld.allApart_mem h (f := F.EVG_DROP_FULL) (by simp)) hg) (fun s v n m => State.fget_fset_apart s v n m i j (Fld.allApart_mem h (f := F.SAF_NOTICE_COUNT) (by simp)) hg) (fun s v n m => State.fget_fset_apart s v n m i j (Fld.allApart_mem h (f := F.PRT_RT_DROPCNT_NOROUTE) (by simp)) hg) (fun s v n m => State.fget_fset_apart s v n m i j (Fld.allApart_mem h (f := F.SAF_STATUS_SAFE) (by simp)) hg) (fun s v n m => State.fget_fset_apart s v n m i j (Fld.allApart_mem h (f := F.SAF_STATUS_SAFE_CAUSE) (by simp)) hg) s c u

theorem State.deliver_field {α : Type} (get : State → α)
    (hvectors : ∀ (s : State) x, get { s with vectors := x } = get s)
    (hports : ∀ (s : State) x, get { s with ports := x } = get s)
    (hslices : ∀ (s : State) x, get { s with slices := x } = get s)
    (k0 : ∀ (s : State) v n m, get (s.fset F.PRT_RT_DROPCNT_NOROUTE v n m) = get s) (s : State) (n : Nat) :
    get (s.deliver n) = get s := by
  have emodVec := State.modVec_field get hvectors
  have esend := State.send_field get hports hslices k0
  unfold State.deliver
  dsimp only
  split
  · exact (State.forUp_field get (fun _ _ => emodVec _ _ _) _ _ _).trans ((esend _ _).trans (emodVec _ _ _))
  · exact (esend _ _).trans (emodVec _ _ _)

@[simp] theorem State.deliver_now (s : State) (n : Nat) : (s.deliver n).now = s.now :=
  State.deliver_field (·.now) (fun _ _ => rfl) (fun _ _ => rfl) (fun _ _ => rfl) (fun _ _ _ _ => rfl) s n
@[simp] theorem State.deliver_pat (s : State) (n : Nat) : (s.deliver n).pat = s.pat :=
  State.deliver_field (·.pat) (fun _ _ => rfl) (fun _ _ => rfl) (fun _ _ => rfl) (fun _ _ _ _ => rfl) s n
@[simp] theorem State.deliver_roles (s : State) (n : Nat) : (s.deliver n).roles = s.roles :=
  State.deliver_field (·.roles) (fun _ _ => rfl) (fun _ _ => rfl) (fun _ _ => rfl) (fun _ _ _ _ => rfl) s n
@[simp] theorem State.deliver_logic (s : State) (n : Nat) : (s.deliver n).logic = s.logic :=
  State.deliver_field (·.logic) (fun _ _ => rfl) (fun _ _ => rfl) (fun _ _ => rfl) (fun _ _ _ _ => rfl) s n
@[simp] theorem State.deliver_wins (s : State) (n : Nat) : (s.deliver n).wins = s.wins :=
  State.deliver_field (·.wins) (fun _ _ => rfl) (fun _ _ => rfl) (fun _ _ => rfl) (fun _ _ _ _ => rfl) s n
@[simp] theorem State.deliver_banks (s : State) (n : Nat) : (s.deliver n).banks = s.banks :=
  State.deliver_field (·.banks) (fun _ _ => rfl) (fun _ _ => rfl) (fun _ _ => rfl) (fun _ _ _ _ => rfl) s n
@[simp] theorem State.deliver_mig (s : State) (n : Nat) : (s.deliver n).mig = s.mig :=
  State.deliver_field (·.mig) (fun _ _ => rfl) (fun _ _ => rfl) (fun _ _ => rfl) (fun _ _ _ _ => rfl) s n
@[simp] theorem State.deliver_lossLog (s : State) (n : Nat) : (s.deliver n).lossLog = s.lossLog :=
  State.deliver_field (·.lossLog) (fun _ _ => rfl) (fun _ _ => rfl) (fun _ _ => rfl) (fun _ _ _ _ => rfl) s n
@[simp] theorem State.deliver_sources (s : State) (n : Nat) : (s.deliver n).sources = s.sources :=
  State.deliver_field (·.sources) (fun _ _ => rfl) (fun _ _ => rfl) (fun _ _ => rfl) (fun _ _ _ _ => rfl) s n
@[simp] theorem State.deliver_jig (s : State) (n : Nat) : (s.deliver n).jig = s.jig :=
  State.deliver_field (·.jig) (fun _ _ => rfl) (fun _ _ => rfl) (fun _ _ => rfl) (fun _ _ _ _ => rfl) s n
@[simp] theorem State.deliver_log (s : State) (n : Nat) : (s.deliver n).log = s.log :=
  State.deliver_field (·.log) (fun _ _ => rfl) (fun _ _ => rfl) (fun _ _ => rfl) (fun _ _ _ _ => rfl) s n
@[simp] theorem State.deliver_due (s : State) (n : Nat) : (s.deliver n).due = s.due :=
  State.deliver_field (·.due) (fun _ _ => rfl) (fun _ _ => rfl) (fun _ _ => rfl) (fun _ _ _ _ => rfl) s n
@[simp] theorem State.deliver_safePin (s : State) (n : Nat) : (s.deliver n).safePin = s.safePin :=
  State.deliver_field (·.safePin) (fun _ _ => rfl) (fun _ _ => rfl) (fun _ _ => rfl) (fun _ _ _ _ => rfl) s n
@[simp] theorem State.deliver_boot (s : State) (n : Nat) : (s.deliver n).boot = s.boot :=
  State.deliver_field (·.boot) (fun _ _ => rfl) (fun _ _ => rfl) (fun _ _ => rfl) (fun _ _ _ _ => rfl) s n
@[simp] theorem State.deliver_umv (s : State) (n : Nat) : (s.deliver n).umv = s.umv :=
  State.deliver_field (·.umv) (fun _ _ => rfl) (fun _ _ => rfl) (fun _ _ => rfl) (fun _ _ _ _ => rfl) s n
@[simp] theorem State.deliver_tb (s : State) (n : Nat) : (s.deliver n).tb = s.tb :=
  State.deliver_field (·.tb) (fun _ _ => rfl) (fun _ _ => rfl) (fun _ _ => rfl) (fun _ _ _ _ => rfl) s n
@[simp] theorem State.deliver_tns (s : State) (n : Nat) : (s.deliver n).tns = s.tns :=
  State.deliver_field (·.tns) (fun _ _ => rfl) (fun _ _ => rfl) (fun _ _ => rfl) (fun _ _ _ _ => rfl) s n
@[simp] theorem State.deliver_latent (s : State) (n : Nat) : (s.deliver n).latent = s.latent :=
  State.deliver_field (·.latent) (fun _ _ => rfl) (fun _ _ => rfl) (fun _ _ => rfl) (fun _ _ _ _ => rfl) s n
@[simp] theorem State.deliver_srole (s : State) (n : Nat) (z : Nat) : (s.deliver n).srole z = s.srole z :=
  State.deliver_field (·.srole z) (fun _ _ => rfl) (fun _ _ => rfl) (fun _ _ => rfl) (fun _ _ _ _ => rfl) s n
@[simp] theorem State.deliver_lsl (s : State) (n : Nat) (z : Nat) : (s.deliver n).lsl z = s.lsl z :=
  State.deliver_field (·.lsl z) (fun _ _ => rfl) (fun _ _ => rfl) (fun _ _ => rfl) (fun _ _ _ _ => rfl) s n
theorem State.deliver_fget (s : State) (n : Nat) (g : Fld) (i j : Nat)
    (h : Fld.allApart [F.PRT_RT_DROPCNT_NOROUTE] (g.addr i j) g.lsb g.wid = true) (hg : g.lsb + g.wid ≤ 32) :
    (s.deliver n).fget g i j = s.fget g i j :=
  State.deliver_field (·.fget g i j) (fun _ _ => rfl) (fun _ _ => rfl) (fun _ _ => rfl) (fun s v n m => State.fget_fset_apart s v n m i j (Fld.allApart_mem h (f := F.PRT_RT_DROPCNT_NOROUTE) (by simp)) hg) s n

theorem State.evgServe_field {α : Type} (get : State → α)
    (hvectors : ∀ (s : State) x, get { s with vectors := x } = get s)
    (hports : ∀ (s : State) x, get { s with ports := x } = get s)
    (hslices : ∀ (s : State) x, get { s with slices := x } = get s)
    (k0 : ∀ (s : State) v n m, get (s.fset F.PRT_RT_DROPCNT_NOROUTE v n m) = get s) (s : State) :
    get (s.evgServe) = get s := by
  have edeliver := State.deliver_field get hvectors hports hslices k0
  unfold State.evgServe
  dsimp only
  split
  · rfl
  · refine State.foldl_field get (fun s n => ?_) _ _
    split
    · exact edeliver s n
    · rfl

@[simp] theorem State.evgServe_now (s : State) : (s.evgServe).now = s.now :=
  State.evgServe_field (·.now) (fun _ _ => rfl) (fun _ _ => rfl) (fun _ _ => rfl) (fun _ _ _ _ => rfl) s
@[simp] theorem State.evgServe_pat (s : State) : (s.evgServe).pat = s.pat :=
  State.evgServe_field (·.pat) (fun _ _ => rfl) (fun _ _ => rfl) (fun _ _ => rfl) (fun _ _ _ _ => rfl) s
@[simp] theorem State.evgServe_roles (s : State) : (s.evgServe).roles = s.roles :=
  State.evgServe_field (·.roles) (fun _ _ => rfl) (fun _ _ => rfl) (fun _ _ => rfl) (fun _ _ _ _ => rfl) s
@[simp] theorem State.evgServe_logic (s : State) : (s.evgServe).logic = s.logic :=
  State.evgServe_field (·.logic) (fun _ _ => rfl) (fun _ _ => rfl) (fun _ _ => rfl) (fun _ _ _ _ => rfl) s
@[simp] theorem State.evgServe_wins (s : State) : (s.evgServe).wins = s.wins :=
  State.evgServe_field (·.wins) (fun _ _ => rfl) (fun _ _ => rfl) (fun _ _ => rfl) (fun _ _ _ _ => rfl) s
@[simp] theorem State.evgServe_banks (s : State) : (s.evgServe).banks = s.banks :=
  State.evgServe_field (·.banks) (fun _ _ => rfl) (fun _ _ => rfl) (fun _ _ => rfl) (fun _ _ _ _ => rfl) s
@[simp] theorem State.evgServe_mig (s : State) : (s.evgServe).mig = s.mig :=
  State.evgServe_field (·.mig) (fun _ _ => rfl) (fun _ _ => rfl) (fun _ _ => rfl) (fun _ _ _ _ => rfl) s
@[simp] theorem State.evgServe_lossLog (s : State) : (s.evgServe).lossLog = s.lossLog :=
  State.evgServe_field (·.lossLog) (fun _ _ => rfl) (fun _ _ => rfl) (fun _ _ => rfl) (fun _ _ _ _ => rfl) s
@[simp] theorem State.evgServe_sources (s : State) : (s.evgServe).sources = s.sources :=
  State.evgServe_field (·.sources) (fun _ _ => rfl) (fun _ _ => rfl) (fun _ _ => rfl) (fun _ _ _ _ => rfl) s
@[simp] theorem State.evgServe_jig (s : State) : (s.evgServe).jig = s.jig :=
  State.evgServe_field (·.jig) (fun _ _ => rfl) (fun _ _ => rfl) (fun _ _ => rfl) (fun _ _ _ _ => rfl) s
@[simp] theorem State.evgServe_log (s : State) : (s.evgServe).log = s.log :=
  State.evgServe_field (·.log) (fun _ _ => rfl) (fun _ _ => rfl) (fun _ _ => rfl) (fun _ _ _ _ => rfl) s
@[simp] theorem State.evgServe_due (s : State) : (s.evgServe).due = s.due :=
  State.evgServe_field (·.due) (fun _ _ => rfl) (fun _ _ => rfl) (fun _ _ => rfl) (fun _ _ _ _ => rfl) s
@[simp] theorem State.evgServe_safePin (s : State) : (s.evgServe).safePin = s.safePin :=
  State.evgServe_field (·.safePin) (fun _ _ => rfl) (fun _ _ => rfl) (fun _ _ => rfl) (fun _ _ _ _ => rfl) s
@[simp] theorem State.evgServe_boot (s : State) : (s.evgServe).boot = s.boot :=
  State.evgServe_field (·.boot) (fun _ _ => rfl) (fun _ _ => rfl) (fun _ _ => rfl) (fun _ _ _ _ => rfl) s
@[simp] theorem State.evgServe_umv (s : State) : (s.evgServe).umv = s.umv :=
  State.evgServe_field (·.umv) (fun _ _ => rfl) (fun _ _ => rfl) (fun _ _ => rfl) (fun _ _ _ _ => rfl) s
@[simp] theorem State.evgServe_tb (s : State) : (s.evgServe).tb = s.tb :=
  State.evgServe_field (·.tb) (fun _ _ => rfl) (fun _ _ => rfl) (fun _ _ => rfl) (fun _ _ _ _ => rfl) s
@[simp] theorem State.evgServe_tns (s : State) : (s.evgServe).tns = s.tns :=
  State.evgServe_field (·.tns) (fun _ _ => rfl) (fun _ _ => rfl) (fun _ _ => rfl) (fun _ _ _ _ => rfl) s
@[simp] theorem State.evgServe_latent (s : State) : (s.evgServe).latent = s.latent :=
  State.evgServe_field (·.latent) (fun _ _ => rfl) (fun _ _ => rfl) (fun _ _ => rfl) (fun _ _ _ _ => rfl) s
@[simp] theorem State.evgServe_srole (s : State) (z : Nat) : (s.evgServe).srole z = s.srole z :=
  State.evgServe_field (·.srole z) (fun _ _ => rfl) (fun _ _ => rfl) (fun _ _ => rfl) (fun _ _ _ _ => rfl) s
@[simp] theorem State.evgServe_lsl (s : State) (z : Nat) : (s.evgServe).lsl z = s.lsl z :=
  State.evgServe_field (·.lsl z) (fun _ _ => rfl) (fun _ _ => rfl) (fun _ _ => rfl) (fun _ _ _ _ => rfl) s
theorem State.evgServe_fget (s : State) (g : Fld) (i j : Nat)
    (h : Fld.allApart [F.PRT_RT_DROPCNT_NOROUTE] (g.addr i j) g.lsb g.wid = true) (hg : g.lsb + g.wid ≤ 32) :
    (s.evgServe).fget g i j = s.fget g i j :=
  State.evgServe_field (·.fget g i j) (fun _ _ => rfl) (fun _ _ => rfl) (fun _ _ => rfl) (fun s v n m => State.fget_fset_apart s v n m i j (Fld.allApart_mem h (f := F.PRT_RT_DROPCNT_NOROUTE) (by simp)) hg) s

theorem State.umvLog_field {α : Type} (get : State → α)
    (humv : ∀ (s : State) x, get { s with umv := x } = get s)
    (k0 : ∀ (s : State) v n m, get (s.fset F.WDG_LOG_SEL_HEAD v n m) = get s) (s : State) (c u : Nat) (t : Tenant) (d : Nat) :
    get (s.umvLog c u t d) = get s := by
  unfold State.umvLog; dsimp only
  split
  · rfl
  · exact (k0 _ _ _ _).trans (humv _ _)

@[simp] theorem State.umvLog_now (s : State) (c u : Nat) (t : Tenant) (d : Nat) : (s.umvLog c u t d).now = s.now :=
  State.umvLog_field (·.now) (fun _ _ => rfl) (fun _ _ _ _ => rfl) s c u t d
@[simp] theorem State.umvLog_pat (s : State) (c u : Nat) (t : Tenant) (d : Nat) : (s.umvLog c u t d).pat = s.pat :=
  State.umvLog_field (·.pat) (fun _ _ => rfl) (fun _ _ _ _ => rfl) s c u t d
@[simp] theorem State.umvLog_roles (s : State) (c u : Nat) (t : Tenant) (d : Nat) : (s.umvLog c u t d).roles = s.roles :=
  State.umvLog_field (·.roles) (fun _ _ => rfl) (fun _ _ _ _ => rfl) s c u t d
@[simp] theorem State.umvLog_logic (s : State) (c u : Nat) (t : Tenant) (d : Nat) : (s.umvLog c u t d).logic = s.logic :=
  State.umvLog_field (·.logic) (fun _ _ => rfl) (fun _ _ _ _ => rfl) s c u t d
@[simp] theorem State.umvLog_ports (s : State) (c u : Nat) (t : Tenant) (d : Nat) : (s.umvLog c u t d).ports = s.ports :=
  State.umvLog_field (·.ports) (fun _ _ => rfl) (fun _ _ _ _ => rfl) s c u t d
@[simp] theorem State.umvLog_slices (s : State) (c u : Nat) (t : Tenant) (d : Nat) : (s.umvLog c u t d).slices = s.slices :=
  State.umvLog_field (·.slices) (fun _ _ => rfl) (fun _ _ _ _ => rfl) s c u t d
@[simp] theorem State.umvLog_wins (s : State) (c u : Nat) (t : Tenant) (d : Nat) : (s.umvLog c u t d).wins = s.wins :=
  State.umvLog_field (·.wins) (fun _ _ => rfl) (fun _ _ _ _ => rfl) s c u t d
@[simp] theorem State.umvLog_banks (s : State) (c u : Nat) (t : Tenant) (d : Nat) : (s.umvLog c u t d).banks = s.banks :=
  State.umvLog_field (·.banks) (fun _ _ => rfl) (fun _ _ _ _ => rfl) s c u t d
@[simp] theorem State.umvLog_mig (s : State) (c u : Nat) (t : Tenant) (d : Nat) : (s.umvLog c u t d).mig = s.mig :=
  State.umvLog_field (·.mig) (fun _ _ => rfl) (fun _ _ _ _ => rfl) s c u t d
@[simp] theorem State.umvLog_lossLog (s : State) (c u : Nat) (t : Tenant) (d : Nat) : (s.umvLog c u t d).lossLog = s.lossLog :=
  State.umvLog_field (·.lossLog) (fun _ _ => rfl) (fun _ _ _ _ => rfl) s c u t d
@[simp] theorem State.umvLog_sources (s : State) (c u : Nat) (t : Tenant) (d : Nat) : (s.umvLog c u t d).sources = s.sources :=
  State.umvLog_field (·.sources) (fun _ _ => rfl) (fun _ _ _ _ => rfl) s c u t d
@[simp] theorem State.umvLog_vectors (s : State) (c u : Nat) (t : Tenant) (d : Nat) : (s.umvLog c u t d).vectors = s.vectors :=
  State.umvLog_field (·.vectors) (fun _ _ => rfl) (fun _ _ _ _ => rfl) s c u t d
@[simp] theorem State.umvLog_jig (s : State) (c u : Nat) (t : Tenant) (d : Nat) : (s.umvLog c u t d).jig = s.jig :=
  State.umvLog_field (·.jig) (fun _ _ => rfl) (fun _ _ _ _ => rfl) s c u t d
@[simp] theorem State.umvLog_log (s : State) (c u : Nat) (t : Tenant) (d : Nat) : (s.umvLog c u t d).log = s.log :=
  State.umvLog_field (·.log) (fun _ _ => rfl) (fun _ _ _ _ => rfl) s c u t d
@[simp] theorem State.umvLog_due (s : State) (c u : Nat) (t : Tenant) (d : Nat) : (s.umvLog c u t d).due = s.due :=
  State.umvLog_field (·.due) (fun _ _ => rfl) (fun _ _ _ _ => rfl) s c u t d
@[simp] theorem State.umvLog_safePin (s : State) (c u : Nat) (t : Tenant) (d : Nat) : (s.umvLog c u t d).safePin = s.safePin :=
  State.umvLog_field (·.safePin) (fun _ _ => rfl) (fun _ _ _ _ => rfl) s c u t d
@[simp] theorem State.umvLog_boot (s : State) (c u : Nat) (t : Tenant) (d : Nat) : (s.umvLog c u t d).boot = s.boot :=
  State.umvLog_field (·.boot) (fun _ _ => rfl) (fun _ _ _ _ => rfl) s c u t d
@[simp] theorem State.umvLog_tb (s : State) (c u : Nat) (t : Tenant) (d : Nat) : (s.umvLog c u t d).tb = s.tb :=
  State.umvLog_field (·.tb) (fun _ _ => rfl) (fun _ _ _ _ => rfl) s c u t d
@[simp] theorem State.umvLog_tns (s : State) (c u : Nat) (t : Tenant) (d : Nat) : (s.umvLog c u t d).tns = s.tns :=
  State.umvLog_field (·.tns) (fun _ _ => rfl) (fun _ _ _ _ => rfl) s c u t d
@[simp] theorem State.umvLog_latent (s : State) (c u : Nat) (t : Tenant) (d : Nat) : (s.umvLog c u t d).latent = s.latent :=
  State.umvLog_field (·.latent) (fun _ _ => rfl) (fun _ _ _ _ => rfl) s c u t d
@[simp] theorem State.umvLog_port (s : State) (c u : Nat) (t : Tenant) (d : Nat) (z : Nat) : (s.umvLog c u t d).port z = s.port z :=
  State.umvLog_field (·.port z) (fun _ _ => rfl) (fun _ _ _ _ => rfl) s c u t d
@[simp] theorem State.umvLog_slice (s : State) (c u : Nat) (t : Tenant) (d : Nat) (z : Nat) : (s.umvLog c u t d).slice z = s.slice z :=
  State.umvLog_field (·.slice z) (fun _ _ => rfl) (fun _ _ _ _ => rfl) s c u t d
@[simp] theorem State.umvLog_srole (s : State) (c u : Nat) (t : Tenant) (d : Nat) (z : Nat) : (s.umvLog c u t d).srole z = s.srole z :=
  State.umvLog_field (·.srole z) (fun _ _ => rfl) (fun _ _ _ _ => rfl) s c u t d
@[simp] theorem State.umvLog_lsl (s : State) (c u : Nat) (t : Tenant) (d : Nat) (z : Nat) : (s.umvLog c u t d).lsl z = s.lsl z :=
  State.umvLog_field (·.lsl z) (fun _ _ => rfl) (fun _ _ _ _ => rfl) s c u t d
theorem State.umvLog_fget (s : State) (c u : Nat) (t : Tenant) (d : Nat) (g : Fld) (i j : Nat)
    (h : Fld.allApart [F.WDG_LOG_SEL_HEAD] (g.addr i j) g.lsb g.wid = true) (hg : g.lsb + g.wid ≤ 32) :
    (s.umvLog c u t d).fget g i j = s.fget g i j :=
  State.umvLog_field (·.fget g i j) (fun _ _ => rfl) (fun s v n m => State.fget_fset_apart s v n m i j (Fld.allApart_mem h (f := F.WDG_LOG_SEL_HEAD) (by simp)) hg) s c u t d

theorem State.takeTrap_field {α : Type} (get : State → α)
    (humv : ∀ (s : State) x, get { s with umv := x } = get s)
    (hports : ∀ (s : State) x, get { s with ports := x } = get s)
    (hslices : ∀ (s : State) x, get { s with slices := x } = get s)
    (k0 : ∀ (s : State) v n m, get (s.fset F.WDG_UMV_STATUS_STATE v n m) = get s)
    (k1 : ∀ (s : State) v n m, get (s.fset F.SAF_NOTICE_COUNT v n m) = get s)
    (k2 : ∀ (s : State) v n m, get (s.fset F.PRT_RT_DROPCNT_NOROUTE v n m) = get s)
    (k3 : ∀ (s : State) v n m, get (s.fset F.WDG_LOG_SEL_HEAD v n m) = get s) (s : State) :
    get (s.takeTrap) = get s := by
  have eumvLog := State.umvLog_field get humv k3
  have enotice := State.notice_field get hports hslices k1 k2
  have emodUmv := State.modUmv_field get humv
  unfold State.takeTrap; dsimp only
  split
  · rfl
  · split
    · exact (k0 _ _ _ _).trans (emodUmv _ _)
    · exact (eumvLog _ _ _ _ _).trans ((enotice _ _).trans ((k0 _ _ _ _).trans (emodUmv _ _)))

@[simp] theorem State.takeTrap_now (s : State) : (s.takeTrap).now = s.now :=
  State.takeTrap_field (·.now) (fun _ _ => rfl) (fun _ _ => rfl) (fun _ _ => rfl) (fun _ _ _ _ => rfl) (fun _ _ _ _ => rfl) (fun _ _ _ _ => rfl) (fun _ _ _ _ => rfl) s
@[simp] theorem State.takeTrap_pat (s : State) : (s.takeTrap).pat = s.pat :=
  State.takeTrap_field (·.pat) (fun _ _ => rfl) (fun _ _ => rfl) (fun _ _ => rfl) (fun _ _ _ _ => rfl) (fun _ _ _ _ => rfl) (fun _ _ _ _ => rfl) (fun _ _ _ _ => rfl) s
@[simp] theorem State.takeTrap_roles (s : State) : (s.takeTrap).roles = s.roles :=
  State.takeTrap_field (·.roles) (fun _ _ => rfl) (fun _ _ => rfl) (fun _ _ => rfl) (fun _ _ _ _ => rfl) (fun _ _ _ _ => rfl) (fun _ _ _ _ => rfl) (fun _ _ _ _ => rfl) s
@[simp] theorem State.takeTrap_logic (s : State) : (s.takeTrap).logic = s.logic :=
  State.takeTrap_field (·.logic) (fun _ _ => rfl) (fun _ _ => rfl) (fun _ _ => rfl) (fun _ _ _ _ => rfl) (fun _ _ _ _ => rfl) (fun _ _ _ _ => rfl) (fun _ _ _ _ => rfl) s
@[simp] theorem State.takeTrap_wins (s : State) : (s.takeTrap).wins = s.wins :=
  State.takeTrap_field (·.wins) (fun _ _ => rfl) (fun _ _ => rfl) (fun _ _ => rfl) (fun _ _ _ _ => rfl) (fun _ _ _ _ => rfl) (fun _ _ _ _ => rfl) (fun _ _ _ _ => rfl) s
@[simp] theorem State.takeTrap_banks (s : State) : (s.takeTrap).banks = s.banks :=
  State.takeTrap_field (·.banks) (fun _ _ => rfl) (fun _ _ => rfl) (fun _ _ => rfl) (fun _ _ _ _ => rfl) (fun _ _ _ _ => rfl) (fun _ _ _ _ => rfl) (fun _ _ _ _ => rfl) s
@[simp] theorem State.takeTrap_mig (s : State) : (s.takeTrap).mig = s.mig :=
  State.takeTrap_field (·.mig) (fun _ _ => rfl) (fun _ _ => rfl) (fun _ _ => rfl) (fun _ _ _ _ => rfl) (fun _ _ _ _ => rfl) (fun _ _ _ _ => rfl) (fun _ _ _ _ => rfl) s
@[simp] theorem State.takeTrap_lossLog (s : State) : (s.takeTrap).lossLog = s.lossLog :=
  State.takeTrap_field (·.lossLog) (fun _ _ => rfl) (fun _ _ => rfl) (fun _ _ => rfl) (fun _ _ _ _ => rfl) (fun _ _ _ _ => rfl) (fun _ _ _ _ => rfl) (fun _ _ _ _ => rfl) s
@[simp] theorem State.takeTrap_sources (s : State) : (s.takeTrap).sources = s.sources :=
  State.takeTrap_field (·.sources) (fun _ _ => rfl) (fun _ _ => rfl) (fun _ _ => rfl) (fun _ _ _ _ => rfl) (fun _ _ _ _ => rfl) (fun _ _ _ _ => rfl) (fun _ _ _ _ => rfl) s
@[simp] theorem State.takeTrap_vectors (s : State) : (s.takeTrap).vectors = s.vectors :=
  State.takeTrap_field (·.vectors) (fun _ _ => rfl) (fun _ _ => rfl) (fun _ _ => rfl) (fun _ _ _ _ => rfl) (fun _ _ _ _ => rfl) (fun _ _ _ _ => rfl) (fun _ _ _ _ => rfl) s
@[simp] theorem State.takeTrap_jig (s : State) : (s.takeTrap).jig = s.jig :=
  State.takeTrap_field (·.jig) (fun _ _ => rfl) (fun _ _ => rfl) (fun _ _ => rfl) (fun _ _ _ _ => rfl) (fun _ _ _ _ => rfl) (fun _ _ _ _ => rfl) (fun _ _ _ _ => rfl) s
@[simp] theorem State.takeTrap_log (s : State) : (s.takeTrap).log = s.log :=
  State.takeTrap_field (·.log) (fun _ _ => rfl) (fun _ _ => rfl) (fun _ _ => rfl) (fun _ _ _ _ => rfl) (fun _ _ _ _ => rfl) (fun _ _ _ _ => rfl) (fun _ _ _ _ => rfl) s
@[simp] theorem State.takeTrap_due (s : State) : (s.takeTrap).due = s.due :=
  State.takeTrap_field (·.due) (fun _ _ => rfl) (fun _ _ => rfl) (fun _ _ => rfl) (fun _ _ _ _ => rfl) (fun _ _ _ _ => rfl) (fun _ _ _ _ => rfl) (fun _ _ _ _ => rfl) s
@[simp] theorem State.takeTrap_safePin (s : State) : (s.takeTrap).safePin = s.safePin :=
  State.takeTrap_field (·.safePin) (fun _ _ => rfl) (fun _ _ => rfl) (fun _ _ => rfl) (fun _ _ _ _ => rfl) (fun _ _ _ _ => rfl) (fun _ _ _ _ => rfl) (fun _ _ _ _ => rfl) s
@[simp] theorem State.takeTrap_boot (s : State) : (s.takeTrap).boot = s.boot :=
  State.takeTrap_field (·.boot) (fun _ _ => rfl) (fun _ _ => rfl) (fun _ _ => rfl) (fun _ _ _ _ => rfl) (fun _ _ _ _ => rfl) (fun _ _ _ _ => rfl) (fun _ _ _ _ => rfl) s
@[simp] theorem State.takeTrap_tb (s : State) : (s.takeTrap).tb = s.tb :=
  State.takeTrap_field (·.tb) (fun _ _ => rfl) (fun _ _ => rfl) (fun _ _ => rfl) (fun _ _ _ _ => rfl) (fun _ _ _ _ => rfl) (fun _ _ _ _ => rfl) (fun _ _ _ _ => rfl) s
@[simp] theorem State.takeTrap_tns (s : State) : (s.takeTrap).tns = s.tns :=
  State.takeTrap_field (·.tns) (fun _ _ => rfl) (fun _ _ => rfl) (fun _ _ => rfl) (fun _ _ _ _ => rfl) (fun _ _ _ _ => rfl) (fun _ _ _ _ => rfl) (fun _ _ _ _ => rfl) s
@[simp] theorem State.takeTrap_latent (s : State) : (s.takeTrap).latent = s.latent :=
  State.takeTrap_field (·.latent) (fun _ _ => rfl) (fun _ _ => rfl) (fun _ _ => rfl) (fun _ _ _ _ => rfl) (fun _ _ _ _ => rfl) (fun _ _ _ _ => rfl) (fun _ _ _ _ => rfl) s
@[simp] theorem State.takeTrap_srole (s : State) (z : Nat) : (s.takeTrap).srole z = s.srole z :=
  State.takeTrap_field (·.srole z) (fun _ _ => rfl) (fun _ _ => rfl) (fun _ _ => rfl) (fun _ _ _ _ => rfl) (fun _ _ _ _ => rfl) (fun _ _ _ _ => rfl) (fun _ _ _ _ => rfl) s
@[simp] theorem State.takeTrap_lsl (s : State) (z : Nat) : (s.takeTrap).lsl z = s.lsl z :=
  State.takeTrap_field (·.lsl z) (fun _ _ => rfl) (fun _ _ => rfl) (fun _ _ => rfl) (fun _ _ _ _ => rfl) (fun _ _ _ _ => rfl) (fun _ _ _ _ => rfl) (fun _ _ _ _ => rfl) s
theorem State.takeTrap_fget (s : State) (g : Fld) (i j : Nat)
    (h : Fld.allApart [F.WDG_UMV_STATUS_STATE, F.SAF_NOTICE_COUNT, F.PRT_RT_DROPCNT_NOROUTE, F.WDG_LOG_SEL_HEAD] (g.addr i j) g.lsb g.wid = true) (hg : g.lsb + g.wid ≤ 32) :
    (s.takeTrap).fget g i j = s.fget g i j :=
  State.takeTrap_field (·.fget g i j) (fun _ _ => rfl) (fun _ _ => rfl) (fun _ _ => rfl) (fun s v n m => State.fget_fset_apart s v n m i j (Fld.allApart_mem h (f := F.WDG_UMV_STATUS_STATE) (by simp)) hg) (fun s v n m => State.fget_fset_apart s v n m i j (Fld.allApart_mem h (f := F.SAF_NOTICE_COUNT) (by simp)) hg) (fun s v n m => State.fget_fset_apart s v n m i j (Fld.allApart_mem h (f := F.PRT_RT_DROPCNT_NOROUTE) (by simp)) hg) (fun s v n m => State.fget_fset_apart s v n m i j (Fld.allApart_mem h (f := F.WDG_LOG_SEL_HEAD) (by simp)) hg) s

theorem State.failover_field {α : Type} (get : State → α)
    (hcur : ∀ (s : State) x, get { s with cur := x } = get s) (s : State) :
    get (s.failover) = get s := by
  unfold State.failover
  refine State.forUp_field get (fun i s => ?_) _ _ _
  dsimp only
  split
  · rfl
  · exact hcur _ _

@[simp] theorem State.failover_now (s : State) : (s.failover).now = s.now :=
  State.failover_field (·.now) (fun _ _ => rfl) s
@[simp] theorem State.failover_regs (s : State) : (s.failover).regs = s.regs :=
  State.failover_field (·.regs) (fun _ _ => rfl) s
@[simp] theorem State.failover_pat (s : State) : (s.failover).pat = s.pat :=
  State.failover_field (·.pat) (fun _ _ => rfl) s
@[simp] theorem State.failover_roles (s : State) : (s.failover).roles = s.roles :=
  State.failover_field (·.roles) (fun _ _ => rfl) s
@[simp] theorem State.failover_logic (s : State) : (s.failover).logic = s.logic :=
  State.failover_field (·.logic) (fun _ _ => rfl) s
@[simp] theorem State.failover_ports (s : State) : (s.failover).ports = s.ports :=
  State.failover_field (·.ports) (fun _ _ => rfl) s
@[simp] theorem State.failover_slices (s : State) : (s.failover).slices = s.slices :=
  State.failover_field (·.slices) (fun _ _ => rfl) s
@[simp] theorem State.failover_wins (s : State) : (s.failover).wins = s.wins :=
  State.failover_field (·.wins) (fun _ _ => rfl) s
@[simp] theorem State.failover_banks (s : State) : (s.failover).banks = s.banks :=
  State.failover_field (·.banks) (fun _ _ => rfl) s
@[simp] theorem State.failover_mig (s : State) : (s.failover).mig = s.mig :=
  State.failover_field (·.mig) (fun _ _ => rfl) s
@[simp] theorem State.failover_lossLog (s : State) : (s.failover).lossLog = s.lossLog :=
  State.failover_field (·.lossLog) (fun _ _ => rfl) s
@[simp] theorem State.failover_sources (s : State) : (s.failover).sources = s.sources :=
  State.failover_field (·.sources) (fun _ _ => rfl) s
@[simp] theorem State.failover_vectors (s : State) : (s.failover).vectors = s.vectors :=
  State.failover_field (·.vectors) (fun _ _ => rfl) s
@[simp] theorem State.failover_jig (s : State) : (s.failover).jig = s.jig :=
  State.failover_field (·.jig) (fun _ _ => rfl) s
@[simp] theorem State.failover_log (s : State) : (s.failover).log = s.log :=
  State.failover_field (·.log) (fun _ _ => rfl) s
@[simp] theorem State.failover_due (s : State) : (s.failover).due = s.due :=
  State.failover_field (·.due) (fun _ _ => rfl) s
@[simp] theorem State.failover_safePin (s : State) : (s.failover).safePin = s.safePin :=
  State.failover_field (·.safePin) (fun _ _ => rfl) s
@[simp] theorem State.failover_boot (s : State) : (s.failover).boot = s.boot :=
  State.failover_field (·.boot) (fun _ _ => rfl) s
@[simp] theorem State.failover_umv (s : State) : (s.failover).umv = s.umv :=
  State.failover_field (·.umv) (fun _ _ => rfl) s
@[simp] theorem State.failover_tb (s : State) : (s.failover).tb = s.tb :=
  State.failover_field (·.tb) (fun _ _ => rfl) s
@[simp] theorem State.failover_tns (s : State) : (s.failover).tns = s.tns :=
  State.failover_field (·.tns) (fun _ _ => rfl) s
@[simp] theorem State.failover_latent (s : State) : (s.failover).latent = s.latent :=
  State.failover_field (·.latent) (fun _ _ => rfl) s
@[simp] theorem State.failover_port (s : State) (z : Nat) : (s.failover).port z = s.port z :=
  State.failover_field (·.port z) (fun _ _ => rfl) s
@[simp] theorem State.failover_slice (s : State) (z : Nat) : (s.failover).slice z = s.slice z :=
  State.failover_field (·.slice z) (fun _ _ => rfl) s
@[simp] theorem State.failover_srole (s : State) (z : Nat) : (s.failover).srole z = s.srole z :=
  State.failover_field (·.srole z) (fun _ _ => rfl) s
@[simp] theorem State.failover_lsl (s : State) (z : Nat) : (s.failover).lsl z = s.lsl z :=
  State.failover_field (·.lsl z) (fun _ _ => rfl) s
@[simp] theorem State.failover_word (s : State) (z : Nat) : (s.failover).word z = s.word z :=
  State.failover_field (·.word z) (fun _ _ => rfl) s
@[simp] theorem State.failover_fget (s : State) (g : Fld) (i j : Nat) : (s.failover).fget g i j = s.fget g i j :=
  State.failover_field (·.fget g i j) (fun _ _ => rfl) s

theorem State.setPortState_field {α : Type} (get : State → α)
    (hports : ∀ (s : State) x, get { s with ports := x } = get s)
    (hcur : ∀ (s : State) x, get { s with cur := x } = get s) (s : State) (p : Nat) (x : PortState) :
    get (s.setPortState p x) = get s := by
  have efailover := State.failover_field get hcur
  exact (efailover _).trans (hports _ _)

@[simp] theorem State.setPortState_now (s : State) (p : Nat) (x : PortState) : (s.setPortState p x).now = s.now :=
  State.setPortState_field (·.now) (fun _ _ => rfl) (fun _ _ => rfl) s p x
@[simp] theorem State.setPortState_regs (s : State) (p : Nat) (x : PortState) : (s.setPortState p x).regs = s.regs :=
  State.setPortState_field (·.regs) (fun _ _ => rfl) (fun _ _ => rfl) s p x
@[simp] theorem State.setPortState_pat (s : State) (p : Nat) (x : PortState) : (s.setPortState p x).pat = s.pat :=
  State.setPortState_field (·.pat) (fun _ _ => rfl) (fun _ _ => rfl) s p x
@[simp] theorem State.setPortState_roles (s : State) (p : Nat) (x : PortState) : (s.setPortState p x).roles = s.roles :=
  State.setPortState_field (·.roles) (fun _ _ => rfl) (fun _ _ => rfl) s p x
@[simp] theorem State.setPortState_logic (s : State) (p : Nat) (x : PortState) : (s.setPortState p x).logic = s.logic :=
  State.setPortState_field (·.logic) (fun _ _ => rfl) (fun _ _ => rfl) s p x
@[simp] theorem State.setPortState_slices (s : State) (p : Nat) (x : PortState) : (s.setPortState p x).slices = s.slices :=
  State.setPortState_field (·.slices) (fun _ _ => rfl) (fun _ _ => rfl) s p x
@[simp] theorem State.setPortState_wins (s : State) (p : Nat) (x : PortState) : (s.setPortState p x).wins = s.wins :=
  State.setPortState_field (·.wins) (fun _ _ => rfl) (fun _ _ => rfl) s p x
@[simp] theorem State.setPortState_banks (s : State) (p : Nat) (x : PortState) : (s.setPortState p x).banks = s.banks :=
  State.setPortState_field (·.banks) (fun _ _ => rfl) (fun _ _ => rfl) s p x
@[simp] theorem State.setPortState_mig (s : State) (p : Nat) (x : PortState) : (s.setPortState p x).mig = s.mig :=
  State.setPortState_field (·.mig) (fun _ _ => rfl) (fun _ _ => rfl) s p x
@[simp] theorem State.setPortState_lossLog (s : State) (p : Nat) (x : PortState) : (s.setPortState p x).lossLog = s.lossLog :=
  State.setPortState_field (·.lossLog) (fun _ _ => rfl) (fun _ _ => rfl) s p x
@[simp] theorem State.setPortState_sources (s : State) (p : Nat) (x : PortState) : (s.setPortState p x).sources = s.sources :=
  State.setPortState_field (·.sources) (fun _ _ => rfl) (fun _ _ => rfl) s p x
@[simp] theorem State.setPortState_vectors (s : State) (p : Nat) (x : PortState) : (s.setPortState p x).vectors = s.vectors :=
  State.setPortState_field (·.vectors) (fun _ _ => rfl) (fun _ _ => rfl) s p x
@[simp] theorem State.setPortState_jig (s : State) (p : Nat) (x : PortState) : (s.setPortState p x).jig = s.jig :=
  State.setPortState_field (·.jig) (fun _ _ => rfl) (fun _ _ => rfl) s p x
@[simp] theorem State.setPortState_log (s : State) (p : Nat) (x : PortState) : (s.setPortState p x).log = s.log :=
  State.setPortState_field (·.log) (fun _ _ => rfl) (fun _ _ => rfl) s p x
@[simp] theorem State.setPortState_due (s : State) (p : Nat) (x : PortState) : (s.setPortState p x).due = s.due :=
  State.setPortState_field (·.due) (fun _ _ => rfl) (fun _ _ => rfl) s p x
@[simp] theorem State.setPortState_safePin (s : State) (p : Nat) (x : PortState) : (s.setPortState p x).safePin = s.safePin :=
  State.setPortState_field (·.safePin) (fun _ _ => rfl) (fun _ _ => rfl) s p x
@[simp] theorem State.setPortState_boot (s : State) (p : Nat) (x : PortState) : (s.setPortState p x).boot = s.boot :=
  State.setPortState_field (·.boot) (fun _ _ => rfl) (fun _ _ => rfl) s p x
@[simp] theorem State.setPortState_umv (s : State) (p : Nat) (x : PortState) : (s.setPortState p x).umv = s.umv :=
  State.setPortState_field (·.umv) (fun _ _ => rfl) (fun _ _ => rfl) s p x
@[simp] theorem State.setPortState_tb (s : State) (p : Nat) (x : PortState) : (s.setPortState p x).tb = s.tb :=
  State.setPortState_field (·.tb) (fun _ _ => rfl) (fun _ _ => rfl) s p x
@[simp] theorem State.setPortState_tns (s : State) (p : Nat) (x : PortState) : (s.setPortState p x).tns = s.tns :=
  State.setPortState_field (·.tns) (fun _ _ => rfl) (fun _ _ => rfl) s p x
@[simp] theorem State.setPortState_latent (s : State) (p : Nat) (x : PortState) : (s.setPortState p x).latent = s.latent :=
  State.setPortState_field (·.latent) (fun _ _ => rfl) (fun _ _ => rfl) s p x
@[simp] theorem State.setPortState_slice (s : State) (p : Nat) (x : PortState) (z : Nat) : (s.setPortState p x).slice z = s.slice z :=
  State.setPortState_field (·.slice z) (fun _ _ => rfl) (fun _ _ => rfl) s p x
@[simp] theorem State.setPortState_srole (s : State) (p : Nat) (x : PortState) (z : Nat) : (s.setPortState p x).srole z = s.srole z :=
  State.setPortState_field (·.srole z) (fun _ _ => rfl) (fun _ _ => rfl) s p x
@[simp] theorem State.setPortState_lsl (s : State) (p : Nat) (x : PortState) (z : Nat) : (s.setPortState p x).lsl z = s.lsl z :=
  State.setPortState_field (·.lsl z) (fun _ _ => rfl) (fun _ _ => rfl) s p x
@[simp] theorem State.setPortState_word (s : State) (p : Nat) (x : PortState) (z : Nat) : (s.setPortState p x).word z = s.word z :=
  State.setPortState_field (·.word z) (fun _ _ => rfl) (fun _ _ => rfl) s p x
@[simp] theorem State.setPortState_fget (s : State) (p : Nat) (x : PortState) (g : Fld) (i j : Nat) : (s.setPortState p x).fget g i j = s.fget g i j :=
  State.setPortState_field (·.fget g i j) (fun _ _ => rfl) (fun _ _ => rfl) s p x

theorem State.fatal_field {α : Type} (get : State → α)
    (hports : ∀ (s : State) x, get { s with ports := x } = get s)
    (hslices : ∀ (s : State) x, get { s with slices := x } = get s)
    (hlog : ∀ (s : State) x, get { s with log := x } = get s)
    (hdropArm : ∀ (s : State) x, get { s with dropArm := x } = get s)
    (hsources : ∀ (s : State) x, get { s with sources := x } = get s)
    (hsafePin : ∀ (s : State) x, get { s with safePin := x } = get s)
    (hdue : ∀ (s : State) x, get { s with due := x } = get s)
    (k0 : ∀ (s : State) v n m, get (s.fset F.SAF_CNT1_FATAL v n m) = get s)
    (k1 : ∀ (s : State) v n m, get (s.fset F.SAF_FAULT_FATAL v n m) = get s)
    (k2 : ∀ (s : State) v n m, get (s.fset F.SAF_LOG_STAT_DROPPED v n m) = get s)
    (k3 : ∀ (s : State) v n m, get (s.fset F.EVG_DROP_FULL v n m) = get s)
    (k4 : ∀ (s : State) v n m, get (s.fset F.SAF_NOTICE_COUNT v n m) = get s)
    (k5 : ∀ (s : State) v n m, get (s.fset F.PRT_RT_DROPCNT_NOROUTE v n m) = get s)
    (k6 : ∀ (s : State) v n m, get (s.fset F.SAF_STATUS_SAFE v n m) = get s)
    (k7 : ∀ (s : State) v n m, get (s.fset F.SAF_STATUS_SAFE_CAUSE v n m) = get s) (s : State) (c u : BitVec 8) (a : Option Addr) (b : Bool) :
    get (s.fatal c u a b) = get s := by
  have eenterSafe := State.enterSafe_field get hsafePin hsources hdue k6 k7 k3
  have enotice := State.notice_field get hports hslices k4 k5
  have elogEntry := State.logEntry_field get hlog hdropArm hsources k2 k3
  have eraiseSafety := State.raiseSafety_field get hsources k3
  have ereact := State.react_field get hdue
  unfold State.fatal; dsimp only
  split
  · exact (enotice _ _).trans ((k1 _ _ _ _).trans ((eraiseSafety _ _).trans ((elogEntry _ _).trans (k0 _ _ _ _))))
  · split
    · exact (ereact _ _).trans ((enotice _ _).trans ((k1 _ _ _ _).trans ((eraiseSafety _ _).trans ((elogEntry _ _).trans (k0 _ _ _ _)))))
    · exact (eenterSafe _ _).trans ((enotice _ _).trans ((k1 _ _ _ _).trans ((eraiseSafety _ _).trans ((elogEntry _ _).trans (k0 _ _ _ _)))))

@[simp] theorem State.fatal_now (s : State) (c u : BitVec 8) (a : Option Addr) (b : Bool) : (s.fatal c u a b).now = s.now :=
  State.fatal_field (·.now) (fun _ _ => rfl) (fun _ _ => rfl) (fun _ _ => rfl) (fun _ _ => rfl) (fun _ _ => rfl) (fun _ _ => rfl) (fun _ _ => rfl) (fun _ _ _ _ => rfl) (fun _ _ _ _ => rfl) (fun _ _ _ _ => rfl) (fun _ _ _ _ => rfl) (fun _ _ _ _ => rfl) (fun _ _ _ _ => rfl) (fun _ _ _ _ => rfl) (fun _ _ _ _ => rfl) s c u a b
@[simp] theorem State.fatal_pat (s : State) (c u : BitVec 8) (a : Option Addr) (b : Bool) : (s.fatal c u a b).pat = s.pat :=
  State.fatal_field (·.pat) (fun _ _ => rfl) (fun _ _ => rfl) (fun _ _ => rfl) (fun _ _ => rfl) (fun _ _ => rfl) (fun _ _ => rfl) (fun _ _ => rfl) (fun _ _ _ _ => rfl) (fun _ _ _ _ => rfl) (fun _ _ _ _ => rfl) (fun _ _ _ _ => rfl) (fun _ _ _ _ => rfl) (fun _ _ _ _ => rfl) (fun _ _ _ _ => rfl) (fun _ _ _ _ => rfl) s c u a b
@[simp] theorem State.fatal_roles (s : State) (c u : BitVec 8) (a : Option Addr) (b : Bool) : (s.fatal c u a b).roles = s.roles :=
  State.fatal_field (·.roles) (fun _ _ => rfl) (fun _ _ => rfl) (fun _ _ => rfl) (fun _ _ => rfl) (fun _ _ => rfl) (fun _ _ => rfl) (fun _ _ => rfl) (fun _ _ _ _ => rfl) (fun _ _ _ _ => rfl) (fun _ _ _ _ => rfl) (fun _ _ _ _ => rfl) (fun _ _ _ _ => rfl) (fun _ _ _ _ => rfl) (fun _ _ _ _ => rfl) (fun _ _ _ _ => rfl) s c u a b
@[simp] theorem State.fatal_logic (s : State) (c u : BitVec 8) (a : Option Addr) (b : Bool) : (s.fatal c u a b).logic = s.logic :=
  State.fatal_field (·.logic) (fun _ _ => rfl) (fun _ _ => rfl) (fun _ _ => rfl) (fun _ _ => rfl) (fun _ _ => rfl) (fun _ _ => rfl) (fun _ _ => rfl) (fun _ _ _ _ => rfl) (fun _ _ _ _ => rfl) (fun _ _ _ _ => rfl) (fun _ _ _ _ => rfl) (fun _ _ _ _ => rfl) (fun _ _ _ _ => rfl) (fun _ _ _ _ => rfl) (fun _ _ _ _ => rfl) s c u a b
@[simp] theorem State.fatal_wins (s : State) (c u : BitVec 8) (a : Option Addr) (b : Bool) : (s.fatal c u a b).wins = s.wins :=
  State.fatal_field (·.wins) (fun _ _ => rfl) (fun _ _ => rfl) (fun _ _ => rfl) (fun _ _ => rfl) (fun _ _ => rfl) (fun _ _ => rfl) (fun _ _ => rfl) (fun _ _ _ _ => rfl) (fun _ _ _ _ => rfl) (fun _ _ _ _ => rfl) (fun _ _ _ _ => rfl) (fun _ _ _ _ => rfl) (fun _ _ _ _ => rfl) (fun _ _ _ _ => rfl) (fun _ _ _ _ => rfl) s c u a b
@[simp] theorem State.fatal_banks (s : State) (c u : BitVec 8) (a : Option Addr) (b : Bool) : (s.fatal c u a b).banks = s.banks :=
  State.fatal_field (·.banks) (fun _ _ => rfl) (fun _ _ => rfl) (fun _ _ => rfl) (fun _ _ => rfl) (fun _ _ => rfl) (fun _ _ => rfl) (fun _ _ => rfl) (fun _ _ _ _ => rfl) (fun _ _ _ _ => rfl) (fun _ _ _ _ => rfl) (fun _ _ _ _ => rfl) (fun _ _ _ _ => rfl) (fun _ _ _ _ => rfl) (fun _ _ _ _ => rfl) (fun _ _ _ _ => rfl) s c u a b
@[simp] theorem State.fatal_mig (s : State) (c u : BitVec 8) (a : Option Addr) (b : Bool) : (s.fatal c u a b).mig = s.mig :=
  State.fatal_field (·.mig) (fun _ _ => rfl) (fun _ _ => rfl) (fun _ _ => rfl) (fun _ _ => rfl) (fun _ _ => rfl) (fun _ _ => rfl) (fun _ _ => rfl) (fun _ _ _ _ => rfl) (fun _ _ _ _ => rfl) (fun _ _ _ _ => rfl) (fun _ _ _ _ => rfl) (fun _ _ _ _ => rfl) (fun _ _ _ _ => rfl) (fun _ _ _ _ => rfl) (fun _ _ _ _ => rfl) s c u a b
@[simp] theorem State.fatal_lossLog (s : State) (c u : BitVec 8) (a : Option Addr) (b : Bool) : (s.fatal c u a b).lossLog = s.lossLog :=
  State.fatal_field (·.lossLog) (fun _ _ => rfl) (fun _ _ => rfl) (fun _ _ => rfl) (fun _ _ => rfl) (fun _ _ => rfl) (fun _ _ => rfl) (fun _ _ => rfl) (fun _ _ _ _ => rfl) (fun _ _ _ _ => rfl) (fun _ _ _ _ => rfl) (fun _ _ _ _ => rfl) (fun _ _ _ _ => rfl) (fun _ _ _ _ => rfl) (fun _ _ _ _ => rfl) (fun _ _ _ _ => rfl) s c u a b
@[simp] theorem State.fatal_vectors (s : State) (c u : BitVec 8) (a : Option Addr) (b : Bool) : (s.fatal c u a b).vectors = s.vectors :=
  State.fatal_field (·.vectors) (fun _ _ => rfl) (fun _ _ => rfl) (fun _ _ => rfl) (fun _ _ => rfl) (fun _ _ => rfl) (fun _ _ => rfl) (fun _ _ => rfl) (fun _ _ _ _ => rfl) (fun _ _ _ _ => rfl) (fun _ _ _ _ => rfl) (fun _ _ _ _ => rfl) (fun _ _ _ _ => rfl) (fun _ _ _ _ => rfl) (fun _ _ _ _ => rfl) (fun _ _ _ _ => rfl) s c u a b
@[simp] theorem State.fatal_jig (s : State) (c u : BitVec 8) (a : Option Addr) (b : Bool) : (s.fatal c u a b).jig = s.jig :=
  State.fatal_field (·.jig) (fun _ _ => rfl) (fun _ _ => rfl) (fun _ _ => rfl) (fun _ _ => rfl) (fun _ _ => rfl) (fun _ _ => rfl) (fun _ _ => rfl) (fun _ _ _ _ => rfl) (fun _ _ _ _ => rfl) (fun _ _ _ _ => rfl) (fun _ _ _ _ => rfl) (fun _ _ _ _ => rfl) (fun _ _ _ _ => rfl) (fun _ _ _ _ => rfl) (fun _ _ _ _ => rfl) s c u a b
@[simp] theorem State.fatal_boot (s : State) (c u : BitVec 8) (a : Option Addr) (b : Bool) : (s.fatal c u a b).boot = s.boot :=
  State.fatal_field (·.boot) (fun _ _ => rfl) (fun _ _ => rfl) (fun _ _ => rfl) (fun _ _ => rfl) (fun _ _ => rfl) (fun _ _ => rfl) (fun _ _ => rfl) (fun _ _ _ _ => rfl) (fun _ _ _ _ => rfl) (fun _ _ _ _ => rfl) (fun _ _ _ _ => rfl) (fun _ _ _ _ => rfl) (fun _ _ _ _ => rfl) (fun _ _ _ _ => rfl) (fun _ _ _ _ => rfl) s c u a b
@[simp] theorem State.fatal_umv (s : State) (c u : BitVec 8) (a : Option Addr) (b : Bool) : (s.fatal c u a b).umv = s.umv :=
  State.fatal_field (·.umv) (fun _ _ => rfl) (fun _ _ => rfl) (fun _ _ => rfl) (fun _ _ => rfl) (fun _ _ => rfl) (fun _ _ => rfl) (fun _ _ => rfl) (fun _ _ _ _ => rfl) (fun _ _ _ _ => rfl) (fun _ _ _ _ => rfl) (fun _ _ _ _ => rfl) (fun _ _ _ _ => rfl) (fun _ _ _ _ => rfl) (fun _ _ _ _ => rfl) (fun _ _ _ _ => rfl) s c u a b
@[simp] theorem State.fatal_tb (s : State) (c u : BitVec 8) (a : Option Addr) (b : Bool) : (s.fatal c u a b).tb = s.tb :=
  State.fatal_field (·.tb) (fun _ _ => rfl) (fun _ _ => rfl) (fun _ _ => rfl) (fun _ _ => rfl) (fun _ _ => rfl) (fun _ _ => rfl) (fun _ _ => rfl) (fun _ _ _ _ => rfl) (fun _ _ _ _ => rfl) (fun _ _ _ _ => rfl) (fun _ _ _ _ => rfl) (fun _ _ _ _ => rfl) (fun _ _ _ _ => rfl) (fun _ _ _ _ => rfl) (fun _ _ _ _ => rfl) s c u a b
@[simp] theorem State.fatal_tns (s : State) (c u : BitVec 8) (a : Option Addr) (b : Bool) : (s.fatal c u a b).tns = s.tns :=
  State.fatal_field (·.tns) (fun _ _ => rfl) (fun _ _ => rfl) (fun _ _ => rfl) (fun _ _ => rfl) (fun _ _ => rfl) (fun _ _ => rfl) (fun _ _ => rfl) (fun _ _ _ _ => rfl) (fun _ _ _ _ => rfl) (fun _ _ _ _ => rfl) (fun _ _ _ _ => rfl) (fun _ _ _ _ => rfl) (fun _ _ _ _ => rfl) (fun _ _ _ _ => rfl) (fun _ _ _ _ => rfl) s c u a b
@[simp] theorem State.fatal_latent (s : State) (c u : BitVec 8) (a : Option Addr) (b : Bool) : (s.fatal c u a b).latent = s.latent :=
  State.fatal_field (·.latent) (fun _ _ => rfl) (fun _ _ => rfl) (fun _ _ => rfl) (fun _ _ => rfl) (fun _ _ => rfl) (fun _ _ => rfl) (fun _ _ => rfl) (fun _ _ _ _ => rfl) (fun _ _ _ _ => rfl) (fun _ _ _ _ => rfl) (fun _ _ _ _ => rfl) (fun _ _ _ _ => rfl) (fun _ _ _ _ => rfl) (fun _ _ _ _ => rfl) (fun _ _ _ _ => rfl) s c u a b
@[simp] theorem State.fatal_srole (s : State) (c u : BitVec 8) (a : Option Addr) (b : Bool) (z : Nat) : (s.fatal c u a b).srole z = s.srole z :=
  State.fatal_field (·.srole z) (fun _ _ => rfl) (fun _ _ => rfl) (fun _ _ => rfl) (fun _ _ => rfl) (fun _ _ => rfl) (fun _ _ => rfl) (fun _ _ => rfl) (fun _ _ _ _ => rfl) (fun _ _ _ _ => rfl) (fun _ _ _ _ => rfl) (fun _ _ _ _ => rfl) (fun _ _ _ _ => rfl) (fun _ _ _ _ => rfl) (fun _ _ _ _ => rfl) (fun _ _ _ _ => rfl) s c u a b
@[simp] theorem State.fatal_lsl (s : State) (c u : BitVec 8) (a : Option Addr) (b : Bool) (z : Nat) : (s.fatal c u a b).lsl z = s.lsl z :=
  State.fatal_field (·.lsl z) (fun _ _ => rfl) (fun _ _ => rfl) (fun _ _ => rfl) (fun _ _ => rfl) (fun _ _ => rfl) (fun _ _ => rfl) (fun _ _ => rfl) (fun _ _ _ _ => rfl) (fun _ _ _ _ => rfl) (fun _ _ _ _ => rfl) (fun _ _ _ _ => rfl) (fun _ _ _ _ => rfl) (fun _ _ _ _ => rfl) (fun _ _ _ _ => rfl) (fun _ _ _ _ => rfl) s c u a b
theorem State.fatal_fget (s : State) (c u : BitVec 8) (a : Option Addr) (b : Bool) (g : Fld) (i j : Nat)
    (h : Fld.allApart [F.SAF_CNT1_FATAL, F.SAF_FAULT_FATAL, F.SAF_LOG_STAT_DROPPED, F.EVG_DROP_FULL, F.SAF_NOTICE_COUNT, F.PRT_RT_DROPCNT_NOROUTE, F.SAF_STATUS_SAFE, F.SAF_STATUS_SAFE_CAUSE] (g.addr i j) g.lsb g.wid = true) (hg : g.lsb + g.wid ≤ 32) :
    (s.fatal c u a b).fget g i j = s.fget g i j :=
  State.fatal_field (·.fget g i j) (fun _ _ => rfl) (fun _ _ => rfl) (fun _ _ => rfl) (fun _ _ => rfl) (fun _ _ => rfl) (fun _ _ => rfl) (fun _ _ => rfl) (fun s v n m => State.fget_fset_apart s v n m i j (Fld.allApart_mem h (f := F.SAF_CNT1_FATAL) (by simp)) hg) (fun s v n m => State.fget_fset_apart s v n m i j (Fld.allApart_mem h (f := F.SAF_FAULT_FATAL) (by simp)) hg) (fun s v n m => State.fget_fset_apart s v n m i j (Fld.allApart_mem h (f := F.SAF_LOG_STAT_DROPPED) (by simp)) hg) (fun s v n m => State.fget_fset_apart s v n m i j (Fld.allApart_mem h (f := F.EVG_DROP_FULL) (by simp)) hg) (fun s v n m => State.fget_fset_apart s v n m i j (Fld.allApart_mem h (f := F.SAF_NOTICE_COUNT) (by simp)) hg) (fun s v n m => State.fget_fset_apart s v n m i j (Fld.allApart_mem h (f := F.PRT_RT_DROPCNT_NOROUTE) (by simp)) hg) (fun s v n m => State.fget_fset_apart s v n m i j (Fld.allApart_mem h (f := F.SAF_STATUS_SAFE) (by simp)) hg) (fun s v n m => State.fget_fset_apart s v n m i j (Fld.allApart_mem h (f := F.SAF_STATUS_SAFE_CAUSE) (by simp)) hg) s c u a b

theorem State.corrected_field {α : Type} (get : State → α)
    (hlog : ∀ (s : State) x, get { s with log := x } = get s)
    (hdropArm : ∀ (s : State) x, get { s with dropArm := x } = get s)
    (hsources : ∀ (s : State) x, get { s with sources := x } = get s)
    (k0 : ∀ (s : State) v n m, get (s.fset F.SAF_CNT0_CORR v n m) = get s)
    (k1 : ∀ (s : State) v n m, get (s.fset F.SAF_LOG_STAT_DROPPED v n m) = get s)
    (k2 : ∀ (s : State) v n m, get (s.fset F.EVG_DROP_FULL v n m) = get s) (s : State) (c u : BitVec 8) (t : Option Tenant) (a : Option Addr) :
    get (s.corrected c u t a) = get s := by
  have elogEntry := State.logEntry_field get hlog hdropArm hsources k1 k2
  unfold State.corrected; dsimp only
  split
  · exact (elogEntry _ _).trans (k0 _ _ _ _)
  · exact k0 _ _ _ _

@[simp] theorem State.corrected_now (s : State) (c u : BitVec 8) (t : Option Tenant) (a : Option Addr) : (s.corrected c u t a).now = s.now :=
  State.corrected_field (·.now) (fun _ _ => rfl) (fun _ _ => rfl) (fun _ _ => rfl) (fun _ _ _ _ => rfl) (fun _ _ _ _ => rfl) (fun _ _ _ _ => rfl) s c u t a
@[simp] theorem State.corrected_pat (s : State) (c u : BitVec 8) (t : Option Tenant) (a : Option Addr) : (s.corrected c u t a).pat = s.pat :=
  State.corrected_field (·.pat) (fun _ _ => rfl) (fun _ _ => rfl) (fun _ _ => rfl) (fun _ _ _ _ => rfl) (fun _ _ _ _ => rfl) (fun _ _ _ _ => rfl) s c u t a
@[simp] theorem State.corrected_roles (s : State) (c u : BitVec 8) (t : Option Tenant) (a : Option Addr) : (s.corrected c u t a).roles = s.roles :=
  State.corrected_field (·.roles) (fun _ _ => rfl) (fun _ _ => rfl) (fun _ _ => rfl) (fun _ _ _ _ => rfl) (fun _ _ _ _ => rfl) (fun _ _ _ _ => rfl) s c u t a
@[simp] theorem State.corrected_logic (s : State) (c u : BitVec 8) (t : Option Tenant) (a : Option Addr) : (s.corrected c u t a).logic = s.logic :=
  State.corrected_field (·.logic) (fun _ _ => rfl) (fun _ _ => rfl) (fun _ _ => rfl) (fun _ _ _ _ => rfl) (fun _ _ _ _ => rfl) (fun _ _ _ _ => rfl) s c u t a
@[simp] theorem State.corrected_ports (s : State) (c u : BitVec 8) (t : Option Tenant) (a : Option Addr) : (s.corrected c u t a).ports = s.ports :=
  State.corrected_field (·.ports) (fun _ _ => rfl) (fun _ _ => rfl) (fun _ _ => rfl) (fun _ _ _ _ => rfl) (fun _ _ _ _ => rfl) (fun _ _ _ _ => rfl) s c u t a
@[simp] theorem State.corrected_slices (s : State) (c u : BitVec 8) (t : Option Tenant) (a : Option Addr) : (s.corrected c u t a).slices = s.slices :=
  State.corrected_field (·.slices) (fun _ _ => rfl) (fun _ _ => rfl) (fun _ _ => rfl) (fun _ _ _ _ => rfl) (fun _ _ _ _ => rfl) (fun _ _ _ _ => rfl) s c u t a
@[simp] theorem State.corrected_wins (s : State) (c u : BitVec 8) (t : Option Tenant) (a : Option Addr) : (s.corrected c u t a).wins = s.wins :=
  State.corrected_field (·.wins) (fun _ _ => rfl) (fun _ _ => rfl) (fun _ _ => rfl) (fun _ _ _ _ => rfl) (fun _ _ _ _ => rfl) (fun _ _ _ _ => rfl) s c u t a
@[simp] theorem State.corrected_banks (s : State) (c u : BitVec 8) (t : Option Tenant) (a : Option Addr) : (s.corrected c u t a).banks = s.banks :=
  State.corrected_field (·.banks) (fun _ _ => rfl) (fun _ _ => rfl) (fun _ _ => rfl) (fun _ _ _ _ => rfl) (fun _ _ _ _ => rfl) (fun _ _ _ _ => rfl) s c u t a
@[simp] theorem State.corrected_mig (s : State) (c u : BitVec 8) (t : Option Tenant) (a : Option Addr) : (s.corrected c u t a).mig = s.mig :=
  State.corrected_field (·.mig) (fun _ _ => rfl) (fun _ _ => rfl) (fun _ _ => rfl) (fun _ _ _ _ => rfl) (fun _ _ _ _ => rfl) (fun _ _ _ _ => rfl) s c u t a
@[simp] theorem State.corrected_lossLog (s : State) (c u : BitVec 8) (t : Option Tenant) (a : Option Addr) : (s.corrected c u t a).lossLog = s.lossLog :=
  State.corrected_field (·.lossLog) (fun _ _ => rfl) (fun _ _ => rfl) (fun _ _ => rfl) (fun _ _ _ _ => rfl) (fun _ _ _ _ => rfl) (fun _ _ _ _ => rfl) s c u t a
@[simp] theorem State.corrected_vectors (s : State) (c u : BitVec 8) (t : Option Tenant) (a : Option Addr) : (s.corrected c u t a).vectors = s.vectors :=
  State.corrected_field (·.vectors) (fun _ _ => rfl) (fun _ _ => rfl) (fun _ _ => rfl) (fun _ _ _ _ => rfl) (fun _ _ _ _ => rfl) (fun _ _ _ _ => rfl) s c u t a
@[simp] theorem State.corrected_jig (s : State) (c u : BitVec 8) (t : Option Tenant) (a : Option Addr) : (s.corrected c u t a).jig = s.jig :=
  State.corrected_field (·.jig) (fun _ _ => rfl) (fun _ _ => rfl) (fun _ _ => rfl) (fun _ _ _ _ => rfl) (fun _ _ _ _ => rfl) (fun _ _ _ _ => rfl) s c u t a
@[simp] theorem State.corrected_due (s : State) (c u : BitVec 8) (t : Option Tenant) (a : Option Addr) : (s.corrected c u t a).due = s.due :=
  State.corrected_field (·.due) (fun _ _ => rfl) (fun _ _ => rfl) (fun _ _ => rfl) (fun _ _ _ _ => rfl) (fun _ _ _ _ => rfl) (fun _ _ _ _ => rfl) s c u t a
@[simp] theorem State.corrected_safePin (s : State) (c u : BitVec 8) (t : Option Tenant) (a : Option Addr) : (s.corrected c u t a).safePin = s.safePin :=
  State.corrected_field (·.safePin) (fun _ _ => rfl) (fun _ _ => rfl) (fun _ _ => rfl) (fun _ _ _ _ => rfl) (fun _ _ _ _ => rfl) (fun _ _ _ _ => rfl) s c u t a
@[simp] theorem State.corrected_boot (s : State) (c u : BitVec 8) (t : Option Tenant) (a : Option Addr) : (s.corrected c u t a).boot = s.boot :=
  State.corrected_field (·.boot) (fun _ _ => rfl) (fun _ _ => rfl) (fun _ _ => rfl) (fun _ _ _ _ => rfl) (fun _ _ _ _ => rfl) (fun _ _ _ _ => rfl) s c u t a
@[simp] theorem State.corrected_umv (s : State) (c u : BitVec 8) (t : Option Tenant) (a : Option Addr) : (s.corrected c u t a).umv = s.umv :=
  State.corrected_field (·.umv) (fun _ _ => rfl) (fun _ _ => rfl) (fun _ _ => rfl) (fun _ _ _ _ => rfl) (fun _ _ _ _ => rfl) (fun _ _ _ _ => rfl) s c u t a
@[simp] theorem State.corrected_tb (s : State) (c u : BitVec 8) (t : Option Tenant) (a : Option Addr) : (s.corrected c u t a).tb = s.tb :=
  State.corrected_field (·.tb) (fun _ _ => rfl) (fun _ _ => rfl) (fun _ _ => rfl) (fun _ _ _ _ => rfl) (fun _ _ _ _ => rfl) (fun _ _ _ _ => rfl) s c u t a
@[simp] theorem State.corrected_tns (s : State) (c u : BitVec 8) (t : Option Tenant) (a : Option Addr) : (s.corrected c u t a).tns = s.tns :=
  State.corrected_field (·.tns) (fun _ _ => rfl) (fun _ _ => rfl) (fun _ _ => rfl) (fun _ _ _ _ => rfl) (fun _ _ _ _ => rfl) (fun _ _ _ _ => rfl) s c u t a
@[simp] theorem State.corrected_latent (s : State) (c u : BitVec 8) (t : Option Tenant) (a : Option Addr) : (s.corrected c u t a).latent = s.latent :=
  State.corrected_field (·.latent) (fun _ _ => rfl) (fun _ _ => rfl) (fun _ _ => rfl) (fun _ _ _ _ => rfl) (fun _ _ _ _ => rfl) (fun _ _ _ _ => rfl) s c u t a
@[simp] theorem State.corrected_port (s : State) (c u : BitVec 8) (t : Option Tenant) (a : Option Addr) (z : Nat) : (s.corrected c u t a).port z = s.port z :=
  State.corrected_field (·.port z) (fun _ _ => rfl) (fun _ _ => rfl) (fun _ _ => rfl) (fun _ _ _ _ => rfl) (fun _ _ _ _ => rfl) (fun _ _ _ _ => rfl) s c u t a
@[simp] theorem State.corrected_slice (s : State) (c u : BitVec 8) (t : Option Tenant) (a : Option Addr) (z : Nat) : (s.corrected c u t a).slice z = s.slice z :=
  State.corrected_field (·.slice z) (fun _ _ => rfl) (fun _ _ => rfl) (fun _ _ => rfl) (fun _ _ _ _ => rfl) (fun _ _ _ _ => rfl) (fun _ _ _ _ => rfl) s c u t a
@[simp] theorem State.corrected_srole (s : State) (c u : BitVec 8) (t : Option Tenant) (a : Option Addr) (z : Nat) : (s.corrected c u t a).srole z = s.srole z :=
  State.corrected_field (·.srole z) (fun _ _ => rfl) (fun _ _ => rfl) (fun _ _ => rfl) (fun _ _ _ _ => rfl) (fun _ _ _ _ => rfl) (fun _ _ _ _ => rfl) s c u t a
@[simp] theorem State.corrected_lsl (s : State) (c u : BitVec 8) (t : Option Tenant) (a : Option Addr) (z : Nat) : (s.corrected c u t a).lsl z = s.lsl z :=
  State.corrected_field (·.lsl z) (fun _ _ => rfl) (fun _ _ => rfl) (fun _ _ => rfl) (fun _ _ _ _ => rfl) (fun _ _ _ _ => rfl) (fun _ _ _ _ => rfl) s c u t a
theorem State.corrected_fget (s : State) (c u : BitVec 8) (t : Option Tenant) (a : Option Addr) (g : Fld) (i j : Nat)
    (h : Fld.allApart [F.SAF_CNT0_CORR, F.SAF_LOG_STAT_DROPPED, F.EVG_DROP_FULL] (g.addr i j) g.lsb g.wid = true) (hg : g.lsb + g.wid ≤ 32) :
    (s.corrected c u t a).fget g i j = s.fget g i j :=
  State.corrected_field (·.fget g i j) (fun _ _ => rfl) (fun _ _ => rfl) (fun _ _ => rfl) (fun s v n m => State.fget_fset_apart s v n m i j (Fld.allApart_mem h (f := F.SAF_CNT0_CORR) (by simp)) hg) (fun s v n m => State.fget_fset_apart s v n m i j (Fld.allApart_mem h (f := F.SAF_LOG_STAT_DROPPED) (by simp)) hg) (fun s v n m => State.fget_fset_apart s v n m i j (Fld.allApart_mem h (f := F.EVG_DROP_FULL) (by simp)) hg) s c u t a

theorem State.deferred_field {α : Type} (get : State → α)
    (hlog : ∀ (s : State) x, get { s with log := x } = get s)
    (hdropArm : ∀ (s : State) x, get { s with dropArm := x } = get s)
    (hsources : ∀ (s : State) x, get { s with sources := x } = get s)
    (k0 : ∀ (s : State) v n m, get (s.fset F.SAF_CNT0_DEFER v n m) = get s)
    (k1 : ∀ (s : State) v n m, get (s.fset F.SAF_LOG_STAT_DROPPED v n m) = get s)
    (k2 : ∀ (s : State) v n m, get (s.fset F.EVG_DROP_FULL v n m) = get s) (s : State) (c u : BitVec 8) (t : Option Tenant) (a : Option Addr) (o : Option Nat) :
    get (s.deferred c u t a o) = get s := by
  have elogEntry := State.logEntry_field get hlog hdropArm hsources k1 k2
  have eraise := State.raise_field get hsources k2
  have eraiseSafety := State.raiseSafety_field get hsources k2
  unfold State.deferred; dsimp only
  split
  · exact (eraiseSafety _ _).trans ((elogEntry _ _).trans (k0 _ _ _ _))
  · exact (eraise _ _ _ _).trans ((elogEntry _ _).trans (k0 _ _ _ _))
  · exact (elogEntry _ _).trans (k0 _ _ _ _)

@[simp] theorem State.deferred_now (s : State) (c u : BitVec 8) (t : Option Tenant) (a : Option Addr) (o : Option Nat) : (s.deferred c u t a o).now = s.now :=
  State.deferred_field (·.now) (fun _ _ => rfl) (fun _ _ => rfl) (fun _ _ => rfl) (fun _ _ _ _ => rfl) (fun _ _ _ _ => rfl) (fun _ _ _ _ => rfl) s c u t a o
@[simp] theorem State.deferred_pat (s : State) (c u : BitVec 8) (t : Option Tenant) (a : Option Addr) (o : Option Nat) : (s.deferred c u t a o).pat = s.pat :=
  State.deferred_field (·.pat) (fun _ _ => rfl) (fun _ _ => rfl) (fun _ _ => rfl) (fun _ _ _ _ => rfl) (fun _ _ _ _ => rfl) (fun _ _ _ _ => rfl) s c u t a o
@[simp] theorem State.deferred_roles (s : State) (c u : BitVec 8) (t : Option Tenant) (a : Option Addr) (o : Option Nat) : (s.deferred c u t a o).roles = s.roles :=
  State.deferred_field (·.roles) (fun _ _ => rfl) (fun _ _ => rfl) (fun _ _ => rfl) (fun _ _ _ _ => rfl) (fun _ _ _ _ => rfl) (fun _ _ _ _ => rfl) s c u t a o
@[simp] theorem State.deferred_logic (s : State) (c u : BitVec 8) (t : Option Tenant) (a : Option Addr) (o : Option Nat) : (s.deferred c u t a o).logic = s.logic :=
  State.deferred_field (·.logic) (fun _ _ => rfl) (fun _ _ => rfl) (fun _ _ => rfl) (fun _ _ _ _ => rfl) (fun _ _ _ _ => rfl) (fun _ _ _ _ => rfl) s c u t a o
@[simp] theorem State.deferred_ports (s : State) (c u : BitVec 8) (t : Option Tenant) (a : Option Addr) (o : Option Nat) : (s.deferred c u t a o).ports = s.ports :=
  State.deferred_field (·.ports) (fun _ _ => rfl) (fun _ _ => rfl) (fun _ _ => rfl) (fun _ _ _ _ => rfl) (fun _ _ _ _ => rfl) (fun _ _ _ _ => rfl) s c u t a o
@[simp] theorem State.deferred_slices (s : State) (c u : BitVec 8) (t : Option Tenant) (a : Option Addr) (o : Option Nat) : (s.deferred c u t a o).slices = s.slices :=
  State.deferred_field (·.slices) (fun _ _ => rfl) (fun _ _ => rfl) (fun _ _ => rfl) (fun _ _ _ _ => rfl) (fun _ _ _ _ => rfl) (fun _ _ _ _ => rfl) s c u t a o
@[simp] theorem State.deferred_wins (s : State) (c u : BitVec 8) (t : Option Tenant) (a : Option Addr) (o : Option Nat) : (s.deferred c u t a o).wins = s.wins :=
  State.deferred_field (·.wins) (fun _ _ => rfl) (fun _ _ => rfl) (fun _ _ => rfl) (fun _ _ _ _ => rfl) (fun _ _ _ _ => rfl) (fun _ _ _ _ => rfl) s c u t a o
@[simp] theorem State.deferred_banks (s : State) (c u : BitVec 8) (t : Option Tenant) (a : Option Addr) (o : Option Nat) : (s.deferred c u t a o).banks = s.banks :=
  State.deferred_field (·.banks) (fun _ _ => rfl) (fun _ _ => rfl) (fun _ _ => rfl) (fun _ _ _ _ => rfl) (fun _ _ _ _ => rfl) (fun _ _ _ _ => rfl) s c u t a o
@[simp] theorem State.deferred_mig (s : State) (c u : BitVec 8) (t : Option Tenant) (a : Option Addr) (o : Option Nat) : (s.deferred c u t a o).mig = s.mig :=
  State.deferred_field (·.mig) (fun _ _ => rfl) (fun _ _ => rfl) (fun _ _ => rfl) (fun _ _ _ _ => rfl) (fun _ _ _ _ => rfl) (fun _ _ _ _ => rfl) s c u t a o
@[simp] theorem State.deferred_lossLog (s : State) (c u : BitVec 8) (t : Option Tenant) (a : Option Addr) (o : Option Nat) : (s.deferred c u t a o).lossLog = s.lossLog :=
  State.deferred_field (·.lossLog) (fun _ _ => rfl) (fun _ _ => rfl) (fun _ _ => rfl) (fun _ _ _ _ => rfl) (fun _ _ _ _ => rfl) (fun _ _ _ _ => rfl) s c u t a o
@[simp] theorem State.deferred_vectors (s : State) (c u : BitVec 8) (t : Option Tenant) (a : Option Addr) (o : Option Nat) : (s.deferred c u t a o).vectors = s.vectors :=
  State.deferred_field (·.vectors) (fun _ _ => rfl) (fun _ _ => rfl) (fun _ _ => rfl) (fun _ _ _ _ => rfl) (fun _ _ _ _ => rfl) (fun _ _ _ _ => rfl) s c u t a o
@[simp] theorem State.deferred_jig (s : State) (c u : BitVec 8) (t : Option Tenant) (a : Option Addr) (o : Option Nat) : (s.deferred c u t a o).jig = s.jig :=
  State.deferred_field (·.jig) (fun _ _ => rfl) (fun _ _ => rfl) (fun _ _ => rfl) (fun _ _ _ _ => rfl) (fun _ _ _ _ => rfl) (fun _ _ _ _ => rfl) s c u t a o
@[simp] theorem State.deferred_due (s : State) (c u : BitVec 8) (t : Option Tenant) (a : Option Addr) (o : Option Nat) : (s.deferred c u t a o).due = s.due :=
  State.deferred_field (·.due) (fun _ _ => rfl) (fun _ _ => rfl) (fun _ _ => rfl) (fun _ _ _ _ => rfl) (fun _ _ _ _ => rfl) (fun _ _ _ _ => rfl) s c u t a o
@[simp] theorem State.deferred_safePin (s : State) (c u : BitVec 8) (t : Option Tenant) (a : Option Addr) (o : Option Nat) : (s.deferred c u t a o).safePin = s.safePin :=
  State.deferred_field (·.safePin) (fun _ _ => rfl) (fun _ _ => rfl) (fun _ _ => rfl) (fun _ _ _ _ => rfl) (fun _ _ _ _ => rfl) (fun _ _ _ _ => rfl) s c u t a o
@[simp] theorem State.deferred_boot (s : State) (c u : BitVec 8) (t : Option Tenant) (a : Option Addr) (o : Option Nat) : (s.deferred c u t a o).boot = s.boot :=
  State.deferred_field (·.boot) (fun _ _ => rfl) (fun _ _ => rfl) (fun _ _ => rfl) (fun _ _ _ _ => rfl) (fun _ _ _ _ => rfl) (fun _ _ _ _ => rfl) s c u t a o
@[simp] theorem State.deferred_umv (s : State) (c u : BitVec 8) (t : Option Tenant) (a : Option Addr) (o : Option Nat) : (s.deferred c u t a o).umv = s.umv :=
  State.deferred_field (·.umv) (fun _ _ => rfl) (fun _ _ => rfl) (fun _ _ => rfl) (fun _ _ _ _ => rfl) (fun _ _ _ _ => rfl) (fun _ _ _ _ => rfl) s c u t a o
@[simp] theorem State.deferred_tb (s : State) (c u : BitVec 8) (t : Option Tenant) (a : Option Addr) (o : Option Nat) : (s.deferred c u t a o).tb = s.tb :=
  State.deferred_field (·.tb) (fun _ _ => rfl) (fun _ _ => rfl) (fun _ _ => rfl) (fun _ _ _ _ => rfl) (fun _ _ _ _ => rfl) (fun _ _ _ _ => rfl) s c u t a o
@[simp] theorem State.deferred_tns (s : State) (c u : BitVec 8) (t : Option Tenant) (a : Option Addr) (o : Option Nat) : (s.deferred c u t a o).tns = s.tns :=
  State.deferred_field (·.tns) (fun _ _ => rfl) (fun _ _ => rfl) (fun _ _ => rfl) (fun _ _ _ _ => rfl) (fun _ _ _ _ => rfl) (fun _ _ _ _ => rfl) s c u t a o
@[simp] theorem State.deferred_latent (s : State) (c u : BitVec 8) (t : Option Tenant) (a : Option Addr) (o : Option Nat) : (s.deferred c u t a o).latent = s.latent :=
  State.deferred_field (·.latent) (fun _ _ => rfl) (fun _ _ => rfl) (fun _ _ => rfl) (fun _ _ _ _ => rfl) (fun _ _ _ _ => rfl) (fun _ _ _ _ => rfl) s c u t a o
@[simp] theorem State.deferred_port (s : State) (c u : BitVec 8) (t : Option Tenant) (a : Option Addr) (o : Option Nat) (z : Nat) : (s.deferred c u t a o).port z = s.port z :=
  State.deferred_field (·.port z) (fun _ _ => rfl) (fun _ _ => rfl) (fun _ _ => rfl) (fun _ _ _ _ => rfl) (fun _ _ _ _ => rfl) (fun _ _ _ _ => rfl) s c u t a o
@[simp] theorem State.deferred_slice (s : State) (c u : BitVec 8) (t : Option Tenant) (a : Option Addr) (o : Option Nat) (z : Nat) : (s.deferred c u t a o).slice z = s.slice z :=
  State.deferred_field (·.slice z) (fun _ _ => rfl) (fun _ _ => rfl) (fun _ _ => rfl) (fun _ _ _ _ => rfl) (fun _ _ _ _ => rfl) (fun _ _ _ _ => rfl) s c u t a o
@[simp] theorem State.deferred_srole (s : State) (c u : BitVec 8) (t : Option Tenant) (a : Option Addr) (o : Option Nat) (z : Nat) : (s.deferred c u t a o).srole z = s.srole z :=
  State.deferred_field (·.srole z) (fun _ _ => rfl) (fun _ _ => rfl) (fun _ _ => rfl) (fun _ _ _ _ => rfl) (fun _ _ _ _ => rfl) (fun _ _ _ _ => rfl) s c u t a o
@[simp] theorem State.deferred_lsl (s : State) (c u : BitVec 8) (t : Option Tenant) (a : Option Addr) (o : Option Nat) (z : Nat) : (s.deferred c u t a o).lsl z = s.lsl z :=
  State.deferred_field (·.lsl z) (fun _ _ => rfl) (fun _ _ => rfl) (fun _ _ => rfl) (fun _ _ _ _ => rfl) (fun _ _ _ _ => rfl) (fun _ _ _ _ => rfl) s c u t a o
theorem State.deferred_fget (s : State) (c u : BitVec 8) (t : Option Tenant) (a : Option Addr) (o : Option Nat) (g : Fld) (i j : Nat)
    (h : Fld.allApart [F.SAF_CNT0_DEFER, F.SAF_LOG_STAT_DROPPED, F.EVG_DROP_FULL] (g.addr i j) g.lsb g.wid = true) (hg : g.lsb + g.wid ≤ 32) :
    (s.deferred c u t a o).fget g i j = s.fget g i j :=
  State.deferred_field (·.fget g i j) (fun _ _ => rfl) (fun _ _ => rfl) (fun _ _ => rfl) (fun s v n m => State.fget_fset_apart s v n m i j (Fld.allApart_mem h (f := F.SAF_CNT0_DEFER) (by simp)) hg) (fun s v n m => State.fget_fset_apart s v n m i j (Fld.allApart_mem h (f := F.SAF_LOG_STAT_DROPPED) (by simp)) hg) (fun s v n m => State.fget_fset_apart s v n m i j (Fld.allApart_mem h (f := F.EVG_DROP_FULL) (by simp)) hg) s c u t a o

theorem State.setTFatal_field {α : Type} (get : State → α)
    (k0 : ∀ (s : State) v n m, get (s.fset F.SAF_TFATAL_TENANT v n m) = get s) (s : State) (t : Tenant) (b : Bool) :
    get (s.setTFatal t b) = get s := by
  unfold State.setTFatal; exact k0 _ _ _ _

@[simp] theorem State.setTFatal_now (s : State) (t : Tenant) (b : Bool) : (s.setTFatal t b).now = s.now :=
  State.setTFatal_field (·.now) (fun _ _ _ _ => rfl) s t b
@[simp] theorem State.setTFatal_pat (s : State) (t : Tenant) (b : Bool) : (s.setTFatal t b).pat = s.pat :=
  State.setTFatal_field (·.pat) (fun _ _ _ _ => rfl) s t b
@[simp] theorem State.setTFatal_roles (s : State) (t : Tenant) (b : Bool) : (s.setTFatal t b).roles = s.roles :=
  State.setTFatal_field (·.roles) (fun _ _ _ _ => rfl) s t b
@[simp] theorem State.setTFatal_logic (s : State) (t : Tenant) (b : Bool) : (s.setTFatal t b).logic = s.logic :=
  State.setTFatal_field (·.logic) (fun _ _ _ _ => rfl) s t b
@[simp] theorem State.setTFatal_ports (s : State) (t : Tenant) (b : Bool) : (s.setTFatal t b).ports = s.ports :=
  State.setTFatal_field (·.ports) (fun _ _ _ _ => rfl) s t b
@[simp] theorem State.setTFatal_slices (s : State) (t : Tenant) (b : Bool) : (s.setTFatal t b).slices = s.slices :=
  State.setTFatal_field (·.slices) (fun _ _ _ _ => rfl) s t b
@[simp] theorem State.setTFatal_wins (s : State) (t : Tenant) (b : Bool) : (s.setTFatal t b).wins = s.wins :=
  State.setTFatal_field (·.wins) (fun _ _ _ _ => rfl) s t b
@[simp] theorem State.setTFatal_banks (s : State) (t : Tenant) (b : Bool) : (s.setTFatal t b).banks = s.banks :=
  State.setTFatal_field (·.banks) (fun _ _ _ _ => rfl) s t b
@[simp] theorem State.setTFatal_mig (s : State) (t : Tenant) (b : Bool) : (s.setTFatal t b).mig = s.mig :=
  State.setTFatal_field (·.mig) (fun _ _ _ _ => rfl) s t b
@[simp] theorem State.setTFatal_lossLog (s : State) (t : Tenant) (b : Bool) : (s.setTFatal t b).lossLog = s.lossLog :=
  State.setTFatal_field (·.lossLog) (fun _ _ _ _ => rfl) s t b
@[simp] theorem State.setTFatal_sources (s : State) (t : Tenant) (b : Bool) : (s.setTFatal t b).sources = s.sources :=
  State.setTFatal_field (·.sources) (fun _ _ _ _ => rfl) s t b
@[simp] theorem State.setTFatal_vectors (s : State) (t : Tenant) (b : Bool) : (s.setTFatal t b).vectors = s.vectors :=
  State.setTFatal_field (·.vectors) (fun _ _ _ _ => rfl) s t b
@[simp] theorem State.setTFatal_jig (s : State) (t : Tenant) (b : Bool) : (s.setTFatal t b).jig = s.jig :=
  State.setTFatal_field (·.jig) (fun _ _ _ _ => rfl) s t b
@[simp] theorem State.setTFatal_log (s : State) (t : Tenant) (b : Bool) : (s.setTFatal t b).log = s.log :=
  State.setTFatal_field (·.log) (fun _ _ _ _ => rfl) s t b
@[simp] theorem State.setTFatal_due (s : State) (t : Tenant) (b : Bool) : (s.setTFatal t b).due = s.due :=
  State.setTFatal_field (·.due) (fun _ _ _ _ => rfl) s t b
@[simp] theorem State.setTFatal_safePin (s : State) (t : Tenant) (b : Bool) : (s.setTFatal t b).safePin = s.safePin :=
  State.setTFatal_field (·.safePin) (fun _ _ _ _ => rfl) s t b
@[simp] theorem State.setTFatal_boot (s : State) (t : Tenant) (b : Bool) : (s.setTFatal t b).boot = s.boot :=
  State.setTFatal_field (·.boot) (fun _ _ _ _ => rfl) s t b
@[simp] theorem State.setTFatal_umv (s : State) (t : Tenant) (b : Bool) : (s.setTFatal t b).umv = s.umv :=
  State.setTFatal_field (·.umv) (fun _ _ _ _ => rfl) s t b
@[simp] theorem State.setTFatal_tb (s : State) (t : Tenant) (b : Bool) : (s.setTFatal t b).tb = s.tb :=
  State.setTFatal_field (·.tb) (fun _ _ _ _ => rfl) s t b
@[simp] theorem State.setTFatal_tns (s : State) (t : Tenant) (b : Bool) : (s.setTFatal t b).tns = s.tns :=
  State.setTFatal_field (·.tns) (fun _ _ _ _ => rfl) s t b
@[simp] theorem State.setTFatal_latent (s : State) (t : Tenant) (b : Bool) : (s.setTFatal t b).latent = s.latent :=
  State.setTFatal_field (·.latent) (fun _ _ _ _ => rfl) s t b
@[simp] theorem State.setTFatal_port (s : State) (t : Tenant) (b : Bool) (z : Nat) : (s.setTFatal t b).port z = s.port z :=
  State.setTFatal_field (·.port z) (fun _ _ _ _ => rfl) s t b
@[simp] theorem State.setTFatal_slice (s : State) (t : Tenant) (b : Bool) (z : Nat) : (s.setTFatal t b).slice z = s.slice z :=
  State.setTFatal_field (·.slice z) (fun _ _ _ _ => rfl) s t b
@[simp] theorem State.setTFatal_srole (s : State) (t : Tenant) (b : Bool) (z : Nat) : (s.setTFatal t b).srole z = s.srole z :=
  State.setTFatal_field (·.srole z) (fun _ _ _ _ => rfl) s t b
@[simp] theorem State.setTFatal_lsl (s : State) (t : Tenant) (b : Bool) (z : Nat) : (s.setTFatal t b).lsl z = s.lsl z :=
  State.setTFatal_field (·.lsl z) (fun _ _ _ _ => rfl) s t b
theorem State.setTFatal_fget (s : State) (t : Tenant) (b : Bool) (g : Fld) (i j : Nat)
    (h : Fld.allApart [F.SAF_TFATAL_TENANT] (g.addr i j) g.lsb g.wid = true) (hg : g.lsb + g.wid ≤ 32) :
    (s.setTFatal t b).fget g i j = s.fget g i j :=
  State.setTFatal_field (·.fget g i j) (fun s v n m => State.fget_fset_apart s v n m i j (Fld.allApart_mem h (f := F.SAF_TFATAL_TENANT) (by simp)) hg) s t b

theorem State.contained_field {α : Type} (get : State → α)
    (hports : ∀ (s : State) x, get { s with ports := x } = get s)
    (hslices : ∀ (s : State) x, get { s with slices := x } = get s)
    (hlog : ∀ (s : State) x, get { s with log := x } = get s)
    (hdropArm : ∀ (s : State) x, get { s with dropArm := x } = get s)
    (hsources : ∀ (s : State) x, get { s with sources := x } = get s)
    (hdue : ∀ (s : State) x, get { s with due := x } = get s)
    (k0 : ∀ (s : State) v n m, get (s.fset F.SAF_CNT1_CONT v n m) = get s)
    (k1 : ∀ (s : State) v n m, get (s.fset F.SAF_LOG_STAT_DROPPED v n m) = get s)
    (k2 : ∀ (s : State) v n m, get (s.fset F.EVG_DROP_FULL v n m) = get s)
    (k3 : ∀ (s : State) v n m, get (s.fset F.SAF_FAULT_CONTAINED v n m) = get s)
    (k4 : ∀ (s : State) v n m, get (s.fset F.SAF_NOTICE_COUNT v n m) = get s)
    (k5 : ∀ (s : State) v n m, get (s.fset F.PRT_RT_DROPCNT_NOROUTE v n m) = get s)
    (k6 : ∀ (s : State) v n m, get (s.fset F.SAF_TFATAL_TENANT v n m) = get s) (s : State) (c u : BitVec 8) (t : Tenant) (a : Option Addr) (o : Option Nat) :
    get (s.contained c u t a o) = get s := by
  have elogEntry := State.logEntry_field get hlog hdropArm hsources k1 k2
  have eraise := State.raise_field get hsources k2
  have eraiseSafety := State.raiseSafety_field get hsources k2
  have enotice := State.notice_field get hports hslices k4 k5
  have esetTFatal := State.setTFatal_field get  k6
  have ereact := State.react_field get hdue
  unfold State.contained
  cases o with
  | none =>
    dsimp only
    split
    · exact (ereact _ _).trans ((esetTFatal _ _ _).trans ((enotice _ _).trans ((k3 _ _ _ _).trans ((eraiseSafety _ _).trans ((elogEntry _ _).trans (k0 _ _ _ _))))))
    · exact (esetTFatal _ _ _).trans ((enotice _ _).trans ((k3 _ _ _ _).trans ((eraiseSafety _ _).trans ((elogEntry _ _).trans (k0 _ _ _ _)))))
  | some i =>
    dsimp only
    split
    · exact (ereact _ _).trans ((esetTFatal _ _ _).trans ((enotice _ _).trans ((k3 _ _ _ _).trans ((eraiseSafety _ _).trans ((eraise _ _ _ _).trans ((elogEntry _ _).trans (k0 _ _ _ _)))))))
    · exact (esetTFatal _ _ _).trans ((enotice _ _).trans ((k3 _ _ _ _).trans ((eraiseSafety _ _).trans ((eraise _ _ _ _).trans ((elogEntry _ _).trans (k0 _ _ _ _))))))

@[simp] theorem State.contained_now (s : State) (c u : BitVec 8) (t : Tenant) (a : Option Addr) (o : Option Nat) : (s.contained c u t a o).now = s.now :=
  State.contained_field (·.now) (fun _ _ => rfl) (fun _ _ => rfl) (fun _ _ => rfl) (fun _ _ => rfl) (fun _ _ => rfl) (fun _ _ => rfl) (fun _ _ _ _ => rfl) (fun _ _ _ _ => rfl) (fun _ _ _ _ => rfl) (fun _ _ _ _ => rfl) (fun _ _ _ _ => rfl) (fun _ _ _ _ => rfl) (fun _ _ _ _ => rfl) s c u t a o
@[simp] theorem State.contained_pat (s : State) (c u : BitVec 8) (t : Tenant) (a : Option Addr) (o : Option Nat) : (s.contained c u t a o).pat = s.pat :=
  State.contained_field (·.pat) (fun _ _ => rfl) (fun _ _ => rfl) (fun _ _ => rfl) (fun _ _ => rfl) (fun _ _ => rfl) (fun _ _ => rfl) (fun _ _ _ _ => rfl) (fun _ _ _ _ => rfl) (fun _ _ _ _ => rfl) (fun _ _ _ _ => rfl) (fun _ _ _ _ => rfl) (fun _ _ _ _ => rfl) (fun _ _ _ _ => rfl) s c u t a o
@[simp] theorem State.contained_roles (s : State) (c u : BitVec 8) (t : Tenant) (a : Option Addr) (o : Option Nat) : (s.contained c u t a o).roles = s.roles :=
  State.contained_field (·.roles) (fun _ _ => rfl) (fun _ _ => rfl) (fun _ _ => rfl) (fun _ _ => rfl) (fun _ _ => rfl) (fun _ _ => rfl) (fun _ _ _ _ => rfl) (fun _ _ _ _ => rfl) (fun _ _ _ _ => rfl) (fun _ _ _ _ => rfl) (fun _ _ _ _ => rfl) (fun _ _ _ _ => rfl) (fun _ _ _ _ => rfl) s c u t a o
@[simp] theorem State.contained_logic (s : State) (c u : BitVec 8) (t : Tenant) (a : Option Addr) (o : Option Nat) : (s.contained c u t a o).logic = s.logic :=
  State.contained_field (·.logic) (fun _ _ => rfl) (fun _ _ => rfl) (fun _ _ => rfl) (fun _ _ => rfl) (fun _ _ => rfl) (fun _ _ => rfl) (fun _ _ _ _ => rfl) (fun _ _ _ _ => rfl) (fun _ _ _ _ => rfl) (fun _ _ _ _ => rfl) (fun _ _ _ _ => rfl) (fun _ _ _ _ => rfl) (fun _ _ _ _ => rfl) s c u t a o
@[simp] theorem State.contained_wins (s : State) (c u : BitVec 8) (t : Tenant) (a : Option Addr) (o : Option Nat) : (s.contained c u t a o).wins = s.wins :=
  State.contained_field (·.wins) (fun _ _ => rfl) (fun _ _ => rfl) (fun _ _ => rfl) (fun _ _ => rfl) (fun _ _ => rfl) (fun _ _ => rfl) (fun _ _ _ _ => rfl) (fun _ _ _ _ => rfl) (fun _ _ _ _ => rfl) (fun _ _ _ _ => rfl) (fun _ _ _ _ => rfl) (fun _ _ _ _ => rfl) (fun _ _ _ _ => rfl) s c u t a o
@[simp] theorem State.contained_banks (s : State) (c u : BitVec 8) (t : Tenant) (a : Option Addr) (o : Option Nat) : (s.contained c u t a o).banks = s.banks :=
  State.contained_field (·.banks) (fun _ _ => rfl) (fun _ _ => rfl) (fun _ _ => rfl) (fun _ _ => rfl) (fun _ _ => rfl) (fun _ _ => rfl) (fun _ _ _ _ => rfl) (fun _ _ _ _ => rfl) (fun _ _ _ _ => rfl) (fun _ _ _ _ => rfl) (fun _ _ _ _ => rfl) (fun _ _ _ _ => rfl) (fun _ _ _ _ => rfl) s c u t a o
@[simp] theorem State.contained_mig (s : State) (c u : BitVec 8) (t : Tenant) (a : Option Addr) (o : Option Nat) : (s.contained c u t a o).mig = s.mig :=
  State.contained_field (·.mig) (fun _ _ => rfl) (fun _ _ => rfl) (fun _ _ => rfl) (fun _ _ => rfl) (fun _ _ => rfl) (fun _ _ => rfl) (fun _ _ _ _ => rfl) (fun _ _ _ _ => rfl) (fun _ _ _ _ => rfl) (fun _ _ _ _ => rfl) (fun _ _ _ _ => rfl) (fun _ _ _ _ => rfl) (fun _ _ _ _ => rfl) s c u t a o
@[simp] theorem State.contained_lossLog (s : State) (c u : BitVec 8) (t : Tenant) (a : Option Addr) (o : Option Nat) : (s.contained c u t a o).lossLog = s.lossLog :=
  State.contained_field (·.lossLog) (fun _ _ => rfl) (fun _ _ => rfl) (fun _ _ => rfl) (fun _ _ => rfl) (fun _ _ => rfl) (fun _ _ => rfl) (fun _ _ _ _ => rfl) (fun _ _ _ _ => rfl) (fun _ _ _ _ => rfl) (fun _ _ _ _ => rfl) (fun _ _ _ _ => rfl) (fun _ _ _ _ => rfl) (fun _ _ _ _ => rfl) s c u t a o
@[simp] theorem State.contained_vectors (s : State) (c u : BitVec 8) (t : Tenant) (a : Option Addr) (o : Option Nat) : (s.contained c u t a o).vectors = s.vectors :=
  State.contained_field (·.vectors) (fun _ _ => rfl) (fun _ _ => rfl) (fun _ _ => rfl) (fun _ _ => rfl) (fun _ _ => rfl) (fun _ _ => rfl) (fun _ _ _ _ => rfl) (fun _ _ _ _ => rfl) (fun _ _ _ _ => rfl) (fun _ _ _ _ => rfl) (fun _ _ _ _ => rfl) (fun _ _ _ _ => rfl) (fun _ _ _ _ => rfl) s c u t a o
@[simp] theorem State.contained_jig (s : State) (c u : BitVec 8) (t : Tenant) (a : Option Addr) (o : Option Nat) : (s.contained c u t a o).jig = s.jig :=
  State.contained_field (·.jig) (fun _ _ => rfl) (fun _ _ => rfl) (fun _ _ => rfl) (fun _ _ => rfl) (fun _ _ => rfl) (fun _ _ => rfl) (fun _ _ _ _ => rfl) (fun _ _ _ _ => rfl) (fun _ _ _ _ => rfl) (fun _ _ _ _ => rfl) (fun _ _ _ _ => rfl) (fun _ _ _ _ => rfl) (fun _ _ _ _ => rfl) s c u t a o
@[simp] theorem State.contained_safePin (s : State) (c u : BitVec 8) (t : Tenant) (a : Option Addr) (o : Option Nat) : (s.contained c u t a o).safePin = s.safePin :=
  State.contained_field (·.safePin) (fun _ _ => rfl) (fun _ _ => rfl) (fun _ _ => rfl) (fun _ _ => rfl) (fun _ _ => rfl) (fun _ _ => rfl) (fun _ _ _ _ => rfl) (fun _ _ _ _ => rfl) (fun _ _ _ _ => rfl) (fun _ _ _ _ => rfl) (fun _ _ _ _ => rfl) (fun _ _ _ _ => rfl) (fun _ _ _ _ => rfl) s c u t a o
@[simp] theorem State.contained_boot (s : State) (c u : BitVec 8) (t : Tenant) (a : Option Addr) (o : Option Nat) : (s.contained c u t a o).boot = s.boot :=
  State.contained_field (·.boot) (fun _ _ => rfl) (fun _ _ => rfl) (fun _ _ => rfl) (fun _ _ => rfl) (fun _ _ => rfl) (fun _ _ => rfl) (fun _ _ _ _ => rfl) (fun _ _ _ _ => rfl) (fun _ _ _ _ => rfl) (fun _ _ _ _ => rfl) (fun _ _ _ _ => rfl) (fun _ _ _ _ => rfl) (fun _ _ _ _ => rfl) s c u t a o
@[simp] theorem State.contained_umv (s : State) (c u : BitVec 8) (t : Tenant) (a : Option Addr) (o : Option Nat) : (s.contained c u t a o).umv = s.umv :=
  State.contained_field (·.umv) (fun _ _ => rfl) (fun _ _ => rfl) (fun _ _ => rfl) (fun _ _ => rfl) (fun _ _ => rfl) (fun _ _ => rfl) (fun _ _ _ _ => rfl) (fun _ _ _ _ => rfl) (fun _ _ _ _ => rfl) (fun _ _ _ _ => rfl) (fun _ _ _ _ => rfl) (fun _ _ _ _ => rfl) (fun _ _ _ _ => rfl) s c u t a o
@[simp] theorem State.contained_tb (s : State) (c u : BitVec 8) (t : Tenant) (a : Option Addr) (o : Option Nat) : (s.contained c u t a o).tb = s.tb :=
  State.contained_field (·.tb) (fun _ _ => rfl) (fun _ _ => rfl) (fun _ _ => rfl) (fun _ _ => rfl) (fun _ _ => rfl) (fun _ _ => rfl) (fun _ _ _ _ => rfl) (fun _ _ _ _ => rfl) (fun _ _ _ _ => rfl) (fun _ _ _ _ => rfl) (fun _ _ _ _ => rfl) (fun _ _ _ _ => rfl) (fun _ _ _ _ => rfl) s c u t a o
@[simp] theorem State.contained_tns (s : State) (c u : BitVec 8) (t : Tenant) (a : Option Addr) (o : Option Nat) : (s.contained c u t a o).tns = s.tns :=
  State.contained_field (·.tns) (fun _ _ => rfl) (fun _ _ => rfl) (fun _ _ => rfl) (fun _ _ => rfl) (fun _ _ => rfl) (fun _ _ => rfl) (fun _ _ _ _ => rfl) (fun _ _ _ _ => rfl) (fun _ _ _ _ => rfl) (fun _ _ _ _ => rfl) (fun _ _ _ _ => rfl) (fun _ _ _ _ => rfl) (fun _ _ _ _ => rfl) s c u t a o
@[simp] theorem State.contained_latent (s : State) (c u : BitVec 8) (t : Tenant) (a : Option Addr) (o : Option Nat) : (s.contained c u t a o).latent = s.latent :=
  State.contained_field (·.latent) (fun _ _ => rfl) (fun _ _ => rfl) (fun _ _ => rfl) (fun _ _ => rfl) (fun _ _ => rfl) (fun _ _ => rfl) (fun _ _ _ _ => rfl) (fun _ _ _ _ => rfl) (fun _ _ _ _ => rfl) (fun _ _ _ _ => rfl) (fun _ _ _ _ => rfl) (fun _ _ _ _ => rfl) (fun _ _ _ _ => rfl) s c u t a o
@[simp] theorem State.contained_srole (s : State) (c u : BitVec 8) (t : Tenant) (a : Option Addr) (o : Option Nat) (z : Nat) : (s.contained c u t a o).srole z = s.srole z :=
  State.contained_field (·.srole z) (fun _ _ => rfl) (fun _ _ => rfl) (fun _ _ => rfl) (fun _ _ => rfl) (fun _ _ => rfl) (fun _ _ => rfl) (fun _ _ _ _ => rfl) (fun _ _ _ _ => rfl) (fun _ _ _ _ => rfl) (fun _ _ _ _ => rfl) (fun _ _ _ _ => rfl) (fun _ _ _ _ => rfl) (fun _ _ _ _ => rfl) s c u t a o
@[simp] theorem State.contained_lsl (s : State) (c u : BitVec 8) (t : Tenant) (a : Option Addr) (o : Option Nat) (z : Nat) : (s.contained c u t a o).lsl z = s.lsl z :=
  State.contained_field (·.lsl z) (fun _ _ => rfl) (fun _ _ => rfl) (fun _ _ => rfl) (fun _ _ => rfl) (fun _ _ => rfl) (fun _ _ => rfl) (fun _ _ _ _ => rfl) (fun _ _ _ _ => rfl) (fun _ _ _ _ => rfl) (fun _ _ _ _ => rfl) (fun _ _ _ _ => rfl) (fun _ _ _ _ => rfl) (fun _ _ _ _ => rfl) s c u t a o
theorem State.contained_fget (s : State) (c u : BitVec 8) (t : Tenant) (a : Option Addr) (o : Option Nat) (g : Fld) (i j : Nat)
    (h : Fld.allApart [F.SAF_CNT1_CONT, F.SAF_LOG_STAT_DROPPED, F.EVG_DROP_FULL, F.SAF_FAULT_CONTAINED, F.SAF_NOTICE_COUNT, F.PRT_RT_DROPCNT_NOROUTE, F.SAF_TFATAL_TENANT] (g.addr i j) g.lsb g.wid = true) (hg : g.lsb + g.wid ≤ 32) :
    (s.contained c u t a o).fget g i j = s.fget g i j :=
  State.contained_field (·.fget g i j) (fun _ _ => rfl) (fun _ _ => rfl) (fun _ _ => rfl) (fun _ _ => rfl) (fun _ _ => rfl) (fun _ _ => rfl) (fun s v n m => State.fget_fset_apart s v n m i j (Fld.allApart_mem h (f := F.SAF_CNT1_CONT) (by simp)) hg) (fun s v n m => State.fget_fset_apart s v n m i j (Fld.allApart_mem h (f := F.SAF_LOG_STAT_DROPPED) (by simp)) hg) (fun s v n m => State.fget_fset_apart s v n m i j (Fld.allApart_mem h (f := F.EVG_DROP_FULL) (by simp)) hg) (fun s v n m => State.fget_fset_apart s v n m i j (Fld.allApart_mem h (f := F.SAF_FAULT_CONTAINED) (by simp)) hg) (fun s v n m => State.fget_fset_apart s v n m i j (Fld.allApart_mem h (f := F.SAF_NOTICE_COUNT) (by simp)) hg) (fun s v n m => State.fget_fset_apart s v n m i j (Fld.allApart_mem h (f := F.PRT_RT_DROPCNT_NOROUTE) (by simp)) hg) (fun s v n m => State.fget_fset_apart s v n m i j (Fld.allApart_mem h (f := F.SAF_TFATAL_TENANT) (by simp)) hg) s c u t a o

end Sys2Proof.Machine
end

