-- ==== Sys2Proof/Laws/KeepsMessages.lean ====
section
/-!
SUPPORT. What the operations of Machine/Messages.lean keep of a state (`Keeps`), one law each.
-/
namespace Sys2Proof.Machine
set_option linter.all false

theorem State.sendOn_keeps {s0 s : State} (h : Keeps s0 s) {x2 x3} :
    Keeps s0 (State.sendOn s x2 x3) := by
  unfold State.sendOn
  repeat' first
    | with_reducible exact h
    | with_reducible assumption
    | (intro; try dsimp -zeta only)
    | with_reducible apply modPort_keeps
    | with_reducible apply Keeps.ite
    | decide
    | (split; all_goals (try dsimp -zeta only))

theorem State.startTimer_keeps {s0 s : State} (h : Keeps s0 s) {x2} :
    Keeps s0 (State.startTimer s x2) := by
  unfold State.startTimer
  repeat' first
    | with_reducible exact h
    | with_reducible assumption
    | (intro; try dsimp -zeta only)
    | with_reducible apply setTxn_keeps
    | (extract_lets +onlyGivenNames x; refine Keeps.cut x ?_ ?_; dsimp -zeta only [x]; clear x; rotate_left; intro hx; clear_value x; rotate_left)
    | extract_lets +onlyGivenNames x
    | with_reducible apply Keeps.ite
    | decide
    | (split; all_goals (try dsimp -zeta only))
    | (dsimp +zetaDelta -zeta only)

theorem State.send_keeps {s0 s : State} (h : Keeps s0 s) {x2} :
    Keeps s0 (State.send s x2) := by
  unfold State.send
  repeat' first
    | with_reducible exact h
    | with_reducible assumption
    | (intro; try dsimp -zeta only)
    | with_reducible apply State.sendOn_keeps
    | with_reducible apply State.startTimer_keeps
    | with_reducible apply bump_keeps
    | with_reducible apply Keeps.ite
    | decide
    | (split; all_goals (try dsimp -zeta only))

theorem State.sendAll_keeps {s0 s : State} (h : Keeps s0 s) {x2} :
    Keeps s0 (State.sendAll s x2) := by
  unfold State.sendAll
  repeat' first
    | with_reducible exact h
    | with_reducible assumption
    | (intro; try dsimp -zeta only)
    | with_reducible apply State.send_keeps
    | with_reducible apply Keeps.ite
    | with_reducible apply foldl_keeps
    | with_reducible apply foldl_snd_keeps
    | decide
    | (split; all_goals (try dsimp -zeta only))

theorem State.failover_keeps {s0 s : State} (h : Keeps s0 s) :
    Keeps s0 (State.failover s) := by
  unfold State.failover
  repeat' first
    | with_reducible exact h
    | with_reducible assumption
    | (intro; try dsimp -zeta only)
    | (extract_lets +onlyGivenNames x; refine Keeps.cut x ?_ ?_; dsimp -zeta only [x]; clear x; rotate_left; intro hx; clear_value x; rotate_left)
    | extract_lets +onlyGivenNames x
    | with_reducible apply Keeps.ite
    | with_reducible apply forUp_keeps
    | decide
    | (split; all_goals (try dsimp -zeta only))
    | with_reducible apply curSet_keeps
    | (dsimp +zetaDelta -zeta only)

theorem State.setPortState_keeps {s0 s : State} (h : Keeps s0 s) {x2 x3} :
    Keeps s0 (State.setPortState s x2 x3) := by
  unfold State.setPortState
  repeat' first
    | with_reducible exact h
    | with_reducible assumption
    | (intro; try dsimp -zeta only)
    | with_reducible apply State.failover_keeps
    | with_reducible apply modPort_keeps
    | with_reducible apply Keeps.ite
    | decide
    | (split; all_goals (try dsimp -zeta only))

end Sys2Proof.Machine
end

