-- ==== Sys2Proof/Laws/KeepsReport.lean ====
section
/-!
SUPPORT. What the operations of Machine/Report.lean keep of a state (`Keeps`), one law each.
-/
namespace Sys2Proof.Machine
set_option linter.all false

theorem State.raise_keeps {s0 s : State} (h : Keeps s0 s) {i cls : Nat} {ten : Option Tenant} :
    Keeps s0 (s.raise i cls ten) := by
  unfold State.raise
  dsimp only
  split
  · rename_i hl
    exact sourcesSet_keeps h (fun _ => by simp only [List.length_append, List.length_singleton]; omega)
  · refine bump_keeps ?_ (by decide)
    exact sourcesSet_keeps h (fun x => x.get i)

theorem State.raiseSafety_keeps {s0 s : State} (h : Keeps s0 s) {x2} :
    Keeps s0 (State.raiseSafety s x2) := by
  unfold State.raiseSafety
  repeat' first
    | with_reducible exact h
    | with_reducible assumption
    | (intro; try dsimp -zeta only)
    | with_reducible apply State.raise_keeps
    | with_reducible apply Keeps.ite
    | decide
    | (split; all_goals (try dsimp -zeta only))

theorem dropWeak_length : ∀ (l r : List LogEntry), dropWeak l = some r → r.length + 1 = l.length
  | [], r, h => by simp [dropWeak] at h
  | e :: t, r, h => by
    unfold dropWeak at h
    split at h
    · cases ht : dropWeak t with
      | none => simp [ht] at h
      | some q =>
        have := dropWeak_length t q ht
        simp only [ht, Option.map_some, Option.some.injEq] at h
        subst h; simp only [List.length_cons]; omega
    · cases h; rfl

/-- A change of the error log that leaves at most 256 entries. -/
theorem logSet_keeps {s0 s : State} (h : Keeps s0 s) {l : List LogEntry} (hl : s.log.length ≤ 256 → l.length ≤ 256) :
    Keeps s0 { s with log := l } :=
  h.trans ⟨rfl, id, fun x => ⟨x.regs, x.cur, x.roles, x.logic, x.moved, x.ports, x.slices, x.wins, x.banks, x.sources, x.vectors, x.jig⟩,
    id, id, hl, id, id⟩

theorem State.logEntry_keeps {s0 s : State} (h : Keeps s0 s) {e : LogEntry} : Keeps s0 (s.logEntry e) := by
  unfold State.logEntry
  split
  · rename_i hl
    exact logSet_keeps h (fun _ => by rw [List.length_append, List.length_singleton]; omega)
  · split
    · rename_i l hd
      refine logSet_keeps h (fun hx => ?_)
      split at hd
      · have := dropWeak_length _ _ hd
        rw [List.length_append, List.length_singleton]; omega
      · cases hd
    · dsimp only
      have h1 : Keeps s0 (s.bump F.SAF_LOG_STAT_DROPPED) := bump_keeps h (by decide)
      split
      · refine State.raiseSafety_keeps ?_
        exact h1.same rfl rfl rfl rfl rfl rfl ⟨rfl, rfl, rfl, rfl, rfl, rfl, rfl, rfl, rfl, rfl⟩
      · exact h1

theorem State.notice_keeps {s0 s : State} (h : Keeps s0 s) {x2} :
    Keeps s0 (State.notice s x2) := by
  unfold State.notice
  repeat' first
    | with_reducible exact h
    | with_reducible assumption
    | (intro; try dsimp -zeta only)
    | with_reducible apply State.send_keeps
    | with_reducible apply wrapInc_keeps
    | (extract_lets +onlyGivenNames x; refine Keeps.cut x ?_ ?_; dsimp -zeta only [x]; clear x; rotate_left; intro hx; clear_value x; rotate_left)
    | extract_lets +onlyGivenNames x
    | with_reducible apply Keeps.ite
    | decide
    | (split; all_goals (try dsimp -zeta only))
    | (dsimp +zetaDelta -zeta only)

theorem State.react_keeps {s0 s : State} (h : Keeps s0 s) {x2} :
    Keeps s0 (State.react s x2) := by
  unfold State.react
  repeat' first
    | with_reducible exact h
    | with_reducible assumption
    | (intro; try dsimp -zeta only)
    | with_reducible apply Keeps.ite
    | decide
    | (split; all_goals (try dsimp -zeta only))
    | with_reducible apply dueSet_keeps

theorem State.enterSafe_keeps {s0 s : State} (h : Keeps s0 s) {cause : BitVec 8} : Keeps s0 (s.enterSafe cause) := by
  unfold State.enterSafe
  refine Keeps.ite h (State.react_keeps (State.raiseSafety_keeps ?_))
  exact fset_keeps (s := ({ s with safePin := true } : State).setFlag F.SAF_STATUS_SAFE true)
    (fset_keeps_pinned (pinSet_keeps h) rfl (by decide)) (by decide)

theorem State.safeCause_keeps {s0 s : State} (h : Keeps s0 s) {x2 x3} :
    Keeps s0 (State.safeCause s x2 x3) := by
  unfold State.safeCause
  repeat' first
    | with_reducible exact h
    | with_reducible assumption
    | (intro; try dsimp -zeta only)
    | with_reducible apply State.logEntry_keeps
    | with_reducible apply State.notice_keeps
    | with_reducible apply State.enterSafe_keeps
    | with_reducible apply Keeps.ite
    | decide
    | (split; all_goals (try dsimp -zeta only))

theorem State.corrected_keeps {s0 s : State} (h : Keeps s0 s) {x2 x3 x4 x5} :
    Keeps s0 (State.corrected s x2 x3 x4 x5) := by
  unfold State.corrected
  repeat' first
    | with_reducible exact h
    | with_reducible assumption
    | (intro; try dsimp -zeta only)
    | with_reducible apply bump_keeps
    | with_reducible apply State.logEntry_keeps
    | (extract_lets +onlyGivenNames x; refine Keeps.cut x ?_ ?_; dsimp -zeta only [x]; clear x; rotate_left; intro hx; clear_value x; rotate_left)
    | extract_lets +onlyGivenNames x
    | with_reducible apply Keeps.ite
    | decide
    | (split; all_goals (try dsimp -zeta only))
    | (dsimp +zetaDelta -zeta only)

theorem State.deferred_keeps {s0 s : State} (h : Keeps s0 s) {x2 x3 x4 x5 x6} :
    Keeps s0 (State.deferred s x2 x3 x4 x5 x6) := by
  unfold State.deferred
  repeat' first
    | with_reducible exact h
    | with_reducible assumption
    | (intro; try dsimp -zeta only)
    | with_reducible apply bump_keeps
    | with_reducible apply State.raise_keeps
    | with_reducible apply State.raiseSafety_keeps
    | with_reducible apply State.logEntry_keeps
    | (extract_lets +onlyGivenNames x; refine Keeps.cut x ?_ ?_; dsimp -zeta only [x]; clear x; rotate_left; intro hx; clear_value x; rotate_left)
    | extract_lets +onlyGivenNames x
    | with_reducible apply Keeps.ite
    | decide
    | (split; all_goals (try dsimp -zeta only))
    | (dsimp +zetaDelta -zeta only)

theorem State.setTFatal_keeps {s0 s : State} (h : Keeps s0 s) {x2 x3} :
    Keeps s0 (State.setTFatal s x2 x3) := by
  unfold State.setTFatal
  repeat' first
    | with_reducible exact h
    | with_reducible assumption
    | (intro; try dsimp -zeta only)
    | with_reducible apply fset_keeps
    | (extract_lets +onlyGivenNames x; refine Keeps.cut x ?_ ?_; dsimp -zeta only [x]; clear x; rotate_left; intro hx; clear_value x; rotate_left)
    | extract_lets +onlyGivenNames x
    | with_reducible apply Keeps.ite
    | decide
    | (split; all_goals (try dsimp -zeta only))
    | (dsimp +zetaDelta -zeta only)

theorem State.contained_keeps {s0 s : State} (h : Keeps s0 s) {x2 x3 x4 x5 x6} :
    Keeps s0 (State.contained s x2 x3 x4 x5 x6) := by
  unfold State.contained
  repeat' first
    | with_reducible exact h
    | with_reducible assumption
    | (intro; try dsimp -zeta only)
    | with_reducible apply setFlag_keeps
    | with_reducible apply bump_keeps
    | with_reducible apply State.raise_keeps
    | with_reducible apply State.raiseSafety_keeps
    | with_reducible apply State.logEntry_keeps
    | with_reducible apply State.notice_keeps
    | with_reducible apply State.react_keeps
    | with_reducible apply State.setTFatal_keeps
    | (extract_lets +onlyGivenNames x; refine Keeps.cut x ?_ ?_; dsimp -zeta only [x]; clear x; rotate_left; intro hx; clear_value x; rotate_left)
    | extract_lets +onlyGivenNames x
    | with_reducible apply Keeps.ite
    | decide
    | (split; all_goals (try dsimp -zeta only))
    | (dsimp +zetaDelta -zeta only)

theorem State.containedNone_keeps {s0 s : State} (h : Keeps s0 s) {x2 x3 x4} :
    Keeps s0 (State.containedNone s x2 x3 x4) := by
  unfold State.containedNone
  repeat' first
    | with_reducible exact h
    | with_reducible assumption
    | (intro; try dsimp -zeta only)
    | with_reducible apply setFlag_keeps
    | with_reducible apply bump_keeps
    | with_reducible apply State.raiseSafety_keeps
    | with_reducible apply State.logEntry_keeps
    | with_reducible apply State.notice_keeps
    | (extract_lets +onlyGivenNames x; refine Keeps.cut x ?_ ?_; dsimp -zeta only [x]; clear x; rotate_left; intro hx; clear_value x; rotate_left)
    | extract_lets +onlyGivenNames x
    | with_reducible apply Keeps.ite
    | decide
    | (split; all_goals (try dsimp -zeta only))
    | (dsimp +zetaDelta -zeta only)

theorem State.fatal_keeps {s0 s : State} (h : Keeps s0 s) {x2 x3 x4 x5} :
    Keeps s0 (State.fatal s x2 x3 x4 x5) := by
  unfold State.fatal
  repeat' first
    | with_reducible exact h
    | with_reducible assumption
    | (intro; try dsimp -zeta only)
    | with_reducible apply setFlag_keeps
    | with_reducible apply bump_keeps
    | with_reducible apply State.raiseSafety_keeps
    | with_reducible apply State.logEntry_keeps
    | with_reducible apply State.notice_keeps
    | with_reducible apply State.react_keeps
    | with_reducible apply State.enterSafe_keeps
    | (extract_lets +onlyGivenNames x; refine Keeps.cut x ?_ ?_; dsimp -zeta only [x]; clear x; rotate_left; intro hx; clear_value x; rotate_left)
    | extract_lets +onlyGivenNames x
    | with_reducible apply Keeps.ite
    | decide
    | (split; all_goals (try dsimp -zeta only))
    | (dsimp +zetaDelta -zeta only)

end Sys2Proof.Machine
end

