-- ==== Sys2Proof/Laws/KeepsJigCore.lean ====
section
/-!
SUPPORT. What the operations of Machine/JigCore.lean keep of a state (`Keeps`), one law each.
-/
namespace Sys2Proof.Machine
set_option linter.all false

theorem State.jigFire_keeps {s0 s : State} (h : Keeps s0 s) {x2 x3} :
    Keeps s0 (State.jigFire s x2 x3) := by
  unfold State.jigFire
  repeat' first
    | with_reducible exact h
    | with_reducible assumption
    | (intro; try dsimp -zeta only)
    | with_reducible apply bump_keeps
    | with_reducible apply State.react_keeps
    | (extract_lets +onlyGivenNames x; refine Keeps.cut x ?_ ?_; dsimp -zeta only [x]; clear x; rotate_left; intro hx; clear_value x; rotate_left)
    | extract_lets +onlyGivenNames x
    | with_reducible apply Keeps.ite
    | decide
    | (split; all_goals (try dsimp -zeta only))
    | with_reducible apply jigSet_keeps
    | (dsimp +zetaDelta -zeta only)

theorem State.jigRead_keeps {s0 s : State} (h : Keeps s0 s) {x2 x3 x4} :
    Keeps s0 (State.jigRead s x2 x3 x4).2 := by
  unfold State.jigRead
  try dsimp only
  repeat' first
    | with_reducible exact h
    | with_reducible assumption
    | (intro; try dsimp only)
    | with_reducible apply State.jigFire_keeps
    | with_reducible apply Keeps.ite
    | with_reducible apply foldl_keeps
    | with_reducible apply foldl_snd_keeps
    | decide
    | (split; all_goals (try dsimp only))
    | with_reducible apply jigSet_keeps
    | (dsimp +zetaDelta -zeta only)

theorem State.jigDisarm_keeps {s0 s : State} (h : Keeps s0 s) {c : Nat} {code : Option Nat} :
    Keeps s0 (State.jigDisarm s c code) := by
  unfold State.jigDisarm
  split
  · exact h
  · have h1 : Keeps s0 (({ s with jig := spErase c s.jig } : State).setFlag F.JIG_CH_CTL_ARM false 0 c) :=
      setFlag_keeps (jigErase_keeps h) (by decide)
    dsimp only
    split
    · exact fset_keeps h1 (by decide)
    · exact h1

theorem State.jigDisarmAll_keeps {s0 s : State} (h : Keeps s0 s) {x2} :
    Keeps s0 (State.jigDisarmAll s x2) := by
  unfold State.jigDisarmAll
  repeat' first
    | with_reducible exact h
    | with_reducible assumption
    | (intro; try dsimp -zeta only)
    | with_reducible apply State.jigDisarm_keeps
    | with_reducible apply Keeps.ite
    | with_reducible apply forUp_keeps
    | decide
    | (split; all_goals (try dsimp -zeta only))

end Sys2Proof.Machine
end

