-- ==== Sys2Proof/Laws/KeepsAddress.lean ====
section
/-!
SUPPORT. What the operations of Machine/Address.lean keep of a state (`Keeps`), one law each.
-/
namespace Sys2Proof.Machine
set_option linter.all false

theorem State.modLsl_keeps {s0 s : State} (h : Keeps s0 s) {x2 x3} :
    Keeps s0 (State.modLsl s x2 x3) := by
  unfold State.modLsl
  repeat' first
    | with_reducible exact h
    | with_reducible assumption
    | (intro; try dsimp -zeta only)
    | with_reducible apply Keeps.ite
    | decide
    | (split; all_goals (try dsimp -zeta only))
    | with_reducible apply logicSet_keeps

end Sys2Proof.Machine
end

