-- ==== Sys2Proof/Laws/KeepsLink.lean ====
section
/-!
SUPPORT. What the operations of Machine/Link.lean keep of a state (`Keeps`), one law each.
-/
namespace Sys2Proof.Machine
set_option linter.all false

theorem State.lastErr_keeps {s0 s : State} (h : Keeps s0 s) {x2 x3} :
    Keeps s0 (State.lastErr s x2 x3) := by
  unfold State.lastErr
  repeat' first
    | with_reducible exact h
    | with_reducible assumption
    | (intro; try dsimp -zeta only)
    | with_reducible apply fset_keeps
    | with_reducible apply setFlag_keeps
    | with_reducible apply Keeps.ite
    | decide
    | (split; all_goals (try dsimp -zeta only))

theorem State.takeUndelivered_keeps {s0 s : State} (h : Keeps s0 s) {x2} :
    Keeps s0 (State.takeUndelivered s x2).2 := by
  unfold State.takeUndelivered
  repeat' first
    | with_reducible exact h
    | with_reducible assumption
    | (intro; try dsimp -zeta only)
    | with_reducible apply State.startTimer_keeps
    | with_reducible apply setPort_keeps
    | (extract_lets +onlyGivenNames x; refine Keeps.cut x ?_ ?_; dsimp -zeta only [x]; clear x; rotate_left; intro hx; clear_value x; rotate_left)
    | extract_lets +onlyGivenNames x
    | with_reducible apply Keeps.ite
    | with_reducible apply foldl_keeps
    | with_reducible apply foldl_snd_keeps
    | decide
    | (split; all_goals (try dsimp -zeta only))
    | (dsimp +zetaDelta -zeta only)

theorem State.dropPartial_keeps {s0 s : State} (h : Keeps s0 s) {x2} :
    Keeps s0 (State.dropPartial s x2) := by
  unfold State.dropPartial
  repeat' first
    | with_reducible exact h
    | with_reducible assumption
    | (intro; try dsimp -zeta only)
    | with_reducible apply bump_keeps
    | with_reducible apply modPort_keeps
    | with_reducible apply Keeps.ite
    | decide
    | (split; all_goals (try dsimp -zeta only))

theorem State.failPort_keeps {s0 s : State} (h : Keeps s0 s) {x2 x3} :
    Keeps s0 (State.failPort s x2 x3) := by
  unfold State.failPort
  repeat' first
    | with_reducible exact h
    | with_reducible assumption
    | (intro; try dsimp -zeta only)
    | with_reducible apply State.lastErr_keeps
    | with_reducible apply State.takeUndelivered_keeps
    | with_reducible apply State.dropPartial_keeps
    | with_reducible apply State.sendAll_keeps
    | with_reducible apply State.setPortState_keeps
    | with_reducible apply modPort_keeps
    | with_reducible apply State.raise_keeps
    | (extract_lets +onlyGivenNames x; refine Keeps.cut x ?_ ?_; dsimp -zeta only [x]; clear x; rotate_left; intro hx; clear_value x; rotate_left)
    | extract_lets +onlyGivenNames x
    | with_reducible apply Keeps.ite
    | decide
    | (split; all_goals (try dsimp -zeta only))
    | (dsimp +zetaDelta -zeta only)

theorem State.linkReset_keeps {s0 s : State} (h : Keeps s0 s) {x2 x3} :
    Keeps s0 (State.linkReset s x2 x3) := by
  unfold State.linkReset
  repeat' first
    | with_reducible exact h
    | with_reducible assumption
    | (intro; try dsimp -zeta only)
    | with_reducible apply State.lastErr_keeps
    | with_reducible apply State.takeUndelivered_keeps
    | with_reducible apply State.dropPartial_keeps
    | with_reducible apply State.failPort_keeps
    | with_reducible apply State.sendAll_keeps
    | with_reducible apply State.setPortState_keeps
    | with_reducible apply bump_keeps
    | with_reducible apply modPort_keeps
    | with_reducible apply State.react_keeps
    | (extract_lets +onlyGivenNames x; refine Keeps.cut x ?_ ?_; dsimp -zeta only [x]; clear x; rotate_left; intro hx; clear_value x; rotate_left)
    | extract_lets +onlyGivenNames x
    | with_reducible apply Keeps.ite
    | decide
    | (split; all_goals (try dsimp -zeta only))
    | (dsimp +zetaDelta -zeta only)

theorem State.linkError_keeps {s0 s : State} (h : Keeps s0 s) {x2 x3} :
    Keeps s0 (State.linkError s x2 x3) := by
  unfold State.linkError
  repeat' first
    | with_reducible exact h
    | with_reducible assumption
    | (intro; try dsimp -zeta only)
    | with_reducible apply modPort_keeps
    | with_reducible apply Keeps.ite
    | decide
    | (split; all_goals (try dsimp -zeta only))

theorem State.retrain_keeps {s0 s : State} (h : Keeps s0 s) {x2} :
    Keeps s0 (State.retrain s x2) := by
  unfold State.retrain
  repeat' first
    | with_reducible exact h
    | with_reducible assumption
    | (intro; try dsimp -zeta only)
    | with_reducible apply State.linkReset_keeps
    | with_reducible apply State.setPortState_keeps
    | with_reducible apply bump_keeps
    | with_reducible apply modPort_keeps
    | (extract_lets +onlyGivenNames x; refine Keeps.cut x ?_ ?_; dsimp -zeta only [x]; clear x; rotate_left; intro hx; clear_value x; rotate_left)
    | extract_lets +onlyGivenNames x
    | with_reducible apply Keeps.ite
    | decide
    | (split; all_goals (try dsimp -zeta only))
    | (dsimp +zetaDelta -zeta only)

theorem State.startReplay_keeps {s0 s : State} (h : Keeps s0 s) {x2} :
    Keeps s0 (State.startReplay s x2) := by
  unfold State.startReplay
  repeat' first
    | with_reducible exact h
    | with_reducible assumption
    | (intro; try dsimp -zeta only)
    | with_reducible apply State.retrain_keeps
    | with_reducible apply bump_keeps
    | with_reducible apply modPort_keeps
    | (extract_lets +onlyGivenNames x; refine Keeps.cut x ?_ ?_; dsimp -zeta only [x]; clear x; rotate_left; intro hx; clear_value x; rotate_left)
    | extract_lets +onlyGivenNames x
    | with_reducible apply Keeps.ite
    | decide
    | (split; all_goals (try dsimp -zeta only))
    | (dsimp +zetaDelta -zeta only)

theorem State.portResetNow_keeps {s0 s : State} (h : Keeps s0 s) {x2} :
    Keeps s0 (State.portResetNow s x2) := by
  unfold State.portResetNow
  repeat' first
    | with_reducible exact h
    | with_reducible assumption
    | (intro; try dsimp -zeta only)
    | with_reducible apply State.linkReset_keeps
    | with_reducible apply modPort_keeps
    | with_reducible apply Keeps.ite
    | decide
    | (split; all_goals (try dsimp -zeta only))

theorem State.portDown_keeps {s0 s : State} (h : Keeps s0 s) {x2} :
    Keeps s0 (State.portDown s x2) := by
  unfold State.portDown
  repeat' first
    | with_reducible exact h
    | with_reducible assumption
    | (intro; try dsimp -zeta only)
    | with_reducible apply State.takeUndelivered_keeps
    | with_reducible apply State.dropPartial_keeps
    | with_reducible apply State.sendAll_keeps
    | with_reducible apply State.setPortState_keeps
    | with_reducible apply modPort_keeps
    | (extract_lets +onlyGivenNames x; refine Keeps.cut x ?_ ?_; dsimp -zeta only [x]; clear x; rotate_left; intro hx; clear_value x; rotate_left)
    | extract_lets +onlyGivenNames x
    | with_reducible apply Keeps.ite
    | decide
    | (split; all_goals (try dsimp -zeta only))
    | (dsimp +zetaDelta -zeta only)

theorem State.startPortReset_keeps {s0 s : State} (h : Keeps s0 s) {x2} :
    Keeps s0 (State.startPortReset s x2) := by
  unfold State.startPortReset
  repeat' first
    | with_reducible exact h
    | with_reducible assumption
    | (intro; try dsimp -zeta only)
    | with_reducible apply State.portResetNow_keeps
    | with_reducible apply modPort_keeps
    | with_reducible apply Keeps.ite
    | decide
    | (split; all_goals (try dsimp -zeta only))

theorem State.enterActive_keeps {s0 s : State} (h : Keeps s0 s) {x2} :
    Keeps s0 (State.enterActive s x2) := by
  unfold State.enterActive
  repeat' first
    | with_reducible exact h
    | with_reducible assumption
    | (intro; try dsimp -zeta only)
    | with_reducible apply State.setPortState_keeps
    | with_reducible apply modPort_keeps
    | with_reducible apply Keeps.ite
    | decide
    | (split; all_goals (try dsimp -zeta only))

theorem State.gap_keeps {s0 s : State} (h : Keeps s0 s) {x2} :
    Keeps s0 (State.gap s x2) := by
  unfold State.gap
  repeat' first
    | with_reducible exact h
    | with_reducible assumption
    | (intro; try dsimp -zeta only)
    | with_reducible apply modPort_keeps
    | with_reducible apply Keeps.ite
    | decide
    | (split; all_goals (try dsimp -zeta only))

theorem State.rxSeq_keeps {s0 s : State} (h : Keeps s0 s) {x2 x3} :
    Keeps s0 (State.rxSeq s x2 x3).1 := by
  unfold State.rxSeq
  repeat' first
    | with_reducible exact h
    | with_reducible assumption
    | (intro; try dsimp -zeta only)
    | with_reducible apply State.gap_keeps
    | with_reducible apply bump_keeps
    | with_reducible apply setPort_keeps
    | (extract_lets +onlyGivenNames x; refine Keeps.cut x ?_ ?_; dsimp -zeta only [x]; clear x; rotate_left; intro hx; clear_value x; rotate_left)
    | extract_lets +onlyGivenNames x
    | with_reducible apply Keeps.ite
    | decide
    | (split; all_goals (try dsimp -zeta only))
    | (dsimp +zetaDelta -zeta only)

theorem State.rxAckCredits_keeps {s0 s : State} (h : Keeps s0 s) {x2 x3} :
    Keeps s0 (State.rxAckCredits s x2 x3).1 := by
  unfold State.rxAckCredits
  repeat' first
    | with_reducible exact h
    | with_reducible assumption
    | (intro; try dsimp -zeta only)
    | with_reducible apply setPort_keeps
    | with_reducible apply Keeps.ite
    | decide
    | (split; all_goals (try dsimp -zeta only))

theorem State.rxNak_keeps {s0 s : State} (h : Keeps s0 s) {x2 x3} :
    Keeps s0 (State.rxNak s x2 x3) := by
  unfold State.rxNak
  repeat' first
    | with_reducible exact h
    | with_reducible assumption
    | (intro; try dsimp -zeta only)
    | with_reducible apply State.startReplay_keeps
    | (extract_lets +onlyGivenNames x; refine Keeps.cut x ?_ ?_; dsimp -zeta only [x]; clear x; rotate_left; intro hx; clear_value x; rotate_left)
    | extract_lets +onlyGivenNames x
    | with_reducible apply Keeps.ite
    | decide
    | (split; all_goals (try dsimp -zeta only))
    | (dsimp +zetaDelta -zeta only)

theorem State.rxActive_keeps {s0 s : State} (h : Keeps s0 s) {p : Nat} {f : Flit} : Keeps s0 (State.rxActive s p f) := by
  have h1 := State.rxSeq_keeps h (x2 := p) (x3 := f)
  unfold State.rxActive
  refine Keeps.ite (State.linkReset_keeps h) (Keeps.ite h (Keeps.ite (State.linkError_keeps h) ?_))
  split
  · split
    · rename_i e; rw [e] at h1; exact State.linkError_keeps h1
    · rename_i s1 e
      rw [e] at h1
      have h2 := State.rxAckCredits_keeps h1 (x2 := p) (x3 := f)
      split
      · rename_i e; rw [e] at h2; exact State.linkError_keeps h2
      · rename_i e; rw [e] at h2; exact Keeps.ite (State.rxNak_keeps h2) h2
  · exact State.linkError_keeps h

theorem State.maybeActive_keeps {s0 s : State} (h : Keeps s0 s) {x2} :
    Keeps s0 (State.maybeActive s x2) := by
  unfold State.maybeActive
  repeat' first
    | with_reducible exact h
    | with_reducible assumption
    | (intro; try dsimp -zeta only)
    | with_reducible apply State.enterActive_keeps
    | with_reducible apply Keeps.ite
    | decide
    | (split; all_goals (try dsimp -zeta only))

theorem State.rxInit_keeps {s0 s : State} (h : Keeps s0 s) {x2 x3} :
    Keeps s0 (State.rxInit s x2 x3) := by
  unfold State.rxInit
  repeat' first
    | with_reducible exact h
    | with_reducible assumption
    | (intro; try dsimp -zeta only)
    | with_reducible apply State.failPort_keeps
    | with_reducible apply State.linkReset_keeps
    | with_reducible apply State.linkError_keeps
    | with_reducible apply State.maybeActive_keeps
    | with_reducible apply fset_keeps
    | with_reducible apply setPort_keeps
    | with_reducible apply modPort_keeps
    | (extract_lets +onlyGivenNames x; refine Keeps.cut x ?_ ?_; dsimp -zeta only [x]; clear x; rotate_left; intro hx; clear_value x; rotate_left)
    | extract_lets +onlyGivenNames x
    | with_reducible apply Keeps.ite
    | with_reducible apply foldl_keeps
    | with_reducible apply foldl_snd_keeps
    | decide
    | (split; all_goals (try dsimp -zeta only))
    | (dsimp +zetaDelta -zeta only)

theorem State.rxFlit_keeps {s0 s : State} (h : Keeps s0 s) {x2 x3} :
    Keeps s0 (State.rxFlit s x2 x3) := by
  unfold State.rxFlit
  repeat' first
    | with_reducible exact h
    | with_reducible assumption
    | (intro; try dsimp -zeta only)
    | with_reducible apply State.linkReset_keeps
    | with_reducible apply State.enterActive_keeps
    | with_reducible apply State.rxActive_keeps
    | with_reducible apply State.rxInit_keeps
    | with_reducible apply bump_keeps
    | (extract_lets +onlyGivenNames x; refine Keeps.cut x ?_ ?_; dsimp -zeta only [x]; clear x; rotate_left; intro hx; clear_value x; rotate_left)
    | extract_lets +onlyGivenNames x
    | with_reducible apply Keeps.ite
    | decide
    | (split; all_goals (try dsimp -zeta only))
    | (dsimp +zetaDelta -zeta only)

theorem State.consume_keeps {s0 s : State} (h : Keeps s0 s) {x2 x3} :
    Keeps s0 (State.consume s x2 x3) := by
  unfold State.consume
  repeat' first
    | with_reducible exact h
    | with_reducible assumption
    | (intro; try dsimp -zeta only)
    | with_reducible apply setPort_keeps
    | (extract_lets +onlyGivenNames x; refine Keeps.cut x ?_ ?_; dsimp -zeta only [x]; clear x; rotate_left; intro hx; clear_value x; rotate_left)
    | extract_lets +onlyGivenNames x
    | with_reducible apply Keeps.ite
    | decide
    | (split; all_goals (try dsimp -zeta only))
    | (dsimp +zetaDelta -zeta only)

theorem State.emit_keeps {s0 s : State} (h : Keeps s0 s) {x2 x3} :
    Keeps s0 (State.emit s x2 x3) := by
  unfold State.emit
  repeat' first
    | with_reducible exact h
    | with_reducible assumption
    | (intro; try dsimp -zeta only)
    | with_reducible apply modPort_keeps
    | with_reducible apply Keeps.ite
    | decide
    | (split; all_goals (try dsimp -zeta only))

theorem State.txInit_keeps {s0 s : State} (h : Keeps s0 s) {x2} :
    Keeps s0 (State.txInit s x2) := by
  unfold State.txInit
  repeat' first
    | with_reducible exact h
    | with_reducible assumption
    | (intro; try dsimp -zeta only)
    | with_reducible apply State.maybeActive_keeps
    | with_reducible apply modPort_keeps
    | (extract_lets +onlyGivenNames x; refine Keeps.cut x ?_ ?_; dsimp -zeta only [x]; clear x; rotate_left; intro hx; clear_value x; rotate_left)
    | extract_lets +onlyGivenNames x
    | with_reducible apply Keeps.ite
    | decide
    | (split; all_goals (try dsimp -zeta only))
    | (dsimp +zetaDelta -zeta only)

theorem State.txNotice_keeps {s0 s : State} (h : Keeps s0 s) {x2} :
    Keeps s0 (State.txNotice s x2) := by
  unfold State.txNotice
  repeat' first
    | with_reducible exact h
    | with_reducible assumption
    | (intro; try dsimp -zeta only)
    | with_reducible apply State.linkReset_keeps
    | with_reducible apply State.portResetNow_keeps
    | with_reducible apply modPort_keeps
    | (extract_lets +onlyGivenNames x; refine Keeps.cut x ?_ ?_; dsimp -zeta only [x]; clear x; rotate_left; intro hx; clear_value x; rotate_left)
    | extract_lets +onlyGivenNames x
    | with_reducible apply Keeps.ite
    | decide
    | (split; all_goals (try dsimp -zeta only))
    | (dsimp +zetaDelta -zeta only)

theorem State.jigFlit_keeps {s0 s : State} (h : Keeps s0 s) {x2 x3} :
    Keeps s0 (State.jigFlit s x2 x3).2 := by
  unfold State.jigFlit
  try dsimp only
  repeat' first
    | with_reducible exact h
    | with_reducible assumption
    | (intro; try dsimp only)
    | with_reducible apply State.jigFire_keeps
    | with_reducible apply Keeps.ite
    | with_reducible apply foldl_keeps
    | with_reducible apply foldl_snd_keeps
    | decide
    | (split; all_goals (try dsimp only))
    | with_reducible apply jigSet_keeps
    | (dsimp +zetaDelta -zeta only)

theorem State.jigWire_keeps {s0 s : State} (h : Keeps s0 s) {x2 x3 x4 x5} :
    Keeps s0 (State.jigWire s x2 x3 x4 x5) := by
  unfold State.jigWire
  repeat' first
    | with_reducible exact h
    | with_reducible assumption
    | (intro; try dsimp -zeta only)
    | with_reducible apply State.emit_keeps
    | with_reducible apply modPort_keeps
    | (extract_lets +onlyGivenNames x; refine Keeps.cut x ?_ ?_; dsimp -zeta only [x]; clear x; rotate_left; intro hx; clear_value x; rotate_left)
    | extract_lets +onlyGivenNames x
    | with_reducible apply Keeps.ite
    | decide
    | (split; all_goals (try dsimp -zeta only))
    | (dsimp +zetaDelta -zeta only)

theorem State.enterReplay_keeps {s0 s : State} (h : Keeps s0 s) {x2 x3 x4 x5} :
    Keeps s0 (State.enterReplay s x2 x3 x4 x5) := by
  unfold State.enterReplay
  repeat' first
    | with_reducible exact h
    | with_reducible assumption
    | (intro; try dsimp -zeta only)
    | with_reducible apply setPort_keeps
    | (extract_lets +onlyGivenNames x; refine Keeps.cut x ?_ ?_; dsimp -zeta only [x]; clear x; rotate_left; intro hx; clear_value x; rotate_left)
    | extract_lets +onlyGivenNames x
    | with_reducible apply Keeps.ite
    | decide
    | (split; all_goals (try dsimp -zeta only))
    | (dsimp +zetaDelta -zeta only)

theorem State.stampPort_keeps {s0 s : State} (h : Keeps s0 s) {x2} :
    Keeps s0 (State.stampPort s x2) := by
  unfold State.stampPort
  repeat' first
    | with_reducible exact h
    | with_reducible assumption
    | (intro; try dsimp -zeta only)
    | with_reducible apply modPort_keeps
    | with_reducible apply Keeps.ite
    | decide
    | (split; all_goals (try dsimp -zeta only))

theorem State.noteSync_keeps {s0 s : State} (h : Keeps s0 s) {x2} :
    Keeps s0 (State.noteSync s x2) := by
  unfold State.noteSync
  repeat' first
    | with_reducible exact h
    | with_reducible assumption
    | (intro; try dsimp -zeta only)
    | with_reducible apply Keeps.ite
    | decide
    | (split; all_goals (try dsimp -zeta only))
    | with_reducible apply tbSet_keeps

theorem State.timersStart_keeps {s0 t : State} (s : State) (h : Keeps s0 t) {p : Nat} {heads : List (Msg × Nat)} :
    Keeps s0 (State.timersStart s p heads t) := by
  unfold State.timersStart
  exact foldl_keeps h (fun u a hu => State.startTimer_keeps hu)

theorem State.txPayload_keeps {s0 s : State} (h : Keeps s0 s) {x2} :
    Keeps s0 (State.txPayload s x2) := by
  unfold State.txPayload
  repeat' first
    | with_reducible exact h
    | with_reducible assumption
    | (intro; try dsimp -zeta only)
    | with_reducible apply State.emit_keeps
    | with_reducible apply State.jigFlit_keeps
    | with_reducible apply State.jigWire_keeps
    | with_reducible apply State.enterReplay_keeps
    | with_reducible apply State.stampPort_keeps
    | with_reducible apply State.noteSync_keeps
    | with_reducible apply State.timersStart_keeps
    | with_reducible apply modPort_keeps
    | (extract_lets +onlyGivenNames x; refine Keeps.cut x ?_ ?_; dsimp -zeta only [x]; clear x; rotate_left; intro hx; clear_value x; rotate_left)
    | extract_lets +onlyGivenNames x
    | with_reducible apply Keeps.ite
    | decide
    | (split; all_goals (try dsimp -zeta only))
    | (dsimp +zetaDelta -zeta only)

theorem State.txReplay_keeps {s0 s : State} (h : Keeps s0 s) {x2 x3} :
    Keeps s0 (State.txReplay s x2 x3) := by
  unfold State.txReplay
  repeat' first
    | with_reducible exact h
    | with_reducible assumption
    | (intro; try dsimp -zeta only)
    | with_reducible apply State.emit_keeps
    | with_reducible apply modPort_keeps
    | (extract_lets +onlyGivenNames x; refine Keeps.cut x ?_ ?_; dsimp -zeta only [x]; clear x; rotate_left; intro hx; clear_value x; rotate_left)
    | extract_lets +onlyGivenNames x
    | with_reducible apply Keeps.ite
    | decide
    | (split; all_goals (try dsimp -zeta only))
    | (dsimp +zetaDelta -zeta only)

theorem State.txHeld_keeps {s0 s : State} (h : Keeps s0 s) {x2} :
    Keeps s0 (State.txHeld s x2) := by
  unfold State.txHeld
  repeat' first
    | with_reducible exact h
    | with_reducible assumption
    | (intro; try dsimp -zeta only)
    | with_reducible apply State.jigFlit_keeps
    | with_reducible apply State.jigWire_keeps
    | with_reducible apply modPort_keeps
    | (extract_lets +onlyGivenNames x; refine Keeps.cut x ?_ ?_; dsimp -zeta only [x]; clear x; rotate_left; intro hx; clear_value x; rotate_left)
    | extract_lets +onlyGivenNames x
    | with_reducible apply Keeps.ite
    | decide
    | (split; all_goals (try dsimp -zeta only))
    | (dsimp +zetaDelta -zeta only)

theorem State.txActive_keeps {s0 s : State} (h : Keeps s0 s) {x2} :
    Keeps s0 (State.txActive s x2) := by
  unfold State.txActive
  repeat' first
    | with_reducible exact h
    | with_reducible assumption
    | (intro; try dsimp -zeta only)
    | with_reducible apply State.emit_keeps
    | with_reducible apply State.txPayload_keeps
    | with_reducible apply State.txReplay_keeps
    | with_reducible apply State.txHeld_keeps
    | with_reducible apply bump_keeps
    | with_reducible apply modPort_keeps
    | (extract_lets +onlyGivenNames x; refine Keeps.cut x ?_ ?_; dsimp -zeta only [x]; clear x; rotate_left; intro hx; clear_value x; rotate_left)
    | extract_lets +onlyGivenNames x
    | with_reducible apply Keeps.ite
    | decide
    | (split; all_goals (try dsimp -zeta only))
    | (dsimp +zetaDelta -zeta only)

theorem State.flitClock_keeps {s0 s : State} (h : Keeps s0 s) {x2} :
    Keeps s0 (State.flitClock s x2) := by
  unfold State.flitClock
  repeat' first
    | with_reducible exact h
    | with_reducible assumption
    | (intro; try dsimp -zeta only)
    | with_reducible apply State.txInit_keeps
    | with_reducible apply State.txNotice_keeps
    | with_reducible apply State.txActive_keeps
    | (extract_lets +onlyGivenNames x; refine Keeps.cut x ?_ ?_; dsimp -zeta only [x]; clear x; rotate_left; intro hx; clear_value x; rotate_left)
    | extract_lets +onlyGivenNames x
    | with_reducible apply Keeps.ite
    | decide
    | (split; all_goals (try dsimp -zeta only))
    | (dsimp +zetaDelta -zeta only)

theorem State.trainFail_keeps {s0 s : State} (h : Keeps s0 s) {x2} :
    Keeps s0 (State.trainFail s x2) := by
  unfold State.trainFail
  repeat' first
    | with_reducible exact h
    | with_reducible assumption
    | (intro; try dsimp -zeta only)
    | with_reducible apply State.failPort_keeps
    | with_reducible apply modPort_keeps
    | (extract_lets +onlyGivenNames x; refine Keeps.cut x ?_ ?_; dsimp -zeta only [x]; clear x; rotate_left; intro hx; clear_value x; rotate_left)
    | extract_lets +onlyGivenNames x
    | with_reducible apply Keeps.ite
    | decide
    | (split; all_goals (try dsimp -zeta only))
    | (dsimp +zetaDelta -zeta only)

theorem State.trained_keeps {s0 s : State} (h : Keeps s0 s) {x2 x3 x4} :
    Keeps s0 (State.trained s x2 x3 x4) := by
  unfold State.trained
  repeat' first
    | with_reducible exact h
    | with_reducible assumption
    | (intro; try dsimp -zeta only)
    | with_reducible apply State.trainFail_keeps
    | with_reducible apply State.setPortState_keeps
    | with_reducible apply modPort_keeps
    | (extract_lets +onlyGivenNames x; refine Keeps.cut x ?_ ?_; dsimp -zeta only [x]; clear x; rotate_left; intro hx; clear_value x; rotate_left)
    | extract_lets +onlyGivenNames x
    | with_reducible apply Keeps.ite
    | decide
    | (split; all_goals (try dsimp -zeta only))
    | (dsimp +zetaDelta -zeta only)

theorem State.drained_keeps {s0 s : State} (h : Keeps s0 s) {x2} :
    Keeps s0 (State.drained s x2) := by
  unfold State.drained
  repeat' first
    | with_reducible exact h
    | with_reducible assumption
    | (intro; try dsimp -zeta only)
    | with_reducible apply State.setPortState_keeps
    | with_reducible apply modPort_keeps
    | (extract_lets +onlyGivenNames x; refine Keeps.cut x ?_ ?_; dsimp -zeta only [x]; clear x; rotate_left; intro hx; clear_value x; rotate_left)
    | extract_lets +onlyGivenNames x
    | with_reducible apply Keeps.ite
    | decide
    | (split; all_goals (try dsimp -zeta only))
    | (dsimp +zetaDelta -zeta only)

theorem State.linkResetTimeout_keeps {s0 s : State} (h : Keeps s0 s) {x2} :
    Keeps s0 (State.linkResetTimeout s x2) := by
  unfold State.linkResetTimeout
  repeat' first
    | with_reducible exact h
    | with_reducible assumption
    | (intro; try dsimp -zeta only)
    | with_reducible apply State.failPort_keeps
    | with_reducible apply State.linkReset_keeps
    | with_reducible apply modPort_keeps
    | with_reducible apply until_keeps
    | (extract_lets +onlyGivenNames x; refine Keeps.cut x ?_ ?_; dsimp -zeta only [x]; clear x; rotate_left; intro hx; clear_value x; rotate_left)
    | extract_lets +onlyGivenNames x
    | with_reducible apply Keeps.ite
    | decide
    | (split; all_goals (try dsimp -zeta only))
    | (dsimp +zetaDelta -zeta only)

end Sys2Proof.Machine
end

