-- ==== Sys2Proof/Laws/KeepsChecks.lean ====
section
/-!
SUPPORT. What the operations of Machine/Checks.lean keep of a state (`Keeps`), one law each.
-/
namespace Sys2Proof.Machine
set_option linter.all false

theorem State.msgCase_keeps {s0 s : State} (h : Keeps s0 s) {x2 x3 x4} :
    Keeps s0 (State.msgCase s x2 x3 x4) := by
  unfold State.msgCase
  repeat' first
    | with_reducible exact h
    | with_reducible assumption
    | (intro; try dsimp -zeta only)
    | with_reducible apply fset_keeps
    | with_reducible apply setFlag_keeps
    | with_reducible apply bump_keeps
    | with_reducible apply State.raise_keeps
    | (extract_lets +onlyGivenNames x; refine Keeps.cut x ?_ ?_; dsimp -zeta only [x]; clear x; rotate_left; intro hx; clear_value x; rotate_left)
    | extract_lets +onlyGivenNames x
    | with_reducible apply Keeps.ite
    | decide
    | (split; all_goals (try dsimp -zeta only))
    | (dsimp +zetaDelta -zeta only)

theorem State.forward_keeps {s0 s : State} (h : Keeps s0 s) {x2 x3} :
    Keeps s0 (State.forward s x2 x3) := by
  unfold State.forward
  repeat' first
    | with_reducible exact h
    | with_reducible assumption
    | (intro; try dsimp -zeta only)
    | with_reducible apply State.send_keeps
    | with_reducible apply bump_keeps
    | with_reducible apply modPort_keeps
    | with_reducible apply State.raise_keeps
    | (extract_lets +onlyGivenNames x; refine Keeps.cut x ?_ ?_; dsimp -zeta only [x]; clear x; rotate_left; intro hx; clear_value x; rotate_left)
    | extract_lets +onlyGivenNames x
    | with_reducible apply Keeps.ite
    | decide
    | (split; all_goals (try dsimp -zeta only))
    | (dsimp +zetaDelta -zeta only)

theorem State.accessRecord_keeps {s0 s : State} (h : Keeps s0 s) {x2 x3 x4 x5} :
    Keeps s0 (State.accessRecord s x2 x3 x4 x5) := by
  unfold State.accessRecord
  repeat' first
    | with_reducible exact h
    | with_reducible assumption
    | (intro; try dsimp -zeta only)
    | with_reducible apply fset_keeps
    | with_reducible apply setFlag_keeps
    | with_reducible apply bump_keeps
    | (extract_lets +onlyGivenNames x; refine Keeps.cut x ?_ ?_; dsimp -zeta only [x]; clear x; rotate_left; intro hx; clear_value x; rotate_left)
    | extract_lets +onlyGivenNames x
    | with_reducible apply Keeps.ite
    | decide
    | (split; all_goals (try dsimp -zeta only))
    | (dsimp +zetaDelta -zeta only)

theorem State.accessFault_keeps {s0 s : State} (h : Keeps s0 s) {x2 x3 x4} :
    Keeps s0 (State.accessFault s x2 x3 x4) := by
  unfold State.accessFault
  repeat' first
    | with_reducible exact h
    | with_reducible assumption
    | (intro; try dsimp -zeta only)
    | with_reducible apply State.accessRecord_keeps
    | with_reducible apply State.send_keeps
    | with_reducible apply State.raise_keeps
    | (extract_lets +onlyGivenNames x; refine Keeps.cut x ?_ ?_; dsimp -zeta only [x]; clear x; rotate_left; intro hx; clear_value x; rotate_left)
    | extract_lets +onlyGivenNames x
    | with_reducible apply Keeps.ite
    | decide
    | (split; all_goals (try dsimp -zeta only))
    | (dsimp +zetaDelta -zeta only)

theorem State.applyVerdict_keeps {s0 s : State} (h : Keeps s0 s) {x2 x3 x4} :
    Keeps s0 (State.applyVerdict s x2 x3 x4) := by
  unfold State.applyVerdict
  repeat' first
    | with_reducible exact h
    | with_reducible assumption
    | (intro; try dsimp -zeta only)
    | with_reducible apply State.msgCase_keeps
    | with_reducible apply State.forward_keeps
    | with_reducible apply State.accessFault_keeps
    | with_reducible apply State.linkError_keeps
    | with_reducible apply State.send_keeps
    | with_reducible apply bump_keeps
    | with_reducible apply State.raise_keeps
    | with_reducible apply Keeps.ite
    | decide
    | (split; all_goals (try dsimp -zeta only))

theorem State.present_keeps {s0 s : State} (h : Keeps s0 s) {x2 x3} :
    Keeps s0 (State.present s x2 x3) := by
  unfold State.present
  repeat' first
    | with_reducible exact h
    | with_reducible assumption
    | (intro; try dsimp -zeta only)
    | with_reducible apply modPort_keeps
    | with_reducible apply Keeps.ite
    | decide
    | (split; all_goals (try dsimp -zeta only))

end Sys2Proof.Machine
end

