-- ==== Sys2Proof/Laws/KeepsSnoopFilter.lean ====
section
/-!
SUPPORT. What the operations of Machine/SnoopFilter.lean keep of a state (`Keeps`), one law each.
-/
namespace Sys2Proof.Machine
set_option linter.all false

theorem State.setLoose_keeps {s0 s : State} (h : Keeps s0 s) {x2 x3} :
    Keeps s0 (State.setLoose s x2 x3) := by
  unfold State.setLoose
  repeat' first
    | with_reducible exact h
    | with_reducible assumption
    | (intro; try dsimp -zeta only)
    | with_reducible apply modSlice_keeps
    | with_reducible apply Keeps.ite
    | decide
    | (split; all_goals (try dsimp -zeta only))

theorem State.sfPut_keeps {s0 s : State} (h : Keeps s0 s) {x2 x3 x4 x5} :
    Keeps s0 (State.sfPut s x2 x3 x4 x5) := by
  unfold State.sfPut
  repeat' first
    | with_reducible exact h
    | with_reducible assumption
    | (intro; try dsimp -zeta only)
    | with_reducible apply modSlice_keeps
    | with_reducible apply Keeps.ite
    | decide
    | (split; all_goals (try dsimp -zeta only))

theorem State.sfRetire_keeps {s0 s : State} (h : Keeps s0 s) {x2 x3 x4} :
    Keeps s0 (State.sfRetire s x2 x3 x4) := by
  unfold State.sfRetire
  repeat' first
    | with_reducible exact h
    | with_reducible assumption
    | (intro; try dsimp -zeta only)
    | with_reducible apply modSlice_keeps
    | with_reducible apply State.react_keeps
    | with_reducible apply Keeps.ite
    | decide
    | (split; all_goals (try dsimp -zeta only))

theorem State.sfEccLast_keeps {s0 s : State} (h : Keeps s0 s) {x2 x3 x4 x5} :
    Keeps s0 (State.sfEccLast s x2 x3 x4 x5) := by
  unfold State.sfEccLast
  repeat' first
    | with_reducible exact h
    | with_reducible assumption
    | (intro; try dsimp -zeta only)
    | with_reducible apply fset_keeps
    | with_reducible apply setFlag_keeps
    | with_reducible apply Keeps.ite
    | decide
    | (split; all_goals (try dsimp -zeta only))

theorem State.countCE_keeps {s0 s : State} (h : Keeps s0 s) {x2} :
    Keeps s0 (State.countCE s x2) := by
  unfold State.countCE
  repeat' first
    | with_reducible exact h
    | with_reducible assumption
    | (intro; try dsimp -zeta only)
    | with_reducible apply modSlice_keeps
    | with_reducible apply Keeps.ite
    | decide
    | (split; all_goals (try dsimp -zeta only))

theorem State.sfCheckWay_keeps {s0 s : State} (h : Keeps s0 s) {x2 x3 x4} :
    Keeps s0 (State.sfCheckWay s x2 x3 x4) := by
  unfold State.sfCheckWay
  repeat' first
    | with_reducible exact h
    | with_reducible assumption
    | (intro; try dsimp -zeta only)
    | with_reducible apply State.jigRead_keeps
    | with_reducible apply bump_keeps
    | with_reducible apply State.corrected_keeps
    | with_reducible apply State.setLoose_keeps
    | with_reducible apply State.sfPut_keeps
    | with_reducible apply State.sfRetire_keeps
    | with_reducible apply State.sfEccLast_keeps
    | with_reducible apply State.countCE_keeps
    | (extract_lets +onlyGivenNames x; refine Keeps.cut x ?_ ?_; dsimp -zeta only [x]; clear x; rotate_left; intro hx; clear_value x; rotate_left)
    | extract_lets +onlyGivenNames x
    | with_reducible apply Keeps.ite
    | decide
    | (split; all_goals (try dsimp -zeta only))
    | with_reducible apply freshSet_keeps
    | (dsimp +zetaDelta -zeta only)

theorem State.sfCheckSet_keeps {s0 s : State} (h : Keeps s0 s) {x2 x3} :
    Keeps s0 (State.sfCheckSet s x2 x3) := by
  unfold State.sfCheckSet
  repeat' first
    | with_reducible exact h
    | with_reducible assumption
    | (intro; try dsimp -zeta only)
    | with_reducible apply State.sfCheckWay_keeps
    | with_reducible apply Keeps.ite
    | with_reducible apply forUp_keeps
    | decide
    | (split; all_goals (try dsimp -zeta only))

theorem State.sfTouch_keeps {s0 s : State} (h : Keeps s0 s) {x2 x3 x4} :
    Keeps s0 (State.sfTouch s x2 x3 x4) := by
  unfold State.sfTouch
  repeat' first
    | with_reducible exact h
    | with_reducible assumption
    | (intro; try dsimp -zeta only)
    | with_reducible apply State.sfPut_keeps
    | (extract_lets +onlyGivenNames x; refine Keeps.cut x ?_ ?_; dsimp -zeta only [x]; clear x; rotate_left; intro hx; clear_value x; rotate_left)
    | extract_lets +onlyGivenNames x
    | with_reducible apply Keeps.ite
    | decide
    | (split; all_goals (try dsimp -zeta only))
    | (dsimp +zetaDelta -zeta only)

theorem State.sfClearRef_keeps {s0 s : State} (h : Keeps s0 s) {x2 x3 x4} :
    Keeps s0 (State.sfClearRef s x2 x3 x4) := by
  unfold State.sfClearRef
  repeat' first
    | with_reducible exact h
    | with_reducible assumption
    | (intro; try dsimp -zeta only)
    | with_reducible apply State.sfPut_keeps
    | (extract_lets +onlyGivenNames x; refine Keeps.cut x ?_ ?_; dsimp -zeta only [x]; clear x; rotate_left; intro hx; clear_value x; rotate_left)
    | extract_lets +onlyGivenNames x
    | with_reducible apply Keeps.ite
    | with_reducible apply foldl_keeps
    | with_reducible apply foldl_snd_keeps
    | decide
    | (split; all_goals (try dsimp -zeta only))
    | (dsimp +zetaDelta -zeta only)

theorem State.sfChoose_keeps {s0 s : State} (h : Keeps s0 s) {x2 x3 x4 x5 x6} :
    Keeps s0 (State.sfChoose s x2 x3 x4 x5 x6).2 := by
  unfold State.sfChoose
  repeat' first
    | with_reducible exact h
    | with_reducible assumption
    | (intro; try dsimp -zeta only)
    | with_reducible apply State.sfClearRef_keeps
    | (extract_lets +onlyGivenNames x; refine Keeps.cut x ?_ ?_; dsimp -zeta only [x]; clear x; rotate_left; intro hx; clear_value x; rotate_left)
    | extract_lets +onlyGivenNames x
    | with_reducible apply Keeps.ite
    | decide
    | (split; all_goals (try dsimp -zeta only))
    | (dsimp +zetaDelta -zeta only)

theorem State.countFmt_keeps {s0 s : State} (h : Keeps s0 s) {x2 x3 x4} :
    Keeps s0 (State.countFmt s x2 x3 x4) := by
  unfold State.countFmt
  repeat' first
    | with_reducible exact h
    | with_reducible assumption
    | (intro; try dsimp -zeta only)
    | with_reducible apply bump_keeps
    | with_reducible apply Keeps.ite
    | decide
    | (split; all_goals (try dsimp -zeta only))

theorem State.countChange_keeps {s0 s : State} (h : Keeps s0 s) {x2 x3 x4 x5} :
    Keeps s0 (State.countChange s x2 x3 x4 x5) := by
  unfold State.countChange
  split
  · exact State.countFmt_keeps (State.countFmt_keeps h)
  · exact State.countFmt_keeps h

theorem State.sfWrite_keeps {s0 s : State} (h : Keeps s0 s) {x2 x3 x4 x5 x6} :
    Keeps s0 (State.sfWrite s x2 x3 x4 x5 x6) := by
  unfold State.sfWrite
  repeat' first
    | with_reducible exact h
    | with_reducible assumption
    | (intro; try dsimp -zeta only)
    | with_reducible apply State.sfPut_keeps
    | with_reducible apply Keeps.ite
    | decide
    | (split; all_goals (try dsimp -zeta only))

end Sys2Proof.Machine
end

