-- ==== Sys2Proof/Laws/KeepsHomeCache.lean ====
section
/-!
SUPPORT. What the operations of Machine/HomeCache.lean keep of a state (`Keeps`), one law each.
-/
namespace Sys2Proof.Machine
set_option linter.all false

theorem State.setFrame_keeps {s0 s : State} (h : Keeps s0 s) {x2 x3 x4 x5} :
    Keeps s0 (State.setFrame s x2 x3 x4 x5) := by
  unfold State.setFrame
  repeat' first
    | with_reducible exact h
    | with_reducible assumption
    | (intro; try dsimp -zeta only)
    | with_reducible apply modSlice_keeps
    | with_reducible apply Keeps.ite
    | decide
    | (split; all_goals (try dsimp -zeta only))

theorem State.hcErrLast_keeps {s0 s : State} (h : Keeps s0 s) {x2 x3 x4 x5 x6} :
    Keeps s0 (State.hcErrLast s x2 x3 x4 x5 x6) := by
  unfold State.hcErrLast
  repeat' first
    | with_reducible exact h
    | with_reducible assumption
    | (intro; try dsimp -zeta only)
    | with_reducible apply fset_keeps
    | with_reducible apply setFlag_keeps
    | with_reducible apply Keeps.ite
    | decide
    | (split; all_goals (try dsimp -zeta only))

theorem State.hcRecordRetired_keeps {s0 s : State} (h : Keeps s0 s) {x2 x3 x4} :
    Keeps s0 (State.hcRecordRetired s x2 x3 x4) := by
  unfold State.hcRecordRetired
  repeat' first
    | with_reducible exact h
    | with_reducible assumption
    | (intro; try dsimp -zeta only)
    | with_reducible apply State.setFrame_keeps
    | with_reducible apply modSlice_keeps
    | with_reducible apply State.react_keeps
    | with_reducible apply Keeps.ite
    | decide
    | (split; all_goals (try dsimp -zeta only))

theorem State.containedMask_keeps {s0 s : State} (h : Keeps s0 s) {x2 x3 x4 x5 x6} :
    Keeps s0 (State.containedMask s x2 x3 x4 x5 x6) := by
  unfold State.containedMask
  repeat' first
    | with_reducible exact h
    | with_reducible assumption
    | (intro; try dsimp -zeta only)
    | with_reducible apply State.contained_keeps
    | with_reducible apply State.containedNone_keeps
    | with_reducible apply Keeps.ite
    | with_reducible apply forUp_keeps
    | decide
    | (split; all_goals (try dsimp -zeta only))

theorem State.hcCheckTag_keeps {s0 s : State} (h : Keeps s0 s) {x2 x3 x4} :
    Keeps s0 (State.hcCheckTag s x2 x3 x4) := by
  unfold State.hcCheckTag
  repeat' first
    | with_reducible exact h
    | with_reducible assumption
    | (intro; try dsimp -zeta only)
    | with_reducible apply State.setFrame_keeps
    | with_reducible apply State.hcErrLast_keeps
    | with_reducible apply State.hcRecordRetired_keeps
    | with_reducible apply State.containedMask_keeps
    | with_reducible apply State.jigRead_keeps
    | with_reducible apply bump_keeps
    | with_reducible apply modSlice_keeps
    | with_reducible apply State.react_keeps
    | with_reducible apply State.corrected_keeps
    | (extract_lets +onlyGivenNames x; refine Keeps.cut x ?_ ?_; dsimp -zeta only [x]; clear x; rotate_left; intro hx; clear_value x; rotate_left)
    | extract_lets +onlyGivenNames x
    | with_reducible apply Keeps.ite
    | decide
    | (split; all_goals (try dsimp -zeta only))
    | with_reducible apply freshSet_keeps
    | (dsimp +zetaDelta -zeta only)

theorem State.hcCheckSet_keeps {s0 s : State} (h : Keeps s0 s) {x2 x3} :
    Keeps s0 (State.hcCheckSet s x2 x3) := by
  unfold State.hcCheckSet
  repeat' first
    | with_reducible exact h
    | with_reducible assumption
    | (intro; try dsimp -zeta only)
    | with_reducible apply State.hcCheckTag_keeps
    | with_reducible apply Keeps.ite
    | with_reducible apply forUp_keeps
    | decide
    | (split; all_goals (try dsimp -zeta only))

theorem State.readCw_keeps {s0 s : State} (h : Keeps s0 s) {x2 x3 x4 x5 x6} :
    Keeps s0 (State.readCw s x2 x3 x4 x5 x6).2 := by
  unfold State.readCw
  repeat' first
    | with_reducible exact h
    | with_reducible assumption
    | (intro; try dsimp -zeta only)
    | with_reducible apply State.setFrame_keeps
    | with_reducible apply State.hcErrLast_keeps
    | with_reducible apply State.jigRead_keeps
    | with_reducible apply bump_keeps
    | with_reducible apply draw_keeps
    | with_reducible apply State.corrected_keeps
    | with_reducible apply State.deferred_keeps
    | with_reducible apply State.countCE_keeps
    | (extract_lets +onlyGivenNames x; refine Keeps.cut x ?_ ?_; dsimp -zeta only [x]; clear x; rotate_left; intro hx; clear_value x; rotate_left)
    | extract_lets +onlyGivenNames x
    | with_reducible apply Keeps.ite
    | decide
    | (split; all_goals (try dsimp -zeta only))
    | (dsimp +zetaDelta -zeta only)

theorem State.readSubP_keeps {s0 s : State} (h : Keeps s0 s) {x2 x3 x4 x5} :
    Keeps s0 (State.readSubP s x2 x3 x4 x5).2 := by
  unfold State.readSubP
  repeat' first
    | with_reducible exact h
    | with_reducible assumption
    | (intro; try dsimp -zeta only)
    | with_reducible apply State.readCw_keeps
    | (extract_lets +onlyGivenNames x; refine Keeps.cut x ?_ ?_; dsimp -zeta only [x]; clear x; rotate_left; intro hx; clear_value x; rotate_left)
    | extract_lets +onlyGivenNames x
    | with_reducible apply Keeps.ite
    | decide
    | (split; all_goals (try dsimp -zeta only))
    | (dsimp +zetaDelta -zeta only)

theorem State.readSub_keeps {s0 s : State} (h : Keeps s0 s) {x2 x3 x4 x5} :
    Keeps s0 (State.readSub s x2 x3 x4 x5) := by
  unfold State.readSub
  repeat' first
    | with_reducible exact h
    | with_reducible assumption
    | (intro; try dsimp -zeta only)
    | with_reducible apply State.readSubP_keeps
    | with_reducible apply Keeps.ite
    | decide
    | (split; all_goals (try dsimp -zeta only))

theorem State.supersede_keeps {s0 s : State} (h : Keeps s0 s) {x2 x3} :
    Keeps s0 (State.supersede s x2 x3) := by
  unfold State.supersede
  repeat' first
    | with_reducible exact h
    | with_reducible assumption
    | (intro; try dsimp -zeta only)
    | with_reducible apply modSlice_keeps
    | with_reducible apply Keeps.ite
    | decide
    | (split; all_goals (try dsimp -zeta only))

theorem State.toMemory_keeps {s0 s : State} (h : Keeps s0 s) {x2 x3} :
    Keeps s0 (State.toMemory s x2 x3) := by
  unfold State.toMemory
  repeat' first
    | with_reducible exact h
    | with_reducible assumption
    | (intro; try dsimp -zeta only)
    | with_reducible apply State.send_keeps
    | (extract_lets +onlyGivenNames x; refine Keeps.cut x ?_ ?_; dsimp -zeta only [x]; clear x; rotate_left; intro hx; clear_value x; rotate_left)
    | extract_lets +onlyGivenNames x
    | with_reducible apply Keeps.ite
    | decide
    | (split; all_goals (try dsimp -zeta only))
    | (dsimp +zetaDelta -zeta only)

theorem State.sendMemWr_keeps {s0 s : State} (h : Keeps s0 s) {x2 x3} :
    Keeps s0 (State.sendMemWr s x2 x3) := by
  unfold State.sendMemWr
  repeat' first
    | with_reducible exact h
    | with_reducible assumption
    | (intro; try dsimp -zeta only)
    | with_reducible apply State.toMemory_keeps
    | with_reducible apply modSlice_keeps
    | with_reducible apply Keeps.ite
    | decide
    | (split; all_goals (try dsimp -zeta only))

theorem State.sendOffer_keeps {s0 s : State} (h : Keeps s0 s) {x2 x3} :
    Keeps s0 (State.sendOffer s x2 x3) := by
  unfold State.sendOffer
  repeat' first
    | with_reducible exact h
    | with_reducible assumption
    | (intro; try dsimp -zeta only)
    | with_reducible apply State.toMemory_keeps
    | with_reducible apply modSlice_keeps
    | with_reducible apply Keeps.ite
    | decide
    | (split; all_goals (try dsimp -zeta only))

theorem State.evictFrame_keeps {s0 s : State} (h : Keeps s0 s) {x2 x3 x4 x5} :
    Keeps s0 (State.evictFrame s x2 x3 x4 x5) := by
  unfold State.evictFrame
  repeat' first
    | with_reducible exact h
    | with_reducible assumption
    | (intro; try dsimp -zeta only)
    | with_reducible apply State.setFrame_keeps
    | with_reducible apply State.readSub_keeps
    | with_reducible apply State.sendMemWr_keeps
    | with_reducible apply State.sendOffer_keeps
    | with_reducible apply bump_keeps
    | (extract_lets +onlyGivenNames x; refine Keeps.cut x ?_ ?_; dsimp -zeta only [x]; clear x; rotate_left; intro hx; clear_value x; rotate_left)
    | extract_lets +onlyGivenNames x
    | with_reducible apply Keeps.ite
    | with_reducible apply forUp_keeps
    | decide
    | (split; all_goals (try dsimp -zeta only))
    | (dsimp +zetaDelta -zeta only)

theorem State.hcAllocate_keeps {s0 s : State} (h : Keeps s0 s) {x2 x3 x4} :
    Keeps s0 (State.hcAllocate s x2 x3 x4).2 := by
  unfold State.hcAllocate
  repeat' first
    | with_reducible exact h
    | with_reducible assumption
    | (intro; try dsimp -zeta only)
    | with_reducible apply State.evictFrame_keeps
    | with_reducible apply bump_keeps
    | with_reducible apply modSlice_keeps
    | (extract_lets +onlyGivenNames x; refine Keeps.cut x ?_ ?_; dsimp -zeta only [x]; clear x; rotate_left; intro hx; clear_value x; rotate_left)
    | extract_lets +onlyGivenNames x
    | with_reducible apply Keeps.ite
    | decide
    | (split; all_goals (try dsimp -zeta only))
    | (dsimp +zetaDelta -zeta only)

theorem State.hcWriteLine_keeps {s0 s : State} (h : Keeps s0 s) {k : Nat} {a : Addr} {t : Tenant} {l : Line} {p : BitVec 4}
    {tag : Tag} {alloc : Bool} : Keeps s0 (State.hcWriteLine s k a t l p tag alloc) := by
  have h1 : Keeps s0 (if alloc then s.hcAllocate k a t else (none, s)).2 := by
    split
    · exact State.hcAllocate_keeps h
    · exact h
  unfold State.hcWriteLine
  dsimp only
  split
  · split
    · exact State.setFrame_keeps (State.supersede_keeps h)
    · exact State.sendMemWr_keeps (State.supersede_keeps h)
  · split
    · rename_i e; rw [e] at h1; exact State.setFrame_keeps (State.supersede_keeps h1)
    · rename_i e; rw [e] at h1; exact State.sendMemWr_keeps (State.supersede_keeps h1)

theorem State.hcFillLine_keeps {s0 s : State} (h : Keeps s0 s) {k : Nat} {a : Addr} {t : Tenant} {l : Line} {p : BitVec 4} :
    Keeps s0 (State.hcFillLine s k a t l p).2 := by
  have h1 := State.hcAllocate_keeps h (x2 := k) (x3 := a) (x4 := t)
  unfold State.hcFillLine
  dsimp only
  split
  · split
    · exact h
    · exact State.setFrame_keeps h
  · split
    · rename_i e; rw [e] at h1; exact State.setFrame_keeps h1
    · rename_i e; rw [e] at h1; exact h1

theorem State.hcRead_keeps {s0 s : State} (h : Keeps s0 s) {x2 x3} :
    Keeps s0 (State.hcRead s x2 x3).2.2 := by
  unfold State.hcRead
  repeat' first
    | with_reducible exact h
    | with_reducible assumption
    | (intro; try dsimp -zeta only)
    | with_reducible apply State.hcCheckSet_keeps
    | with_reducible apply State.readSub_keeps
    | with_reducible apply wrapInc_keeps
    | (extract_lets +onlyGivenNames x; refine Keeps.cut x ?_ ?_; dsimp -zeta only [x]; clear x; rotate_left; intro hx; clear_value x; rotate_left)
    | extract_lets +onlyGivenNames x
    | with_reducible apply Keeps.ite
    | decide
    | (split; all_goals (try dsimp -zeta only))
    | (dsimp +zetaDelta -zeta only)

theorem State.poisonCopy_keeps {s0 s : State} (h : Keeps s0 s) {x2 x3 x4 x5} :
    Keeps s0 (State.poisonCopy s x2 x3 x4 x5) := by
  unfold State.poisonCopy
  repeat' first
    | with_reducible exact h
    | with_reducible assumption
    | (intro; try dsimp -zeta only)
    | with_reducible apply State.setFrame_keeps
    | with_reducible apply State.hcWriteLine_keeps
    | (extract_lets +onlyGivenNames x; refine Keeps.cut x ?_ ?_; dsimp -zeta only [x]; clear x; rotate_left; intro hx; clear_value x; rotate_left)
    | extract_lets +onlyGivenNames x
    | with_reducible apply Keeps.ite
    | decide
    | (split; all_goals (try dsimp -zeta only))
    | with_reducible apply freshSet_keeps
    | (dsimp +zetaDelta -zeta only)

end Sys2Proof.Machine
end

