-- ==== Sys2Proof/Laws/KeepsWindow.lean ====
section
/-!
SUPPORT. What the operations of Machine/Window.lean keep of a state (`Keeps`), one law each.
-/
namespace Sys2Proof.Machine
set_option linter.all false

theorem State.setWin_keeps {s0 s : State} (h : Keeps s0 s) {x2 x3 x4} :
    Keeps s0 (State.setWin s x2 x3 x4) := by
  unfold State.setWin
  repeat' first
    | with_reducible exact h
    | with_reducible assumption
    | (intro; try dsimp -zeta only)
    | with_reducible apply Keeps.ite
    | decide
    | (split; all_goals (try dsimp -zeta only))
    | with_reducible apply winsSet_keeps

theorem State.winOpen_keeps {s0 s : State} (h : Keeps s0 s) {x2 x3} :
    Keeps s0 (State.winOpen s x2 x3) := by
  unfold State.winOpen
  repeat' first
    | with_reducible exact h
    | with_reducible assumption
    | (intro; try dsimp -zeta only)
    | with_reducible apply State.setWin_keeps
    | (extract_lets +onlyGivenNames x; refine Keeps.cut x ?_ ?_; dsimp -zeta only [x]; clear x; rotate_left; intro hx; clear_value x; rotate_left)
    | extract_lets +onlyGivenNames x
    | with_reducible apply Keeps.ite
    | decide
    | (split; all_goals (try dsimp -zeta only))
    | (dsimp +zetaDelta -zeta only)

theorem State.winMod_keeps {s0 s : State} (h : Keeps s0 s) {x2 x3 x4} :
    Keeps s0 (State.winMod s x2 x3 x4) := by
  unfold State.winMod
  repeat' first
    | with_reducible exact h
    | with_reducible assumption
    | (intro; try dsimp -zeta only)
    | with_reducible apply State.setWin_keeps
    | (extract_lets +onlyGivenNames x; refine Keeps.cut x ?_ ?_; dsimp -zeta only [x]; clear x; rotate_left; intro hx; clear_value x; rotate_left)
    | extract_lets +onlyGivenNames x
    | with_reducible apply Keeps.ite
    | decide
    | (split; all_goals (try dsimp -zeta only))
    | (dsimp +zetaDelta -zeta only)

theorem State.winDone_keeps {s0 s : State} (h : Keeps s0 s) {x2 x3 x4} :
    Keeps s0 (State.winDone s x2 x3 x4) := by
  unfold State.winDone
  repeat' first
    | with_reducible exact h
    | with_reducible assumption
    | (intro; try dsimp -zeta only)
    | with_reducible apply State.winMod_keeps
    | with_reducible apply Keeps.ite
    | decide
    | (split; all_goals (try dsimp -zeta only))

theorem State.winUnexecuted_keeps {s0 s : State} (h : Keeps s0 s) {x2 x3 x4} :
    Keeps s0 (State.winUnexecuted s x2 x3 x4) := by
  unfold State.winUnexecuted
  repeat' first
    | with_reducible exact h
    | with_reducible assumption
    | (intro; try dsimp -zeta only)
    | with_reducible apply State.winMod_keeps
    | with_reducible apply Keeps.ite
    | decide
    | (split; all_goals (try dsimp -zeta only))

theorem State.winClose_keeps {s0 s : State} (h : Keeps s0 s) {x2 x3 x4} :
    Keeps s0 (State.winClose s x2 x3 x4) := by
  unfold State.winClose
  repeat' first
    | with_reducible exact h
    | with_reducible assumption
    | (intro; try dsimp -zeta only)
    | with_reducible apply State.winMod_keeps
    | with_reducible apply Keeps.ite
    | decide
    | (split; all_goals (try dsimp -zeta only))

theorem State.winLose_keeps {s0 s : State} (h : Keeps s0 s) {x2 x3} :
    Keeps s0 (State.winLose s x2 x3) := by
  unfold State.winLose
  repeat' first
    | with_reducible exact h
    | with_reducible assumption
    | (intro; try dsimp -zeta only)
    | with_reducible apply State.winMod_keeps
    | with_reducible apply Keeps.ite
    | decide
    | (split; all_goals (try dsimp -zeta only))

theorem State.winLoseAll_keeps {s0 s : State} (h : Keeps s0 s) {l : Nat} : Keeps s0 (State.winLoseAll s l) :=
  winsSet_keeps h

theorem State.winAnswer_keeps {s0 s : State} (h : Keeps s0 s) {l : Nat} {m : Msg} {a : WinAns} :
    ∀ r, State.winAnswer s l m a = some r → Keeps s0 r := by
  intro r hr
  unfold State.winAnswer at hr
  cases a <;> cases hr
  · exact bump_keeps h (by decide)
  · refine State.send_keeps (bump_keeps h ?_); decide
  · exact bump_keeps h (by decide)
  · refine State.send_keeps (bump_keeps h ?_); decide
  · refine State.raise_keeps (bump_keeps h ?_); decide

end Sys2Proof.Machine
end

