-- ==== Sys2Proof/Laws/KeepsShed.lean ====
section
/-!
SUPPORT. What the operations of Machine/Shed.lean keep of a state (`Keeps`), one law each.
-/
namespace Sys2Proof.Machine
set_option linter.all false

theorem State.ttRead_keeps {s0 s : State} (h : Keeps s0 s) {x2} :
    Keeps s0 (State.ttRead s x2) := by
  unfold State.ttRead
  repeat' first
    | with_reducible exact h
    | with_reducible assumption
    | (intro; try dsimp -zeta only)
    | with_reducible apply State.jigRead_keeps
    | with_reducible apply State.react_keeps
    | (extract_lets +onlyGivenNames x; refine Keeps.cut x ?_ ?_; dsimp -zeta only [x]; clear x; rotate_left; intro hx; clear_value x; rotate_left)
    | extract_lets +onlyGivenNames x
    | with_reducible apply Keeps.ite
    | decide
    | (split; all_goals (try dsimp -zeta only))
    | with_reducible apply freshSet_keeps
    | (dsimp +zetaDelta -zeta only)

theorem State.wakeSlice_keeps {s0 s : State} (h : Keeps s0 s) {x2} :
    Keeps s0 (State.wakeSlice s x2) := by
  unfold State.wakeSlice
  repeat' first
    | with_reducible exact h
    | with_reducible assumption
    | (intro; try dsimp -zeta only)
    | with_reducible apply modSlice_keeps
    | (extract_lets +onlyGivenNames x; refine Keeps.cut x ?_ ?_; dsimp -zeta only [x]; clear x; rotate_left; intro hx; clear_value x; rotate_left)
    | extract_lets +onlyGivenNames x
    | with_reducible apply Keeps.ite
    | decide
    | (split; all_goals (try dsimp -zeta only))
    | (dsimp +zetaDelta -zeta only)

theorem State.admitAt_keeps {s0 s : State} (h : Keeps s0 s) {x2 x3 x4} :
    Keeps s0 (State.admitAt s x2 x3 x4) := by
  unfold State.admitAt
  repeat' first
    | with_reducible exact h
    | with_reducible assumption
    | (intro; try dsimp -zeta only)
    | with_reducible apply setTxn_keeps
    | with_reducible apply State.react_keeps
    | (extract_lets +onlyGivenNames x; refine Keeps.cut x ?_ ?_; dsimp -zeta only [x]; clear x; rotate_left; intro hx; clear_value x; rotate_left)
    | extract_lets +onlyGivenNames x
    | with_reducible apply Keeps.ite
    | decide
    | (split; all_goals (try dsimp -zeta only))
    | (dsimp +zetaDelta -zeta only)

theorem State.noteDepth_keeps {s0 s : State} (h : Keeps s0 s) {x2 x3} :
    Keeps s0 (State.noteDepth s x2 x3) := by
  unfold State.noteDepth
  repeat' first
    | with_reducible exact h
    | with_reducible assumption
    | (intro; try dsimp -zeta only)
    | with_reducible apply fset_keeps
    | (extract_lets +onlyGivenNames x; refine Keeps.cut x ?_ ?_; dsimp -zeta only [x]; clear x; rotate_left; intro hx; clear_value x; rotate_left)
    | extract_lets +onlyGivenNames x
    | with_reducible apply Keeps.ite
    | decide
    | (split; all_goals (try dsimp -zeta only))
    | (dsimp +zetaDelta -zeta only)

theorem State.shed_keeps {s0 s : State} (h : Keeps s0 s) {x2 x3} :
    Keeps s0 (State.shed s x2 x3).2 := by
  unfold State.shed
  repeat' first
    | with_reducible exact h
    | with_reducible assumption
    | (intro; try dsimp -zeta only)
    | with_reducible apply modSlice_keeps
    | with_reducible apply State.ttRead_keeps
    | with_reducible apply State.admitAt_keeps
    | with_reducible apply State.noteDepth_keeps
    | (extract_lets +onlyGivenNames x; refine Keeps.cut x ?_ ?_; dsimp -zeta only [x]; clear x; rotate_left; intro hx; clear_value x; rotate_left)
    | extract_lets +onlyGivenNames x
    | with_reducible apply Keeps.ite
    | decide
    | (split; all_goals (try dsimp -zeta only))
    | (dsimp +zetaDelta -zeta only)

theorem State.wait_keeps {s0 s : State} (h : Keeps s0 s) {x2 x3 x4} :
    Keeps s0 (State.wait s x2 x3 x4) := by
  unfold State.wait
  repeat' first
    | with_reducible exact h
    | with_reducible assumption
    | (intro; try dsimp -zeta only)
    | with_reducible apply wrapInc_keeps
    | with_reducible apply modSlice_keeps
    | (extract_lets +onlyGivenNames x; refine Keeps.cut x ?_ ?_; dsimp -zeta only [x]; clear x; rotate_left; intro hx; clear_value x; rotate_left)
    | extract_lets +onlyGivenNames x
    | with_reducible apply Keeps.ite
    | decide
    | (split; all_goals (try dsimp -zeta only))
    | (dsimp +zetaDelta -zeta only)

theorem State.shedOrWait_keeps {s0 s : State} (h : Keeps s0 s) {x2 x3} :
    Keeps s0 (State.shedOrWait s x2 x3) := by
  unfold State.shedOrWait
  repeat' first
    | with_reducible exact h
    | with_reducible assumption
    | (intro; try dsimp -zeta only)
    | with_reducible apply State.wakeSlice_keeps
    | with_reducible apply State.shed_keeps
    | with_reducible apply State.wait_keeps
    | (extract_lets +onlyGivenNames x; refine Keeps.cut x ?_ ?_; dsimp -zeta only [x]; clear x; rotate_left; intro hx; clear_value x; rotate_left)
    | extract_lets +onlyGivenNames x
    | with_reducible apply Keeps.ite
    | decide
    | (split; all_goals (try dsimp -zeta only))
    | (dsimp +zetaDelta -zeta only)

theorem State.tryFree_keeps {s0 s : State} (h : Keeps s0 s) {x2 x3} :
    Keeps s0 (State.tryFree s x2 x3) := by
  unfold State.tryFree
  repeat' first
    | with_reducible exact h
    | with_reducible assumption
    | (intro; try dsimp -zeta only)
    | with_reducible apply setTxn_keeps
    | with_reducible apply State.react_keeps
    | with_reducible apply Keeps.ite
    | decide
    | (split; all_goals (try dsimp -zeta only))

theorem State.closeTxn_keeps {s0 s : State} (h : Keeps s0 s) {x2 x3} :
    Keeps s0 (State.closeTxn s x2 x3) := by
  unfold State.closeTxn
  repeat' first
    | with_reducible exact h
    | with_reducible assumption
    | (intro; try dsimp -zeta only)
    | with_reducible apply setTxn_keeps
    | with_reducible apply State.react_keeps
    | with_reducible apply State.tryFree_keeps
    | with_reducible apply Keeps.ite
    | decide
    | (split; all_goals (try dsimp -zeta only))

theorem State.admitChained_keeps {s0 s : State} (h : Keeps s0 s) {x2} :
    Keeps s0 (State.admitChained s x2) := by
  unfold State.admitChained
  repeat' first
    | with_reducible exact h
    | with_reducible assumption
    | (intro; try dsimp -zeta only)
    | with_reducible apply modSlice_keeps
    | with_reducible apply State.react_keeps
    | with_reducible apply State.admitAt_keeps
    | with_reducible apply Keeps.ite
    | decide
    | (split; all_goals (try dsimp -zeta only))

end Sys2Proof.Machine
end

