-- ==== Sys2Proof/Laws/KeepsCoherence.lean ====
section
/-!
SUPPORT. What the operations of Machine/Coherence.lean keep of a state (`Keeps`), one law each.
-/
namespace Sys2Proof.Machine
set_option linter.all false

theorem State.modTxn_keeps {s0 s : State} (h : Keeps s0 s) {x2 x3 x4} :
    Keeps s0 (State.modTxn s x2 x3 x4) := by
  unfold State.modTxn
  repeat' first
    | with_reducible exact h
    | with_reducible assumption
    | (intro; try dsimp -zeta only)
    | with_reducible apply setTxn_keeps
    | with_reducible apply Keeps.ite
    | decide
    | (split; all_goals (try dsimp -zeta only))

theorem State.sendMemRd_keeps {s0 s : State} (h : Keeps s0 s) {x2 x3 x4 x5} :
    Keeps s0 (State.sendMemRd s x2 x3 x4 x5) := by
  unfold State.sendMemRd
  repeat' first
    | with_reducible exact h
    | with_reducible assumption
    | (intro; try dsimp -zeta only)
    | with_reducible apply State.toMemory_keeps
    | with_reducible apply setTxn_keeps
    | with_reducible apply Keeps.ite
    | decide
    | (split; all_goals (try dsimp -zeta only))

theorem State.cancelMemRd_keeps {s0 s : State} (h : Keeps s0 s) {x2 x3} :
    Keeps s0 (State.cancelMemRd s x2 x3) := by
  unfold State.cancelMemRd
  repeat' first
    | with_reducible exact h
    | with_reducible assumption
    | (intro; try dsimp -zeta only)
    | with_reducible apply State.toMemory_keeps
    | with_reducible apply setTxn_keeps
    | (extract_lets +onlyGivenNames x; refine Keeps.cut x ?_ ?_; dsimp -zeta only [x]; clear x; rotate_left; intro hx; clear_value x; rotate_left)
    | extract_lets +onlyGivenNames x
    | with_reducible apply Keeps.ite
    | decide
    | (split; all_goals (try dsimp -zeta only))
    | (dsimp +zetaDelta -zeta only)

theorem State.giveData_keeps {s0 s : State} (h : Keeps s0 s) {x2 x3 x4 x5 x6} :
    Keeps s0 (State.giveData s x2 x3 x4 x5 x6) := by
  unfold State.giveData
  repeat' first
    | with_reducible exact h
    | with_reducible assumption
    | (intro; try dsimp -zeta only)
    | with_reducible apply State.modTxn_keeps
    | with_reducible apply State.cancelMemRd_keeps
    | with_reducible apply wrapInc_keeps
    | (extract_lets +onlyGivenNames x; refine Keeps.cut x ?_ ?_; dsimp -zeta only [x]; clear x; rotate_left; intro hx; clear_value x; rotate_left)
    | extract_lets +onlyGivenNames x
    | with_reducible apply Keeps.ite
    | decide
    | (split; all_goals (try dsimp -zeta only))
    | (dsimp +zetaDelta -zeta only)

theorem State.clearRsv_keeps {s0 s : State} (h : Keeps s0 s) {x2 x3} :
    Keeps s0 (State.clearRsv s x2 x3) := by
  unfold State.clearRsv
  repeat' first
    | with_reducible exact h
    | with_reducible assumption
    | (intro; try dsimp -zeta only)
    | with_reducible apply modSlice_keeps
    | with_reducible apply Keeps.ite
    | decide
    | (split; all_goals (try dsimp -zeta only))

theorem State.putRsv_keeps {s0 s : State} (h : Keeps s0 s) {x2 x3 x4 x5} :
    Keeps s0 (State.putRsv s x2 x3 x4 x5) := by
  unfold State.putRsv
  repeat' first
    | with_reducible exact h
    | with_reducible assumption
    | (intro; try dsimp -zeta only)
    | with_reducible apply modSlice_keeps
    | (extract_lets +onlyGivenNames x; refine Keeps.cut x ?_ ?_; dsimp -zeta only [x]; clear x; rotate_left; intro hx; clear_value x; rotate_left)
    | extract_lets +onlyGivenNames x
    | with_reducible apply Keeps.ite
    | decide
    | (split; all_goals (try dsimp -zeta only))
    | (dsimp +zetaDelta -zeta only)

theorem State.reserve_keeps {s0 s : State} (h : Keeps s0 s) {x2 x3} :
    Keeps s0 (State.reserve s x2 x3) := by
  unfold State.reserve
  repeat' first
    | with_reducible exact h
    | with_reducible assumption
    | (intro; try dsimp -zeta only)
    | with_reducible apply State.putRsv_keeps
    | with_reducible apply bump_keeps
    | (extract_lets +onlyGivenNames x; refine Keeps.cut x ?_ ?_; dsimp -zeta only [x]; clear x; rotate_left; intro hx; clear_value x; rotate_left)
    | extract_lets +onlyGivenNames x
    | with_reducible apply Keeps.ite
    | decide
    | (split; all_goals (try dsimp -zeta only))
    | (dsimp +zetaDelta -zeta only)

theorem State.condTry_keeps {s0 s : State} (h : Keeps s0 s) {x2 x3 x4} :
    Keeps s0 (State.condTry s x2 x3 x4).2 := by
  unfold State.condTry
  repeat' first
    | with_reducible exact h
    | with_reducible assumption
    | (intro; try dsimp -zeta only)
    | with_reducible apply State.putRsv_keeps
    | (extract_lets +onlyGivenNames x; refine Keeps.cut x ?_ ?_; dsimp -zeta only [x]; clear x; rotate_left; intro hx; clear_value x; rotate_left)
    | extract_lets +onlyGivenNames x
    | with_reducible apply Keeps.ite
    | decide
    | (split; all_goals (try dsimp -zeta only))
    | (dsimp +zetaDelta -zeta only)

theorem State.sendCopies_keeps {s0 s : State} (h : Keeps s0 s) {x2 x3 x4 x5 x6 x7 x8 x9 x10} :
    Keeps s0 (State.sendCopies s x2 x3 x4 x5 x6 x7 x8 x9 x10) := by
  unfold State.sendCopies
  repeat' first
    | with_reducible exact h
    | with_reducible assumption
    | (intro; try dsimp -zeta only)
    | with_reducible apply State.send_keeps
    | with_reducible apply setTxn_keeps
    | (extract_lets +onlyGivenNames x; refine Keeps.cut x ?_ ?_; dsimp -zeta only [x]; clear x; rotate_left; intro hx; clear_value x; rotate_left)
    | extract_lets +onlyGivenNames x
    | with_reducible apply Keeps.ite
    | with_reducible apply foldl_keeps
    | with_reducible apply foldl_snd_keeps
    | decide
    | (split; all_goals (try dsimp -zeta only))
    | (dsimp +zetaDelta -zeta only)

theorem State.fetchLine_keeps {s0 s : State} (h : Keeps s0 s) {x2 x3} :
    Keeps s0 (State.fetchLine s x2 x3) := by
  unfold State.fetchLine
  repeat' first
    | with_reducible exact h
    | with_reducible assumption
    | (intro; try dsimp -zeta only)
    | with_reducible apply State.modTxn_keeps
    | with_reducible apply State.sendMemRd_keeps
    | with_reducible apply Keeps.ite
    | decide
    | (split; all_goals (try dsimp -zeta only))

theorem State.hcLookup_keeps {s0 s : State} (h : Keeps s0 s) {x2 x3} :
    Keeps s0 (State.hcLookup s x2 x3) := by
  unfold State.hcLookup
  repeat' first
    | with_reducible exact h
    | with_reducible assumption
    | (intro; try dsimp -zeta only)
    | with_reducible apply State.modTxn_keeps
    | with_reducible apply State.cancelMemRd_keeps
    | with_reducible apply State.giveData_keeps
    | with_reducible apply State.hcRead_keeps
    | (extract_lets +onlyGivenNames x; refine Keeps.cut x ?_ ?_; dsimp -zeta only [x]; clear x; rotate_left; intro hx; clear_value x; rotate_left)
    | extract_lets +onlyGivenNames x
    | with_reducible apply Keeps.ite
    | decide
    | (split; all_goals (try dsimp -zeta only))
    | with_reducible apply freshSet_keeps
    | (dsimp +zetaDelta -zeta only)

theorem State.fillFor_keeps {s0 s : State} (h : Keeps s0 s) {x2 x3} :
    Keeps s0 (State.fillFor s x2 x3) := by
  unfold State.fillFor
  repeat' first
    | with_reducible exact h
    | with_reducible assumption
    | (intro; try dsimp -zeta only)
    | with_reducible apply State.hcFillLine_keeps
    | with_reducible apply State.shedOrWait_keeps
    | (extract_lets +onlyGivenNames x; refine Keeps.cut x ?_ ?_; dsimp -zeta only [x]; clear x; rotate_left; intro hx; clear_value x; rotate_left)
    | extract_lets +onlyGivenNames x
    | with_reducible apply Keeps.ite
    | with_reducible apply forUp_keeps
    | decide
    | (split; all_goals (try dsimp -zeta only))
    | (dsimp +zetaDelta -zeta only)

theorem State.putRecord_keeps {s0 s : State} (h : Keeps s0 s) {x2 x3 x4 x5} :
    Keeps s0 (State.putRecord s x2 x3 x4 x5).2 := by
  unfold State.putRecord
  repeat' first
    | with_reducible exact h
    | with_reducible assumption
    | (intro; try dsimp -zeta only)
    | with_reducible apply State.modTxn_keeps
    | with_reducible apply State.admitAt_keeps
    | with_reducible apply State.sfChoose_keeps
    | with_reducible apply State.countChange_keeps
    | with_reducible apply State.sfWrite_keeps
    | (extract_lets +onlyGivenNames x; refine Keeps.cut x ?_ ?_; dsimp -zeta only [x]; clear x; rotate_left; intro hx; clear_value x; rotate_left)
    | extract_lets +onlyGivenNames x
    | with_reducible apply Keeps.ite
    | decide
    | (split; all_goals (try dsimp -zeta only))
    | (dsimp +zetaDelta -zeta only)

theorem State.elemDone_keeps {s0 s : State} (h : Keeps s0 s) {x2 x3 x4 x5 x6 x7} :
    Keeps s0 (State.elemDone s x2 x3 x4 x5 x6 x7) := by
  unfold State.elemDone
  repeat' first
    | with_reducible exact h
    | with_reducible assumption
    | (intro; try dsimp -zeta only)
    | with_reducible apply modSlice_keeps
    | with_reducible apply State.react_keeps
    | with_reducible apply Keeps.ite
    | decide
    | (split; all_goals (try dsimp -zeta only))

theorem State.releaseWrite_keeps {s0 s : State} (h : Keeps s0 s) {x2} :
    Keeps s0 (State.releaseWrite s x2) := by
  unfold State.releaseWrite
  repeat' first
    | with_reducible exact h
    | with_reducible assumption
    | (intro; try dsimp -zeta only)
    | with_reducible apply modPort_keeps
    | with_reducible apply State.react_keeps
    | (extract_lets +onlyGivenNames x; refine Keeps.cut x ?_ ?_; dsimp -zeta only [x]; clear x; rotate_left; intro hx; clear_value x; rotate_left)
    | extract_lets +onlyGivenNames x
    | with_reducible apply Keeps.ite
    | decide
    | (split; all_goals (try dsimp -zeta only))
    | (dsimp +zetaDelta -zeta only)

theorem State.complete_keeps {s0 s : State} (h : Keeps s0 s) {x2 x3 x4 x5} :
    Keeps s0 (State.complete s x2 x3 x4 x5) := by
  unfold State.complete
  repeat' first
    | with_reducible exact h
    | with_reducible assumption
    | (intro; try dsimp -zeta only)
    | with_reducible apply State.modTxn_keeps
    | with_reducible apply State.clearRsv_keeps
    | with_reducible apply State.reserve_keeps
    | with_reducible apply State.fillFor_keeps
    | with_reducible apply State.elemDone_keeps
    | with_reducible apply State.releaseWrite_keeps
    | with_reducible apply State.hcWriteLine_keeps
    | with_reducible apply State.send_keeps
    | with_reducible apply bump_keeps
    | with_reducible apply wrapInc_keeps
    | with_reducible apply State.closeTxn_keeps
    | with_reducible apply State.winDone_keeps
    | (extract_lets +onlyGivenNames x; refine Keeps.cut x ?_ ?_; dsimp -zeta only [x]; clear x; rotate_left; intro hx; clear_value x; rotate_left)
    | extract_lets +onlyGivenNames x
    | with_reducible apply Keeps.ite
    | decide
    | (split; all_goals (try dsimp -zeta only))
    | (dsimp +zetaDelta -zeta only)

end Sys2Proof.Machine
end

