-- ==== Sys2Proof/Laws/KeepsFlow.lean ====
section
/-!
SUPPORT. What the operations of Machine/Flow.lean keep of a state (`Keeps`), one law each.
-/
namespace Sys2Proof.Machine
set_option linter.all false

theorem State.recordAndEnd_keeps {s0 s : State} (h : Keeps s0 s) {x2 x3} :
    Keeps s0 (State.recordAndEnd s x2 x3) := by
  unfold State.recordAndEnd
  repeat' first
    | with_reducible exact h
    | with_reducible assumption
    | (intro; try dsimp -zeta only)
    | with_reducible apply State.putRecord_keeps
    | with_reducible apply State.complete_keeps
    | (extract_lets +onlyGivenNames x; refine Keeps.cut x ?_ ?_; dsimp -zeta only [x]; clear x; rotate_left; intro hx; clear_value x; rotate_left)
    | extract_lets +onlyGivenNames x
    | with_reducible apply Keeps.ite
    | decide
    | (split; all_goals (try dsimp -zeta only))
    | (dsimp +zetaDelta -zeta only)

theorem State.finish_keeps {s0 s : State} (h : Keeps s0 s) {x2 x3} :
    Keeps s0 (State.finish s x2 x3) := by
  unfold State.finish
  repeat' first
    | with_reducible exact h
    | with_reducible assumption
    | (intro; try dsimp -zeta only)
    | with_reducible apply State.modTxn_keeps
    | with_reducible apply State.recordAndEnd_keeps
    | with_reducible apply modPort_keeps
    | with_reducible apply Keeps.ite
    | decide
    | (split; all_goals (try dsimp -zeta only))

theorem State.wantMem_keeps {s0 s : State} (h : Keeps s0 s) {x2 x3} :
    Keeps s0 (State.wantMem s x2 x3) := by
  unfold State.wantMem
  repeat' first
    | with_reducible exact h
    | with_reducible assumption
    | (intro; try dsimp -zeta only)
    | with_reducible apply State.sendMemRd_keeps
    | with_reducible apply Keeps.ite
    | decide
    | (split; all_goals (try dsimp -zeta only))

theorem State.advance_keeps {s0 s : State} (h : Keeps s0 s) {x2 x3} :
    Keeps s0 (State.advance s x2 x3) := by
  unfold State.advance
  repeat' first
    | with_reducible exact h
    | with_reducible assumption
    | (intro; try dsimp -zeta only)
    | with_reducible apply State.modTxn_keeps
    | with_reducible apply State.finish_keeps
    | with_reducible apply State.wantMem_keeps
    | with_reducible apply Keeps.ite
    | decide
    | (split; all_goals (try dsimp -zeta only))

theorem State.snoopAll_keeps {s0 s : State} (h : Keeps s0 s) {x2 x3 x4 x5 x6} :
    Keeps s0 (State.snoopAll s x2 x3 x4 x5 x6) := by
  unfold State.snoopAll
  repeat' first
    | with_reducible exact h
    | with_reducible assumption
    | (intro; try dsimp -zeta only)
    | with_reducible apply State.modTxn_keeps
    | with_reducible apply State.sendCopies_keeps
    | (extract_lets +onlyGivenNames x; refine Keeps.cut x ?_ ?_; dsimp -zeta only [x]; clear x; rotate_left; intro hx; clear_value x; rotate_left)
    | extract_lets +onlyGivenNames x
    | with_reducible apply Keeps.ite
    | decide
    | (split; all_goals (try dsimp -zeta only))
    | (dsimp +zetaDelta -zeta only)

theorem State.sendSnoops_keeps {s0 s : State} (h : Keeps s0 s) {x2 x3} :
    Keeps s0 (State.sendSnoops s x2 x3) := by
  unfold State.sendSnoops
  repeat' first
    | with_reducible exact h
    | with_reducible assumption
    | (intro; try dsimp -zeta only)
    | with_reducible apply State.modTxn_keeps
    | with_reducible apply State.sendCopies_keeps
    | with_reducible apply State.snoopAll_keeps
    | (extract_lets +onlyGivenNames x; refine Keeps.cut x ?_ ?_; dsimp -zeta only [x]; clear x; rotate_left; intro hx; clear_value x; rotate_left)
    | extract_lets +onlyGivenNames x
    | with_reducible apply Keeps.ite
    | decide
    | (split; all_goals (try dsimp -zeta only))
    | (dsimp +zetaDelta -zeta only)

theorem State.ownerAnswered_keeps {s0 s : State} (h : Keeps s0 s) {x2 x3} :
    Keeps s0 (State.ownerAnswered s x2 x3) := by
  unfold State.ownerAnswered
  repeat' first
    | with_reducible exact h
    | with_reducible assumption
    | (intro; try dsimp -zeta only)
    | with_reducible apply State.modTxn_keeps
    | with_reducible apply State.advance_keeps
    | with_reducible apply State.snoopAll_keeps
    | (extract_lets +onlyGivenNames x; refine Keeps.cut x ?_ ?_; dsimp -zeta only [x]; clear x; rotate_left; intro hx; clear_value x; rotate_left)
    | extract_lets +onlyGivenNames x
    | with_reducible apply Keeps.ite
    | decide
    | (split; all_goals (try dsimp -zeta only))
    | (dsimp +zetaDelta -zeta only)

theorem State.afterLookup_keeps {s0 s : State} (h : Keeps s0 s) {x2 x3} :
    Keeps s0 (State.afterLookup s x2 x3) := by
  unfold State.afterLookup
  repeat' first
    | with_reducible exact h
    | with_reducible assumption
    | (intro; try dsimp -zeta only)
    | with_reducible apply State.hcLookup_keeps
    | with_reducible apply State.wantMem_keeps
    | with_reducible apply State.advance_keeps
    | with_reducible apply State.sendSnoops_keeps
    | with_reducible apply setTxn_keeps
    | (extract_lets +onlyGivenNames x; refine Keeps.cut x ?_ ?_; dsimp -zeta only [x]; clear x; rotate_left; intro hx; clear_value x; rotate_left)
    | extract_lets +onlyGivenNames x
    | with_reducible apply Keeps.ite
    | decide
    | (split; all_goals (try dsimp -zeta only))
    | (dsimp +zetaDelta -zeta only)

theorem State.recall_keeps {s0 s : State} (h : Keeps s0 s) {x2 x3} :
    Keeps s0 (State.recall s x2 x3) := by
  unfold State.recall
  repeat' first
    | with_reducible exact h
    | with_reducible assumption
    | (intro; try dsimp -zeta only)
    | with_reducible apply State.modTxn_keeps
    | with_reducible apply State.sendCopies_keeps
    | with_reducible apply State.afterLookup_keeps
    | with_reducible apply wrapInc_keeps
    | (extract_lets +onlyGivenNames x; refine Keeps.cut x ?_ ?_; dsimp -zeta only [x]; clear x; rotate_left; intro hx; clear_value x; rotate_left)
    | extract_lets +onlyGivenNames x
    | with_reducible apply Keeps.ite
    | decide
    | (split; all_goals (try dsimp -zeta only))
    | (dsimp +zetaDelta -zeta only)

theorem State.recallDone_keeps {s0 s : State} (h : Keeps s0 s) {x2 x3} :
    Keeps s0 (State.recallDone s x2 x3) := by
  unfold State.recallDone
  repeat' first
    | with_reducible exact h
    | with_reducible assumption
    | (intro; try dsimp -zeta only)
    | with_reducible apply State.afterLookup_keeps
    | with_reducible apply setTxn_keeps
    | with_reducible apply Keeps.ite
    | decide
    | (split; all_goals (try dsimp -zeta only))

theorem State.moveOn_keeps {s0 s : State} (h : Keeps s0 s) {x2 x3} :
    Keeps s0 (State.moveOn s x2 x3) := by
  unfold State.moveOn
  repeat' first
    | with_reducible exact h
    | with_reducible assumption
    | (intro; try dsimp -zeta only)
    | with_reducible apply State.advance_keeps
    | with_reducible apply State.ownerAnswered_keeps
    | with_reducible apply State.recallDone_keeps
    | with_reducible apply Keeps.ite
    | decide
    | (split; all_goals (try dsimp -zeta only))

theorem State.beginReq_keeps {s0 s : State} (h : Keeps s0 s) {x2 x3} :
    Keeps s0 (State.beginReq s x2 x3) := by
  unfold State.beginReq
  repeat' first
    | with_reducible exact h
    | with_reducible assumption
    | (intro; try dsimp -zeta only)
    | with_reducible apply State.modTxn_keeps
    | with_reducible apply State.sendMemRd_keeps
    | with_reducible apply State.clearRsv_keeps
    | with_reducible apply State.condTry_keeps
    | with_reducible apply State.afterLookup_keeps
    | with_reducible apply State.recall_keeps
    | with_reducible apply bump_keeps
    | with_reducible apply setTxn_keeps
    | with_reducible apply State.sfCheckSet_keeps
    | with_reducible apply State.sfTouch_keeps
    | (extract_lets +onlyGivenNames x; refine Keeps.cut x ?_ ?_; dsimp -zeta only [x]; clear x; rotate_left; intro hx; clear_value x; rotate_left)
    | extract_lets +onlyGivenNames x
    | with_reducible apply Keeps.ite
    | decide
    | (split; all_goals (try dsimp -zeta only))
    | (dsimp +zetaDelta -zeta only)

theorem State.takeCondWr_keeps {s0 s : State} (h : Keeps s0 s) {x2 x3 x4 x5} :
    Keeps s0 (State.takeCondWr s x2 x3 x4 x5) := by
  unfold State.takeCondWr
  repeat' first
    | with_reducible exact h
    | with_reducible assumption
    | (intro; try dsimp -zeta only)
    | with_reducible apply State.clearRsv_keeps
    | with_reducible apply State.condTry_keeps
    | with_reducible apply State.afterLookup_keeps
    | with_reducible apply setTxn_keeps
    | (extract_lets +onlyGivenNames x; refine Keeps.cut x ?_ ?_; dsimp -zeta only [x]; clear x; rotate_left; intro hx; clear_value x; rotate_left)
    | extract_lets +onlyGivenNames x
    | with_reducible apply Keeps.ite
    | decide
    | (split; all_goals (try dsimp -zeta only))
    | (dsimp +zetaDelta -zeta only)

theorem State.retryWays_keeps {s0 s : State} (h : Keeps s0 s) {x2} :
    Keeps s0 (State.retryWays s x2) := by
  unfold State.retryWays
  repeat' first
    | with_reducible exact h
    | with_reducible assumption
    | (intro; try dsimp -zeta only)
    | with_reducible apply State.recordAndEnd_keeps
    | with_reducible apply Keeps.ite
    | with_reducible apply foldl_keeps
    | with_reducible apply foldl_snd_keeps
    | decide
    | (split; all_goals (try dsimp -zeta only))

theorem State.retryCommits_keeps {s0 s : State} (h : Keeps s0 s) :
    Keeps s0 (State.retryCommits s) := by
  unfold State.retryCommits
  repeat' first
    | with_reducible exact h
    | with_reducible assumption
    | (intro; try dsimp -zeta only)
    | with_reducible apply State.finish_keeps
    | with_reducible apply Keeps.ite
    | with_reducible apply forUp_keeps
    | with_reducible apply foldl_keeps
    | with_reducible apply foldl_snd_keeps
    | decide
    | (split; all_goals (try dsimp -zeta only))

theorem State.retryMem_keeps {s0 s : State} (h : Keeps s0 s) {x2 x3} :
    Keeps s0 (State.retryMem s x2 x3) := by
  unfold State.retryMem
  repeat' first
    | with_reducible exact h
    | with_reducible assumption
    | (intro; try dsimp -zeta only)
    | with_reducible apply State.wantMem_keeps
    | with_reducible apply Keeps.ite
    | with_reducible apply foldl_keeps
    | with_reducible apply foldl_snd_keeps
    | decide
    | (split; all_goals (try dsimp -zeta only))

end Sys2Proof.Machine
end

