-- ==== Sys2Proof/Laws/KeepsEngines.lean ====
section
/-!
SUPPORT. What the operations of Machine/Engines.lean keep of a state (`Keeps`), one law each.
-/
namespace Sys2Proof.Machine
set_option linter.all false

theorem State.seizeEvent_keeps {s0 s : State} (h : Keeps s0 s) {x2 x3 x4 x5 x6 x7 x8 x9} (h3 : x3.plain = true) :
    Keeps s0 (State.seizeEvent s x2 x3 x4 x5 x6 x7 x8 x9) := by
  unfold State.seizeEvent
  repeat' first
    | with_reducible exact h
    | with_reducible assumption
    | (intro; try dsimp -zeta only)
    | with_reducible apply fset_keeps
    | with_reducible apply setFlag_keeps
    | with_reducible apply bump_keeps
    | with_reducible apply State.raise_keeps
    | (extract_lets +onlyGivenNames x; refine Keeps.cut x ?_ ?_; dsimp -zeta only [x]; clear x; rotate_left; intro hx; clear_value x; rotate_left)
    | extract_lets +onlyGivenNames x
    | with_reducible apply Keeps.ite
    | decide
    | (split; all_goals (try dsimp -zeta only))
    | (dsimp +zetaDelta -zeta only)

theorem State.sendRecovery_keeps {s0 s : State} (h : Keeps s0 s) {x2 x3 x4 x5 x6 x7 x8 x9} :
    Keeps s0 (State.sendRecovery s x2 x3 x4 x5 x6 x7 x8 x9) := by
  unfold State.sendRecovery
  repeat' first
    | with_reducible exact h
    | with_reducible assumption
    | (intro; try dsimp -zeta only)
    | with_reducible apply State.modTxn_keeps
    | with_reducible apply State.send_keeps
    | (extract_lets +onlyGivenNames x; refine Keeps.cut x ?_ ?_; dsimp -zeta only [x]; clear x; rotate_left; intro hx; clear_value x; rotate_left)
    | extract_lets +onlyGivenNames x
    | with_reducible apply Keeps.ite
    | decide
    | (split; all_goals (try dsimp -zeta only))
    | (dsimp +zetaDelta -zeta only)

theorem State.seizeLine_keeps {s0 s : State} (h : Keeps s0 s) {x2 x3 x4 x5 x6 x7} :
    Keeps s0 (State.seizeLine s x2 x3 x4 x5 x6 x7) := by
  unfold State.seizeLine
  repeat' first
    | with_reducible exact h
    | with_reducible assumption
    | (intro; try dsimp -zeta only)
    | with_reducible apply State.clearRsv_keeps
    | with_reducible apply State.seizeEvent_keeps
    | with_reducible apply State.poisonCopy_keeps
    | with_reducible apply State.deferred_keeps
    | with_reducible apply Keeps.ite
    | decide
    | (split; all_goals (try dsimp -zeta only))

theorem State.backInvEntry_keeps {s0 s : State} (h : Keeps s0 s) {x2 x3 x4 x5 x6} :
    Keeps s0 (State.backInvEntry s x2 x3 x4 x5 x6) := by
  unfold State.backInvEntry
  repeat' first
    | with_reducible exact h
    | with_reducible assumption
    | (intro; try dsimp -zeta only)
    | with_reducible apply State.setLoose_keeps
    | with_reducible apply State.sfPut_keeps
    | with_reducible apply State.sfRetire_keeps
    | with_reducible apply State.countChange_keeps
    | with_reducible apply State.sfWrite_keeps
    | (extract_lets +onlyGivenNames x; refine Keeps.cut x ?_ ?_; dsimp -zeta only [x]; clear x; rotate_left; intro hx; clear_value x; rotate_left)
    | extract_lets +onlyGivenNames x
    | with_reducible apply Keeps.ite
    | decide
    | (split; all_goals (try dsimp -zeta only))
    | (dsimp +zetaDelta -zeta only)

theorem State.endBackInv_keeps {s0 s : State} (h : Keeps s0 s) {x2 x3 x4 x5} :
    Keeps s0 (State.endBackInv s x2 x3 x4 x5) := by
  unfold State.endBackInv
  repeat' first
    | with_reducible exact h
    | with_reducible assumption
    | (intro; try dsimp -zeta only)
    | with_reducible apply State.backInvEntry_keeps
    | with_reducible apply State.hcWriteLine_keeps
    | with_reducible apply bump_keeps
    | with_reducible apply State.closeTxn_keeps
    | (extract_lets +onlyGivenNames x; refine Keeps.cut x ?_ ?_; dsimp -zeta only [x]; clear x; rotate_left; intro hx; clear_value x; rotate_left)
    | extract_lets +onlyGivenNames x
    | with_reducible apply Keeps.ite
    | decide
    | (split; all_goals (try dsimp -zeta only))
    | (dsimp +zetaDelta -zeta only)

theorem State.beginBackInv_keeps {s0 s : State} (h : Keeps s0 s) {x2 x3 x4 x5} :
    Keeps s0 (State.beginBackInv s x2 x3 x4 x5) := by
  unfold State.beginBackInv
  repeat' first
    | with_reducible exact h
    | with_reducible assumption
    | (intro; try dsimp -zeta only)
    | with_reducible apply State.sendCopies_keeps
    | with_reducible apply State.endBackInv_keeps
    | with_reducible apply wrapInc_keeps
    | with_reducible apply setTxn_keeps
    | with_reducible apply State.closeTxn_keeps
    | (extract_lets +onlyGivenNames x; refine Keeps.cut x ?_ ?_; dsimp -zeta only [x]; clear x; rotate_left; intro hx; clear_value x; rotate_left)
    | extract_lets +onlyGivenNames x
    | with_reducible apply Keeps.ite
    | decide
    | (split; all_goals (try dsimp -zeta only))
    | (dsimp +zetaDelta -zeta only)

theorem State.backInv_keeps {s0 s : State} (h : Keeps s0 s) {x2 x3 x4 x5} :
    Keeps s0 (State.backInv s x2 x3 x4 x5) := by
  unfold State.backInv
  repeat' first
    | with_reducible exact h
    | with_reducible assumption
    | (intro; try dsimp -zeta only)
    | with_reducible apply State.shedOrWait_keeps
    | with_reducible apply Keeps.ite
    | decide
    | (split; all_goals (try dsimp -zeta only))

theorem State.companionAct_keeps {s0 s : State} (h : Keeps s0 s) {x2 x3} :
    Keeps s0 (State.companionAct s x2 x3) := by
  unfold State.companionAct
  repeat' first
    | with_reducible exact h
    | with_reducible assumption
    | (intro; try dsimp -zeta only)
    | with_reducible apply State.modTxn_keeps
    | with_reducible apply State.sendMemRd_keeps
    | with_reducible apply State.hcCheckSet_keeps
    | with_reducible apply State.closeTxn_keeps
    | (extract_lets +onlyGivenNames x; refine Keeps.cut x ?_ ?_; dsimp -zeta only [x]; clear x; rotate_left; intro hx; clear_value x; rotate_left)
    | extract_lets +onlyGivenNames x
    | with_reducible apply Keeps.ite
    | decide
    | (split; all_goals (try dsimp -zeta only))
    | (dsimp +zetaDelta -zeta only)

theorem State.companionData_keeps {s0 s : State} (h : Keeps s0 s) {x2 x3 x4 x5} :
    Keeps s0 (State.companionData s x2 x3 x4 x5) := by
  unfold State.companionData
  repeat' first
    | with_reducible exact h
    | with_reducible assumption
    | (intro; try dsimp -zeta only)
    | with_reducible apply State.hcFillLine_keeps
    | with_reducible apply State.closeTxn_keeps
    | (extract_lets +onlyGivenNames x; refine Keeps.cut x ?_ ?_; dsimp -zeta only [x]; clear x; rotate_left; intro hx; clear_value x; rotate_left)
    | extract_lets +onlyGivenNames x
    | with_reducible apply Keeps.ite
    | decide
    | (split; all_goals (try dsimp -zeta only))
    | (dsimp +zetaDelta -zeta only)

theorem State.sweepSub_keeps {s0 s : State} (h : Keeps s0 s) {x2 x3 x4 x5 x6 x7 x8} :
    Keeps s0 (State.sweepSub s x2 x3 x4 x5 x6 x7 x8) := by
  unfold State.sweepSub
  repeat' first
    | with_reducible exact h
    | with_reducible assumption
    | (intro; try dsimp -zeta only)
    | with_reducible apply State.setFrame_keeps
    | with_reducible apply State.readSubP_keeps
    | with_reducible apply State.sendMemWr_keeps
    | with_reducible apply bump_keeps
    | (extract_lets +onlyGivenNames x; refine Keeps.cut x ?_ ?_; dsimp -zeta only [x]; clear x; rotate_left; intro hx; clear_value x; rotate_left)
    | extract_lets +onlyGivenNames x
    | with_reducible apply Keeps.ite
    | decide
    | (split; all_goals (try dsimp -zeta only))
    | (dsimp +zetaDelta -zeta only)

theorem State.rangeCheck_keeps {s0 s : State} (h : Keeps s0 s) {x2} :
    Keeps s0 (State.rangeCheck s x2) := by
  unfold State.rangeCheck
  repeat' first
    | with_reducible exact h
    | with_reducible assumption
    | (intro; try dsimp -zeta only)
    | with_reducible apply fset_keeps
    | with_reducible apply setFlag_keeps
    | (extract_lets +onlyGivenNames x; refine Keeps.cut x ?_ ?_; dsimp -zeta only [x]; clear x; rotate_left; intro hx; clear_value x; rotate_left)
    | extract_lets +onlyGivenNames x
    | with_reducible apply Keeps.ite
    | decide
    | (split; all_goals (try dsimp -zeta only))
    | with_reducible apply ctx0Set_keeps
    | with_reducible apply ctx1Set_keeps
    | (dsimp +zetaDelta -zeta only)

theorem State.sweepEnd_keeps {s0 s : State} (h : Keeps s0 s) {x2 x3} :
    Keeps s0 (State.sweepEnd s x2 x3) := by
  unfold State.sweepEnd
  repeat' first
    | with_reducible exact h
    | with_reducible assumption
    | (intro; try dsimp -zeta only)
    | with_reducible apply State.rangeCheck_keeps
    | with_reducible apply fset_keeps
    | with_reducible apply setFlag_keeps
    | with_reducible apply State.closeTxn_keeps
    | with_reducible apply Keeps.ite
    | decide
    | (split; all_goals (try dsimp -zeta only))

theorem State.beginMaint_keeps {s0 s : State} (h : Keeps s0 s) {x2 x3 x4 x5} :
    Keeps s0 (State.beginMaint s x2 x3 x4 x5) := by
  unfold State.beginMaint
  repeat' first
    | with_reducible exact h
    | with_reducible assumption
    | (intro; try dsimp -zeta only)
    | with_reducible apply State.modTxn_keeps
    | with_reducible apply State.sweepSub_keeps
    | with_reducible apply State.sweepEnd_keeps
    | with_reducible apply State.hcCheckSet_keeps
    | with_reducible apply modSlice_keeps
    | (extract_lets +onlyGivenNames x; refine Keeps.cut x ?_ ?_; dsimp -zeta only [x]; clear x; rotate_left; intro hx; clear_value x; rotate_left)
    | extract_lets +onlyGivenNames x
    | with_reducible apply Keeps.ite
    | with_reducible apply forUp_keeps
    | decide
    | (split; all_goals (try dsimp -zeta only))
    | (dsimp +zetaDelta -zeta only)

theorem State.beginRange_keeps {s0 s : State} (h : Keeps s0 s) {x2 x3 x4 x5} :
    Keeps s0 (State.beginRange s x2 x3 x4 x5) := by
  unfold State.beginRange
  repeat' first
    | with_reducible exact h
    | with_reducible assumption
    | (intro; try dsimp -zeta only)
    | with_reducible apply State.modTxn_keeps
    | with_reducible apply State.sweepSub_keeps
    | with_reducible apply State.rangeCheck_keeps
    | with_reducible apply State.sweepEnd_keeps
    | with_reducible apply State.hcCheckSet_keeps
    | with_reducible apply State.closeTxn_keeps
    | (extract_lets +onlyGivenNames x; refine Keeps.cut x ?_ ?_; dsimp -zeta only [x]; clear x; rotate_left; intro hx; clear_value x; rotate_left)
    | extract_lets +onlyGivenNames x
    | with_reducible apply Keeps.ite
    | with_reducible apply forUp_keeps
    | decide
    | (split; all_goals (try dsimp -zeta only))
    | (dsimp +zetaDelta -zeta only)

theorem State.modCensus_keeps {s0 s : State} (h : Keeps s0 s) {x2 x3 x4} :
    Keeps s0 (State.modCensus s x2 x3 x4) := by
  unfold State.modCensus
  repeat' first
    | with_reducible exact h
    | with_reducible assumption
    | (intro; try dsimp -zeta only)
    | with_reducible apply modSlice_keeps
    | with_reducible apply Keeps.ite
    | decide
    | (split; all_goals (try dsimp -zeta only))

theorem State.censusOver_keeps {s0 s : State} (h : Keeps s0 s) {x2 x3} :
    Keeps s0 (State.censusOver s x2 x3) := by
  unfold State.censusOver
  repeat' first
    | with_reducible exact h
    | with_reducible assumption
    | (intro; try dsimp -zeta only)
    | with_reducible apply State.modLsl_keeps
    | with_reducible apply setFlag_keeps
    | with_reducible apply modSlice_keeps
    | (extract_lets +onlyGivenNames x; refine Keeps.cut x ?_ ?_; dsimp -zeta only [x]; clear x; rotate_left; intro hx; clear_value x; rotate_left)
    | extract_lets +onlyGivenNames x
    | with_reducible apply Keeps.ite
    | decide
    | (split; all_goals (try dsimp -zeta only))
    | (dsimp +zetaDelta -zeta only)

theorem State.censusClose_keeps {s0 s : State} (h : Keeps s0 s) {x2 x3 x4 x5} :
    Keeps s0 (State.censusClose s x2 x3 x4 x5) := by
  unfold State.censusClose
  repeat' first
    | with_reducible exact h
    | with_reducible assumption
    | (intro; try dsimp -zeta only)
    | with_reducible apply State.modCensus_keeps
    | with_reducible apply State.censusOver_keeps
    | with_reducible apply bump_keeps
    | with_reducible apply State.closeTxn_keeps
    | with_reducible apply Keeps.ite
    | decide
    | (split; all_goals (try dsimp -zeta only))

theorem State.censusSurplus_keeps {s0 s : State} (h : Keeps s0 s) {x2 x3 x4 x5} :
    Keeps s0 (State.censusSurplus s x2 x3 x4 x5) := by
  unfold State.censusSurplus
  repeat' first
    | with_reducible exact h
    | with_reducible assumption
    | (intro; try dsimp -zeta only)
    | with_reducible apply State.modTxn_keeps
    | with_reducible apply State.censusClose_keeps
    | with_reducible apply State.admitAt_keeps
    | (extract_lets +onlyGivenNames x; refine Keeps.cut x ?_ ?_; dsimp -zeta only [x]; clear x; rotate_left; intro hx; clear_value x; rotate_left)
    | extract_lets +onlyGivenNames x
    | with_reducible apply Keeps.ite
    | with_reducible apply foldl_keeps
    | with_reducible apply foldl_snd_keeps
    | decide
    | (split; all_goals (try dsimp -zeta only))
    | (dsimp +zetaDelta -zeta only)

theorem State.placeEntries_keeps {s0 : State} {k n : Nat} :
    ∀ {l : List (BitVec 118)} {s : State}, Keeps s0 s → Keeps s0 (State.placeEntries s k n l)
  | [], _, h => h
  | _ :: t, s, h => by
    unfold State.placeEntries
    split
    · exact State.placeEntries_keeps (State.sfPut_keeps h)
    · exact h

theorem State.censusBuild_keeps {s0 s : State} (h : Keeps s0 s) {x2 x3 x4 x5} :
    Keeps s0 (State.censusBuild s x2 x3 x4 x5) := by
  unfold State.censusBuild
  repeat' first
    | with_reducible exact h
    | with_reducible assumption
    | (intro; try dsimp -zeta only)
    | with_reducible apply State.modTxn_keeps
    | with_reducible apply State.censusSurplus_keeps
    | with_reducible apply State.placeEntries_keeps
    | with_reducible apply State.sfPut_keeps
    | (extract_lets +onlyGivenNames x; refine Keeps.cut x ?_ ?_; dsimp -zeta only [x]; clear x; rotate_left; intro hx; clear_value x; rotate_left)
    | extract_lets +onlyGivenNames x
    | with_reducible apply Keeps.ite
    | with_reducible apply foldl_keeps
    | with_reducible apply foldl_snd_keeps
    | decide
    | (split; all_goals (try dsimp -zeta only))
    | (dsimp +zetaDelta -zeta only)

theorem State.modRebuilt_keeps {s0 s : State} (h : Keeps s0 s) {x2 x3 x4 x5} :
    Keeps s0 (State.modRebuilt s x2 x3 x4 x5) := by
  unfold State.modRebuilt
  repeat' first
    | with_reducible exact h
    | with_reducible assumption
    | (intro; try dsimp -zeta only)
    | with_reducible apply State.modTxn_keeps
    | with_reducible apply Keeps.ite
    | decide
    | (split; all_goals (try dsimp -zeta only))

theorem State.censusAnswered_keeps {s0 s : State} (h : Keeps s0 s) {x2 x3 x4 x5} :
    Keeps s0 (State.censusAnswered s x2 x3 x4 x5) := by
  unfold State.censusAnswered
  repeat' first
    | with_reducible exact h
    | with_reducible assumption
    | (intro; try dsimp -zeta only)
    | with_reducible apply State.modTxn_keeps
    | with_reducible apply State.censusBuild_keeps
    | with_reducible apply State.modRebuilt_keeps
    | with_reducible apply State.send_keeps
    | with_reducible apply wrapInc_keeps
    | (extract_lets +onlyGivenNames x; refine Keeps.cut x ?_ ?_; dsimp -zeta only [x]; clear x; rotate_left; intro hx; clear_value x; rotate_left)
    | extract_lets +onlyGivenNames x
    | with_reducible apply Keeps.ite
    | with_reducible apply foldl_keeps
    | with_reducible apply foldl_snd_keeps
    | decide
    | (split; all_goals (try dsimp -zeta only))
    | (dsimp +zetaDelta -zeta only)

theorem State.beginCensus_keeps {s0 s : State} (h : Keeps s0 s) {x2 x3 x4} :
    Keeps s0 (State.beginCensus s x2 x3 x4) := by
  unfold State.beginCensus
  repeat' first
    | with_reducible exact h
    | with_reducible assumption
    | (intro; try dsimp -zeta only)
    | with_reducible apply State.censusAnswered_keeps
    | with_reducible apply State.send_keeps
    | with_reducible apply setTxn_keeps
    | (extract_lets +onlyGivenNames x; refine Keeps.cut x ?_ ?_; dsimp -zeta only [x]; clear x; rotate_left; intro hx; clear_value x; rotate_left)
    | extract_lets +onlyGivenNames x
    | with_reducible apply Keeps.ite
    | with_reducible apply foldl_keeps
    | with_reducible apply foldl_snd_keeps
    | decide
    | (split; all_goals (try dsimp -zeta only))
    | (dsimp +zetaDelta -zeta only)

theorem State.moveEngine_keeps {s0 s : State} (h : Keeps s0 s) {x2 x3} :
    Keeps s0 (State.moveEngine s x2 x3) := by
  unfold State.moveEngine
  repeat' first
    | with_reducible exact h
    | with_reducible assumption
    | (intro; try dsimp -zeta only)
    | with_reducible apply State.endBackInv_keeps
    | with_reducible apply State.censusBuild_keeps
    | with_reducible apply State.censusAnswered_keeps
    | with_reducible apply State.moveOn_keeps
    | with_reducible apply Keeps.ite
    | decide
    | (split; all_goals (try dsimp -zeta only))

theorem State.retrySurplus_keeps {s0 s : State} (h : Keeps s0 s) {x2} :
    Keeps s0 (State.retrySurplus s x2) := by
  unfold State.retrySurplus
  repeat' first
    | with_reducible exact h
    | with_reducible assumption
    | (intro; try dsimp -zeta only)
    | with_reducible apply State.censusSurplus_keeps
    | with_reducible apply Keeps.ite
    | with_reducible apply foldl_keeps
    | with_reducible apply foldl_snd_keeps
    | decide
    | (split; all_goals (try dsimp -zeta only))

theorem State.censusStart_keeps {s0 s : State} (h : Keeps s0 s) {x2} :
    Keeps s0 (State.censusStart s x2) := by
  unfold State.censusStart
  repeat' first
    | with_reducible exact h
    | with_reducible assumption
    | (intro; try dsimp -zeta only)
    | with_reducible apply State.modCensus_keeps
    | with_reducible apply State.shedOrWait_keeps
    | (extract_lets +onlyGivenNames x; refine Keeps.cut x ?_ ?_; dsimp -zeta only [x]; clear x; rotate_left; intro hx; clear_value x; rotate_left)
    | extract_lets +onlyGivenNames x
    | with_reducible apply Keeps.ite
    | decide
    | (split; all_goals (try dsimp -zeta only))
    | (dsimp +zetaDelta -zeta only)

end Sys2Proof.Machine
end

