-- ==== Sys2Proof/Laws/KeepsAnswers.lean ====
section
/-!
SUPPORT. What the operations of Machine/Answers.lean keep of a state (`Keeps`), one law each.
-/
namespace Sys2Proof.Machine
set_option linter.all false

theorem State.snoopAnswer_keeps {s0 s : State} (h : Keeps s0 s) {x2 x3 x4} :
    Keeps s0 (State.snoopAnswer s x2 x3 x4) := by
  unfold State.snoopAnswer
  repeat' first
    | with_reducible exact h
    | with_reducible assumption
    | (intro; try dsimp -zeta only)
    | with_reducible apply State.msgCase_keeps
    | with_reducible apply State.giveData_keeps
    | with_reducible apply State.moveEngine_keeps
    | with_reducible apply wrapInc_keeps
    | with_reducible apply setTxn_keeps
    | (extract_lets +onlyGivenNames x; refine Keeps.cut x ?_ ?_; dsimp -zeta only [x]; clear x; rotate_left; intro hx; clear_value x; rotate_left)
    | extract_lets +onlyGivenNames x
    | with_reducible apply Keeps.ite
    | decide
    | (split; all_goals (try dsimp -zeta only))
    | (dsimp +zetaDelta -zeta only)

theorem State.ownerTimeout_keeps {s0 s : State} (h : Keeps s0 s) {x2 x3} :
    Keeps s0 (State.ownerTimeout s x2 x3) := by
  unfold State.ownerTimeout
  repeat' first
    | with_reducible exact h
    | with_reducible assumption
    | (intro; try dsimp -zeta only)
    | with_reducible apply State.giveData_keeps
    | with_reducible apply State.sendRecovery_keeps
    | with_reducible apply State.seizeLine_keeps
    | with_reducible apply State.moveEngine_keeps
    | with_reducible apply bump_keeps
    | with_reducible apply setTxn_keeps
    | with_reducible apply until_keeps
    | (extract_lets +onlyGivenNames x; refine Keeps.cut x ?_ ?_; dsimp -zeta only [x]; clear x; rotate_left; intro hx; clear_value x; rotate_left)
    | extract_lets +onlyGivenNames x
    | with_reducible apply Keeps.ite
    | decide
    | (split; all_goals (try dsimp -zeta only))
    | (dsimp +zetaDelta -zeta only)

theorem State.sharerTimeout_keeps {s0 s : State} (h : Keeps s0 s) {x2 x3 x4 x5} :
    Keeps s0 (State.sharerTimeout s x2 x3 x4 x5) := by
  unfold State.sharerTimeout
  repeat' first
    | with_reducible exact h
    | with_reducible assumption
    | (intro; try dsimp -zeta only)
    | with_reducible apply State.seizeEvent_keeps
    | with_reducible apply State.sendRecovery_keeps
    | with_reducible apply State.moveEngine_keeps
    | with_reducible apply setTxn_keeps
    | with_reducible apply until_keeps
    | (extract_lets +onlyGivenNames x; refine Keeps.cut x ?_ ?_; dsimp -zeta only [x]; clear x; rotate_left; intro hx; clear_value x; rotate_left)
    | extract_lets +onlyGivenNames x
    | with_reducible apply Keeps.ite
    | decide
    | (split; all_goals (try dsimp -zeta only))
    | (dsimp +zetaDelta -zeta only)

theorem State.followOn_keeps {s0 s : State} (h : Keeps s0 s) {x2 x3 x4} :
    Keeps s0 (State.followOn s x2 x3 x4) := by
  unfold State.followOn
  repeat' first
    | with_reducible exact h
    | with_reducible assumption
    | (intro; try dsimp -zeta only)
    | with_reducible apply State.msgCase_keeps
    | with_reducible apply State.closeTxn_keeps
    | with_reducible apply State.winClose_keeps
    | with_reducible apply Keeps.ite
    | decide
    | (split; all_goals (try dsimp -zeta only))

theorem State.putNow_keeps {s0 s : State} (h : Keeps s0 s) {k : Nat} {a : Addr} {t : Tenant} {r : LineRec} :
    Keeps s0 (State.putNow s k a t r) := by
  have h1 := State.sfChoose_keeps h (x2 := k) (x3 := sfSetOf a) (x4 := t) (x5 := false) (x6 := false)
  unfold State.putNow
  split
  · exact State.sfWrite_keeps (State.countFmt_keeps h)
  · split
    · rename_i e; rw [e] at h1; exact State.sfWrite_keeps h1
    · rename_i e; rw [e] at h1; exact Keeps.ite h1 (State.setLoose_keeps h1)

theorem State.settleTimeout_keeps {s0 s : State} (h : Keeps s0 s) {x2 x3} :
    Keeps s0 (State.settleTimeout s x2 x3) := by
  unfold State.settleTimeout
  repeat' first
    | with_reducible exact h
    | with_reducible assumption
    | (intro; try dsimp -zeta only)
    | with_reducible apply State.putNow_keeps
    | with_reducible apply State.modTxn_keeps
    | with_reducible apply State.seizeEvent_keeps
    | with_reducible apply State.sendRecovery_keeps
    | with_reducible apply until_keeps
    | (extract_lets +onlyGivenNames x; refine Keeps.cut x ?_ ?_; dsimp -zeta only [x]; clear x; rotate_left; intro hx; clear_value x; rotate_left)
    | extract_lets +onlyGivenNames x
    | with_reducible apply Keeps.ite
    | with_reducible apply foldl_keeps
    | with_reducible apply foldl_snd_keeps
    | decide
    | (split; all_goals (try dsimp -zeta only))
    | (dsimp +zetaDelta -zeta only)

theorem State.seizeClose_keeps {s0 s : State} (h : Keeps s0 s) {x2 x3} :
    Keeps s0 (State.seizeClose s x2 x3) := by
  unfold State.seizeClose
  repeat' first
    | with_reducible exact h
    | with_reducible assumption
    | (intro; try dsimp -zeta only)
    | with_reducible apply State.closeTxn_keeps
    | with_reducible apply State.winClose_keeps
    | with_reducible apply Keeps.ite
    | decide
    | (split; all_goals (try dsimp -zeta only))

theorem State.compAckTimeout_keeps {s0 s : State} (h : Keeps s0 s) {x2 x3} :
    Keeps s0 (State.compAckTimeout s x2 x3) := by
  unfold State.compAckTimeout
  repeat' first
    | with_reducible exact h
    | with_reducible assumption
    | (intro; try dsimp -zeta only)
    | with_reducible apply State.hcWriteLine_keeps
    | with_reducible apply bump_keeps
    | with_reducible apply until_keeps
    | with_reducible apply State.closeTxn_keeps
    | with_reducible apply State.winClose_keeps
    | (extract_lets +onlyGivenNames x; refine Keeps.cut x ?_ ?_; dsimp -zeta only [x]; clear x; rotate_left; intro hx; clear_value x; rotate_left)
    | extract_lets +onlyGivenNames x
    | with_reducible apply Keeps.ite
    | decide
    | (split; all_goals (try dsimp -zeta only))
    | (dsimp +zetaDelta -zeta only)

theorem State.seizeAck_keeps {s0 s : State} (h : Keeps s0 s) {x2 x3} :
    Keeps s0 (State.seizeAck s x2 x3) := by
  unfold State.seizeAck
  repeat' first
    | with_reducible exact h
    | with_reducible assumption
    | (intro; try dsimp -zeta only)
    | with_reducible apply State.seizeClose_keeps
    | with_reducible apply State.msgCase_keeps
    | with_reducible apply State.modTxn_keeps
    | (extract_lets +onlyGivenNames x; refine Keeps.cut x ?_ ?_; dsimp -zeta only [x]; clear x; rotate_left; intro hx; clear_value x; rotate_left)
    | extract_lets +onlyGivenNames x
    | with_reducible apply Keeps.ite
    | decide
    | (split; all_goals (try dsimp -zeta only))
    | (dsimp +zetaDelta -zeta only)

theorem State.rcvInvRsp_keeps {s0 s : State} (h : Keeps s0 s) {x2 x3} :
    Keeps s0 (State.rcvInvRsp s x2 x3) := by
  unfold State.rcvInvRsp
  repeat' first
    | with_reducible exact h
    | with_reducible assumption
    | (intro; try dsimp -zeta only)
    | with_reducible apply State.msgCase_keeps
    | with_reducible apply State.modTxn_keeps
    | with_reducible apply State.moveEngine_keeps
    | with_reducible apply State.hcWriteLine_keeps
    | with_reducible apply setTxn_keeps
    | (extract_lets +onlyGivenNames x; refine Keeps.cut x ?_ ?_; dsimp -zeta only [x]; clear x; rotate_left; intro hx; clear_value x; rotate_left)
    | extract_lets +onlyGivenNames x
    | with_reducible apply Keeps.ite
    | decide
    | (split; all_goals (try dsimp -zeta only))
    | (dsimp +zetaDelta -zeta only)

theorem State.recallTimeout_keeps {s0 s : State} (h : Keeps s0 s) {x2 x3 x4 x5} :
    Keeps s0 (State.recallTimeout s x2 x3 x4 x5) := by
  unfold State.recallTimeout
  repeat' first
    | with_reducible exact h
    | with_reducible assumption
    | (intro; try dsimp -zeta only)
    | with_reducible apply State.seizeEvent_keeps
    | with_reducible apply State.modRebuilt_keeps
    | with_reducible apply State.moveEngine_keeps
    | with_reducible apply State.poisonCopy_keeps
    | with_reducible apply setTxn_keeps
    | with_reducible apply until_keeps
    | with_reducible apply State.deferred_keeps
    | (extract_lets +onlyGivenNames x; refine Keeps.cut x ?_ ?_; dsimp -zeta only [x]; clear x; rotate_left; intro hx; clear_value x; rotate_left)
    | extract_lets +onlyGivenNames x
    | with_reducible apply Keeps.ite
    | decide
    | (split; all_goals (try dsimp -zeta only))
    | (dsimp +zetaDelta -zeta only)

theorem State.censusRsp_keeps {s0 s : State} (h : Keeps s0 s) {x2 x3} :
    Keeps s0 (State.censusRsp s x2 x3) := by
  unfold State.censusRsp
  repeat' first
    | with_reducible exact h
    | with_reducible assumption
    | (intro; try dsimp -zeta only)
    | with_reducible apply State.msgCase_keeps
    | with_reducible apply State.modRebuilt_keeps
    | with_reducible apply State.moveEngine_keeps
    | with_reducible apply setTxn_keeps
    | (extract_lets +onlyGivenNames x; refine Keeps.cut x ?_ ?_; dsimp -zeta only [x]; clear x; rotate_left; intro hx; clear_value x; rotate_left)
    | extract_lets +onlyGivenNames x
    | with_reducible apply Keeps.ite
    | decide
    | (split; all_goals (try dsimp -zeta only))
    | (dsimp +zetaDelta -zeta only)

theorem State.censusTimeout_keeps {s0 s : State} (h : Keeps s0 s) {x2 x3 x4 x5 x6} :
    Keeps s0 (State.censusTimeout s x2 x3 x4 x5 x6) := by
  unfold State.censusTimeout
  repeat' first
    | with_reducible exact h
    | with_reducible assumption
    | (intro; try dsimp -zeta only)
    | with_reducible apply State.sendRecovery_keeps
    | with_reducible apply State.seizeLine_keeps
    | with_reducible apply State.modRebuilt_keeps
    | with_reducible apply State.moveEngine_keeps
    | with_reducible apply setTxn_keeps
    | with_reducible apply until_keeps
    | (extract_lets +onlyGivenNames x; refine Keeps.cut x ?_ ?_; dsimp -zeta only [x]; clear x; rotate_left; intro hx; clear_value x; rotate_left)
    | extract_lets +onlyGivenNames x
    | with_reducible apply Keeps.ite
    | decide
    | (split; all_goals (try dsimp -zeta only))
    | (dsimp +zetaDelta -zeta only)

theorem State.memData_keeps {s0 s : State} (h : Keeps s0 s) {x2 x3} :
    Keeps s0 (State.memData s x2 x3) := by
  unfold State.memData
  repeat' first
    | with_reducible exact h
    | with_reducible assumption
    | (intro; try dsimp -zeta only)
    | with_reducible apply State.msgCase_keeps
    | with_reducible apply State.modTxn_keeps
    | with_reducible apply State.giveData_keeps
    | with_reducible apply State.companionData_keeps
    | with_reducible apply State.moveEngine_keeps
    | with_reducible apply wrapInc_keeps
    | with_reducible apply State.tryFree_keeps
    | (extract_lets +onlyGivenNames x; refine Keeps.cut x ?_ ?_; dsimp -zeta only [x]; clear x; rotate_left; intro hx; clear_value x; rotate_left)
    | extract_lets +onlyGivenNames x
    | with_reducible apply Keeps.ite
    | decide
    | (split; all_goals (try dsimp -zeta only))
    | (dsimp +zetaDelta -zeta only)

theorem State.memCancelled_keeps {s0 s : State} (h : Keeps s0 s) {x2 x3} :
    Keeps s0 (State.memCancelled s x2 x3) := by
  unfold State.memCancelled
  repeat' first
    | with_reducible exact h
    | with_reducible assumption
    | (intro; try dsimp -zeta only)
    | with_reducible apply State.msgCase_keeps
    | with_reducible apply State.modTxn_keeps
    | with_reducible apply State.moveEngine_keeps
    | with_reducible apply wrapInc_keeps
    | with_reducible apply State.tryFree_keeps
    | (extract_lets +onlyGivenNames x; refine Keeps.cut x ?_ ?_; dsimp -zeta only [x]; clear x; rotate_left; intro hx; clear_value x; rotate_left)
    | extract_lets +onlyGivenNames x
    | with_reducible apply Keeps.ite
    | decide
    | (split; all_goals (try dsimp -zeta only))
    | (dsimp +zetaDelta -zeta only)

theorem State.memEvent_keeps {s0 s : State} (h : Keeps s0 s) {x2 x3} :
    Keeps s0 (State.memEvent s x2 x3) := by
  unfold State.memEvent
  repeat' first
    | with_reducible exact h
    | with_reducible assumption
    | (intro; try dsimp -zeta only)
    | with_reducible apply bump_keeps
    | with_reducible apply State.raise_keeps
    | with_reducible apply Keeps.ite
    | decide
    | (split; all_goals (try dsimp -zeta only))

theorem State.memRdTimeout_keeps {s0 s : State} (h : Keeps s0 s) {x2 x3} :
    Keeps s0 (State.memRdTimeout s x2 x3) := by
  unfold State.memRdTimeout
  repeat' first
    | with_reducible exact h
    | with_reducible assumption
    | (intro; try dsimp -zeta only)
    | with_reducible apply State.memEvent_keeps
    | with_reducible apply State.modTxn_keeps
    | with_reducible apply State.giveData_keeps
    | with_reducible apply State.moveEngine_keeps
    | with_reducible apply until_keeps
    | with_reducible apply State.deferred_keeps
    | with_reducible apply State.tryFree_keeps
    | (extract_lets +onlyGivenNames x; refine Keeps.cut x ?_ ?_; dsimp -zeta only [x]; clear x; rotate_left; intro hx; clear_value x; rotate_left)
    | extract_lets +onlyGivenNames x
    | with_reducible apply Keeps.ite
    | decide
    | (split; all_goals (try dsimp -zeta only))
    | with_reducible apply freshSet_keeps
    | (dsimp +zetaDelta -zeta only)

theorem State.companionTimeout_keeps {s0 s : State} (h : Keeps s0 s) {x2 x3} :
    Keeps s0 (State.companionTimeout s x2 x3) := by
  unfold State.companionTimeout
  repeat' first
    | with_reducible exact h
    | with_reducible assumption
    | (intro; try dsimp -zeta only)
    | with_reducible apply State.modTxn_keeps
    | with_reducible apply bump_keeps
    | with_reducible apply until_keeps
    | with_reducible apply State.closeTxn_keeps
    | with_reducible apply Keeps.ite
    | decide
    | (split; all_goals (try dsimp -zeta only))

theorem State.memOpEnd_keeps {s0 s : State} (h : Keeps s0 s) {x2 x3 x4} :
    Keeps s0 (State.memOpEnd s x2 x3 x4) := by
  unfold State.memOpEnd
  repeat' first
    | with_reducible exact h
    | with_reducible assumption
    | (intro; try dsimp -zeta only)
    | with_reducible apply State.rangeCheck_keeps
    | with_reducible apply State.sweepEnd_keeps
    | with_reducible apply State.retryMem_keeps
    | with_reducible apply State.setFrame_keeps
    | with_reducible apply State.hcRecordRetired_keeps
    | with_reducible apply modSlice_keeps
    | with_reducible apply State.tryFree_keeps
    | (extract_lets +onlyGivenNames x; refine Keeps.cut x ?_ ?_; dsimp -zeta only [x]; clear x; rotate_left; intro hx; clear_value x; rotate_left)
    | extract_lets +onlyGivenNames x
    | with_reducible apply Keeps.ite
    | with_reducible apply foldl_keeps
    | with_reducible apply foldl_snd_keeps
    | decide
    | (split; all_goals (try dsimp -zeta only))
    | (dsimp +zetaDelta -zeta only)

theorem State.memWrAck_keeps {s0 s : State} (h : Keeps s0 s) {x2 x3} :
    Keeps s0 (State.memWrAck s x2 x3) := by
  unfold State.memWrAck
  repeat' first
    | with_reducible exact h
    | with_reducible assumption
    | (intro; try dsimp -zeta only)
    | with_reducible apply State.memOpEnd_keeps
    | with_reducible apply State.msgCase_keeps
    | (extract_lets +onlyGivenNames x; refine Keeps.cut x ?_ ?_; dsimp -zeta only [x]; clear x; rotate_left; intro hx; clear_value x; rotate_left)
    | extract_lets +onlyGivenNames x
    | with_reducible apply Keeps.ite
    | decide
    | (split; all_goals (try dsimp -zeta only))
    | (dsimp +zetaDelta -zeta only)

theorem State.memWrTimeout_keeps {s0 s : State} (h : Keeps s0 s) {x2 x3} :
    Keeps s0 (State.memWrTimeout s x2 x3) := by
  unfold State.memWrTimeout
  repeat' first
    | with_reducible exact h
    | with_reducible assumption
    | (intro; try dsimp -zeta only)
    | with_reducible apply State.memEvent_keeps
    | with_reducible apply State.memOpEnd_keeps
    | with_reducible apply until_keeps
    | with_reducible apply State.contained_keeps
    | with_reducible apply Keeps.ite
    | decide
    | (split; all_goals (try dsimp -zeta only))

theorem State.offerEnd_keeps {s0 s : State} (h : Keeps s0 s) {x2 x3 x4} :
    Keeps s0 (State.offerEnd s x2 x3 x4) := by
  unfold State.offerEnd
  repeat' first
    | with_reducible exact h
    | with_reducible assumption
    | (intro; try dsimp -zeta only)
    | with_reducible apply State.sendMemWr_keeps
    | with_reducible apply bump_keeps
    | with_reducible apply modSlice_keeps
    | (extract_lets +onlyGivenNames x; refine Keeps.cut x ?_ ?_; dsimp -zeta only [x]; clear x; rotate_left; intro hx; clear_value x; rotate_left)
    | extract_lets +onlyGivenNames x
    | with_reducible apply Keeps.ite
    | decide
    | (split; all_goals (try dsimp -zeta only))
    | (dsimp +zetaDelta -zeta only)

theorem State.memOfferRsp_keeps {s0 s : State} (h : Keeps s0 s) {x2 x3} :
    Keeps s0 (State.memOfferRsp s x2 x3) := by
  unfold State.memOfferRsp
  repeat' first
    | with_reducible exact h
    | with_reducible assumption
    | (intro; try dsimp -zeta only)
    | with_reducible apply State.offerEnd_keeps
    | with_reducible apply State.msgCase_keeps
    | (extract_lets +onlyGivenNames x; refine Keeps.cut x ?_ ?_; dsimp -zeta only [x]; clear x; rotate_left; intro hx; clear_value x; rotate_left)
    | extract_lets +onlyGivenNames x
    | with_reducible apply Keeps.ite
    | decide
    | (split; all_goals (try dsimp -zeta only))
    | (dsimp +zetaDelta -zeta only)

theorem State.offerTimeout_keeps {s0 s : State} (h : Keeps s0 s) {x2 x3} :
    Keeps s0 (State.offerTimeout s x2 x3) := by
  unfold State.offerTimeout
  repeat' first
    | with_reducible exact h
    | with_reducible assumption
    | (intro; try dsimp -zeta only)
    | with_reducible apply State.offerEnd_keeps
    | with_reducible apply until_keeps
    | with_reducible apply Keeps.ite
    | decide
    | (split; all_goals (try dsimp -zeta only))

end Sys2Proof.Machine
end

