-- ==== Sys2Proof/Laws/KeepsEvents.lean ====
section
/-!
SUPPORT. What the operations of Machine/Events.lean keep of a state (`Keeps`), one law each.
-/
namespace Sys2Proof.Machine
set_option linter.all false

theorem State.modVec_keeps {s0 s : State} (h : Keeps s0 s) {x2 x3} :
    Keeps s0 (State.modVec s x2 x3) := by
  unfold State.modVec
  repeat' first
    | with_reducible exact h
    | with_reducible assumption
    | (intro; try dsimp -zeta only)
    | with_reducible apply Keeps.ite
    | decide
    | (split; all_goals (try dsimp -zeta only))
    | with_reducible apply vectorsSet_keeps

theorem State.deliver_keeps {s0 s : State} (h : Keeps s0 s) {x2} :
    Keeps s0 (State.deliver s x2) := by
  unfold State.deliver
  repeat' first
    | with_reducible exact h
    | with_reducible assumption
    | (intro; try dsimp -zeta only)
    | with_reducible apply State.modVec_keeps
    | with_reducible apply State.send_keeps
    | (extract_lets +onlyGivenNames x; refine Keeps.cut x ?_ ?_; dsimp -zeta only [x]; clear x; rotate_left; intro hx; clear_value x; rotate_left)
    | extract_lets +onlyGivenNames x
    | with_reducible apply Keeps.ite
    | with_reducible apply forUp_keeps
    | decide
    | (split; all_goals (try dsimp -zeta only))
    | (dsimp +zetaDelta -zeta only)

theorem State.evgServe_keeps {s0 s : State} (h : Keeps s0 s) :
    Keeps s0 (State.evgServe s) := by
  unfold State.evgServe
  repeat' first
    | with_reducible exact h
    | with_reducible assumption
    | (intro; try dsimp -zeta only)
    | with_reducible apply State.deliver_keeps
    | (extract_lets +onlyGivenNames x; refine Keeps.cut x ?_ ?_; dsimp -zeta only [x]; clear x; rotate_left; intro hx; clear_value x; rotate_left)
    | extract_lets +onlyGivenNames x
    | with_reducible apply Keeps.ite
    | with_reducible apply foldl_keeps
    | with_reducible apply foldl_snd_keeps
    | decide
    | (split; all_goals (try dsimp -zeta only))
    | (dsimp +zetaDelta -zeta only)

theorem State.takeEvent_keeps {s0 s : State} (h : Keeps s0 s) {i : Nat} : Keeps s0 (s.takeEvent i) := by
  unfold State.takeEvent
  dsimp only
  split
  · exact h
  · rename_i e t ht
    have h1 : Keeps s0 { s with sources := spSet EvSource.zero s.sources i { spGet EvSource.zero s.sources i with q := t } } :=
      sourcesSet_keeps h (fun x => by have := x.get i; rw [ht, List.length_cons] at this; dsimp only; omega)
    split
    · exact State.evgServe_keeps (State.modVec_keeps h1)
    · exact bump_keeps h1 (by decide)

theorem State.coalTimeout_keeps {s0 s : State} (h : Keeps s0 s) {x2} :
    Keeps s0 (State.coalTimeout s x2) := by
  unfold State.coalTimeout
  repeat' first
    | with_reducible exact h
    | with_reducible assumption
    | (intro; try dsimp -zeta only)
    | with_reducible apply State.evgServe_keeps
    | with_reducible apply until_keeps
    | (extract_lets +onlyGivenNames x; refine Keeps.cut x ?_ ?_; dsimp -zeta only [x]; clear x; rotate_left; intro hx; clear_value x; rotate_left)
    | extract_lets +onlyGivenNames x
    | with_reducible apply Keeps.ite
    | decide
    | (split; all_goals (try dsimp -zeta only))
    | (dsimp +zetaDelta -zeta only)

theorem State.evgAwake_keeps {s0 s : State} (h : Keeps s0 s) :
    Keeps s0 (State.evgAwake s) := by
  unfold State.evgAwake
  repeat' first
    | with_reducible exact h
    | with_reducible assumption
    | (intro; try dsimp -zeta only)
    | with_reducible apply State.evgServe_keeps
    | with_reducible apply setFlag_keeps
    | with_reducible apply Keeps.ite
    | decide
    | (split; all_goals (try dsimp -zeta only))

theorem State.evgEnded_keeps {s0 s : State} (h : Keeps s0 s) {x2} :
    Keeps s0 (State.evgEnded s x2) := by
  unfold State.evgEnded
  repeat' first
    | with_reducible exact h
    | with_reducible assumption
    | (intro; try dsimp -zeta only)
    | with_reducible apply State.modVec_keeps
    | with_reducible apply State.evgServe_keeps
    | with_reducible apply Keeps.ite
    | decide
    | (split; all_goals (try dsimp -zeta only))

theorem State.evgAck_keeps {s0 s : State} (h : Keeps s0 s) {x2} :
    Keeps s0 (State.evgAck s x2) := by
  unfold State.evgAck
  repeat' first
    | with_reducible exact h
    | with_reducible assumption
    | (intro; try dsimp -zeta only)
    | with_reducible apply State.evgAwake_keeps
    | with_reducible apply State.evgEnded_keeps
    | with_reducible apply Keeps.ite
    | decide
    | (split; all_goals (try dsimp -zeta only))

theorem State.intAck_keeps {s0 s : State} (h : Keeps s0 s) {x2 x3} :
    Keeps s0 (State.intAck s x2 x3) := by
  unfold State.intAck
  repeat' first
    | with_reducible exact h
    | with_reducible assumption
    | (intro; try dsimp -zeta only)
    | with_reducible apply State.msgCase_keeps
    | with_reducible apply State.evgAwake_keeps
    | with_reducible apply State.evgEnded_keeps
    | (extract_lets +onlyGivenNames x; refine Keeps.cut x ?_ ?_; dsimp -zeta only [x]; clear x; rotate_left; intro hx; clear_value x; rotate_left)
    | extract_lets +onlyGivenNames x
    | with_reducible apply Keeps.ite
    | decide
    | (split; all_goals (try dsimp -zeta only))
    | (dsimp +zetaDelta -zeta only)

theorem State.idleHint_keeps {s0 s : State} (h : Keeps s0 s) {x2} :
    Keeps s0 (State.idleHint s x2) := by
  unfold State.idleHint
  repeat' first
    | with_reducible exact h
    | with_reducible assumption
    | (intro; try dsimp -zeta only)
    | with_reducible apply State.modVec_keeps
    | with_reducible apply State.evgServe_keeps
    | with_reducible apply State.evgAwake_keeps
    | with_reducible apply bump_keeps
    | (extract_lets +onlyGivenNames x; refine Keeps.cut x ?_ ?_; dsimp -zeta only [x]; clear x; rotate_left; intro hx; clear_value x; rotate_left)
    | extract_lets +onlyGivenNames x
    | with_reducible apply Keeps.ite
    | with_reducible apply foldl_keeps
    | with_reducible apply foldl_snd_keeps
    | decide
    | (split; all_goals (try dsimp -zeta only))
    | (dsimp +zetaDelta -zeta only)

theorem State.evgResend_keeps {s0 s : State} (h : Keeps s0 s) {x2} :
    Keeps s0 (State.evgResend s x2) := by
  unfold State.evgResend
  repeat' first
    | with_reducible exact h
    | with_reducible assumption
    | (intro; try dsimp -zeta only)
    | with_reducible apply State.modVec_keeps
    | with_reducible apply State.send_keeps
    | with_reducible apply wrapInc_keeps
    | with_reducible apply until_keeps
    | (extract_lets +onlyGivenNames x; refine Keeps.cut x ?_ ?_; dsimp -zeta only [x]; clear x; rotate_left; intro hx; clear_value x; rotate_left)
    | extract_lets +onlyGivenNames x
    | with_reducible apply Keeps.ite
    | decide
    | (split; all_goals (try dsimp -zeta only))
    | (dsimp +zetaDelta -zeta only)

theorem State.evgDiscard_keeps {s0 s : State} (h : Keeps s0 s) {x2} :
    Keeps s0 (State.evgDiscard s x2) := by
  unfold State.evgDiscard
  repeat' first
    | with_reducible exact h
    | with_reducible assumption
    | (intro; try dsimp -zeta only)
    | with_reducible apply State.modVec_keeps
    | with_reducible apply bump_keeps
    | with_reducible apply Keeps.ite
    | decide
    | (split; all_goals (try dsimp -zeta only))

theorem State.vcoalWrite_keeps {s0 s : State} (h : Keeps s0 s) {x2 x3} :
    Keeps s0 (State.vcoalWrite s x2 x3) := by
  unfold State.vcoalWrite
  repeat' first
    | with_reducible exact h
    | with_reducible assumption
    | (intro; try dsimp -zeta only)
    | with_reducible apply State.modVec_keeps
    | with_reducible apply State.evgServe_keeps
    | with_reducible apply State.evgAwake_keeps
    | (extract_lets +onlyGivenNames x; refine Keeps.cut x ?_ ?_; dsimp -zeta only [x]; clear x; rotate_left; intro hx; clear_value x; rotate_left)
    | extract_lets +onlyGivenNames x
    | with_reducible apply Keeps.ite
    | decide
    | (split; all_goals (try dsimp -zeta only))
    | (dsimp +zetaDelta -zeta only)

theorem State.vectorsOverlay_keeps {s0 s : State} (h : Keeps s0 s) {x2} :
    Keeps s0 (State.vectorsOverlay s x2) := by
  unfold State.vectorsOverlay
  repeat' first
    | with_reducible exact h
    | with_reducible assumption
    | (intro; try dsimp -zeta only)
    | with_reducible apply State.modVec_keeps
    | with_reducible apply State.evgServe_keeps
    | with_reducible apply State.evgDiscard_keeps
    | (extract_lets +onlyGivenNames x; refine Keeps.cut x ?_ ?_; dsimp -zeta only [x]; clear x; rotate_left; intro hx; clear_value x; rotate_left)
    | extract_lets +onlyGivenNames x
    | with_reducible apply Keeps.ite
    | with_reducible apply forUp_keeps
    | decide
    | (split; all_goals (try dsimp -zeta only))
    | (dsimp +zetaDelta -zeta only)

theorem State.vectorsClear_keeps {s0 s : State} (h : Keeps s0 s) {x2} :
    Keeps s0 (State.vectorsClear s x2) := by
  unfold State.vectorsClear
  repeat' first
    | with_reducible exact h
    | with_reducible assumption
    | (intro; try dsimp -zeta only)
    | with_reducible apply State.modVec_keeps
    | with_reducible apply State.evgDiscard_keeps
    | (extract_lets +onlyGivenNames x; refine Keeps.cut x ?_ ?_; dsimp -zeta only [x]; clear x; rotate_left; intro hx; clear_value x; rotate_left)
    | extract_lets +onlyGivenNames x
    | with_reducible apply Keeps.ite
    | with_reducible apply forUp_keeps
    | decide
    | (split; all_goals (try dsimp -zeta only))
    | (dsimp +zetaDelta -zeta only)

theorem State.vectorsWarm_keeps {s0 s : State} (h : Keeps s0 s) :
    Keeps s0 (State.vectorsWarm s) := by
  unfold State.vectorsWarm
  repeat' first
    | with_reducible exact h
    | with_reducible assumption
    | (intro; try dsimp -zeta only)
    | with_reducible apply State.modVec_keeps
    | with_reducible apply Keeps.ite
    | with_reducible apply foldl_keeps
    | with_reducible apply foldl_snd_keeps
    | decide
    | (split; all_goals (try dsimp -zeta only))

theorem State.vectorsApply_keeps {s0 s : State} (h : Keeps s0 s) :
    Keeps s0 (State.vectorsApply s) := by
  unfold State.vectorsApply
  repeat' first
    | with_reducible exact h
    | with_reducible assumption
    | (intro; try dsimp -zeta only)
    | with_reducible apply State.modVec_keeps
    | with_reducible apply bump_keeps
    | (extract_lets +onlyGivenNames x; refine Keeps.cut x ?_ ?_; dsimp -zeta only [x]; clear x; rotate_left; intro hx; clear_value x; rotate_left)
    | extract_lets +onlyGivenNames x
    | with_reducible apply Keeps.ite
    | with_reducible apply forUp_keeps
    | decide
    | (split; all_goals (try dsimp -zeta only))
    | (dsimp +zetaDelta -zeta only)

theorem State.evgRetain_keeps {s0 s : State} (h : Keeps s0 s) {x2} :
    Keeps s0 (State.evgRetain s x2) := by
  unfold State.evgRetain
  repeat' first
    | with_reducible exact h
    | with_reducible assumption
    | (intro; try dsimp -zeta only)
    | with_reducible apply setFlag_keeps
    | (extract_lets +onlyGivenNames x; refine Keeps.cut x ?_ ?_; dsimp -zeta only [x]; clear x; rotate_left; intro hx; clear_value x; rotate_left)
    | extract_lets +onlyGivenNames x
    | with_reducible apply Keeps.ite
    | decide
    | (split; all_goals (try dsimp -zeta only))
    | (dsimp +zetaDelta -zeta only)

end Sys2Proof.Machine
end

