-- ==== Sys2Proof/Laws/KeepsClamp.lean ====
section
/-!
SUPPORT. What the operations of Machine/Clamp.lean keep of a state (`Keeps`), one law each.
-/
namespace Sys2Proof.Machine
set_option linter.all false

theorem State.modBank_keeps {s0 s : State} (h : Keeps s0 s) {x2 x3} :
    Keeps s0 (State.modBank s x2 x3) := by
  unfold State.modBank
  repeat' first
    | with_reducible exact h
    | with_reducible assumption
    | (intro; try dsimp -zeta only)
    | with_reducible apply Keeps.ite
    | decide
    | (split; all_goals (try dsimp -zeta only))
    | with_reducible apply banksSet_keeps

theorem State.setEnt_keeps {s0 s : State} (h : Keeps s0 s) {x2 x3 x4} :
    Keeps s0 (State.setEnt s x2 x3 x4) := by
  unfold State.setEnt
  repeat' first
    | with_reducible exact h
    | with_reducible assumption
    | (intro; try dsimp -zeta only)
    | with_reducible apply State.modBank_keeps
    | with_reducible apply Keeps.ite
    | decide
    | (split; all_goals (try dsimp -zeta only))

theorem State.clampSend_keeps {s0 s : State} (h : Keeps s0 s) {x2 x3 x4 x5} :
    Keeps s0 (State.clampSend s x2 x3 x4 x5) := by
  unfold State.clampSend
  repeat' first
    | with_reducible exact h
    | with_reducible assumption
    | (intro; try dsimp -zeta only)
    | with_reducible apply State.send_keeps
    | with_reducible apply State.winDone_keeps
    | (extract_lets +onlyGivenNames x; refine Keeps.cut x ?_ ?_; dsimp -zeta only [x]; clear x; rotate_left; intro hx; clear_value x; rotate_left)
    | extract_lets +onlyGivenNames x
    | with_reducible apply Keeps.ite
    | decide
    | (split; all_goals (try dsimp -zeta only))
    | (dsimp +zetaDelta -zeta only)

theorem State.clampRsp_keeps {s0 s : State} (h : Keeps s0 s) {x2 x3 x4 x5} :
    Keeps s0 (State.clampRsp s x2 x3 x4 x5) := by
  unfold State.clampRsp
  repeat' first
    | with_reducible exact h
    | with_reducible assumption
    | (intro; try dsimp -zeta only)
    | with_reducible apply State.clampSend_keeps
    | with_reducible apply Keeps.ite
    | decide
    | (split; all_goals (try dsimp -zeta only))

theorem State.clampStale_keeps {s0 s : State} (h : Keeps s0 s) {x2 x3} :
    Keeps s0 (State.clampStale s x2 x3) := by
  unfold State.clampStale
  repeat' first
    | with_reducible exact h
    | with_reducible assumption
    | (intro; try dsimp -zeta only)
    | with_reducible apply State.clampRsp_keeps
    | with_reducible apply bump_keeps
    | with_reducible apply Keeps.ite
    | decide
    | (split; all_goals (try dsimp -zeta only))

theorem State.notOwner_keeps {s0 s : State} (h : Keeps s0 s) {x2 x3} :
    Keeps s0 (State.notOwner s x2 x3) := by
  unfold State.notOwner
  repeat' first
    | with_reducible exact h
    | with_reducible assumption
    | (intro; try dsimp -zeta only)
    | with_reducible apply bump_keeps
    | with_reducible apply State.raise_keeps
    | (extract_lets +onlyGivenNames x; refine Keeps.cut x ?_ ?_; dsimp -zeta only [x]; clear x; rotate_left; intro hx; clear_value x; rotate_left)
    | extract_lets +onlyGivenNames x
    | with_reducible apply Keeps.ite
    | decide
    | (split; all_goals (try dsimp -zeta only))
    | (dsimp +zetaDelta -zeta only)

theorem State.clampCheck_keeps {s0 s : State} (h : Keeps s0 s) {l : Nat} {m : Msg} {e : ClampEnt} :
    ∀ r, State.clampCheck s l m e = some r → Keeps s0 r := by
  intro r hr
  unfold State.clampCheck at hr
  extract_lets kindOk s1 r1 at hr
  by_cases c1 : e.st = .free ∨ e.gen ≠ handleGen m ∨ !kindOk
  · rw [if_pos c1] at hr; cases hr; exact State.clampStale_keeps h
  · rw [if_neg c1] at hr
    by_cases c2 : m.ten ≠ e.ten ∧ !(s.ten e.ten).peers.getLsbD m.ten.toNat
    · rw [if_pos c2] at hr
      by_cases c3 : m.op = Op.clampFree
      · rw [if_pos c3] at hr; cases hr; exact State.clampRsp_keeps (State.notOwner_keeps h)
      · rw [if_neg c3] at hr; cases hr; exact State.winDone_keeps (State.send_keeps (State.notOwner_keeps h))
    · rw [if_neg c2] at hr; cases hr

theorem State.grant_keeps {s0 s : State} (h : Keeps s0 s) {x2 x3 x4} :
    Keeps s0 (State.grant s x2 x3 x4) := by
  unfold State.grant
  repeat' first
    | with_reducible exact h
    | with_reducible assumption
    | (intro; try dsimp -zeta only)
    | with_reducible apply State.setEnt_keeps
    | with_reducible apply State.clampSend_keeps
    | with_reducible apply fset_keeps
    | with_reducible apply wrapInc_keeps
    | (extract_lets +onlyGivenNames x; refine Keeps.cut x ?_ ?_; dsimp -zeta only [x]; clear x; rotate_left; intro hx; clear_value x; rotate_left)
    | extract_lets +onlyGivenNames x
    | with_reducible apply Keeps.ite
    | decide
    | (split; all_goals (try dsimp -zeta only))
    | (dsimp +zetaDelta -zeta only)

theorem State.grantAll_keeps {s0 s : State} (h : Keeps s0 s) {l i n : Nat} : Keeps s0 (State.grantAll s l i n) := by
  induction n generalizing s with
  | zero => exact h
  | succ n ih =>
    unfold State.grantAll
    dsimp only
    split
    · exact h
    · exact Keeps.ite (ih (State.grant_keeps h)) h

theorem State.regrant_keeps {s0 s : State} (h : Keeps s0 s) {x2 x3} :
    Keeps s0 (State.regrant s x2 x3) := by
  unfold State.regrant
  repeat' first
    | with_reducible exact h
    | with_reducible assumption
    | (intro; try dsimp -zeta only)
    | with_reducible apply State.grantAll_keeps
    | (extract_lets +onlyGivenNames x; refine Keeps.cut x ?_ ?_; dsimp -zeta only [x]; clear x; rotate_left; intro hx; clear_value x; rotate_left)
    | extract_lets +onlyGivenNames x
    | with_reducible apply Keeps.ite
    | decide
    | (split; all_goals (try dsimp -zeta only))
    | (dsimp +zetaDelta -zeta only)

theorem State.breakWaiters_keeps {s0 s : State} (h : Keeps s0 s) {x2 x3 x4} :
    Keeps s0 (State.breakWaiters s x2 x3 x4) := by
  unfold State.breakWaiters
  repeat' first
    | with_reducible exact h
    | with_reducible assumption
    | (intro; try dsimp -zeta only)
    | with_reducible apply State.clampRsp_keeps
    | with_reducible apply Keeps.ite
    | with_reducible apply foldl_keeps
    | with_reducible apply foldl_snd_keeps
    | decide
    | (split; all_goals (try dsimp -zeta only))

theorem State.breakEnt_keeps {s0 s : State} (h : Keeps s0 s) {x2 x3 x4} :
    Keeps s0 (State.breakEnt s x2 x3 x4) := by
  unfold State.breakEnt
  repeat' first
    | with_reducible exact h
    | with_reducible assumption
    | (intro; try dsimp -zeta only)
    | with_reducible apply State.setEnt_keeps
    | with_reducible apply State.breakWaiters_keeps
    | with_reducible apply bump_keeps
    | (extract_lets +onlyGivenNames x; refine Keeps.cut x ?_ ?_; dsimp -zeta only [x]; clear x; rotate_left; intro hx; clear_value x; rotate_left)
    | extract_lets +onlyGivenNames x
    | with_reducible apply Keeps.ite
    | decide
    | (split; all_goals (try dsimp -zeta only))
    | (dsimp +zetaDelta -zeta only)

theorem State.clampRead_keeps {s0 s : State} (h : Keeps s0 s) {x2 x3} :
    Keeps s0 (State.clampRead s x2 x3) := by
  unfold State.clampRead
  repeat' first
    | with_reducible exact h
    | with_reducible assumption
    | (intro; try dsimp -zeta only)
    | with_reducible apply State.breakEnt_keeps
    | with_reducible apply State.jigRead_keeps
    | with_reducible apply State.deferred_keeps
    | (extract_lets +onlyGivenNames x; refine Keeps.cut x ?_ ?_; dsimp -zeta only [x]; clear x; rotate_left; intro hx; clear_value x; rotate_left)
    | extract_lets +onlyGivenNames x
    | with_reducible apply Keeps.ite
    | decide
    | (split; all_goals (try dsimp -zeta only))
    | with_reducible apply freshSet_keeps
    | (dsimp +zetaDelta -zeta only)

theorem State.freeEnt_keeps {s0 s : State} (h : Keeps s0 s) {x2 x3} :
    Keeps s0 (State.freeEnt s x2 x3) := by
  unfold State.freeEnt
  repeat' first
    | with_reducible exact h
    | with_reducible assumption
    | (intro; try dsimp -zeta only)
    | with_reducible apply State.setEnt_keeps
    | with_reducible apply Keeps.ite
    | decide
    | (split; all_goals (try dsimp -zeta only))

theorem State.clampAlloc_keeps {s0 s : State} (h : Keeps s0 s) {x2 x3} :
    Keeps s0 (State.clampAlloc s x2 x3) := by
  unfold State.clampAlloc
  repeat' first
    | with_reducible exact h
    | with_reducible assumption
    | (intro; try dsimp -zeta only)
    | with_reducible apply State.setEnt_keeps
    | with_reducible apply State.clampSend_keeps
    | with_reducible apply bump_keeps
    | (extract_lets +onlyGivenNames x; refine Keeps.cut x ?_ ?_; dsimp -zeta only [x]; clear x; rotate_left; intro hx; clear_value x; rotate_left)
    | extract_lets +onlyGivenNames x
    | with_reducible apply Keeps.ite
    | decide
    | (split; all_goals (try dsimp -zeta only))
    | (dsimp +zetaDelta -zeta only)

theorem State.clampFreeReq_keeps {s0 s : State} (h : Keeps s0 s) {x2 x3} :
    Keeps s0 (State.clampFreeReq s x2 x3) := by
  unfold State.clampFreeReq
  repeat' first
    | with_reducible exact h
    | with_reducible assumption
    | (intro; try dsimp -zeta only)
    | with_reducible apply State.clampRsp_keeps
    | with_reducible apply State.notOwner_keeps
    | with_reducible apply State.breakWaiters_keeps
    | with_reducible apply State.freeEnt_keeps
    | (extract_lets +onlyGivenNames x; refine Keeps.cut x ?_ ?_; dsimp -zeta only [x]; clear x; rotate_left; intro hx; clear_value x; rotate_left)
    | extract_lets +onlyGivenNames x
    | with_reducible apply Keeps.ite
    | decide
    | (split; all_goals (try dsimp -zeta only))
    | (dsimp +zetaDelta -zeta only)

theorem State.lockAcq_keeps {s0 s : State} (h : Keeps s0 s) {x2 x3} :
    Keeps s0 (State.lockAcq s x2 x3).2 := by
  unfold State.lockAcq
  repeat' first
    | with_reducible exact h
    | with_reducible assumption
    | (intro; try dsimp -zeta only)
    | with_reducible apply State.setEnt_keeps
    | with_reducible apply State.clampRsp_keeps
    | with_reducible apply State.grant_keeps
    | with_reducible apply State.send_keeps
    | with_reducible apply State.winDone_keeps
    | (extract_lets +onlyGivenNames x; refine Keeps.cut x ?_ ?_; dsimp -zeta only [x]; clear x; rotate_left; intro hx; clear_value x; rotate_left)
    | extract_lets +onlyGivenNames x
    | with_reducible apply Keeps.ite
    | decide
    | (split; all_goals (try dsimp -zeta only))
    | (dsimp +zetaDelta -zeta only)

theorem State.lockRel_keeps {s0 s : State} (h : Keeps s0 s) {x2 x3} :
    Keeps s0 (State.lockRel s x2 x3) := by
  unfold State.lockRel
  repeat' first
    | with_reducible exact h
    | with_reducible assumption
    | (intro; try dsimp -zeta only)
    | with_reducible apply State.setEnt_keeps
    | with_reducible apply State.clampRsp_keeps
    | with_reducible apply State.notOwner_keeps
    | with_reducible apply State.regrant_keeps
    | (extract_lets +onlyGivenNames x; refine Keeps.cut x ?_ ?_; dsimp -zeta only [x]; clear x; rotate_left; intro hx; clear_value x; rotate_left)
    | extract_lets +onlyGivenNames x
    | with_reducible apply Keeps.ite
    | decide
    | (split; all_goals (try dsimp -zeta only))
    | (dsimp +zetaDelta -zeta only)

theorem State.barrierArrive_keeps {s0 s : State} (h : Keeps s0 s) {x2 x3} :
    Keeps s0 (State.barrierArrive s x2 x3) := by
  unfold State.barrierArrive
  repeat' first
    | with_reducible exact h
    | with_reducible assumption
    | (intro; try dsimp -zeta only)
    | with_reducible apply State.setEnt_keeps
    | with_reducible apply State.clampSend_keeps
    | with_reducible apply State.clampRsp_keeps
    | with_reducible apply State.breakEnt_keeps
    | with_reducible apply wrapInc_keeps
    | (extract_lets +onlyGivenNames x; refine Keeps.cut x ?_ ?_; dsimp -zeta only [x]; clear x; rotate_left; intro hx; clear_value x; rotate_left)
    | extract_lets +onlyGivenNames x
    | with_reducible apply Keeps.ite
    | with_reducible apply foldl_keeps
    | with_reducible apply foldl_snd_keeps
    | decide
    | (split; all_goals (try dsimp -zeta only))
    | (dsimp +zetaDelta -zeta only)

theorem State.clampSetPrio_keeps {s0 s : State} (h : Keeps s0 s) {x2 x3} :
    Keeps s0 (State.clampSetPrio s x2 x3) := by
  unfold State.clampSetPrio
  repeat' first
    | with_reducible exact h
    | with_reducible assumption
    | (intro; try dsimp -zeta only)
    | with_reducible apply State.setEnt_keeps
    | with_reducible apply State.clampRsp_keeps
    | (extract_lets +onlyGivenNames x; refine Keeps.cut x ?_ ?_; dsimp -zeta only [x]; clear x; rotate_left; intro hx; clear_value x; rotate_left)
    | extract_lets +onlyGivenNames x
    | with_reducible apply Keeps.ite
    | decide
    | (split; all_goals (try dsimp -zeta only))
    | (dsimp +zetaDelta -zeta only)

theorem State.clampAt_keeps {s0 s : State} (h : Keeps s0 s) {l : Nat} {m : Msg} : Keeps s0 (State.clampAt s l m).2 := by
  unfold State.clampAt
  extract_lets s1
  have h1 : Keeps s0 s1 := Keeps.ite h (State.clampRead_keeps h)
  clear_value s1
  split
  · exact State.clampAlloc_keeps h1
  · split
    · exact State.clampStale_keeps h1
    · split
      · rename_i hc
        exact State.clampCheck_keeps h1 _ hc
      · split
        · exact State.clampFreeReq_keeps h1
        · exact State.lockAcq_keeps h1
        · exact State.lockRel_keeps h1
        · exact State.barrierArrive_keeps h1
        · exact State.clampSetPrio_keeps h1

theorem State.clampRetry_keeps {s0 s : State} (h : Keeps s0 s) {x2} :
    Keeps s0 (State.clampRetry s x2) := by
  unfold State.clampRetry
  repeat' first
    | with_reducible exact h
    | with_reducible assumption
    | (intro; try dsimp -zeta only)
    | with_reducible apply State.modBank_keeps
    | with_reducible apply State.clampAt_keeps
    | (extract_lets +onlyGivenNames x; refine Keeps.cut x ?_ ?_; dsimp -zeta only [x]; clear x; rotate_left; intro hx; clear_value x; rotate_left)
    | extract_lets +onlyGivenNames x
    | with_reducible apply Keeps.ite
    | decide
    | (split; all_goals (try dsimp -zeta only))
    | (dsimp +zetaDelta -zeta only)

theorem State.forEnts_keeps {s0 s : State} (h : Keeps s0 s) {x2 f3} (h3 : ∀ y0 y1 y2, Keeps s0 y2 → Keeps s0 (f3 y0 y1 y2)) :
    Keeps s0 (State.forEnts s x2 f3) := by
  unfold State.forEnts
  repeat' first
    | with_reducible exact h
    | with_reducible assumption
    | (intro; try dsimp -zeta only)
    | apply h3
    | with_reducible apply Keeps.ite
    | with_reducible apply foldl_keeps
    | with_reducible apply foldl_snd_keeps
    | decide
    | (split; all_goals (try dsimp -zeta only))

theorem State.clampRevoke_keeps {s0 s : State} (h : Keeps s0 s) {x2 x3} :
    Keeps s0 (State.clampRevoke s x2 x3) := by
  unfold State.clampRevoke
  repeat' first
    | with_reducible exact h
    | with_reducible assumption
    | (intro; try dsimp -zeta only)
    | with_reducible apply State.modBank_keeps
    | with_reducible apply State.setEnt_keeps
    | with_reducible apply State.breakWaiters_keeps
    | with_reducible apply State.breakEnt_keeps
    | with_reducible apply State.freeEnt_keeps
    | with_reducible apply State.forEnts_keeps
    | (extract_lets +onlyGivenNames x; refine Keeps.cut x ?_ ?_; dsimp -zeta only [x]; clear x; rotate_left; intro hx; clear_value x; rotate_left)
    | extract_lets +onlyGivenNames x
    | with_reducible apply Keeps.ite
    | decide
    | (split; all_goals (try dsimp -zeta only))
    | (dsimp +zetaDelta -zeta only)

theorem State.clampQuiesce_keeps {s0 s : State} (h : Keeps s0 s) {x2 x3 x4 x5} :
    Keeps s0 (State.clampQuiesce s x2 x3 x4 x5) := by
  unfold State.clampQuiesce
  repeat' first
    | with_reducible exact h
    | with_reducible assumption
    | (intro; try dsimp -zeta only)
    | with_reducible apply State.modBank_keeps
    | with_reducible apply State.setEnt_keeps
    | with_reducible apply State.forEnts_keeps
    | with_reducible apply State.send_keeps
    | with_reducible apply State.winUnexecuted_keeps
    | (extract_lets +onlyGivenNames x; refine Keeps.cut x ?_ ?_; dsimp -zeta only [x]; clear x; rotate_left; intro hx; clear_value x; rotate_left)
    | extract_lets +onlyGivenNames x
    | with_reducible apply Keeps.ite
    | with_reducible apply foldl_keeps
    | with_reducible apply foldl_snd_keeps
    | decide
    | (split; all_goals (try dsimp -zeta only))
    | (dsimp +zetaDelta -zeta only)

theorem State.clampDrop_keeps {s0 s : State} (h : Keeps s0 s) {x2} :
    Keeps s0 (State.clampDrop s x2) := by
  unfold State.clampDrop
  repeat' first
    | with_reducible exact h
    | with_reducible assumption
    | (intro; try dsimp -zeta only)
    | with_reducible apply State.modBank_keeps
    | with_reducible apply State.setEnt_keeps
    | with_reducible apply State.forEnts_keeps
    | extract_lets +onlyGivenNames x
    | (dsimp +zetaDelta -zeta only)

theorem State.clampLost_keeps {s0 s : State} (h : Keeps s0 s) {x2} :
    Keeps s0 (State.clampLost s x2) := by
  unfold State.clampLost
  repeat' first
    | with_reducible exact h
    | with_reducible assumption
    | (intro; try dsimp -zeta only)
    | with_reducible apply State.modBank_keeps
    | with_reducible apply State.setEnt_keeps
    | with_reducible apply State.forEnts_keeps
    | with_reducible apply bump_keeps
    | (extract_lets +onlyGivenNames x; refine Keeps.cut x ?_ ?_; dsimp -zeta only [x]; clear x; rotate_left; intro hx; clear_value x; rotate_left)
    | extract_lets +onlyGivenNames x
    | with_reducible apply Keeps.ite
    | decide
    | (split; all_goals (try dsimp -zeta only))
    | (dsimp +zetaDelta -zeta only)

theorem State.clampClear_keeps {s0 s : State} (h : Keeps s0 s) {x2} :
    Keeps s0 (State.clampClear s x2) := by
  unfold State.clampClear
  repeat' first
    | with_reducible exact h
    | with_reducible assumption
    | (intro; try dsimp -zeta only)
    | with_reducible apply State.modBank_keeps
    | with_reducible apply State.freeEnt_keeps
    | with_reducible apply State.forEnts_keeps
    | (extract_lets +onlyGivenNames x; refine Keeps.cut x ?_ ?_; dsimp -zeta only [x]; clear x; rotate_left; intro hx; clear_value x; rotate_left)
    | extract_lets +onlyGivenNames x
    | with_reducible apply Keeps.ite
    | decide
    | (split; all_goals (try dsimp -zeta only))
    | (dsimp +zetaDelta -zeta only)

end Sys2Proof.Machine
end

