-- ==== Sys2Proof/Laws/KeepsRequests.lean ====
section
/-!
SUPPORT. What the operations of Machine/Requests.lean keep of a state (`Keeps`), one law each.
-/
namespace Sys2Proof.Machine
set_option linter.all false

theorem State.flushEntry_keeps {s0 s : State} (h : Keeps s0 s) {p e : Nat} {f : Option Fld}
    (hf : f.all Fld.plain = true) : Keeps s0 (State.flushEntry s p e f) := by
  unfold State.flushEntry
  split
  · exact h
  · dsimp only
    refine foldl_keeps ?_ (fun u a hu => State.shedOrWait_keeps hu)
    split
    · exact bump_keeps (modPort_keeps h) hf
    · exact modPort_keeps h

theorem State.flushWhere_keeps {s0 s : State} (h : Keeps s0 s) {x2 x3 x4} (hf : Option.all Fld.plain x4 = true) :
    Keeps s0 (State.flushWhere s x2 x3 x4) := by
  unfold State.flushWhere
  repeat' first
    | with_reducible exact h
    | with_reducible assumption
    | (intro; try dsimp -zeta only)
    | with_reducible apply State.flushEntry_keeps
    | with_reducible apply Keeps.ite
    | with_reducible apply foldl_keeps
    | with_reducible apply foldl_snd_keeps
    | decide
    | (split; all_goals (try dsimp -zeta only))

theorem State.flushEverywhere_keeps {s0 s : State} (h : Keeps s0 s) {x2 x3} (hf : Option.all Fld.plain x3 = true) :
    Keeps s0 (State.flushEverywhere s x2 x3) := by
  unfold State.flushEverywhere
  repeat' first
    | with_reducible exact h
    | with_reducible assumption
    | (intro; try dsimp -zeta only)
    | with_reducible apply State.flushWhere_keeps
    | with_reducible apply Keeps.ite
    | with_reducible apply forUp_keeps
    | decide
    | (split; all_goals (try dsimp -zeta only))

theorem State.touchFlush_keeps {s0 s : State} (h : Keeps s0 s) {x2 x3} :
    Keeps s0 (State.touchFlush s x2 x3) := by
  unfold State.touchFlush
  repeat' first
    | with_reducible exact h
    | with_reducible assumption
    | (intro; try dsimp -zeta only)
    | with_reducible apply State.flushEverywhere_keeps
    | (extract_lets +onlyGivenNames x; refine Keeps.cut x ?_ ?_; dsimp -zeta only [x]; clear x; rotate_left; intro hx; clear_value x; rotate_left)
    | extract_lets +onlyGivenNames x
    | with_reducible apply Keeps.ite
    | decide
    | (split; all_goals (try dsimp -zeta only))
    | (dsimp +zetaDelta -zeta only)

theorem State.compDone_keeps {s0 s : State} (h : Keeps s0 s) {x2 x3} :
    Keeps s0 (State.compDone s x2 x3) := by
  unfold State.compDone
  repeat' first
    | with_reducible exact h
    | with_reducible assumption
    | (intro; try dsimp -zeta only)
    | with_reducible apply State.send_keeps
    | with_reducible apply State.winDone_keeps
    | (extract_lets +onlyGivenNames x; refine Keeps.cut x ?_ ?_; dsimp -zeta only [x]; clear x; rotate_left; intro hx; clear_value x; rotate_left)
    | extract_lets +onlyGivenNames x
    | with_reducible apply Keeps.ite
    | decide
    | (split; all_goals (try dsimp -zeta only))
    | (dsimp +zetaDelta -zeta only)

theorem State.runPosted_keeps {s0 s : State} (h : Keeps s0 s) {x2 x3 x4} :
    Keeps s0 (State.runPosted s x2 x3 x4).2 := by
  unfold State.runPosted
  repeat' first
    | with_reducible exact h
    | with_reducible assumption
    | (intro; try dsimp -zeta only)
    | with_reducible apply fset_keeps
    | with_reducible apply modPort_keeps
    | with_reducible apply State.compDone_keeps
    | with_reducible apply State.shedOrWait_keeps
    | with_reducible apply State.winOpen_keeps
    | (extract_lets +onlyGivenNames x; refine Keeps.cut x ?_ ?_; dsimp -zeta only [x]; clear x; rotate_left; intro hx; clear_value x; rotate_left)
    | extract_lets +onlyGivenNames x
    | with_reducible apply Keeps.ite
    | decide
    | (split; all_goals (try dsimp -zeta only))
    | with_reducible apply wnoSet_keeps
    | (dsimp +zetaDelta -zeta only)

theorem State.runNT_keeps {s0 s : State} (h : Keeps s0 s) {x2 x3 x4} :
    Keeps s0 (State.runNT s x2 x3 x4).2 := by
  unfold State.runNT
  repeat' first
    | with_reducible exact h
    | with_reducible assumption
    | (intro; try dsimp -zeta only)
    | with_reducible apply fset_keeps
    | with_reducible apply modPort_keeps
    | with_reducible apply State.flushEntry_keeps
    | with_reducible apply State.compDone_keeps
    | with_reducible apply State.winOpen_keeps
    | (extract_lets +onlyGivenNames x; refine Keeps.cut x ?_ ?_; dsimp -zeta only [x]; clear x; rotate_left; intro hx; clear_value x; rotate_left)
    | extract_lets +onlyGivenNames x
    | with_reducible apply Keeps.ite
    | decide
    | (split; all_goals (try dsimp -zeta only))
    | with_reducible apply wnoSet_keeps
    | (dsimp +zetaDelta -zeta only)

theorem State.runFenceW_keeps {s0 s : State} (h : Keeps s0 s) {x2 x3} :
    Keeps s0 (State.runFenceW s x2 x3) := by
  unfold State.runFenceW
  repeat' first
    | with_reducible exact h
    | with_reducible assumption
    | (intro; try dsimp -zeta only)
    | with_reducible apply State.flushEverywhere_keeps
    | with_reducible apply State.compDone_keeps
    | with_reducible apply State.winOpen_keeps
    | (extract_lets +onlyGivenNames x; refine Keeps.cut x ?_ ?_; dsimp -zeta only [x]; clear x; rotate_left; intro hx; clear_value x; rotate_left)
    | extract_lets +onlyGivenNames x
    | with_reducible apply Keeps.ite
    | decide
    | (split; all_goals (try dsimp -zeta only))
    | with_reducible apply barriersSet_keeps
    | (dsimp +zetaDelta -zeta only)

theorem State.runFenceFull_keeps {s0 s : State} (h : Keeps s0 s) {x2 x3 x4} :
    Keeps s0 (State.runFenceFull s x2 x3 x4) := by
  unfold State.runFenceFull
  repeat' first
    | with_reducible exact h
    | with_reducible assumption
    | (intro; try dsimp -zeta only)
    | with_reducible apply modPort_keeps
    | with_reducible apply State.flushEverywhere_keeps
    | with_reducible apply State.compDone_keeps
    | with_reducible apply State.winOpen_keeps
    | (extract_lets +onlyGivenNames x; refine Keeps.cut x ?_ ?_; dsimp -zeta only [x]; clear x; rotate_left; intro hx; clear_value x; rotate_left)
    | extract_lets +onlyGivenNames x
    | with_reducible apply Keeps.ite
    | decide
    | (split; all_goals (try dsimp -zeta only))
    | (dsimp +zetaDelta -zeta only)

theorem State.fenceFullEnd_keeps {s0 s : State} (h : Keeps s0 s) {x2 x3} :
    Keeps s0 (State.fenceFullEnd s x2 x3) := by
  unfold State.fenceFullEnd
  repeat' first
    | with_reducible exact h
    | with_reducible assumption
    | (intro; try dsimp -zeta only)
    | with_reducible apply modPort_keeps
    | with_reducible apply State.compDone_keeps
    | with_reducible apply Keeps.ite
    | decide
    | (split; all_goals (try dsimp -zeta only))

theorem State.postedCommit_keeps {s0 s : State} (h : Keeps s0 s) {x2 x3} :
    Keeps s0 (State.postedCommit s x2 x3) := by
  unfold State.postedCommit
  repeat' first
    | with_reducible exact h
    | with_reducible assumption
    | (intro; try dsimp -zeta only)
    | with_reducible apply State.recordAndEnd_keeps
    | (extract_lets +onlyGivenNames x; refine Keeps.cut x ?_ ?_; dsimp -zeta only [x]; clear x; rotate_left; intro hx; clear_value x; rotate_left)
    | extract_lets +onlyGivenNames x
    | with_reducible apply Keeps.ite
    | decide
    | (split; all_goals (try dsimp -zeta only))
    | (dsimp +zetaDelta -zeta only)

theorem State.cwbTimeout_keeps {s0 s : State} (h : Keeps s0 s) {x2 x3} :
    Keeps s0 (State.cwbTimeout s x2 x3) := by
  unfold State.cwbTimeout
  repeat' first
    | with_reducible exact h
    | with_reducible assumption
    | (intro; try dsimp -zeta only)
    | with_reducible apply until_keeps
    | with_reducible apply State.flushEntry_keeps
    | with_reducible apply Keeps.ite
    | decide
    | (split; all_goals (try dsimp -zeta only))

theorem State.modGather_keeps {s0 s : State} (h : Keeps s0 s) {x2 x3 x4} :
    Keeps s0 (State.modGather s x2 x3 x4) := by
  unfold State.modGather
  repeat' first
    | with_reducible exact h
    | with_reducible assumption
    | (intro; try dsimp -zeta only)
    | with_reducible apply modSlice_keeps
    | with_reducible apply Keeps.ite
    | decide
    | (split; all_goals (try dsimp -zeta only))

theorem State.elemFault_keeps {s0 s : State} (h : Keeps s0 s) {x2 x3 x4 x5 x6} :
    Keeps s0 (State.elemFault s x2 x3 x4 x5 x6) := by
  unfold State.elemFault
  repeat' first
    | with_reducible exact h
    | with_reducible assumption
    | (intro; try dsimp -zeta only)
    | with_reducible apply State.accessRecord_keeps
    | with_reducible apply State.modGather_keeps
    | (extract_lets +onlyGivenNames x; refine Keeps.cut x ?_ ?_; dsimp -zeta only [x]; clear x; rotate_left; intro hx; clear_value x; rotate_left)
    | extract_lets +onlyGivenNames x
    | with_reducible apply Keeps.ite
    | decide
    | (split; all_goals (try dsimp -zeta only))
    | (dsimp +zetaDelta -zeta only)

theorem State.elemGo_keeps {s0 s : State} (h : Keeps s0 s) {x2 x3 x4 x5 x6} :
    Keeps s0 (State.elemGo s x2 x3 x4 x5 x6) := by
  unfold State.elemGo
  repeat' first
    | with_reducible exact h
    | with_reducible assumption
    | (intro; try dsimp -zeta only)
    | with_reducible apply State.shedOrWait_keeps
    | (extract_lets +onlyGivenNames x; refine Keeps.cut x ?_ ?_; dsimp -zeta only [x]; clear x; rotate_left; intro hx; clear_value x; rotate_left)
    | extract_lets +onlyGivenNames x
    | with_reducible apply Keeps.ite
    | decide
    | (split; all_goals (try dsimp -zeta only))
    | (dsimp +zetaDelta -zeta only)

theorem State.gatherStep_keeps {s0 s : State} (h : Keeps s0 s) {x2 x3} :
    Keeps s0 (State.gatherStep s x2 x3) := by
  unfold State.gatherStep
  repeat' first
    | with_reducible exact h
    | with_reducible assumption
    | (intro; try dsimp -zeta only)
    | with_reducible apply State.react_keeps
    | with_reducible apply State.modGather_keeps
    | with_reducible apply State.elemFault_keeps
    | with_reducible apply State.elemGo_keeps
    | (extract_lets +onlyGivenNames x; refine Keeps.cut x ?_ ?_; dsimp -zeta only [x]; clear x; rotate_left; intro hx; clear_value x; rotate_left)
    | extract_lets +onlyGivenNames x
    | with_reducible apply Keeps.ite
    | with_reducible apply forUp_keeps
    | decide
    | (split; all_goals (try dsimp -zeta only))
    | (dsimp +zetaDelta -zeta only)

theorem State.runGather_keeps {s0 s : State} (h : Keeps s0 s) {x2 x3 x4 x5} :
    Keeps s0 (State.runGather s x2 x3 x4 x5) := by
  unfold State.runGather
  repeat' first
    | with_reducible exact h
    | with_reducible assumption
    | (intro; try dsimp -zeta only)
    | with_reducible apply modSlice_keeps
    | with_reducible apply State.elemFault_keeps
    | with_reducible apply State.elemGo_keeps
    | with_reducible apply State.gatherStep_keeps
    | with_reducible apply State.winOpen_keeps
    | (extract_lets +onlyGivenNames x; refine Keeps.cut x ?_ ?_; dsimp -zeta only [x]; clear x; rotate_left; intro hx; clear_value x; rotate_left)
    | extract_lets +onlyGivenNames x
    | with_reducible apply Keeps.ite
    | with_reducible apply forUp_keeps
    | decide
    | (split; all_goals (try dsimp -zeta only))
    | (dsimp +zetaDelta -zeta only)

theorem State.gatherEnd_keeps {s0 s : State} (h : Keeps s0 s) {x2 x3} :
    Keeps s0 (State.gatherEnd s x2 x3) := by
  unfold State.gatherEnd
  repeat' first
    | with_reducible exact h
    | with_reducible assumption
    | (intro; try dsimp -zeta only)
    | with_reducible apply State.send_keeps
    | with_reducible apply bumpBy_keeps
    | with_reducible apply modSlice_keeps
    | with_reducible apply State.winDone_keeps
    | (extract_lets +onlyGivenNames x; refine Keeps.cut x ?_ ?_; dsimp -zeta only [x]; clear x; rotate_left; intro hx; clear_value x; rotate_left)
    | extract_lets +onlyGivenNames x
    | with_reducible apply Keeps.ite
    | with_reducible apply foldl_keeps
    | with_reducible apply foldl_snd_keeps
    | decide
    | (split; all_goals (try dsimp -zeta only))
    | (dsimp +zetaDelta -zeta only)

theorem State.noteCalm_keeps {s0 s : State} (h : Keeps s0 s) {x2 x3} :
    Keeps s0 (State.noteCalm s x2 x3) := by
  unfold State.noteCalm
  repeat' first
    | with_reducible exact h
    | with_reducible assumption
    | (intro; try dsimp -zeta only)
    | with_reducible apply modSlice_keeps
    | with_reducible apply Keeps.ite
    | decide
    | (split; all_goals (try dsimp -zeta only))

theorem State.reqRun_keeps {s0 s : State} (h : Keeps s0 s) {x2 x3 x4} :
    Keeps s0 (State.reqRun s x2 x3 x4).2 := by
  unfold State.reqRun
  repeat' first
    | with_reducible exact h
    | with_reducible assumption
    | (intro; try dsimp -zeta only)
    | with_reducible apply State.modBank_keeps
    | with_reducible apply State.clampAt_keeps
    | with_reducible apply State.takeCondWr_keeps
    | with_reducible apply State.runPosted_keeps
    | with_reducible apply State.runNT_keeps
    | with_reducible apply State.runFenceW_keeps
    | with_reducible apply State.runFenceFull_keeps
    | with_reducible apply State.runGather_keeps
    | with_reducible apply State.wakeSlice_keeps
    | with_reducible apply State.shed_keeps
    | with_reducible apply State.winOpen_keeps
    | (extract_lets +onlyGivenNames x; refine Keeps.cut x ?_ ?_; dsimp -zeta only [x]; clear x; rotate_left; intro hx; clear_value x; rotate_left)
    | extract_lets +onlyGivenNames x
    | with_reducible apply Keeps.ite
    | decide
    | (split; all_goals (try dsimp -zeta only))
    | (dsimp +zetaDelta -zeta only)

theorem State.reqGo_keeps {s0 s : State} (h : Keeps s0 s) {x : Txn} : Keeps s0 (State.reqGo s x).2 := by
  unfold State.reqGo
  extract_lets m k a s1 l
  have ha : Keeps s0 a := State.touchFlush_keeps h
  clear_value a
  split
  · exact ha
  · split
    · exact State.wakeSlice_keeps ha
    · have h1 : Keeps s0 s1 := State.noteCalm_keeps ha
      clear_value s1
      split
      · exact h1
      · have hr : Keeps s0 (s1.reqRun k l x).2 := State.reqRun_keeps h1
        split
        · exact Keeps.ite (bump_keeps hr (by decide)) hr
        · exact hr
      · cases hw : s1.winAnswer l m _ with
        | none => exact h1
        | some r => exact State.winAnswer_keeps h1 r hw

theorem State.request_keeps {s0 s : State} (h : Keeps s0 s) {x2 x3} :
    Keeps s0 (State.request s x2 x3) := by
  unfold State.request
  repeat' first
    | with_reducible exact h
    | with_reducible assumption
    | (intro; try dsimp -zeta only)
    | with_reducible apply State.send_keeps
    | with_reducible apply wrapInc_keeps
    | with_reducible apply State.reqGo_keeps
    | with_reducible apply State.wait_keeps
    | (extract_lets +onlyGivenNames x; refine Keeps.cut x ?_ ?_; dsimp -zeta only [x]; clear x; rotate_left; intro hx; clear_value x; rotate_left)
    | extract_lets +onlyGivenNames x
    | with_reducible apply Keeps.ite
    | decide
    | (split; all_goals (try dsimp -zeta only))
    | (dsimp +zetaDelta -zeta only)

theorem State.dropIngress_keeps {s0 s : State} (h : Keeps s0 s) {x2 x3} :
    Keeps s0 (State.dropIngress s x2 x3) := by
  unfold State.dropIngress
  repeat' first
    | with_reducible exact h
    | with_reducible assumption
    | (intro; try dsimp -zeta only)
    | with_reducible apply modSlice_keeps
    | with_reducible apply Keeps.ite
    | decide
    | (split; all_goals (try dsimp -zeta only))

theorem State.retryInternal_keeps {s0 s : State} (h : Keeps s0 s) {x2 x3} :
    Keeps s0 (State.retryInternal s x2 x3) := by
  unfold State.retryInternal
  repeat' first
    | with_reducible exact h
    | with_reducible assumption
    | (intro; try dsimp -zeta only)
    | with_reducible apply State.dropIngress_keeps
    | with_reducible apply State.wakeSlice_keeps
    | with_reducible apply State.shed_keeps
    | (extract_lets +onlyGivenNames x; refine Keeps.cut x ?_ ?_; dsimp -zeta only [x]; clear x; rotate_left; intro hx; clear_value x; rotate_left)
    | extract_lets +onlyGivenNames x
    | with_reducible apply Keeps.ite
    | decide
    | (split; all_goals (try dsimp -zeta only))
    | (dsimp +zetaDelta -zeta only)

theorem State.retryClient_keeps {s0 s : State} (h : Keeps s0 s) {x2 x3} :
    Keeps s0 (State.retryClient s x2 x3) := by
  unfold State.retryClient
  repeat' first
    | with_reducible exact h
    | with_reducible assumption
    | (intro; try dsimp -zeta only)
    | with_reducible apply State.reqGo_keeps
    | with_reducible apply State.dropIngress_keeps
    | with_reducible apply State.wakeSlice_keeps
    | with_reducible apply State.shed_keeps
    | (extract_lets +onlyGivenNames x; refine Keeps.cut x ?_ ?_; dsimp -zeta only [x]; clear x; rotate_left; intro hx; clear_value x; rotate_left)
    | extract_lets +onlyGivenNames x
    | with_reducible apply Keeps.ite
    | decide
    | (split; all_goals (try dsimp -zeta only))
    | (dsimp +zetaDelta -zeta only)

theorem State.ingressRetry_keeps {s0 s : State} (h : Keeps s0 s) {x2 x3} :
    Keeps s0 (State.ingressRetry s x2 x3) := by
  unfold State.ingressRetry
  repeat' first
    | with_reducible exact h
    | with_reducible assumption
    | (intro; try dsimp -zeta only)
    | with_reducible apply State.retryInternal_keeps
    | with_reducible apply State.retryClient_keeps
    | with_reducible apply Keeps.ite
    | decide
    | (split; all_goals (try dsimp -zeta only))

theorem State.ingressAll_keeps {s0 s : State} (h : Keeps s0 s) {x2} :
    Keeps s0 (State.ingressAll s x2) := by
  unfold State.ingressAll
  repeat' first
    | with_reducible exact h
    | with_reducible assumption
    | (intro; try dsimp -zeta only)
    | with_reducible apply State.ingressRetry_keeps
    | with_reducible apply Keeps.ite
    | with_reducible apply foldl_keeps
    | with_reducible apply foldl_snd_keeps
    | decide
    | (split; all_goals (try dsimp -zeta only))

theorem State.receive_keeps {s0 s : State} (h : Keeps s0 s) {x2 x3 f4} (h4 : ∀ y0, Keeps s0 y0 → Keeps s0 (f4 y0)) :
    Keeps s0 (State.receive s x2 x3 f4) := by
  unfold State.receive
  repeat' first
    | with_reducible exact h
    | with_reducible assumption
    | (intro; try dsimp -zeta only)
    | apply h4
    | with_reducible apply State.applyVerdict_keeps
    | with_reducible apply State.present_keeps
    | with_reducible apply State.consume_keeps
    | (extract_lets +onlyGivenNames x; refine Keeps.cut x ?_ ?_; dsimp -zeta only [x]; clear x; rotate_left; intro hx; clear_value x; rotate_left)
    | extract_lets +onlyGivenNames x
    | with_reducible apply Keeps.ite
    | decide
    | (split; all_goals (try dsimp -zeta only))
    | (dsimp +zetaDelta -zeta only)

end Sys2Proof.Machine
end

