-- ==== Sys2Proof/Laws/KeepsSpares.lean ====
section
/-!
SUPPORT. What the operations of Machine/Spares.lean keep of a state (`Keeps`), one law each.
-/
namespace Sys2Proof.Machine
set_option linter.all false

theorem State.setRole_keeps {s0 s : State} (h : Keeps s0 s) {x2 x3} :
    Keeps s0 (State.setRole s x2 x3) := by
  unfold State.setRole
  repeat' first
    | with_reducible exact h
    | with_reducible assumption
    | (intro; try dsimp -zeta only)
    | with_reducible apply Keeps.ite
    | decide
    | (split; all_goals (try dsimp -zeta only))
    | with_reducible apply rolesSet_keeps

theorem State.unpredict_keeps {s0 s : State} (h : Keeps s0 s) {x2} :
    Keeps s0 (State.unpredict s x2) := by
  unfold State.unpredict
  repeat' first
    | with_reducible exact h
    | with_reducible assumption
    | (intro; try dsimp -zeta only)
    | with_reducible apply fset_keeps
    | (extract_lets +onlyGivenNames x; refine Keeps.cut x ?_ ?_; dsimp -zeta only [x]; clear x; rotate_left; intro hx; clear_value x; rotate_left)
    | extract_lets +onlyGivenNames x
    | with_reducible apply Keeps.ite
    | decide
    | (split; all_goals (try dsimp -zeta only))
    | with_reducible apply predQSet_keeps
    | (dsimp +zetaDelta -zeta only)

theorem State.predict_keeps {s0 s : State} (h : Keeps s0 s) {x2} :
    Keeps s0 (State.predict s x2) := by
  unfold State.predict
  repeat' first
    | with_reducible exact h
    | with_reducible assumption
    | (intro; try dsimp -zeta only)
    | with_reducible apply fset_keeps
    | with_reducible apply setFlag_keeps
    | with_reducible apply State.raise_keeps
    | (extract_lets +onlyGivenNames x; refine Keeps.cut x ?_ ?_; dsimp -zeta only [x]; clear x; rotate_left; intro hx; clear_value x; rotate_left)
    | extract_lets +onlyGivenNames x
    | with_reducible apply Keeps.ite
    | decide
    | (split; all_goals (try dsimp -zeta only))
    | with_reducible apply predQSet_keeps
    | (dsimp +zetaDelta -zeta only)

theorem State.replaceRequest_keeps {s0 s : State} (h : Keeps s0 s) :
    Keeps s0 (State.replaceRequest s) := by
  unfold State.replaceRequest
  repeat' first
    | with_reducible exact h
    | with_reducible assumption
    | (intro; try dsimp -zeta only)
    | with_reducible apply State.send_keeps
    | (extract_lets +onlyGivenNames x; refine Keeps.cut x ?_ ?_; dsimp -zeta only [x]; clear x; rotate_left; intro hx; clear_value x; rotate_left)
    | extract_lets +onlyGivenNames x
    | with_reducible apply Keeps.ite
    | decide
    | (split; all_goals (try dsimp -zeta only))
    | with_reducible apply replaceNoreplaceAtSet_keeps
    | (dsimp +zetaDelta -zeta only)

theorem State.degCheck_keeps {s0 s : State} (h : Keeps s0 s) :
    Keeps s0 (State.degCheck s) := by
  unfold State.degCheck
  repeat' first
    | with_reducible exact h
    | with_reducible assumption
    | (intro; try dsimp -zeta only)
    | with_reducible apply fset_keeps
    | with_reducible apply setFlag_keeps
    | with_reducible apply State.raise_keeps
    | with_reducible apply State.replaceRequest_keeps
    | (extract_lets +onlyGivenNames x; refine Keeps.cut x ?_ ?_; dsimp -zeta only [x]; clear x; rotate_left; intro hx; clear_value x; rotate_left)
    | extract_lets +onlyGivenNames x
    | with_reducible apply Keeps.ite
    | decide
    | (split; all_goals (try dsimp -zeta only))
    | (dsimp +zetaDelta -zeta only)

theorem State.evaluate_keeps {s0 s : State} (h : Keeps s0 s) :
    Keeps s0 (State.evaluate s) := by
  unfold State.evaluate
  repeat' first
    | with_reducible exact h
    | with_reducible assumption
    | (intro; try dsimp -zeta only)
    | with_reducible apply State.predict_keeps
    | with_reducible apply State.degCheck_keeps
    | with_reducible apply Keeps.ite
    | with_reducible apply forUp_keeps
    | decide
    | (split; all_goals (try dsimp -zeta only))

theorem State.replacePeriodic_keeps {s0 s : State} (h : Keeps s0 s) :
    Keeps s0 (State.replacePeriodic s) := by
  unfold State.replacePeriodic
  repeat' first
    | with_reducible exact h
    | with_reducible assumption
    | (intro; try dsimp -zeta only)
    | with_reducible apply until_keeps
    | with_reducible apply State.replaceRequest_keeps
    | with_reducible apply Keeps.ite
    | decide
    | (split; all_goals (try dsimp -zeta only))

theorem State.moveCounters_keeps {s0 s : State} (h : Keeps s0 s) {a b : Nat} : Keeps s0 (State.moveCounters s a b) := by
  have hl : ∀ (l : List Fld), (∀ f ∈ l, f.plain = true) → ∀ u, Keeps s0 u →
      Keeps s0 (l.foldl (fun (s : State) f => (s.fset f (s.fget f a) b).fset f 0 a) u) := by
    intro l
    induction l with
    | nil => exact fun _ u hu => hu
    | cons f l ih =>
      intro hf u hu
      have hp := hf f List.mem_cons_self
      exact ih (fun g hg => hf g (List.mem_cons_of_mem _ hg)) _ (fset_keeps (fset_keeps hu hp) hp)
  exact hl _ (by decide) s h

theorem State.jigSliceGone_keeps {s0 s : State} (h : Keeps s0 s) {x2} :
    Keeps s0 (State.jigSliceGone s x2) := by
  unfold State.jigSliceGone
  repeat' first
    | with_reducible exact h
    | with_reducible assumption
    | (intro; try dsimp -zeta only)
    | with_reducible apply State.jigDisarm_keeps
    | (extract_lets +onlyGivenNames x; refine Keeps.cut x ?_ ?_; dsimp -zeta only [x]; clear x; rotate_left; intro hx; clear_value x; rotate_left)
    | extract_lets +onlyGivenNames x
    | with_reducible apply Keeps.ite
    | with_reducible apply forUp_keeps
    | decide
    | (split; all_goals (try dsimp -zeta only))
    | (dsimp +zetaDelta -zeta only)

theorem State.moveWork_keeps {s0 s : State} (h : Keeps s0 s) {x2 x3} :
    Keeps s0 (State.moveWork s x2 x3) := by
  unfold State.moveWork
  repeat' first
    | with_reducible exact h
    | with_reducible assumption
    | (intro; try dsimp -zeta only)
    | with_reducible apply State.rangeCheck_keeps
    | with_reducible apply modPort_keeps
    | with_reducible apply modSlice_keeps
    | with_reducible apply State.shedOrWait_keeps
    | (extract_lets +onlyGivenNames x; refine Keeps.cut x ?_ ?_; dsimp -zeta only [x]; clear x; rotate_left; intro hx; clear_value x; rotate_left)
    | extract_lets +onlyGivenNames x
    | with_reducible apply Keeps.ite
    | with_reducible apply foldl_keeps
    | with_reducible apply foldl_snd_keeps
    | decide
    | (split; all_goals (try dsimp -zeta only))
    | (dsimp +zetaDelta -zeta only)

theorem State.deliverHint_keeps {s0 s : State} (h : Keeps s0 s) {x2 x3 x4} :
    Keeps s0 (State.deliverHint s x2 x3 x4) := by
  unfold State.deliverHint
  repeat' first
    | with_reducible exact h
    | with_reducible assumption
    | (intro; try dsimp -zeta only)
    | with_reducible apply State.modCensus_keeps
    | (extract_lets +onlyGivenNames x; refine Keeps.cut x ?_ ?_; dsimp -zeta only [x]; clear x; rotate_left; intro hx; clear_value x; rotate_left)
    | extract_lets +onlyGivenNames x
    | with_reducible apply Keeps.ite
    | decide
    | (split; all_goals (try dsimp -zeta only))
    | (dsimp +zetaDelta -zeta only)

theorem State.addCensus_keeps {s0 s : State} (h : Keeps s0 s) {x2 x3 x4} :
    Keeps s0 (State.addCensus s x2 x3 x4) := by
  unfold State.addCensus
  repeat' first
    | with_reducible exact h
    | with_reducible assumption
    | (intro; try dsimp -zeta only)
    | with_reducible apply fset_keeps
    | with_reducible apply setFlag_keeps
    | with_reducible apply modSlice_keeps
    | with_reducible apply Keeps.ite
    | decide
    | (split; all_goals (try dsimp -zeta only))

theorem State.repointHosted_keeps {s0 s : State} (h : Keeps s0 s) {x2 x3} :
    Keeps s0 (State.repointHosted s x2 x3) := by
  unfold State.repointHosted
  repeat' first
    | with_reducible exact h
    | with_reducible assumption
    | (intro; try dsimp -zeta only)
    | with_reducible apply State.modLsl_keeps
    | with_reducible apply Keeps.ite
    | with_reducible apply forUp_keeps
    | decide
    | (split; all_goals (try dsimp -zeta only))

theorem State.replaceBy_keeps {s0 s : State} (h : Keeps s0 s) {x2 x3 x4 x5} :
    Keeps s0 (State.replaceBy s x2 x3 x4 x5) := by
  unfold State.replaceBy
  repeat' first
    | with_reducible exact h
    | with_reducible assumption
    | (intro; try dsimp -zeta only)
    | with_reducible apply State.modLsl_keeps
    | with_reducible apply modSlice_keeps
    | with_reducible apply State.setRole_keeps
    | with_reducible apply State.moveCounters_keeps
    | with_reducible apply State.deliverHint_keeps
    | with_reducible apply State.addCensus_keeps
    | with_reducible apply State.repointHosted_keeps
    | (extract_lets +onlyGivenNames x; refine Keeps.cut x ?_ ?_; dsimp -zeta only [x]; clear x; rotate_left; intro hx; clear_value x; rotate_left)
    | extract_lets +onlyGivenNames x
    | with_reducible apply Keeps.ite
    | with_reducible apply foldl_keeps
    | with_reducible apply foldl_snd_keeps
    | decide
    | (split; all_goals (try dsimp -zeta only))
    | (dsimp +zetaDelta -zeta only)

theorem movedSet_canon {l : Nat} : ∀ (is : List Nat) (m : Sp (Option Nat)), SpCanon (fun _ => (none : Option Nat)) m →
    SpCanon (fun _ => (none : Option Nat)) (is.foldl (fun m i => spSet none m i (some l)) m)
  | [], _, h => h
  | i :: is, _, h => movedSet_canon is _ (h.set (d := fun _ => (none : Option Nat)) i (some l))

theorem State.rehash_keeps {s0 s : State} (h : Keeps s0 s) {k l : Nat} : Keeps s0 (State.rehash s k l) := by
  unfold State.rehash
  extract_lets old s1 ls r s2 b s3 s4
  have h1 : Keeps s0 s1 := State.modLsl_keeps h
  have h2 : Keeps s0 s2 := h1.arr (fun x => ⟨x.regs, x.cur, x.roles, x.logic, movedSet_canon _ _ x.moved, x.ports, x.slices, x.wins,
    x.banks, x.sources, x.vectors, x.jig⟩) rfl rfl rfl rfl rfl id
  have h3 : Keeps s0 s3 := State.repointHosted_keeps (State.modLsl_keeps h2)
  have h4 : Keeps s0 s4 := foldl_keeps h3 (fun u a hu => State.addCensus_keeps hu)
  exact foldl_keeps h4 (fun u c hu => foldl_keeps hu (fun v e hv => foldl_keeps hv (fun w g hw => State.deliverHint_keeps hw)))

theorem State.migEnd_keeps {s0 s : State} (h : Keeps s0 s) {x2} :
    Keeps s0 (State.migEnd s x2) := by
  unfold State.migEnd
  repeat' first
    | with_reducible exact h
    | with_reducible assumption
    | (intro; try dsimp -zeta only)
    | with_reducible apply State.modLsl_keeps
    | with_reducible apply fset_keeps
    | with_reducible apply modSlice_keeps
    | with_reducible apply State.closeTxn_keeps
    | with_reducible apply State.setRole_keeps
    | (extract_lets +onlyGivenNames x; refine Keeps.cut x ?_ ?_; dsimp -zeta only [x]; clear x; rotate_left; intro hx; clear_value x; rotate_left)
    | extract_lets +onlyGivenNames x
    | with_reducible apply Keeps.ite
    | with_reducible apply foldl_keeps
    | with_reducible apply foldl_snd_keeps
    | decide
    | (split; all_goals (try dsimp -zeta only))
    | with_reducible apply migSet_keeps
    | (dsimp +zetaDelta -zeta only)

theorem State.sliceFails_keeps {s0 s : State} (h : Keeps s0 s) {k l : Nat} : Keeps s0 (State.sliceFails s k l) := by
  unfold State.sliceFails
  extract_lets old work evict s1 unit s2 s3 x keep clear go mine target none_ base b s4
  have h1 : Keeps s0 s1 := forUp_keeps h (fun j u hu => Keeps.ite (State.winLoseAll_keeps hu) hu)
  have h2 : Keeps s0 s2 := modSlice_keeps (State.clampDrop_keeps h1)
  have h3 : Keeps s0 s3 := Keeps.ite (fset_keeps (setFlag_keeps h2 (by decide)) (by decide)) h2
  have hk : Keeps s0 keep := setSlice_keeps h3
  have hc : ∀ u, Keeps s0 u → Keeps s0 (clear u) := fun u hu => modSlice_keeps hu
  have hg : ∀ u r n, Keeps s0 u → Keeps s0 (go u r n) := fun u r n hu => hc _ (State.replaceBy_keeps hu)
  have hn : ∀ u, Keeps s0 u → Keeps s0 (none_ u) := fun u hu =>
    Keeps.ite (hc _ (State.safeCause_keeps hu)) (hc _ (State.rehash_keeps hu))
  have hb : Keeps s0 base := Keeps.ite (State.migEnd_keeps hk) hk
  have hm : Keeps s0 b := State.migEnd_keeps hb
  have h4 : Keeps s0 s4 := by
    dsimp -zeta only [s4]
    clear_value s4 b base none_ go clear keep mine target
    split
    · refine hg _ _ _ (fset_keeps ?_ (by decide))
      exact migSet_keeps hk
    · split
      · exact hg _ _ _ hb
      · split
        · split
          · exact hg _ _ _ hm
          · exact hn _ hm
        · exact hn _ hb
  exact State.moveWork_keeps h4

theorem State.fence_keeps {s0 s : State} (h : Keeps s0 s) {x2 x3} :
    Keeps s0 (State.fence s x2 x3) := by
  unfold State.fence
  repeat' first
    | with_reducible exact h
    | with_reducible assumption
    | (intro; try dsimp -zeta only)
    | with_reducible apply fset_keeps
    | with_reducible apply setFlag_keeps
    | with_reducible apply modSlice_keeps
    | with_reducible apply State.raiseSafety_keeps
    | with_reducible apply State.logEntry_keeps
    | with_reducible apply State.notice_keeps
    | with_reducible apply State.setRole_keeps
    | with_reducible apply State.unpredict_keeps
    | with_reducible apply State.jigSliceGone_keeps
    | with_reducible apply State.migEnd_keeps
    | with_reducible apply State.sliceFails_keeps
    | (extract_lets +onlyGivenNames x; refine Keeps.cut x ?_ ?_; dsimp -zeta only [x]; clear x; rotate_left; intro hx; clear_value x; rotate_left)
    | extract_lets +onlyGivenNames x
    | with_reducible apply Keeps.ite
    | decide
    | (split; all_goals (try dsimp -zeta only))
    | (dsimp +zetaDelta -zeta only)

/-- A change of the loss log that leaves at most 1,024 entries. -/
theorem lossSet_keeps {s0 s : State} (h : Keeps s0 s) {l : List (Addr × Tenant)}
    (hl : s.lossLog.length ≤ 1024 → l.length ≤ 1024) : Keeps s0 { s with lossLog := l } :=
  h.trans ⟨rfl, id, fun x => ⟨x.regs, x.cur, x.roles, x.logic, x.moved, x.ports, x.slices, x.wins, x.banks, x.sources, x.vectors, x.jig⟩,
    id, id, id, hl, id⟩

theorem State.loseSub_keeps {s0 s : State} (h : Keeps s0 s) {k l : Nat} {a : Addr} {t : Tenant} :
    Keeps s0 (State.loseSub s k l a t) := by
  unfold State.loseSub
  extract_lets d i s1 s2
  have h1 : Keeps s0 s1 := State.sendMemWr_keeps (freshSet_keeps h)
  have h2 : Keeps s0 s2 := by
    by_cases c : s1.lossLog.length < 1024
    · have e : s2 = { s1 with lossLog := s1.lossLog ++ [(a, t)] } := if_pos c
      rw [e]
      exact lossSet_keeps h1 (fun _ => by rw [List.length_append, List.length_singleton]; omega)
    · have e : s2 = s1 := if_neg c
      rw [e]; exact h1
  clear_value s2
  exact State.raise_keeps (State.deferred_keeps (bump_keeps h2 (by decide)))

theorem State.loseSet_keeps {s0 s : State} (h : Keeps s0 s) {x2 x3 x4} :
    Keeps s0 (State.loseSet s x2 x3 x4) := by
  unfold State.loseSet
  repeat' first
    | with_reducible exact h
    | with_reducible assumption
    | (intro; try dsimp -zeta only)
    | with_reducible apply State.modLsl_keeps
    | with_reducible apply Keeps.ite
    | decide
    | (split; all_goals (try dsimp -zeta only))

theorem State.hcScanDone_keeps {s0 s : State} (h : Keeps s0 s) {x2} :
    Keeps s0 (State.hcScanDone s x2) := by
  unfold State.hcScanDone
  repeat' first
    | with_reducible exact h
    | with_reducible assumption
    | (intro; try dsimp -zeta only)
    | with_reducible apply State.modLsl_keeps
    | with_reducible apply State.containedMask_keeps
    | with_reducible apply modSlice_keeps
    | with_reducible apply State.loseSub_keeps
    | with_reducible apply State.loseSet_keeps
    | (extract_lets +onlyGivenNames x; refine Keeps.cut x ?_ ?_; dsimp -zeta only [x]; clear x; rotate_left; intro hx; clear_value x; rotate_left)
    | extract_lets +onlyGivenNames x
    | with_reducible apply Keeps.ite
    | with_reducible apply forUp_keeps
    | with_reducible apply foldl_keeps
    | with_reducible apply foldl_snd_keeps
    | decide
    | (split; all_goals (try dsimp -zeta only))
    | (dsimp +zetaDelta -zeta only)

theorem State.hcScanTimeout_keeps {s0 s : State} (h : Keeps s0 s) {x2} :
    Keeps s0 (State.hcScanTimeout s x2) := by
  unfold State.hcScanTimeout
  repeat' first
    | with_reducible exact h
    | with_reducible assumption
    | (intro; try dsimp -zeta only)
    | with_reducible apply State.modLsl_keeps
    | with_reducible apply State.containedMask_keeps
    | with_reducible apply modSlice_keeps
    | with_reducible apply until_keeps
    | with_reducible apply State.loseSet_keeps
    | (extract_lets +onlyGivenNames x; refine Keeps.cut x ?_ ?_; dsimp -zeta only [x]; clear x; rotate_left; intro hx; clear_value x; rotate_left)
    | extract_lets +onlyGivenNames x
    | with_reducible apply Keeps.ite
    | with_reducible apply forUp_keeps
    | decide
    | (split; all_goals (try dsimp -zeta only))
    | (dsimp +zetaDelta -zeta only)

theorem State.evictHoldEnd_keeps {s0 s : State} (h : Keeps s0 s) {x2} :
    Keeps s0 (State.evictHoldEnd s x2) := by
  unfold State.evictHoldEnd
  repeat' first
    | with_reducible exact h
    | with_reducible assumption
    | (intro; try dsimp -zeta only)
    | with_reducible apply State.modLsl_keeps
    | with_reducible apply State.retryMem_keeps
    | with_reducible apply modSlice_keeps
    | with_reducible apply until_keeps
    | (extract_lets +onlyGivenNames x; refine Keeps.cut x ?_ ?_; dsimp -zeta only [x]; clear x; rotate_left; intro hx; clear_value x; rotate_left)
    | extract_lets +onlyGivenNames x
    | with_reducible apply Keeps.ite
    | with_reducible apply forUp_keeps
    | with_reducible apply foldl_keeps
    | with_reducible apply foldl_snd_keeps
    | decide
    | (split; all_goals (try dsimp -zeta only))
    | (dsimp +zetaDelta -zeta only)

theorem State.sfScanEnd_keeps {s0 s : State} (h : Keeps s0 s) {x2 x3} :
    Keeps s0 (State.sfScanEnd s x2 x3) := by
  unfold State.sfScanEnd
  repeat' first
    | with_reducible exact h
    | with_reducible assumption
    | (intro; try dsimp -zeta only)
    | with_reducible apply State.modLsl_keeps
    | with_reducible apply State.clampLost_keeps
    | with_reducible apply State.modCensus_keeps
    | with_reducible apply modSlice_keeps
    | (extract_lets +onlyGivenNames x; refine Keeps.cut x ?_ ?_; dsimp -zeta only [x]; clear x; rotate_left; intro hx; clear_value x; rotate_left)
    | extract_lets +onlyGivenNames x
    | with_reducible apply Keeps.ite
    | with_reducible apply foldl_keeps
    | with_reducible apply foldl_snd_keeps
    | decide
    | (split; all_goals (try dsimp -zeta only))
    | (dsimp +zetaDelta -zeta only)

theorem State.sfScanDone_keeps {s0 s : State} (h : Keeps s0 s) {x2} :
    Keeps s0 (State.sfScanDone s x2) := by
  unfold State.sfScanDone
  repeat' first
    | with_reducible exact h
    | with_reducible assumption
    | (intro; try dsimp -zeta only)
    | with_reducible apply modSlice_keeps
    | with_reducible apply State.setLoose_keeps
    | with_reducible apply State.deliverHint_keeps
    | with_reducible apply State.sfScanEnd_keeps
    | (extract_lets +onlyGivenNames x; refine Keeps.cut x ?_ ?_; dsimp -zeta only [x]; clear x; rotate_left; intro hx; clear_value x; rotate_left)
    | extract_lets +onlyGivenNames x
    | with_reducible apply Keeps.ite
    | with_reducible apply foldl_keeps
    | with_reducible apply foldl_snd_keeps
    | decide
    | (split; all_goals (try dsimp -zeta only))
    | (dsimp +zetaDelta -zeta only)

theorem State.scanStall_keeps {s0 s : State} (h : Keeps s0 s) {x2} :
    Keeps s0 (State.scanStall s x2) := by
  unfold State.scanStall
  repeat' first
    | with_reducible exact h
    | with_reducible assumption
    | (intro; try dsimp -zeta only)
    | with_reducible apply setFlag_keeps
    | with_reducible apply modSlice_keeps
    | with_reducible apply State.sfScanEnd_keeps
    | (extract_lets +onlyGivenNames x; refine Keeps.cut x ?_ ?_; dsimp -zeta only [x]; clear x; rotate_left; intro hx; clear_value x; rotate_left)
    | extract_lets +onlyGivenNames x
    | with_reducible apply Keeps.ite
    | with_reducible apply foldl_keeps
    | with_reducible apply foldl_snd_keeps
    | decide
    | (split; all_goals (try dsimp -zeta only))
    | (dsimp +zetaDelta -zeta only)

end Sys2Proof.Machine
end

