-- ==== Sys2Proof/Laws/KeepsMigrate.lean ====
section
/-!
SUPPORT. What the operations of Machine/Migrate.lean keep of a state (`Keeps`), one law each.
-/
namespace Sys2Proof.Machine
set_option linter.all false

theorem State.migBegin_keeps {s0 s : State} (h : Keeps s0 s) {x2 x3} :
    Keeps s0 (State.migBegin s x2 x3) := by
  unfold State.migBegin
  repeat' first
    | with_reducible exact h
    | with_reducible assumption
    | (intro; try dsimp -zeta only)
    | with_reducible apply fset_keeps
    | with_reducible apply State.wakeSlice_keeps
    | with_reducible apply State.setRole_keeps
    | (extract_lets +onlyGivenNames x; refine Keeps.cut x ?_ ?_; dsimp -zeta only [x]; clear x; rotate_left; intro hx; clear_value x; rotate_left)
    | extract_lets +onlyGivenNames x
    | with_reducible apply Keeps.ite
    | decide
    | (split; all_goals (try dsimp -zeta only))
    | with_reducible apply migSet_keeps
    | (dsimp +zetaDelta -zeta only)

theorem State.mirrorSf_keeps {s0 s : State} (h : Keeps s0 s) {x2 x3 x4} :
    Keeps s0 (State.mirrorSf s x2 x3 x4) := by
  unfold State.mirrorSf
  repeat' first
    | with_reducible exact h
    | with_reducible assumption
    | (intro; try dsimp -zeta only)
    | with_reducible apply State.setLoose_keeps
    | with_reducible apply State.sfPut_keeps
    | (extract_lets +onlyGivenNames x; refine Keeps.cut x ?_ ?_; dsimp -zeta only [x]; clear x; rotate_left; intro hx; clear_value x; rotate_left)
    | extract_lets +onlyGivenNames x
    | with_reducible apply Keeps.ite
    | with_reducible apply foldl_keeps
    | with_reducible apply foldl_snd_keeps
    | decide
    | (split; all_goals (try dsimp -zeta only))
    | (dsimp +zetaDelta -zeta only)

theorem State.spillHc_keeps {s0 s : State} (h : Keeps s0 s) {x2 x3 x4} :
    Keeps s0 (State.spillHc s x2 x3 x4) := by
  unfold State.spillHc
  repeat' first
    | with_reducible exact h
    | with_reducible assumption
    | (intro; try dsimp -zeta only)
    | with_reducible apply State.setFrame_keeps
    | with_reducible apply State.readSub_keeps
    | with_reducible apply State.sendMemWr_keeps
    | (extract_lets +onlyGivenNames x; refine Keeps.cut x ?_ ?_; dsimp -zeta only [x]; clear x; rotate_left; intro hx; clear_value x; rotate_left)
    | extract_lets +onlyGivenNames x
    | with_reducible apply Keeps.ite
    | with_reducible apply forUp_keeps
    | with_reducible apply foldl_keeps
    | with_reducible apply foldl_snd_keeps
    | decide
    | (split; all_goals (try dsimp -zeta only))
    | (dsimp +zetaDelta -zeta only)

theorem State.mirrorHc_keeps {s0 s : State} (h : Keeps s0 s) {x2 x3 x4} :
    Keeps s0 (State.mirrorHc s x2 x3 x4) := by
  unfold State.mirrorHc
  repeat' first
    | with_reducible exact h
    | with_reducible assumption
    | (intro; try dsimp -zeta only)
    | with_reducible apply State.setFrame_keeps
    | with_reducible apply State.spillHc_keeps
    | (extract_lets +onlyGivenNames x; refine Keeps.cut x ?_ ?_; dsimp -zeta only [x]; clear x; rotate_left; intro hx; clear_value x; rotate_left)
    | extract_lets +onlyGivenNames x
    | with_reducible apply Keeps.ite
    | with_reducible apply foldl_keeps
    | with_reducible apply foldl_snd_keeps
    | decide
    | (split; all_goals (try dsimp -zeta only))
    | (dsimp +zetaDelta -zeta only)

theorem State.mirror_keeps {s0 s : State} (h : Keeps s0 s) :
    Keeps s0 (State.mirror s) := by
  unfold State.mirror
  repeat' first
    | with_reducible exact h
    | with_reducible assumption
    | (intro; try dsimp -zeta only)
    | with_reducible apply State.mirrorSf_keeps
    | with_reducible apply State.mirrorHc_keeps
    | (extract_lets +onlyGivenNames x; refine Keeps.cut x ?_ ?_; dsimp -zeta only [x]; clear x; rotate_left; intro hx; clear_value x; rotate_left)
    | extract_lets +onlyGivenNames x
    | with_reducible apply Keeps.ite
    | with_reducible apply foldl_keeps
    | with_reducible apply foldl_snd_keeps
    | decide
    | (split; all_goals (try dsimp -zeta only))
    | (dsimp +zetaDelta -zeta only)

theorem State.migCopy_keeps {s0 s : State} (h : Keeps s0 s) :
    Keeps s0 (State.migCopy s) := by
  unfold State.migCopy
  repeat' first
    | with_reducible exact h
    | with_reducible assumption
    | (intro; try dsimp -zeta only)
    | with_reducible apply State.shedOrWait_keeps
    | (extract_lets +onlyGivenNames x; refine Keeps.cut x ?_ ?_; dsimp -zeta only [x]; clear x; rotate_left; intro hx; clear_value x; rotate_left)
    | extract_lets +onlyGivenNames x
    | with_reducible apply Keeps.ite
    | decide
    | (split; all_goals (try dsimp -zeta only))
    | with_reducible apply migSet_keeps
    | (dsimp +zetaDelta -zeta only)

theorem State.migAdvance_keeps {s0 s : State} (h : Keeps s0 s) {x2} :
    Keeps s0 (State.migAdvance s x2) := by
  unfold State.migAdvance
  repeat' first
    | with_reducible exact h
    | with_reducible assumption
    | (intro; try dsimp -zeta only)
    | with_reducible apply State.modLsl_keeps
    | with_reducible apply fset_keeps
    | with_reducible apply State.closeTxn_keeps
    | (extract_lets +onlyGivenNames x; refine Keeps.cut x ?_ ?_; dsimp -zeta only [x]; clear x; rotate_left; intro hx; clear_value x; rotate_left)
    | extract_lets +onlyGivenNames x
    | with_reducible apply Keeps.ite
    | decide
    | (split; all_goals (try dsimp -zeta only))
    | with_reducible apply migSet_keeps
    | (dsimp +zetaDelta -zeta only)

theorem State.migSurplus_keeps {s0 s : State} (h : Keeps s0 s) {x2 x3 x4} :
    Keeps s0 (State.migSurplus s x2 x3 x4) := by
  unfold State.migSurplus
  repeat' first
    | with_reducible exact h
    | with_reducible assumption
    | (intro; try dsimp -zeta only)
    | with_reducible apply State.modTxn_keeps
    | with_reducible apply State.mirrorSf_keeps
    | with_reducible apply State.migAdvance_keeps
    | with_reducible apply State.admitAt_keeps
    | (extract_lets +onlyGivenNames x; refine Keeps.cut x ?_ ?_; dsimp -zeta only [x]; clear x; rotate_left; intro hx; clear_value x; rotate_left)
    | extract_lets +onlyGivenNames x
    | with_reducible apply Keeps.ite
    | with_reducible apply foldl_keeps
    | with_reducible apply foldl_snd_keeps
    | decide
    | (split; all_goals (try dsimp -zeta only))
    | (dsimp +zetaDelta -zeta only)

theorem State.migAct_keeps {s0 s : State} (h : Keeps s0 s) {x2 x3} :
    Keeps s0 (State.migAct s x2 x3) := by
  unfold State.migAct
  repeat' first
    | with_reducible exact h
    | with_reducible assumption
    | (intro; try dsimp -zeta only)
    | with_reducible apply State.modTxn_keeps
    | with_reducible apply State.hcCheckSet_keeps
    | with_reducible apply State.readSub_keeps
    | with_reducible apply State.mirrorHc_keeps
    | with_reducible apply State.migAdvance_keeps
    | with_reducible apply State.migSurplus_keeps
    | with_reducible apply State.closeTxn_keeps
    | with_reducible apply State.sfCheckSet_keeps
    | (extract_lets +onlyGivenNames x; refine Keeps.cut x ?_ ?_; dsimp -zeta only [x]; clear x; rotate_left; intro hx; clear_value x; rotate_left)
    | extract_lets +onlyGivenNames x
    | with_reducible apply Keeps.ite
    | with_reducible apply forUp_keeps
    | decide
    | (split; all_goals (try dsimp -zeta only))
    | (dsimp +zetaDelta -zeta only)

theorem State.retryMig_keeps {s0 s : State} (h : Keeps s0 s) {x2} :
    Keeps s0 (State.retryMig s x2) := by
  unfold State.retryMig
  repeat' first
    | with_reducible exact h
    | with_reducible assumption
    | (intro; try dsimp -zeta only)
    | with_reducible apply State.migSurplus_keeps
    | with_reducible apply Keeps.ite
    | with_reducible apply foldl_keeps
    | with_reducible apply foldl_snd_keeps
    | decide
    | (split; all_goals (try dsimp -zeta only))

theorem State.migHandover_keeps {s0 s : State} (h : Keeps s0 s) :
    Keeps s0 (State.migHandover s) := by
  unfold State.migHandover
  repeat' first
    | with_reducible exact h
    | with_reducible assumption
    | (intro; try dsimp -zeta only)
    | with_reducible apply State.modLsl_keeps
    | with_reducible apply State.mirror_keeps
    | with_reducible apply fset_keeps
    | with_reducible apply modSlice_keeps
    | with_reducible apply State.ingressAll_keeps
    | with_reducible apply State.setRole_keeps
    | with_reducible apply State.unpredict_keeps
    | with_reducible apply State.moveCounters_keeps
    | with_reducible apply State.jigSliceGone_keeps
    | with_reducible apply State.repointHosted_keeps
    | (extract_lets +onlyGivenNames x; refine Keeps.cut x ?_ ?_; dsimp -zeta only [x]; clear x; rotate_left; intro hx; clear_value x; rotate_left)
    | extract_lets +onlyGivenNames x
    | with_reducible apply Keeps.ite
    | decide
    | (split; all_goals (try dsimp -zeta only))
    | with_reducible apply migSet_keeps
    | (dsimp +zetaDelta -zeta only)

theorem State.migAbort_keeps {s0 s : State} (h : Keeps s0 s) :
    Keeps s0 (State.migAbort s) := by
  unfold State.migAbort
  repeat' first
    | with_reducible exact h
    | with_reducible assumption
    | (intro; try dsimp -zeta only)
    | with_reducible apply State.ingressAll_keeps
    | with_reducible apply State.migEnd_keeps
    | with_reducible apply Keeps.ite
    | decide
    | (split; all_goals (try dsimp -zeta only))

theorem State.migAuto_keeps {s0 s : State} (h : Keeps s0 s) {x2} :
    Keeps s0 (State.migAuto s x2) := by
  unfold State.migAuto
  repeat' first
    | with_reducible exact h
    | with_reducible assumption
    | (intro; try dsimp -zeta only)
    | with_reducible apply State.migBegin_keeps
    | with_reducible apply fset_keeps
    | with_reducible apply Keeps.ite
    | decide
    | (split; all_goals (try dsimp -zeta only))

end Sys2Proof.Machine
end

