-- ==== Sys2Proof/Laws/KeepsTenants.lean ====
section
/-!
SUPPORT. What the operations of Machine/Tenants.lean keep of a state (`Keeps`), one law each.
-/
namespace Sys2Proof.Machine
set_option linter.all false

theorem State.umvLog_keeps {s0 s : State} (h : Keeps s0 s) {x2 x3 x4 x5} :
    Keeps s0 (State.umvLog s x2 x3 x4 x5) := by
  unfold State.umvLog
  repeat' first
    | with_reducible exact h
    | with_reducible assumption
    | (intro; try dsimp -zeta only)
    | with_reducible apply fset_keeps
    | (extract_lets +onlyGivenNames x; refine Keeps.cut x ?_ ?_; dsimp -zeta only [x]; clear x; rotate_left; intro hx; clear_value x; rotate_left)
    | extract_lets +onlyGivenNames x
    | with_reducible apply Keeps.ite
    | decide
    | (split; all_goals (try dsimp -zeta only))
    | with_reducible apply umvSet_keeps
    | (dsimp +zetaDelta -zeta only)

theorem State.setStg_keeps {s0 s : State} (h : Keeps s0 s) {x2 x3} :
    Keeps s0 (State.setStg s x2 x3) := by
  unfold State.setStg
  repeat' first
    | with_reducible exact h
    | with_reducible assumption
    | (intro; try dsimp -zeta only)
    | with_reducible apply Keeps.ite
    | decide
    | (split; all_goals (try dsimp -zeta only))
    | with_reducible apply tnsSet_keeps

theorem State.stgReject_keeps {s0 s : State} (h : Keeps s0 s) {x2 x3 x4} :
    Keeps s0 (State.stgReject s x2 x3 x4) := by
  unfold State.stgReject
  repeat' first
    | with_reducible exact h
    | with_reducible assumption
    | (intro; try dsimp -zeta only)
    | with_reducible apply bump_keeps
    | with_reducible apply State.raise_keeps
    | (extract_lets +onlyGivenNames x; refine Keeps.cut x ?_ ?_; dsimp -zeta only [x]; clear x; rotate_left; intro hx; clear_value x; rotate_left)
    | extract_lets +onlyGivenNames x
    | with_reducible apply Keeps.ite
    | decide
    | (split; all_goals (try dsimp -zeta only))
    | (dsimp +zetaDelta -zeta only)

theorem State.stgResult_keeps {s0 s : State} (h : Keeps s0 s) {x2 x3 x4 x5} :
    Keeps s0 (State.stgResult s x2 x3 x4 x5) := by
  unfold State.stgResult
  repeat' first
    | with_reducible exact h
    | with_reducible assumption
    | (intro; try dsimp -zeta only)
    | with_reducible apply fset_keeps
    | with_reducible apply setFlag_keeps
    | (extract_lets +onlyGivenNames x; refine Keeps.cut x ?_ ?_; dsimp -zeta only [x]; clear x; rotate_left; intro hx; clear_value x; rotate_left)
    | extract_lets +onlyGivenNames x
    | with_reducible apply Keeps.ite
    | decide
    | (split; all_goals (try dsimp -zeta only))
    | (dsimp +zetaDelta -zeta only)

theorem State.stgAlloc_keeps {s0 s : State} (h : Keeps s0 s) {x2 x3} :
    Keeps s0 (State.stgAlloc s x2 x3) := by
  unfold State.stgAlloc
  repeat' first
    | with_reducible exact h
    | with_reducible assumption
    | (intro; try dsimp -zeta only)
    | with_reducible apply State.setStg_keeps
    | with_reducible apply State.stgResult_keeps
    | (extract_lets +onlyGivenNames x; refine Keeps.cut x ?_ ?_; dsimp -zeta only [x]; clear x; rotate_left; intro hx; clear_value x; rotate_left)
    | extract_lets +onlyGivenNames x
    | with_reducible apply Keeps.ite
    | decide
    | (split; all_goals (try dsimp -zeta only))
    | (dsimp +zetaDelta -zeta only)

theorem State.stgFree_keeps {s0 s : State} (h : Keeps s0 s) {x2 x3 x4} :
    Keeps s0 (State.stgFree s x2 x3 x4) := by
  unfold State.stgFree
  repeat' first
    | with_reducible exact h
    | with_reducible assumption
    | (intro; try dsimp -zeta only)
    | with_reducible apply State.setStg_keeps
    | with_reducible apply State.stgReject_keeps
    | with_reducible apply State.stgResult_keeps
    | (extract_lets +onlyGivenNames x; refine Keeps.cut x ?_ ?_; dsimp -zeta only [x]; clear x; rotate_left; intro hx; clear_value x; rotate_left)
    | extract_lets +onlyGivenNames x
    | with_reducible apply Keeps.ite
    | decide
    | (split; all_goals (try dsimp -zeta only))
    | (dsimp +zetaDelta -zeta only)

theorem State.stgLoad_keeps {s0 s : State} (h : Keeps s0 s) {x2 x3 x4} :
    Keeps s0 (State.stgLoad s x2 x3 x4) := by
  unfold State.stgLoad
  repeat' first
    | with_reducible exact h
    | with_reducible assumption
    | (intro; try dsimp -zeta only)
    | with_reducible apply fset_keeps
    | with_reducible apply State.stgReject_keeps
    | with_reducible apply State.stgResult_keeps
    | (extract_lets +onlyGivenNames x; refine Keeps.cut x ?_ ?_; dsimp -zeta only [x]; clear x; rotate_left; intro hx; clear_value x; rotate_left)
    | extract_lets +onlyGivenNames x
    | with_reducible apply Keeps.ite
    | decide
    | (split; all_goals (try dsimp -zeta only))
    | with_reducible apply tnsSet_keeps
    | (dsimp +zetaDelta -zeta only)

theorem State.stgData_keeps {s0 s : State} (h : Keeps s0 s) {x2 x3 x4} :
    Keeps s0 (State.stgData s x2 x3 x4).2 := by
  unfold State.stgData
  repeat' first
    | with_reducible exact h
    | with_reducible assumption
    | (intro; try dsimp -zeta only)
    | with_reducible apply fset_keeps
    | with_reducible apply State.setStg_keeps
    | with_reducible apply State.stgReject_keeps
    | (extract_lets +onlyGivenNames x; refine Keeps.cut x ?_ ?_; dsimp -zeta only [x]; clear x; rotate_left; intro hx; clear_value x; rotate_left)
    | extract_lets +onlyGivenNames x
    | with_reducible apply Keeps.ite
    | decide
    | (split; all_goals (try dsimp -zeta only))
    | (dsimp +zetaDelta -zeta only)

theorem State.v48ToAll_keeps {s0 s : State} (h : Keeps s0 s) {x2} :
    Keeps s0 (State.v48ToAll s x2) := by
  unfold State.v48ToAll
  repeat' first
    | with_reducible exact h
    | with_reducible assumption
    | (intro; try dsimp -zeta only)
    | with_reducible apply bumpBy_keeps
    | with_reducible apply modSlice_keeps
    | (extract_lets +onlyGivenNames x; refine Keeps.cut x ?_ ?_; dsimp -zeta only [x]; clear x; rotate_left; intro hx; clear_value x; rotate_left)
    | extract_lets +onlyGivenNames x
    | with_reducible apply Keeps.ite
    | with_reducible apply forUp_keeps
    | decide
    | (split; all_goals (try dsimp -zeta only))
    | (dsimp +zetaDelta -zeta only)

theorem State.tenRegs_keeps {s0 s : State} (h : Keeps s0 s) {x2} :
    Keeps s0 (State.tenRegs s x2) := by
  unfold State.tenRegs
  repeat' first
    | with_reducible exact h
    | with_reducible assumption
    | (intro; try dsimp -zeta only)
    | with_reducible apply fset_keeps
    | with_reducible apply setFlag_keeps
    | (extract_lets +onlyGivenNames x; refine Keeps.cut x ?_ ?_; dsimp -zeta only [x]; clear x; rotate_left; intro hx; clear_value x; rotate_left)
    | extract_lets +onlyGivenNames x
    | with_reducible apply Keeps.ite
    | decide
    | (split; all_goals (try dsimp -zeta only))
    | (dsimp +zetaDelta -zeta only)

theorem State.applyOverlay_keeps {s0 s : State} (h : Keeps s0 s) {x2} :
    Keeps s0 (State.applyOverlay s x2) := by
  unfold State.applyOverlay
  repeat' first
    | with_reducible exact h
    | with_reducible assumption
    | (intro; try dsimp -zeta only)
    | with_reducible apply State.vectorsOverlay_keeps
    | with_reducible apply fset_keeps
    | with_reducible apply State.v48ToAll_keeps
    | with_reducible apply State.tenRegs_keeps
    | (extract_lets +onlyGivenNames x; refine Keeps.cut x ?_ ?_; dsimp -zeta only [x]; clear x; rotate_left; intro hx; clear_value x; rotate_left)
    | extract_lets +onlyGivenNames x
    | with_reducible apply Keeps.ite
    | decide
    | (split; all_goals (try dsimp -zeta only))
    | with_reducible apply patSet_keeps
    | (dsimp +zetaDelta -zeta only)

theorem State.startCtx1_keeps {s0 s : State} (h : Keeps s0 s) {x2 x3} :
    Keeps s0 (State.startCtx1 s x2 x3) := by
  unfold State.startCtx1
  repeat' first
    | with_reducible exact h
    | with_reducible assumption
    | (intro; try dsimp -zeta only)
    | with_reducible apply State.rangeCheck_keeps
    | with_reducible apply modSlice_keeps
    | with_reducible apply State.wakeSlice_keeps
    | (extract_lets +onlyGivenNames x; refine Keeps.cut x ?_ ?_; dsimp -zeta only [x]; clear x; rotate_left; intro hx; clear_value x; rotate_left)
    | extract_lets +onlyGivenNames x
    | with_reducible apply Keeps.ite
    | with_reducible apply forUp_keeps
    | decide
    | (split; all_goals (try dsimp -zeta only))
    | with_reducible apply ctx1Set_keeps
    | (dsimp +zetaDelta -zeta only)

theorem State.applyWaiting_keeps {s0 s : State} (h : Keeps s0 s) {n : Nat} : Keeps s0 (State.applyWaiting s n) := by
  induction n generalizing s with
  | zero => exact h
  | succ n ih =>
    unfold State.applyWaiting
    split
    · exact h
    · extract_lets ways ours
      refine Keeps.ite (Keeps.ite h (State.startCtx1_keeps h)) (ih ?_)
      refine State.applyOverlay_keeps ?_
      exact tnsSet_keeps h

theorem State.overlayNow_keeps {s0 s : State} (h : Keeps s0 s) {x2} :
    Keeps s0 (State.overlayNow s x2) := by
  unfold State.overlayNow
  repeat' first
    | with_reducible exact h
    | with_reducible assumption
    | (intro; try dsimp -zeta only)
    | with_reducible apply State.applyWaiting_keeps
    | (extract_lets +onlyGivenNames x; refine Keeps.cut x ?_ ?_; dsimp -zeta only [x]; clear x; rotate_left; intro hx; clear_value x; rotate_left)
    | extract_lets +onlyGivenNames x
    | with_reducible apply Keeps.ite
    | decide
    | (split; all_goals (try dsimp -zeta only))
    | with_reducible apply tnsSet_keeps
    | (dsimp +zetaDelta -zeta only)

theorem State.overlayResult_keeps {s0 s : State} (h : Keeps s0 s) {x2 x3 x4 x5} :
    Keeps s0 (State.overlayResult s x2 x3 x4 x5) := by
  unfold State.overlayResult
  repeat' first
    | with_reducible exact h
    | with_reducible assumption
    | (intro; try dsimp -zeta only)
    | with_reducible apply fset_keeps
    | with_reducible apply setFlag_keeps
    | with_reducible apply Keeps.ite
    | decide
    | (split; all_goals (try dsimp -zeta only))

theorem State.patErr_keeps {s0 s : State} (h : Keeps s0 s) {x2 x3 x4} :
    Keeps s0 (State.patErr s x2 x3 x4) := by
  unfold State.patErr
  repeat' first
    | with_reducible exact h
    | with_reducible assumption
    | (intro; try dsimp -zeta only)
    | with_reducible apply fset_keeps
    | with_reducible apply setFlag_keeps
    | with_reducible apply Keeps.ite
    | decide
    | (split; all_goals (try dsimp -zeta only))

theorem State.overlayAccepted_keeps {s0 s : State} (h : Keeps s0 s) {x2 x3} :
    Keeps s0 (State.overlayAccepted s x2 x3) := by
  unfold State.overlayAccepted
  repeat' first
    | with_reducible exact h
    | with_reducible assumption
    | (intro; try dsimp -zeta only)
    | with_reducible apply setFlag_keeps
    | with_reducible apply State.raise_keeps
    | with_reducible apply State.overlayNow_keeps
    | with_reducible apply State.overlayResult_keeps
    | (extract_lets +onlyGivenNames x; refine Keeps.cut x ?_ ?_; dsimp -zeta only [x]; clear x; rotate_left; intro hx; clear_value x; rotate_left)
    | extract_lets +onlyGivenNames x
    | with_reducible apply Keeps.ite
    | decide
    | (split; all_goals (try dsimp -zeta only))
    | with_reducible apply tnsSet_keeps
    | (dsimp +zetaDelta -zeta only)

theorem State.overlayValidated_keeps {s0 s : State} (h : Keeps s0 s) :
    Keeps s0 (State.overlayValidated s) := by
  unfold State.overlayValidated
  repeat' first
    | with_reducible exact h
    | with_reducible assumption
    | (intro; try dsimp -zeta only)
    | with_reducible apply fset_keeps
    | with_reducible apply State.raise_keeps
    | with_reducible apply State.umvLog_keeps
    | with_reducible apply State.overlayResult_keeps
    | with_reducible apply State.patErr_keeps
    | with_reducible apply State.overlayAccepted_keeps
    | (extract_lets +onlyGivenNames x; refine Keeps.cut x ?_ ?_; dsimp -zeta only [x]; clear x; rotate_left; intro hx; clear_value x; rotate_left)
    | extract_lets +onlyGivenNames x
    | with_reducible apply Keeps.ite
    | decide
    | (split; all_goals (try dsimp -zeta only))
    | with_reducible apply tnsSet_keeps
    | (dsimp +zetaDelta -zeta only)

theorem State.overlayAbandoned_keeps {s0 s : State} (h : Keeps s0 s) :
    Keeps s0 (State.overlayAbandoned s) := by
  unfold State.overlayAbandoned
  repeat' first
    | with_reducible exact h
    | with_reducible assumption
    | (intro; try dsimp -zeta only)
    | with_reducible apply fset_keeps
    | with_reducible apply State.raise_keeps
    | with_reducible apply State.overlayResult_keeps
    | with_reducible apply Keeps.ite
    | decide
    | (split; all_goals (try dsimp -zeta only))
    | with_reducible apply tnsSet_keeps

theorem State.turnAway_keeps {s0 s : State} (h : Keeps s0 s) {x2 x3 x4} :
    Keeps s0 (State.turnAway s x2 x3 x4) := by
  unfold State.turnAway
  repeat' first
    | with_reducible exact h
    | with_reducible assumption
    | (intro; try dsimp -zeta only)
    | with_reducible apply State.send_keeps
    | with_reducible apply State.winOpen_keeps
    | with_reducible apply State.winUnexecuted_keeps
    | (extract_lets +onlyGivenNames x; refine Keeps.cut x ?_ ?_; dsimp -zeta only [x]; clear x; rotate_left; intro hx; clear_value x; rotate_left)
    | extract_lets +onlyGivenNames x
    | with_reducible apply Keeps.ite
    | decide
    | (split; all_goals (try dsimp -zeta only))
    | (dsimp +zetaDelta -zeta only)

theorem State.answerWaiting_keeps {s0 s : State} (h : Keeps s0 s) {x2 x3} :
    Keeps s0 (State.answerWaiting s x2 x3) := by
  unfold State.answerWaiting
  repeat' first
    | with_reducible exact h
    | with_reducible assumption
    | (intro; try dsimp -zeta only)
    | with_reducible apply modSlice_keeps
    | with_reducible apply State.react_keeps
    | with_reducible apply State.turnAway_keeps
    | (extract_lets +onlyGivenNames x; refine Keeps.cut x ?_ ?_; dsimp -zeta only [x]; clear x; rotate_left; intro hx; clear_value x; rotate_left)
    | extract_lets +onlyGivenNames x
    | with_reducible apply Keeps.ite
    | with_reducible apply forUp_keeps
    | with_reducible apply foldl_keeps
    | with_reducible apply foldl_snd_keeps
    | decide
    | (split; all_goals (try dsimp -zeta only))
    | (dsimp +zetaDelta -zeta only)

theorem State.dropWaiting_keeps {s0 s : State} (h : Keeps s0 s) {x2} :
    Keeps s0 (State.dropWaiting s x2) := by
  unfold State.dropWaiting
  repeat' first
    | with_reducible exact h
    | with_reducible assumption
    | (intro; try dsimp -zeta only)
    | with_reducible apply modSlice_keeps
    | with_reducible apply Keeps.ite
    | with_reducible apply forUp_keeps
    | decide
    | (split; all_goals (try dsimp -zeta only))

theorem State.discardPort_keeps {s0 s : State} (h : Keeps s0 s) {x2 x3} :
    Keeps s0 (State.discardPort s x2 x3) := by
  unfold State.discardPort
  repeat' first
    | with_reducible exact h
    | with_reducible assumption
    | (intro; try dsimp -zeta only)
    | with_reducible apply bump_keeps
    | with_reducible apply modPort_keeps
    | with_reducible apply State.dropWaiting_keeps
    | (extract_lets +onlyGivenNames x; refine Keeps.cut x ?_ ?_; dsimp -zeta only [x]; clear x; rotate_left; intro hx; clear_value x; rotate_left)
    | extract_lets +onlyGivenNames x
    | with_reducible apply Keeps.ite
    | with_reducible apply foldl_keeps
    | with_reducible apply foldl_snd_keeps
    | decide
    | (split; all_goals (try dsimp -zeta only))
    | (dsimp +zetaDelta -zeta only)

theorem State.answerFences_keeps {s0 s : State} (h : Keeps s0 s) {x2 x3} :
    Keeps s0 (State.answerFences s x2 x3) := by
  unfold State.answerFences
  repeat' first
    | with_reducible exact h
    | with_reducible assumption
    | (intro; try dsimp -zeta only)
    | with_reducible apply modPort_keeps
    | with_reducible apply State.turnAway_keeps
    | (extract_lets +onlyGivenNames x; refine Keeps.cut x ?_ ?_; dsimp -zeta only [x]; clear x; rotate_left; intro hx; clear_value x; rotate_left)
    | extract_lets +onlyGivenNames x
    | with_reducible apply Keeps.ite
    | with_reducible apply forUp_keeps
    | with_reducible apply foldl_keeps
    | with_reducible apply foldl_snd_keeps
    | decide
    | (split; all_goals (try dsimp -zeta only))
    | (dsimp +zetaDelta -zeta only)

theorem State.giveUp_keeps {s0 s : State} (h : Keeps s0 s) {x2 x3} :
    Keeps s0 (State.giveUp s x2 x3) := by
  unfold State.giveUp
  repeat' first
    | with_reducible exact h
    | with_reducible assumption
    | (intro; try dsimp -zeta only)
    | with_reducible apply State.cancelMemRd_keeps
    | with_reducible apply State.closeTxn_keeps
    | with_reducible apply Keeps.ite
    | decide
    | (split; all_goals (try dsimp -zeta only))

theorem State.abortClients_keeps {s0 s : State} (h : Keeps s0 s) {x2} :
    Keeps s0 (State.abortClients s x2) := by
  unfold State.abortClients
  repeat' first
    | with_reducible exact h
    | with_reducible assumption
    | (intro; try dsimp -zeta only)
    | with_reducible apply State.send_keeps
    | with_reducible apply bump_keeps
    | with_reducible apply State.giveUp_keeps
    | with_reducible apply State.winLose_keeps
    | (extract_lets +onlyGivenNames x; refine Keeps.cut x ?_ ?_; dsimp -zeta only [x]; clear x; rotate_left; intro hx; clear_value x; rotate_left)
    | extract_lets +onlyGivenNames x
    | with_reducible apply Keeps.ite
    | with_reducible apply forUp_keeps
    | with_reducible apply foldl_keeps
    | with_reducible apply foldl_snd_keeps
    | decide
    | (split; all_goals (try dsimp -zeta only))
    | (dsimp +zetaDelta -zeta only)

theorem State.abortGathers_keeps {s0 s : State} (h : Keeps s0 s) {x2} :
    Keeps s0 (State.abortGathers s x2) := by
  unfold State.abortGathers
  repeat' first
    | with_reducible exact h
    | with_reducible assumption
    | (intro; try dsimp -zeta only)
    | with_reducible apply State.send_keeps
    | with_reducible apply bump_keeps
    | with_reducible apply modSlice_keeps
    | with_reducible apply State.dropWaiting_keeps
    | with_reducible apply State.giveUp_keeps
    | with_reducible apply State.winLose_keeps
    | (extract_lets +onlyGivenNames x; refine Keeps.cut x ?_ ?_; dsimp -zeta only [x]; clear x; rotate_left; intro hx; clear_value x; rotate_left)
    | extract_lets +onlyGivenNames x
    | with_reducible apply Keeps.ite
    | with_reducible apply forUp_keeps
    | with_reducible apply foldl_keeps
    | with_reducible apply foldl_snd_keeps
    | decide
    | (split; all_goals (try dsimp -zeta only))
    | (dsimp +zetaDelta -zeta only)

theorem State.quiesce_keeps {s0 s : State} (h : Keeps s0 s) {x2} :
    Keeps s0 (State.quiesce s x2) := by
  unfold State.quiesce
  repeat' first
    | with_reducible exact h
    | with_reducible assumption
    | (intro; try dsimp -zeta only)
    | with_reducible apply State.clampQuiesce_keeps
    | with_reducible apply State.react_keeps
    | with_reducible apply State.answerWaiting_keeps
    | with_reducible apply State.discardPort_keeps
    | with_reducible apply State.answerFences_keeps
    | with_reducible apply State.abortClients_keeps
    | with_reducible apply State.abortGathers_keeps
    | (extract_lets +onlyGivenNames x; refine Keeps.cut x ?_ ?_; dsimp -zeta only [x]; clear x; rotate_left; intro hx; clear_value x; rotate_left)
    | extract_lets +onlyGivenNames x
    | with_reducible apply Keeps.ite
    | with_reducible apply forUp_keeps
    | decide
    | (split; all_goals (try dsimp -zeta only))
    | (dsimp +zetaDelta -zeta only)

theorem State.tenantGo_keeps {s0 s : State} (h : Keeps s0 s) {x2} :
    Keeps s0 (State.tenantGo s x2) := by
  unfold State.tenantGo
  repeat' first
    | with_reducible exact h
    | with_reducible assumption
    | (intro; try dsimp -zeta only)
    | with_reducible apply fset_keeps
    | with_reducible apply setFlag_keeps
    | with_reducible apply State.quiesce_keeps
    | (extract_lets +onlyGivenNames x; refine Keeps.cut x ?_ ?_; dsimp -zeta only [x]; clear x; rotate_left; intro hx; clear_value x; rotate_left)
    | extract_lets +onlyGivenNames x
    | with_reducible apply Keeps.ite
    | decide
    | (split; all_goals (try dsimp -zeta only))
    | with_reducible apply tnsSet_keeps
    | (dsimp +zetaDelta -zeta only)

theorem State.stepStart_keeps {s0 s : State} (h : Keeps s0 s) {x2 x3} :
    Keeps s0 (State.stepStart s x2 x3) := by
  unfold State.stepStart
  repeat' first
    | with_reducible exact h
    | with_reducible assumption
    | (intro; try dsimp -zeta only)
    | with_reducible apply fset_keeps
    | with_reducible apply Keeps.ite
    | decide
    | (split; all_goals (try dsimp -zeta only))
    | with_reducible apply tnsSet_keeps

theorem State.tenantDrain_keeps {s0 s : State} (h : Keeps s0 s) {x2} :
    Keeps s0 (State.tenantDrain s x2) := by
  unfold State.tenantDrain
  repeat' first
    | with_reducible exact h
    | with_reducible assumption
    | (intro; try dsimp -zeta only)
    | with_reducible apply State.stepStart_keeps
    | with_reducible apply Keeps.ite
    | decide
    | (split; all_goals (try dsimp -zeta only))

theorem State.invStep_keeps {s0 s : State} (h : Keeps s0 s) {k n : Nat} : Keeps s0 (State.invStep s k n) := by
  induction n generalizing s with
  | zero => exact h
  | succ n ih =>
    unfold State.invStep
    split
    · exact h
    · split
      · exact Keeps.ite (modSlice_keeps h) h
      · split
        · exact h
        · extract_lets a v b c
          have h1 : Keeps s0 b := modSlice_keeps (State.sfCheckSet_keeps h)
          exact ih (Keeps.ite (State.backInv_keeps h1) h1)

theorem State.tenantInvalidate_keeps {s0 s : State} (h : Keeps s0 s) {x2} :
    Keeps s0 (State.tenantInvalidate s x2) := by
  unfold State.tenantInvalidate
  repeat' first
    | with_reducible exact h
    | with_reducible assumption
    | (intro; try dsimp -zeta only)
    | with_reducible apply modSlice_keeps
    | with_reducible apply State.wakeSlice_keeps
    | with_reducible apply State.stepStart_keeps
    | with_reducible apply State.invStep_keeps
    | (extract_lets +onlyGivenNames x; refine Keeps.cut x ?_ ?_; dsimp -zeta only [x]; clear x; rotate_left; intro hx; clear_value x; rotate_left)
    | extract_lets +onlyGivenNames x
    | with_reducible apply Keeps.ite
    | with_reducible apply foldl_keeps
    | with_reducible apply foldl_snd_keeps
    | decide
    | (split; all_goals (try dsimp -zeta only))
    | (dsimp +zetaDelta -zeta only)

theorem State.tenantClean_keeps {s0 s : State} (h : Keeps s0 s) {x2} :
    Keeps s0 (State.tenantClean s x2) := by
  unfold State.tenantClean
  repeat' first
    | with_reducible exact h
    | with_reducible assumption
    | (intro; try dsimp -zeta only)
    | with_reducible apply State.startCtx1_keeps
    | with_reducible apply State.stepStart_keeps
    | with_reducible apply Keeps.ite
    | decide
    | (split; all_goals (try dsimp -zeta only))

theorem State.tenantRevoke_keeps {s0 s : State} (h : Keeps s0 s) {x2} :
    Keeps s0 (State.tenantRevoke s x2) := by
  unfold State.tenantRevoke
  repeat' first
    | with_reducible exact h
    | with_reducible assumption
    | (intro; try dsimp -zeta only)
    | with_reducible apply State.clampRevoke_keeps
    | with_reducible apply State.stepStart_keeps
    | with_reducible apply Keeps.ite
    | with_reducible apply forUp_keeps
    | decide
    | (split; all_goals (try dsimp -zeta only))

theorem State.tenantStepEnd_keeps {s0 s : State} (h : Keeps s0 s) {x2} :
    Keeps s0 (State.tenantStepEnd s x2) := by
  unfold State.tenantStepEnd
  repeat' first
    | with_reducible exact h
    | with_reducible assumption
    | (intro; try dsimp -zeta only)
    | with_reducible apply State.umvLog_keeps
    | with_reducible apply Keeps.ite
    | decide
    | (split; all_goals (try dsimp -zeta only))
    | with_reducible apply tnsSet_keeps

theorem State.clearSlices_keeps {s0 s : State} (h : Keeps s0 s) {x2} :
    Keeps s0 (State.clearSlices s x2) := by
  unfold State.clearSlices
  repeat' first
    | with_reducible exact h
    | with_reducible assumption
    | (intro; try dsimp -zeta only)
    | with_reducible apply State.modLsl_keeps
    | with_reducible apply modSlice_keeps
    | (extract_lets +onlyGivenNames x; refine Keeps.cut x ?_ ?_; dsimp -zeta only [x]; clear x; rotate_left; intro hx; clear_value x; rotate_left)
    | extract_lets +onlyGivenNames x
    | with_reducible apply Keeps.ite
    | with_reducible apply forUp_keeps
    | decide
    | (split; all_goals (try dsimp -zeta only))
    | (dsimp +zetaDelta -zeta only)

theorem State.clearStaging_keeps {s0 s : State} (h : Keeps s0 s) {x2} :
    Keeps s0 (State.clearStaging s x2) := by
  unfold State.clearStaging
  repeat' first
    | with_reducible exact h
    | with_reducible assumption
    | (intro; try dsimp -zeta only)
    | with_reducible apply State.setStg_keeps
    | with_reducible apply Keeps.ite
    | with_reducible apply foldl_keeps
    | with_reducible apply foldl_snd_keeps
    | decide
    | (split; all_goals (try dsimp -zeta only))

theorem State.clearCounts_keeps {s0 s : State} (h : Keeps s0 s) {t : Nat} : Keeps s0 (State.clearCounts s t) := by
  have ha : ∀ f : Fld, f.base + f.off > 0x3004 → plainAddr (f.addr t 0) = true := by
    intro f hf
    simp only [plainAddr, List.contains_eq_mem, List.mem_cons, List.not_mem_nil, or_false, Bool.not_eq_true',
      decide_eq_false_iff_not, not_or, Fld.addr]
    omega
  unfold State.clearCounts
  simp only [List.foldl]
  exact setWord_keeps (setWord_keeps (setWord_keeps (setWord_keeps (setWord_keeps h (ha _ (by decide))) (ha _ (by decide)))
    (ha _ (by decide))) (ha _ (by decide))) (ha _ (by decide))

theorem State.tenantBack_keeps {s0 s : State} (h : Keeps s0 s) {x2} :
    Keeps s0 (State.tenantBack s x2) := by
  unfold State.tenantBack
  repeat' first
    | with_reducible exact h
    | with_reducible assumption
    | (intro; try dsimp -zeta only)
    | with_reducible apply fset_keeps
    | with_reducible apply setFlag_keeps
    | with_reducible apply State.raise_keeps
    | (extract_lets +onlyGivenNames x; refine Keeps.cut x ?_ ?_; dsimp -zeta only [x]; clear x; rotate_left; intro hx; clear_value x; rotate_left)
    | extract_lets +onlyGivenNames x
    | with_reducible apply Keeps.ite
    | decide
    | (split; all_goals (try dsimp -zeta only))
    | with_reducible apply tnsSet_keeps
    | (dsimp +zetaDelta -zeta only)

theorem State.tenantClear_keeps {s0 s : State} (h : Keeps s0 s) {x2} :
    Keeps s0 (State.tenantClear s x2) := by
  unfold State.tenantClear
  repeat' first
    | with_reducible exact h
    | with_reducible assumption
    | (intro; try dsimp -zeta only)
    | with_reducible apply State.vectorsClear_keeps
    | with_reducible apply setFlag_keeps
    | with_reducible apply State.raise_keeps
    | with_reducible apply State.setTFatal_keeps
    | with_reducible apply State.umvLog_keeps
    | with_reducible apply State.tenRegs_keeps
    | with_reducible apply State.applyOverlay_keeps
    | with_reducible apply State.stepStart_keeps
    | with_reducible apply State.clearSlices_keeps
    | with_reducible apply State.clearStaging_keeps
    | with_reducible apply State.clearCounts_keeps
    | with_reducible apply State.tenantBack_keeps
    | (extract_lets +onlyGivenNames x; refine Keeps.cut x ?_ ?_; dsimp -zeta only [x]; clear x; rotate_left; intro hx; clear_value x; rotate_left)
    | extract_lets +onlyGivenNames x
    | with_reducible apply Keeps.ite
    | decide
    | (split; all_goals (try dsimp -zeta only))
    | with_reducible apply tnsSet_keeps
    | (dsimp +zetaDelta -zeta only)

end Sys2Proof.Machine
end

