-- ==== Sys2Proof/Laws/KeepsUmevo.lean ====
section
/-!
SUPPORT. What the operations of Machine/Umevo.lean keep of a state (`Keeps`), one law each.
-/
namespace Sys2Proof.Machine
set_option linter.all false

theorem State.modUmv_keeps {s0 s : State} (h : Keeps s0 s) {x2} :
    Keeps s0 (State.modUmv s x2) := by
  unfold State.modUmv
  repeat' first
    | with_reducible exact h
    | with_reducible assumption
    | (intro; try dsimp -zeta only)
    | with_reducible apply Keeps.ite
    | decide
    | (split; all_goals (try dsimp -zeta only))
    | with_reducible apply umvSet_keeps

theorem State.cwdStart_keeps {s0 s : State} (h : Keeps s0 s) :
    Keeps s0 (State.cwdStart s) := by
  unfold State.cwdStart
  repeat' first
    | with_reducible exact h
    | with_reducible assumption
    | (intro; try dsimp -zeta only)
    | with_reducible apply State.modUmv_keeps
    | with_reducible apply Keeps.ite
    | decide
    | (split; all_goals (try dsimp -zeta only))

theorem State.healthyAgain_keeps {s0 s : State} (h : Keeps s0 s) :
    Keeps s0 (State.healthyAgain s) := by
  unfold State.healthyAgain
  repeat' first
    | with_reducible exact h
    | with_reducible assumption
    | (intro; try dsimp -zeta only)
    | with_reducible apply State.modUmv_keeps
    | with_reducible apply Keeps.ite
    | decide
    | (split; all_goals (try dsimp -zeta only))

theorem State.chainUp_keeps {s0 s : State} (h : Keeps s0 s) :
    Keeps s0 (State.chainUp s) := by
  unfold State.chainUp
  repeat' first
    | with_reducible exact h
    | with_reducible assumption
    | (intro; try dsimp -zeta only)
    | with_reducible apply State.modUmv_keeps
    | with_reducible apply Keeps.ite
    | decide
    | (split; all_goals (try dsimp -zeta only))

theorem State.umevoReset_keeps {s0 s : State} (h : Keeps s0 s) :
    Keeps s0 (State.umevoReset s) := by
  unfold State.umevoReset
  repeat' first
    | with_reducible exact h
    | with_reducible assumption
    | (intro; try dsimp -zeta only)
    | with_reducible apply fset_keeps
    | with_reducible apply State.patErr_keeps
    | with_reducible apply State.overlayAbandoned_keeps
    | with_reducible apply State.modUmv_keeps
    | (extract_lets +onlyGivenNames x; refine Keeps.cut x ?_ ?_; dsimp -zeta only [x]; clear x; rotate_left; intro hx; clear_value x; rotate_left)
    | extract_lets +onlyGivenNames x
    | with_reducible apply Keeps.ite
    | decide
    | (split; all_goals (try dsimp -zeta only))
    | with_reducible apply bootSet_keeps
    | (dsimp +zetaDelta -zeta only)

theorem State.cwdExpire_keeps {s0 s : State} (h : Keeps s0 s) {x2} :
    Keeps s0 (State.cwdExpire s x2) := by
  unfold State.cwdExpire
  repeat' first
    | with_reducible exact h
    | with_reducible assumption
    | (intro; try dsimp -zeta only)
    | with_reducible apply setFlag_keeps
    | with_reducible apply State.raise_keeps
    | with_reducible apply State.notice_keeps
    | with_reducible apply State.react_keeps
    | with_reducible apply State.enterSafe_keeps
    | with_reducible apply State.umvLog_keeps
    | with_reducible apply State.modUmv_keeps
    | with_reducible apply State.cwdStart_keeps
    | with_reducible apply State.healthyAgain_keeps
    | with_reducible apply State.chainUp_keeps
    | with_reducible apply State.umevoReset_keeps
    | (extract_lets +onlyGivenNames x; refine Keeps.cut x ?_ ?_; dsimp -zeta only [x]; clear x; rotate_left; intro hx; clear_value x; rotate_left)
    | extract_lets +onlyGivenNames x
    | with_reducible apply Keeps.ite
    | decide
    | (split; all_goals (try dsimp -zeta only))
    | (dsimp +zetaDelta -zeta only)

theorem State.cwdExpiry_keeps {s0 s : State} (h : Keeps s0 s) :
    Keeps s0 (State.cwdExpiry s) := by
  unfold State.cwdExpiry
  repeat' first
    | with_reducible exact h
    | with_reducible assumption
    | (intro; try dsimp -zeta only)
    | with_reducible apply until_keeps
    | with_reducible apply State.cwdExpire_keeps
    | with_reducible apply Keeps.ite
    | decide
    | (split; all_goals (try dsimp -zeta only))

theorem State.cwdReject_keeps {s0 s : State} (h : Keeps s0 s) :
    Keeps s0 (State.cwdReject s) := by
  unfold State.cwdReject
  repeat' first
    | with_reducible exact h
    | with_reducible assumption
    | (intro; try dsimp -zeta only)
    | with_reducible apply bump_keeps
    | with_reducible apply State.raise_keeps
    | with_reducible apply Keeps.ite
    | decide
    | (split; all_goals (try dsimp -zeta only))

theorem State.cwdOutside_keeps {s0 s : State} (h : Keeps s0 s) {x2} :
    Keeps s0 (State.cwdOutside s x2) := by
  unfold State.cwdOutside
  repeat' first
    | with_reducible exact h
    | with_reducible assumption
    | (intro; try dsimp -zeta only)
    | with_reducible apply State.cwdExpire_keeps
    | with_reducible apply Keeps.ite
    | decide
    | (split; all_goals (try dsimp -zeta only))

theorem State.cwdService_keeps {s0 s : State} (h : Keeps s0 s) {x2 x3} :
    Keeps s0 (State.cwdService s x2 x3) := by
  unfold State.cwdService
  repeat' first
    | with_reducible exact h
    | with_reducible assumption
    | (intro; try dsimp -zeta only)
    | with_reducible apply State.modUmv_keeps
    | with_reducible apply State.cwdStart_keeps
    | with_reducible apply State.cwdExpire_keeps
    | with_reducible apply State.cwdReject_keeps
    | with_reducible apply State.cwdOutside_keeps
    | with_reducible apply Keeps.ite
    | decide
    | (split; all_goals (try dsimp -zeta only))

theorem State.cwdCtl_keeps {s0 s : State} (h : Keeps s0 s) {x2 x3} :
    Keeps s0 (State.cwdCtl s x2 x3) := by
  unfold State.cwdCtl
  repeat' first
    | with_reducible exact h
    | with_reducible assumption
    | (intro; try dsimp -zeta only)
    | with_reducible apply fset_keeps
    | with_reducible apply State.cwdReject_keeps
    | with_reducible apply State.cwdOutside_keeps
    | (extract_lets +onlyGivenNames x; refine Keeps.cut x ?_ ?_; dsimp -zeta only [x]; clear x; rotate_left; intro hx; clear_value x; rotate_left)
    | extract_lets +onlyGivenNames x
    | with_reducible apply Keeps.ite
    | decide
    | (split; all_goals (try dsimp -zeta only))
    | (dsimp +zetaDelta -zeta only)

theorem State.healthyEnd_keeps {s0 s : State} (h : Keeps s0 s) :
    Keeps s0 (State.healthyEnd s) := by
  unfold State.healthyEnd
  repeat' first
    | with_reducible exact h
    | with_reducible assumption
    | (intro; try dsimp -zeta only)
    | with_reducible apply until_keeps
    | with_reducible apply State.modUmv_keeps
    | with_reducible apply Keeps.ite
    | decide
    | (split; all_goals (try dsimp -zeta only))

theorem State.swdStart_keeps {s0 s : State} (h : Keeps s0 s) :
    Keeps s0 (State.swdStart s) := by
  unfold State.swdStart
  repeat' first
    | with_reducible exact h
    | with_reducible assumption
    | (intro; try dsimp -zeta only)
    | with_reducible apply State.modUmv_keeps
    | with_reducible apply Keeps.ite
    | decide
    | (split; all_goals (try dsimp -zeta only))

theorem State.takeTrap_keeps {s0 s : State} (h : Keeps s0 s) :
    Keeps s0 (State.takeTrap s) := by
  unfold State.takeTrap
  repeat' first
    | with_reducible exact h
    | with_reducible assumption
    | (intro; try dsimp -zeta only)
    | with_reducible apply fset_keeps
    | with_reducible apply State.notice_keeps
    | with_reducible apply State.umvLog_keeps
    | with_reducible apply State.modUmv_keeps
    | (extract_lets +onlyGivenNames x; refine Keeps.cut x ?_ ?_; dsimp -zeta only [x]; clear x; rotate_left; intro hx; clear_value x; rotate_left)
    | extract_lets +onlyGivenNames x
    | with_reducible apply Keeps.ite
    | decide
    | (split; all_goals (try dsimp -zeta only))
    | (dsimp +zetaDelta -zeta only)

theorem State.swdExpire_keeps {s0 s : State} (h : Keeps s0 s) {x2} :
    Keeps s0 (State.swdExpire s x2) := by
  unfold State.swdExpire
  repeat' first
    | with_reducible exact h
    | with_reducible assumption
    | (intro; try dsimp -zeta only)
    | with_reducible apply setFlag_keeps
    | with_reducible apply State.raise_keeps
    | with_reducible apply State.modUmv_keeps
    | with_reducible apply State.healthyAgain_keeps
    | with_reducible apply State.takeTrap_keeps
    | (extract_lets +onlyGivenNames x; refine Keeps.cut x ?_ ?_; dsimp -zeta only [x]; clear x; rotate_left; intro hx; clear_value x; rotate_left)
    | extract_lets +onlyGivenNames x
    | with_reducible apply Keeps.ite
    | decide
    | (split; all_goals (try dsimp -zeta only))
    | (dsimp +zetaDelta -zeta only)

theorem State.swdExpiry_keeps {s0 s : State} (h : Keeps s0 s) :
    Keeps s0 (State.swdExpiry s) := by
  unfold State.swdExpiry
  repeat' first
    | with_reducible exact h
    | with_reducible assumption
    | (intro; try dsimp -zeta only)
    | with_reducible apply until_keeps
    | with_reducible apply State.swdExpire_keeps
    | with_reducible apply Keeps.ite
    | decide
    | (split; all_goals (try dsimp -zeta only))

theorem State.swdService_keeps {s0 s : State} (h : Keeps s0 s) {x2 x3} :
    Keeps s0 (State.swdService s x2 x3) := by
  unfold State.swdService
  repeat' first
    | with_reducible exact h
    | with_reducible assumption
    | (intro; try dsimp -zeta only)
    | with_reducible apply bump_keeps
    | with_reducible apply State.raise_keeps
    | with_reducible apply State.swdStart_keeps
    | with_reducible apply State.swdExpire_keeps
    | with_reducible apply Keeps.ite
    | decide
    | (split; all_goals (try dsimp -zeta only))

theorem State.swdHardEnd_keeps {s0 s : State} (h : Keeps s0 s) :
    Keeps s0 (State.swdHardEnd s) := by
  unfold State.swdHardEnd
  repeat' first
    | with_reducible exact h
    | with_reducible assumption
    | (intro; try dsimp -zeta only)
    | with_reducible apply fset_keeps
    | with_reducible apply until_keeps
    | with_reducible apply State.notice_keeps
    | with_reducible apply State.react_keeps
    | with_reducible apply State.enterSafe_keeps
    | with_reducible apply State.modUmv_keeps
    | with_reducible apply State.chainUp_keeps
    | with_reducible apply State.swdStart_keeps
    | (extract_lets +onlyGivenNames x; refine Keeps.cut x ?_ ?_; dsimp -zeta only [x]; clear x; rotate_left; intro hx; clear_value x; rotate_left)
    | extract_lets +onlyGivenNames x
    | with_reducible apply Keeps.ite
    | decide
    | (split; all_goals (try dsimp -zeta only))
    | (dsimp +zetaDelta -zeta only)

theorem State.umvHalt_keeps {s0 s : State} (h : Keeps s0 s) :
    Keeps s0 (State.umvHalt s) := by
  unfold State.umvHalt
  repeat' first
    | with_reducible exact h
    | with_reducible assumption
    | (intro; try dsimp -zeta only)
    | with_reducible apply fset_keeps
    | with_reducible apply State.modUmv_keeps
    | with_reducible apply Keeps.ite
    | decide
    | (split; all_goals (try dsimp -zeta only))

theorem State.umvResume_keeps {s0 s : State} (h : Keeps s0 s) :
    Keeps s0 (State.umvResume s) := by
  unfold State.umvResume
  repeat' first
    | with_reducible exact h
    | with_reducible assumption
    | (intro; try dsimp -zeta only)
    | with_reducible apply fset_keeps
    | with_reducible apply State.modUmv_keeps
    | with_reducible apply State.takeTrap_keeps
    | (extract_lets +onlyGivenNames x; refine Keeps.cut x ?_ ?_; dsimp -zeta only [x]; clear x; rotate_left; intro hx; clear_value x; rotate_left)
    | extract_lets +onlyGivenNames x
    | with_reducible apply Keeps.ite
    | decide
    | (split; all_goals (try dsimp -zeta only))
    | (dsimp +zetaDelta -zeta only)

end Sys2Proof.Machine
end

