-- ==== Sys2Proof/Laws/KeepsTime.lean ====
section
/-!
SUPPORT. What the operations of Machine/Time.lean keep of a state (`Keeps`), one law each.
-/
namespace Sys2Proof.Machine
set_option linter.all false

theorem State.setLocked_keeps {s0 s : State} (h : Keeps s0 s) {x2} :
    Keeps s0 (State.setLocked s x2) := by
  unfold State.setLocked
  repeat' first
    | with_reducible exact h
    | with_reducible assumption
    | (intro; try dsimp -zeta only)
    | with_reducible apply setFlag_keeps
    | with_reducible apply Keeps.ite
    | decide
    | (split; all_goals (try dsimp -zeta only))

theorem State.holdover_keeps {s0 s : State} (h : Keeps s0 s) :
    Keeps s0 (State.holdover s) := by
  unfold State.holdover
  repeat' first
    | with_reducible exact h
    | with_reducible assumption
    | (intro; try dsimp -zeta only)
    | with_reducible apply State.setLocked_keeps
    | with_reducible apply Keeps.ite
    | decide
    | (split; all_goals (try dsimp -zeta only))
    | with_reducible apply tbSet_keeps

theorem State.sourceChanged_keeps {s0 s : State} (h : Keeps s0 s) :
    Keeps s0 (State.sourceChanged s) := by
  unfold State.sourceChanged
  repeat' first
    | with_reducible exact h
    | with_reducible assumption
    | (intro; try dsimp -zeta only)
    | with_reducible apply State.setLocked_keeps
    | with_reducible apply Keeps.ite
    | decide
    | (split; all_goals (try dsimp -zeta only))
    | with_reducible apply tbSet_keeps

theorem State.timSet_keeps {s0 s : State} (h : Keeps s0 s) {x2} :
    Keeps s0 (State.timSet s x2) := by
  unfold State.timSet
  repeat' first
    | with_reducible exact h
    | with_reducible assumption
    | (intro; try dsimp -zeta only)
    | with_reducible apply setFlag_keeps
    | (extract_lets +onlyGivenNames x; refine Keeps.cut x ?_ ?_; dsimp -zeta only [x]; clear x; rotate_left; intro hx; clear_value x; rotate_left)
    | extract_lets +onlyGivenNames x
    | with_reducible apply Keeps.ite
    | decide
    | (split; all_goals (try dsimp -zeta only))
    | with_reducible apply nowSet_keeps
    | (dsimp +zetaDelta -zeta only)

theorem State.timLatch_keeps {s0 s : State} (h : Keeps s0 s) :
    Keeps s0 (State.timLatch s).2 := by
  unfold State.timLatch
  repeat' first
    | with_reducible exact h
    | with_reducible assumption
    | (intro; try dsimp -zeta only)
    | with_reducible apply fset_keeps
    | (extract_lets +onlyGivenNames x; refine Keeps.cut x ?_ ?_; dsimp -zeta only [x]; clear x; rotate_left; intro hx; clear_value x; rotate_left)
    | extract_lets +onlyGivenNames x
    | with_reducible apply Keeps.ite
    | decide
    | (split; all_goals (try dsimp -zeta only))
    | (dsimp +zetaDelta -zeta only)

theorem State.trimStep_keeps {s0 s : State} (h : Keeps s0 s) :
    Keeps s0 (State.trimStep s) := by
  unfold State.trimStep
  repeat' first
    | with_reducible exact h
    | with_reducible assumption
    | (intro; try dsimp -zeta only)
    | with_reducible apply fset_keeps
    | with_reducible apply draw_keeps
    | (extract_lets +onlyGivenNames x; refine Keeps.cut x ?_ ?_; dsimp -zeta only [x]; clear x; rotate_left; intro hx; clear_value x; rotate_left)
    | extract_lets +onlyGivenNames x
    | with_reducible apply Keeps.ite
    | decide
    | (split; all_goals (try dsimp -zeta only))
    | (dsimp +zetaDelta -zeta only)

theorem State.servo_keeps {s0 s : State} (h : Keeps s0 s) {x2} :
    Keeps s0 (State.servo s x2) := by
  unfold State.servo
  repeat' first
    | with_reducible exact h
    | with_reducible assumption
    | (intro; try dsimp -zeta only)
    | with_reducible apply State.setLocked_keeps
    | with_reducible apply State.trimStep_keeps
    | (extract_lets +onlyGivenNames x; refine Keeps.cut x ?_ ?_; dsimp -zeta only [x]; clear x; rotate_left; intro hx; clear_value x; rotate_left)
    | extract_lets +onlyGivenNames x
    | with_reducible apply Keeps.ite
    | decide
    | (split; all_goals (try dsimp -zeta only))
    | with_reducible apply nowtbSet_keeps
    | with_reducible apply tbSet_keeps
    | (dsimp +zetaDelta -zeta only)

theorem State.refEvent_keeps {s0 s : State} (h : Keeps s0 s) {x2} :
    Keeps s0 (State.refEvent s x2) := by
  unfold State.refEvent
  repeat' first
    | with_reducible exact h
    | with_reducible assumption
    | (intro; try dsimp -zeta only)
    | with_reducible apply fset_keeps
    | with_reducible apply bump_keeps
    | with_reducible apply State.setLocked_keeps
    | with_reducible apply State.servo_keeps
    | (extract_lets +onlyGivenNames x; refine Keeps.cut x ?_ ?_; dsimp -zeta only [x]; clear x; rotate_left; intro hx; clear_value x; rotate_left)
    | extract_lets +onlyGivenNames x
    | with_reducible apply Keeps.ite
    | decide
    | (split; all_goals (try dsimp -zeta only))
    | with_reducible apply tbSet_keeps
    | (dsimp +zetaDelta -zeta only)

theorem State.ppsEdge_keeps {s0 s : State} (h : Keeps s0 s) :
    Keeps s0 (State.ppsEdge s) := by
  unfold State.ppsEdge
  repeat' first
    | with_reducible exact h
    | with_reducible assumption
    | (intro; try dsimp -zeta only)
    | with_reducible apply fset_keeps
    | with_reducible apply setFlag_keeps
    | with_reducible apply bump_keeps
    | with_reducible apply State.refEvent_keeps
    | (extract_lets +onlyGivenNames x; refine Keeps.cut x ?_ ?_; dsimp -zeta only [x]; clear x; rotate_left; intro hx; clear_value x; rotate_left)
    | extract_lets +onlyGivenNames x
    | with_reducible apply Keeps.ite
    | decide
    | (split; all_goals (try dsimp -zeta only))
    | with_reducible apply tbSet_keeps
    | (dsimp +zetaDelta -zeta only)

theorem State.ppsMiss_keeps {s0 s : State} (h : Keeps s0 s) :
    Keeps s0 (State.ppsMiss s) := by
  unfold State.ppsMiss
  repeat' first
    | with_reducible exact h
    | with_reducible assumption
    | (intro; try dsimp -zeta only)
    | with_reducible apply setFlag_keeps
    | with_reducible apply until_keeps
    | with_reducible apply State.holdover_keeps
    | with_reducible apply Keeps.ite
    | decide
    | (split; all_goals (try dsimp -zeta only))

theorem State.syncReject_keeps {s0 s : State} (h : Keeps s0 s) :
    Keeps s0 (State.syncReject s) := by
  unfold State.syncReject
  repeat' first
    | with_reducible exact h
    | with_reducible assumption
    | (intro; try dsimp -zeta only)
    | with_reducible apply setFlag_keeps
    | with_reducible apply bump_keeps
    | with_reducible apply State.holdover_keeps
    | (extract_lets +onlyGivenNames x; refine Keeps.cut x ?_ ?_; dsimp -zeta only [x]; clear x; rotate_left; intro hx; clear_value x; rotate_left)
    | extract_lets +onlyGivenNames x
    | with_reducible apply Keeps.ite
    | decide
    | (split; all_goals (try dsimp -zeta only))
    | with_reducible apply tbSet_keeps
    | (dsimp +zetaDelta -zeta only)

theorem State.syncInterval_keeps {s0 s : State} (h : Keeps s0 s) :
    Keeps s0 (State.syncInterval s) := by
  unfold State.syncInterval
  repeat' first
    | with_reducible exact h
    | with_reducible assumption
    | (intro; try dsimp -zeta only)
    | with_reducible apply State.sendOn_keeps
    | with_reducible apply until_keeps
    | with_reducible apply State.syncReject_keeps
    | (extract_lets +onlyGivenNames x; refine Keeps.cut x ?_ ?_; dsimp -zeta only [x]; clear x; rotate_left; intro hx; clear_value x; rotate_left)
    | extract_lets +onlyGivenNames x
    | with_reducible apply Keeps.ite
    | decide
    | (split; all_goals (try dsimp -zeta only))
    | with_reducible apply tbSet_keeps
    | (dsimp +zetaDelta -zeta only)

theorem State.syncRequest_keeps {s0 s : State} (h : Keeps s0 s) {x2 x3} :
    Keeps s0 (State.syncRequest s x2 x3) := by
  unfold State.syncRequest
  repeat' first
    | with_reducible exact h
    | with_reducible assumption
    | (intro; try dsimp -zeta only)
    | with_reducible apply State.msgCase_keeps
    | with_reducible apply State.sendOn_keeps
    | (extract_lets +onlyGivenNames x; refine Keeps.cut x ?_ ?_; dsimp -zeta only [x]; clear x; rotate_left; intro hx; clear_value x; rotate_left)
    | extract_lets +onlyGivenNames x
    | with_reducible apply Keeps.ite
    | decide
    | (split; all_goals (try dsimp -zeta only))
    | (dsimp +zetaDelta -zeta only)

theorem State.syncResponse_keeps {s0 s : State} (h : Keeps s0 s) {x2 x3} :
    Keeps s0 (State.syncResponse s x2 x3) := by
  unfold State.syncResponse
  repeat' first
    | with_reducible exact h
    | with_reducible assumption
    | (intro; try dsimp -zeta only)
    | with_reducible apply State.msgCase_keeps
    | with_reducible apply fset_keeps
    | with_reducible apply setFlag_keeps
    | with_reducible apply State.refEvent_keeps
    | with_reducible apply State.syncReject_keeps
    | (extract_lets +onlyGivenNames x; refine Keeps.cut x ?_ ?_; dsimp -zeta only [x]; clear x; rotate_left; intro hx; clear_value x; rotate_left)
    | extract_lets +onlyGivenNames x
    | with_reducible apply Keeps.ite
    | with_reducible apply foldl_keeps
    | with_reducible apply foldl_snd_keeps
    | decide
    | (split; all_goals (try dsimp -zeta only))
    | with_reducible apply tbSet_keeps
    | (dsimp +zetaDelta -zeta only)

theorem State.timeSync_keeps {s0 s : State} (h : Keeps s0 s) {x2 x3} :
    Keeps s0 (State.timeSync s x2 x3) := by
  unfold State.timeSync
  repeat' first
    | with_reducible exact h
    | with_reducible assumption
    | (intro; try dsimp -zeta only)
    | with_reducible apply State.syncRequest_keeps
    | with_reducible apply State.syncResponse_keeps
    | with_reducible apply Keeps.ite
    | decide
    | (split; all_goals (try dsimp -zeta only))

theorem State.refLoss_keeps {s0 s : State} (h : Keeps s0 s) :
    Keeps s0 (State.refLoss s) := by
  unfold State.refLoss
  repeat' first
    | with_reducible exact h
    | with_reducible assumption
    | (intro; try dsimp -zeta only)
    | with_reducible apply State.portDown_keeps
    | with_reducible apply setFlag_keeps
    | with_reducible apply State.raiseSafety_keeps
    | with_reducible apply State.corrected_keeps
    | with_reducible apply State.holdover_keeps
    | (extract_lets +onlyGivenNames x; refine Keeps.cut x ?_ ?_; dsimp -zeta only [x]; clear x; rotate_left; intro hx; clear_value x; rotate_left)
    | extract_lets +onlyGivenNames x
    | with_reducible apply Keeps.ite
    | with_reducible apply forUp_keeps
    | decide
    | (split; all_goals (try dsimp -zeta only))
    | (dsimp +zetaDelta -zeta only)

theorem State.refReturn_keeps {s0 s : State} (h : Keeps s0 s) :
    Keeps s0 (State.refReturn s) := by
  unfold State.refReturn
  repeat' first
    | with_reducible exact h
    | with_reducible assumption
    | (intro; try dsimp -zeta only)
    | with_reducible apply State.startPortReset_keeps
    | with_reducible apply setFlag_keeps
    | with_reducible apply Keeps.ite
    | with_reducible apply forUp_keeps
    | decide
    | (split; all_goals (try dsimp -zeta only))

end Sys2Proof.Machine
end

