-- ==== Sys2Proof/Laws/KeepsReset.lean ====
section
/-!
SUPPORT. What the operations of Machine/Reset.lean keep of a state (`Keeps`), one law each.
-/
namespace Sys2Proof.Machine
set_option linter.all false

theorem State.safeReact_keeps {s0 s : State} (h : Keeps s0 s) :
    Keeps s0 (State.safeReact s) := by
  unfold State.safeReact
  repeat' first
    | with_reducible exact h
    | with_reducible assumption
    | (intro; try dsimp -zeta only)
    | with_reducible apply State.clampQuiesce_keeps
    | with_reducible apply State.jigDisarmAll_keeps
    | with_reducible apply State.react_keeps
    | with_reducible apply State.answerWaiting_keeps
    | with_reducible apply State.discardPort_keeps
    | with_reducible apply State.answerFences_keeps
    | (extract_lets +onlyGivenNames x; refine Keeps.cut x ?_ ?_; dsimp -zeta only [x]; clear x; rotate_left; intro hx; clear_value x; rotate_left)
    | extract_lets +onlyGivenNames x
    | with_reducible apply Keeps.ite
    | with_reducible apply forUp_keeps
    | decide
    | (split; all_goals (try dsimp -zeta only))
    | (dsimp +zetaDelta -zeta only)

theorem State.coldReset_keeps {s0 s : State} (h : Keeps s0 s) : Keeps s0 (State.coldReset s) := by
  have e8 : s.coldReset.word 8 = 0x7F0C0012 := rfl
  refine h.trans ⟨rfl, fun _ => ⟨rfl, rfl, by rw [e8]; decide, by rw [e8]; decide⟩, fun _ => ?_, fun _ hp => Bool.noConfusion (show true = false from hp), fun _ => ⟨SpCanon.nil _, ?_⟩, fun _ => ?_, fun _ => ?_,
    fun _ e he => ?_⟩
  · exact ⟨SpCanon.nil _, SpCanon.nil _, SpCanon.nil _, SpCanon.nil _, SpCanon.nil _, SpCanon.nil _, SpCanon.nil _,
      SpCanon.nil _, SpCanon.nil _, SpCanon.nil _, SpCanon.nil _, SpCanon.nil _⟩
  · have e : s.coldReset.lifecycle = 0 := by
      show getBits (0 : Word) 8 2 = 0
      decide
    rw [e]; exact Nat.zero_le _
  · exact Nat.zero_le _
  · exact Nat.zero_le _
  · cases he

theorem State.watchdogsBoot_keeps {s0 s : State} (h : Keeps s0 s) :
    Keeps s0 (State.watchdogsBoot s) := by
  unfold State.watchdogsBoot
  repeat' first
    | with_reducible exact h
    | with_reducible assumption
    | (intro; try dsimp -zeta only)
    | with_reducible apply fset_keeps
    | with_reducible apply State.modUmv_keeps
    | with_reducible apply State.cwdStart_keeps
    | (extract_lets +onlyGivenNames x; refine Keeps.cut x ?_ ?_; dsimp -zeta only [x]; clear x; rotate_left; intro hx; clear_value x; rotate_left)
    | extract_lets +onlyGivenNames x
    | with_reducible apply Keeps.ite
    | decide
    | (split; all_goals (try dsimp -zeta only))
    | (dsimp +zetaDelta -zeta only)

theorem State.flushSlice_keeps {s0 s : State} (h : Keeps s0 s) {x2 x3} :
    Keeps s0 (State.flushSlice s x2 x3) := by
  unfold State.flushSlice
  repeat' first
    | with_reducible exact h
    | with_reducible assumption
    | (intro; try dsimp -zeta only)
    | with_reducible apply State.readSub_keeps
    | with_reducible apply State.sendMemWr_keeps
    | (extract_lets +onlyGivenNames x; refine Keeps.cut x ?_ ?_; dsimp -zeta only [x]; clear x; rotate_left; intro hx; clear_value x; rotate_left)
    | extract_lets +onlyGivenNames x
    | with_reducible apply Keeps.ite
    | with_reducible apply forUp_keeps
    | with_reducible apply foldl_keeps
    | with_reducible apply foldl_snd_keeps
    | decide
    | (split; all_goals (try dsimp -zeta only))
    | (dsimp +zetaDelta -zeta only)

theorem State.warmReset_keeps {s0 s : State} (h : Keeps s0 s) : Keeps s0 (State.warmReset s) := by
  unfold State.warmReset
  split
  · exact h
  · extract_lets b _ s1 s2 s3 s4 s5
    have h1 : Keeps s0 s1 :=
      (pinSet_keeps h).same rfl rfl rfl rfl rfl rfl ⟨rfl, rfl, rfl, rfl, rfl, rfl, rfl, rfl, rfl, rfl⟩
    have p1 : s1.safePin = true := rfl
    clear_value s1
    have h2 : Keeps s0 s2 := State.watchdogsBoot_keeps (fset_keeps (fset_keeps_pinned h1 p1 (by decide)) (by decide))
    clear_value s2
    have h3 : Keeps s0 s3 := forUp_keeps h2 (fun k u hu => modSlice_keeps hu)
    have h4 : Keeps s0 s4 := forUp_keeps h3 (fun k u hu => modPort_keeps hu)
    have h5 : Keeps s0 s5 := forUp_keeps h4 (fun k u hu => State.clampClear_keeps hu)
    exact foldl_keeps h5 (fun u a hu => State.flushSlice_keeps hu)

theorem State.loseFlushed_keeps {s0 s : State} (h : Keeps s0 s) {x2} :
    Keeps s0 (State.loseFlushed s x2) := by
  unfold State.loseFlushed
  repeat' first
    | with_reducible exact h
    | with_reducible assumption
    | (intro; try dsimp -zeta only)
    | with_reducible apply fset_keeps
    | with_reducible apply setFlag_keeps
    | with_reducible apply bump_keeps
    | with_reducible apply State.fatal_keeps
    | (extract_lets +onlyGivenNames x; refine Keeps.cut x ?_ ?_; dsimp -zeta only [x]; clear x; rotate_left; intro hx; clear_value x; rotate_left)
    | extract_lets +onlyGivenNames x
    | with_reducible apply Keeps.ite
    | decide
    | (split; all_goals (try dsimp -zeta only))
    | (dsimp +zetaDelta -zeta only)

theorem State.warmPort_keeps {s0 s : State} (h : Keeps s0 s) {x2} :
    Keeps s0 (State.warmPort s x2) := by
  unfold State.warmPort
  repeat' first
    | with_reducible exact h
    | with_reducible assumption
    | (intro; try dsimp -zeta only)
    | with_reducible apply State.txNotice_keeps
    | with_reducible apply setPort_keeps
    | with_reducible apply modPort_keeps
    | (extract_lets +onlyGivenNames x; refine Keeps.cut x ?_ ?_; dsimp -zeta only [x]; clear x; rotate_left; intro hx; clear_value x; rotate_left)
    | extract_lets +onlyGivenNames x
    | with_reducible apply Keeps.ite
    | with_reducible apply forUp_keeps
    | decide
    | (split; all_goals (try dsimp -zeta only))
    | (dsimp +zetaDelta -zeta only)

/-- A register that a warm reset keeps nothing of reads as its reset value afterwards. -/
theorem warmRegs_lost (l : Sp Word) (a : Nat) (h : keptBits (warmKept ++ rwsKept) a = 0) :
    spGet (regInit a) (warmRegs l) a = regInit a := by
  induction l with
  | nil => rfl
  | cons e t ih =>
    unfold warmRegs at ih ⊢
    rw [List.filterMap_cons]
    dsimp only
    split
    · exact ih
    · rename_i b hb
      split at hb
      · cases hb
      · rename_i hv
        cases hb
        by_cases he : e.1 = a
        · exfalso; apply hv; rw [he, h]
          show (regInit a &&& ~~~(0#32)) ||| (e.2 &&& 0#32) = regInit a
          rw [show ~~~(0#32) = BitVec.allOnes 32 from rfl, BitVec.and_allOnes, BitVec.and_zero, BitVec.or_zero]
        · simp only [spGet, he, if_false]; exact ih

/-- The canonical form stays through a warm reset, and so do the kept bits. -/
theorem warmRegs_canon (l : Sp Word) (h : SpCanon regInit l) : SpCanon regInit (warmRegs l) := by
  obtain ⟨h1, _⟩ := h
  refine ⟨?_, fun e he => ?_⟩
  · have key : ∀ (l : Sp Word) (lo : Option Nat), spRising lo l = true → spRising lo (warmRegs l) = true := by
      intro l
      induction l with
      | nil => intro lo _; rfl
      | cons e t ih =>
        intro lo hl
        obtain ⟨i, v⟩ := e
        simp only [spRising, Bool.and_eq_true] at hl
        unfold warmRegs at ih ⊢
        rw [List.filterMap_cons]
        dsimp only
        split
        · refine ih lo ?_
          cases lo with
          | none => exact spRising_none hl.2
          | some j => exact spRising_weaken j i (by have := hl.1; simp at this; omega) t hl.2
        · rename_i b hb
          split at hb
          · cases hb
          · cases hb
            simp only [spRising, Bool.and_eq_true]
            exact ⟨hl.1, ih _ hl.2⟩
    exact key l none h1
  · unfold warmRegs at he
    obtain ⟨x, _, hx⟩ := List.mem_filterMap.1 he
    dsimp only at hx
    split at hx
    · cases hx
    · rename_i hv; cases hx; exact hv

theorem warmRegs_get (l : Sp Word) (h : SpCanon regInit l) (a : Nat) :
    spGet (regInit a) (warmRegs l) a =
      (regInit a &&& ~~~(keptBits (warmKept ++ rwsKept) a)) ||| (spGet (regInit a) l a &&& keptBits (warmKept ++ rwsKept) a) := by
  obtain ⟨h1, _⟩ := h
  have hfix : ∀ m : Word, (regInit a &&& ~~~m) ||| (regInit a &&& m) = regInit a := by
    intro m
    ext i hi
    simp only [BitVec.getElem_or, BitVec.getElem_and, BitVec.getElem_not]
    cases (regInit a)[i] <;> cases m[i] <;> rfl
  have low : ∀ (t : Sp Word) (i : Nat), spRising (some i) t = true → a ≤ i → spGet (regInit a) t a = regInit a ∧
      spGet (regInit a) (warmRegs t) a = regInit a := by
    intro t
    induction t with
    | nil => intro i _ _; exact ⟨rfl, rfl⟩
    | cons e t ih =>
      intro i ht hai
      obtain ⟨j, w⟩ := e
      simp only [spRising, Bool.and_eq_true, decide_eq_true_eq] at ht
      obtain ⟨p, q⟩ := ih j ht.2 (by omega)
      have hj : j ≠ a := by omega
      refine ⟨by simp only [spGet, hj, if_false]; exact p, ?_⟩
      unfold warmRegs at q ⊢
      rw [List.filterMap_cons]
      dsimp only
      split
      · exact q
      · rename_i b hb
        split at hb
        · cases hb
        · cases hb; simp only [spGet, hj, if_false]; exact q
  have key : ∀ (l : Sp Word) (lo : Option Nat), spRising lo l = true → spGet (regInit a) (warmRegs l) a =
      (regInit a &&& ~~~(keptBits (warmKept ++ rwsKept) a)) ||| (spGet (regInit a) l a &&& keptBits (warmKept ++ rwsKept) a) := by
    intro l
    induction l with
    | nil => intro lo _; exact (hfix _).symm
    | cons e t ih =>
      intro lo hl
      obtain ⟨j, w⟩ := e
      simp only [spRising, Bool.and_eq_true] at hl
      have ih' := ih (some j) hl.2
      by_cases hj : j = a
      · subst hj
        obtain ⟨p, q⟩ := low t j hl.2 (Nat.le_refl _)
        unfold warmRegs at q ⊢
        rw [List.filterMap_cons]
        dsimp only
        split
        · rename_i hb
          split at hb
          · rename_i hv
            rw [q]; simp only [spGet, if_true]; exact hv.symm
          · cases hb
        · rename_i b hb
          split at hb
          · cases hb
          · cases hb; simp only [spGet, if_true]
      · unfold warmRegs at ih' ⊢
        rw [List.filterMap_cons]
        dsimp only
        split
        · rw [ih']; simp only [spGet, hj, if_false]
        · rename_i b hb
          split at hb
          · cases hb
          · cases hb; simp only [spGet, hj, if_false]; exact ih'
  exact key l none h1

/-- The slices after a warm reset are a list in canonical form. -/
theorem warmSlices_canon (s : State) : SpCanon (fun _ => Slice.zero) ((List.range 18).map (fun k =>
    (k, { Slice.zero with sfRet := (s.slice k).sfRet, hcRet := (s.slice k).hcRet, allLoose := true }))) := by
  rw [← List.filterMap_eq_map]
  refine SpCanon.ofRange 18 _ (fun k e he => ?_)
  cases he
  refine ⟨rfl, fun e => ?_⟩
  have := congrArg Slice.allLoose e
  exact Bool.noConfusion (show true = false from this)

theorem State.warmClear_keeps {s0 s : State} (h : Keeps s0 s) : Keeps s0 (State.warmClear s) := by
  unfold State.warmClear
  extract_lets _ _ _ _ _ _ s1 s2 s3
  have h1 : Keeps s0 s1 := by
    refine h.trans ⟨rfl, fun _ => ?_, fun x => ?_, fun _ hp => Bool.noConfusion (show true = false from hp), fun x => ?_,
      fun x => x, fun x => x, fun _ e he => by cases he⟩
    · have e : ∀ a, keptBits (warmKept ++ rwsKept) a = 0 → s1.word a = regInit a := fun a ha => warmRegs_lost s.regs a ha
      rw [State.idsHold, e 0 (by decide), e 4 (by decide), e 8 (by decide)]
      decide
    · exact ⟨warmRegs_canon _ x.regs, SpCanon.nil _, x.roles.filter _, SpCanon.nil _, SpCanon.nil _, x.ports, warmSlices_canon s,
        SpCanon.nil _, x.banks, SpCanon.nil _, x.vectors, SpCanon.nil _⟩
    · refine ⟨warmRegs_canon _ x.1, ?_⟩
      have e := warmRegs_get s.regs x.1 0x1000
      have e2 : s1.lifecycle = s.lifecycle := by
        show getBits (spGet (regInit 0x1000) (warmRegs s.regs) 0x1000) 8 2 = getBits (spGet (regInit 0x1000) s.regs 0x1000) 8 2
        rw [e]
        have hk : keptBits (warmKept ++ rwsKept) 0x1000 = 0x300 := by decide
        have hi : regInit 0x1000 = 0 := by decide
        rw [hk, hi]
        generalize spGet (0 : Word) s.regs 0x1000 = v
        apply Nat.eq_of_testBit_eq
        intro i
        rw [testBit_getBits, testBit_getBits]
        by_cases h0 : i = 0
        · subst h0; simp
        · by_cases h1 : i = 1
          · subst h1; simp
          · have : ¬ i < 2 := by omega
            simp [this]
      rw [e2]; exact x.2
  clear_value s1
  have h2 : Keeps s0 s2 := State.vectorsWarm_keeps (bump_keeps (fset_keeps h1 (by decide)) (by decide))
  clear_value s2
  have h3 : Keeps s0 s3 := Keeps.ite (lcSet_keeps h2 (by decide)) h2
  exact fset_keeps (setFlag_keeps h3 (by decide)) (by decide)

theorem State.warmFlushEnd_keeps {s0 s : State} (h : Keeps s0 s) :
    Keeps s0 (State.warmFlushEnd s) := by
  unfold State.warmFlushEnd
  repeat' first
    | with_reducible exact h
    | with_reducible assumption
    | (intro; try dsimp -zeta only)
    | with_reducible apply until_keeps
    | with_reducible apply State.loseFlushed_keeps
    | with_reducible apply State.warmPort_keeps
    | with_reducible apply State.warmClear_keeps
    | (extract_lets +onlyGivenNames x; refine Keeps.cut x ?_ ?_; dsimp -zeta only [x]; clear x; rotate_left; intro hx; clear_value x; rotate_left)
    | extract_lets +onlyGivenNames x
    | with_reducible apply Keeps.ite
    | with_reducible apply forUp_keeps
    | with_reducible apply foldl_keeps
    | with_reducible apply foldl_snd_keeps
    | decide
    | (split; all_goals (try dsimp -zeta only))
    | (dsimp +zetaDelta -zeta only)

theorem State.wrstAssert_keeps {s0 s : State} (h : Keeps s0 s) :
    Keeps s0 (State.wrstAssert s) := by
  unfold State.wrstAssert
  repeat' first
    | with_reducible exact h
    | with_reducible assumption
    | (intro; try dsimp -zeta only)
    | with_reducible apply State.warmReset_keeps
    | with_reducible apply Keeps.ite
    | decide
    | (split; all_goals (try dsimp -zeta only))
    | with_reducible apply bootSet_keeps

theorem State.wrstDeassert_keeps {s0 s : State} (h : Keeps s0 s) :
    Keeps s0 (State.wrstDeassert s) := by
  unfold State.wrstDeassert
  repeat' first
    | with_reducible exact h
    | with_reducible assumption
    | (intro; try dsimp -zeta only)
    | (extract_lets +onlyGivenNames x; refine Keeps.cut x ?_ ?_; dsimp -zeta only [x]; clear x; rotate_left; intro hx; clear_value x; rotate_left)
    | extract_lets +onlyGivenNames x
    | with_reducible apply Keeps.ite
    | decide
    | (split; all_goals (try dsimp -zeta only))
    | with_reducible apply bootSet_keeps
    | (dsimp +zetaDelta -zeta only)

theorem State.testEnAssert_keeps {s0 s : State} (h : Keeps s0 s) :
    Keeps s0 (State.testEnAssert s) := by
  unfold State.testEnAssert
  repeat' first
    | with_reducible exact h
    | with_reducible assumption
    | (intro; try dsimp -zeta only)
    | with_reducible apply State.warmReset_keeps
    | with_reducible apply Keeps.ite
    | decide
    | (split; all_goals (try dsimp -zeta only))
    | with_reducible apply bootSet_keeps

theorem State.testEnDeassert_keeps {s0 s : State} (h : Keeps s0 s) :
    Keeps s0 (State.testEnDeassert s) := by
  unfold State.testEnDeassert
  repeat' first
    | with_reducible exact h
    | with_reducible assumption
    | (intro; try dsimp -zeta only)
    | with_reducible apply Keeps.ite
    | decide
    | (split; all_goals (try dsimp -zeta only))
    | with_reducible apply bootSet_keeps

end Sys2Proof.Machine
end

