-- ==== Sys2Proof/Laws/KeepsBoot.lean ====
section
/-!
SUPPORT. What the operations of Machine/Boot.lean keep of a state (`Keeps`), one law each.
-/
namespace Sys2Proof.Machine
set_option linter.all false

theorem State.modBoot_keeps {s0 s : State} (h : Keeps s0 s) {x2} :
    Keeps s0 (State.modBoot s x2) := by
  unfold State.modBoot
  repeat' first
    | with_reducible exact h
    | with_reducible assumption
    | (intro; try dsimp -zeta only)
    | with_reducible apply Keeps.ite
    | decide
    | (split; all_goals (try dsimp -zeta only))
    | with_reducible apply bootSet_keeps

theorem State.bootStep_keeps {s0 s : State} (h : Keeps s0 s) {x2} :
    Keeps s0 (State.bootStep s x2) := by
  unfold State.bootStep
  repeat' first
    | with_reducible exact h
    | with_reducible assumption
    | (intro; try dsimp -zeta only)
    | with_reducible apply fset_keeps
    | with_reducible apply Keeps.ite
    | decide
    | (split; all_goals (try dsimp -zeta only))

theorem State.rstNDeassert_keeps {s0 s : State} (h : Keeps s0 s) {x2 x3} :
    Keeps s0 (State.rstNDeassert s x2 x3) := by
  unfold State.rstNDeassert
  repeat' first
    | with_reducible exact h
    | with_reducible assumption
    | (intro; try dsimp -zeta only)
    | with_reducible apply State.modBoot_keeps
    | with_reducible apply State.bootStep_keeps
    | with_reducible apply fset_keeps
    | with_reducible apply setFlag_keeps
    | with_reducible apply State.cwdStart_keeps
    | (extract_lets +onlyGivenNames x; refine Keeps.cut x ?_ ?_; dsimp -zeta only [x]; clear x; rotate_left; intro hx; clear_value x; rotate_left)
    | extract_lets +onlyGivenNames x
    | with_reducible apply Keeps.ite
    | decide
    | (split; all_goals (try dsimp -zeta only))
    | (dsimp +zetaDelta -zeta only)

theorem State.bootFuse_keeps {s0 s : State} (h : Keeps s0 s) {r : FuseRead} : Keeps s0 (State.bootFuse s r) := by
  unfold State.bootFuse
  refine Keeps.ite h ?_
  extract_lets fu bad baseBad s1 s2 s3 s4 s5 s6
  have h1 : Keeps s0 s1 := State.modBoot_keeps h
  have h2 : Keeps s0 s2 := setFlag_keeps (setFlag_keeps (fset_keeps (fset_keeps (fset_keeps (fset_keeps h1 (by decide))
    (by decide)) (by decide)) (by decide)) (by decide)) (by decide)
  clear_value s2
  have h3 : Keeps s0 s3 := by
    refine setWord_keeps (setWord_keeps (setWord_keeps (setWord_keeps h2 ?_) ?_) ?_) ?_ <;> decide
  clear_value s3
  have h4 : Keeps s0 s4 := setFlag_keeps h3 (by decide)
  clear_value s4
  have h5 : Keeps s0 s5 := forUp_keeps h4 (fun k u hu =>
    Keeps.ite (fset_keeps (fset_keeps hu (by decide)) (by decide)) (fset_keeps hu (by decide)))
  clear_value s5
  have h6 : Keeps s0 s6 := State.modUmv_keeps h5
  exact State.bootStep_keeps (State.takeTrap_keeps (fset_keeps h6 (by decide)))

theorem State.bootRom_keeps {s0 s : State} (h : Keeps s0 s) {x2} :
    Keeps s0 (State.bootRom s x2) := by
  unfold State.bootRom
  repeat' first
    | with_reducible exact h
    | with_reducible assumption
    | (intro; try dsimp -zeta only)
    | with_reducible apply State.modBoot_keeps
    | with_reducible apply State.bootStep_keeps
    | with_reducible apply fset_keeps
    | with_reducible apply setFlag_keeps
    | with_reducible apply Keeps.ite
    | decide
    | (split; all_goals (try dsimp -zeta only))

theorem State.nextSource_keeps {s0 s : State} (h : Keeps s0 s) :
    Keeps s0 (State.nextSource s) := by
  unfold State.nextSource
  repeat' first
    | with_reducible exact h
    | with_reducible assumption
    | (intro; try dsimp -zeta only)
    | with_reducible apply State.bootStep_keeps
    | with_reducible apply fset_keeps
    | with_reducible apply setFlag_keeps
    | (extract_lets +onlyGivenNames x; refine Keeps.cut x ?_ ?_; dsimp -zeta only [x]; clear x; rotate_left; intro hx; clear_value x; rotate_left)
    | extract_lets +onlyGivenNames x
    | with_reducible apply Keeps.ite
    | decide
    | (split; all_goals (try dsimp -zeta only))
    | (dsimp +zetaDelta -zeta only)

theorem State.submit_keeps {s0 s : State} (h : Keeps s0 s) {x2} :
    Keeps s0 (State.submit s x2) := by
  unfold State.submit
  repeat' first
    | with_reducible exact h
    | with_reducible assumption
    | (intro; try dsimp -zeta only)
    | with_reducible apply State.modBoot_keeps
    | with_reducible apply State.bootStep_keeps
    | with_reducible apply fset_keeps
    | with_reducible apply Keeps.ite
    | decide
    | (split; all_goals (try dsimp -zeta only))

theorem State.spiFetch_keeps {s0 s : State} (h : Keeps s0 s) {x2} :
    Keeps s0 (State.spiFetch s x2) := by
  unfold State.spiFetch
  repeat' first
    | with_reducible exact h
    | with_reducible assumption
    | (intro; try dsimp -zeta only)
    | with_reducible apply State.modBoot_keeps
    | with_reducible apply State.nextSource_keeps
    | with_reducible apply State.submit_keeps
    | with_reducible apply fset_keeps
    | with_reducible apply setFlag_keeps
    | with_reducible apply State.patErr_keeps
    | (extract_lets +onlyGivenNames x; refine Keeps.cut x ?_ ?_; dsimp -zeta only [x]; clear x; rotate_left; intro hx; clear_value x; rotate_left)
    | extract_lets +onlyGivenNames x
    | with_reducible apply Keeps.ite
    | decide
    | (split; all_goals (try dsimp -zeta only))
    | (dsimp +zetaDelta -zeta only)

theorem State.icmdStart_keeps {s0 s : State} (h : Keeps s0 s) :
    Keeps s0 (State.icmdStart s) := by
  unfold State.icmdStart
  repeat' first
    | with_reducible exact h
    | with_reducible assumption
    | (intro; try dsimp -zeta only)
    | with_reducible apply State.modBoot_keeps
    | with_reducible apply Keeps.ite
    | decide
    | (split; all_goals (try dsimp -zeta only))

theorem State.idata_keeps {s0 s : State} (h : Keeps s0 s) {x2} :
    Keeps s0 (State.idata s x2) := by
  unfold State.idata
  repeat' first
    | with_reducible exact h
    | with_reducible assumption
    | (intro; try dsimp -zeta only)
    | with_reducible apply State.modBoot_keeps
    | with_reducible apply Keeps.ite
    | decide
    | (split; all_goals (try dsimp -zeta only))

theorem State.icmdLoad_keeps {s0 s : State} (h : Keeps s0 s) :
    Keeps s0 (State.icmdLoad s) := by
  unfold State.icmdLoad
  repeat' first
    | with_reducible exact h
    | with_reducible assumption
    | (intro; try dsimp -zeta only)
    | with_reducible apply State.submit_keeps
    | with_reducible apply Keeps.ite
    | decide
    | (split; all_goals (try dsimp -zeta only))

theorem State.bootAuth_keeps {s0 s : State} (h : Keeps s0 s) :
    Keeps s0 (State.bootAuth s) := by
  unfold State.bootAuth
  repeat' first
    | with_reducible exact h
    | with_reducible assumption
    | (intro; try dsimp -zeta only)
    | with_reducible apply State.modBoot_keeps
    | with_reducible apply State.bootStep_keeps
    | with_reducible apply State.nextSource_keeps
    | with_reducible apply fset_keeps
    | with_reducible apply setFlag_keeps
    | with_reducible apply bump_keeps
    | with_reducible apply State.umvLog_keeps
    | with_reducible apply State.patErr_keeps
    | (extract_lets +onlyGivenNames x; refine Keeps.cut x ?_ ?_; dsimp -zeta only [x]; clear x; rotate_left; intro hx; clear_value x; rotate_left)
    | extract_lets +onlyGivenNames x
    | with_reducible apply Keeps.ite
    | decide
    | (split; all_goals (try dsimp -zeta only))
    | (dsimp +zetaDelta -zeta only)

theorem State.mapInit_keeps {s0 s : State} (h : Keeps s0 s) : Keeps s0 (State.mapInit s) := by
  unfold State.mapInit
  extract_lets fenced s1
  have hr : SpCanon (fun _ => SliceRole.active) s1.roles := by
    refine SpCanon.ofRange 18 (fun k => if fenced k then some (k, SliceRole.fenced) else if s.pat.lsmap.contains k then none
      else some (k, SliceRole.spare)) ?_
    intro k e he
    split at he
    · cases he; exact ⟨rfl, fun e => SliceRole.noConfusion e⟩
    · split at he
      · cases he
      · cases he; exact ⟨rfl, fun e => SliceRole.noConfusion e⟩
  exact forUp_keeps (h.arr (t := s1) (fun x => ⟨x.regs, SpCanon.nil _, hr, SpCanon.nil _, SpCanon.nil _, x.ports,
    x.slices, x.wins, x.banks, x.sources, x.vectors, x.jig⟩) rfl rfl rfl rfl rfl id) (fun k u hu => State.modLsl_keeps hu)

theorem State.mapRepair_keeps {s0 s : State} (h : Keeps s0 s) {x2} :
    Keeps s0 (State.mapRepair s x2) := by
  unfold State.mapRepair
  repeat' first
    | with_reducible exact h
    | with_reducible assumption
    | (intro; try dsimp -zeta only)
    | with_reducible apply State.modLsl_keeps
    | with_reducible apply setFlag_keeps
    | with_reducible apply modSlice_keeps
    | with_reducible apply State.safeCause_keeps
    | with_reducible apply State.setRole_keeps
    | with_reducible apply State.rehash_keeps
    | (extract_lets +onlyGivenNames x; refine Keeps.cut x ?_ ?_; dsimp -zeta only [x]; clear x; rotate_left; intro hx; clear_value x; rotate_left)
    | extract_lets +onlyGivenNames x
    | with_reducible apply Keeps.ite
    | with_reducible apply forUp_keeps
    | decide
    | (split; all_goals (try dsimp -zeta only))
    | (dsimp +zetaDelta -zeta only)

theorem State.patRegs_keeps {s0 s : State} (h : Keeps s0 s) {a : Accepted} : Keeps s0 (State.patRegs s a) := by
  unfold State.patRegs
  extract_lets p s1 s2 s3 s4 s5 s6 s7
  have h1 : Keeps s0 s1 := forUp_keeps h (fun k u hu =>
    fset_keeps (fset_keeps (fset_keeps (fset_keeps hu (by decide)) (by decide)) (by decide)) (by decide))
  clear_value s1
  have h2 : Keeps s0 s2 := fset_keeps (setFlag_keeps h1 (by decide)) (by decide)
  clear_value s2
  have h3 : Keeps s0 s3 := fset_keeps (fset_keeps h2 (by decide)) (by decide)
  clear_value s3
  have h4 : Keeps s0 s4 := fset_keeps (fset_keeps (fset_keeps (fset_keeps h3 (by decide)) (by decide)) (by decide)) (by decide)
  clear_value s4
  have h5 : Keeps s0 s5 := fset_keeps (fset_keeps (fset_keeps h4 (by decide)) (by decide)) (by decide)
  clear_value s5
  have h6 : Keeps s0 s6 := fset_keeps (fset_keeps (fset_keeps h5 (by decide)) (by decide)) (by decide)
  clear_value s6
  have h7 : Keeps s0 s7 := by
    refine setWord_keeps (setWord_keeps (setWord_keeps (setWord_keeps (setWord_keeps (setWord_keeps (setWord_keeps (setWord_keeps
      (setWord_keeps (setWord_keeps (setWord_keeps (setWord_keeps h6 ?_) ?_) ?_) ?_) ?_) ?_) ?_) ?_) ?_) ?_) ?_) ?_ <;> decide
  clear_value s7
  exact foldl_keeps h7 (fun u c hu => fset_keeps (State.tenRegs_keeps hu) (by decide))

theorem State.slicesInit_keeps {s0 s : State} (h : Keeps s0 s) :
    Keeps s0 (State.slicesInit s) := by
  unfold State.slicesInit
  repeat' first
    | with_reducible exact h
    | with_reducible assumption
    | (intro; try dsimp -zeta only)
    | with_reducible apply modSlice_keeps
    | with_reducible apply Keeps.ite
    | with_reducible apply forUp_keeps
    | decide
    | (split; all_goals (try dsimp -zeta only))

theorem State.portsInit_keeps {s0 s : State} (h : Keeps s0 s) :
    Keeps s0 (State.portsInit s) := by
  unfold State.portsInit
  repeat' first
    | with_reducible exact h
    | with_reducible assumption
    | (intro; try dsimp -zeta only)
    | with_reducible apply State.setPortState_keeps
    | with_reducible apply Keeps.ite
    | with_reducible apply forUp_keeps
    | decide
    | (split; all_goals (try dsimp -zeta only))

theorem State.seal_keeps {s0 s : State} (h : Keeps s0 s) : Keeps s0 (State.seal s) := by
  unfold State.seal
  extract_lets s1
  have h1 : Keeps s0 s1 := setFlag_keeps (setFlag_keeps h (by decide)) (by decide)
  exact Keeps.ite (State.jigDisarmAll_keeps (lcSet_keeps h1 (by decide))) h1

theorem State.bootInit_keeps {s0 s : State} (h : Keeps s0 s) :
    Keeps s0 (State.bootInit s) := by
  unfold State.bootInit
  repeat' first
    | with_reducible exact h
    | with_reducible assumption
    | (intro; try dsimp -zeta only)
    | with_reducible apply State.modBoot_keeps
    | with_reducible apply State.bootStep_keeps
    | with_reducible apply State.mapInit_keeps
    | with_reducible apply State.mapRepair_keeps
    | with_reducible apply State.patRegs_keeps
    | with_reducible apply State.slicesInit_keeps
    | with_reducible apply State.portsInit_keeps
    | with_reducible apply State.seal_keeps
    | with_reducible apply State.vectorsApply_keeps
    | with_reducible apply fset_keeps
    | with_reducible apply State.modUmv_keeps
    | with_reducible apply State.cwdStart_keeps
    | (extract_lets +onlyGivenNames x; refine Keeps.cut x ?_ ?_; dsimp -zeta only [x]; clear x; rotate_left; intro hx; clear_value x; rotate_left)
    | extract_lets +onlyGivenNames x
    | with_reducible apply Keeps.ite
    | with_reducible apply forUp_keeps
    | decide
    | (split; all_goals (try dsimp -zeta only))
    | with_reducible apply patbootSet_keeps
    | (dsimp +zetaDelta -zeta only)

/-- SAFE_N follows the safe state once READY is 1. -/
theorem pinFollow_keeps {s0 s : State} (h : Keeps s0 s) (hr : s.ready = true) {l : Latent} :
    Keeps s0 { s with safePin := s.isSafe, latent := l } :=
  h.trans ⟨rfl, id, fun x => ⟨x.regs, x.cur, x.roles, x.logic, x.moved, x.ports, x.slices, x.wins, x.banks, x.sources, x.vectors, x.jig⟩,
    fun _ (hp : s.isSafe = false) => ⟨hr, hp⟩, id, id, id, id⟩

/-- READY becomes 1. -/
theorem readySet_keeps {s0 s : State} (h : Keeps s0 s) : Keeps s0 (s.setFlag F.GLB_BOOT_STATUS_READY true) := by
  have e3 : (s.setFlag F.GLB_BOOT_STATUS_READY true).fget F.SAF_STATUS_SAFE = s.fget F.SAF_STATUS_SAFE :=
    State.fget_fset_other s _ _ _ 0 0 0 0 (by decide) (by decide)
  have e2 : (s.setFlag F.GLB_BOOT_STATUS_READY true).fget F.GLB_BOOT_STATUS_READY = 1 :=
    State.fget_fset_same s F.GLB_BOOT_STATUS_READY _ 0 0 (by decide)
  refine fset_keepsOf h (by decide) (fun x hp => ?_)
  have := (x hp).2
  simp only [State.isSafe, State.flag] at this
  refine ⟨congrArg (· != 0) e2, ?_⟩
  exact (congrArg (· != 0) e3).trans this

theorem State.bootTrainEnd_keeps {s0 s : State} (h : Keeps s0 s) : Keeps s0 (State.bootTrainEnd s) := by
  unfold State.bootTrainEnd
  refine Keeps.ite h ?_
  extract_lets s1 s2 s3 l s4 s5 s6
  have h1 : Keeps s0 s1 := Keeps.ite h (until_keeps h)
  clear_value s1
  have h2 : Keeps s0 s2 := readySet_keeps (State.bootStep_keeps h1)
  have r2 : s2.fget F.GLB_BOOT_STATUS_READY = 1 :=
    State.fget_fset_same (s1.bootStep 8) F.GLB_BOOT_STATUS_READY 1 0 0 (by decide)
  clear_value s2
  have h3 : Keeps s0 s3 := fset_keeps (setFlag_keeps h2 (by decide)) (by decide)
  have r3 : s3.fget F.GLB_BOOT_STATUS_READY = 1 :=
    (State.fget_fset_other _ F.GLB_BOOT_TIME_US _ _ 0 0 0 0 (by decide) (by decide)).trans
      ((State.fget_fset_other s2 F.GLB_BOOT_TIME_VALID _ 1 0 0 0 0 (by decide) (by decide)).trans r2)
  clear_value s3
  have h4 : Keeps s0 s4 := pinFollow_keeps h3 (by simp [State.ready, State.flag, r3])
  clear_value s4
  have h5 : Keeps s0 s5 := fset_keeps h4 (by decide)
  clear_value s5
  have h6 : Keeps s0 s6 := Keeps.ite (State.swdStart_keeps h5) h5
  exact State.evgServe_keeps (State.healthyAgain_keeps h6)

theorem State.rstCmd_keeps {s0 s : State} (h : Keeps s0 s) {x2 x3 x4} :
    Keeps s0 (State.rstCmd s x2 x3 x4) := by
  unfold State.rstCmd
  repeat' first
    | with_reducible exact h
    | with_reducible assumption
    | (intro; try dsimp -zeta only)
    | with_reducible apply State.react_keeps
    | with_reducible apply State.umevoReset_keeps
    | with_reducible apply Keeps.ite
    | decide
    | (split; all_goals (try dsimp -zeta only))

theorem State.unlkNonce_keeps {s0 s : State} (h : Keeps s0 s) :
    Keeps s0 (State.unlkNonce s) := by
  unfold State.unlkNonce
  repeat' first
    | with_reducible exact h
    | with_reducible assumption
    | (intro; try dsimp -zeta only)
    | with_reducible apply State.modBoot_keeps
    | with_reducible apply draw_keeps
    | (extract_lets +onlyGivenNames x; refine Keeps.cut x ?_ ?_; dsimp -zeta only [x]; clear x; rotate_left; intro hx; clear_value x; rotate_left)
    | extract_lets +onlyGivenNames x
    | with_reducible apply Keeps.ite
    | decide
    | (split; all_goals (try dsimp -zeta only))
    | (dsimp +zetaDelta -zeta only)

theorem State.unlkData_keeps {s0 s : State} (h : Keeps s0 s) {x2} :
    Keeps s0 (State.unlkData s x2) := by
  unfold State.unlkData
  repeat' first
    | with_reducible exact h
    | with_reducible assumption
    | (intro; try dsimp -zeta only)
    | with_reducible apply State.modBoot_keeps
    | with_reducible apply Keeps.ite
    | decide
    | (split; all_goals (try dsimp -zeta only))

theorem State.unlkVerify_keeps {s0 s : State} (h : Keeps s0 s) :
    Keeps s0 (State.unlkVerify s) := by
  unfold State.unlkVerify
  repeat' first
    | with_reducible exact h
    | with_reducible assumption
    | (intro; try dsimp -zeta only)
    | with_reducible apply State.modBoot_keeps
    | with_reducible apply setFlag_keeps
    | with_reducible apply Keeps.ite
    | decide
    | (split; all_goals (try dsimp -zeta only))

theorem State.unlkDone_keeps {s0 s : State} (h : Keeps s0 s) :
    Keeps s0 (State.unlkDone s) := by
  unfold State.unlkDone
  repeat' first
    | with_reducible exact h
    | with_reducible assumption
    | (intro; try dsimp -zeta only)
    | with_reducible apply State.modBoot_keeps
    | with_reducible apply fset_keeps
    | with_reducible apply setFlag_keeps
    | (extract_lets +onlyGivenNames x; refine Keeps.cut x ?_ ?_; dsimp -zeta only [x]; clear x; rotate_left; intro hx; clear_value x; rotate_left)
    | extract_lets +onlyGivenNames x
    | with_reducible apply Keeps.ite
    | decide
    | (split; all_goals (try dsimp -zeta only))
    | (dsimp +zetaDelta -zeta only)

theorem State.fuseRevoke_keeps {s0 s : State} (h : Keeps s0 s) {x2} :
    Keeps s0 (State.fuseRevoke s x2) := by
  unfold State.fuseRevoke
  repeat' first
    | with_reducible exact h
    | with_reducible assumption
    | (intro; try dsimp -zeta only)
    | with_reducible apply State.modBoot_keeps
    | with_reducible apply fset_keeps
    | (extract_lets +onlyGivenNames x; refine Keeps.cut x ?_ ?_; dsimp -zeta only [x]; clear x; rotate_left; intro hx; clear_value x; rotate_left)
    | extract_lets +onlyGivenNames x
    | with_reducible apply Keeps.ite
    | decide
    | (split; all_goals (try dsimp -zeta only))
    | (dsimp +zetaDelta -zeta only)

end Sys2Proof.Machine
end

