-- ==== Sys2Proof/Laws/KeepsMonitor.lean ====
section
/-!
SUPPORT. What the operations of Machine/Monitor.lean keep of a state (`Keeps`), one law each.
-/
namespace Sys2Proof.Machine
set_option linter.all false

theorem State.portFails_keeps {s0 s : State} (h : Keeps s0 s) {p : Nat} {cause : BitVec 8} :
    Keeps s0 (State.portFails s p cause) := by
  unfold State.portFails
  split
  · exact h
  · refine setWord_keeps (State.failPort_keeps (State.notice_keeps (State.logEntry_keeps h))) ?_
    simp only [plainAddr, List.contains_eq_mem, List.mem_cons, List.not_mem_nil, or_false, Bool.not_eq_true',
      decide_eq_false_iff_not, not_or, Fld.addr, F.PRT_LL_LASTERR_CAUSE]
    omega

theorem State.stall_keeps {s0 s : State} (h : Keeps s0 s) {x2} :
    Keeps s0 (State.stall s x2) := by
  unfold State.stall
  repeat' first
    | with_reducible exact h
    | with_reducible assumption
    | (intro; try dsimp -zeta only)
    | with_reducible apply State.portFails_keeps
    | with_reducible apply setFlag_keeps
    | with_reducible apply State.react_keeps
    | with_reducible apply State.fatal_keeps
    | with_reducible apply Keeps.ite
    | decide
    | (split; all_goals (try dsimp -zeta only))

theorem State.comparator_keeps {s0 s : State} (h : Keeps s0 s) {x2} :
    Keeps s0 (State.comparator s x2) := by
  unfold State.comparator
  repeat' first
    | with_reducible exact h
    | with_reducible assumption
    | (intro; try dsimp -zeta only)
    | with_reducible apply State.react_keeps
    | with_reducible apply State.fatal_keeps
    | with_reducible apply Keeps.ite
    | decide
    | (split; all_goals (try dsimp -zeta only))

theorem State.trackerAge_keeps {s0 s : State} (h : Keeps s0 s) {x2 x3} :
    Keeps s0 (State.trackerAge s x2 x3) := by
  unfold State.trackerAge
  repeat' first
    | with_reducible exact h
    | with_reducible assumption
    | (intro; try dsimp -zeta only)
    | with_reducible apply until_keeps
    | with_reducible apply State.react_keeps
    | with_reducible apply Keeps.ite
    | decide
    | (split; all_goals (try dsimp -zeta only))

theorem State.pinMismatch_keeps {s0 s : State} (h : Keeps s0 s) :
    Keeps s0 (State.pinMismatch s) := by
  unfold State.pinMismatch
  repeat' first
    | with_reducible exact h
    | with_reducible assumption
    | (intro; try dsimp -zeta only)
    | with_reducible apply setFlag_keeps
    | with_reducible apply State.fatal_keeps
    | (extract_lets +onlyGivenNames x; refine Keeps.cut x ?_ ?_; dsimp -zeta only [x]; clear x; rotate_left; intro hx; clear_value x; rotate_left)
    | extract_lets +onlyGivenNames x
    | with_reducible apply Keeps.ite
    | decide
    | (split; all_goals (try dsimp -zeta only))
    | (dsimp +zetaDelta -zeta only)

theorem State.latentSync_keeps {s0 s : State} (h : Keeps s0 s) :
    Keeps s0 (State.latentSync s) := by
  unfold State.latentSync
  repeat' first
    | with_reducible exact h
    | with_reducible assumption
    | (intro; try dsimp -zeta only)
    | with_reducible apply wrapInc_keeps
    | (extract_lets +onlyGivenNames x; refine Keeps.cut x ?_ ?_; dsimp -zeta only [x]; clear x; rotate_left; intro hx; clear_value x; rotate_left)
    | extract_lets +onlyGivenNames x
    | with_reducible apply Keeps.ite
    | decide
    | (split; all_goals (try dsimp -zeta only))
    | with_reducible apply latentSet_keeps
    | (dsimp +zetaDelta -zeta only)

theorem State.latentRan_keeps {s0 s : State} (h : Keeps s0 s) {x2 x3} :
    Keeps s0 (State.latentRan s x2 x3) := by
  unfold State.latentRan
  repeat' first
    | with_reducible exact h
    | with_reducible assumption
    | (intro; try dsimp -zeta only)
    | with_reducible apply State.latentSync_keeps
    | (extract_lets +onlyGivenNames x; refine Keeps.cut x ?_ ?_; dsimp -zeta only [x]; clear x; rotate_left; intro hx; clear_value x; rotate_left)
    | extract_lets +onlyGivenNames x
    | with_reducible apply Keeps.ite
    | decide
    | (split; all_goals (try dsimp -zeta only))
    | with_reducible apply latentSet_keeps
    | (dsimp +zetaDelta -zeta only)

theorem State.latentFails_keeps {s0 s : State} (h : Keeps s0 s) {x2} :
    Keeps s0 (State.latentFails s x2) := by
  unfold State.latentFails
  repeat' first
    | with_reducible exact h
    | with_reducible assumption
    | (intro; try dsimp -zeta only)
    | with_reducible apply State.portFails_keeps
    | with_reducible apply State.latentSync_keeps
    | with_reducible apply fset_keeps
    | with_reducible apply setFlag_keeps
    | with_reducible apply State.raiseSafety_keeps
    | with_reducible apply State.react_keeps
    | with_reducible apply State.fatal_keeps
    | (extract_lets +onlyGivenNames x; refine Keeps.cut x ?_ ?_; dsimp -zeta only [x]; clear x; rotate_left; intro hx; clear_value x; rotate_left)
    | extract_lets +onlyGivenNames x
    | with_reducible apply Keeps.ite
    | decide
    | (split; all_goals (try dsimp -zeta only))
    | with_reducible apply latentSet_keeps
    | (dsimp +zetaDelta -zeta only)

theorem State.latentTest_keeps {s0 s : State} (h : Keeps s0 s) {x2 x3 x4} :
    Keeps s0 (State.latentTest s x2 x3 x4) := by
  unfold State.latentTest
  repeat' first
    | with_reducible exact h
    | with_reducible assumption
    | (intro; try dsimp -zeta only)
    | with_reducible apply State.latentRan_keeps
    | with_reducible apply State.latentFails_keeps
    | with_reducible apply Keeps.ite
    | decide
    | (split; all_goals (try dsimp -zeta only))

theorem State.tempWarn_keeps {s0 s : State} (h : Keeps s0 s) {x2} :
    Keeps s0 (State.tempWarn s x2) := by
  unfold State.tempWarn
  repeat' first
    | with_reducible exact h
    | with_reducible assumption
    | (intro; try dsimp -zeta only)
    | with_reducible apply fset_keeps
    | with_reducible apply State.raiseSafety_keeps
    | (extract_lets +onlyGivenNames x; refine Keeps.cut x ?_ ?_; dsimp -zeta only [x]; clear x; rotate_left; intro hx; clear_value x; rotate_left)
    | extract_lets +onlyGivenNames x
    | with_reducible apply Keeps.ite
    | decide
    | (split; all_goals (try dsimp -zeta only))
    | (dsimp +zetaDelta -zeta only)

theorem State.tempTrip_keeps {s0 s : State} (h : Keeps s0 s) {x2} :
    Keeps s0 (State.tempTrip s x2) := by
  unfold State.tempTrip
  repeat' first
    | with_reducible exact h
    | with_reducible assumption
    | (intro; try dsimp -zeta only)
    | with_reducible apply fset_keeps
    | with_reducible apply setFlag_keeps
    | with_reducible apply State.safeCause_keeps
    | (extract_lets +onlyGivenNames x; refine Keeps.cut x ?_ ?_; dsimp -zeta only [x]; clear x; rotate_left; intro hx; clear_value x; rotate_left)
    | extract_lets +onlyGivenNames x
    | with_reducible apply Keeps.ite
    | decide
    | (split; all_goals (try dsimp -zeta only))
    | (dsimp +zetaDelta -zeta only)

theorem State.supplyFault_keeps {s0 s : State} (h : Keeps s0 s) {x2} :
    Keeps s0 (State.supplyFault s x2) := by
  unfold State.supplyFault
  repeat' first
    | with_reducible exact h
    | with_reducible assumption
    | (intro; try dsimp -zeta only)
    | with_reducible apply State.modBoot_keeps
    | with_reducible apply State.portDown_keeps
    | with_reducible apply setFlag_keeps
    | with_reducible apply State.safeCause_keeps
    | (extract_lets +onlyGivenNames x; refine Keeps.cut x ?_ ?_; dsimp -zeta only [x]; clear x; rotate_left; intro hx; clear_value x; rotate_left)
    | extract_lets +onlyGivenNames x
    | with_reducible apply Keeps.ite
    | with_reducible apply forUp_keeps
    | decide
    | (split; all_goals (try dsimp -zeta only))
    | (dsimp +zetaDelta -zeta only)

theorem State.phyReturn_keeps {s0 s : State} (h : Keeps s0 s) :
    Keeps s0 (State.phyReturn s) := by
  unfold State.phyReturn
  repeat' first
    | with_reducible exact h
    | with_reducible assumption
    | (intro; try dsimp -zeta only)
    | with_reducible apply State.modBoot_keeps
    | with_reducible apply State.startPortReset_keeps
    | (extract_lets +onlyGivenNames x; refine Keeps.cut x ?_ ?_; dsimp -zeta only [x]; clear x; rotate_left; intro hx; clear_value x; rotate_left)
    | extract_lets +onlyGivenNames x
    | with_reducible apply Keeps.ite
    | with_reducible apply forUp_keeps
    | decide
    | (split; all_goals (try dsimp -zeta only))
    | (dsimp +zetaDelta -zeta only)

theorem State.safEnter_keeps {s0 s : State} (h : Keeps s0 s) {x2} :
    Keeps s0 (State.safEnter s x2) := by
  unfold State.safEnter
  repeat' first
    | with_reducible exact h
    | with_reducible assumption
    | (intro; try dsimp -zeta only)
    | with_reducible apply State.safeCause_keeps
    | with_reducible apply Keeps.ite
    | decide
    | (split; all_goals (try dsimp -zeta only))

theorem State.logNext_keeps {s0 s : State} (h : Keeps s0 s) : Keeps s0 (State.logNext s) := by
  have h1 : Keeps s0 { s with log := s.log.tail } := logSet_keeps h (fun hl => by rw [List.length_tail]; omega)
  exact dropArmSet_keeps h1

theorem State.lossNext_keeps {s0 s : State} (h : Keeps s0 s) : Keeps s0 (State.lossNext s) :=
  lossSet_keeps h (fun hl => by rw [List.length_tail]; omega)

theorem State.jigCtl_keeps {s0 s : State} (h : Keeps s0 s) {x2 x3} :
    Keeps s0 (State.jigCtl s x2 x3) := by
  unfold State.jigCtl
  repeat' first
    | with_reducible exact h
    | with_reducible assumption
    | (intro; try dsimp -zeta only)
    | with_reducible apply fset_keeps
    | with_reducible apply setFlag_keeps
    | (extract_lets +onlyGivenNames x; refine Keeps.cut x ?_ ?_; dsimp -zeta only [x]; clear x; rotate_left; intro hx; clear_value x; rotate_left)
    | extract_lets +onlyGivenNames x
    | with_reducible apply Keeps.ite
    | decide
    | (split; all_goals (try dsimp -zeta only))
    | (dsimp +zetaDelta -zeta only)

theorem State.jigArm_keeps {s0 s : State} (h : Keeps s0 s) {c : Nat} {v : Word} : Keeps s0 (State.jigArm s c v) := by
  unfold State.jigArm
  split
  · exact h
  · have h1 : Keeps s0 (s.jigCtl c v) := State.jigCtl_keeps h
    extract_lets s1
    split
    · exact fset_keeps (fset_keeps (bump_keeps (fset_keeps h1 (by decide)) (by decide)) (by decide)) (by decide)
    · exact jigSet_keeps (s := (s1.setFlag F.JIG_CH_CTL_ARM true 0 c).fset F.JIG_CH_STATUS_FIRED 0 0 c)
        (fset_keeps (setFlag_keeps h1 (by decide)) (by decide))

theorem State.jigOff_keeps {s0 s : State} (h : Keeps s0 s) {x2 x3} :
    Keeps s0 (State.jigOff s x2 x3) := by
  unfold State.jigOff
  repeat' first
    | with_reducible exact h
    | with_reducible assumption
    | (intro; try dsimp -zeta only)
    | with_reducible apply State.jigDisarm_keeps
    | with_reducible apply State.jigCtl_keeps
    | with_reducible apply Keeps.ite
    | decide
    | (split; all_goals (try dsimp -zeta only))

end Sys2Proof.Machine
end

