-- ==== Sys2Proof/Laws/KeepsRegs.lean ====
section
/-!
SUPPORT. What the operations of Machine/Regs.lean keep of a state (`Keeps`), one law each.
-/
namespace Sys2Proof.Machine
set_option linter.all false

theorem State.regRead_keeps {s0 s : State} (h : Keeps s0 s) {x2 x3} :
    Keeps s0 (State.regRead s x2 x3).2 := by
  unfold State.regRead
  repeat' first
    | with_reducible exact h
    | with_reducible assumption
    | (intro; try dsimp -zeta only)
    | with_reducible apply State.stgData_keeps
    | with_reducible apply State.timLatch_keeps
    | with_reducible apply Keeps.ite
    | decide
    | (split; all_goals (try dsimp -zeta only))

theorem State.accErr_keeps {s0 s : State} (h : Keeps s0 s) {x2 x3 x4} :
    Keeps s0 (State.accErr s x2 x3 x4) := by
  unfold State.accErr
  repeat' first
    | with_reducible exact h
    | with_reducible assumption
    | (intro; try dsimp -zeta only)
    | with_reducible apply fset_keeps
    | with_reducible apply setFlag_keeps
    | with_reducible apply bump_keeps
    | (extract_lets +onlyGivenNames x; refine Keeps.cut x ?_ ?_; dsimp -zeta only [x]; clear x; rotate_left; intro hx; clear_value x; rotate_left)
    | extract_lets +onlyGivenNames x
    | with_reducible apply Keeps.ite
    | decide
    | (split; all_goals (try dsimp -zeta only))
    | (dsimp +zetaDelta -zeta only)

/-- What a write to a field that a write may change keeps, whichever group member it meets. -/
def WFld.keepable (w : WFld) : Bool :=
  (w.fld.plain || (w.fld.stride == 0 && (List.range w.fld.group).all (fun m => plainAddr (w.fld.addr 0 m)))) &&
    (w.acc != .clr || decide (0x3004 < w.fld.base + w.fld.off) ||
      (w.fld.stride == 0 && (List.range w.fld.group).all (fun m => plainAddr (w.fld.addr 0 m))))

theorem Fld.member_some {f : Fld} {n a m : Nat} (h : f.member n a = some m) : f.addr n m = a ∧ m < f.group := by
  unfold Fld.member at h
  dsimp only at h
  split at h
  · cases h
  · split at h
    · rename_i hx; cases h; exact hx
    · cases h

theorem plainAddr_of_lt {a : Nat} (h : 0x3004 < a) : plainAddr a = true := by
  simp only [plainAddr, List.contains_eq_mem, List.mem_cons, List.not_mem_nil, or_false, Bool.not_eq_true',
    decide_eq_false_iff_not, not_or]
  omega

theorem Fld.addr_of_stride {f : Fld} (h : f.stride = 0) (n m : Nat) : f.addr n m = f.addr 0 m := by
  simp [Fld.addr, h]

theorem State.writeField_keeps {s0 s : State} (h : Keeps s0 s) {who : Party} {n a : Nat} {v : Word} {w : WFld}
    (hw : w.keepable = true) : Keeps s0 (State.writeField s who n a v w) := by
  simp only [WFld.keepable, Bool.and_eq_true, Bool.or_eq_true, beq_iff_eq, bne_iff_ne, decide_eq_true_eq, List.all_eq_true,
    List.mem_range] at hw
  unfold State.writeField
  split
  · exact h
  · rename_i m hm
    obtain ⟨ha, hg⟩ := Fld.member_some hm
    have hset : ∀ x, Keeps s0 (s.fset w.fld x n m) := by
      intro x
      rcases hw.1 with h1 | h1
      · exact fset_keeps h h1
      · exact setWord_keeps h (by rw [Fld.addr_of_stride h1.1]; exact h1.2 m hg)
    dsimp only
    split
    · exact Keeps.ite (hset _) h
    · exact Keeps.ite (hset _) h
    · exact Keeps.ite (State.accErr_keeps h) (Keeps.ite (hset _) h)
    · exact Keeps.ite (hset _) h
    · rename_i hacc
      refine Keeps.ite h (Keeps.ite (fset_keeps h (by decide)) (setWord_keeps h ?_))
      rcases hw.2 with (h2 | h2) | h2
      · exact absurd hacc h2
      · refine plainAddr_of_lt ?_
        rw [← ha]; unfold Fld.addr; omega
      · rw [← ha, Fld.addr_of_stride h2.1]; exact h2.2 m hg

theorem State.writeFields_keeps {s0 s : State} (h : Keeps s0 s) {who : Party} {n a : Nat} {v : Word} {l : List WFld}
    (hl : l.all WFld.keepable = true) : Keeps s0 (State.writeFields s who n a v l) := by
  unfold State.writeFields
  induction l generalizing s with
  | nil => exact h
  | cons w l ih =>
    simp only [List.all_cons, Bool.and_eq_true] at hl
    exact ih (State.writeField_keeps h hl.1) hl.2

theorem onBit_keeps {s0 s : State} (h : Keeps s0 s) {x1 x2 f3} (h3 : ∀ y0, Keeps s0 y0 → Keeps s0 (f3 y0)) :
    Keeps s0 (onBit x1 x2 f3 s) := by
  unfold onBit
  repeat' first
    | with_reducible exact h
    | with_reducible assumption
    | (intro; try dsimp -zeta only)
    | apply h3
    | with_reducible apply Keeps.ite
    | decide
    | (split; all_goals (try dsimp -zeta only))

theorem State.reserved_keeps {s0 s : State} (h : Keeps s0 s) {x2 x3 x4 f5} (h5 : ∀ y0, Keeps s0 y0 → Keeps s0 (f5 y0)) :
    Keeps s0 (State.reserved s x2 x3 x4 f5) := by
  unfold State.reserved
  repeat' first
    | with_reducible exact h
    | with_reducible assumption
    | (intro; try dsimp -zeta only)
    | apply h5
    | with_reducible apply State.accErr_keeps
    | with_reducible apply Keeps.ite
    | decide
    | (split; all_goals (try dsimp -zeta only))

theorem State.writeFuse_keeps {s0 s : State} (h : Keeps s0 s) {x2 x3} :
    Keeps s0 (State.writeFuse s x2 x3) := by
  unfold State.writeFuse
  repeat' first
    | with_reducible exact h
    | with_reducible assumption
    | (intro; try dsimp -zeta only)
    | with_reducible apply State.fuseRevoke_keeps
    | with_reducible apply onBit_keeps
    | with_reducible apply State.reserved_keeps
    | with_reducible apply Keeps.ite
    | decide
    | (split; all_goals (try dsimp -zeta only))

theorem State.writeRst_keeps {s0 s : State} (h : Keeps s0 s) {x2 x3} :
    Keeps s0 (State.writeRst s x2 x3) := by
  unfold State.writeRst
  repeat' first
    | with_reducible exact h
    | with_reducible assumption
    | (intro; try dsimp -zeta only)
    | with_reducible apply State.rstCmd_keeps
    | with_reducible apply State.reserved_keeps
    | with_reducible apply Keeps.ite
    | decide
    | (split; all_goals (try dsimp -zeta only))

theorem State.writeMig_keeps {s0 s : State} (h : Keeps s0 s) {x2 x3} :
    Keeps s0 (State.writeMig s x2 x3) := by
  unfold State.writeMig
  repeat' first
    | with_reducible exact h
    | with_reducible assumption
    | (intro; try dsimp -zeta only)
    | with_reducible apply State.migBegin_keeps
    | with_reducible apply State.migAbort_keeps
    | with_reducible apply State.writeFields_keeps
    | with_reducible apply onBit_keeps
    | with_reducible apply Keeps.ite
    | decide
    | (split; all_goals (try dsimp -zeta only))

theorem State.writeProbe_keeps {s0 s : State} (h : Keeps s0 s) {x2 x3} :
    Keeps s0 (State.writeProbe s x2 x3) := by
  unfold State.writeProbe
  repeat' first
    | with_reducible exact h
    | with_reducible assumption
    | (intro; try dsimp -zeta only)
    | with_reducible apply State.hprobeGo_keeps
    | with_reducible apply State.writeFields_keeps
    | with_reducible apply onBit_keeps
    | with_reducible apply Keeps.ite
    | decide
    | (split; all_goals (try dsimp -zeta only))

theorem State.writeGlb_keeps {s0 s : State} (h : Keeps s0 s) {x2 x3 x4} :
    Keeps s0 (State.writeGlb s x2 x3 x4) := by
  unfold State.writeGlb
  repeat' first
    | with_reducible exact h
    | with_reducible assumption
    | (intro; try dsimp -zeta only)
    | with_reducible apply State.icmdStart_keeps
    | with_reducible apply State.idata_keeps
    | with_reducible apply State.icmdLoad_keeps
    | with_reducible apply State.unlkNonce_keeps
    | with_reducible apply State.unlkData_keeps
    | with_reducible apply State.unlkVerify_keeps
    | with_reducible apply State.lossNext_keeps
    | with_reducible apply State.writeFields_keeps
    | with_reducible apply onBit_keeps
    | with_reducible apply State.writeFuse_keeps
    | with_reducible apply State.writeRst_keeps
    | with_reducible apply State.writeMig_keeps
    | with_reducible apply State.writeProbe_keeps
    | with_reducible apply Keeps.ite
    | decide
    | (split; all_goals (try dsimp -zeta only))

theorem State.writeWdg_keeps {s0 s : State} (h : Keeps s0 s) {x2 x3 x4} :
    Keeps s0 (State.writeWdg s x2 x3 x4) := by
  unfold State.writeWdg
  repeat' first
    | with_reducible exact h
    | with_reducible assumption
    | (intro; try dsimp -zeta only)
    | with_reducible apply State.writeFields_keeps
    | with_reducible apply State.reserved_keeps
    | with_reducible apply State.cwdService_keeps
    | with_reducible apply State.cwdCtl_keeps
    | with_reducible apply State.swdService_keeps
    | with_reducible apply Keeps.ite
    | decide
    | (split; all_goals (try dsimp -zeta only))

theorem State.writeSafCmd_keeps {s0 s : State} (h : Keeps s0 s) {x2 x3} :
    Keeps s0 (State.writeSafCmd s x2 x3) := by
  unfold State.writeSafCmd
  repeat' first
    | with_reducible exact h
    | with_reducible assumption
    | (intro; try dsimp -zeta only)
    | with_reducible apply State.safEnter_keeps
    | with_reducible apply onBit_keeps
    | with_reducible apply State.reserved_keeps
    | with_reducible apply Keeps.ite
    | decide
    | (split; all_goals (try dsimp -zeta only))

theorem State.writeSaf_keeps {s0 s : State} (h : Keeps s0 s) {x2 x3 x4} :
    Keeps s0 (State.writeSaf s x2 x3 x4) := by
  unfold State.writeSaf
  repeat' first
    | with_reducible exact h
    | with_reducible assumption
    | (intro; try dsimp -zeta only)
    | with_reducible apply State.logNext_keeps
    | with_reducible apply State.writeFields_keeps
    | with_reducible apply onBit_keeps
    | with_reducible apply State.writeSafCmd_keeps
    | with_reducible apply Keeps.ite
    | decide
    | (split; all_goals (try dsimp -zeta only))

theorem State.writeTim_keeps {s0 s : State} (h : Keeps s0 s) {x2 x3 x4} :
    Keeps s0 (State.writeTim s x2 x3 x4) := by
  unfold State.writeTim
  repeat' first
    | with_reducible exact h
    | with_reducible assumption
    | (intro; try dsimp -zeta only)
    | with_reducible apply State.writeFields_keeps
    | with_reducible apply onBit_keeps
    | with_reducible apply State.sourceChanged_keeps
    | with_reducible apply State.timSet_keeps
    | (extract_lets +onlyGivenNames x; refine Keeps.cut x ?_ ?_; dsimp -zeta only [x]; clear x; rotate_left; intro hx; clear_value x; rotate_left)
    | extract_lets +onlyGivenNames x
    | with_reducible apply Keeps.ite
    | decide
    | (split; all_goals (try dsimp -zeta only))
    | (dsimp +zetaDelta -zeta only)

theorem State.writeMode_keeps {s0 s : State} (h : Keeps s0 s) {x2 x3} :
    Keeps s0 (State.writeMode s x2 x3) := by
  unfold State.writeMode
  repeat' first
    | with_reducible exact h
    | with_reducible assumption
    | (intro; try dsimp -zeta only)
    | with_reducible apply State.hcDisable_keeps
    | with_reducible apply State.hcEnable_keeps
    | with_reducible apply State.writeFields_keeps
    | (extract_lets +onlyGivenNames x; refine Keeps.cut x ?_ ?_; dsimp -zeta only [x]; clear x; rotate_left; intro hx; clear_value x; rotate_left)
    | extract_lets +onlyGivenNames x
    | with_reducible apply Keeps.ite
    | decide
    | (split; all_goals (try dsimp -zeta only))
    | (dsimp +zetaDelta -zeta only)

theorem State.writeMop_keeps {s0 s : State} (h : Keeps s0 s) {x2 x3} :
    Keeps s0 (State.writeMop s x2 x3) := by
  unfold State.writeMop
  repeat' first
    | with_reducible exact h
    | with_reducible assumption
    | (intro; try dsimp -zeta only)
    | with_reducible apply State.mopGo_keeps
    | with_reducible apply State.writeFields_keeps
    | with_reducible apply onBit_keeps
    | with_reducible apply Keeps.ite
    | decide
    | (split; all_goals (try dsimp -zeta only))

theorem State.writeRng_keeps {s0 s : State} (h : Keeps s0 s) {x2 x3} :
    Keeps s0 (State.writeRng s x2 x3) := by
  unfold State.writeRng
  repeat' first
    | with_reducible exact h
    | with_reducible assumption
    | (intro; try dsimp -zeta only)
    | with_reducible apply State.rngGo_keeps
    | with_reducible apply State.rngAbort_keeps
    | with_reducible apply State.writeFields_keeps
    | with_reducible apply onBit_keeps
    | with_reducible apply Keeps.ite
    | decide
    | (split; all_goals (try dsimp -zeta only))

theorem State.writeHcm_keeps {s0 s : State} (h : Keeps s0 s) {x2 x3 x4} :
    Keeps s0 (State.writeHcm s x2 x3 x4) := by
  unfold State.writeHcm
  repeat' first
    | with_reducible exact h
    | with_reducible assumption
    | (intro; try dsimp -zeta only)
    | with_reducible apply State.writeFields_keeps
    | with_reducible apply State.writeMode_keeps
    | with_reducible apply State.writeMop_keeps
    | with_reducible apply State.writeRng_keeps
    | with_reducible apply Keeps.ite
    | decide
    | (split; all_goals (try dsimp -zeta only))

theorem State.writeChan_keeps {s0 s : State} (h : Keeps s0 s) {x2 x3} :
    Keeps s0 (State.writeChan s x2 x3) := by
  unfold State.writeChan
  repeat' first
    | with_reducible exact h
    | with_reducible assumption
    | (intro; try dsimp -zeta only)
    | with_reducible apply State.jigArm_keeps
    | with_reducible apply State.jigOff_keeps
    | with_reducible apply Keeps.ite
    | decide
    | (split; all_goals (try dsimp -zeta only))

theorem State.writeJig_keeps {s0 s : State} (h : Keeps s0 s) {x2 x3 x4} :
    Keeps s0 (State.writeJig s x2 x3 x4) := by
  unfold State.writeJig
  repeat' first
    | with_reducible exact h
    | with_reducible assumption
    | (intro; try dsimp -zeta only)
    | with_reducible apply State.jigDisarmAll_keeps
    | with_reducible apply State.writeFields_keeps
    | with_reducible apply onBit_keeps
    | with_reducible apply State.writeChan_keeps
    | (extract_lets +onlyGivenNames x; refine Keeps.cut x ?_ ?_; dsimp -zeta only [x]; clear x; rotate_left; intro hx; clear_value x; rotate_left)
    | extract_lets +onlyGivenNames x
    | with_reducible apply Keeps.ite
    | decide
    | (split; all_goals (try dsimp -zeta only))
    | (dsimp +zetaDelta -zeta only)

theorem State.writeEvgCmd_keeps {s0 s : State} (h : Keeps s0 s) {x2} :
    Keeps s0 (State.writeEvgCmd s x2) := by
  unfold State.writeEvgCmd
  repeat' first
    | with_reducible exact h
    | with_reducible assumption
    | (intro; try dsimp -zeta only)
    | with_reducible apply State.evgAck_keeps
    | with_reducible apply State.evgDiscard_keeps
    | with_reducible apply onBit_keeps
    | (extract_lets +onlyGivenNames x; refine Keeps.cut x ?_ ?_; dsimp -zeta only [x]; clear x; rotate_left; intro hx; clear_value x; rotate_left)
    | extract_lets +onlyGivenNames x
    | with_reducible apply Keeps.ite
    | decide
    | (split; all_goals (try dsimp -zeta only))
    | (dsimp +zetaDelta -zeta only)

theorem State.writeEvg_keeps {s0 s : State} (h : Keeps s0 s) {x2 x3 x4} :
    Keeps s0 (State.writeEvg s x2 x3 x4) := by
  unfold State.writeEvg
  repeat' first
    | with_reducible exact h
    | with_reducible assumption
    | (intro; try dsimp -zeta only)
    | with_reducible apply State.vcoalWrite_keeps
    | with_reducible apply State.writeFields_keeps
    | with_reducible apply State.writeEvgCmd_keeps
    | with_reducible apply Keeps.ite
    | decide
    | (split; all_goals (try dsimp -zeta only))

theorem State.retrainCmd_keeps {s0 s : State} (h : Keeps s0 s) {x2} :
    Keeps s0 (State.retrainCmd s x2) := by
  unfold State.retrainCmd
  repeat' first
    | with_reducible exact h
    | with_reducible assumption
    | (intro; try dsimp -zeta only)
    | with_reducible apply State.retrain_keeps
    | with_reducible apply Keeps.ite
    | decide
    | (split; all_goals (try dsimp -zeta only))

theorem State.writePrt_keeps {s0 s : State} (h : Keeps s0 s) {x2 x3 x4 x5} :
    Keeps s0 (State.writePrt s x2 x3 x4 x5) := by
  unfold State.writePrt
  repeat' first
    | with_reducible exact h
    | with_reducible assumption
    | (intro; try dsimp -zeta only)
    | with_reducible apply State.startPortReset_keeps
    | with_reducible apply State.writeFields_keeps
    | with_reducible apply onBit_keeps
    | with_reducible apply State.retrainCmd_keeps
    | with_reducible apply Keeps.ite
    | decide
    | (split; all_goals (try dsimp -zeta only))

theorem State.writeRdsel_keeps {s0 s : State} (h : Keeps s0 s) {x2 x3 x4} :
    Keeps s0 (State.writeRdsel s x2 x3 x4) := by
  unfold State.writeRdsel
  repeat' first
    | with_reducible exact h
    | with_reducible assumption
    | (intro; try dsimp -zeta only)
    | with_reducible apply State.sfRdGo_keeps
    | with_reducible apply State.writeFields_keeps
    | with_reducible apply onBit_keeps
    | with_reducible apply Keeps.ite
    | decide
    | (split; all_goals (try dsimp -zeta only))

theorem State.writeHsel_keeps {s0 s : State} (h : Keeps s0 s) {x2 x3 x4} :
    Keeps s0 (State.writeHsel s x2 x3 x4) := by
  unfold State.writeHsel
  repeat' first
    | with_reducible exact h
    | with_reducible assumption
    | (intro; try dsimp -zeta only)
    | with_reducible apply State.hselGo_keeps
    | with_reducible apply State.writeFields_keeps
    | with_reducible apply onBit_keeps
    | with_reducible apply Keeps.ite
    | decide
    | (split; all_goals (try dsimp -zeta only))

theorem State.writeSlc_keeps {s0 s : State} (h : Keeps s0 s) {x2 x3 x4 x5} :
    Keeps s0 (State.writeSlc s x2 x3 x4 x5) := by
  unfold State.writeSlc
  repeat' first
    | with_reducible exact h
    | with_reducible assumption
    | (intro; try dsimp -zeta only)
    | with_reducible apply State.looseClear_keeps
    | with_reducible apply State.clampBreak_keeps
    | with_reducible apply State.dmonStart_keeps
    | with_reducible apply State.dmonClrMin_keeps
    | with_reducible apply State.writeFields_keeps
    | with_reducible apply onBit_keeps
    | with_reducible apply State.writeRdsel_keeps
    | with_reducible apply State.writeHsel_keeps
    | with_reducible apply Keeps.ite
    | decide
    | (split; all_goals (try dsimp -zeta only))

theorem State.writeStg_keeps {s0 s : State} (h : Keeps s0 s) {x2 x3 x4} :
    Keeps s0 (State.writeStg s x2 x3 x4) := by
  unfold State.writeStg
  repeat' first
    | with_reducible exact h
    | with_reducible assumption
    | (intro; try dsimp -zeta only)
    | with_reducible apply State.stgAlloc_keeps
    | with_reducible apply State.stgFree_keeps
    | with_reducible apply State.stgLoad_keeps
    | (extract_lets +onlyGivenNames x; refine Keeps.cut x ?_ ?_; dsimp -zeta only [x]; clear x; rotate_left; intro hx; clear_value x; rotate_left)
    | extract_lets +onlyGivenNames x
    | with_reducible apply Keeps.ite
    | decide
    | (split; all_goals (try dsimp -zeta only))
    | (dsimp +zetaDelta -zeta only)

theorem State.writeTnt_keeps {s0 s : State} (h : Keeps s0 s) {x2 x3 x4 x5} :
    Keeps s0 (State.writeTnt s x2 x3 x4 x5) := by
  unfold State.writeTnt
  repeat' first
    | with_reducible exact h
    | with_reducible assumption
    | (intro; try dsimp -zeta only)
    | with_reducible apply State.writeFields_keeps
    | with_reducible apply onBit_keeps
    | with_reducible apply State.writeStg_keeps
    | with_reducible apply State.stgData_keeps
    | with_reducible apply State.tenantGo_keeps
    | with_reducible apply Keeps.ite
    | decide
    | (split; all_goals (try dsimp -zeta only))

theorem State.writeAt_keeps {s0 s : State} (h : Keeps s0 s) {x2 x3 x4} :
    Keeps s0 (State.writeAt s x2 x3 x4) := by
  unfold State.writeAt
  repeat' first
    | with_reducible exact h
    | with_reducible assumption
    | (intro; try dsimp -zeta only)
    | with_reducible apply State.writeFields_keeps
    | with_reducible apply State.writeGlb_keeps
    | with_reducible apply State.writeWdg_keeps
    | with_reducible apply State.writeSaf_keeps
    | with_reducible apply State.writeTim_keeps
    | with_reducible apply State.writeHcm_keeps
    | with_reducible apply State.writeJig_keeps
    | with_reducible apply State.writeEvg_keeps
    | with_reducible apply State.writePrt_keeps
    | with_reducible apply State.writeSlc_keeps
    | with_reducible apply State.writeTnt_keeps
    | with_reducible apply Keeps.ite
    | decide
    | (split; all_goals (try dsimp -zeta only))

theorem State.access_keeps {s0 s : State} (h : Keeps s0 s) {x2 x3 f4} (h4 : ∀ y0, Keeps s0 y0 → Keeps s0 (f4 y0)) :
    Keeps s0 (State.access s x2 x3 f4) := by
  unfold State.access
  repeat' first
    | with_reducible exact h
    | with_reducible assumption
    | (intro; try dsimp -zeta only)
    | apply h4
    | with_reducible apply State.accErr_keeps
    | with_reducible apply Keeps.ite
    | decide
    | (split; all_goals (try dsimp -zeta only))

theorem State.regWrite_keeps {s0 s : State} (h : Keeps s0 s) {x2 x3 x4} :
    Keeps s0 (State.regWrite s x2 x3 x4) := by
  unfold State.regWrite
  repeat' first
    | with_reducible exact h
    | with_reducible assumption
    | (intro; try dsimp -zeta only)
    | with_reducible apply State.writeAt_keeps
    | with_reducible apply State.access_keeps
    | with_reducible apply Keeps.ite
    | decide
    | (split; all_goals (try dsimp -zeta only))

theorem State.mgtAccess_keeps {s0 s : State} (h : Keeps s0 s) {x2} :
    Keeps s0 (State.mgtAccess s x2) := by
  unfold State.mgtAccess
  repeat' first
    | with_reducible exact h
    | with_reducible assumption
    | (intro; try dsimp -zeta only)
    | with_reducible apply State.send_keeps
    | with_reducible apply State.regRead_keeps
    | with_reducible apply State.accErr_keeps
    | with_reducible apply State.regWrite_keeps
    | (extract_lets +onlyGivenNames x; refine Keeps.cut x ?_ ?_; dsimp -zeta only [x]; clear x; rotate_left; intro hx; clear_value x; rotate_left)
    | extract_lets +onlyGivenNames x
    | with_reducible apply Keeps.ite
    | decide
    | (split; all_goals (try dsimp -zeta only))
    | (dsimp +zetaDelta -zeta only)

end Sys2Proof.Machine
end

