-- ==== Sys2Proof/Laws/KeepsSettle.lean ====
section
/-!
SUPPORT. What the operations of Machine/Settle.lean keep of a state (`Keeps`), one law each.
-/
namespace Sys2Proof.Machine
set_option linter.all false

theorem State.startTxn_keeps {s0 s : State} (h : Keeps s0 s) {x2 x3} :
    Keeps s0 (State.startTxn s x2 x3) := by
  unfold State.startTxn
  repeat' first
    | with_reducible exact h
    | with_reducible assumption
    | (intro; try dsimp -zeta only)
    | with_reducible apply State.modTxn_keeps
    | with_reducible apply State.beginBackInv_keeps
    | with_reducible apply State.beginMaint_keeps
    | with_reducible apply State.beginRange_keeps
    | with_reducible apply State.beginCensus_keeps
    | with_reducible apply State.beginReq_keeps
    | with_reducible apply State.migAct_keeps
    | with_reducible apply Keeps.ite
    | decide
    | (split; all_goals (try dsimp -zeta only))

theorem State.pruneBarriers_keeps {s0 s : State} (h : Keeps s0 s) :
    Keeps s0 (State.pruneBarriers s) := by
  unfold State.pruneBarriers
  repeat' first
    | with_reducible exact h
    | with_reducible assumption
    | (intro; try dsimp -zeta only)
    | with_reducible apply Keeps.ite
    | decide
    | (split; all_goals (try dsimp -zeta only))
    | with_reducible apply barriersSet_keeps

theorem State.perform_keeps {s0 s : State} (h : Keeps s0 s) {x2} :
    Keeps s0 (State.perform s x2) := by
  unfold State.perform
  repeat' first
    | with_reducible exact h
    | with_reducible assumption
    | (intro; try dsimp -zeta only)
    | with_reducible apply State.retrySurplus_keeps
    | with_reducible apply State.retryWays_keeps
    | with_reducible apply State.retryCommits_keeps
    | with_reducible apply State.jigDisarm_keeps
    | with_reducible apply State.retryMig_keeps
    | with_reducible apply State.flushWhere_keeps
    | with_reducible apply State.gatherStep_keeps
    | with_reducible apply State.safeReact_keeps
    | with_reducible apply State.warmReset_keeps
    | with_reducible apply State.startTxn_keeps
    | with_reducible apply State.pruneBarriers_keeps
    | with_reducible apply State.admitChained_keeps
    | with_reducible apply State.fence_keeps
    | with_reducible apply State.tenantGo_keeps
    | with_reducible apply Keeps.ite
    | decide
    | (split; all_goals (try dsimp -zeta only))

theorem State.settleN_keeps {s0 s : State} (h : Keeps s0 s) {n : Nat} : Keeps s0 (State.settleN n s) := by
  induction n generalizing s with
  | zero => exact h
  | succ n ih =>
    unfold State.settleN
    split
    · exact h
    · exact ih (State.perform_keeps (dueSet_keeps h))

theorem State.react1_keeps {s0 s : State} (h : Keeps s0 s) :
    Keeps s0 (State.react1 s) := by
  unfold State.react1
  repeat' first
    | with_reducible exact h
    | with_reducible assumption
    | (intro; try dsimp -zeta only)
    | with_reducible apply State.settleN_keeps
    | with_reducible apply Keeps.ite
    | decide
    | (split; all_goals (try dsimp -zeta only))

theorem State.goOn_keeps {s0 s : State} (h : Keeps s0 s) :
    Keeps s0 (State.goOn s) := by
  unfold State.goOn
  repeat' first
    | with_reducible exact h
    | with_reducible assumption
    | (intro; try dsimp -zeta only)
    | with_reducible apply State.applyWaiting_keeps
    | with_reducible apply State.invStep_keeps
    | (extract_lets +onlyGivenNames x; refine Keeps.cut x ?_ ?_; dsimp -zeta only [x]; clear x; rotate_left; intro hx; clear_value x; rotate_left)
    | extract_lets +onlyGivenNames x
    | with_reducible apply Keeps.ite
    | with_reducible apply forUp_keeps
    | decide
    | (split; all_goals (try dsimp -zeta only))
    | (dsimp +zetaDelta -zeta only)

theorem State.settle_keeps {s0 s : State} (h : Keeps s0 s) :
    Keeps s0 (State.settle s) := by
  unfold State.settle
  repeat' first
    | with_reducible exact h
    | with_reducible assumption
    | (intro; try dsimp -zeta only)
    | with_reducible apply State.mirror_keeps
    | with_reducible apply State.pwrCheck_keeps
    | with_reducible apply State.react1_keeps
    | with_reducible apply State.goOn_keeps
    | with_reducible apply State.evaluate_keeps
    | (extract_lets +onlyGivenNames x; refine Keeps.cut x ?_ ?_; dsimp -zeta only [x]; clear x; rotate_left; intro hx; clear_value x; rotate_left)
    | extract_lets +onlyGivenNames x
    | with_reducible apply Keeps.ite
    | decide
    | (split; all_goals (try dsimp -zeta only))
    | (dsimp +zetaDelta -zeta only)

theorem State.logPorts_keeps {s0 t : State} (s : State) (h : Keeps s0 t) : Keeps s0 (State.logPorts s t) := by
  unfold State.logPorts
  refine forUp_keeps h (fun p u hu => ?_)
  dsimp only
  exact Keeps.ite (State.umvLog_keeps hu) hu

theorem State.logSlices_keeps {s0 t : State} (s : State) (h : Keeps s0 t) : Keeps s0 (State.logSlices s t) := by
  unfold State.logSlices
  extract_lets t1 t2
  have h1 : Keeps s0 t1 := forUp_keeps h (fun k u hu => Keeps.ite hu (State.umvLog_keeps hu))
  clear_value t1
  have h2 : Keeps s0 t2 := forUp_keeps h1 (fun k u hu => Keeps.ite (State.umvLog_keeps hu) hu)
  exact forUp_keeps h2 (fun k u hu => Keeps.ite (State.umvLog_keeps hu) hu)

theorem State.logMig_keeps {s0 t : State} (s : State) (h : Keeps s0 t) : Keeps s0 (State.logMig s t) := by
  unfold State.logMig
  dsimp only
  exact Keeps.ite h (State.umvLog_keeps h)

theorem State.logAll_keeps {s0 t : State} (s : State) (h : Keeps s0 t) : Keeps s0 (State.logAll s t) :=
  Keeps.ite (State.logMig_keeps s (State.logSlices_keeps s (State.logPorts_keeps s h))) h

theorem State.run_keeps {s0 s : State} (h : Keeps s0 s) {f2} (h2 : ∀ y0, Keeps s0 y0 → Keeps s0 (f2 y0)) :
    Keeps s0 (State.run s f2) := by
  unfold State.run
  repeat' first
    | with_reducible exact h
    | with_reducible assumption
    | (intro; try dsimp -zeta only)
    | apply h2
    | with_reducible apply State.settle_keeps
    | with_reducible apply State.logAll_keeps
    | with_reducible apply Keeps.ite
    | decide
    | (split; all_goals (try dsimp -zeta only))

theorem State.act_keeps {s0 s : State} (h : Keeps s0 s) {f2} (h2 : ∀ y0, Keeps s0 y0 → Keeps s0 (f2 y0)) :
    Keeps s0 (State.act s f2) := by
  unfold State.act
  repeat' first
    | with_reducible exact h
    | with_reducible assumption
    | (intro; try dsimp -zeta only)
    | apply h2
    | with_reducible apply Keeps.ite
    | decide
    | (split; all_goals (try dsimp -zeta only))

end Sys2Proof.Machine
end

