-- ==== Sys2Proof/Laws/KeepsBus.lean ====
section
/-!
SUPPORT. What the operations of Machine/Bus.lean keep of a state (`Keeps`), one law each.
-/
namespace Sys2Proof.Machine
set_option linter.all false

theorem State.reply_keeps {s0 s : State} (h : Keeps s0 s) {x2} :
    Keeps s0 (State.reply s x2) := by
  unfold State.reply
  repeat' first
    | with_reducible exact h
    | with_reducible assumption
    | (intro; try dsimp -zeta only)
    | with_reducible apply State.modBoot_keeps
    | with_reducible apply Keeps.ite
    | decide
    | (split; all_goals (try dsimp -zeta only))

theorem State.i3cValues_keeps {s0 : State} (who : Party) : ∀ (l : List Byte) (s : State), Keeps s0 s → Keeps s0 (s.i3cValues who l)
  | [], _, h => h
  | [_], _, h => State.accErr_keeps h
  | [_, _], _, h => State.accErr_keeps h
  | [_, _, _], _, h => State.accErr_keeps h
  | _ :: _ :: _ :: _ :: rest, _, h =>
    State.i3cValues_keeps who rest _ (State.run_keeps h (fun _ hu => State.modBoot_keeps (State.regWrite_keeps hu)))

theorem State.i3cFrame_keeps {s0 s : State} (h : Keeps s0 s) {x2 x3} :
    Keeps s0 (State.i3cFrame s x2 x3) := by
  unfold State.i3cFrame
  repeat' first
    | with_reducible exact h
    | with_reducible assumption
    | (intro; try dsimp -zeta only)
    | with_reducible apply State.modBoot_keeps
    | with_reducible apply State.i3cValues_keeps
    | with_reducible apply State.accErr_keeps
    | (extract_lets +onlyGivenNames x; refine Keeps.cut x ?_ ?_; dsimp -zeta only [x]; clear x; rotate_left; intro hx; clear_value x; rotate_left)
    | extract_lets +onlyGivenNames x
    | with_reducible apply Keeps.ite
    | decide
    | (split; all_goals (try dsimp -zeta only))
    | (dsimp +zetaDelta -zeta only)

theorem State.i3cWrite_keeps {s0 s : State} (h : Keeps s0 s) {x2} :
    Keeps s0 (State.i3cWrite s x2) := by
  unfold State.i3cWrite
  repeat' first
    | with_reducible exact h
    | with_reducible assumption
    | (intro; try dsimp -zeta only)
    | with_reducible apply State.modBoot_keeps
    | with_reducible apply State.reply_keeps
    | with_reducible apply State.i3cFrame_keeps
    | with_reducible apply State.accErr_keeps
    | (extract_lets +onlyGivenNames x; refine Keeps.cut x ?_ ?_; dsimp -zeta only [x]; clear x; rotate_left; intro hx; clear_value x; rotate_left)
    | extract_lets +onlyGivenNames x
    | with_reducible apply Keeps.ite
    | decide
    | (split; all_goals (try dsimp -zeta only))
    | (dsimp +zetaDelta -zeta only)

theorem State.i3cWord_keeps {s0 s : State} (h : Keeps s0 s) :
    Keeps s0 (State.i3cWord s).2 := by
  unfold State.i3cWord
  repeat' first
    | with_reducible exact h
    | with_reducible assumption
    | (intro; try dsimp -zeta only)
    | with_reducible apply State.regRead_keeps
    | with_reducible apply Keeps.ite
    | decide
    | (split; all_goals (try dsimp -zeta only))

theorem State.i3cWords_keeps {s0 s : State} (h : Keeps s0 s) {n : Nat} : Keeps s0 (State.i3cWords n s).2 := by
  induction n generalizing s with
  | zero => exact h
  | succ n ih => exact ih (State.modBoot_keeps (State.i3cWord_keeps h))

theorem State.i3cRead_keeps {s0 s : State} (h : Keeps s0 s) {x2 x3 x4} :
    Keeps s0 (State.i3cRead s x2 x3 x4) := by
  unfold State.i3cRead
  repeat' first
    | with_reducible exact h
    | with_reducible assumption
    | (intro; try dsimp -zeta only)
    | with_reducible apply State.reply_keeps
    | with_reducible apply State.i3cWord_keeps
    | with_reducible apply State.i3cWords_keeps
    | (extract_lets +onlyGivenNames x; refine Keeps.cut x ?_ ?_; dsimp -zeta only [x]; clear x; rotate_left; intro hx; clear_value x; rotate_left)
    | extract_lets +onlyGivenNames x
    | with_reducible apply Keeps.ite
    | decide
    | (split; all_goals (try dsimp -zeta only))
    | (dsimp +zetaDelta -zeta only)

theorem State.setDa_keeps {s0 s : State} (h : Keeps s0 s) {x2} :
    Keeps s0 (State.setDa s x2) := by
  unfold State.setDa
  repeat' first
    | with_reducible exact h
    | with_reducible assumption
    | (intro; try dsimp -zeta only)
    | with_reducible apply fset_keeps
    | with_reducible apply setFlag_keeps
    | with_reducible apply Keeps.ite
    | decide
    | (split; all_goals (try dsimp -zeta only))

theorem State.entDaa_keeps {s0 s : State} (h : Keeps s0 s) {x2 x3} :
    Keeps s0 (State.entDaa s x2 x3) := by
  unfold State.entDaa
  repeat' first
    | with_reducible exact h
    | with_reducible assumption
    | (intro; try dsimp -zeta only)
    | with_reducible apply State.setDa_keeps
    | with_reducible apply Keeps.ite
    | decide
    | (split; all_goals (try dsimp -zeta only))

theorem State.setDasa_keeps {s0 s : State} (h : Keeps s0 s) {x2 x3} :
    Keeps s0 (State.setDasa s x2 x3) := by
  unfold State.setDasa
  repeat' first
    | with_reducible exact h
    | with_reducible assumption
    | (intro; try dsimp -zeta only)
    | with_reducible apply State.reply_keeps
    | with_reducible apply State.setDa_keeps
    | with_reducible apply Keeps.ite
    | decide
    | (split; all_goals (try dsimp -zeta only))

theorem State.setNewDa_keeps {s0 s : State} (h : Keeps s0 s) {x2 x3} :
    Keeps s0 (State.setNewDa s x2 x3) := by
  unfold State.setNewDa
  repeat' first
    | with_reducible exact h
    | with_reducible assumption
    | (intro; try dsimp -zeta only)
    | with_reducible apply State.reply_keeps
    | with_reducible apply State.setDa_keeps
    | with_reducible apply Keeps.ite
    | decide
    | (split; all_goals (try dsimp -zeta only))

theorem State.rstDaa_keeps {s0 s : State} (h : Keeps s0 s) :
    Keeps s0 (State.rstDaa s) := by
  unfold State.rstDaa
  repeat' first
    | with_reducible exact h
    | with_reducible assumption
    | (intro; try dsimp -zeta only)
    | with_reducible apply fset_keeps
    | with_reducible apply setFlag_keeps
    | with_reducible apply Keeps.ite
    | decide
    | (split; all_goals (try dsimp -zeta only))

theorem State.getCcc_keeps {s0 s : State} (h : Keeps s0 s) {x2 x3} :
    Keeps s0 (State.getCcc s x2 x3) := by
  unfold State.getCcc
  repeat' first
    | with_reducible exact h
    | with_reducible assumption
    | (intro; try dsimp -zeta only)
    | with_reducible apply State.reply_keeps
    | with_reducible apply Keeps.ite
    | decide
    | (split; all_goals (try dsimp -zeta only))

theorem State.getPid_keeps {s0 s : State} (h : Keeps s0 s) {x2} :
    Keeps s0 (State.getPid s x2) := by
  unfold State.getPid
  repeat' first
    | with_reducible exact h
    | with_reducible assumption
    | (intro; try dsimp -zeta only)
    | with_reducible apply State.getCcc_keeps
    | with_reducible apply Keeps.ite
    | decide
    | (split; all_goals (try dsimp -zeta only))

theorem State.getStatus_keeps {s0 s : State} (h : Keeps s0 s) {x2} :
    Keeps s0 (State.getStatus s x2) := by
  unfold State.getStatus
  repeat' first
    | with_reducible exact h
    | with_reducible assumption
    | (intro; try dsimp -zeta only)
    | with_reducible apply State.modBoot_keeps
    | with_reducible apply State.getCcc_keeps
    | (extract_lets +onlyGivenNames x; refine Keeps.cut x ?_ ?_; dsimp -zeta only [x]; clear x; rotate_left; intro hx; clear_value x; rotate_left)
    | extract_lets +onlyGivenNames x
    | with_reducible apply Keeps.ite
    | decide
    | (split; all_goals (try dsimp -zeta only))
    | (dsimp +zetaDelta -zeta only)

theorem State.evCcc_keeps {s0 s : State} (h : Keeps s0 s) {x2} :
    Keeps s0 (State.evCcc s x2) := by
  unfold State.evCcc
  repeat' first
    | with_reducible exact h
    | with_reducible assumption
    | (intro; try dsimp -zeta only)
    | with_reducible apply State.getCcc_keeps
    | with_reducible apply Keeps.ite
    | decide
    | (split; all_goals (try dsimp -zeta only))

theorem State.otherCcc_keeps {s0 s : State} (h : Keeps s0 s) {x2 x3} :
    Keeps s0 (State.otherCcc s x2 x3) := by
  unfold State.otherCcc
  repeat' first
    | with_reducible exact h
    | with_reducible assumption
    | (intro; try dsimp -zeta only)
    | with_reducible apply State.modBoot_keeps
    | with_reducible apply State.reply_keeps
    | with_reducible apply Keeps.ite
    | decide
    | (split; all_goals (try dsimp -zeta only))

theorem State.hdrExit_keeps {s0 s : State} (h : Keeps s0 s) :
    Keeps s0 (State.hdrExit s) := by
  unfold State.hdrExit
  repeat' first
    | with_reducible exact h
    | with_reducible assumption
    | (intro; try dsimp -zeta only)
    | with_reducible apply State.modBoot_keeps
    | with_reducible apply Keeps.ite
    | decide
    | (split; all_goals (try dsimp -zeta only))

theorem State.tap_keeps {s0 s : State} (h : Keeps s0 s) {x2 x3} :
    Keeps s0 (State.tap s x2 x3) := by
  unfold State.tap
  repeat' first
    | with_reducible exact h
    | with_reducible assumption
    | (intro; try dsimp -zeta only)
    | with_reducible apply State.modBoot_keeps
    | with_reducible apply Keeps.ite
    | decide
    | (split; all_goals (try dsimp -zeta only))

theorem State.bypass_keeps {s0 s : State} (h : Keeps s0 s) {x2} :
    Keeps s0 (State.bypass s x2) := by
  unfold State.bypass
  repeat' first
    | with_reducible exact h
    | with_reducible assumption
    | (intro; try dsimp -zeta only)
    | with_reducible apply State.tap_keeps
    | with_reducible apply Keeps.ite
    | decide
    | (split; all_goals (try dsimp -zeta only))

theorem State.extest_keeps {s0 s : State} (h : Keeps s0 s) {x2} :
    Keeps s0 (State.extest s x2) := by
  unfold State.extest
  repeat' first
    | with_reducible exact h
    | with_reducible assumption
    | (intro; try dsimp -zeta only)
    | with_reducible apply State.modBoot_keeps
    | with_reducible apply State.tap_keeps
    | with_reducible apply State.bypass_keeps
    | with_reducible apply Keeps.ite
    | decide
    | (split; all_goals (try dsimp -zeta only))

theorem State.samplePreload_keeps {s0 s : State} (h : Keeps s0 s) {x2} :
    Keeps s0 (State.samplePreload s x2) := by
  unfold State.samplePreload
  repeat' first
    | with_reducible exact h
    | with_reducible assumption
    | (intro; try dsimp -zeta only)
    | with_reducible apply State.modBoot_keeps
    | with_reducible apply State.tap_keeps
    | with_reducible apply draw_keeps
    | (extract_lets +onlyGivenNames x; refine Keeps.cut x ?_ ?_; dsimp -zeta only [x]; clear x; rotate_left; intro hx; clear_value x; rotate_left)
    | extract_lets +onlyGivenNames x
    | with_reducible apply Keeps.ite
    | decide
    | (split; all_goals (try dsimp -zeta only))
    | (dsimp +zetaDelta -zeta only)

theorem State.drivePins_keeps {s0 s : State} (h : Keeps s0 s) {x2} :
    Keeps s0 (State.drivePins s x2) := by
  unfold State.drivePins
  repeat' first
    | with_reducible exact h
    | with_reducible assumption
    | (intro; try dsimp -zeta only)
    | with_reducible apply State.tap_keeps
    | with_reducible apply State.bypass_keeps
    | with_reducible apply Keeps.ite
    | decide
    | (split; all_goals (try dsimp -zeta only))

theorem State.debugOnly_keeps {s0 s : State} (h : Keeps s0 s) {f2} (h2 : ∀ y0, Keeps s0 y0 → Keeps s0 (f2 y0)) :
    Keeps s0 (State.debugOnly s f2) := by
  unfold State.debugOnly
  repeat' first
    | with_reducible exact h
    | with_reducible assumption
    | (intro; try dsimp -zeta only)
    | apply h2
    | with_reducible apply State.bypass_keeps
    | with_reducible apply Keeps.ite
    | decide
    | (split; all_goals (try dsimp -zeta only))

theorem State.tapHalt_keeps {s0 s : State} (h : Keeps s0 s) :
    Keeps s0 (State.tapHalt s) := by
  unfold State.tapHalt
  repeat' first
    | with_reducible exact h
    | with_reducible assumption
    | (intro; try dsimp -zeta only)
    | with_reducible apply State.tap_keeps
    | with_reducible apply State.debugOnly_keeps
    | with_reducible apply State.umvHalt_keeps
    | (extract_lets +onlyGivenNames x; refine Keeps.cut x ?_ ?_; dsimp -zeta only [x]; clear x; rotate_left; intro hx; clear_value x; rotate_left)
    | extract_lets +onlyGivenNames x
    | with_reducible apply Keeps.ite
    | decide
    | (split; all_goals (try dsimp -zeta only))
    | (dsimp +zetaDelta -zeta only)

theorem State.tapResume_keeps {s0 s : State} (h : Keeps s0 s) :
    Keeps s0 (State.tapResume s) := by
  unfold State.tapResume
  repeat' first
    | with_reducible exact h
    | with_reducible assumption
    | (intro; try dsimp -zeta only)
    | with_reducible apply State.tap_keeps
    | with_reducible apply State.debugOnly_keeps
    | with_reducible apply State.umvResume_keeps
    | (extract_lets +onlyGivenNames x; refine Keeps.cut x ?_ ?_; dsimp -zeta only [x]; clear x; rotate_left; intro hx; clear_value x; rotate_left)
    | extract_lets +onlyGivenNames x
    | with_reducible apply Keeps.ite
    | decide
    | (split; all_goals (try dsimp -zeta only))
    | (dsimp +zetaDelta -zeta only)

theorem State.umvSramError_keeps {s0 s : State} (h : Keeps s0 s) :
    Keeps s0 (State.umvSramError s) := by
  unfold State.umvSramError
  repeat' first
    | with_reducible exact h
    | with_reducible assumption
    | (intro; try dsimp -zeta only)
    | with_reducible apply State.cwdExpire_keeps
    | with_reducible apply Keeps.ite
    | decide
    | (split; all_goals (try dsimp -zeta only))

theorem State.umvSramRead_keeps {s0 s : State} (h : Keeps s0 s) :
    Keeps s0 (State.umvSramRead s) := by
  unfold State.umvSramRead
  repeat' first
    | with_reducible exact h
    | with_reducible assumption
    | (intro; try dsimp -zeta only)
    | with_reducible apply State.umvSramError_keeps
    | with_reducible apply State.jigRead_keeps
    | with_reducible apply draw_keeps
    | (extract_lets +onlyGivenNames x; refine Keeps.cut x ?_ ?_; dsimp -zeta only [x]; clear x; rotate_left; intro hx; clear_value x; rotate_left)
    | extract_lets +onlyGivenNames x
    | with_reducible apply Keeps.ite
    | decide
    | (split; all_goals (try dsimp -zeta only))
    | (dsimp +zetaDelta -zeta only)

theorem State.umvMem_keeps {s0 s : State} (h : Keeps s0 s) {x2} :
    Keeps s0 (State.umvMem s x2) := by
  unfold State.umvMem
  repeat' first
    | with_reducible exact h
    | with_reducible assumption
    | (intro; try dsimp -zeta only)
    | with_reducible apply State.tap_keeps
    | with_reducible apply State.debugOnly_keeps
    | with_reducible apply State.umvSramRead_keeps
    | with_reducible apply draw_keeps
    | (extract_lets +onlyGivenNames x; refine Keeps.cut x ?_ ?_; dsimp -zeta only [x]; clear x; rotate_left; intro hx; clear_value x; rotate_left)
    | extract_lets +onlyGivenNames x
    | with_reducible apply Keeps.ite
    | decide
    | (split; all_goals (try dsimp -zeta only))
    | (dsimp +zetaDelta -zeta only)

end Sys2Proof.Machine
end

