-- ==== Sys2Proof/Laws/KeepsCommand.lean ====
section
/-!
SUPPORT. What the operations of Machine/Command.lean keep of a state (`Keeps`), one law each.
-/
namespace Sys2Proof.Machine
set_option linter.all false

theorem State.atPort_keeps {s0 s : State} (h : Keeps s0 s) {x2 f3} (h3 : ∀ y0, Keeps s0 y0 → Keeps s0 (f3 y0)) :
    Keeps s0 (State.atPort s x2 f3) := by
  unfold State.atPort
  repeat' first
    | with_reducible exact h
    | with_reducible assumption
    | (intro; try dsimp -zeta only)
    | apply h3
    | with_reducible apply Keeps.ite
    | decide
    | (split; all_goals (try dsimp -zeta only))

theorem State.atSlice_keeps {s0 s : State} (h : Keeps s0 s) {x2 f3} (h3 : ∀ y0, Keeps s0 y0 → Keeps s0 (f3 y0)) :
    Keeps s0 (State.atSlice s x2 f3) := by
  unfold State.atSlice
  repeat' first
    | with_reducible exact h
    | with_reducible assumption
    | (intro; try dsimp -zeta only)
    | apply h3
    | with_reducible apply Keeps.ite
    | decide
    | (split; all_goals (try dsimp -zeta only))

theorem State.pin_keeps {s0 s : State} (h : Keeps s0 s) {f2} (h2 : ∀ y0, Keeps s0 y0 → Keeps s0 (f2 y0)) :
    Keeps s0 (State.pin s f2) := by
  unfold State.pin
  repeat' first
    | with_reducible exact h
    | with_reducible assumption
    | (intro; try dsimp -zeta only)
    | apply h2
    | with_reducible apply State.settle_keeps
    | with_reducible apply State.logAll_keeps
    | with_reducible apply Keeps.ite
    | decide
    | (split; all_goals (try dsimp -zeta only))

theorem State.message_keeps {s0 s : State} (h : Keeps s0 s) {x2 x3 x4 f5} (h5 : ∀ y0 y1, Keeps s0 y1 → Keeps s0 (f5 y0 y1)) :
    Keeps s0 (State.message s x2 x3 x4 f5) := by
  unfold State.message
  repeat' first
    | with_reducible exact h
    | with_reducible assumption
    | (intro; try dsimp -zeta only)
    | apply h5
    | with_reducible apply State.receive_keeps
    | with_reducible apply State.run_keeps
    | (extract_lets +onlyGivenNames x; refine Keeps.cut x ?_ ?_; dsimp -zeta only [x]; clear x; rotate_left; intro hx; clear_value x; rotate_left)
    | extract_lets +onlyGivenNames x
    | with_reducible apply Keeps.ite
    | decide
    | (split; all_goals (try dsimp -zeta only))
    | (dsimp +zetaDelta -zeta only)

theorem State.requestOf_keeps {s0 s : State} (h : Keeps s0 s) {x2 x3 x4} :
    Keeps s0 (State.requestOf s x2 x3 x4) := by
  unfold State.requestOf
  repeat' first
    | with_reducible exact h
    | with_reducible assumption
    | (intro; try dsimp -zeta only)
    | with_reducible apply State.message_keeps
    | with_reducible apply State.request_keeps
    | with_reducible apply Keeps.ite
    | decide
    | (split; all_goals (try dsimp -zeta only))

theorem State.rejected_keeps {s0 s : State} (h : Keeps s0 s) {p : Nat} {m : Msg} : Keeps s0 (State.rejected s p m) :=
  State.run_keeps h (fun _ hu => Keeps.ite (State.receive_keeps hu (fun _ hv => hv)) hu)

theorem State.command_keeps {s0 s : State} (h : Keeps s0 s) {x2 x3 x4} :
    Keeps s0 (State.command s x2 x3 x4) := by
  unfold State.command
  repeat' first
    | with_reducible exact h
    | with_reducible assumption
    | (intro; try dsimp -zeta only)
    | with_reducible apply State.regWrite_keeps
    | with_reducible apply State.run_keeps
    | with_reducible apply Keeps.ite
    | decide
    | (split; all_goals (try dsimp -zeta only))

theorem State.commandBit_keeps {s0 s : State} (h : Keeps s0 s) {x2 x3 x4 x5} :
    Keeps s0 (State.commandBit s x2 x3 x4 x5) := by
  unfold State.commandBit
  repeat' first
    | with_reducible exact h
    | with_reducible assumption
    | (intro; try dsimp -zeta only)
    | with_reducible apply State.command_keeps
    | with_reducible apply Keeps.ite
    | decide
    | (split; all_goals (try dsimp -zeta only))

end Sys2Proof.Machine
end

