-- ==== Sys2Proof/Laws/KeepsCmdAnswer.lean ====
section
/-!
SUPPORT. What the operations of Machine/CmdAnswer.lean keep of a state (`Keeps`), one law each.
-/
namespace Sys2Proof.Machine
set_option linter.all false

theorem State.winExpire_keeps {s0 s : State} (h : Keeps s0 s) {x2 x3} :
    Keeps s0 (State.winExpire s x2 x3) := by
  unfold State.winExpire
  repeat' first
    | with_reducible exact h
    | with_reducible assumption
    | (intro; try dsimp -zeta only)
    | with_reducible apply until_keeps
    | with_reducible apply State.setWin_keeps
    | (extract_lets +onlyGivenNames x; refine Keeps.cut x ?_ ?_; dsimp -zeta only [x]; clear x; rotate_left; intro hx; clear_value x; rotate_left)
    | extract_lets +onlyGivenNames x
    | with_reducible apply Keeps.ite
    | decide
    | (split; all_goals (try dsimp -zeta only))
    | (dsimp +zetaDelta -zeta only)

theorem State.holdTimeout_keeps {s0 s : State} (h : Keeps s0 s) {x2 x3} :
    Keeps s0 (State.holdTimeout s x2 x3) := by
  unfold State.holdTimeout
  repeat' first
    | with_reducible exact h
    | with_reducible assumption
    | (intro; try dsimp -zeta only)
    | with_reducible apply until_keeps
    | with_reducible apply State.closeTxn_keeps
    | with_reducible apply Keeps.ite
    | decide
    | (split; all_goals (try dsimp -zeta only))

end Sys2Proof.Machine
end

