-- ==== Sys2Proof/Laws/KeepsCmdLink.lean ====
section
/-!
SUPPORT. What the operations of Machine/CmdLink.lean keep of a state (`Keeps`), one law each.
-/
namespace Sys2Proof.Machine
set_option linter.all false

theorem State.flitOf_keeps {s0 s : State} (h : Keeps s0 s) {x2 x3 x4} :
    Keeps s0 (State.flitOf s x2 x3 x4) := by
  unfold State.flitOf
  repeat' first
    | with_reducible exact h
    | with_reducible assumption
    | (intro; try dsimp -zeta only)
    | with_reducible apply State.atPort_keeps
    | with_reducible apply State.rxFlit_keeps
    | with_reducible apply State.run_keeps
    | with_reducible apply Keeps.ite
    | decide
    | (split; all_goals (try dsimp -zeta only))

theorem State.ackDelayEnd_keeps {s0 s : State} (h : Keeps s0 s) {x2} :
    Keeps s0 (State.ackDelayEnd s x2) := by
  unfold State.ackDelayEnd
  repeat' first
    | with_reducible exact h
    | with_reducible assumption
    | (intro; try dsimp -zeta only)
    | with_reducible apply State.flitClock_keeps
    | with_reducible apply until_keeps
    | with_reducible apply Keeps.ite
    | decide
    | (split; all_goals (try dsimp -zeta only))

theorem State.nakAgain_keeps {s0 s : State} (h : Keeps s0 s) {x2} :
    Keeps s0 (State.nakAgain s x2) := by
  unfold State.nakAgain
  repeat' first
    | with_reducible exact h
    | with_reducible assumption
    | (intro; try dsimp -zeta only)
    | with_reducible apply modPort_keeps
    | with_reducible apply until_keeps
    | (extract_lets +onlyGivenNames x; refine Keeps.cut x ?_ ?_; dsimp -zeta only [x]; clear x; rotate_left; intro hx; clear_value x; rotate_left)
    | extract_lets +onlyGivenNames x
    | with_reducible apply Keeps.ite
    | decide
    | (split; all_goals (try dsimp -zeta only))
    | (dsimp +zetaDelta -zeta only)

theorem State.replayEnd_keeps {s0 s : State} (h : Keeps s0 s) {x2} :
    Keeps s0 (State.replayEnd s x2) := by
  unfold State.replayEnd
  repeat' first
    | with_reducible exact h
    | with_reducible assumption
    | (intro; try dsimp -zeta only)
    | with_reducible apply State.startReplay_keeps
    | with_reducible apply until_keeps
    | with_reducible apply Keeps.ite
    | decide
    | (split; all_goals (try dsimp -zeta only))

theorem State.retrained_keeps {s0 s : State} (h : Keeps s0 s) {x2 x3} :
    Keeps s0 (State.retrained s x2 x3) := by
  unfold State.retrained
  repeat' first
    | with_reducible exact h
    | with_reducible assumption
    | (intro; try dsimp -zeta only)
    | with_reducible apply modPort_keeps
    | with_reducible apply Keeps.ite
    | decide
    | (split; all_goals (try dsimp -zeta only))

theorem State.retrainEnd_keeps {s0 s : State} (h : Keeps s0 s) {x2} :
    Keeps s0 (State.retrainEnd s x2) := by
  unfold State.retrainEnd
  repeat' first
    | with_reducible exact h
    | with_reducible assumption
    | (intro; try dsimp -zeta only)
    | with_reducible apply State.linkReset_keeps
    | with_reducible apply until_keeps
    | with_reducible apply Keeps.ite
    | decide
    | (split; all_goals (try dsimp -zeta only))

theorem State.sidebandAccess_keeps {s0 s : State} (h : Keeps s0 s) {x2} :
    Keeps s0 (State.sidebandAccess s x2) := by
  unfold State.sidebandAccess
  repeat' first
    | with_reducible exact h
    | with_reducible assumption
    | (intro; try dsimp -zeta only)
    | with_reducible apply modPort_keeps
    | with_reducible apply draw_keeps
    | (extract_lets +onlyGivenNames x; refine Keeps.cut x ?_ ?_; dsimp -zeta only [x]; clear x; rotate_left; intro hx; clear_value x; rotate_left)
    | extract_lets +onlyGivenNames x
    | with_reducible apply Keeps.ite
    | decide
    | (split; all_goals (try dsimp -zeta only))
    | (dsimp +zetaDelta -zeta only)

theorem State.reorderEnd_keeps {s0 s : State} (h : Keeps s0 s) {x2} :
    Keeps s0 (State.reorderEnd s x2) := by
  unfold State.reorderEnd
  repeat' first
    | with_reducible exact h
    | with_reducible assumption
    | (intro; try dsimp -zeta only)
    | with_reducible apply State.txHeld_keeps
    | with_reducible apply until_keeps
    | with_reducible apply Keeps.ite
    | decide
    | (split; all_goals (try dsimp -zeta only))

end Sys2Proof.Machine
end

