-- ==== Sys2Proof/Laws/KeepsCmdSlice.lean ====
section
/-!
SUPPORT. What the operations of Machine/CmdSlice.lean keep of a state (`Keeps`), one law each.
-/
namespace Sys2Proof.Machine
set_option linter.all false

theorem State.sfScrubPass_keeps {s0 s : State} (h : Keeps s0 s) {x2 x3} :
    Keeps s0 (State.sfScrubPass s x2 x3) := by
  unfold State.sfScrubPass
  repeat' first
    | with_reducible exact h
    | with_reducible assumption
    | (intro; try dsimp -zeta only)
    | with_reducible apply State.sfScrub_keeps
    | with_reducible apply State.latentRan_keeps
    | with_reducible apply Keeps.ite
    | decide
    | (split; all_goals (try dsimp -zeta only))

theorem State.hcScrubPass_keeps {s0 s : State} (h : Keeps s0 s) {x2 x3} :
    Keeps s0 (State.hcScrubPass s x2 x3) := by
  unfold State.hcScrubPass
  repeat' first
    | with_reducible exact h
    | with_reducible assumption
    | (intro; try dsimp -zeta only)
    | with_reducible apply State.hcScrub_keeps
    | with_reducible apply State.latentRan_keeps
    | with_reducible apply Keeps.ite
    | decide
    | (split; all_goals (try dsimp -zeta only))

end Sys2Proof.Machine
end

