-- ==== Sys2Proof/Laws/KeepsCmdTenant.lean ====
section
/-!
SUPPORT. What the operations of Machine/CmdTenant.lean keep of a state (`Keeps`), one law each.
-/
namespace Sys2Proof.Machine
set_option linter.all false

theorem State.stgAccess_keeps {s0 s : State} (h : Keeps s0 s) {x2 x3 x4} :
    Keeps s0 (State.stgAccess s x2 x3 x4) := by
  unfold State.stgAccess
  repeat' first
    | with_reducible exact h
    | with_reducible assumption
    | (intro; try dsimp -zeta only)
    | with_reducible apply State.command_keeps
    | with_reducible apply State.regRead_keeps
    | with_reducible apply State.access_keeps
    | with_reducible apply State.run_keeps
    | with_reducible apply Keeps.ite
    | decide
    | (split; all_goals (try dsimp -zeta only))

theorem State.vecCommand_keeps {s0 s : State} (h : Keeps s0 s) {x2 f3} (h3 : ∀ y0, Keeps s0 y0 → Keeps s0 (f3 y0)) :
    Keeps s0 (State.vecCommand s x2 f3) := by
  unfold State.vecCommand
  repeat' first
    | with_reducible exact h
    | with_reducible assumption
    | (intro; try dsimp -zeta only)
    | apply h3
    | with_reducible apply Keeps.ite
    | decide
    | (split; all_goals (try dsimp -zeta only))

end Sys2Proof.Machine
end

