-- ==== Sys2Proof/WellFormed.lean ====
section
/-!
DEFINITION. Well-formed commands: the numbers name units that the chiplet has, a flit has 15 slots, a message has the
slots its LEN says and, where the row is one message, the opcode of that message.
-/
namespace Sys2Proof

/-- A message has LEN slots after its header (05_derzon_messages.md R167, R172). -/
def Msg.wf (m : Msg) : Bool := decide (m.body.length = m.len.toNat)

/-- The parity error, if any, is on a byte of the transfer (21_register_reference.md R734). -/
def I3cWrite.wf (x : I3cWrite) : Bool :=
  match x.parityAt with
  | none => true
  | some i => decide (i < x.bytes.length)

/-- The command is well-formed. -/
def Instr.wf : Instr → Bool
  | .coldReset => true
  | .rstNDeassert _ _ => true
  | .bootFuse read => (read.corrected ++ read.bad).all (fun i => decide (i < 32))
  | .bootRom _ => true
  | .spiImageFetch _ => true
  | .bootIcmdStart _ => true
  | .bootIdataWrite _ _ => true
  | .bootIcmdLoad _ => true
  | .bootAuth => true
  | .bootInit => true
  | .bootTrainEnd => true
  | .wrstNAssert => true
  | .warmResetFlushEnd => true
  | .wrstNDeassert => true
  | .glbRstWarm _ _ => true
  | .glbRstUmevo _ _ => true
  | .unlkNonce _ => true
  | .unlkDataWrite _ _ => true
  | .unlkVerify _ => true
  | .unlkVerifyDone => true
  | .fuseRevoke _ _ => true
  | .testEnAssert => true
  | .supplyFault _ => true
  | .vddPhyReturn => true
  | .tempWarn _ => true
  | .tempTrip _ => true
  | .refclkLoss => true
  | .refclkReturn => true
  | .llPayloadRx p f => decide (p < 12) && decide (f.slots.length = 15)
  | .llIdleRx p f => decide (p < 12) && decide (f.slots.length = 15)
  | .llNakRx p f => decide (p < 12) && decide (f.slots.length = 15)
  | .llInitRx p f => decide (p < 12) && decide (f.slots.length = 15)
  | .llDownNoticeRx p f => decide (p < 12) && decide (f.slots.length = 15)
  | .llDrainDone p => decide (p < 12)
  | .llAckDelayExpiry p => decide (p < 12)
  | .llNakResend p => decide (p < 12)
  | .llReplayTimeout p => decide (p < 12)
  | .uciePhyRetrain p => decide (p < 12)
  | .llRetrainCmd p _ => decide (p < 12)
  | .ucieRetrainDone p _ => decide (p < 12)
  | .llRetrainTimeout p => decide (p < 12)
  | .ucieTrainDone p _ _ => decide (p < 12)
  | .ucieTrainFail p => decide (p < 12)
  | .llLinkResetTimeout p => decide (p < 12)
  | .portReset p _ => decide (p < 12)
  | .ucieLowPowerRequest p => decide (p < 12)
  | .vendorSidebandRx p _ => decide (p < 12)
  | .messageForward p m => decide (p < 12) && m.wf
  | .rdShared p m => decide (p < 12) && m.wf && m.op == 0x01
  | .rdUnique p m => decide (p < 12) && m.wf && m.op == 0x02
  | .rdOnce p m => decide (p < 12) && m.wf && m.op == 0x03
  | .rdNoSnp p m => decide (p < 12) && m.wf && m.op == 0x04
  | .cleanUnique p m => decide (p < 12) && m.wf && m.op == 0x05
  | .makeUnique p m => decide (p < 12) && m.wf && m.op == 0x06
  | .evictClean p m => decide (p < 12) && m.wf && m.op == 0x07
  | .wrBackFull p m => decide (p < 12) && m.wf && m.op == 0x08
  | .wrUnique p m => decide (p < 12) && m.wf && m.op == 0x09
  | .wrPosted p m => decide (p < 12) && m.wf && m.op == 0x0A
  | .wrNt p m => decide (p < 12) && m.wf && m.op == 0x0B
  | .wrNoSnp p m => decide (p < 12) && m.wf && m.op == 0x0C
  | .reserveRd p m => decide (p < 12) && m.wf && m.op == 0x0D
  | .condWr p m => decide (p < 12) && m.wf && m.op == 0x0E
  | .atomicFar p m => decide (p < 12) && m.wf && m.op == 0x0F
  | .gatherRd p m => decide (p < 12) && m.wf && m.op == 0x10
  | .gatherRdFf p m => decide (p < 12) && m.wf && m.op == 0x11
  | .scatterWr p m => decide (p < 12) && m.wf && m.op == 0x12
  | .scatterWrFf p m => decide (p < 12) && m.wf && m.op == 0x13
  | .gatherScatterComplete sl _ => decide (sl < 18)
  | .fenceW p m => decide (p < 12) && m.wf && m.op == 0x14
  | .fenceFull p m => decide (p < 12) && m.wf && m.op == 0x15
  | .fenceFullComp p _ => decide (p < 12)
  | .postedWriteCommit p _ => decide (p < 12)
  | .clampAlloc p m => decide (p < 12) && m.wf && m.op == 0x19
  | .clampFree p m => decide (p < 12) && m.wf && m.op == 0x1A
  | .lockAcq p m => decide (p < 12) && m.wf && m.op == 0x1B
  | .lockRel p m => decide (p < 12) && m.wf && m.op == 0x1C
  | .barrierArrive p m => decide (p < 12) && m.wf && m.op == 0x1D
  | .clampSetPrio p m => decide (p < 12) && m.wf && m.op == 0x1E
  | .clampIngressRetry ls => decide (ls < 16)
  | .snpRsp p m => decide (p < 12) && m.wf && m.op == 0x40
  | .snpRspData p m => decide (p < 12) && m.wf && m.op == 0x61
  | .compAck p m => decide (p < 12) && m.wf && m.op == 0x43
  | .settle p m => decide (p < 12) && m.wf && m.op == 0x44
  | .ingressRetry sl _ => decide (sl < 18)
  | .memData p m => decide (p < 12) && m.wf && m.op == 0x62
  | .memCancelled p m => decide (p < 12) && m.wf && m.op == 0x4D
  | .memWrAck p m => decide (p < 12) && m.wf && m.op == 0x4E
  | .memOfferRsp p m => decide (p < 12) && m.wf && m.op == 0x4F
  | .censusRsp p m => decide (p < 12) && m.wf && m.op == 0xA1
  | .seizeAck p m => decide (p < 12) && m.wf && m.op == 0xA3
  | .rcvInvRsp p m => decide (p < 12) && m.wf && m.op == 0xA5
  | .regRd p m => decide (p < 12) && m.wf && m.op == 0x80
  | .regWr p m => decide (p < 12) && m.wf && m.op == 0x81
  | .intAck p m => decide (p < 12) && m.wf && m.op == 0x84
  | .idleHint p m => decide (p < 12) && m.wf && m.op == 0x85
  | .latencyTolerance p m => decide (p < 12) && m.wf && m.op == 0x86
  | .latencyAckAfterWake _ => true
  | .timesyncRequestRx p m => decide (p < 12) && m.wf && m.op == 0x88
  | .timesyncResponseRx p m => decide (p < 12) && m.wf && m.op == 0x88
  | .timesyncInterval => true
  | .snoopTimeoutOwner sl trk => decide (sl < 18) && decide (trk < 1024)
  | .snoopTimeoutSharer sl trk _ _ => decide (sl < 18) && decide (trk < 1024)
  | .censusSnoopTimeout sl trk _ _ _ => decide (sl < 18) && decide (trk < 1024)
  | .recallCopyTimeout sl trk _ _ => decide (sl < 18) && decide (trk < 1024)
  | .settleTimeout sl trk => decide (sl < 18) && decide (trk < 1024)
  | .seizeCloseTimeout sl trk => decide (sl < 18) && decide (trk < 1024)
  | .compAckTimeout sl trk => decide (sl < 18) && decide (trk < 1024)
  | .memrdTimeout sl trk => decide (sl < 18) && decide (trk < 1024)
  | .memwrTimeout sl _ => decide (sl < 18)
  | .memOfferTimeout sl _ => decide (sl < 18)
  | .companionFill sl trk => decide (sl < 18) && decide (trk < 1024)
  | .companionFillTimeout sl trk => decide (sl < 18) && decide (trk < 1024)
  | .windowEntryExpiry ls wset => decide (ls < 16) && decide (wset < 2048)
  | .rsvHoldTimeout sl _ => decide (sl < 18)
  | .cwbTimeout p e => decide (p < 12) && decide (e < 32)
  | .sfScrubPass sl _ => decide (sl < 18)
  | .hcScrubPass sl _ => decide (sl < 18)
  | .sfRdselGo _ sl _ => decide (sl < 18)
  | .sfLooseClear _ sl => decide (sl < 18)
  | .hcDisableRequest _ => true
  | .hcEnableRequest _ => true
  | .hcDrainComplete => true
  | .hcmMopClean _ _ => true
  | .hcmMopCleanInv _ _ => true
  | .hcmMopInvClean _ _ => true
  | .hcmRngClean _ _ => true
  | .hcmRngCleanInv _ _ => true
  | .hcmRngInvClean _ _ => true
  | .hcmRngAbort _ => true
  | .rangeEngineSet sl ctx => decide (sl < 18) && decide (ctx < 2)
  | .sliceFault sl _ => decide (sl < 18)
  | .hcScanoutDone sl => decide (sl < 18)
  | .sfScanoutDone sl => decide (sl < 18)
  | .scanoutStall sl => decide (sl < 18)
  | .evictionHoldEnd sl => decide (sl < 18)
  | .censusSetStart sl => decide (sl < 18)
  | .migStart _ _ => true
  | .migAutoStart sl => decide (sl < 18)
  | .migAbort _ => true
  | .migLimitWrite _ _ => true
  | .migCopyUnit => true
  | .migHandoverComplete => true
  | .replaceRequestPeriodic => true
  | .lossLogNext _ => true
  | .dmonStart _ sl => decide (sl < 18)
  | .dmonClrMin _ sl => decide (sl < 18)
  | .dmonAutoDue sl => decide (sl < 18)
  | .dmonMeasureEnd sl _ => decide (sl < 18)
  | .ageingDue sl => decide (sl < 18)
  | .ageingEnd sl _ _ => decide (sl < 18)
  | .hprobeGo _ _ => true
  | .hprobeDone => true
  | .clampBreak _ sl _ => decide (sl < 18)
  | .clampHselGo _ sl _ => decide (sl < 18)
  | .tenantResetGo _ _ => true
  | .tenantDrain _ => true
  | .tenantInvalidate _ => true
  | .tenantClean _ => true
  | .tenantRevoke _ => true
  | .tenantClear _ => true
  | .tenantStepEnd _ => true
  | .stgAlloc _ _ => true
  | .stgFree _ _ _ => true
  | .stgLoad _ _ _ => true
  | .stgDataAccess _ _ _ => true
  | .overlayValidated => true
  | .eventTaken src => decide (src < 512)
  | .vectorCoalTimeout vec => decide (vec < 1024)
  | .interruptResend vec => decide (vec < 1024)
  | .evgAck _ vec => decide (vec < 1024)
  | .evgFlush _ vec => decide (vec < 1024)
  | .evgVcoalWrite _ vec _ => decide (vec < 1024)
  | .evgRetain => true
  | .evgWake => true
  | .cwdKeyA _ _ => true
  | .cwdKeyB _ _ => true
  | .cwdCtlWrite _ _ => true
  | .cwdRejectedWrite _ _ => true
  | .cwdExpiry => true
  | .healthyIntervalEnd => true
  | .swdService _ _ => true
  | .swdExpiry => true
  | .swdHardTimerEnd => true
  | .timSetGo _ _ => true
  | .timNowRead _ => true
  | .ppsEdge => true
  | .ppsMiss => true
  | .sliceIdleTimeout sl => decide (sl < 18)
  | .powerEntryDone sl => decide (sl < 18)
  | .sliceExitDone sl => decide (sl < 18)
  | .voltageEvaluation => true
  | .stallDetected _ => true
  | .comparatorMismatch _ => true
  | .trackerAgeExceeded sl trk => decide (sl < 18) && decide (trk < 1024)
  | .latentTest _ _ _ => true
  | .pinReadbackMismatch => true
  | .safCmdEnter _ _ => true
  | .safLogNext _ => true
  | .jigArm _ ch _ => decide (ch < 8)
  | .jigDisarm _ ch => decide (ch < 8)
  | .jigDisarmAll _ => true
  | .jigReorderTimeout p => decide (p < 12)
  | .i3cPrivateWrite x => x.wf
  | .i3cPrivateRead _ _ _ => true
  | .entdaa _ _ => true
  | .setdasa _ _ => true
  | .setnewda _ _ => true
  | .rstdaa => true
  | .getpid _ => true
  | .getbcr _ => true
  | .getdcr _ => true
  | .getstatus _ => true
  | .enec _ => true
  | .disec _ => true
  | .jtagExtest _ => true
  | .jtagSamplePreload _ => true
  | .jtagIdcode => true
  | .jtagClamp => true
  | .jtagHighz => true
  | .umvHalt => true
  | .umvResume => true
  | .umvMem _ => true
  | .jtagBypass _ => true
  | .trstNAssert => true
  | .registerWrite _ _ _ => true
  | .flitClock p => decide (p < 12)
  | .unexpectedMessage p m => decide (p < 12) && m.wf
  | .ucieSidebandRegAccess p _ _ _ => decide (p < 12)
  | .testEnDeassert => true
  | .hcScanoutTimeout sl => decide (sl < 18)
  | .sfEntryReadDone sl => decide (sl < 18)
  | .clampEntryReadDone sl => decide (sl < 18)
  | .umevoSramError => true
  | .unlistedCcc _ _ => true
  | .hdrExitPattern => true

end Sys2Proof
end

