-- ==== Sys2Proof/Tests/Slice0.lean ====
section
/-!
SUPPORT. Tests of the model: terms that the checks of well-formedness refuse, examples of the spec worked by hand, and for each
statement a state and operands that meet the hypotheses of its clauses.
-/
namespace Sys2Proof.Slice0
set_option linter.all false
set_option Elab.async false
open Sys2Proof Sys2Proof.Machine

/-! ## A small chiplet -/

/-- Tenant 1: its nodes are 0x10 to 0x1F, and it may do everything in the first MiB. -/
def ten1 : TenCfg :=
  { TenCfg.none 1 with
    weight := 64, cap := 16, sfQuota := 64, wayMask := 0xFFFF, clampQuota := 8, dom := [(0x10, 4)],
    allThresh := 15, windows := [⟨0, true, true, true, 0, 0xFFFFF⟩],
    vectors := [⟨0, true, 0x10, 4, 10, 0xFFFF⟩] }

/-- Node 0x100 is the home; 0x10 to 0x1F are behind client port 0, 0x20 is the memory of port 1, 0x30 lies behind peer port 2 and
0x40 behind client port 3. -/
def pat : Pattern :=
  { Pattern.none with
    home := 0x100, nActive := 2, lsmap := [0, 1], twin := 5,
    ports := [(.client, 3), (.memory, 3), (.peer, 3), (.client, 3)],
    nodemap := [⟨0x10, 4, false, 0, none⟩, ⟨0x20, 0, false, 1, none⟩, ⟨0x30, 0, false, 2, none⟩, ⟨0x40, 0, false, 3, none⟩,
      ⟨0x100, 0, true, 0, none⟩],
    masters := [(0x10, 0)], ranges := [⟨0, 0xFFFFF, 0, 6, [1], 0⟩], hashBits := 1, masks := [0x40], table := [0, 1],
    tens := [ten1], mgmt := some 1, smNode := some 0x11, smI3c := some 0x08, maxState := 4, minActive := 1 }

/-- A port in ACTIVE with credits of every class. -/
def upPort : Port :=
  { Port.zero with st := .active, rate := 3, ucieUp := true, cr := (List.range 6).map (fun c => (c, ⟨512, 0, 0, 0⟩)) }

/-- The chiplet out of reset, its Pattern in force, Umevo running and its ports ACTIVE, with nothing under way. -/
def up : State := State.fset
  { State.reset with
    boot := { Boot.zero with rstN := false }, pat := pat, table := [0, 1], logic := [(1, { LogSlice.zero with phys := 1 })],
    ports := [(0, upPort), (1, upPort), (2, upPort), (3, upPort)] } F.WDG_UMV_STATUS_STATE 0

/-- The same with READY. -/
def ready : State := up.setFlag F.GLB_BOOT_STATUS_READY true

/-- The same with the Pattern sealed. -/
def sealed : State := ready.setFlag F.PAT_STATUS_SEALED true

/-- Port 0 changed. -/
def port0 (f : Port → Port) : State := up.modPort 0 f

/-- A flit with its CRC. -/
def flit (typ : BitVec 4) (seq ack : BitVec 12) (slots : List Slot) : Flit :=
  let f : Flit := ⟨seq, ack, typ, 7, 0, 7, 0, 0, slots, 0⟩
  { f with crc := flitCrc f }

/-- A request of tenant 1 of node 0x10 on a line. -/
def rq (op : BitVec 8) (src : Node) (tag : Tag) (body : List Slot) : Msg := mkMsg op 1 src 0x100 tag 0x1F 0 false 0 body

/-! ## The link layer -/

/-- A one-slot message, as a CompAck. -/
def ackMsg : Msg := mkMsg 0xA0 1 0x10 0x100 5 0x1F 0 false 0 []
/-- A flit that carries it. -/
def ackFlit (seq : BitVec 12) : Flit := flit flitPayload seq 0xFFF (padSlots (toSlots ackMsg))
/-- A flit of another type. -/
def plainFlit (typ : BitVec 4) (seq : BitVec 12) : Flit := flit typ seq 0xFFF (padSlots [])
/-- Port 0 with one flit in its replay buffer. -/
def replaying : State := port0 (fun q => { q with replay := [(0, padSlots (toSlots ackMsg))], nextSeq := 1 })
/-- Port 0 in INIT, about to enter ACTIVE. -/
def initial : State := (port0 (fun q => { q with st := .init, sentOk := true })).setFlag F.GLB_BOOT_STATUS_READY true
/-- An INIT record of kind FULL: version, AGENT 1 (client), RX_OK, NODE 0x10 and 128 slots of each class. -/
def initRec (version agent : Nat) : Slot :=
  BitVec.ofNat 128 (version + 2 ^ 10 + agent * 2 ^ 12 + 0x10 * 2 ^ 16 + 128 * (2 ^ 36 + 2 ^ 48 + 2 ^ 60 + 2 ^ 72 + 2 ^ 84 + 2 ^ 96))

/-- A flit made by `flit` carries its own CRC. -/
theorem flit_crc (typ : BitVec 4) (seq ack : BitVec 12) (slots : List Slot) :
    (flit typ seq ack slots).crc = flitCrc (flit typ seq ack slots) := rfl

theorem witness_LinkReceive :
    up.boot.rstN = false ∧ (up.port 5).st = .down ∧ (up.port 0).st = .active ∧ (up.port 0).notices = 0 ∧
    ({ flit flitIdle 0 0xFFF [] with crc := 0 } : Flit).crc ≠ flitCrc { flit flitIdle 0 0xFFF [] with crc := 0 } ∧
    (ackFlit 512).seq - (up.port 0).expect = 512 ∧ (ackFlit 511).seq - (up.port 0).expect = 511 ∧ (up.port 0).nakPend = false ∧
    (ackFlit 1).ack + 1 = ((up.port 0).replay.headD ((up.port 0).nextSeq, [])).1 ∧ (ackFlit 1).cls0 = 7 ∧ (ackFlit 1).cls1 = 7 ∧
    (((toSlots ackMsg).headD 0).extractLsb' 0 8 : BitVec 8) ≠ 0 ∧ opClass (((toSlots ackMsg).headD 0).extractLsb' 0 8) < 6 ∧
    (((toSlots ackMsg).headD 0).extractLsb' 8 5 : BitVec 5) = 0 ∧
    (up.port 0).rxPart = none ∧ 3584 ≤ ((ackFlit 3584).seq - (up.port 0).expect).toNat ∧
    (plainFlit flitNak 0).ack + 1 = 0 ∧ (replaying.port 0).replay.map (·.1) = [0] ∧
    (replaying.port 0).replayAt = none ∧ (replaying.port 0).replays < replaying.fget F.PRT_LL_TIMER_REPLAY_LIMIT 0 := by decide +kernel

theorem witness_LinkInitExchange :
    (initial.port 0).st = .init ∧ (initial.port 0).notices = 0 ∧ (initial.port 0).resume = false ∧ (initial.port 0).sentOk = true ∧
    ((initRec 2 1).extractLsb' 0 8 : BitVec 8) ≠ 1 ∧ ((initRec 1 3).extractLsb' 0 8 : BitVec 8) = 1 ∧
    agentOk (initial.role 0) ((initRec 1 3).extractLsb' 12 4 : BitVec 4).toNat = false ∧
    ((initRec 1 1).extractLsb' 8 2 : BitVec 2) = 0 ∧ agentOk (initial.role 0) ((initRec 1 1).extractLsb' 12 4 : BitVec 4).toNat = true ∧
    (∀ c ∈ sends (initial.role 0), c < 6 ∧ 32 ≤ ((initRec 1 1).extractLsb' (36 + 12 * c) 12 : BitVec 12).toNat) ∧
    (initRec 1 1).getLsbD 10 = true := by decide +kernel

/-- Port 0 in state `st`. -/
def inState (st : PortState) : State := port0 (fun q => { q with st := st })

theorem witness_LinkTransmit :
    up.boot.rstN = false ∧ (up.port 4).st = .down ∧ ((initial.modPort 0 (fun q => { q with sentOk := false })).port 0).st = .init ∧
    (initial.modPort 0 (fun q => { q with sentOk := false })).ready = true ∧
    ((initial.modPort 0 (fun q => { q with sentOk := false })).port 0).gotInit = false ∧
    ((initial.modPort 0 (fun q => { q with sentOk := false })).port 0).sentOk = false ∧
    ((port0 (fun q => { q with notices := 2 })).port 0).st = .active ∧ 1 < ((port0 (fun q => { q with notices := 2 })).port 0).notices ∧
    ((port0 (fun q => { q with notices := 1 })).port 0).notices = 1 ∧ ((port0 (fun q => { q with notices := 1 })).port 0).thenReset = false ∧
    ((port0 (fun q => { q with nakDue := true })).port 0).nakDue = true ∧ (up.port 0).notices = 0 ∧ (up.port 0).held = none ∧
    (up.port 0).again = none ∧ (up.port 0).nakDue = false ∧ (up.port 0).replayAt = none ∧ (up.port 0).tx = [] ∧ (up.port 0).txSlots = [] ∧
    ((replaying.modPort 0 (fun q => { q with replayAt := some 0 })).port 0).replayAt = some 0 ∧
    ((replaying.port 0).replay.find? (fun r => r.1 == 0)).isSome = true ∧ ((port0 (fun q => { q with tx := [ackMsg] })).port 0).tx = [ackMsg] ∧
    (up.port 0).wait = none ∧ up.jig = [] ∧ ackMsg.op ≠ Op.timeSync ∧ ackMsg.body.length < 15 ∧ (up.port 0).replay.length < 512 ∧
    ((up.port 0).credit (opClass ackMsg.op)).used + ackMsg.body.length + 1 ≤ ((up.port 0).credit (opClass ackMsg.op)).adv := by
  decide +kernel

/-- A link reset of port 0 under way, its buffers drained, `fails` attempts having failed. -/
def resetting (fails : Nat) : State := port0 (fun q => { q with st := .init, inReset := true, fails := fails })
theorem witness_LinkTimersAndTraining :
    ((port0 (fun q => { q with ackOwed := true })).port 0).ackOwed = true ∧ (up.port 0).st = .active ∧ (up.port 0).notices = 0 ∧
    ((port0 (fun q => { q with nakPend := true })).port 0).nakPend = true ∧ (replaying.port 0).st = .active ∧
    (replaying.port 0).replay.map (·.1) = [0] ∧ (replaying.port 0).replays < replaying.fget F.PRT_LL_TIMER_REPLAY_LIMIT 0 ∧
    replaying.fget F.PRT_LL_TIMER_REPLAY_LIMIT 0 ≤ ((replaying.modPort 0 (fun q => { q with replays := 255 })).port 0).replays ∧
    (up.port 0).retrains = [] ∧ 0 < up.fget F.PRT_LL_TIMER_RETRAIN_LIMIT 0 ∧ sealed.takes (.i3c 8) (prtReg 0 0) ∧
    ((inState .retrain).port 0).st = .retrain ∧ (((inState .retrain).modPort 0 (fun q => { q with ucieUp := false })).port 0).ucieUp = false ∧
    ((inState .train).port 0).st = .train ∧ (7 : BitVec 3).getLsbD ((inState .train).rateCap 0 - 1) = true ∧
    1 ≤ (inState .train).rateCap 0 ∧ (inState .train).rateCap 0 ≤ 3 ∧ ((inState .train).port 0).fails < 2 ∧
    (((inState .train).modPort 0 (fun q => { q with fails := 2 })).port 0).fails = 2 ∧
    ((port0 (fun q => { q with st := .down, draining := true })).port 0).draining = true ∧
    ((port0 (fun q => { q with st := .down, draining := true })).port 0).rx = [] ∧ up.flag F.TIM_STATUS_BACKUP = false ∧
    up.boot.phyOut = false ∧ ((resetting 2).port 0).inReset = true ∧ ((resetting 2).port 0).draining = false ∧
    ((resetting 2).port 0).st = .init ∧ ((resetting 2).port 0).fails = 2 ∧ ((resetting 1).port 0).fails < 2 := by
  unfold State.takes; decide +kernel
theorem witness_LinkTimersAndTraining_rates (r : Nat) (_ : 1 ≤ r) (_ : r ≤ (inState .train).rateCap 0) (_ : r ≤ 3) :
    (0 : BitVec 3).getLsbD (r - 1) = false := by simp
theorem witness_ArraysWf : sealed.ArraysWf := by
  constructor <;> (unfold SpCanon; decide +kernel)

theorem witness_LinkReset :
    (up.port 0).resets.length < 3 ∧ ((port0 (fun q => { q with resets := [1, 2, 3] })).port 0).resets = [1, 2, 3] ∧
    (port0 (fun q => { q with resets := [1, 2, 3] })).now ≤ 1 + msec 100 := by decide +kernel

/-! ## The buses and the TAP -/

/-- The chiplet at boot step `n`. -/
def atStep (n : Nat) : State := up.fset F.GLB_BOOT_STATUS_STEP n
/-- The I3C target at its dynamic address 0x31, its static address being 0x52. -/
def addressed : State :=
  ((up.fset F.GLB_I3C_STATUS_STATIC 0x52).setFlag F.GLB_I3C_STATUS_DAVALID true).fset F.GLB_I3C_STATUS_DA 0x31
/-- The chiplet with lifecycle state `n`. -/
def inLife (n : Nat) : State := up.fset F.PAT_STATUS_LC n
/-- The chiplet with Umevo halted at 1 ms. -/
def halted : State :=
  { (inLife 1).fset F.WDG_UMV_STATUS_STATE 2 with umv := { Umv.zero with halted := true, frozen := some (msec 1) } }

theorem witness_I3cCommonCodes :
    up.listens = true ∧ up.da = none ∧ addressed.listens = true ∧ addressed.da = some 0x31 ∧ addressed.da ≠ none ∧
    (0x1F : Byte).toNat < 0x20 ∧ 0x28 ≤ (0x28 : Byte).toNat ∧ addressed.da ≠ some 0x52 ∧ up.boot.rstN = false ∧
    0x20 ≤ (0x27 : Byte).toNat ∧ (0x27 : Byte).toNat < 0x28 ∧ up.boot.hdr3 = false := by decide +kernel

theorem witness_I3cTransfers :
    addressed.answers false 0x31 = true ∧ (up.fset F.GLB_I3C_STATUS_STATIC 0x52).answers true 0x52 = true ∧
    (0x05 : Byte).getLsbD 7 = false ∧ (0x04 : Byte).extractLsb' 0 2 = (0 : BitVec 2) ∧ (0x85 : Byte).getLsbD 7 = true ∧
    (0x07 : Byte).extractLsb' 0 2 ≠ (0 : BitVec 2) ∧
    addressed.boot.bad3 = false ∧ addressed.served addressed.boot.ptr3.toNat = true ∧ addressed.boot.ptr3 ≠ 0x4008 ∧
    addressed.boot.ptr3.toNat < 0x40000 ∧
    (addressed.modBoot (fun b => { b with bad3 := true })).answers false 0x31 = true ∧
    (addressed.modBoot (fun b => { b with bad3 := true })).boot.bad3 = true := by decide +kernel

theorem witness_TapInstructions :
    (up.modBoot (fun b => { b with wrstN := true })).boot.wrstN = true ∧ up.boot.wrstN = false ∧
    4 < (0x05 : BitVec 8).toNat ∧ (0x1F : BitVec 8).toNat < 0x20 ∧ 0x22 < (0x23 : BitVec 8).toNat ∧
    (inLife 0).lifecycle ≠ 1 ∧ (inLife 2).lifecycle ≠ 1 := by decide +kernel

theorem witness_UmevoDebug :
    (inLife 1).lifecycle = 1 ∧ (inLife 1).umv.halted = false ∧ (inLife 1).fget F.WDG_UMV_STATUS_STATE ≠ 1 ∧
    halted.lifecycle = 1 ∧ halted.umv.halted = true ∧ halted.umv.frozen = some (msec 1) ∧ halted.umv.trap = false ∧
    ((0xFFFF : BitVec 64).extractLsb' 0 32 : BitVec 32).toNat < 0x10000 := by decide +kernel

/-! ## Boot and resets -/

/-- The chiplet at boot step 4 with source `src`. -/
def fetching (src : Nat) : State := (atStep 4).fset F.GLB_BOOT_STATUS_SOURCE src
/-- The chiplet at boot step 6 with an accepted base image. -/
def loaded : State := (atStep 6).modBoot (fun b => { b with accepted := some ⟨pat, 1, 1, [], 0⟩ })

theorem witness_ColdResetAndStraps : State.reset.boot.rstN = true ∧ up.boot.rstN = false := by decide +kernel

theorem witness_BootSteps :
    (atStep 2).bootIn 2 = true ∧ (atStep 3).bootIn 3 = true ∧ (atStep 3).umevoRuns = true ∧ (fetching 1).bootIn 4 = true ∧
    (fetching 1).umevoRuns = true ∧ (fetching 1).fget F.GLB_BOOT_STATUS_SOURCE = 1 ∧ (⟨false, [], []⟩ : SpiFlash).answers = false ∧
    (atStep 5).bootIn 5 = true ∧ (atStep 5).umevoRuns = true ∧ loaded.bootIn 6 = true ∧ loaded.umevoRuns = true ∧
    loaded.boot.accepted = some ⟨pat, 1, 1, [], 0⟩ ∧ (atStep 7).bootIn 7 = true ∧ (atStep 7).boot.phyOut = false := by
  decide +kernel

/-- The image of step 5 that is empty is rejected, from source 0b01 and from 0b10. -/
theorem witness_BootSteps_auth :
    ((atStep 5).fset F.GLB_BOOT_STATUS_SOURCE 1).bootIn 5 = true ∧ ((atStep 5).fset F.GLB_BOOT_STATUS_SOURCE 2).bootIn 5 = true ∧
    ((atStep 5).fset F.GLB_BOOT_STATUS_SOURCE 1).umevoRuns = true ∧ ((atStep 5).fset F.GLB_BOOT_STATUS_SOURCE 2).umevoRuns = true ∧
    (baseErr (atStep 5).boot.fuses (atStep 5).lifecycle (atStep 5).boot.bytes
      (wordBytes (((atStep 5).boot.bytes + 3) / 4) (atStep 5).boot.image)).isSome = true := by decide +kernel

theorem witness_ImageDelivery :
    (fetching 3).i3cBoot = true ∧ (fetching 3).takes (.i3c 8) 0x20C ∧ (fetching 3).takes (.i3c 8) 0x210 ∧
    (fetching 3).boot.ptr < 65536 ∧ ((fetching 3).modBoot (fun b => { b with ptr := 65536 })).i3cBoot = true ∧
    ((fetching 3).modBoot (fun b => { b with ptr := 65536 })).takes (.i3c 8) 0x210 ∧
    65536 ≤ ((fetching 3).modBoot (fun b => { b with ptr := 65536 })).boot.ptr ∧
    (fetching 1).i3cBoot = false ∧ (fetching 1).takes (.i3c 8) 0x20C ∧ (fetching 1).takes (.i3c 8) 0x210 := by
  unfold State.takes; decide +kernel

theorem witness_WarmResetSequence :
    up.boot.wrstN = false ∧ up.boot.testEn = false ∧ (Party.i3c 8) ≠ .umevoU ∧ up.takes (.i3c 8) 0x220 ∧
    (0xB006 : BitVec 16) ≠ 0xB007 ∧ up.boot.rstN = false ∧ up.boot.flushBy = none ∧
    (up.modBoot (fun b => { b with flushBy := some 9 })).boot.flushBy ≠ none ∧ State.reset.boot.rstN = true ∧
    (up.modBoot (fun b => { b with flushBy := some 9 })).boot.rstN = false ∧
    (up.modBoot (fun b => { b with flushBy := some 9 })).boot.flushBy = some 9 ∧
    up.boot.ir ≠ 0x00 ∧ up.boot.ir ≠ 0x03 ∧ up.boot.ir ≠ 0x04 ∧ (up.modBoot (fun b => { b with ir := 0x03 })).boot.ir = 0x03 := by
  unfold State.takes; decide +kernel
theorem witness_WarmResetSequence_hc (k : Nat) : (up.slice k).hc = [] := rfl

/-- Key slot 0 is in use. -/
def sealedKey : State := sealed.fset F.PAT_STATUS_KEY 0
theorem witness_UnlockAndFuses :
    up.takes (.i3c 8) 0x264 ∧ up.boot.nonce = none ∧ (inLife 2).takes (.i3c 8) 0x264 ∧
    ((inLife 2).modBoot (fun b => { b with nonce := some 5 })).boot.nonce ≠ none ∧
    ((inLife 2).modBoot (fun b => { b with nonce := some 5 })).lifecycle = 2 ∧
    ((inLife 2).modBoot (fun b => { b with nonce := some 5 })).takes (.i3c 8) 0x264 ∧ up.takes (.i3c 8) 0x260 ∧
    up.boot.rstN = false ∧ up.umevoRuns = true ∧ (up.modBoot (fun b => { b with unlk := some 1 })).boot.unlk = some 1 ∧ 1 < 8 ∧
    sealedKey.takes .umevoM 0x234 ∧ sealedKey.flag F.PAT_STATUS_SEALED = true ∧
    sealedKey.fget F.PAT_STATUS_KEY ≠ (2 : BitVec 2).toNat ∧ up.takes .umevoM 0x234 ∧ up.flag F.PAT_STATUS_SEALED = false ∧
    sealedKey.fget F.PAT_STATUS_KEY = (0 : BitVec 2).toNat ∧ up.takes (.i3c 8) 0x234 ∧ (Party.i3c 8) ≠ .umevoM ∧
    up.takes .umevoM 0x220 ∧ up.umv.halted = false ∧ up.fget F.WDG_UMV_STATUS_STATE ≠ 1 := by
  unfold State.takes; decide +kernel

/-! ## Safety, Umevo and the watchdogs -/

/-- The chiplet in the safe state. -/
def safe : State := (up.fset F.SAF_STATUS_SAFE_CAUSE 0x30).setFlag F.SAF_STATUS_SAFE true
/-- Umevo in the open window of its watchdog. -/
def openNow : State := { up with now := msec 500, umv := { Umv.zero with start := 0, period := 9, open_ := 6 } }

theorem witness_Environment :
    up.boot.rstN = false ∧ (0 : BitVec 8).toNat < up.fget F.SAF_CTL_TWARN + 64 ∧ up.fget F.SAF_CTL_TWARN + 64 ≤ (0xFF : BitVec 8).toNat ∧
    199 ≤ (199 : BitVec 8).toNat ∧ up.isSafe = false ∧ (198 : BitVec 8).toNat < 199 ∧ Supply.core ≠ .phy ∧
    (up.modBoot (fun b => { b with phyOut := true })).boot.phyOut = true ∧
    (up.modBoot (fun b => { b with phyOut := true })).boot.rstN = false ∧ up.flag F.TIM_STATUS_BACKUP = false ∧
    (up.setFlag F.TIM_STATUS_BACKUP true).flag F.TIM_STATUS_BACKUP = true ∧
    (up.setFlag F.TIM_STATUS_BACKUP true).boot.rstN = false := by decide +kernel

theorem witness_SafeStateEntry :
    up.isSafe = false ∧ up.log.length < 256 ∧ safe.isSafe = true ∧
    (up.setFlag F.SAF_CTL_FATAL_ACT false).flag F.SAF_CTL_FATAL_ACT = false ∧ (inLife 2).lifecycle = 2 ∧ (inLife 2).isSafe = false ∧
    (up.setFlag F.SAF_CTL_FATAL_ACT true).isSafe = false ∧ (up.setFlag F.SAF_CTL_FATAL_ACT true).flag F.SAF_CTL_FATAL_ACT = true ∧
    (up.setFlag F.SAF_CTL_FATAL_ACT true).lifecycle ≠ 2 := by decide +kernel

/-- Tracker 3 of slice 1 in use by an open transaction. -/
def tracked : State :=
  up.setTxn 1 3 (some { Txn.new .client (rq Op.rdShared 0x10 5 []) 0 (.line 0x400) with opened := true, bound := 100, phase := .mem })
/-- The latent tests of a round have begun. -/
def testing : State := { up with latent := { up.latent with from_ := some 0 } }

theorem witness_SafetyMonitor :
    up.boot.rstN = false ∧ (17 : BitVec 8).toNat < 18 ∧ 0x2C ≤ (0x2C : BitVec 8).toNat ∧ (3 < 12) ∧ up.role 3 ≠ .off ∧
    (up.port 3).st ≠ .failed ∧ testing.latentTests.contains (0, 7) = true ∧ testing.latent.from_.isSome = true ∧ testing.boot.rstN = false ∧
    safe.isSafe = true ∧ safe.boot.rstN = false ∧ up.isSafe = false ∧ up.takes (.i3c 8) 0x300C ∧ up.isSafetyMaster (.i3c 8) = true ∧
    up.isSafetyMaster (.i3c 9) = false ∧ up.takes (.i3c 9) 0x300C ∧ up.takes (.i3c 9) 0x3034 ∧ tracked.boot.rstN = false ∧
    (tracked.txn 1 3).map (·.opened) = some true := by unfold State.takes; decide +kernel

theorem witness_CoreWatchdog :
    openNow.takes .umevoM 0x2004 ∧ openNow.cwdOpenNow = true ∧ openNow.umv.keyA = false ∧
    (openNow.modUmv (fun u => { u with keyA := true })).cwdOpenNow = true ∧
    (openNow.modUmv (fun u => { u with keyA := true })).umv.keyA = true ∧
    (openNow.modUmv (fun u => { u with keyA := true })).umv.frozen = none ∧
    (openNow.modUmv (fun u => { u with keyA := true })).takes .umevoM 0x2004 ∧
    (0x3C0E : BitVec 16) ≠ 0x3C0F ∧ (0xC3F1 : BitVec 16) ≠ 0xC3F0 ∧
    (openNow.modUmv (fun u => { u with start := msec 490 })).takes .umevoM 0x2004 ∧
    (openNow.modUmv (fun u => { u with start := msec 490 })).cwdOpenNow = false ∧ (openNow.modUmv (fun u => { u with start := msec 490 })).cwdOver = false ∧
    (openNow.modUmv (fun u => { u with start := msec 490 })).umv.keyA = false ∧
    openNow.takes .umevoM 0x2000 ∧ getBits (0x6C : Word) 0 4 ≤ 12 ∧ getBits (0x6C : Word) 4 3 ≤ 6 ∧
    (Party.umevoU) ≠ .umevoM ∧ up.takes .umevoU 0x2000 ∧ up.takes .umevoU 0x2004 ∧ up.boot.rstN = false ∧ up.umv.frozen = none ∧
    up.isSafe = false ∧ up.bootFailed = false ∧ up.umv.restarted = false ∧
    (up.modUmv (fun u => { u with restarted := true, n := 2 })).isSafe = false ∧
    (up.modUmv (fun u => { u with restarted := true, n := 2 })).umv.restarted = true ∧
    (up.modUmv (fun u => { u with restarted := true, n := 2 })).umv.chain < (up.modUmv (fun u => { u with restarted := true, n := 2 })).umv.n ∧
    (up.modUmv (fun u => { u with restarted := true, n := 2 })).umv.chained = false ∧
    (up.modUmv (fun u => { u with restarted := true, n := 0 })).umv.n ≤ (up.modUmv (fun u => { u with restarted := true, n := 0 })).umv.chain ∧
    ready.boot.rstN = false ∧ ready.ready = true ∧ (ready.modUmv (fun u => { u with healthyFrom := some 7 })).umv.healthyFrom = some 7 ∧
    (ready.modUmv (fun u => { u with healthyFrom := some 7 })).ready = true := by unfold State.takes; decide +kernel

/-- The safety watchdog armed, and its hard timer running. -/
def armed : State := ready.modUmv (fun u => { u with armed := true, swdStart := 0, swdLen := 100 })
def hard (n : Nat) : State := ready.modUmv (fun u => { u with hardEnd := some 50, n := n })
theorem witness_SafetyWatchdog :
    armed.takes (.i3c 8) 0x2010 ∧ armed.isSafetyMaster (.i3c 8) = true ∧ armed.ready = true ∧ armed.umv.hardEnd = none ∧
    armed.umv.armed = true ∧ armed.now < armed.umv.swdStart + armed.umv.swdLen ∧ armed.takes (.i3c 9) 0x2010 ∧
    armed.isSafetyMaster (.i3c 9) = false ∧ up.takes (.i3c 8) 0x2010 ∧ up.ready = false ∧ armed.boot.rstN = false ∧
    (hard 2).boot.rstN = false ∧ (hard 2).umv.hardEnd = some 50 ∧ (hard 2).isSafe = false ∧ (hard 2).umv.chain < (hard 2).umv.n ∧
    (hard 2).umv.chained = false ∧ (hard 0).umv.n ≤ (hard 0).umv.chain ∧ (hard 0).boot.rstN = false ∧ (hard 0).isSafe = false ∧
    (hard 0).umv.hardEnd = some 50 := by unfold State.takes; decide +kernel

/-! ## Fabric time and power -/

/-- The PPS is the source, with its last edge at `t`. -/
def pps (t : Option Time) (now : Time) : State := { up.fset F.TIM_CTL_SOURCE 1 with now := now, tb := { Timebase.zero with edge := t } }
/-- The partner of port 2 is the source. -/
def follower : State := (up.fset F.TIM_CTL_SOURCE 2).fset F.TIM_CTL_SRC_PORT 2
/-- Slice `k` changed. -/
def slice1 (f : Slice → Slice) : State := up.modSlice 1 f
/-- A time message of the partner of port 2. -/
def syncIn (resp : Nat) : Msg := syncMsg 0x30 0x100 7 resp 0
/-- A follower that has sent request 7. -/
def asked : State := { follower with tb := { Timebase.zero with req := some (7, 0) } }
/-- A leader on port 2. -/
def leader : State := up.fset F.TIM_SYNC_CTL_LEADER 4
/-- LatencyTolerance of node 0x10 for tenant `t`. -/
def tolMsg (t : Tenant) (code : BitVec 128) : Msg := mkMsg Op.latencyTolerance t 0x10 0x100 9 0x1F 0 false 0 [code]

theorem witness_FabricTime :
    sealed.takes (.i3c 8) 0x401C ∧ sealed.takes (.i3c 8) 0x4008 ∧
    (pps (some 0) (msec 500)).boot.rstN = false ∧ (pps (some 0) (msec 500)).fget F.TIM_CTL_SOURCE = 1 ∧ (pps (some 0) (msec 500)).tb.edge = some 0 ∧
    (pps (some 0) (msec 500)).now ≤ 0 + msec 500 ∧ (pps (some 0) (msec 501)).boot.rstN = false ∧
    (pps (some 0) (msec 501)).fget F.TIM_CTL_SOURCE = 1 ∧ (pps (some 0) (msec 501)).flag F.TIM_CTL_SERVO = false := by
  unfold State.takes; decide +kernel
theorem witness_FabricTime_edge (t : Time) (h : (pps (some 0) (msec 501)).tb.edge = some t) :
    t + msec 500 < (pps (some 0) (msec 501)).now := by
  cases h; decide
theorem witness_FabricTime_set :
    sealed.now < ((1 : BitVec 16).toNat * 2 ^ 64 + sealed.fget F.TIM_SET_HI_TIME * 2 ^ 32 + sealed.fget F.TIM_SET_LO_TIME) * 65536 ∧
    ((0 : BitVec 16).toNat * 2 ^ 64 + sealed.fget F.TIM_SET_HI_TIME * 2 ^ 32 + sealed.fget F.TIM_SET_LO_TIME) * 65536 ≤ sealed.now := by
  decide +kernel

theorem witness_TimeExchange :
    follower.fget F.TIM_CTL_SOURCE ≠ 1 ∧ (pps (some 0) (msec 500)).boot.rstN = false ∧ (pps (some 0) (msec 500)).fget F.TIM_CTL_SOURCE = 1 ∧
    (pps (some 0) (msec 500)).tb.edge = some 0 ∧ follower.boot.rstN = false ∧ follower.fget F.TIM_CTL_SOURCE = 2 ∧ 2 = follower.fget F.TIM_CTL_SRC_PORT ∧
    (follower.port 2).st = .active ∧ follower.tb.req = none ∧ syncIn 0 = { syncIn 0 with op := Op.timeSync } ∧
    leader.admits 2 (syncIn 0) ∧ (syncIn 0).fspec.toNat % 4 = 0 ∧ ((leader.heard 2 (syncIn 0)).fget F.TIM_SYNC_CTL_LEADER).testBit 2 = true ∧
    follower.admits 2 (syncIn 1) ∧ (syncIn 1).fspec.toNat % 4 = 1 ∧ (follower.heard 2 (syncIn 1)).tb.req = none ∧
    asked.admits 2 (syncIn 1) ∧ (asked.heard 2 (syncIn 1)).tb.req = some ((syncIn 1).tag, 0) ∧
    (asked.heard 2 (syncIn 1)).fget F.TIM_CTL_SOURCE = 2 ∧ (asked.heard 2 (syncIn 1)).fget F.TIM_CTL_SRC_PORT = 2 ∧
    (asked.heard 2 (syncIn 1)).tb.delays = [] ∧ (asked.heard 2 (syncIn 1)).flag F.TIM_CTL_SERVO = false ∧
    ((msgSlot (syncIn 1) 1).extractLsb' 96 16 : BitVec 16) = fabEpoch (asked.heard 2 (syncIn 1)).now := by
  unfold State.admits; decide +kernel

theorem witness_PowerStates :
    (slice1 (fun c => { c with pwr := .doze })).boot.rstN = false ∧ (slice1 (fun c => { c with pwr := .doze })).srole 1 = .active ∧
    ((slice1 (fun c => { c with pwr := .doze })).slice 1).pwr = .doze ∧ ((slice1 (fun c => { c with pwr := .doze })).slice 1).entering = none ∧
    (slice1 (fun c => { c with pwr := .doze })).sliceBusy 1 = false ∧
    (slice1 (fun c => { c with entering := some .deep })).boot.rstN = false ∧ 17 < 18 ∧
    ((slice1 (fun c => { c with entering := some .deep })).slice 1).entering = some .deep ∧
    (slice1 (fun c => { c with entering := some .deep })).entryBusy 1 = false ∧
    (slice1 (fun c => { c with entering := some .deep })).entryLeft 1 .deep = false ∧
    ((slice1 (fun c => { c with entering := some .sleep })).slice 1).entering = some .sleep ∧
    (slice1 (fun c => { c with entering := some .sleep })).entryBusy 1 = false ∧
    (slice1 (fun c => { c with entering := some .sleep })).entryLeft 1 .sleep = false ∧
    (slice1 (fun c => { c with pwr := .nap, waking := true })).boot.rstN = false ∧
    ((slice1 (fun c => { c with pwr := .nap, waking := true })).slice 1).waking = true ∧
    ((slice1 (fun c => { c with pwr := .nap, waking := true })).slice 1).pwr = .nap ∧
    ((slice1 (fun c => { c with pwr := .nap, waking := true })).slice 1).ingress = [] ∧
    ((slice1 (fun c => { c with pwr := .nap, waking := true })).slice 1).inv = none ∧
    (slice1 (fun c => { c with pwr := .nap, waking := true })).ctx0 = none ∧
    (slice1 (fun c => { c with pwr := .nap, waking := true })).ctx1 = none ∧
    sealed.boot.rstN = false ∧ sealed.flag F.PAT_STATUS_SEALED = true ∧ sealed.flag F.PWR_VCTL_MODE = false := by decide +kernel
/-- A dozing slice whose tenant tolerates 2,048 ns, with the deepest state capped. -/
def dozing (cap : Nat) : State :=
  { (slice1 (fun c => { c with pwr := .doze })).fset F.PWR_CTL_MAX_STATE cap with tns := { Tenants.zero with tol := [(1, some 5)] } }
theorem witness_PowerStates_target :
    (dozing 2).pwrTarget 1 = .nap ∧ (dozing 1).pwrTarget 1 = .doze ∧ ((dozing 2).slice 1).pwr = .doze ∧
    (dozing 2).sliceBusy 1 = false ∧ (dozing 2).srole 1 = .active := by decide +kernel
/-- TRACK with the VID at 40. -/
def track : State := { (sealed.setFlag F.PWR_VCTL_MODE true).fset F.PWR_VREQ_VID 40 with tb := { Timebase.zero with track := true, evals := 4 } }
theorem witness_PowerStates_track :
    track.boot.rstN = false ∧ track.flag F.PAT_STATUS_SEALED = true ∧ track.flag F.PWR_VCTL_MODE = true ∧ track.tb.track = true ∧
    track.fget F.PWR_VREQ_VID ≤ 48 := by decide +kernel

theorem witness_LatencyTolerances :
    tolMsg 1 23 = { tolMsg 1 23 with op := Op.latencyTolerance } ∧ ready.admits 0 (tolMsg 1 23) ∧
    ((ready.heard 0 (tolMsg 1 23)).cfg 1).isSome = true ∧ (ready.heard 0 (tolMsg 1 23)).inDomain 1 0x10 = true ∧
    (msgSlot (tolMsg 1 23) 1).getLsbD 8 = false ∧ (slotField (tolMsg 1 23) 1 0 5).toNat < 24 ∧
    (ready.heard 0 (tolMsg 1 23)).tolOf 1 ≤ (slotField (tolMsg 1 23) 1 0 5).toNat ∧
    ready.admits 0 (tolMsg 2 23) ∧ ((ready.heard 0 (tolMsg 2 23)).cfg 2).isNone = true ∧
    { ready with tns := { ready.tns with answers := [tolMsg 1 9] } }.boot.rstN = false ∧
    (tolMsg 1 9).ten = 1 ∧ State.tolMet { ready with tns := { ready.tns with answers := [tolMsg 1 9] } } 1 = true := by
  unfold State.admits; decide +kernel

/-! ## Requests at the Shed and the buffers -/

/-- A line of the first MiB. -/
def lineA : Slot := 0x440
/-- A request of node 0x10 on that line, with `n` more slots; slot 1 carries every byte enable. -/
def onLine (op : BitVec 8) (n : Nat) : Msg := rq op 0x10 5 (((0xFFFFFFFFFFFFFFFF : BitVec 64) ++ (0x440 : BitVec 64)) :: List.replicate n 0)
/-- CondWr and AtomicFar on that line: a SIZE of 8 bytes. -/
def sized (op : BitVec 8) (n : Nat) : Msg := rq op 0x10 5 (((3 : BitVec 64) ++ (0x440 : BitVec 64)) :: List.replicate n 0)
/-- A tenant with room for three requests, all of them under way in slice 1. -/
def full : State :=
  { ready with pat := { pat with tens := [{ ten1 with weight := 1, cap := 0 }] } }.modSlice 1 (fun c => { c with
      trk := (List.range 3).map (fun i => (i, some { Txn.new .client (onLine 1 0) 0 (.line (BitVec.ofNat 52 (0x2000 * (i + 1)))) with
        opened := true, phase := .mem })) })

/-- The chiplet with the window entry `e` in the set of request `m` of logical slice `l`. -/
def known (l : Nat) (m : Msg) (st : WState) (resp : Option Msg) : State :=
  ready.setWin l (winSetOf m.src m.ten m.tag) [⟨m.src, m.ten, m.tag, m.op, m.echk, st, 0, resp⟩]
/-- AtomicFar with an answer of the window, and FenceFull. -/
def atom : Msg := sized Op.atomicFar 1
def atomAnswer : Msg := respTo atom Op.atomicData 0 false 0 [7]
def fence : Msg := rq Op.fenceFull 0x10 5 []
/-- The chiplet with posted write number 7 of node 0x10 in the buffer of port 3: a fence waits for it. -/
def pendingWrite (isReady : Bool) : State :=
  { ready with wno := 8 }.modPort 3 (fun q => { q with pwb := [⟨onLine Op.wrPosted 4, 7, isReady⟩] })
/-- That write at slice 1, its turn having come. -/
def committing : State :=
  (pendingWrite true).setTxn 1 9 (some { Txn.new (.posted 3 7) (onLine Op.wrPosted 4) 3 (.line 0x440) with opened := true, phase := .commit })
/-- A fence that waits at port 0. -/
def fencing (s : State) : State := s.modPort 0 (fun q => { q with fences := [⟨2, fence, 8⟩] })
/-- A combining entry of port 0. -/
def combining : Combine := ⟨4, 0x10, 1, 0x400, [(1, 7, onLine Op.wrNT 4)], 99, false⟩
/-- A request of tenant 1 that waits at the ingress of slice 1. -/
def waitingReq : Txn := Txn.new .client (onLine Op.rdShared 0) 0 (.line 0x440)
/-- A gather or scatter of four elements of 8 bytes: the second lies in no range, the third is misaligned. -/
def vectorReq (op : BitVec 8) (data : Nat) : Msg :=
  rq op 0x10 6 ([BitVec.ofNat 128 (3 * 2 ^ 52 + 3 * 2 ^ 60), ((0x40000000 : BitVec 64) ++ (0x440 : BitVec 64)),
    ((0x840 : BitVec 64) ++ (0x484 : BitVec 64))] ++ List.replicate data 0)
/-- A gather of slice 1 of which every element is finished. -/
def gathered (op : BitVec 8) : Gather :=
  ⟨3, vectorReq op 0, 0, [(0, some 0), (1, some 2), (2, some 3), (3, some 0)], [(0, (5, false))], 4⟩

/-! ## The Clamp -/

/-- A Clamp request of node `src` with slot 1. -/
def clampReq (op : BitVec 8) (src : Node) (slot : Nat) : Msg := rq op src 5 [BitVec.ofNat 128 slot]
/-- The handle of entry 2 of logical slice 1 in its generation 3. -/
def handleA : Nat := 3 * 65536 + 1 * 4096 + 2
/-- Entry 2 of the bank of logical slice 1. -/
def clamped (e : ClampEnt) : State := ready.setEnt 1 2 e
/-- A LOCK entry with records. -/
def lockEnt (recs : List ClampRec) : ClampEnt := { ClampEnt.zero with st := .lock, gen := 3, ten := 1, src := 0x10, recs := recs }
/-- A BARRIER entry of target 2 (three arrivals) with records. -/
def barrierEnt (count : Nat) (recs : List ClampRec) : ClampEnt :=
  { ClampEnt.zero with st := .barrier, gen := 3, ten := 1, src := 0x10, target := 2, res := 3, count := count, recs := recs, came := [1] }
/-- A record of node `src`. -/
def rec_ (src : Node) (role : ClampRole) : ClampRec := ⟨clampReq Op.lockAcq src handleA, role, false, 0, 0, none⟩

/-- The checks of 05 R192 on a request other than ECHK, which a message that its sender has sealed passes. -/
def passes (s : State) (p : Nat) (m : Msg) : Bool :=
  decide (opClass m.op < 6) && (match opSlots m.op with | some ls => ls.contains (m.len.toNat + 1) | none => false) &&
  classAccepted (s.role p) (opClass m.op) && s.sourceOk p m.src && m.dst == s.home && !s.isSafe && !s.boot.flushBy.isSome &&
  senderFits (s.role p) m.op &&
  (if opClass m.op = 0 then s.reqFieldError m == none && s.reqVerdict m == .pass else !fieldError m)

theorem verdict_sealed {s : State} {p : Nat} {x : Msg} (h : passes s p (sealMsg x) = true) : s.verdict p (sealMsg x) = .pass := by
  have e : (sealMsg x).echk = echkOf (sealMsg x) := rfl
  generalize sealMsg x = m at *
  simp only [passes, Bool.and_eq_true, decide_eq_true_eq, Bool.not_eq_true', beq_iff_eq] at h
  obtain ⟨⟨⟨⟨⟨⟨⟨⟨a, b⟩, c⟩, d⟩, f⟩, g⟩, i⟩, j⟩, k⟩ := h
  unfold State.verdict
  split at b
  · rename_i ls hl
    have len : s.lengthCase m = none := by simp only [State.lengthCase, hl, b]; simp [f]
    rw [len]
    by_cases q : opClass m.op = 0
    · simp [q] at k
      simp_all
    · simp [q] at k
      have : ¬ 6 ≤ opClass m.op := by omega
      simp_all
  · cases b

theorem admits_sealed {s : State} {p : Nat} {x : Msg} (h0 : s.boot.rstN = false) (h1 : s.arrives p (sealMsg x) = true)
    (h2 : passes (s.present p (sealMsg x)) p (sealMsg x) = true) (h3 : (s.present p (sealMsg x)).ingressOk p (sealMsg x) = true) :
    s.admits p (sealMsg x) := ⟨h0, h1, verdict_sealed h2, fun _ => h3⟩

/-- A message that arrives at a port with an empty receive buffer leaves only the slots it frees. -/
theorem heard_fresh {s : State} {p : Nat} {m : Msg} (h : (s.port p).rx = []) :
    s.heard p m = (s.setPort p { s.port p with rx := [m] }).setPort p (({ s.port p with rx := [] } : Port).modCredit (opClass m.op)
      (fun x => { x with freed := x.freed + BitVec.ofNat 12 (m.body.length + 1) })) := by
  simp [State.heard, State.present, State.consume, h, State.modPort]
theorem heard_ready (m : Msg) : ready.heard 0 m = (ready.setPort 0 { ready.port 0 with rx := [m] }).setPort 0
    (({ ready.port 0 with rx := [] } : Port).modCredit (opClass m.op)
      (fun x => { x with freed := x.freed + BitVec.ofNat 12 (m.body.length + 1) })) := heard_fresh (by decide +kernel)

/-- The read of a line, and slices in the states that hold it back. -/
def rdA : Msg := onLine Op.rdShared 0
def meeting : State := ready.setTxn 1 7 (some { Txn.new .client (onLine 1 0) 0 (.line 0x440) with opened := true, phase := .mem })
def handedOver : State := { ready with logic := [(1, { LogSlice.zero with phys := 1, handover := true })] }
def asleep : State := ready.modSlice 1 (fun c => { c with pwr := .sleep })
theorem witness_LineRequests :
    (ready.heard 0 rdA).logOf 0x440 = 1 ∧ (ready.heard 0 rdA).physOf 1 = 1 ∧ lineAddr (msgAddr rdA) = 0x440 ∧ ready.jig = [] ∧
    (ready.heard 0 rdA).winSlice rdA = 1 ∧ (ready.heard 0 rdA).winAsk 1 rdA = .go false ∧
    ((ready.heard 0 rdA).slice 1).trk = [] ∧ (ready.heard 0 rdA).held 1 0x440 = false ∧
    (ready.heard 0 rdA).queuedAhead 1 1 = false ∧ ((ready.heard 0 rdA).slice 1).pwr = .active ∧
    (ready.heard 0 rdA).conflictsOpen 1 (.line 0x440) = false ∧
    (ready.heard 0 rdA).freeTracker 1 (Txn.new .client rdA 0 (.line 0x440)) = some 0 ∧
    (meeting.heard 0 rdA).winAsk 1 rdA = .go false ∧ (meeting.heard 0 rdA).conflictsOpen 1 (.line 0x440) = true ∧
    (meeting.heard 0 rdA).chainOk 1 (Txn.new .client rdA 0 (.line 0x440)) = true ∧ (full.heard 0 rdA).winAsk 1 rdA = .go false ∧
    (full.heard 0 rdA).conflictsOpen 1 (.line 0x440) = false ∧
    (full.heard 0 rdA).freeTracker 1 (Txn.new .client rdA 0 (.line 0x440)) = none ∧
    (handedOver.heard 0 rdA).winAsk 1 rdA = .go false ∧ (handedOver.heard 0 rdA).held 1 0x440 = true ∧
    (asleep.heard 0 rdA).winAsk 1 rdA = .go false ∧ (asleep.heard 0 rdA).held 1 0x440 = false ∧
    (asleep.heard 0 rdA).awake 1 = false := by
  and_intros <;> decide +kernel
theorem witness_LineRequests_admits :
    ready.admits 0 rdA ∧ ready.admits 0 (onLine Op.wrUnique 4) ∧ ready.admits 0 (sized Op.condWr 1) ∧ ready.admits 0 atom ∧
    meeting.admits 0 rdA ∧ full.admits 0 rdA ∧ handedOver.admits 0 rdA ∧ asleep.admits 0 rdA := by
  refine ⟨?_, ?_, ?_, ?_, ?_, ?_, ?_, ?_⟩ <;>
    exact admits_sealed (by decide +kernel) (by decide +kernel) (by decide +kernel) (by decide +kernel)
/-- No write waits in a combining buffer of these states. -/
theorem witness_uncombined (p : Nat) (h : p < 12) :
    (ready.port p).cwb = [] ∧ (meeting.port p).cwb = [] ∧ (full.port p).cwb = [] ∧ (handedOver.port p).cwb = [] ∧ (asleep.port p).cwb = [] := by
  revert p; decide +kernel

theorem witness_WindowAnswers :
    ((known 1 rdA .opened none).heard 0 rdA).winSlice rdA = 1 ∧ ((known 1 rdA .opened none).heard 0 rdA).reqSlice rdA = 1 ∧
    ((known 1 rdA .opened none).heard 0 rdA).reqHeld rdA = false ∧
    (((known 1 rdA .opened none).heard 0 rdA).slice 1).pwr = .active ∧
    ((known 1 rdA .opened none).heard 0 rdA).winAsk 1 rdA = .dupOpen ∧
    ((known 1 atom .done (some atomAnswer)).heard 0 atom).winAsk 1 atom = .resend atomAnswer ∧
    ((known 1 atom .done (some atomAnswer)).heard 0 atom).routeTo atomAnswer.dst ≠ none ∧
    ((known 1 rdA .done none).heard 0 rdA).winAsk 1 rdA = .quiet ∧
    ((known 1 atom .lost none).heard 0 atom).winAsk 1 atom = .lost ∧
    ((known 1 { rdA with op := Op.rdUnique } .opened none).heard 0 rdA).winAsk 1 rdA = .clash := by
  and_intros <;> decide +kernel
theorem witness_WindowAnswers_admits :
    (known 1 rdA .opened none).admits 0 rdA ∧ (known 1 atom .done (some atomAnswer)).admits 0 atom ∧
    (known 1 rdA .done none).admits 0 rdA ∧ (known 1 atom .lost none).admits 0 atom ∧
    (known 1 { rdA with op := Op.rdUnique } .opened none).admits 0 rdA := by
  refine ⟨?_, ?_, ?_, ?_, ?_⟩ <;>
    exact admits_sealed (by decide +kernel) (by decide +kernel) (by decide +kernel) (by decide +kernel)

theorem witness_BufferedWrites :
    (ready.heard 0 (onLine Op.wrPosted 4)).winAsk 1 (onLine Op.wrPosted 4) = .go false ∧
    (ready.heard 0 (onLine Op.wrPosted 4)).poolOk 128 1 ((ready.heard 0 (onLine Op.wrPosted 4)).pwbUse 0) 1 = true ∧
    (ready.heard 0 (onLine Op.wrNT 4)).winAsk 1 (onLine Op.wrNT 4) = .go false ∧
    (ready.heard 0 (onLine Op.wrNT 4)).poolOk 32 1 ((ready.heard 0 (onLine Op.wrNT 4)).cwbUse 0) 1 = true ∧
    (ready.heard 0 fence).winAsk ((ready.heard 0 fence).winSlice fence) fence = .go false ∧
    (ready.heard 0 fence).pendingBelow 0x10 1 0 = false ∧ (pendingWrite false).jig = [] ∧
    ((pendingWrite false).heard 0 fence).winAsk (((pendingWrite false).heard 0 fence).winSlice fence) fence = .go false ∧
    ((pendingWrite false).heard 0 fence).pendingBelow 0x10 1 8 = true := by
  simp only [heard_ready]
  and_intros <;> decide +kernel
theorem witness_BufferedWrites_admits :
    ready.admits 0 (onLine Op.wrPosted 4) ∧ ready.admits 0 (onLine Op.wrNT 4) ∧ ready.admits 0 (rq Op.fenceW 0x10 5 []) ∧
    ready.admits 0 fence ∧ (pendingWrite false).admits 0 fence := by
  refine ⟨?_, ?_, ?_, ?_, ?_⟩ <;>
    exact admits_sealed (by decide +kernel) (by decide +kernel) (by decide +kernel) (by decide +kernel)

theorem witness_BufferTimers :
    ready.boot.rstN = false ∧ ((fencing ready).port 0).fences.map (fun f => (f.idx, f.lim)) = [(2, 8)] ∧
    (fencing ready).pendingBelow fence.src fence.ten 8 = false ∧
    (fencing (pendingWrite false)).pendingBelow fence.src fence.ten 8 = true ∧
    (committing.port 3).pwb.map (fun e => (e.no, e.ready)) = [(7, true)] ∧ committing.fenceClear 0x10 1 7 = true ∧
    (committing.slice 1).trk.map (·.1) = [9] ∧ ((pendingWrite false).port 3).pwb.map (fun e => (e.no, e.ready)) = [(7, false)] ∧
    (∀ j, j < 18 → j ≠ 1 → (committing.slice j).trk = []) ∧ (committing.txn 1 9).map (·.kind) = some (.posted 3 7) ∧
    (committing.txn 1 9).map (·.phase) = some .commit ∧
    ((ready.modPort 0 (fun q => { q with cwb := [combining] })).port 0).cwb.map (·.idx) = [4] ∧ combining.flushing = false ∧
    ((ready.modSlice 1 (fun c => { c with ingress := [waitingReq] })).slice 1).ingress.length = 1 ∧
    waitingReq.kind = .client ∧ (ready.modSlice 1 (fun c => { c with ingress := [waitingReq] })).waitHeld waitingReq = false ∧
    ((ready.modSlice 1 (fun c => { c with ingress := [waitingReq] })).reqGo waitingReq).1 = .done ∧ (ready.slice 1).ingress = [] := by
  and_intros <;> decide +kernel

theorem witness_GathersAndScatters :
    (ready.heard 0 (vectorReq Op.gatherRd 0)).reqSlice (vectorReq Op.gatherRd 0) = 1 ∧
    (ready.heard 0 (vectorReq Op.gatherRd 0)).winSlice (vectorReq Op.gatherRd 0) = 1 ∧
    (ready.heard 0 (vectorReq Op.gatherRd 0)).winAsk 1 (vectorReq Op.gatherRd 0) = .go false ∧ ready.jig = [] ∧
    ((ready.heard 0 (vectorReq Op.gatherRd 0)).lsl 1).handover = false ∧
    ((ready.heard 0 (vectorReq Op.gatherRd 0)).slice 1).gathers = [] ∧
    (ready.heard 0 (vectorReq Op.gatherRd 0)).elemCheck (vectorReq Op.gatherRd 0) 1 = some 2 ∧
    (ready.heard 0 (vectorReq Op.gatherRd 0)).elemCheck (vectorReq Op.gatherRd 0) 2 = some 3 ∧
    (ready.heard 0 (vectorReq Op.gatherRd 0)).elemCheck (vectorReq Op.gatherRd 0) 3 = none ∧
    msgN (vectorReq Op.gatherRd 0) = 4 ∧ ready.boot.rstN = false ∧
    ((ready.modSlice 1 (fun c => { c with gathers := [gathered Op.gatherRd] })).slice 1).gathers.map (·.idx) = [3] ∧
    (∀ i, i < msgN (gathered Op.gatherRd).m → (spGet none (gathered Op.gatherRd).stat i).isSome = true) ∧
    spGet none { gathered Op.gatherRd with stat := [(0, some 0)] }.stat 3 = none := by
  simp only [heard_ready]
  and_intros <;> decide +kernel
theorem witness_GathersAndScatters_admits :
    ready.admits 0 (vectorReq Op.gatherRd 0) ∧ ready.admits 0 (vectorReq Op.scatterWrFF 4) := by
  refine ⟨?_, ?_⟩ <;>
    exact admits_sealed (by decide +kernel) (by decide +kernel) (by decide +kernel) (by decide +kernel)

/-- The Clamp requests of `ClampLocks`, each on the state in which its clause applies. -/
def lockRq : Msg := clampReq Op.lockAcq 0x10 handleA
def relRq : Msg := clampReq Op.lockRel 0x10 handleA
def freeRq : Msg := clampReq Op.clampFree 0x10 handleA
def prioRq : Msg := clampReq Op.clampSetPrio 0x12 (handleA + 6 * 2 ^ 71 + 5 * 2 ^ 74)
def allocRq : Msg := clampReq Op.clampAlloc 0x10 (2 ^ 34)
theorem witness_ClampLocks :
    ((clamped (lockEnt [])).heard 0 lockRq).winSlice lockRq = 1 ∧
    ((clamped (lockEnt [])).heard 0 lockRq).winAsk 1 lockRq = .go false ∧ (clamped (lockEnt [])).jig = [] ∧
    (((clamped (lockEnt [])).heard 0 lockRq).lsl 1).clampHold = false ∧
    (((clamped (lockEnt [])).heard 0 lockRq).lsl 1).hosted = false ∧
    (((clamped (lockEnt [])).heard 0 lockRq).slice 1).pwr = .active ∧
    ((clamped (lockEnt [])).heard 0 lockRq).ent 1 2 = lockEnt [] ∧ 1 = handleSlice lockRq ∧ 1 < ready.pat.nActive ∧
    2 = handleIdx lockRq ∧ (lockEnt []).gen = handleGen lockRq ∧ (((clamped (lockEnt [])).heard 0 lockRq).bank 1).queue = [] ∧
    (((clamped (lockEnt [])).heard 0 lockRq).bank 1).uses < 8192 ∧
    (((clamped (lockEnt [])).heard 0 lockRq).bank 1).lockRecs 1 < 4096 ∧ 1 = clLslice allocRq ∧ clKind allocRq = 0 ∧
    (ready.ent 1 0).st = .free ∧ ((ready.heard 0 allocRq).bank 1).held 1 < (ready.ten 1).clampQuota ∧
    ((ready.heard 0 allocRq).bank 1).reserved ≤ 4096 ∧ ((ready.heard 0 allocRq).bank 1).uses ≤ 8192 ∧
    (ready.heard 0 allocRq).winAsk 1 allocRq = .go false ∧
    (State.ten { ready with pat := { pat with tens := [{ ten1 with clampQuota := 0 }] } } 1).clampQuota = 0 ∧
    (rec_ 0x12 .holder).m.src ≠ lockRq.src ∧ (rec_ 0x12 .holder).shared = false ∧ (rec_ 0x10 .waiter).m.src = lockRq.src ∧
    (rec_ 0x10 .holder).note = none ∧ (clamped (lockEnt [rec_ 0x10 .holder, rec_ 0x12 .waiter])).isSafe = false ∧
    freeRq.src = (lockEnt []).src ∧ (rec_ 0x12 .waiter).m.tag = slotField prioRq 1 74 12 ∧
    (rec_ 0x12 .waiter).m.src = prioRq.src := by
  and_intros <;> decide +kernel
theorem witness_ClampLocks_admits :
    (clamped (lockEnt [])).admits 0 lockRq ∧ ready.admits 0 allocRq ∧
    State.admits { ready with pat := { pat with tens := [{ ten1 with clampQuota := 0 }] } } 0 allocRq ∧
    (clamped (lockEnt [rec_ 0x12 .holder])).admits 0 lockRq ∧ (clamped (lockEnt [rec_ 0x10 .waiter])).admits 0 lockRq ∧
    (clamped (lockEnt [rec_ 0x10 .holder, rec_ 0x12 .waiter])).admits 0 relRq ∧ (clamped (lockEnt [])).admits 0 relRq ∧
    (clamped (lockEnt [rec_ 0x12 .waiter])).admits 0 freeRq ∧ (clamped (lockEnt [rec_ 0x12 .waiter])).admits 0 prioRq := by
  refine ⟨?_, ?_, ?_, ?_, ?_, ?_, ?_, ?_, ?_⟩ <;>
    exact admits_sealed (by decide +kernel) (by decide +kernel) (by decide +kernel) (by decide +kernel)

def arriveRq (n : Nat) : Msg := clampReq Op.barrierArrive 0x13 (handleA + n * 2 ^ 86)
theorem witness_ClampBarriers :
    (barrierEnt 0 []).recs.length < (barrierEnt 0 []).res ∧
    ((clamped (barrierEnt 0 [])).heard 0 (arriveRq 0)).winAsk 1 (arriveRq 0) = .go false ∧
    ((clamped (barrierEnt 0 [])).heard 0 (arriveRq 0)).ent 1 2 = barrierEnt 0 [] ∧
    (barrierEnt 0 []).gen = handleGen (arriveRq 0) ∧ 0 + (slotField (arriveRq 0) 1 86 20).toNat + 1 < 2 + 1 ∧
    2 + (slotField (arriveRq 0) 1 86 20).toNat + 1 = 2 + 1 ∧ 2 + 1 < 2 + (slotField (arriveRq 1) 1 86 20).toNat + 1 ∧
    ({ lockEnt [] with gen := 4 }).gen ≠ handleGen lockRq ∧
    ((clamped { lockEnt [] with gen := 4 }).bank 1).queue = [] ∧
    ready.pat.nActive ≤ handleSlice (clampReq Op.lockAcq 0x10 (2 * 4096)) ∧ ready.boot.rstN = false ∧ 1 < ready.pat.nActive ∧
    (ready.bank 1).queue = [] ∧
    (((clamped (lockEnt [])).modBank 1 (fun b => { b with queue := [(lockRq, 0)] })).bank 1).queue.length = 1 ∧
    (((clamped (lockEnt [])).modBank 1 (fun b => { b with queue := [(lockRq, 0)] })).clampAt 1 lockRq).1 = true ∧
    ((((clamped (lockEnt [])).setEnt 1 3 { ClampEnt.zero with st := .barrier, res := 8192 }).modBank 1 (fun b => { b with queue := [(lockRq, 0)] })).clampAt 1 lockRq).1 = false := by
  and_intros <;> decide +kernel
theorem witness_ClampBarriers_admits :
    (clamped (barrierEnt 0 [])).admits 0 (arriveRq 0) ∧ (clamped (barrierEnt 2 [rec_ 0x12 .waiter])).admits 0 (arriveRq 0) ∧
    (clamped (barrierEnt 2 [rec_ 0x12 .waiter])).admits 0 (arriveRq 1) ∧
    (clamped { lockEnt [] with gen := 4 }).admits 0 lockRq ∧ ready.admits 0 (clampReq Op.lockAcq 0x10 (2 * 4096)) := by
  refine ⟨?_, ?_, ?_, ?_, ?_⟩ <;>
    exact admits_sealed (by decide +kernel) (by decide +kernel) (by decide +kernel) (by decide +kernel)

/-! ## Answers to the home -/

/-- Tracker 3 of slice 1 holds `x`. -/
def withTxn (x : Txn) : State := ready.setTxn 1 3 (some x)
/-- A transaction on line 0x440 in a phase with copies outstanding. -/
def under (phase : Phase) (copies : List Copy) : Txn :=
  { Txn.new .client rdA 0 (.line 0x440) with opened := true, phase := phase, copies := copies, ackBy := 50, bound := 100 }
/-- A copy of a snoop or recovery message. -/
def copy (op : BitVec 8) (dst : Node) (toOwner : Bool) : Copy := ⟨op, 0x440, dst, 0, false, toOwner, false, 40⟩
/-- A message of node `src` to tracker 3 of slice 1. -/
def answer (op : BitVec 8) (src : Node) (fspec : BitVec 13) (body : List Slot) : Msg := mkMsg op 1 src 0x100 3 1 fspec false 0 body
/-- The owner 0x12 and the sharer 0x13 have been snooped. -/
def snooping : Txn := under .snoop [copy Op.snpShared 0x12 true, copy Op.snpShared 0x13 false]
/-- A memory write in flight in slice 1. -/
def memOp (offer : Bool) (clean : Option (Nat × Nat × Nat × Bool)) : MemOp :=
  ⟨9, 1, 0x440, 0, 0, offer, false, 60, none, clean, none, none, false⟩
def writing (b : MemOp) : State := ready.modSlice 1 (fun c => { c with memOps := [b] })
/-- A memory message for tag 9 of slice 1. -/
def memIn (op : BitVec 8) (tag : Tag) (fspec : BitVec 13) (body : List Slot) : Msg := mkMsg op 1 0x20 0x100 tag 1 fspec false 0 body
/-- A transaction that reads memory and still waits for the sharer. -/
def reading (cancelled : Bool) : Txn :=
  { under .snoop [copy Op.snpShared 0x13 false] with memRd := some ⟨true, cancelled, 70⟩ }
/-- A closed one that still waits for memory. -/
def lateRead (cancelled : Bool) : Txn := { under .closed [] with opened := false, memRd := some ⟨true, cancelled, 70⟩ }
/-- A frame of the home cache with the line dirty, and the write that cleans it. -/
def dirtyFrame : Frame := ⟨tagPack 2 2 1 0, [(1, Sub.zero)]⟩
def cleaning : State := (writing (memOp false (some (4, 0, 1, false)))).setFrame 1 4 0 dirtyFrame
/-- Recovery: messages sent to node 0x10 that wait for their answers. -/
def notified (phase : Phase) (op : BitVec 8) : Txn := { under phase [] with seized := [copy op 0x10 false] }
def recalling : Txn := under .recall [copy Op.rcvInv 0x12 false, copy Op.rcvInv 0x13 false]
/-- A census set with two lines' copies outstanding. -/
def censusTxn : Txn :=
  { Txn.new (.census 1) rdA 0 (.sfSet 17) with
    opened := true, phase := .censusRecall, copies := [copy Op.censusSnp 0x12 false, copy Op.censusSnp 0x13 false],
    rebuilt := [(0x440, 1, LineRec.none)] }

theorem heard_slice (s : State) (p : Nat) (m : Msg) (k : Nat) : (s.heard p m).slice k = s.slice k := by
  have c (s : State) : (s.consume p m).slice k = s.slice k := by
    unfold State.consume
    dsimp only
    split <;> rfl
  have q : (s.present p m).slice k = s.slice k := by
    unfold State.present
    split <;> rfl
  rw [State.heard, c, q]
theorem heard_txn (s : State) (p : Nat) (m : Msg) (k t : Nat) : (s.heard p m).txn k t = s.txn k t := by
  simp only [State.txn, heard_slice]

/-- The data of a line in four slots. -/
def fourSlots : List Slot := [1, 2, 3, 4]
/-- What the owner answers to a shared snoop with dirty data and with none. -/
def ownerData : Msg := answer Op.snpRspData 0x12 (8 + 4) fourSlots
def ownerNone : Msg := answer Op.snpRsp 0x12 0 []

theorem witness_SnoopResponses :
    ((withTxn snooping).heard 0 ownerData).txn 1 3 = some snooping ∧ ((withTxn snooping).heard 0 ownerNone).txn 1 3 = some snooping ∧
    (ready.heard 0 ownerNone).txn 1 3 = none := ⟨by rw [heard_txn]; rfl, by rw [heard_txn]; rfl, by rw [heard_txn]; rfl⟩
theorem witness_SnoopResponses_admits :
    (withTxn snooping).admits 0 ownerData ∧ (withTxn snooping).admits 0 ownerNone ∧ ready.admits 0 ownerNone := by
  refine ⟨?_, ?_, ?_⟩ <;> exact admits_sealed (by decide +kernel) (by decide +kernel) (by decide +kernel) (by decide +kernel)
theorem witness_SnoopResponses_fields :
    1 = ownerData.htx.toNat ∧ 3 = ownerData.tag.toNat ∧ 1 = ownerNone.htx.toNat ∧ 3 = ownerNone.tag.toNat ∧
    snooping.kind = .client ∧ snooping.phase = .snoop ∧ (copy Op.snpShared 0x12 true).dst = ownerData.src ∧
    (copy Op.snpShared 0x12 true).range = msgAgg ownerData ∧ (copy Op.snpShared 0x12 true).op ∈
      [Op.snpShared, Op.snpUnique, Op.snpOnce, Op.snpMakeInv, Op.snpBackInv] ∧ ownerData.ten = snooping.m.ten ∧
    msgDirty ownerData = true ∧ legalAnswer Op.snpShared (msgState ownerData) true = true ∧
    msgDirty ownerNone = false ∧ legalAnswer Op.snpShared (msgState ownerNone) false = true ∧
    (msgDirty (answer Op.snpRspData 0x12 4 fourSlots) ≠ true) ∧
    legalAnswer Op.snpShared (msgState (answer Op.snpRsp 0x12 2 [])) false = false := by decide +kernel

/-- CompAck and Settle carry the TAG of the request. -/
def ackIn (op : BitVec 8) : Msg := mkMsg op 1 0x10 0x100 5 1 0 false 0 []
theorem witness_FollowOnMessages :
    (withTxn (under .ack [])).admits 0 (ackIn Op.compAck) ∧ (withTxn (under .settle [])).admits 0 (ackIn Op.settle) ∧
    ready.admits 0 (ackIn Op.compAck) := by
  refine ⟨?_, ?_, ?_⟩ <;> exact admits_sealed (by decide +kernel) (by decide +kernel) (by decide +kernel) (by decide +kernel)
theorem witness_FollowOnMessages_waiting :
    (ready.heard 0 (ackIn Op.compAck)).waitingAt (ackIn Op.compAck) .ack = none ∧
    ((withTxn (under .ack [])).heard 0 (ackIn Op.compAck)).waitingAt (ackIn Op.compAck) .ack = some (1, 3) ∧
    ((withTxn (under .settle [])).heard 0 (ackIn Op.settle)).waitingAt (ackIn Op.settle) .settle = some (1, 3) ∧
    (((withTxn (under .ack [])).heard 0 (ackIn Op.compAck)).txn 1 3).isSome = true := by decide +kernel

/-- Data and acknowledgements of memory for tracker 3 and for tag 9 of slice 1. -/
def dataIn : Msg := memIn Op.memData 3 0 fourSlots
theorem witness_MemoryAnswers_admits :
    ready.admits 1 dataIn ∧ ready.admits 1 (memIn Op.memCancelled 3 0 []) ∧ (withTxn (reading false)).admits 1 dataIn ∧
    (withTxn (lateRead false)).admits 1 dataIn ∧ (withTxn (lateRead true)).admits 1 (memIn Op.memCancelled 3 0 []) ∧
    ready.admits 1 (memIn Op.memWrAck 9 0 []) ∧ ready.admits 1 (memIn Op.memOfferRsp 9 0 []) ∧
    (writing (memOp false none)).admits 1 (memIn Op.memWrAck 9 0 []) ∧ cleaning.admits 1 (memIn Op.memWrAck 9 0 []) ∧
    (writing (memOp true none)).admits 1 (memIn Op.memOfferRsp 9 1 []) ∧ (writing (memOp true none)).admits 1 (memIn Op.memOfferRsp 9 0 []) := by
  refine ⟨?_, ?_, ?_, ?_, ?_, ?_, ?_, ?_, ?_, ?_, ?_⟩ <;>
    exact admits_sealed (by decide +kernel) (by decide +kernel) (by decide +kernel) (by decide +kernel)
theorem witness_MemoryAnswers :
    1 = dataIn.htx.toNat ∧ 3 = dataIn.tag.toNat ∧ ready.txn 1 3 = none ∧ dataIn.ten = (reading false).m.ten ∧
    (reading false).dataUnused = false ∧ (reading false).kind = .client ∧ (withTxn (reading false)).wrPending 1 0x440 = false ∧
    (reading false).phase = .snoop ∧ (lateRead false).opened = false ∧ (lateRead true).phase = .closed ∧
    ((withTxn (lateRead false)).slice 1).memOps = [] ∧ (ready.slice 1).memOps = [] ∧
    ((writing (memOp false none)).slice 1).memOps = [memOp false none] ∧ (memIn Op.memWrAck 9 0 []).tag = (memOp false none).tag ∧
    ((writing (memOp false none)).slice 1).trk = [] ∧ (cleaning.slice 1).memOps = [memOp false (some (4, 0, 1, false))] ∧
    (tagV (cleaning.frame 1 4 0).tag).getLsbD 1 = true ∧ subAddr 4 (cleaning.frame 1 4 0).tag 1 = 0x440 ∧
    (memIn Op.memOfferRsp 9 1 []).fspec.getLsbD 0 = true ∧ (memIn Op.memOfferRsp 9 0 []).fspec.getLsbD 0 = false := by decide +kernel

theorem witness_RecoveryAnswers_admits :
    (withTxn (notified .ack Op.seizeNotice)).admits 0 (answer Op.seizeAck 0x10 0 []) ∧
    (withTxn (notified .seizeClose Op.seizeNotice)).admits 0 (answer Op.seizeAck 0x10 0 []) ∧
    (withTxn (under .ack [])).admits 0 (answer Op.seizeAck 0x10 0 []) ∧ (withTxn recalling).admits 0 (answer Op.rcvInvRsp 0x12 0 []) ∧
    (withTxn recalling).admits 0 (answer Op.rcvInvRsp 0x12 10 fourSlots) ∧
    (withTxn (notified .ack Op.rcvInv)).admits 0 (answer Op.rcvInvRsp 0x10 0 []) ∧
    (withTxn censusTxn).admits 0 (answer Op.censusRsp 0x12 1 []) := by
  refine ⟨?_, ?_, ?_, ?_, ?_, ?_, ?_⟩ <;>
    exact admits_sealed (by decide +kernel) (by decide +kernel) (by decide +kernel) (by decide +kernel)
theorem witness_RecoveryAnswers :
    1 = (answer Op.seizeAck 0x10 0 []).htx.toNat ∧ 3 = (answer Op.seizeAck 0x10 0 []).tag.toNat ∧
    (copy Op.seizeNotice 0x10 false).dst = (answer Op.seizeAck 0x10 0 []).src ∧
    (answer Op.seizeAck 0x10 0 []).ten = (notified .ack Op.seizeNotice).copyTen (copy Op.seizeNotice 0x10 false) ∧
    (notified .ack Op.seizeNotice).phase ≠ .seizeClose ∧ (answer Op.seizeAck 0x10 0 []).src = (notified .seizeClose Op.seizeNotice).m.src ∧
    recalling.kind = .client ∧ recalling.phase = .recall ∧ msgAgg (answer Op.rcvInvRsp 0x12 0 []) = false ∧
    msgDirty (answer Op.rcvInvRsp 0x12 0 []) = false ∧ msgDirty (answer Op.rcvInvRsp 0x12 10 fourSlots) = true ∧
    (notified .ack Op.rcvInv).copies = [] ∧ censusTxn.kind = .census 1 ∧ censusTxn.scope = .sfSet 17 := by decide +kernel
theorem witness_RecoveryAnswers_txn (x : Txn) (m : Msg) : ((ready.setTxn 1 3 (some x)).heard 0 m).txn 1 3 = some x := by
  rw [heard_txn]; simp [State.txn, State.setTxn, State.modSlice, spGet_spSet]

/-! ## Timeouts -/

/-- A transaction that waits for the owner, or a sharer first, or for the answers of a recall. -/
def sharing : Txn := under .snoop [copy Op.snpShared 0x13 false, copy Op.snpShared 0x12 true]
/-- A companion fill. -/
def companion (phase : Phase) (memRd : Option MemWait) : Txn :=
  { Txn.new .companion rdA 0 (.line 0x440) with opened := true, phase := phase, memRd := memRd }
/-- A window entry that has closed. -/
def oldEntry : State := known 1 rdA .done none
/-- The home cache enabled, with a frame of the sector that holds another line of it. -/
def filling : State :=
  ((withTxn (companion .fill none)).fset F.HCM_MODE_STATUS_MODE 0).setFrame 1 4 0 ⟨tagPack 1 0 1 0, [(0, Sub.zero)]⟩

theorem witness_SnoopTimeouts :
    ready.boot.rstN = false ∧ (copy Op.snpShared 0x12 true).deadline ≠ 0 ∧ snooping.kind = .client ∧ snooping.phase = .snoop ∧
    (copy Op.snpShared 0x12 true).toOwner = true ∧ (copy Op.snpShared 0x13 false).toOwner = false ∧
    (copy Op.snpShared 0x13 false).op ≠ Op.rcvInv ∧ (copy Op.snpShared 0x13 false).op ≠ Op.censusSnp ∧ sharing.phase = .snoop ∧
    censusTxn.kind = .census 1 ∧ censusTxn.scope = .sfSet 17 ∧ (copy Op.censusSnp 0x12 false).line = lineAddr (copy Op.censusSnp 0x12 false).line ∧
    recalling.kind = .client ∧ recalling.phase = .recall ∧ (copy Op.rcvInv 0x12 false).op = Op.rcvInv := by decide +kernel
theorem witness_SnoopTimeouts_txn (x : Txn) : (withTxn x).txn 1 3 = some x := by
  simp [withTxn, State.txn, State.setTxn, State.modSlice, spGet_spSet]
theorem witness_SnoopTimeouts_copies :
    snooping.copies = [copy Op.snpShared 0x12 true, copy Op.snpShared 0x13 false] ∧
    sharing.copies = [copy Op.snpShared 0x13 false, copy Op.snpShared 0x12 true] ∧
    censusTxn.copies = [copy Op.censusSnp 0x12 false, copy Op.censusSnp 0x13 false] ∧
    recalling.copies = [copy Op.rcvInv 0x12 false, copy Op.rcvInv 0x13 false] := ⟨rfl, rfl, rfl, rfl⟩

theorem witness_TransactionTimeouts :
    (under .settle []).phase = .settle ∧ (under .seizeClose []).phase = .seizeClose ∧ (under .ack []).phase = .ack ∧
    (under .ack []).phase ≠ .settle ∧ (under .ack []).phase ≠ .seizeClose ∧ (under .settle []).phase ≠ .ack ∧
    (reading false).kind = .client ∧ (reading false).memRd = some ⟨true, false, 70⟩ ∧ (reading false).dataUnused = false ∧
    (reading false).copies = [copy Op.snpShared 0x13 false] ∧ (reading false).phase = .snoop ∧
    (companion .fill none).kind = .companion ∧ (companion .fill none).phase = .fill ∧
    (filling.hcCheckSet 1 (hcSetOf 0x440)).fillOk 1 0x440 = true ∧ (filling.hcCheckSet 1 (hcSetOf 0x440)).wrPending 1 0x440 = false ∧
    ((withTxn (companion .fill none)).hcCheckSet 1 (hcSetOf 0x440)).fillOk 1 0x440 = false ∧
    (companion .mem (some ⟨false, false, 70⟩)).memRd = some ⟨false, false, 70⟩ ∧ (under .hold []).phase = .hold ∧
    (under .hold []).opened = true ∧ (under .hold []).scope = .line (lineAddr 0x47F) ∧ ready.boot.rstN = false ∧ ready.boot.flushBy = none ∧
    ((writing (memOp false none)).slice 1).memOps = [memOp false none] ∧ ((writing (memOp true none)).slice 1).memOps = [memOp true none] ∧
    ((writing (memOp true none)).slice 1).trk = [] ∧ (memOp true none).offer = true ∧ (memOp false none).retire = none ∧
    oldEntry.boot.rstN = false ∧ 1 < oldEntry.pat.nActive ∧ winSetOf 0x10 1 5 < 2048 ∧
    (oldEntry.winEnd 1 (winSetOf 0x10 1 5)).isSome = true ∧ ready.winEnd 1 3 = none := by decide +kernel
theorem witness_TransactionTimeouts_hold : ((withTxn (under .hold [])).slice 1).trk = [(3, some (under .hold []))] := rfl

/-! ## Slices: scrubbing, maintenance, failure, migration, delay monitors -/

/-- The master of the register commands. -/
def master : Party := .i3c 8
/-- Logical slice 1 with a lock whose holder and waiter are known. -/
def lockedState : State := (sealed.setEnt 1 2 (lockEnt [rec_ 0x10 .holder, rec_ 0x12 .waiter]))
/-- A diagnostic read of the SF or of the Clamp under way in slice 1. -/
def readingSf : State := (sealed.modSlice 1 (fun c => { c with rdBusy := true })).fset F.SLC_SF_RDSEL_SET 5 1
def readingClamp : State := (lockedState.modSlice 1 (fun c => { c with hselBusy := true })).fset F.SLC_CLAMP_HSEL_INDEX 2 1
/-- A probe of an address. -/
def probing (a : Nat) : State := { sealed.fset F.GLB_HPROBE_ADDR_LO_ADDR_LO (a / 64) with probing := true }
/-- The home cache in a mode. -/
def mode (n : Nat) : State := sealed.fset F.HCM_MODE_STATUS_MODE n
/-- The range registers set. -/
def ranged (n base limit : Nat) : State :=
  ((mode n).fset F.HCM_RNG_BASE_LO_ADDR_LO (base / 64)).fset F.HCM_RNG_LIMIT_LO_ADDR_LO (limit / 64)
/-- A range-engine job of context 0. -/
def job : RangeJob := ⟨0, 0, 2 ^ 52 - 1, none, 0xFFFF⟩
/-- Slice 1 has failed. -/
def failure (hcDone sfDone : Bool) : Failure := ⟨1, 1, 7, [0x440], hcDone, sfDone⟩
def failed (hcDone sfDone : Bool) : State :=
  (sealed.modSlice 1 (fun c => { c with fail := some (failure hcDone sfDone), hc := [(64, ⟨tagPack 2 2 1 0, [(1, Sub.zero)]⟩)] }))
/-- A census in slice 1. -/
def census : Census := ⟨1, [], 9, [], true⟩
/-- Slice 5 is a spare. -/
def spared : State := { sealed with roles := (List.range 16).map (fun i => (i + 2, if i = 3 then .spare else .fenced)) }
/-- A migration from slice 1 to slice 5. -/
def migrating (busy handover : Bool) : State :=
  { sealed with roles := (List.range 16).map (fun i => (i + 2, if i = 3 then .target else .fenced)), mig := some ⟨1, 5, busy, handover⟩ }

theorem witness_ScrubAndDiagnostics :
    sealed.boot.rstN = false ∧ sealed.scrubbed 1 = true ∧ sealed.jig = [] ∧ (sealed.slice 1).sf = [] ∧ (sealed.slice 1).hc = [] ∧
    sealed.sfRetired 1 65535 15 = false ∧ (sealed.slice 1).sfRet.length < 256 ∧ (sealed.slice 1).memOps = [] ∧
    (sealed.slice 1).hcRet.contains (1023, 15) = false ∧ (sealed.slice 1).hcRet.length < 128 ∧
    sealed.takes master (slcReg 17 0x838) ∧ sealed.takes master (slcReg 1 0x824) ∧ sealed.takes master (slcReg 1 0xD18) ∧
    lockedState.takes master (slcReg 1 0xD14) ∧ lockedState.logicalOn 1 = some 1 ∧ (lockedState.ent 1 (2 : BitVec 12).toNat).st = .lock ∧
    sealed.takes master 0x144 ∧ (readingSf.slice 1).rdBusy = true ∧ readingSf.diagReady 1 = true ∧ readingSf.diagReads 1 = true ∧
    sfCheck (readingSf.sfAt 1 (readingSf.fget F.SLC_SF_RDSEL_SET 1) (readingSf.fget F.SLC_SF_RDSEL_WAY 1)) = .good 0 ∧
    (sealed.slice 1).rdBusy = false ∧ (readingClamp.slice 1).hselBusy = true ∧ readingClamp.awake 1 = true ∧
    readingClamp.srole 1 = .active ∧ readingClamp.logicalOn 1 = some 1 ∧ (readingClamp.ent 1 (readingClamp.fget F.SLC_CLAMP_HSEL_INDEX 1)).gen = 3 ∧
    (sealed.slice 1).hselBusy = false ∧ (probing 0x440).boot.rstN = false ∧ (probing 0x440).probing = true ∧
    addrOf ((probing 0x440).fget F.GLB_HPROBE_ADDR_LO_ADDR_LO) ((probing 0x440).fget F.GLB_HPROBE_ADDR_HI_ADDR_HI) = 0x440 ∧
    ((probing 0x440).rangeOf 0x440).isSome = true ∧ ((probing 0x40000000).rangeOf 0x40000000).isSome = false := by
  unfold State.takes; and_intros <;> decide +kernel

theorem witness_HomeCacheMaintenance :
    (mode 0).takes master 0x6000 ∧ (mode 0).hcMode = 0 ∧ (mode 1).hcMode = 1 ∧ (mode 2).hcMode = 2 ∧ 1 ∈ (mode 0).actives ∧
    ((mode 0).slice 1).pwr ≠ .deep ∧ (mode 1).takes master 0x6000 ∧ (mode 2).takes master 0x6000 ∧
    (mode 1).hcDrained = true ∧ (mode 0).hcDrained = false ∧ (mode 0).takes master 0x6018 ∧
    ((mode 0).setFlag F.HCM_MOP_STATUS_BUSY true).flag F.HCM_MOP_STATUS_BUSY = true ∧
    ((mode 0).setFlag F.HCM_MOP_STATUS_BUSY true).takes master 0x6018 ∧ (mode 0).flag F.HCM_MOP_STATUS_BUSY = false ∧
    (0 : Word).getLsbD 2 = false ∧ ((mode 0).fset F.HCM_MOP_ADDR_LO_ADDR_LO 0x1000000).rangeOf (addrOf
      (((mode 0).fset F.HCM_MOP_ADDR_LO_ADDR_LO 0x1000000).fget F.HCM_MOP_ADDR_LO_ADDR_LO)
      (((mode 0).fset F.HCM_MOP_ADDR_LO_ADDR_LO 0x1000000).fget F.HCM_MOP_ADDR_HI_ADDR_HI)) = none ∧
    (BitVec.ofNat 32 (4 + 5 * 2 ^ 21) : Word).getLsbD 2 = true ∧ getBits (BitVec.ofNat 32 (4 + 5 * 2 ^ 21)) 21 5 ∉ (mode 0).actives ∧
    getBits (BitVec.ofNat 32 (4 + 1 * 2 ^ 21)) 21 5 ∈ (mode 0).actives ∧ ((mode 0).slice 1).hcRet.contains (0, 0) = false ∧
    (ranged 1 0x1000 0x2000).takes master 0x6030 ∧ (ranged 1 0x1000 0x2000).hcMode = 1 ∧ (ranged 0 0x1000 0x2000).takes master 0x6030 ∧
    (ranged 0 0x1000 0x2000).hcMode ≠ 1 ∧ (ranged 0 0x1000 0x2000).flag F.HCM_RNG_STATUS_BUSY = false ∧
    addrOf ((ranged 0 0x1000 0x2000).fget F.HCM_RNG_BASE_LO_ADDR_LO) ((ranged 0 0x1000 0x2000).fget F.HCM_RNG_BASE_HI_ADDR_HI) = 0x1000 ∧
    addrOf ((ranged 0 0x1000 0x2000).fget F.HCM_RNG_LIMIT_LO_ADDR_LO) ((ranged 0 0x1000 0x2000).fget F.HCM_RNG_LIMIT_HI_ADDR_HI) = 0x2000 ∧
    addrOf ((ranged 0 0x2000 0x1000).fget F.HCM_RNG_BASE_LO_ADDR_LO) ((ranged 0 0x2000 0x1000).fget F.HCM_RNG_BASE_HI_ADDR_HI) = 0x2000 ∧
    ((mode 0).setFlag F.HCM_RNG_STATUS_BUSY true).flag F.HCM_RNG_STATUS_BUSY = true ∧ 1 ∈ State.actives { mode 0 with ctx0 := some job } ∧
    State.rangeOpen { mode 0 with ctx0 := some job } 1 0 = 0 ∧ State.ctxStopped { mode 0 with ctx0 := some job } 0 = false ∧
    (State.slice { mode 0 with ctx0 := some job } 1).walk0 < 1024 ∧ sealed.ctx1 = none := by
  unfold State.takes; and_intros <;> decide +kernel
theorem witness_HomeCacheMaintenance_arrays :
    ((mode 0).setFlag F.HCM_RNG_STATUS_BUSY true).ArraysWf ∧ (ranged 0 0x1000 0x2000).ArraysWf := by
  constructor <;> constructor <;> (unfold SpCanon; decide +kernel)

theorem witness_SliceFailure :
    sealed.boot.rstN = false ∧ spared.srole 4 = .fenced ∧ spared.srole 5 = .spare ∧ spared.log.length < 256 ∧ spared.boot.rstN = false ∧
    ((failed false false).slice 1).fail = some (failure false false) ∧ (failure false false).hcDone = false ∧
    ((failed true false).slice 1).fail = some (failure true false) ∧ (failure true false).hcDone = true ∧
    (failure false true).sfDone = true ∧ ((failed false true).slice 1).fail = some (failure false true) ∧
    ((failed false false).modSlice 0 (fun c => { c with census := [census] })).dests 1 = [0] ∧
    ((sealed.modSlice 0 (fun c => { c with census := [census] })).slice 0).census = [census] ∧ census.ready = true ∧
    census.next < 65536 ∧ census.opened.length < 48 ∧ (sealed.slice 0).census = [] := by decide +kernel

theorem witness_MigrationControl :
    spared.takes master 0x320 ∧ getBits (0x501 : Word) 0 5 = 1 ∧ getBits (0x501 : Word) 8 5 = 5 ∧ spared.mig = none ∧
    spared.srole 1 = .active ∧ (spared.logicalOn 1).isSome = true ∧ spared.srole 5 = .spare ∧ spared.predCause 5 = 0 ∧
    spared.srole 4 ≠ .spare ∧ spared.boot.rstN = false ∧
    ({ spared with predQ := [1] } : State).predQ.find? (fun j => State.srole { spared with predQ := [1] } j == .active) = some 1 ∧
    State.spare { spared with predQ := [1] } = some 5 ∧ (migrating false false).mig ≠ none ∧ (migrating false false).takes master 0x320 ∧
    (migrating false false).mig = some ⟨1, 5, false, false⟩ ∧ ((migrating false false).slice 1).ingress = [] ∧
    (migrating false false).srole 5 = .target ∧ sealed.mig = none ∧ sealed.takes master 0x324 ∧ getBits (0x10400 : Word) 0 17 ≤ 66560 ∧
    ((migrating false false).fset F.GLB_MIG_LIMIT_LIMIT 66560).isSafe = false ∧
    ((migrating false false).fset F.GLB_MIG_LIMIT_LIMIT 66560).watermark <
      ((migrating false false).fset F.GLB_MIG_LIMIT_LIMIT 66560).fget F.GLB_MIG_LIMIT_LIMIT ∧
    ((migrating false false).fset F.GLB_MIG_LIMIT_LIMIT 0).fget F.GLB_MIG_LIMIT_LIMIT ≤
      ((migrating false false).fset F.GLB_MIG_LIMIT_LIMIT 0).watermark ∧
    (migrating false true).mig = some ⟨1, 5, false, true⟩ ∧ (migrating false true).migDrained 1 = true ∧
    (migrating false true).logicalOn 1 = some 1 ∧ ((migrating false true).slice 1).ingress = [] ∧
    (sealed.setFlag F.GLB_SPR_STATUS_DEGRADED true).flag F.GLB_SPR_STATUS_DEGRADED = true ∧ ({ pat with pm := some 0x30 } : Pattern).pm = some 0x30 ∧
    sealed.flag F.GLB_SPR_STATUS_DEGRADED = false ∧ sealed.takes master 0x348 := by
  unfold State.takes; and_intros <;> decide +kernel
theorem witness_MigrationControl_arrays : (migrating false false).ArraysWf ∧ sealed.ArraysWf := by
  constructor <;> constructor <;> (unfold SpCanon; decide +kernel)

/-- Slice 1 measures, or its next measurement is due. -/
def measuring : State := sealed.modSlice 1 (fun c => { c with measuring := true, window := 2 })
def measureDue : State := (sealed.setFlag F.SLC_DMON_CTL_AUTO true 1).modSlice 1 (fun c => { c with autoAt := 9, ageAt := 9 })
def ageing : State := (sealed.modSlice 1 (fun c => { c with ageing := true })).fset F.SLC_DMON_BASE_BASE 0x4000 1
theorem witness_DelayMonitors :
    sealed.takes master (slcReg 1 0xE00) ∧ (sealed.slice 1).measures = false ∧ measuring.takes master (slcReg 1 0xE00) ∧
    (measuring.slice 1).measures = true ∧ sealed.boot.rstN = false ∧ measureDue.flag F.SLC_DMON_CTL_AUTO 1 = true ∧
    (measureDue.slice 1).autoAt ≠ 0 ∧ (measureDue.slice 1).measures = false ∧
    (sealed.setFlag F.SLC_DMON_CTL_AUTO false 1).flag F.SLC_DMON_CTL_AUTO 1 = false ∧
    (measuring.slice 1).measuring = true ∧ (measuring.slice 1).deferred = false ∧ (sealed.slice 1).measuring = false ∧
    (measureDue.slice 1).ageAt ≠ 0 ∧ (ageing.slice 1).ageing = true ∧ ageing.boot.baseBad.getLsbD 1 = false ∧
    0 < 120 * ageing.fget F.SLC_DMON_BASE_BASE 1 ∧ (sealed.slice 1).ageing = false ∧
    (ageing.modBoot (fun b => { b with baseBad := 2 })).boot.baseBad.getLsbD 1 = true := by
  unfold State.takes; and_intros <;> decide +kernel
theorem witness_DelayMonitors_arrays : measuring.ArraysWf := by constructor <;> (unfold SpCanon; decide +kernel)

/-! ## Tenants -/

/-- Tenant 1 in a state of its lifecycle. -/
def tenState (n : Nat) : State := sealed.fset F.TNT_STATUS_STATE n 1
/-- Tenant 1 at a step of its reset. -/
def tenStep (n : Nat) (done : Bool) : State :=
  { ((tenState 2).fset F.TNT_STATUS_STEP n 1) with tns := { Tenants.zero with queue := [1], done := done, at_ := [(1, 0)] } }
/-- The last step but one, with an entry of tenant 1 in the highest bank. -/
def revoking : State := (tenStep 4 true).setEnt 1 2 (lockEnt [])
/-- Staging buffer 2 belongs to tenant 1 and the master. -/
def staged : State :=
  { sealed with tns := { Tenants.zero with staging := [(2, ⟨true, 7, 1, masterOf master, [(4, 99)]⟩)] } }
/-- Its address register points to word `o` of it. -/
def pointed (o : Nat) : State := (staged.fset F.TNT_STG_ADDR_HANDLE (7 * 32 + 2) 1).fset F.TNT_STG_ADDR_OFFSET o 1
/-- The loader holds an empty overlay of tenant 1. -/
def loading : State := { sealed with tns := { Tenants.zero with load := some (1, []) } }

/-- A chain and fences of two tenants. -/
def crowd : State :=
  { ready with pat := { pat with tens := [ten1, { ten1 with ten := 2 }] } }.modSlice 1 (fun c => { c with
    chain := [Txn.new .client { rdA with ten := 2 } 0 (.line 0x440)], ingress := [] })
theorem witness_TenantResetGo :
    (tenState 1).takes master (tntReg 1 0x8) ∧ (tenState 1).fget F.TNT_STATUS_STATE (1 : Tenant).toNat = 1 ∧
    (tenState 2).takes master (tntReg 1 0x8) ∧ (tenState 2).fget F.TNT_STATUS_STATE (1 : Tenant).toNat ≠ 1 ∧
    ((crowd.quiesce 1).slice 1).chain.map (fun x => (x.isClient, x.m.ten)) = [(true, 2)] ∧
    (((crowd.modPort 3 (fun q => { q with fences := [⟨2, { fence with ten := 2 }, 8⟩] })).quiesce 1).port 3).fences.map (·.m.ten) = [2] := by
  unfold State.takes; and_intros <;> decide +kernel

theorem witness_TenantResetSteps :
    (tenStep 1 true).boot.rstN = false ∧ (tenStep 1 true).tns.queue.head? = some 1 ∧ (tenStep 1 true).umevoRuns = true ∧
    (tenStep 1 true).isSafe = false ∧ (tenStep 1 true).tns.done = true ∧ (tenStep 1 true).fget F.TNT_STATUS_STEP (1 : Tenant).toNat = 1 ∧
    (tenStep 2 true).fget F.TNT_STATUS_STEP (1 : Tenant).toNat = 2 ∧
    (∀ k ∈ (tenStep 2 true).actives, ((tenStep 2 true).slice k).sf = [] ∧ ((tenStep 2 true).slice k).census = []) ∧
    1 ∈ (tenStep 2 true).actives ∧ ((tenStep 2 true).slice 1).pwr ≠ .deep ∧
    (tenStep 3 true).fget F.TNT_STATUS_STEP (1 : Tenant).toNat = 3 ∧ (tenStep 3 true).ctx1 = none ∧
    State.fget { tenStep 3 true with ctx1 := some job } F.TNT_STATUS_STEP (1 : Tenant).toNat = 3 ∧
    revoking.fget F.TNT_STATUS_STEP (1 : Tenant).toNat = 4 ∧ revoking.pat.nActive = 1 + 1 ∧
    (revoking.bank 1).ents.map (fun e => (e.1, e.2.st, e.2.ten)) = [(2, .lock, 1)] ∧ (∀ j, j < 1 → revoking.bank j = Bank.zero) ∧
    (tenStep 5 true).fget F.TNT_STATUS_STEP (1 : Tenant).toNat = 5 ∧ spGet none (tenStep 5 true).tns.held (1 : Tenant).toNat = none ∧
    (tenStep 5 false).tns.done = false ∧ (tenStep 5 false).fget F.TNT_STATUS_STEP (1 : Tenant).toNat = 5 ∧
    (∀ k, k < 18 → ((tenStep 2 false).slice k).trk = [] ∧ ((tenStep 2 false).slice k).chain = [] ∧ ((tenStep 2 false).slice k).ingress = []) ∧
    ((tenStep 2 false).setTxn 1 3 (some (under .mem []))).fget F.TNT_STATUS_STEP (1 : Tenant).toNat = 2 ∧
    (((tenStep 2 false).setTxn 1 3 (some (under .mem []))).slice 1).trk.map (·.1) = [3] ∧ (under .mem []).isClient = true ∧
    (under .mem []).m.ten = 1 := by and_intros <;> decide +kernel
theorem witness_TenantResetSteps_staging : SpCanon (fun _ => Staging.zero) (tenStep 5 true).tns.staging := by
  unfold SpCanon; decide +kernel

/-- Two staging buffers in use, of another tenant and of tenant 1. -/
def twoStaged (t : Tenant) : State :=
  { sealed with tns := { Tenants.zero with staging := [(0, { Staging.zero with used := true, ten := t }), (1, { Staging.zero with used := true, ten := 1 })] } }
theorem witness_StagingBuffers :
    (twoStaged 2).takes master (tntReg 1 0x40) ∧ 1 = ((twoStaged 2).tns.staging.filter (fun e => e.2.used && e.2.ten == 1)).length ∧
    ((twoStaged 2).stg 2).used = false ∧ (∀ j, j < 2 → ((twoStaged 2).stg j).used = true) ∧
    2 = ((twoStaged 1).tns.staging.filter (fun e => e.2.used && e.2.ten == 1)).length ∧ (twoStaged 1).takes master (tntReg 1 0x40) ∧
    staged.takes master (tntReg 1 0x40) ∧ (staged.stg ((226 : BitVec 16).toNat % 32)).used = true ∧
    (staged.stg 2).gen.toNat = (226 : BitVec 16).toNat / 32 ∧ (staged.stg 2).ten = 1 ∧ (staged.stg 2).master = masterOf master ∧
    staged.fget F.PAT_STATUS_LOADER = 0 ∧ (staged.fset F.PAT_STATUS_LOADER 2).fget F.PAT_STATUS_LOADER ≠ 0 ∧
    (staged.fset F.PAT_STATUS_LOADER 2).takes master (tntReg 1 0x40) ∧ (staged.stg 3).used = false ∧
    (staged.stg 2).gen.toNat ≠ (194 : BitVec 16).toNat / 32 ∧ (staged.stg 2).master ≠ masterOf (.i3c 9) ∧
    staged.takes (.i3c 9) (tntReg 1 0x40) ∧ (pointed 4095).takes master (tntReg 1 0x50) ∧
    4095 = (pointed 4095).fget F.TNT_STG_ADDR_OFFSET (1 : Tenant).toNat ∧
    2 = (pointed 4095).fget F.TNT_STG_ADDR_HANDLE (1 : Tenant).toNat % 32 ∧
    ((pointed 4095).stg 2).gen.toNat = (pointed 4095).fget F.TNT_STG_ADDR_HANDLE (1 : Tenant).toNat / 32 ∧
    (pointed 4095).takes (.i3c 9) (tntReg 1 0x50) := by unfold State.takes; and_intros <;> decide +kernel
/-- All 32 buffers in use. -/
theorem witness_StagingBuffers_full :
    (∀ j, j < 32 → (State.stg { sealed with tns := { Tenants.zero with
      staging := (List.range 32).map (fun i => (i, { Staging.zero with used := true, ten := 2 })) } } j).used = true) := by decide +kernel

theorem witness_OverlayValidation :
    sealed.boot.rstN = false ∧ sealed.tns.load = none ∧ loading.boot.rstN = false ∧ loading.tns.load = some (1, []) ∧ loading.umevoRuns = true ∧
    State.umevoRuns { loading with umv := { Umv.zero with halted := true } } = false := by decide +kernel

/-! ## The event gatherer -/

/-- Vector 0 of tenant 1 as its record configures it. -/
def vec8 : EvVector := { EvVector.zero with enable := true, target := 0x10, classes := 0xFFFF, coalTime := 10, coalCount := 4 }
/-- An open batch of it. -/
def batch : EvVector := { vec8 with pend := true, count := 2, minsrc := 7, seen := 4, t0 := 100 }
/-- An Interrupt of it, sent and not acknowledged. -/
def interrupt : Msg := mkMsg Op.interrupt 1 0x100 0x10 8 0x1F 0 false 0 [interruptSlot 0 batch false false]
def outstanding : EvVector := { vec8 with out := some ⟨interrupt, 50⟩, seq := 2 }
/-- The chiplet with that vector in the state `v`, and with source 3 holding events. -/
def gatherer (v : EvVector) (q : List Ev) : State := { ready with vectors := [(8, v)], sources := spSet EvSource.zero [] 3 ⟨q, 0⟩ }
/-- An event of tenant 1, and one of a class that no vector takes. -/
def event : Ev := ⟨2, some 1⟩
def strange : Ev := ⟨17, none⟩
theorem witness_EventBatches :
    (gatherer vec8 [event, strange]).boot.rstN = false ∧ (spGet EvSource.zero (gatherer vec8 [event, strange]).sources 3).q = [event, strange] ∧
    (gatherer vec8 [event, strange]).vecFor event = some 8 ∧ ((gatherer vec8 [event, strange]).vec 8).pend = false ∧
    (gatherer batch [event]).vecFor event = some 8 ∧ ((gatherer batch [event]).vec 8).pend = true ∧
    (gatherer { batch with count := 255 } [event]).vecFor event = some 8 ∧ ((gatherer { batch with count := 255 } [event]).vec 8).count = 255 ∧
    (gatherer vec8 [strange]).vecFor strange = none ∧ (spGet EvSource.zero (gatherer vec8 []).sources 3).q = [] := by
  and_intros <;> decide +kernel

/-- An IntAck of node 0x10. -/
def intAckOf (tag : Tag) : Msg := mkMsg Op.intAck 1 0x10 0x100 tag 0x1F 0 false 0 [0]
/-- The master of the register clauses is the I3C controller with ID 8. -/
theorem witness_InterruptDelivery :
    ({ intAckOf 8 with op := Op.intAck } : Msg) = intAckOf 8 ∧
    8 = 8 * (intAckOf 8).ten.toNat + (intAckOf 8).tag.toNat % 8 ∧
    ((((gatherer outstanding []).heard 0 (intAckOf 8)).evgAwake).vec 8).out = some ⟨interrupt, 50⟩ ∧ interrupt.dst = (intAckOf 8).src ∧
    interrupt.ten = (intAckOf 8).ten ∧ interrupt.tag = (intAckOf 8).tag ∧ interrupt.htx = (intAckOf 8).htx ∧
    ((((gatherer outstanding []).heard 0 (intAckOf 16)).evgAwake).vec 8).out = some ⟨interrupt, 50⟩ ∧ interrupt.tag ≠ (intAckOf 16).tag ∧
    ((((gatherer vec8 []).heard 0 (intAckOf 8)).evgAwake).vec 8).out = none ∧
    State.takes { sealed with vectors := [(8, outstanding)] } master 0x8008 ∧
    (State.vec { sealed with vectors := [(8, outstanding)] } 8).out ≠ none ∧ (State.vec { sealed with vectors := [(8, outstanding)] } 9).out = none ∧
    (State.vec { sealed with vectors := [(8, batch)] } 8).pend = true ∧ (State.vec { sealed with vectors := [(8, outstanding)] } 8).pend = false := by
  unfold State.takes; and_intros <;> decide +kernel
theorem witness_InterruptDelivery_admits :
    (gatherer outstanding []).admits 0 (intAckOf 8) ∧ (gatherer outstanding []).admits 0 (intAckOf 16) ∧
    (gatherer vec8 []).admits 0 (intAckOf 8) := by
  refine ⟨?_, ?_, ?_⟩ <;> exact admits_sealed (by decide +kernel) (by decide +kernel) (by decide +kernel) (by decide +kernel)

/-- An IdleHint of tenant `t` at node `src`. -/
def hint (src : Node) : Msg := mkMsg Op.idleHint 1 src 0x100 0 0x1F 1 false 0 []
/-- The chiplet with every slice in DEEP, and with the gatherer retained. -/
def deepAll : State := ((List.range 18).foldl (fun s k => s.modSlice k (fun c => { c with pwr := .deep })) sealed).fset F.PWR_CTL_MAX_STATE 4
def retained : State := (gatherer batch []).setFlag F.EVG_STATUS_RETAINED true
theorem witness_EventGatherer :
    ((gatherer vec8 []).heard 0 (hint 0x11)).flag F.EVG_STATUS_RETAINED = false ∧
    (∀ r ∈ (((gatherer vec8 []).heard 0 (hint 0x11)).ten 1).vectors, r.target ≠ (hint 0x11).src) ∧
    (((gatherer vec8 []).heard 0 (hint 0x10)).ten 1).vectors.filter (fun x => x.target == (hint 0x10).src) = [⟨0, true, 0x10, 4, 10, 0xFFFF⟩] ∧
    sealed.takes master (vcoalReg 0) ∧ sealed.takes master (vcoalReg 1023) ∧ sealed.flag F.EVG_STATUS_RETAINED = false ∧
    getBits (0x83E80001 : Word) 16 10 = 1000 ∧ getBits (0x00010000 : Word) 16 10 = 1 ∧ getBits (0x03E90000 : Word) 16 10 = 1001 ∧
    getBits (0x83E80001 : Word) 0 8 ≠ 0 ∧ getBits (0x00010000 : Word) 0 8 = 0 ∧
    deepAll.boot.rstN = false ∧ deepAll.allDeep = true ∧ deepAll.fget F.PWR_CTL_MAX_STATE = 4 ∧
    (∀ e ∈ deepAll.vectors, e.2.out = none ∧ e.2.pend = false) ∧ sealed.allDeep = false ∧
    (deepAll.fset F.PWR_CTL_MAX_STATE 3).fget F.PWR_CTL_MAX_STATE ≠ 4 ∧
    (∃ e ∈ (gatherer outstanding []).vectors, e.2.out ≠ none) ∧ retained.flag F.EVG_STATUS_RETAINED = true ∧ retained.boot.rstN = false := by
  unfold State.takes; and_intros <;> decide +kernel
theorem witness_EventGatherer_admits :
    (gatherer vec8 []).admits 0 (hint 0x11) ∧ (gatherer vec8 []).admits 0 (hint 0x10) := by
  refine ⟨?_, ?_⟩ <;> exact admits_sealed (by decide +kernel) (by decide +kernel) (by decide +kernel) (by decide +kernel)
theorem witness_EventGatherer_timers :
    (gatherer batch []).boot.rstN = false ∧
    (gatherer batch []).vectors = [(8, batch)] ∧ (gatherer batch []).ready = true ∧
    (gatherer batch []).flag F.EVG_STATUS_RETAINED = false ∧ batch.pend = true ∧ batch.mask = false ∧ batch.enable = true ∧ batch.out = none ∧
    ((gatherer vec8 []).vec 1023).pend = false ∧ ((gatherer { batch with mask := true } []).vec 8).mask = true ∧
    ((gatherer vec8 []).vec 8).out = none ∧
    (gatherer outstanding []).ready = true ∧ (gatherer outstanding []).boot.rstN = false ∧
    ((gatherer outstanding []).fset F.EVG_CTL_RESEND 3).fget F.EVG_CTL_RESEND = 3 ∧
    (((gatherer outstanding []).fset F.EVG_CTL_RESEND 3).vec 8).out = some ⟨interrupt, 50⟩ ∧
    ((gatherer outstanding []).fset F.EVG_CTL_RESEND 0).fget F.EVG_CTL_RESEND = 0 := by
  and_intros <;> decide +kernel

/-! ## The Jig -/

/-- A grant of every kind on every unit but the arrays of slices 4 and up; channel 3 counts to one. -/
def granted : State :=
  { sealed with pat := { pat with jigGrant := true, jigLink := true, jigArray := true, jigPorts := 0xFFF, jigSlices := 0xF } }.fset
    F.JIG_CH_TRIG_VALUE 1 0 3
/-- Channel 3 armed. -/
def armedCh : State := { granted with jig := [(3, some ⟨0, 0, 0, false⟩)] }.setFlag F.JIG_CH_CTL_ARM true 0 3
/-- An arming word: KIND, UNIT and TRIG. -/
def armWord (kind unit trig : Nat) : Word := BitVec.ofNat 32 (kind * 2 ^ 24 + unit * 2 ^ 16 + trig * 2 ^ 28)
/-- The chiplet in lifecycle state 1 with every port and slice in use. -/
def opened : State :=
  { sealed with pat := { pat with ports := List.replicate 12 (.client, 3) } }.fset F.PAT_STATUS_LC 1
theorem witness_JigChannels :
    granted.takes master (chanReg 3) ∧ armedCh.takes master (chanReg 3) ∧ spGet none armedCh.jig 3 ≠ none ∧ spGet none granted.jig 3 = none ∧
    getBits (armWord 1 0 0 ||| bitWord 31) 24 4 = 1 ∧ getBits (armWord 9 4 2 ||| bitWord 31) 16 5 = 4 ∧
    getBits (armWord 9 4 2 ||| bitWord 31) 28 2 = 2 ∧
    granted.jigRefusal 3 1 0 0 = none ∧ granted.jigRefusal 3 9 1 0 = none ∧ granted.jigRefusal 3 9 4 2 = some 3 ∧
    granted.jigRefusal 3 1 0 3 = some 5 ∧ granted.jigRefusal 3 1 6 0 = some 4 ∧ sealed.jigRefusal 3 1 0 0 = some 2 ∧
    (granted.fset F.PAT_STATUS_LC 2).lifecycle = 2 ∧ sealed.lifecycle = 0 ∧ sealed.pat.jigGrant = false ∧
    opened.lifecycle = 1 ∧ (∀ q, q < 12 → opened.role q ≠ .off) ∧
    (opened.takes master (chanReg 7)) ∧ granted.takes master 0x7004 ∧ armedCh.takes master 0x7004 ∧
    (∀ q, q < 18 → opened.srole q = .active) ∧ opened.isSafe = false ∧ (granted.setFlag F.SAF_STATUS_SAFE true).isSafe = true ∧
    (granted.setFlag F.SAF_STATUS_SAFE true).jigRefusal 3 1 0 0 = some 6 ∧
    (State.port { granted with ports := [(0, { upPort with held := some (flit 1 0 0 [], 0, 5, 0) })] } 0).held ≠ none ∧
    (granted.port 0).held = none := by
  unfold State.takes; and_intros <;> decide +kernel

/-! ## Registers and messages that are not for the home -/

theorem witness_RegisterWrites :
    State.reset.boot.rstN = true ∧ up.boot.rstN = false ∧ up.shut (.mgt 0x10) = true ∧ sealed.shut (.mgt 0x20) = false ∧
    sealed.mayAccess (.mgt 0x20) = false ∧ sealed.shut master = false ∧ sealed.mayAccess master = true ∧
    (0x32 : BitVec 24).toNat % 4 ≠ 0 ∧ (0x8000 : BitVec 24).toNat % 4 = 0 ∧ ready.shut master = false ∧ ready.mayAccess master = true ∧
    ready.served (0x8000 : BitVec 24).toNat = false ∧ (∀ i, i < 4 → sealed.takes master (0x30 + 4 * i)) ∧
    sealed.takes master (0 : BitVec 24).toNat ∧ sealed.takes master (0x2C : BitVec 24).toNat ∧ sealed.takes master (0x48000 : BitVec 24).toNat ∧
    sealed.takes master (0xFFFFFC : BitVec 24).toNat ∧
    (∀ k, k < 18 → (BitVec.ofNat 24 (F.SLC_SHED_CTL_TWIN.addr k 0)).toNat = F.SLC_SHED_CTL_TWIN.addr k 0) ∧
    sealed.takes master (F.SLC_SHED_CTL_TWIN.addr 0 0) ∧ sealed.takes master (F.SLC_SHED_CTL_TWIN.addr 17 0) ∧
    sealed.flag F.PAT_STATUS_SEALED = true ∧ sealed.takes master (0x8000 : BitVec 24).toNat ∧
    sealed.takes (.mgt 0x10) (0x800C : BitVec 24).toNat := by unfold State.takes; and_intros <;> decide +kernel

/-- A RegRd or RegWr of node `src` at byte address `a`. -/
def regMsg (op : BitVec 8) (src : Node) (a : Nat) : Msg := mkMsg op 0 src 0x100 9 0x1F 0 false 0 [BitVec.ofNat 128 (a + 7 * 2 ^ 32)]
theorem witness_MgtAccesses :
    0x8000 = (slotField (regMsg Op.regRd 0x10 0x8000) 1 0 24).toNat ∧ (sealed.heard 0 (regMsg Op.regRd 0x10 0x8000)).ready = true ∧
    (sealed.heard 0 (regMsg Op.regRd 0x10 0x8000)).flushing = false ∧ (up.heard 0 (regMsg Op.regWr 0x10 0x8000)).ready = false ∧
    (sealed.heard 0 (regMsg Op.regRd 0x11 0x8000)).mayAccess (.mgt 0x11) = false ∧
    (sealed.heard 0 (regMsg Op.regRd 0x10 0x8000)).mayAccess (.mgt 0x10) = true ∧ (slotField (regMsg Op.regWr 0x10 0x8002) 1 0 24).toNat % 4 ≠ 0 ∧
    (sealed.heard 0 (regMsg Op.regRd 0x10 0x8000)).served 0x8000 = true ∧ (sealed.heard 0 (regMsg Op.regWr 0x10 0x8000)).served 0x8000 = true ∧
    (ready.heard 0 (regMsg Op.regRd 0x10 0x8000)).served 0x8000 = false := by and_intros <;> decide +kernel
theorem witness_MgtAccesses_admits :
    sealed.admits 0 (regMsg Op.regRd 0x10 0x8000) ∧ sealed.admits 0 (regMsg Op.regWr 0x10 0x8000) ∧ sealed.admits 0 (regMsg Op.regRd 0x11 0x8000) ∧
    sealed.admits 0 (regMsg Op.regWr 0x10 0x8002) ∧ up.admits 0 (regMsg Op.regWr 0x10 0x8000) ∧ ready.admits 0 (regMsg Op.regRd 0x10 0x8000) := by
  refine ⟨?_, ?_, ?_, ?_, ?_, ?_⟩ <;> exact admits_sealed (by decide +kernel) (by decide +kernel) (by decide +kernel) (by decide +kernel)

/-- A CompAck of node 0x10 with TAG 3 to node `dst`, and the same with a wrong ECHK, a wrong length and other opcodes. -/
def stray (op : BitVec 8) (dst : Node) : Msg := mkMsg op 1 0x10 dst 3 1 0 false 0 []
def lineless : Msg := rq Op.rdShared 0x10 5 [BitVec.ofNat 128 (0xFFFFFFFFFFFFFFFF * 2 ^ 64 + 0x40000000)]
theorem witness_RejectedMessages :
    (∀ m ∈ [stray Op.compAck 0x100, stray Op.compAck 0x30, stray Op.compAck 0x40, stray Op.compAck 0x777, rdA, lineless, stray 0xC0 0x100],
      ready.arrives 0 m = true) ∧ ready.boot.rstN = false ∧
    (ready.present 0 (stray Op.compAck 0x100)).verdict 0 (stray Op.compAck 0x100) = .pass ∧
    (ready.present 0 { stray Op.compAck 0x100 with rcm := true }).verdict 0 { stray Op.compAck 0x100 with rcm := true } = .discard 1 ∧
    (ready.present 0 (stray 0x1F 0x100)).verdict 0 (stray 0x1F 0x100) = .discard 2 ∧
    (ready.present 0 (mkMsg Op.compAck 1 0x10 0x100 3 1 0 false 0 [0])).verdict 0 (mkMsg Op.compAck 1 0x10 0x100 3 1 0 false 0 [0]) = .discard 3 ∧
    (ready.present 0 (mkMsg Op.compAck 1 0x20 0x100 3 1 0 false 0 [])).verdict 0 (mkMsg Op.compAck 1 0x20 0x100 3 1 0 false 0 []) = .badSource ∧
    (ready.present 0 (stray Op.compAck 0x30)).verdict 0 (stray Op.compAck 0x30) = .forward ∧
    (ready.present 0 (stray Op.compAck 0x40)).verdict 0 (stray Op.compAck 0x40) = .forward ∧
    (ready.present 0 (stray Op.compAck 0x777)).verdict 0 (stray Op.compAck 0x777) = .forward ∧
    (let v := ready.heard 0 (stray Op.compAck 0x30); v.role 0 = .client ∧ v.entryOf 0x30 = some 2 ∧ (v.entry 2).home = false ∧
      v.role (v.entry 2).prim = .peer ∧ v.isSafe = false) ∧
    (let v := ready.heard 0 (stray Op.compAck 0x40); v.role 0 = .client ∧ v.entryOf 0x40 = some 3 ∧ (v.entry 3).home = false ∧
      v.role (v.entry 3).prim = .client) ∧
    (ready.heard 0 (stray Op.compAck 0x777)).entryOf 0x777 = none ∧
    (let s := ready.setFlag F.SAF_STATUS_SAFE true; s.arrives 0 rdA = true ∧ (s.present 0 rdA).verdict 0 rdA = .unavailable) ∧
    (let s := tenState 2; s.arrives 0 rdA = true ∧ (s.present 0 rdA).verdict 0 rdA = .resetting) ∧
    (ready.present 0 lineless).verdict 0 lineless = .unhomed ∧
    (ready.present 0 (stray 0xC0 0x100)).verdict 0 (stray 0xC0 0x100) = .noClass := by
  and_intros <;> decide +kernel

/-! ## Steps and invariants -/

theorem witness_StepRunsFront :
    up.pending = [] ∧ State.reset.pending = [] ∧ State.reset.boot.rstN = true ∧ up.boot.rstN = false ∧ up.tb.slew = 0 ∧ up.trim = 0 := by
  decide +kernel
/-- The premise of ArraysStayCanonical is met by `witness_ArraysWf`, a step being possible from every state. -/
theorem witness_ArraysStayCanonical : ∃ t, step sealed = .next t := ⟨_, rfl⟩
theorem witness_IdentityStays : sealed.idsHold ∧ ∃ t, step sealed = .next t := ⟨by unfold State.idsHold; decide +kernel, _, rfl⟩
/-- A state with SAFE_N deasserted. -/
def deasserted : State := { sealed with safePin := false }
theorem witness_SafePinRuleStays : deasserted.safePin = false ∧ deasserted.pinRule ∧ deasserted.lcLegal ∧ ∃ t, step deasserted = .next t :=
  ⟨rfl, by unfold State.pinRule; decide +kernel, by unfold State.lcLegal SpCanon; decide +kernel, _, rfl⟩
/-- Source 3 holds as many events as it can, and the error log too. -/
def crowded : State :=
  { sealed with sources := [(3, ⟨List.replicate 16 event, 16⟩)], log := List.replicate 256 ⟨0, 0, false, none, 0, 0, none⟩ }
theorem witness_CapacitiesHold :
    crowded.log.length ≤ 256 ∧ crowded.lossLog.length ≤ 1024 ∧ crowded.queuesFit ∧ ∃ t, step crowded = .next t :=
  ⟨by decide +kernel, by decide +kernel, by unfold State.queuesFit; decide +kernel, _, rfl⟩
theorem witness_ResetHolds :
    State.reset.boot.rstN = true ∧ State.reset.due = [] ∧ State.reset.lifecycle = 0 ∧
    (Instr.evgWake ≠ .coldReset ∧ ∀ a b, Instr.evgWake ≠ .rstNDeassert a b) :=
  ⟨by decide +kernel, by decide +kernel, by decide +kernel, by decide, fun _ _ => nofun⟩

/-! ## Terms that the checks of well-formedness refuse -/

theorem illformed_port : (Instr.flitClock 12).wf = false ∧ (Instr.flitClock 11).wf = true := by decide
theorem illformed_flit : (Instr.llIdleRx 0 (flit 1 0 0 [0])).wf = false ∧ (Instr.llIdleRx 0 (flit 1 0 0 (List.replicate 15 0))).wf = true := by
  unfold flit; decide +kernel
theorem illformed_length : (Instr.messageForward 0 { rdA with len := 2 }).wf = false ∧ (Instr.messageForward 0 rdA).wf = true := by decide +kernel
theorem illformed_opcode : (Instr.rdUnique 0 rdA).wf = false ∧ (Instr.rdShared 0 rdA).wf = true := by decide +kernel
theorem illformed_slice : (Instr.sfScrubPass 18 []).wf = false ∧ (Instr.sfScrubPass 17 []).wf = true := by decide
theorem illformed_tracker : (Instr.settleTimeout 0 1024).wf = false ∧ (Instr.settleTimeout 17 1023).wf = true := by decide
theorem illformed_vector : (Instr.interruptResend 1024).wf = false ∧ (Instr.interruptResend 1023).wf = true := by decide
theorem illformed_source : (Instr.eventTaken 512).wf = false ∧ (Instr.eventTaken 511).wf = true := by decide
theorem illformed_channel : (Instr.jigDisarm .umevoM 8).wf = false ∧ (Instr.jigDisarm .umevoM 7).wf = true := by decide
theorem illformed_logical : (Instr.clampIngressRetry 16).wf = false ∧ (Instr.clampIngressRetry 15).wf = true := by decide
theorem illformed_windowSet : (Instr.windowEntryExpiry 0 2048).wf = false ∧ (Instr.windowEntryExpiry 15 2047).wf = true := by decide
theorem illformed_context : (Instr.rangeEngineSet 0 2).wf = false ∧ (Instr.rangeEngineSet 0 1).wf = true := by decide
theorem illformed_combining : (Instr.cwbTimeout 0 32).wf = false ∧ (Instr.cwbTimeout 0 31).wf = true := by decide
theorem illformed_fuses : (Instr.bootFuse ⟨[], [32], []⟩).wf = false ∧ (Instr.bootFuse ⟨[], [], [31]⟩).wf = true := by decide
theorem illformed_parity :
    (Instr.i3cPrivateWrite ⟨false, 0x31, [0x08], some 1⟩).wf = false ∧ (Instr.i3cPrivateWrite ⟨false, 0x31, [0x08], some 0⟩).wf = true := by decide

/-! ## Examples that the spec works out -/

/-- The four addresses of 21 R729. -/
theorem test_registerAddresses :
    F.SLC_HC_ECCCNT_CE.addr 9 0 = 0x02991C ∧ F.TNT_STATUS_STATE.addr 5 0 = 0x040500 ∧ F.EVG_VSTAT_PEND.addr 0 42 = 0x00C2AC ∧
    F.JIG_CH_PARAM_SLOT.addr 0 3 = 0x007168 := by decide
/-- The table of 21 R735: the controller with ID 0x08 writes GLB_SCRATCH0. -/
theorem test_i3cWrite :
    ∃ t, exec (.i3cPrivateWrite ⟨false, 0x31, [0x88, 0x30, 0x00, 0x00, 0x78, 0x56, 0x34, 0x12], none⟩) addressed = .next t ∧
      t.word 0x30 = 0x12345678 ∧ t.boot.ptr3 = 0x34 := ⟨_, rfl, by decide +kernel, by decide +kernel⟩
/-- The same table: GLB_ID read from pointer 0, least significant byte first. -/
theorem test_i3cRead :
    ∃ t, exec (.i3cPrivateRead false 0x31 4) addressed = .next t ∧ t.boot.out3 = some [0x20, 0x16, 0x17, 0xAE] :=
  ⟨_, rfl, by decide +kernel⟩
/-- The worked trace of 03: H, the sets, the sub-block and the memory address of A = 0x0_0203_4A5C_7E40. -/
theorem test_addressTrace :
    State.hash { up with pat := { pat with hashBits := 8, masks := (List.range 8).map (fun i => BitVec.ofNat 52
      ((List.range 6).foldl (fun x b => x + (if 8 + i + 8 * b < 52 then 2 ^ (8 + i + 8 * b) else 0)) 0)) } } 0x002034A5C7E40 = 0x69 ∧
    sfSetOf 0x002034A5C7E40 = 0x7CD8 ∧ hcSetOf 0x002034A5C7E40 = 0x2D5 ∧ hcSubOf 0x002034A5C7E40 = 1 ∧
    memOf ⟨0x0020000000000, 0x0020FFFFFFFFF, 0, 12, [10], 0⟩ 0x002034A5C7E40 = (10, 0x000034A5C7E40) := by decide +kernel
/-- The example of 05: the first bytes of the header of a RdShared, ECHK left out. -/
theorem test_headerBytes :
    headerWith (mkMsg Op.rdShared 5 0x01234 0x00800 0x01A 0 0 true 0 [0x002034A5C7E40]) 0 =
      0x000010000000001A0080001234050101 := by decide +kernel
/-- One step of the LFSR from 0xACE1 (10, the worked trace). -/
theorem test_lfsr : lfsrStep 0xACE1 = 0x59C3 ∧ (lfsrStep 0xACE1).toNat % 3 = 2 := by decide
/-- The worked reading of 02: COUNT 10,300 in a window of 4 µs. -/
theorem test_speedFactor :
    ∃ t, exec (.dmonMeasureEnd 4 10300) (sealed.modSlice 4 (fun c => { c with measuring := true, window := 1 })) = .next t ∧
      t.fget F.SLC_DMON_FACTOR_FACTOR 4 = 0x016E ∧ t.fget F.SLC_DMON_SPEED_COUNT 4 = 10300 := ⟨_, rfl, by decide +kernel, by decide +kernel⟩

end Sys2Proof.Slice0
end

section
/-!
SUPPORT. What a message sent leaves at its port: `sends` along a run of operations of which each keeps the routes and takes nothing
off an egress queue.
-/
namespace Sys2Proof.Machine

/-- From `s` to `u` the routes stay, and no message leaves an egress queue. -/
structure State.Relays (s u : State) : Prop where
  route : ∀ n, u.routeTo n = s.routeTo n
  queued : ∀ d m, m ∈ (s.port d).tx → m ∈ (u.port d).tx

theorem State.Relays.refl (s : State) : s.Relays s := ⟨fun _ => rfl, fun _ _ => id⟩

theorem State.Relays.trans {s t u : State} (h : s.Relays t) (g : t.Relays u) : s.Relays u :=
  ⟨fun n => (g.route n).trans (h.route n), fun d m hm => g.queued d m (h.queued d m hm)⟩

/-- The routes read the node map and its current ports alone (03 R84). -/
theorem State.routeTo_congr {s u : State} (hpat : u.pat = s.pat) (hcur : u.cur = s.cur) (n : Node) : u.routeTo n = s.routeTo n := by
  have hentry : u.entryOf n = s.entryOf n := by simp only [State.entryOf, hpat]
  have hport : u.currentPort = s.currentPort := by unfold State.currentPort State.entry; rw [hpat, hcur]
  rw [State.routeTo, State.routeTo, hentry, hport]

theorem State.Relays.of_same {s u : State} (hpat : u.pat = s.pat) (hcur : u.cur = s.cur) (hports : u.ports = s.ports) : s.Relays u :=
  ⟨State.routeTo_congr hpat hcur, fun d m hm => by simpa only [State.port, hports] using hm⟩

theorem State.sends.relay {s t u : State} {m : Msg} (h : s.sends t m) (g : t.Relays u) : s.sends u m :=
  fun d hd => g.queued d m (h d hd)

theorem State.Relays.sends {s t u : State} {m : Msg} (h : s.Relays t) (g : t.sends u m) : s.sends u m :=
  fun d hd => g d ((h.route _).trans hd)

@[simp] theorem State.send_cur (s : State) (m : Msg) : (s.send m).cur = s.cur :=
  State.send_field (·.cur) (fun _ _ => rfl) (fun _ _ => rfl) (fun _ _ _ _ => rfl) s m

@[simp] theorem State.raise_cur (s : State) (i c : Nat) (t : Option Tenant) : (s.raise i c t).cur = s.cur :=
  State.raise_field (·.cur) (fun _ _ => rfl) (fun _ _ _ _ => rfl) s i c t

theorem State.port_sendOn (s : State) (p d : Nat) (m : Msg) :
    (s.sendOn p m).port d = if p = d then { s.port p with tx := (s.port p).tx ++ [m] } else s.port d := by
  rw [State.sendOn, State.modPort, State.port_setPort]

theorem State.relays_send (s : State) (m : Msg) : s.Relays (s.send m) := by
  refine ⟨State.routeTo_congr (s.send_pat m) (s.send_cur m), fun d x hx => ?_⟩
  unfold State.send
  split
  · next p _ =>
    rw [State.port_sendOn]
    split
    · next h => subst h; exact List.mem_append_left _ hx
    · exact hx
  · simpa using hx

theorem State.sends_send (s : State) (m : Msg) : s.sends (s.send m) m := by
  intro d hd
  simp [State.send, hd, State.port_sendOn]

/-- Steps over a list of which each relays and sends its own message. -/
theorem State.foldl_sends {α : Type} {f : State → α → State} {msg : α → Msg} (hrelay : ∀ (s : State) a, s.Relays (f s a))
    (hsend : ∀ (s : State) a, s.sends (f s a) (msg a)) (xs : List α) (s : State) :
    s.Relays (xs.foldl f s) ∧ ∀ a ∈ xs, s.sends (xs.foldl f s) (msg a) := by
  induction xs generalizing s with
  | nil => exact ⟨.refl s, fun _ h => absurd h List.not_mem_nil⟩
  | cons x xs ih =>
    obtain ⟨htail, hmsgs⟩ := ih (f s x)
    refine ⟨(hrelay s x).trans htail, fun a ha => ?_⟩
    rcases List.mem_cons.mp ha with rfl | ha
    · exact (hsend s a).relay htail
    · exact (hrelay s x).sends (hmsgs a ha)

end Sys2Proof.Machine
end

section
/-!
SUPPORT. The operations on a Clamp bank, one rule each: what an entry reads as after a write, and what a response, a grant and a break
of waiters send and leave alone (11 R430 to R444).
-/
namespace Sys2Proof.Machine

/-! ## Banks and entries -/

@[simp] theorem State.bank_modBank_same (s : State) (l : Nat) (f : Bank → Bank) : (s.modBank l f).bank l = f (s.bank l) := by
  simp [State.bank, State.modBank, spGet_spSet]

@[simp] theorem State.ent_setEnt_same (s : State) (l i : Nat) (e : ClampEnt) : (s.setEnt l i e).ent l i = e := by
  simp [State.ent, State.setEnt, spGet_spSet]

theorem State.bank_congr {s u : State} (h : u.banks = s.banks) (l : Nat) : u.bank l = s.bank l := by
  rw [State.bank, State.bank, h]

theorem State.ent_congr {s u : State} (h : u.banks = s.banks) (l i : Nat) : u.ent l i = s.ent l i := by
  rw [State.ent, State.ent, State.bank_congr h]

theorem State.relays_setEnt (s : State) (l i : Nat) (e : ClampEnt) : s.Relays (s.setEnt l i e) := .of_same rfl rfl rfl

theorem State.relays_fset (s : State) (f : Fld) (v n m : Nat) : s.Relays (s.fset f v n m) := .of_same rfl rfl rfl

theorem State.relays_bump (s : State) (f : Fld) (n m : Nat) : s.Relays (s.bump f n m) := s.relays_fset _ _ _ _

theorem State.relays_notOwner (s : State) (l : Nat) (e : ClampEnt) : s.Relays (s.notOwner l e) :=
  .of_same (by simp [State.notOwner]) (by simp [State.notOwner]) (by simp [State.notOwner])

@[simp] theorem State.notOwner_banks (s : State) (l : Nat) (e : ClampEnt) : (s.notOwner l e).banks = s.banks := by
  simp [State.notOwner]

/-! ## Responses -/

theorem State.relays_winDone (s : State) (l : Nat) (m r : Msg) : s.Relays (s.winDone l m r) := .of_same rfl rfl rfl

@[simp] theorem State.winDone_banks (s : State) (l : Nat) (m r : Msg) : (s.winDone l m r).banks = s.banks := rfl

@[simp] theorem State.clampSend_banks (s : State) (l : Nat) (m : Msg) (op : BitVec 8) (c : Slot) :
    (s.clampSend l m op c).banks = s.banks := s.send_banks _

@[simp] theorem State.clampSend_bank (s : State) (l : Nat) (m : Msg) (op : BitVec 8) (c : Slot) (z : Nat) :
    (s.clampSend l m op c).bank z = s.bank z := State.bank_congr (s.clampSend_banks l m op c) z

@[simp] theorem State.clampSend_ent (s : State) (l : Nat) (m : Msg) (op : BitVec 8) (c : Slot) (z i : Nat) :
    (s.clampSend l m op c).ent z i = s.ent z i := State.ent_congr (s.clampSend_banks l m op c) z i

theorem State.relays_clampSend (s : State) (l : Nat) (m : Msg) (op : BitVec 8) (c : Slot) : s.Relays (s.clampSend l m op c) :=
  (s.relays_send _).trans (State.relays_winDone _ _ _ _)

theorem State.sends_clampSend (s : State) (l : Nat) (m : Msg) (op : BitVec 8) (c : Slot) :
    s.sends (s.clampSend l m op c) (respTo m op 0 false 0 [c]) :=
  (s.sends_send _).relay (State.relays_winDone _ _ _ _)

@[simp] theorem State.clampRsp_banks (s : State) (l : Nat) (m : Msg) (op : BitVec 8) (code : Nat) :
    (s.clampRsp l m op code).banks = s.banks := s.clampSend_banks _ _ _ _

@[simp] theorem State.clampRsp_ent (s : State) (l : Nat) (m : Msg) (op : BitVec 8) (code : Nat) (z i : Nat) :
    (s.clampRsp l m op code).ent z i = s.ent z i := s.clampSend_ent _ _ _ _ _ _

theorem State.relays_clampRsp (s : State) (l : Nat) (m : Msg) (op : BitVec 8) (code : Nat) : s.Relays (s.clampRsp l m op code) :=
  s.relays_clampSend _ _ _ _

theorem State.sends_clampRsp (s : State) (l : Nat) (m : Msg) (op : BitVec 8) (code : Nat) :
    s.sends (s.clampRsp l m op code) (respTo m op 0 false 0 [clampSlot (clHandle m) false 0 code]) :=
  s.sends_clampSend _ _ _ _

/-- A response does not enter the safe state. -/
@[simp] theorem State.clampRsp_isSafe (s : State) (l : Nat) (m : Msg) (op : BitVec 8) (code : Nat) :
    (s.clampRsp l m op code).isSafe = s.isSafe := by
  have h : (s.clampRsp l m op code).fget F.SAF_STATUS_SAFE = s.fget F.SAF_STATUS_SAFE :=
    s.send_fget _ F.SAF_STATUS_SAFE 0 0 (by decide) (by decide)
  simp only [State.isSafe, State.flag, h]

/-! ## Grants and broken waiters -/

/-- The records of an entry when record `r` has been granted. -/
def grantedRecs (r : ClampRec) (rs : List ClampRec) : List ClampRec := rs.map (fun x => if x = r then { x with role := .holder } else x)

@[simp] theorem grantedRecs_singleton (r : ClampRec) : grantedRecs r [r] = [{ r with role := .holder }] := by simp [grantedRecs]

theorem State.grant_recs (s : State) (l i : Nat) (r : ClampRec) :
    ((s.grant l i r).ent l i).recs = grantedRecs r (s.ent l i).recs := by
  have h : (s.grant l i r).banks = (s.setEnt l i { s.ent l i with recs := grantedRecs r (s.ent l i).recs }).banks := by
    simp only [State.grant, State.clampSend_banks, State.fset_banks, State.wrapInc_banks, grantedRecs]
  rw [State.ent_congr h, State.ent_setEnt_same]

theorem State.relays_grant (s : State) (l i : Nat) (r : ClampRec) : s.Relays (s.grant l i r) :=
  (((s.relays_setEnt l i _).trans (State.relays_fset _ _ _ _ _)).trans (State.relays_fset _ _ _ _ _)).trans
    (State.relays_clampSend _ _ _ _ _)

theorem State.sends_grant (s : State) (l i : Nat) (r : ClampRec) :
    s.sends (s.grant l i r) (respTo r.m Op.lockGrant 0 false 0 [clampSlot (clHandle r.m) r.shared 0 0]) :=
  (((s.relays_setEnt l i _).trans (State.relays_fset _ _ _ _ _)).trans (State.relays_fset _ _ _ _ _)).sends
    (State.sends_clampSend _ _ _ _ _)

/-- An entry with one waiter and nobody else: the waiter is granted (R441). -/
theorem State.regrant_waiter {s : State} {l i : Nat} {r : ClampRec} (hrecs : (s.ent l i).recs = [r]) (hr : r.role = .waiter)
    (hsafe : s.isSafe = false) : s.regrant l i = s.grant l i r := by
  simp [State.regrant, State.grantAll, State.firstWaiter, hrecs, hr, hsafe]

@[simp] theorem State.breakWaiters_banks (s : State) (l : Nat) (rs : List ClampRec) (code : Nat) :
    (s.breakWaiters l rs code).banks = s.banks := by
  have h : ∀ (s : State) (r : ClampRec), (s.clampRsp l r.m Op.lockBroken code).banks = s.banks := fun s r => by simp
  exact State.foldl_field State.banks h _ s

/-- Breaking the waiters of an entry takes no message back, and answers each of them LockBroken. -/
theorem State.breakWaiters_sends (s : State) (l : Nat) (rs : List ClampRec) (code : Nat) :
    s.Relays (s.breakWaiters l rs code) ∧ ∀ r ∈ rs, r.role = .waiter →
      s.sends (s.breakWaiters l rs code) (respTo r.m Op.lockBroken 0 false 0 [clampSlot (clHandle r.m) false 0 code]) := by
  have hrelay : ∀ (s : State) (r : ClampRec), s.Relays (s.clampRsp l r.m Op.lockBroken code) := fun s r =>
    s.relays_clampRsp l r.m Op.lockBroken code
  have hsend : ∀ (s : State) (r : ClampRec), s.sends (s.clampRsp l r.m Op.lockBroken code)
      (respTo r.m Op.lockBroken 0 false 0 [clampSlot (clHandle r.m) false 0 code]) := fun s r =>
    s.sends_clampRsp l r.m Op.lockBroken code
  obtain ⟨hall, hmsgs⟩ := State.foldl_sends hrelay hsend (rs.filter (fun r => r.role == .waiter)) s
  exact ⟨hall, fun r hr hw => hmsgs r (List.mem_filter.mpr ⟨hr, by simp [hw]⟩)⟩

end Sys2Proof.Machine
end

section
/-!
SUPPORT. What each Clamp request comes to at its bank, one equation per case that it can meet (11 R437 to R446).
-/
namespace Sys2Proof.Machine

/-- The first number that satisfies `p`, when it is one of those looked at. -/
theorem firstFrom_eq_some {p : Nat → Bool} {n i r : Nat} (hlow : i ≤ r) (hhigh : r < i + n) (hp : p r = true)
    (hbefore : ∀ j, i ≤ j → j < r → p j = false) : firstFrom p i n = some r := by
  induction n generalizing i with
  | zero => omega
  | succ n ih =>
    rw [firstFrom]
    by_cases h : i = r
    · rw [h, if_pos hp]
    · rw [if_neg (by simp [hbefore i (Nat.le_refl i) (by omega)])]
      exact ih (by omega) (by omega) (fun j hj => hbefore j (by omega))

/-- The record that a LockAcq without a priority note makes on its arrival at the bank (R441). -/
def State.acqRec (s : State) (m : Msg) : ClampRec :=
  { m := m, role := .waiter, shared := slotField m 1 70 1 == 1, prio := (slotField m 1 71 3).toNat, stamp := s.now, note := none }

/-- The entry that a ClampAlloc of a lock takes. -/
def ClampEnt.lockedFor (e : ClampEnt) (m : Msg) : ClampEnt :=
  { e with st := .lock, ten := m.ten, src := m.src, target := (slotField m 1 38 20).toNat, res := 0 }

section
variable {s : State} {l i : Nat} {m : Msg} {e : ClampEnt}

/-- A ClampAlloc of a lock takes the lowest FREE entry (R437). -/
theorem State.clampAlloc_free (he : s.ent l i = e) (hkind : clKind m = 0) (hlow : ∀ j, j < i → (s.ent l j).st ≠ .free)
    (hi : i < 4096) (hfree : e.st = .free) (hhost : (s.lsl l).hosted = false)
    (hquota : (s.bank l).held m.ten < (s.ten m.ten).clampQuota) (hres : (s.bank l).reserved ≤ 4096)
    (huses : (s.bank l).uses ≤ 8192) :
    s.clampAlloc l m = (s.setEnt l i (e.lockedFor m)).clampSend l m Op.clampComp (clampSlot (mkHandle l i e.gen) false 0 0) := by
  have hfirst : firstFrom (fun i => (s.ent l i).st == .free) 0 4096 = some i :=
    firstFrom_eq_some (Nat.zero_le i) (by omega) (by simp [he, hfree]) (fun j _ hj => by simpa using hlow j hj)
  simp [State.clampAlloc, hfirst, hkind, hhost, Nat.not_le.mpr hquota, Nat.not_lt.mpr hres, Nat.not_lt.mpr huses, he,
    ClampEnt.lockedFor]

/-- A ClampAlloc of a tenant at its quota is answered ClampFull, whatever entry is FREE (R437). -/
theorem State.clampAlloc_full (hquota : (s.ten m.ten).clampQuota ≤ (s.bank l).held m.ten) :
    s.clampAlloc l m = (s.bump F.SLC_CLAMP_BRKCNT_FULL (s.physOf l)).clampSend l m Op.clampFull (clampSlot 0 false 0 0) := by
  simp only [State.clampAlloc, hquota, decide_true, Bool.or_true, Bool.true_or, if_true]
  split <;> rfl

/-- A LockAcq for a free lock is granted at once (R441). -/
theorem State.lockAcq_free (he : s.ent l (handleIdx m) = e) (hst : e.st = .lock) (hrecs : e.recs = [])
    (huses : (s.bank l).uses < 8192) (hmine : (s.bank l).lockRecs m.ten < 4096) :
    s.lockAcq l m =
      (true, (s.setEnt l (handleIdx m) { e with recs := [s.acqRec m] }).grant l (handleIdx m) (s.acqRec m)) := by
  simp [State.lockAcq, he, hst, hrecs, Nat.not_le.mpr huses, Nat.not_le.mpr hmine, State.acqRec]

/-- A LockAcq for a lock that another node holds alone waits (R441). -/
theorem State.lockAcq_held {h : ClampRec} (he : s.ent l (handleIdx m) = e) (hst : e.st = .lock) (hrecs : e.recs = [h])
    (hrole : h.role = .holder) (halone : h.shared = false) (hother : h.m.src ≠ m.src ∨ h.m.ten ≠ m.ten)
    (huses : (s.bank l).uses < 8192) (hmine : (s.bank l).lockRecs m.ten < 4096) :
    s.lockAcq l m = (true, s.setEnt l (handleIdx m) { e with recs := [h, s.acqRec m] }) := by
  have hnot : (h.m.src == m.src && h.m.ten == m.ten) = false := by simpa [Classical.or_iff_not_imp_left] using hother
  simp [State.lockAcq, he, hst, hrecs, hrole, halone, hnot, Nat.not_le.mpr huses, Nat.not_le.mpr hmine, State.acqRec]

/-- A LockAcq of a node that holds the lock or waits for it is answered ReqError (R442). -/
theorem State.lockAcq_again {r : ClampRec} (he : s.ent l (handleIdx m) = e) (hst : e.st = .lock) (hr : r ∈ e.recs)
    (hsrc : r.m.src = m.src) (hten : r.m.ten = m.ten) (hrole : r.role = .holder ∨ r.role = .waiter) :
    s.lockAcq l m = (true, (s.send (respTo m Op.reqError 1 false 0 [])).winDone l m (respTo m Op.reqError 1 false 0 [])) := by
  have hnote : r.role ≠ .note := by rcases hrole with h | h <;> simp [h]
  have hany : e.recs.any (fun r => r.m.src == m.src && r.m.ten == m.ten && r.role != .note) = true :=
    List.any_eq_true.mpr ⟨r, hr, by simp [hsrc, hten, hnote]⟩
  simp only [State.lockAcq, he, hst, hany, reduceCtorEq, if_true, if_false]

/-- A LockRel of the holder, with one waiter behind it: the record of the holder goes and the waiter is granted (R441, R444). -/
theorem State.lockRel_holder {h r : ClampRec} (he : s.ent l (handleIdx m) = e) (hst : e.st = .lock) (hrecs : e.recs = [h, r])
    (hrole : h.role = .holder) (hsrc : h.m.src = m.src) (hten : h.m.ten = m.ten) (hnote : h.note = none) (hr : r.role = .waiter)
    (hsafe : s.isSafe = false) :
    s.lockRel l m = ((s.setEnt l (handleIdx m) { e with recs := [r] }).clampRsp l m Op.clampComp 0).grant l (handleIdx m) r := by
  have hfind : e.recs.find? (fun r => r.role == .holder && r.m.src == m.src && r.m.ten == m.ten) = some h := by
    simp [hrecs, hrole, hsrc, hten]
  have herase : e.recs.erase h = [r] := by simp [hrecs]
  have hwaits : (((s.setEnt l (handleIdx m) { e with recs := [r] }).clampRsp l m Op.clampComp 0).ent l (handleIdx m)).recs = [r] := by
    rw [State.ent_congr (State.clampRsp_banks _ _ _ _ _), State.ent_setEnt_same]
  simp only [State.lockRel, he]
  rw [if_neg (by simp [hst]), hfind]
  simp only [hnote, herase]
  exact State.regrant_waiter hwaits hr ((State.clampRsp_isSafe _ _ _ _ _).trans hsafe)

/-- A LockRel of a lock that nobody holds is answered NotOwner (R444). -/
theorem State.lockRel_nobody (he : s.ent l (handleIdx m) = e) (hst : e.st = .lock) (hrecs : e.recs = []) :
    s.lockRel l m = (s.notOwner l e).clampRsp l m Op.notOwner 0 := by
  simp [State.lockRel, he, hst, hrecs]

/-- A ClampFree of the owner breaks the waiters and frees the entry (R439). -/
theorem State.clampFreeReq_owner (he : s.ent l (handleIdx m) = e) (hten : m.ten = e.ten) (hsrc : m.src = e.src) :
    s.clampFreeReq l m = ((s.breakWaiters l e.recs 2).freeEnt l (handleIdx m)).clampRsp l m Op.clampComp 0 := by
  simp [State.clampFreeReq, he, hten, hsrc]

/-- A ClampSetPrio of the node whose request alone waits moves it (R446). -/
theorem State.clampSetPrio_waiter {r : ClampRec} (he : s.ent l (handleIdx m) = e) (hst : e.st = .lock) (hrecs : e.recs = [r])
    (hrole : r.role = .waiter) (hsrc : r.m.src = m.src) (hten : r.m.ten = m.ten) (htag : r.m.tag = slotField m 1 74 12) :
    s.clampSetPrio l m = (s.setEnt l (handleIdx m) { e with recs := [{ r with prio := (slotField m 1 71 3).toNat }] }).clampRsp l m
      Op.clampComp 1 := by
  simp [State.clampSetPrio, he, hst, hrecs, hrole, hsrc, hten, htag]

/-- A handle that names a lock of the requester's own tenant passes the checks of R436. -/
theorem State.clampCheck_lock (hst : e.st = .lock) (hgen : e.gen = handleGen m) (hten : m.ten = e.ten)
    (hop : m.op ≠ Op.barrierArrive) : s.clampCheck l m e = none := by
  have hnat : m.op.toNat ≠ 0x1D := fun h => hop (BitVec.eq_of_toNat_eq h)
  simp only [State.clampCheck, hst, hgen, hten]
  split
  · simp
  · simp
  · next h => exact absurd h hnat
  · simp

end

end Sys2Proof.Machine
end

section
/-!
SUPPORT. The way of a Clamp request from its port to the bank: nothing holds it back, the window takes it as new, its handle passes the
checks (11 R434 to R436).
-/
namespace Sys2Proof.Machine

/-! ## From the port to the bank -/

/-- The state in which a request that the window takes as new reaches the bank of logical slice `l`: its window entry is made. -/
def State.atBank (s : State) (l : Nat) (m : Msg) : State := (s.noteCalm (s.physOf l) m).winOpen l m

theorem State.winOpen_field {α : Type} (get : State → α) (hwins : ∀ (s : State) x, get { s with wins := x } = get s)
    (s : State) (l : Nat) (m : Msg) : get (s.winOpen l m) = get s := by
  unfold State.winOpen
  dsimp only
  repeat' split
  · exact hwins _ _
  · exact hwins _ _
  · exact hwins _ _
  · rfl

theorem State.atBank_field {α : Type} (get : State → α) (hwins : ∀ (s : State) x, get { s with wins := x } = get s)
    (hslices : ∀ (s : State) x, get { s with slices := x } = get s) (s : State) (l : Nat) (m : Msg) :
    get (s.atBank l m) = get s :=
  (State.winOpen_field get hwins _ l m).trans (hslices _ _)

@[simp] theorem State.atBank_now (s : State) (l : Nat) (m : Msg) : (s.atBank l m).now = s.now :=
  State.atBank_field (·.now) (fun _ _ => rfl) (fun _ _ => rfl) s l m
@[simp] theorem State.atBank_jig (s : State) (l : Nat) (m : Msg) : (s.atBank l m).jig = s.jig :=
  State.atBank_field (·.jig) (fun _ _ => rfl) (fun _ _ => rfl) s l m
@[simp] theorem State.atBank_lsl (s : State) (l : Nat) (m : Msg) (z : Nat) : (s.atBank l m).lsl z = s.lsl z :=
  State.atBank_field (·.lsl z) (fun _ _ => rfl) (fun _ _ => rfl) s l m
@[simp] theorem State.atBank_ten (s : State) (l : Nat) (m : Msg) (t : Tenant) : (s.atBank l m).ten t = s.ten t :=
  State.atBank_field (·.ten t) (fun _ _ => rfl) (fun _ _ => rfl) s l m
@[simp] theorem State.atBank_port (s : State) (l : Nat) (m : Msg) (p : Nat) : (s.atBank l m).port p = s.port p :=
  State.atBank_field (·.port p) (fun _ _ => rfl) (fun _ _ => rfl) s l m
@[simp] theorem State.atBank_isSafe (s : State) (l : Nat) (m : Msg) : (s.atBank l m).isSafe = s.isSafe :=
  State.atBank_field State.isSafe (fun _ _ => rfl) (fun _ _ => rfl) s l m
@[simp] theorem State.atBank_bank (s : State) (l : Nat) (m : Msg) (z : Nat) : (s.atBank l m).bank z = s.bank z :=
  State.atBank_field (·.bank z) (fun _ _ => rfl) (fun _ _ => rfl) s l m
@[simp] theorem State.atBank_ent (s : State) (l : Nat) (m : Msg) (z i : Nat) : (s.atBank l m).ent z i = s.ent z i :=
  State.atBank_field (·.ent z i) (fun _ _ => rfl) (fun _ _ => rfl) s l m

theorem State.relays_atBank (s : State) (l : Nat) (m : Msg) : s.Relays (s.atBank l m) :=
  .of_same (State.atBank_field (·.pat) (fun _ _ => rfl) (fun _ _ => rfl) s l m)
    (State.atBank_field (·.cur) (fun _ _ => rfl) (fun _ _ => rfl) s l m)
    (State.atBank_field (·.ports) (fun _ _ => rfl) (fun _ _ => rfl) s l m)

/-- A Clamp request touches no line of a combining buffer (08 R313). -/
theorem State.touchFlush_clamp {m : Msg} (hop : isClamp m.op = true) (s : State) (p : Nat) : s.touchFlush p m = s := by
  have hlines : linesOf m = [] := by
    simp only [isClamp, Bool.and_eq_true, decide_eq_true_eq] at hop
    rw [linesOf, if_neg (by omega), if_neg (by omega)]
  simp [State.touchFlush, hlines]

theorem isClamp_cases {op : BitVec 8} (h : isClamp op = true) :
    op = Op.clampAlloc ∨ op = Op.clampFree ∨ op = Op.lockAcq ∨ op = Op.lockRel ∨ op = Op.barrierArrive ∨ op = Op.clampSetPrio := by
  simp only [isClamp, Bool.and_eq_true, decide_eq_true_eq] at h
  simp only [BitVec.toNat_eq, Op.clampAlloc, Op.clampFree, Op.lockAcq, Op.lockRel, Op.barrierArrive, Op.clampSetPrio,
    BitVec.reduceToNat]
  omega

/-- A ClampAlloc belongs to the logical slice that LSLICE names (R434). -/
theorem State.reqPlace_alloc {m : Msg} (hop : m.op = Op.clampAlloc) (s : State) : s.reqPlace m = .inr (clLslice m) := by
  simp [State.reqPlace, hop, Op.clampAlloc]

/-- Another Clamp request belongs to the logical slice that HANDLE names (R434). -/
theorem State.reqPlace_handle {m : Msg} (hop : isClamp m.op = true) (hne : m.op ≠ Op.clampAlloc) (s : State) :
    s.reqPlace m = .inr (handleSlice m) := by
  rcases isClamp_cases hop with h | h | h | h | h | h
  · exact absurd h hne
  all_goals
    rw [State.reqPlace, h]
    rfl

/-- A Clamp request reaches the bank of logical slice `l`: it belongs there, the window takes it as new, and the slice that serves `l`
is awake and holds nothing back. -/
structure State.ReachesBank (s : State) (l : Nat) (m : Msg) : Prop where
  clamp : isClamp m.op = true
  place : s.reqPlace m = .inr l
  homed : m.op = Op.clampAlloc ∨ handleSlice m < s.pat.nActive
  fresh : s.winAsk l m = .go false
  unheld : (s.lsl l).clampHold = false
  awake : (s.slice (s.physOf l)).pwr = .active

section
variable {s : State} {l : Nat} {m : Msg}

theorem State.noteCalm_pwr (s : State) (k : Nat) (m : Msg) : ((s.noteCalm k m).slice k).pwr = (s.slice k).pwr := by
  simp [State.noteCalm]

theorem State.wakeSlice_active {k : Nat} (h : (s.slice k).pwr = .active) : s.wakeSlice k = s := by
  simp [State.wakeSlice, h]

/-- A Clamp request that arrives acts with what `reqRun` makes of it. -/
theorem State.ReachesBank.reqGo (h : s.ReachesBank l m) (p : Nat) (c : Scope) :
    s.reqGo (Txn.new .client m p c) =
      (if ((s.noteCalm (s.physOf l) m).reqRun (s.physOf l) l (Txn.new .client m p c)).1 then .done else .stall,
        ((s.noteCalm (s.physOf l) m).reqRun (s.physOf l) l (Txn.new .client m p c)).2) := by
  obtain ⟨hclamp, hplace, hhomed, hfresh, hheld, hawake⟩ := h
  have hslice : s.reqSlice m = l := by simp [State.reqSlice, hplace]
  have hreq : s.reqHeld m = false := by simp [State.reqHeld, hclamp, hslice, hheld]
  have hup : s.awake (s.physOf l) = true := by simp [State.awake, hawake]
  have hwin : (s.noteCalm (s.physOf l) m).winSlice m = l := by
    have : (s.noteCalm (s.physOf l) m).reqPlace m = .inr l := hplace
    simp [State.winSlice, this]
  have hask : (s.noteCalm (s.physOf l) m).winAsk l m = .go false := hfresh
  have hm : (Txn.new .client m p c).m = m := rfl
  simp only [State.reqGo, hm, State.touchFlush_clamp hclamp, hslice, hreq, hup, hwin, hask, Bool.not_true, Bool.and_false,
    Bool.false_eq_true, if_false]
  split <;> rfl

/-- A Clamp request that arrives and is not put off is what `reqRun` makes of it. -/
theorem State.ReachesBank.request_of_run (h : s.ReachesBank l m) {p : Nat} {u : State}
    (hrun : (s.noteCalm (s.physOf l) m).reqRun (s.physOf l) l (Txn.new .client m p (.line (lineAddr (msgAddr m)))) = (true, u)) :
    s.request p m = u := by
  have hslice : s.reqSlice m = l := by simp [State.reqSlice, h.place]
  have hhome : (isClamp m.op && m.op != Op.clampAlloc && decide (s.pat.nActive ≤ handleSlice m)) = false := by
    rcases h.homed with ha | ha <;> simp [ha]
  simp only [State.request, hslice, h.reqGo, hrun]
  rw [hhome]
  simp [h.clamp]

/-- A request other than LockAcq that arrives is answered by the bank. -/
theorem State.ReachesBank.request (h : s.ReachesBank l m) (hop : m.op ≠ Op.lockAcq) (p : Nat) :
    s.request p m = ((s.atBank l m).clampAt l m).2 := by
  refine h.request_of_run ?_
  have hwake := State.wakeSlice_active ((s.noteCalm_pwr (s.physOf l) m).trans h.awake)
  have hm : (Txn.new .client m p (.line (lineAddr (msgAddr m)))).m = m := rfl
  rcases isClamp_cases h.clamp with ho | ho | ho | ho | ho | ho
  case inr.inr.inl => exact absurd ho hop
  all_goals
    simp only [State.reqRun, hm, hwake, ho]
    rfl

/-- A LockAcq that arrives while no other waits for a record, and finds one, is answered by the bank. -/
theorem State.ReachesBank.request_lockAcq (h : s.ReachesBank l m) (hop : m.op = Op.lockAcq) (hqueue : (s.bank l).queue = []) {u : State}
    (hbank : (s.atBank l m).clampAt l m = (true, u)) (p : Nat) : s.request p m = u := by
  refine h.request_of_run ?_
  have hwake := State.wakeSlice_active ((s.noteCalm_pwr (s.physOf l) m).trans h.awake)
  have hm : (Txn.new .client m p (.line (lineAddr (msgAddr m)))).m = m := rfl
  have hempty : ((s.atBank l m).bank l).queue = [] := by rw [State.atBank_bank, hqueue]
  rw [State.atBank] at hbank hempty
  simp only [State.reqRun, hm, hwake, hop]
  simp [Op.lockAcq, hempty, hbank]

/-! ## At the bank -/

/-- The handle of a request names a lock of the requester's own tenant in a bank that its slice serves, and no Jig channel is armed. -/
structure State.NamesLock (s : State) (l : Nat) (m : Msg) (e : ClampEnt) : Prop where
  ent : s.ent l (handleIdx m) = e
  lock : e.st = .lock
  gen : e.gen = handleGen m
  ten : m.ten = e.ten
  unhosted : (s.lsl l).hosted = false
  unarmed : s.jig = []

theorem State.clampRead_unarmed (h : s.jig = []) (i : Nat) : s.clampRead l i = s := by
  simp [State.clampRead, State.jigRead, h]

variable {e : ClampEnt}

theorem State.clampAt_alloc (hop : m.op = Op.clampAlloc) : s.clampAt l m = (true, s.clampAlloc l m) := by
  simp [State.clampAt, hop]

/-- A request whose handle names a lock of its own tenant acts by its opcode. -/
theorem State.NamesLock.clampAt (h : s.NamesLock l m e) :
    (m.op = Op.clampFree → s.clampAt l m = (true, s.clampFreeReq l m)) ∧
    (m.op = Op.lockAcq → s.clampAt l m = s.lockAcq l m) ∧
    (m.op = Op.lockRel → s.clampAt l m = (true, s.lockRel l m)) ∧
    (m.op = Op.clampSetPrio → s.clampAt l m = (true, s.clampSetPrio l m)) := by
  obtain ⟨hent, hst, hgen, hten, hhost, hjig⟩ := h
  refine ⟨?_, ?_, ?_, ?_⟩
  all_goals
    intro hop
    have hcheck := State.clampCheck_lock (s := s) (l := l) hst hgen hten (by rw [hop]; decide)
    have halloc : m.op ≠ Op.clampAlloc := by rw [hop]; decide
    simp only [State.clampAt, if_neg halloc, State.clampRead_unarmed hjig, hhost, hent, hcheck, Bool.false_eq_true, if_false]
    rw [hop]
    rfl

/-- The way to the bank leaves what a handle names. -/
theorem State.NamesLock.atBank (h : s.NamesLock l m e) : (s.atBank l m).NamesLock l m e :=
  ⟨by rw [State.atBank_ent, h.ent], h.lock, h.gen, h.ten, by rw [State.atBank_lsl, h.unhosted], by rw [State.atBank_jig, h.unarmed]⟩

end
end Sys2Proof.Machine
end

section
/-!
SUPPORT. What each Clamp request of O29 leaves in its entry and sends, from its way to the bank and its equation there (11 R437 to R446).
-/
namespace Sys2Proof.Machine

section
variable {s : State} {l i : Nat} {m : Msg} {e : ClampEnt}

/-! ## Allocation -/

/-- A ClampAlloc takes the lowest FREE entry and is answered ClampComp with the handle of that entry. -/
theorem State.ReachesBank.alloc_takes (ha : s.ReachesBank l m) (hop : m.op = Op.clampAlloc) (he : s.ent l i = e)
    (hkind : clKind m = 0) (hlow : ∀ j, j < i → (s.ent l j).st ≠ .free) (hi : i < 4096) (hfree : e.st = .free)
    (hhost : (s.lsl l).hosted = false)
    (hquota : (s.bank l).held m.ten < (s.ten m.ten).clampQuota) (hres : (s.bank l).reserved ≤ 4096)
    (huses : (s.bank l).uses ≤ 8192) (p : Nat) :
    (s.request p m).ent l i = e.lockedFor m ∧
      s.sends (s.request p m) (respTo m Op.clampComp 0 false 0 [clampSlot (mkHandle l i e.gen) false 0 0]) := by
  have heq := State.clampAlloc_free (s := s.atBank l m) (l := l) (i := i) (m := m) (e := e) (by simpa using he) hkind
    (by simpa using hlow) hi hfree (by simpa using hhost) (by simpa using hquota) (by simpa using hres) (by simpa using huses)
  rw [ha.request (by rw [hop]; decide), State.clampAt_alloc hop, heq]
  exact ⟨by simp, (s.relays_atBank l m).sends ((State.relays_setEnt _ _ _ _).sends (State.sends_clampSend _ _ _ _ _))⟩

/-- A ClampAlloc of a tenant at its quota changes nothing in the bank and is answered ClampFull. -/
theorem State.ReachesBank.alloc_full (ha : s.ReachesBank l m) (hop : m.op = Op.clampAlloc)
    (hquota : (s.ten m.ten).clampQuota ≤ (s.bank l).held m.ten) (p : Nat) :
    (s.request p m).bank l = s.bank l ∧ s.sends (s.request p m) (respTo m Op.clampFull 0 false 0 [clampSlot 0 false 0 0]) := by
  have heq := State.clampAlloc_full (s := s.atBank l m) (l := l) (m := m) (by simpa using hquota)
  rw [ha.request (by rw [hop]; decide), State.clampAt_alloc hop, heq]
  refine ⟨?_, (s.relays_atBank l m).sends ((State.relays_bump _ _ _ _).sends (State.sends_clampSend _ _ _ _ _))⟩
  rw [State.clampSend_bank, State.bank_congr (State.bump_banks _ _ _ _), State.atBank_bank]

/-! ## LockAcq -/

/-- A LockAcq for a free lock makes its record the holder's and is answered LockGrant. -/
theorem State.NamesLock.acq_free (hn : s.NamesLock l m e) (ha : s.ReachesBank l m) (hop : m.op = Op.lockAcq)
    (hqueue : (s.bank l).queue = []) (hrecs : e.recs = []) (huses : (s.bank l).uses < 8192) (hmine : (s.bank l).lockRecs m.ten < 4096)
    (p : Nat) :
    ((s.request p m).ent l (handleIdx m)).recs = [{ s.acqRec m with role := .holder }] ∧
      s.sends (s.request p m) (respTo m Op.lockGrant 0 false 0 [clampSlot (clHandle m) (slotField m 1 70 1 == 1) 0 0]) := by
  obtain ⟨-, hacq, -, -⟩ := hn.atBank.clampAt
  have hbank := (hacq hop).trans
    (State.lockAcq_free hn.atBank.ent hn.lock hrecs (by simpa using huses) (by simpa using hmine))
  rw [ha.request_lockAcq hop hqueue hbank, State.grant_recs, State.ent_setEnt_same, grantedRecs_singleton]
  exact ⟨by simp [State.acqRec], (s.relays_atBank l m).sends ((State.relays_setEnt _ _ _ _).sends (State.sends_grant _ _ _ _))⟩

/-- A LockAcq for a lock that another holds alone waits behind it, and nothing is sent. -/
theorem State.NamesLock.acq_held {h : ClampRec} (hn : s.NamesLock l m e) (ha : s.ReachesBank l m) (hop : m.op = Op.lockAcq)
    (hqueue : (s.bank l).queue = []) (hrecs : e.recs = [h]) (hrole : h.role = .holder) (halone : h.shared = false)
    (hother : h.m.src ≠ m.src ∨ h.m.ten ≠ m.ten) (huses : (s.bank l).uses < 8192) (hmine : (s.bank l).lockRecs m.ten < 4096)
    (p : Nat) :
    ((s.request p m).ent l (handleIdx m)).recs = [h, s.acqRec m] ∧ ∀ q, (s.request p m).port q = s.port q := by
  obtain ⟨-, hacq, -, -⟩ := hn.atBank.clampAt
  have hbank := (hacq hop).trans
    (State.lockAcq_held hn.atBank.ent hn.lock hrecs hrole halone hother (by simpa using huses) (by simpa using hmine))
  rw [ha.request_lockAcq hop hqueue hbank]
  exact ⟨by simp [State.acqRec], fun q => s.atBank_port l m q⟩

/-- A LockAcq of a node that holds or waits already changes nothing in the bank and is answered ReqError (R442). -/
theorem State.NamesLock.acq_again {r : ClampRec} (hn : s.NamesLock l m e) (ha : s.ReachesBank l m) (hop : m.op = Op.lockAcq)
    (hqueue : (s.bank l).queue = []) (hr : r ∈ e.recs) (hsrc : r.m.src = m.src) (hten : r.m.ten = m.ten)
    (hrole : r.role = .holder ∨ r.role = .waiter) (p : Nat) :
    (s.request p m).bank l = s.bank l ∧ s.sends (s.request p m) (respTo m Op.reqError 1 false 0 []) := by
  obtain ⟨-, hacq, -, -⟩ := hn.atBank.clampAt
  have hbank := (hacq hop).trans (State.lockAcq_again hn.atBank.ent hn.lock hr hsrc hten hrole)
  rw [ha.request_lockAcq hop hqueue hbank]
  refine ⟨?_, (s.relays_atBank l m).sends ((State.sends_send _ _).relay (State.relays_winDone _ _ _ _))⟩
  rw [State.bank_congr (State.winDone_banks _ _ _ _), State.bank_congr (State.send_banks _ _), State.atBank_bank]

/-! ## LockRel -/

/-- A LockRel of the holder hands the lock to the one waiter: ClampComp to the one, LockGrant to the other. -/
theorem State.NamesLock.rel_holder {h r : ClampRec} (hn : s.NamesLock l m e) (ha : s.ReachesBank l m) (hop : m.op = Op.lockRel)
    (hrecs : e.recs = [h, r]) (hrole : h.role = .holder) (hsrc : h.m.src = m.src) (hten : h.m.ten = m.ten) (hnote : h.note = none)
    (hr : r.role = .waiter) (hsafe : s.isSafe = false) (p : Nat) :
    ((s.request p m).ent l (handleIdx m)).recs = [{ r with role := .holder }] ∧
      s.sends (s.request p m) (respTo m Op.clampComp 0 false 0 [clampSlot (clHandle m) false 0 0]) ∧
      s.sends (s.request p m) (respTo r.m Op.lockGrant 0 false 0 [clampSlot (clHandle r.m) r.shared 0 0]) := by
  obtain ⟨-, -, hrel, -⟩ := hn.atBank.clampAt
  have heq := State.lockRel_holder hn.atBank.ent hn.lock hrecs hrole hsrc hten hnote hr (by simpa using hsafe)
  have hrelay := (s.relays_atBank l m).trans (State.relays_setEnt _ l (handleIdx m) { e with recs := [r] })
  rw [ha.request (by rw [hop]; decide), hrel hop, heq]
  refine ⟨?_, hrelay.sends ((State.sends_clampRsp _ _ _ _ _).relay (State.relays_grant _ _ _ _)),
    (hrelay.trans (State.relays_clampRsp _ _ _ _ _)).sends (State.sends_grant _ _ _ _)⟩
  rw [State.grant_recs, State.clampRsp_ent, State.ent_setEnt_same, grantedRecs_singleton]

/-- A LockRel of a lock that nobody holds changes nothing in its entry and is answered NotOwner. -/
theorem State.NamesLock.rel_nobody (hn : s.NamesLock l m e) (ha : s.ReachesBank l m) (hop : m.op = Op.lockRel)
    (hrecs : e.recs = []) (p : Nat) :
    (s.request p m).ent l (handleIdx m) = e ∧
      s.sends (s.request p m) (respTo m Op.notOwner 0 false 0 [clampSlot (clHandle m) false 0 0]) := by
  obtain ⟨-, -, hrel, -⟩ := hn.atBank.clampAt
  have heq := State.lockRel_nobody hn.atBank.ent hn.lock hrecs
  rw [ha.request (by rw [hop]; decide), hrel hop, heq]
  refine ⟨?_, (s.relays_atBank l m).sends ((State.relays_notOwner _ _ _).sends (State.sends_clampRsp _ _ _ _ _))⟩
  rw [State.clampRsp_ent, State.ent_congr (State.notOwner_banks _ _ _), hn.atBank.ent]

/-! ## ClampFree and ClampSetPrio -/

/-- A ClampFree of the owner frees the entry, with its GEN one higher: ClampComp to the owner, LockBroken to each waiter. -/
theorem State.NamesLock.free_owner (hn : s.NamesLock l m e) (ha : s.ReachesBank l m) (hop : m.op = Op.clampFree)
    (hsrc : m.src = e.src) (p : Nat) :
    (s.request p m).ent l (handleIdx m) = { ClampEnt.zero with gen := e.gen + 1 } ∧
      s.sends (s.request p m) (respTo m Op.clampComp 0 false 0 [clampSlot (clHandle m) false 0 0]) ∧
      ∀ r ∈ e.recs, r.role = .waiter →
        s.sends (s.request p m) (respTo r.m Op.lockBroken 0 false 0 [clampSlot (clHandle r.m) false 0 2]) := by
  obtain ⟨hfree, -, -, -⟩ := hn.atBank.clampAt
  have heq := State.clampFreeReq_owner hn.atBank.ent hn.ten hsrc
  obtain ⟨hbreak, hmsgs⟩ := (s.atBank l m).breakWaiters_sends l e.recs 2
  rw [ha.request (by rw [hop]; decide), hfree hop, heq]
  refine ⟨?_, ((s.relays_atBank l m).trans (hbreak.trans (State.relays_setEnt _ _ _ _))).sends (State.sends_clampRsp _ _ _ _ _),
    fun r hr hw => (s.relays_atBank l m).sends ((hmsgs r hr hw).relay
      ((State.relays_setEnt _ _ _ _).trans (State.relays_clampRsp _ _ _ _ _)))⟩
  rw [State.clampRsp_ent, State.freeEnt, State.ent_setEnt_same, State.ent_congr (State.breakWaiters_banks _ _ _ _), hn.atBank.ent]

/-- A ClampSetPrio that names the one waiting request gives it its priority and is answered ClampComp with CODE 1. -/
theorem State.NamesLock.prio_waiter {r : ClampRec} (hn : s.NamesLock l m e) (ha : s.ReachesBank l m) (hop : m.op = Op.clampSetPrio)
    (hrecs : e.recs = [r]) (hrole : r.role = .waiter) (hsrc : r.m.src = m.src) (hten : r.m.ten = m.ten)
    (htag : r.m.tag = slotField m 1 74 12) (p : Nat) :
    ((s.request p m).ent l (handleIdx m)).recs = [{ r with prio := (slotField m 1 71 3).toNat }] ∧
      s.sends (s.request p m) (respTo m Op.clampComp 0 false 0 [clampSlot (clHandle m) false 0 1]) := by
  obtain ⟨-, -, -, hprio⟩ := hn.atBank.clampAt
  have heq := State.clampSetPrio_waiter hn.atBank.ent hn.lock hrecs hrole hsrc hten htag
  rw [ha.request (by rw [hop]; decide), hprio hop, heq]
  refine ⟨?_, (s.relays_atBank l m).sends ((State.relays_setEnt _ _ _ _).sends (State.sends_clampRsp _ _ _ _ _))⟩
  rw [State.clampRsp_ent, State.ent_setEnt_same]

end

end Sys2Proof.Machine
end

section
/-! The statement about the locks of the Clamp (11 R436 to R446). -/
namespace Sys2Proof.Machine

/-- A request that its port admits ends as its effect on the state in which it has been taken. -/
theorem State.requestOf_eq {s : State} {p : Nat} {m : Msg} {op : BitVec 8} (h : s.admits p { m with op := op }) :
    s.requestOf p m op = s.after ((s.heard p { m with op := op }).request p { m with op := op }) :=
  State.message_eq (fun m s => s.request p m) h

/-- Settles O29: each request reaches the bank of its logical slice, where the equation of its case says what the entry becomes and
which responses leave. -/
theorem clampLocks : Obligations.ClampLocks := by
  unfold Obligations.ClampLocks
  intro s v p l i m w o e hw hadm hv hnew hheld hhost hawake he
  obtain ⟨-, hjig, -, hask⟩ := hnew
  have hexec : s.requestOf p m o = s.after (v.request p w) := by
    subst hw hv
    exact State.requestOf_eq hadm
  have hop : w.op = o := by rw [hw]
  have halloc (ho : o = Op.clampAlloc) (hl : l = clLslice w) : v.ReachesBank l w :=
    have hopA := hop.trans ho
    ⟨by rw [hopA]; decide, hl ▸ State.reqPlace_alloc hopA v, .inl hopA, hask, hheld, hawake⟩
  refine ⟨?alloc, ?full, fun hl hlive hi hst hgen hten => ?locks⟩
  case alloc =>
    rintro rfl hl hkind hlow hi hfree hquota hres huses
    obtain ⟨hent, hsend⟩ := (halloc rfl hl).alloc_takes hop he hkind hlow hi hfree hhost hquota hres huses p
    exact ⟨_, congrArg _ hexec, by rw [hent]; rfl, by rw [hent]; rfl, by rw [hent]; rfl, by rw [hent]; rfl, hsend⟩
  case full =>
    rintro rfl hl hquota
    exact ⟨_, congrArg _ hexec, (halloc rfl hl).alloc_full hop hquota p⟩
  case locks =>
    subst hi
    have hn : v.NamesLock l w e := ⟨he, hst, hgen, hten, hhost, hjig⟩
    have ha (ho : isClamp o = true ∧ o ≠ Op.clampAlloc) : v.ReachesBank l w := by
      obtain ⟨hclamp, hne⟩ := hop ▸ ho
      exact ⟨hclamp, hl ▸ State.reqPlace_handle hclamp hne v, .inr (hl ▸ hlive), hask, hheld, hawake⟩
    refine ⟨?free, ?held, ?again, ?handover, ?nobody, ?freed, ?prio⟩
    case free =>
      rintro rfl hqueue hrecs huses hmine
      obtain ⟨hent, hsend⟩ := hn.acq_free (ha (by decide)) hop hqueue hrecs huses hmine p
      exact ⟨_, _, congrArg _ hexec, hent, rfl, rfl, rfl, hsend⟩
    case held =>
      rintro h rfl hqueue hrecs hrole halone hother huses hmine
      obtain ⟨hent, hports⟩ := hn.acq_held (ha (by decide)) hop hqueue hrecs hrole halone hother huses hmine p
      exact ⟨_, _, congrArg _ hexec, hent, rfl, rfl, rfl, rfl, hports⟩
    case again =>
      rintro r hr rfl hqueue hsrc hten' hrole
      exact ⟨_, congrArg _ hexec, hn.acq_again (ha (by decide)) hop hqueue hr hsrc hten' hrole p⟩
    case handover =>
      rintro h r rfl hrecs hrole hsrc hten' hnote hr hsafe
      exact ⟨_, congrArg _ hexec, hn.rel_holder (ha (by decide)) hop hrecs hrole hsrc hten' hnote hr hsafe p⟩
    case nobody =>
      rintro rfl hrecs
      exact ⟨_, congrArg _ hexec, hn.rel_nobody (ha (by decide)) hop hrecs p⟩
    case freed =>
      rintro rfl hsrc
      exact ⟨_, congrArg _ hexec, hn.free_owner (ha (by decide)) hop hsrc p⟩
    case prio =>
      rintro r rfl hrecs hrole hsrc hten' htag
      exact ⟨_, congrArg _ hexec, hn.prio_waiter (ha (by decide)) hop hrecs hrole hsrc hten' htag p⟩

end Sys2Proof.Machine
end

section
/-!
SUPPORT. The commands on a staging buffer, from the register that takes them to the operation they are (12 R477, R479).
-/
namespace Sys2Proof.Machine

theorem tntReg_mod (t : Tenant) {o : Nat} (ho : o < 0x100) : tntReg t o % 0x100 = o := by
  unfold tntReg
  omega

theorem ofNat_tntReg (t : Tenant) {o : Nat} (ho : o < 0x100) : BitVec.ofNat 7 ((tntReg t o - 0x40000) / 0x100) = t := by
  have hdiv : (tntReg t o - 0x40000) / 0x100 = t.toNat := by unfold tntReg; omega
  rw [hdiv, BitVec.ofNat_toNat, BitVec.setWidth_eq]

theorem tntReg_inBlock (t : Tenant) {o : Nat} (ho : o < 0x100) : 0x40000 ≤ tntReg t o ∧ tntReg t o < 0x48000 := by
  have ht : t.toNat < 2 ^ 7 := t.isLt
  unfold tntReg
  omega

/-- A write to a register of a tenant goes to the block of that tenant (12 R494). -/
theorem State.writeAt_tntReg (s : State) (who : Party) (t : Tenant) {o : Nat} (ho : o < 0x100) (v : Word) :
    s.writeAt who (tntReg t o) v = s.writeTnt who t (tntReg t o) v := by
  obtain ⟨hlow, hhigh⟩ := tntReg_inBlock t ho
  have hnot {x : Nat} (hx : x ≤ 0x40000) : ¬ tntReg t o < x := by omega
  simp only [State.writeAt, ofNat_tntReg t ho, hhigh, if_true]
  iterate 13 rw [if_neg (hnot (by decide))]

/-! ## The word of a command -/

theorem getLsbD_stgWord (op : Nat) (h : BitVec 16) {i : Nat} (hi : i < 32) :
    (stgWord op h).getLsbD i = (decide (31 = i) || (decide (16 ≤ i) && op.testBit (i - 16)) || h.getLsbD i) := by
  simp only [stgWord, bitWord, BitVec.getLsbD_or, BitVec.getLsbD_ofNat, BitVec.getLsbD_setWidth, BitVec.truncate_eq_setWidth, hi,
    decide_true, Bool.true_and, Nat.testBit_two_pow, Nat.testBit_mul_two_pow]

theorem stgWord_go (op : Nat) (h : BitVec 16) : (stgWord op h).getLsbD 31 = true := by
  rw [getLsbD_stgWord op h (by decide)]
  rfl

theorem stgWord_handle (op : Nat) (h : BitVec 16) : (stgWord op h).extractLsb' 0 16 = h := by
  apply BitVec.eq_of_getLsbD_eq
  intro i hi
  have hgo : 31 ≠ i := by omega
  rw [BitVec.getLsbD_extractLsb', Nat.zero_add, getLsbD_stgWord op h (by omega)]
  simp [hi, hgo, Nat.not_le.mpr hi]

theorem stgWord_op {op : Nat} (hop : op < 4) (h : BitVec 16) : getBits (stgWord op h) 16 2 = op := by
  apply Nat.eq_of_testBit_eq
  intro i
  rw [testBit_getBits]
  by_cases hi : i < 2
  · have hgo : 31 ≠ 16 + i := by omega
    rw [getLsbD_stgWord op h (by omega)]
    simp [hi, hgo]
  · have hlarge : op < 2 ^ i := Nat.lt_of_lt_of_le hop (Nat.pow_le_pow_right (n := 2) (by decide) (Nat.not_lt.mp hi))
    simp [hi, Nat.testBit_lt_two_pow hlarge]

/-- A command word with GO is the operation that OP names, on the buffer that HANDLE names (R477). -/
theorem State.writeTnt_stgWord (s : State) (who : Party) (t : Tenant) (h : BitVec 16) :
    s.writeTnt who t (tntReg t 0x40) (stgWord 0 h) = s.stgAlloc t (masterOf who) ∧
      s.writeTnt who t (tntReg t 0x40) (stgWord 1 h) = s.stgFree t (masterOf who) h ∧
      s.writeTnt who t (tntReg t 0x40) (stgWord 2 h) = s.stgLoad t (masterOf who) h := by
  have hstg (v : Word) : s.writeTnt who t (tntReg t 0x40) v = s.writeStg who t v := by
    simp only [State.writeTnt, tntReg_mod t (show 0x40 < 0x100 by decide)]
  have hgo (op : Nat) : ¬ (!(stgWord op h).getLsbD 31) = true := by rw [stgWord_go]; decide
  refine ⟨?_, ?_, ?_⟩ <;> rw [hstg, State.writeStg, if_neg (hgo _), stgWord_op (by decide), stgWord_handle] <;> rfl

/-! ## The commands -/

section
variable {s : State} {who : Party} {t : Tenant}

theorem exec_stgAlloc (ht : s.takes who (tntReg t 0x40)) :
    exec (.stgAlloc who t) s = .next (s.after (s.stgAlloc t (masterOf who))) := by
  obtain ⟨halloc, -, -⟩ := s.writeTnt_stgWord who t 0
  rw [← halloc, ← State.writeAt_tntReg s who t (by decide), ← State.command_eq _ ht]
  rfl

theorem exec_stgFree (ht : s.takes who (tntReg t 0x40)) (h : BitVec 16) :
    exec (.stgFree who t h) s = .next (s.after (s.stgFree t (masterOf who) h)) := by
  obtain ⟨-, hfree, -⟩ := s.writeTnt_stgWord who t h
  rw [← hfree, ← State.writeAt_tntReg s who t (by decide), ← State.command_eq _ ht]
  rfl

theorem exec_stgLoad (ht : s.takes who (tntReg t 0x40)) (h : BitVec 16) :
    exec (.stgLoad who t h) s = .next (s.after (s.stgLoad t (masterOf who) h)) := by
  obtain ⟨-, -, hload⟩ := s.writeTnt_stgWord who t h
  rw [← hload, ← State.writeAt_tntReg s who t (by decide), ← State.command_eq _ ht]
  rfl

/-- A read of the data register is the access to the buffer that the address register names (R479). -/
theorem State.regRead_stgData (ht : s.takes who (tntReg t 0x50)) :
    s.regRead who (tntReg t 0x50) = s.stgData t (masterOf who) none := by
  obtain ⟨-, -, -, hserved⟩ := ht
  obtain ⟨hlow, hhigh⟩ := tntReg_inBlock t (o := 0x50) (by decide)
  have hnow : tntReg t 0x50 ≠ 0x4008 := by omega
  simp [State.regRead, hserved, hnow, hlow, hhigh, tntReg_mod, ofNat_tntReg]

theorem exec_stgDataAccess (ht : s.takes who (tntReg t 0x50)) (wr : Option Word) :
    exec (.stgDataAccess who t wr) s = .next (s.after (s.stgData t (masterOf who) wr).2) := by
  cases wr with
  | some v =>
    have hwrite : s.writeTnt who t (tntReg t 0x50) v = (s.stgData t (masterOf who) (some v)).2 := by
      simp [State.writeTnt, tntReg_mod]
    rw [← hwrite, ← State.writeAt_tntReg s who t (by decide), ← State.command_eq _ ht]
    rfl
  | none =>
    rw [← State.regRead_stgData ht, ← State.access_eq (fun s => (s.regRead who (tntReg t 0x50)).2) ht]
    exact congrArg _ (State.run_eq (fun s => s.access who (tntReg t 0x50) _) ht.rstN)

end

end Sys2Proof.Machine
end

section
/-!
SUPPORT. The operations on a staging buffer, one rule each: the checks of a handle, what a failed check and a result record, and
what each command comes to in the cases that it can meet (12 R476 to R479).
-/
namespace Sys2Proof.Machine

/-- No number looked at satisfies `p`. -/
theorem firstFrom_eq_none {p : Nat → Bool} {n i : Nat} (h : ∀ j, i ≤ j → j < i + n → p j = false) : firstFrom p i n = none := by
  induction n generalizing i with
  | zero => rfl
  | succ n ih =>
    rw [firstFrom, if_neg (by simp [h i (Nat.le_refl i) (by omega)])]
    exact ih (fun j hj hn => h j (by omega) (by omega))

theorem State.stg_setStg (s : State) (i j : Nat) (b : Staging) : (s.setStg i b).stg j = if i = j then b else s.stg j := by
  simp [State.stg, State.setStg, spGet_spSet]

@[simp] theorem State.stg_setStg_same (s : State) (i : Nat) (b : Staging) : (s.setStg i b).stg i = b := by
  simp [State.stg_setStg]

@[simp] theorem State.setStg_fget (s : State) (i : Nat) (b : Staging) (f : Fld) (n m : Nat) :
    (s.setStg i b).fget f n m = s.fget f n m := rfl

section
variable {s : State} {n : Tenant} {master : BitVec 21} {h : BitVec 16} {r : Nat}

/-! ## The checks of R478 -/

theorem State.stgCheck_stale (hb : (s.stg (h.toNat % 32)).used = false ∨ (s.stg (h.toNat % 32)).gen.toNat ≠ h.toNat / 32) :
    s.stgCheck n master h = 3 := by
  simp [State.stgCheck, hb]

theorem State.stgCheck_notOwner (hused : (s.stg (h.toNat % 32)).used = true) (hgen : (s.stg (h.toNat % 32)).gen.toNat = h.toNat / 32)
    (hb : (s.stg (h.toNat % 32)).ten ≠ n ∨ (s.stg (h.toNat % 32)).master ≠ master) : s.stgCheck n master h = 4 := by
  simp [State.stgCheck, hused, hgen, hb]

/-- The checks pass for the owner of a live buffer of the handle's generation, and for nobody else. -/
theorem State.stgCheck_eq_done_iff :
    s.stgCheck n master h = 1 ↔ (s.stg (h.toNat % 32)).used = true ∧ (s.stg (h.toNat % 32)).gen.toNat = h.toNat / 32 ∧
      (s.stg (h.toNat % 32)).ten = n ∧ (s.stg (h.toNat % 32)).master = master := by
  by_cases hstale : (s.stg (h.toNat % 32)).used = false ∨ (s.stg (h.toNat % 32)).gen.toNat ≠ h.toNat / 32
  · rw [State.stgCheck_stale hstale]
    exact iff_of_false (by decide) fun ⟨hused, hgen, _⟩ => hstale.elim (by simp [hused]) (absurd hgen)
  · obtain ⟨hused, hgen⟩ := not_or.mp hstale
    simp only [Bool.not_eq_false] at hused
    have hgen := Classical.not_not.mp hgen
    by_cases hother : (s.stg (h.toNat % 32)).ten ≠ n ∨ (s.stg (h.toNat % 32)).master ≠ master
    · rw [State.stgCheck_notOwner hused hgen hother]
      exact iff_of_false (by decide) fun ⟨_, _, hten, hmaster⟩ => hother.elim (absurd hten) (absurd hmaster)
    · obtain ⟨hten, hmaster⟩ := not_or.mp hother
      have hown := And.intro (Classical.not_not.mp hten) (Classical.not_not.mp hmaster)
      simp [State.stgCheck, hused, hgen, hown]

/-! ## What a result records -/

@[simp] theorem State.stgResult_tns : (s.stgResult n master h r).tns = s.tns := by
  simp only [State.stgResult, State.fset_tns, State.setFlag_tns]

@[simp] theorem State.stgResult_sources : (s.stgResult n master h r).sources = s.sources := by
  simp only [State.stgResult, State.fset_sources, State.setFlag_sources]

@[simp] theorem State.stgResult_stg (i : Nat) : (s.stgResult n master h r).stg i = s.stg i := by
  rw [State.stg, State.stg, State.stgResult_tns]

/-- A field of TNTn_STG_STATUS reads as it has been set there: the owner tag stands in another register. -/
theorem State.stgResult_fget_status {g : Fld} (hstatus : g.addr n.toNat 0 = F.TNT_STG_STATUS_RESULT.addr n.toNat 0)
    (hg : g.lsb + g.wid ≤ 32) :
    (s.stgResult n master h r).fget g n.toNat = (((s.setFlag F.TNT_STG_STATUS_VALID true n.toNat).fset F.TNT_STG_STATUS_RESULT r
      n.toNat).fset F.TNT_STG_STATUS_HANDLE h.toNat n.toNat).fget g n.toNat := by
  have hmaster : F.TNT_STG_MASTER_ID.addr n.toNat 0 ≠ g.addr n.toNat 0 := by
    rw [hstatus]
    simp only [Fld.addr, F.TNT_STG_MASTER_ID, F.TNT_STG_STATUS_RESULT]
    omega
  exact (State.fget_fset_other _ F.TNT_STG_MASTER_ID _ _ _ _ _ _ (.inl hmaster) hg).trans
    (State.fget_fset_other _ F.TNT_STG_MASTER_I3C _ _ _ _ _ _ (.inl hmaster) hg)

theorem State.stgResult_result (hr : r < 8) : (s.stgResult n master h r).fget F.TNT_STG_STATUS_RESULT n.toNat = r := by
  rw [State.stgResult_fget_status rfl (by decide), State.fget_fset_other _ _ _ _ _ _ _ _ (.inr (by decide)) (by decide),
    State.fget_fset_same _ _ _ _ _ (by decide)]
  exact Nat.mod_eq_of_lt hr

theorem State.stgResult_handle : (s.stgResult n master h r).fget F.TNT_STG_STATUS_HANDLE n.toNat = h.toNat := by
  rw [State.stgResult_fget_status (g := F.TNT_STG_STATUS_HANDLE) rfl (by decide), State.fget_fset_same _ _ _ _ _ (by decide)]
  exact Nat.mod_eq_of_lt h.isLt

theorem State.stgResult_valid : (s.stgResult n master h r).flag F.TNT_STG_STATUS_VALID n.toNat = true := by
  unfold State.flag
  rw [State.stgResult_fget_status (g := F.TNT_STG_STATUS_VALID) rfl (by decide),
    State.fget_fset_other _ _ _ _ _ _ _ _ (.inr (by decide)) (by decide),
    State.fget_fset_other _ _ _ _ _ _ _ _ (.inr (by decide)) (by decide),
    State.fget_setFlag_same _ _ _ _ _ (by decide) (by decide)]
  rfl

theorem State.stgResult_masterId :
    (s.stgResult n master h r).fget F.TNT_STG_MASTER_ID n.toNat = master.toNat % 2 ^ 20 :=
  State.fget_fset_same _ _ _ _ _ (by decide)

/-- A result is recorded in TNTn_STG_STATUS and TNTn_STG_MASTER alone. -/
theorem State.stgResult_fget_other {g : Fld} {i j : Nat} (hstatus : F.TNT_STG_STATUS_RESULT.addr n.toNat 0 ≠ g.addr i j)
    (hmaster : F.TNT_STG_MASTER_ID.addr n.toNat 0 ≠ g.addr i j) (hg : g.lsb + g.wid ≤ 32) :
    (s.stgResult n master h r).fget g i j = s.fget g i j := by
  unfold State.stgResult
  dsimp only
  rw [State.fget_fset_other _ F.TNT_STG_MASTER_ID _ _ _ _ _ _ (.inl hmaster) hg,
    State.fget_fset_other _ F.TNT_STG_MASTER_I3C _ _ _ _ _ _ (.inl hmaster) hg,
    State.fget_fset_other _ F.TNT_STG_STATUS_HANDLE _ _ _ _ _ _ (.inl hstatus) hg,
    State.fget_fset_other _ F.TNT_STG_STATUS_RESULT _ _ _ _ _ _ (.inl hstatus) hg,
    State.fget_setFlag_other _ F.TNT_STG_STATUS_VALID _ _ _ _ _ _ (.inl hstatus) hg]

/-- A result leaves the counters of failed checks of every tenant alone. -/
theorem State.stgResult_errcnt (g : Fld) (hbase : g.addr 0 0 = 0x40054 ∧ g.stride = 0x100) (hg : g.lsb + g.wid ≤ 32) (i : Nat) :
    (s.stgResult n master h r).fget g i = s.fget g i := by
  obtain ⟨hbase, hstride⟩ := hbase
  simp only [Fld.addr] at hbase
  refine State.stgResult_fget_other ?_ ?_ hg <;> simp only [Fld.addr, F.TNT_STG_STATUS_RESULT, F.TNT_STG_MASTER_ID, hstride] <;> omega

theorem State.stgResult_loader : (s.stgResult n master h r).fget F.PAT_STATUS_LOADER = s.fget F.PAT_STATUS_LOADER := by
  refine State.stgResult_fget_other ?_ ?_ (by decide) <;>
    simp only [Fld.addr, F.TNT_STG_STATUS_RESULT, F.TNT_STG_MASTER_ID, F.PAT_STATUS_LOADER] <;> omega

/-! ## What a failed check records -/

/-- An event changes no register of a tenant. -/
theorem State.raise_fget_tnt (i c : Nat) (o : Option Tenant) {g : Fld} (hbase : 0x40000 ≤ g.base) (hg : g.lsb + g.wid ≤ 32) (k : Nat) :
    (s.raise i c o).fget g k = s.fget g k := by
  have hne (x y : Nat) : F.EVG_DROP_FULL.addr x y ≠ g.addr k 0 := by
    simp only [Fld.addr, F.EVG_DROP_FULL]
    omega
  exact State.raise_field (·.fget g k) (fun _ _ => rfl)
    (fun u v x y => State.fget_fset_other u _ g v x y k 0 (.inl (hne x y)) hg) s i c o

theorem State.stgReject_stale : s.stgReject n h 3 = s.bump F.TNT_STG_ERRCNT_STALE n.toNat := if_pos rfl

theorem State.stgReject_notOwner : s.stgReject n h 4 =
    (s.bump F.TNT_STG_ERRCNT_NOTOWN (s.stg (h.toNat % 32)).ten.toNat).raise 20 Cls.staging (some (s.stg (h.toNat % 32)).ten) :=
  (if_neg (by decide)).trans (if_pos rfl)

@[simp] theorem State.stgReject_tns : (s.stgReject n h r).tns = s.tns := by
  unfold State.stgReject
  split
  · rfl
  · split <;> simp

/-- A failed check leaves the registers of the tenants alone but for the counters. -/
theorem State.stgReject_offset (k : Nat) :
    (s.stgReject n h r).fget F.TNT_STG_ADDR_OFFSET k = s.fget F.TNT_STG_ADDR_OFFSET k := by
  have hbump (f : Fld) (hf : f.addr 0 0 = 0x40054 ∧ f.stride = 0x100) (i : Nat) :
      (s.bump f i).fget F.TNT_STG_ADDR_OFFSET k = s.fget F.TNT_STG_ADDR_OFFSET k := by
    obtain ⟨hbase, hstride⟩ := hf
    simp only [Fld.addr] at hbase
    refine State.fget_bumpBy_other _ _ _ _ _ _ _ _ (.inl ?_) (by decide)
    simp only [Fld.addr, F.TNT_STG_ADDR_OFFSET, hstride]
    omega
  unfold State.stgReject
  split
  · exact hbump _ (by decide) _
  · split
    · exact (State.raise_fget_tnt _ _ _ (by decide) (by decide) k).trans (hbump _ (by decide) _)
    · rfl

/-! ## ALLOC -/

/-- ALLOC takes the lowest free buffer while the tenant holds fewer than two. -/
theorem State.stgAlloc_takes {i : Nat} (hheld : (s.tns.staging.filter (fun e => e.2.used && e.2.ten == n)).length < 2) (hi : i < 32)
    (hfree : (s.stg i).used = false) (hlow : ∀ j, j < i → (s.stg j).used = true) :
    s.stgAlloc n master = (s.setStg i ⟨true, (s.stg i).gen, n, master, []⟩).stgResult n master
      (BitVec.ofNat 16 ((s.stg i).gen.toNat * 32 + i)) 1 := by
  have hfirst : firstFrom (fun i => !(s.stg i).used) 0 32 = some i :=
    firstFrom_eq_some (Nat.zero_le i) (by omega) (by simp [hfree]) (fun j _ hj => by simp [hlow j hj])
  simp only [State.stgAlloc, hheld, if_true, hfirst]

/-- ALLOC ends FULL for a tenant that holds two buffers, and when none is free. -/
theorem State.stgAlloc_full (hfull : 2 ≤ (s.tns.staging.filter (fun e => e.2.used && e.2.ten == n)).length ∨
    ∀ j, j < 32 → (s.stg j).used = true) : s.stgAlloc n master = s.stgResult n master 0 2 := by
  have hnone : (if (s.tns.staging.filter (fun e => e.2.used && e.2.ten == n)).length < 2 then
      firstFrom (fun i => !(s.stg i).used) 0 32 else none) = none := by
    rcases hfull with hheld | hused
    · exact if_neg (Nat.not_lt.mpr hheld)
    · rw [firstFrom_eq_none (fun j _ hj => by simp [hused j (by omega)])]
      exact ite_self _
  simp only [State.stgAlloc, hnone]

/-- The handle of a buffer: its generation above its number (R476). -/
theorem stgHandle_toNat (g : BitVec 11) {i : Nat} (hi : i < 32) : (BitVec.ofNat 16 (g.toNat * 32 + i)).toNat = g.toNat * 32 + i := by
  have hg : g.toNat < 2 ^ 11 := g.isLt
  rw [BitVec.toNat_ofNat]
  omega

/-! ## FREE and LOAD -/

theorem State.stgFree_done (hc : s.stgCheck n master h = 1) :
    s.stgFree n master h = (s.setStg (h.toNat % 32) (s.stg (h.toNat % 32)).freed).stgResult n master h 1 := by
  simp only [State.stgFree, hc, if_true]

theorem State.stgLoad_done (hc : s.stgCheck n master h = 1) (hidle : s.fget F.PAT_STATUS_LOADER = 0) :
    s.stgLoad n master h = (({ s with tns := { s.tns with load := some (n, (s.stg (h.toNat % 32)).words) } } : State).fset
      F.PAT_STATUS_LOADER 2).stgResult n master h 1 := by
  simp [State.stgLoad, hc, hidle]

theorem State.stgLoad_busy (hc : s.stgCheck n master h = 1) (hbusy : s.fget F.PAT_STATUS_LOADER ≠ 0) :
    s.stgLoad n master h = s.stgResult n master h 5 := by
  simp [State.stgLoad, hc, hbusy]

/-- A FREE or LOAD that fails a check records its result and what the failed check records, and nothing else. -/
theorem exec_stg_rejected {who : Party} {c : Instr} (ht : s.takes who (tntReg n 0x40))
    (hcmd : c = .stgFree who n h ∨ c = .stgLoad who n h) (hc : s.stgCheck n (masterOf who) h = r) (hr : r ≠ 1) :
    exec c s = .next (s.after ((s.stgReject n h r).stgResult n (masterOf who) h r)) := by
  rcases hcmd with rfl | rfl
  · rw [exec_stgFree ht]
    simp only [State.stgFree, hc, hr, if_false]
  · rw [exec_stgLoad ht]
    simp only [State.stgLoad, hc, hr, ne_eq, not_false_eq_true, if_true]

/-! ## The data register -/

/-- The handle that TNTn_STG_ADDR holds. -/
def State.stgAddr (s : State) (n : Tenant) : BitVec 16 := BitVec.ofNat 16 (s.fget F.TNT_STG_ADDR_HANDLE n.toNat)

theorem State.stgAddr_toNat (s : State) (n : Tenant) : (s.stgAddr n).toNat = s.fget F.TNT_STG_ADDR_HANDLE n.toNat := by
  rw [State.stgAddr, BitVec.toNat_ofNat]
  exact Nat.mod_eq_of_lt (s.fget_lt F.TNT_STG_ADDR_HANDLE n.toNat 0)

/-- The state in which an access to the data register has advanced OFFSET. -/
def State.stgAdvanced (s : State) (n : Tenant) : State :=
  s.fset F.TNT_STG_ADDR_OFFSET (s.fget F.TNT_STG_ADDR_OFFSET n.toNat + 1) n.toNat

@[simp] theorem State.stgAdvanced_tns : (s.stgAdvanced n).tns = s.tns := rfl

theorem State.stgAdvanced_offset :
    (s.stgAdvanced n).fget F.TNT_STG_ADDR_OFFSET n.toNat = (s.fget F.TNT_STG_ADDR_OFFSET n.toNat + 1) % 4096 :=
  State.fget_fset_same _ _ _ _ _ (by decide)

theorem State.stgData_write (hc : s.stgCheck n master (s.stgAddr n) = 1) (v : Word) :
    (s.stgData n master (some v)).2 = (s.stgAdvanced n).setStg ((s.stgAddr n).toNat % 32)
      { s.stg ((s.stgAddr n).toNat % 32) with
        words := spSet 0 (s.stg ((s.stgAddr n).toNat % 32)).words (s.fget F.TNT_STG_ADDR_OFFSET n.toNat) v } := by
  unfold State.stgAddr at hc ⊢
  simp only [State.stgData, hc, ne_eq, not_true_eq_false, if_false, State.stgAdvanced]

theorem State.stgData_read (hc : s.stgCheck n master (s.stgAddr n) = 1) :
    s.stgData n master none =
      (spGet 0 (s.stg ((s.stgAddr n).toNat % 32)).words (s.fget F.TNT_STG_ADDR_OFFSET n.toNat), s.stgAdvanced n) := by
  unfold State.stgAddr at hc ⊢
  simp only [State.stgData, hc, ne_eq, not_true_eq_false, if_false, State.stgAdvanced]

/-- An access that fails a check reads zero, changes no buffer and still advances OFFSET. -/
theorem State.stgData_rejected (hc : s.stgCheck n master (s.stgAddr n) ≠ 1) (wr : Option Word) :
    (s.stgData n master wr).1 = 0 ∧ (s.stgData n master wr).2.tns = s.tns ∧
      (s.stgData n master wr).2.fget F.TNT_STG_ADDR_OFFSET n.toNat = (s.fget F.TNT_STG_ADDR_OFFSET n.toNat + 1) % 4096 := by
  have heq : s.stgData n master wr =
      (0, (s.stgAdvanced n).stgReject n (s.stgAddr n) (s.stgCheck n master (s.stgAddr n))) := by
    unfold State.stgAddr at hc ⊢
    simp only [State.stgData, hc, ne_eq, not_false_eq_true, if_true, State.stgAdvanced]
  rw [heq]
  exact ⟨rfl, State.stgReject_tns, (State.stgReject_offset _).trans State.stgAdvanced_offset⟩

end

end Sys2Proof.Machine
end

section
/-! The statement about the staging buffers (12 R476 to R479). -/
namespace Sys2Proof.Machine

/-- Settles O44: each command is its operation on the buffer of its handle, and the rule of its case says what that operation changes
and records. -/
theorem stagingBuffers : Obligations.StagingBuffers := by
  unfold Obligations.StagingBuffers
  refine ⟨?alloc, ?handle, ?data⟩
  case alloc =>
    rintro s who t n i ht rfl
    refine ⟨fun hheld hi hfree hlow => ⟨_, exec_stgAlloc ht, ?_⟩, fun hfull => ⟨_, exec_stgAlloc ht, ?_⟩⟩
    · rw [State.stgAlloc_takes hheld hi hfree hlow]
      refine ⟨?_, fun j hj => ?_, State.stgResult_result (by decide), State.stgResult_valid,
        State.stgResult_handle.trans (stgHandle_toNat _ hi), State.stgResult_masterId⟩
      · rw [State.stgResult_stg, State.stg_setStg_same]
      · rw [State.stgResult_stg, State.stg_setStg, if_neg hj.symm]
    · rw [State.stgAlloc_full hfull]
      exact ⟨State.stgResult_tns, State.stgResult_result (by decide)⟩
  case handle =>
    rintro s who t h b ht rfl
    refine ⟨fun hused hgen hten hmaster => ?done, fun c hcmd hstale => ?stale, fun c hcmd hused hgen hother => ?notOwner⟩
    case done =>
      have hc : s.stgCheck t (masterOf who) h = 1 := State.stgCheck_eq_done_iff.mpr ⟨hused, hgen, hten, hmaster⟩
      refine ⟨⟨_, exec_stgFree ht h, ?_⟩, fun hidle => ⟨_, exec_stgLoad ht h, ?_⟩, fun hbusy => ⟨_, exec_stgLoad ht h, ?_⟩⟩
      · rw [State.stgFree_done hc, State.stgResult_stg, State.stg_setStg_same]
        exact ⟨rfl, State.stgResult_result (by decide), State.stgResult_handle⟩
      · rw [State.stgLoad_done hc hidle, State.stgResult_tns]
        exact ⟨rfl, State.stgResult_loader.trans (State.fget_fset_same _ _ _ _ _ (by decide)), State.stgResult_result (by decide)⟩
      · rw [State.stgLoad_busy hc hbusy]
        exact ⟨State.stgResult_tns, State.stgResult_result (by decide)⟩
    case stale =>
      refine ⟨_, exec_stg_rejected ht hcmd (State.stgCheck_stale hstale) (by decide),
        State.stgResult_tns.trans State.stgReject_tns, ?_, State.stgResult_result (by decide), ?_⟩
      · rw [State.stgResult_sources, State.stgReject_stale, State.bump_sources]
      · rw [State.stgResult_errcnt F.TNT_STG_ERRCNT_STALE (by decide) (by decide), State.stgReject_stale]
        exact State.fget_bumpBy_same _ _ _ _ _ (by decide)
    case notOwner =>
      refine ⟨_, exec_stg_rejected ht hcmd (State.stgCheck_notOwner hused hgen hother) (by decide),
        State.stgResult_tns.trans State.stgReject_tns, State.stgResult_result (by decide), ?_⟩
      rw [State.stgResult_errcnt F.TNT_STG_ERRCNT_NOTOWN (by decide) (by decide), State.stgReject_notOwner,
        State.raise_fget_tnt _ _ _ (g := F.TNT_STG_ERRCNT_NOTOWN) (by decide) (by decide)]
      exact State.fget_bumpBy_same _ _ _ _ _ (by decide)
  case data =>
    rintro s who t v o i b ht rfl rfl rfl
    rw [← State.stgAddr_toNat, State.regRead_stgData ht]
    have hwrite := exec_stgDataAccess ht (some v)
    have hread := exec_stgDataAccess ht none
    refine ⟨fun hused hgen hten hmaster => ?granted, fun hfail => ?rejected⟩
    case granted =>
      have hc : s.stgCheck t (masterOf who) (s.stgAddr t) = 1 := State.stgCheck_eq_done_iff.mpr ⟨hused, hgen, hten, hmaster⟩
      rw [State.stgData_read hc] at hread ⊢
      rw [State.stgData_write hc] at hwrite
      refine ⟨⟨_, hwrite, ?_, fun j hj => ?_, (State.setStg_fget _ _ _ _ _ _).trans State.stgAdvanced_offset⟩,
        _, hread, State.stgAdvanced_tns, State.stgAdvanced_offset, rfl⟩
      · rw [State.stg_setStg_same, spGet_spSet, if_pos rfl]
      · rw [State.stg_setStg_same, spGet_spSet, if_neg hj.symm]
    case rejected =>
      have hc : s.stgCheck t (masterOf who) (s.stgAddr t) ≠ 1 := by
        intro hc
        obtain ⟨hused, hgen, hten, hmaster⟩ := State.stgCheck_eq_done_iff.mp hc
        simp [hused, hgen, hten, hmaster] at hfail
      obtain ⟨-, hwtns, hwoffset⟩ := State.stgData_rejected hc (some v)
      obtain ⟨hzero, hrtns, hroffset⟩ := State.stgData_rejected hc none
      exact ⟨⟨_, hwrite, hwtns, hwoffset⟩, _, hread, hrtns, hroffset, Prod.ext hzero rfl⟩

end Sys2Proof.Machine
end

section
/-!
SUPPORT. The operations on a vector of the event gatherer, one rule each: a vector read after a change, an event taken from its source,
an acknowledgement, and a batch discarded (16 R607 to R613, R618).
-/
namespace Sys2Proof.Machine

theorem State.vec_modVec (s : State) (n j : Nat) (f : EvVector → EvVector) :
    (s.modVec n f).vec j = if n = j then f (s.vec n) else s.vec j := by
  simp only [State.vec, State.modVec, spGet_spSet]

@[simp] theorem State.vec_modVec_same (s : State) (n : Nat) (f : EvVector → EvVector) : (s.modVec n f).vec n = f (s.vec n) := by
  rw [State.vec_modVec, if_pos rfl]

theorem State.vec_modVec_other (s : State) {n j : Nat} (h : j ≠ n) (f : EvVector → EvVector) : (s.modVec n f).vec j = s.vec j := by
  rw [State.vec_modVec, if_neg h.symm]

section
variable {v : EvVector}

/-- The first event of an empty batch opens it (R608). -/
theorem EvVector.add_opens (h : v.pend = false) (src cls : Nat) (now : Time) :
    v.add src cls now =
      { v with pend := true, count := 1, ovf := false, minsrc := src, seen := BitVec.ofNat 32 (2 ^ cls), t0 := now } := by
  simp only [EvVector.add, h, Bool.false_eq_true, if_false]

/-- A later event joins the open batch (R608). -/
theorem EvVector.add_joins (h : v.pend = true) (src cls : Nat) (now : Time) :
    v.add src cls now =
      { v with count := min 255 (v.count + 1), ovf := v.ovf || v.count == 255, minsrc := min v.minsrc src,
               seen := v.seen ||| BitVec.ofNat 32 (2 ^ cls) } := by
  simp only [EvVector.add, h, if_true]

end

section
variable {s : State}

/-! ## Events taken -/

/-- The state in which source `i` holds the events `q`. -/
def State.withQueue (s : State) (i : Nat) (q : List Ev) : State :=
  { s with sources := spSet EvSource.zero s.sources i { spGet EvSource.zero s.sources i with q := q } }

theorem State.withQueue_q (s : State) (i : Nat) (q : List Ev) : (spGet EvSource.zero (s.withQueue i q).sources i).q = q := by
  rw [State.withQueue, spGet_spSet, if_pos rfl]

theorem State.takeEvent_nil {i : Nat} (hq : (spGet EvSource.zero s.sources i).q = []) : s.takeEvent i = s := by
  simp only [State.takeEvent, hq]

/-- An event that has a vector leaves its source and joins the batch of that vector (R609). -/
theorem State.takeEvent_routed {i n : Nat} {e : Ev} {q : List Ev} (hq : (spGet EvSource.zero s.sources i).q = e :: q)
    (hn : s.vecFor e = some n) :
    s.takeEvent i = ((s.withQueue i q).modVec n (fun v => v.add i e.cls s.now)).evgServe := by
  have hroute : (s.withQueue i q).vecFor e = some n := hn
  unfold State.withQueue at hroute ⊢
  simp only [State.takeEvent, hq, hroute]

/-- An event that has no vector leaves its source and is counted (R607). -/
theorem State.takeEvent_dropped {i : Nat} {e : Ev} {q : List Ev} (hq : (spGet EvSource.zero s.sources i).q = e :: q)
    (hn : s.vecFor e = none) : s.takeEvent i = (s.withQueue i q).bump F.EVG_DROP_NOVEC := by
  have hroute : (s.withQueue i q).vecFor e = none := hn
  unfold State.withQueue at hroute ⊢
  simp only [State.takeEvent, hq, hroute]

theorem exec_eventTaken (h : s.boot.rstN = false) (i : Nat) : exec (.eventTaken i) s = .next (s.after (s.takeEvent i)) :=
  congrArg _ (State.run_eq (fun s => s.takeEvent i) h)

/-! ## Messages that match nothing -/

/-- Case 0x8 is counted and recorded, and raises no event (R193, R196). -/
theorem State.msgCase_unexpected (s : State) (p : Nat) (m : Msg) :
    s.msgCase p m 8 = (((((s.bump F.PRT_MSG_ERRCNT1_UNEXP p).setFlag F.PRT_MSG_LAST_VALID true p).fset F.PRT_MSG_LAST_CASE 8 p).fset
      F.PRT_MSG_LAST_LEN m.len.toNat p).fset F.PRT_MSG_LAST_OPCODE m.op.toNat p).fset F.PRT_MSG_LASTSRC_SRC m.src.toNat p := by
  unfold State.msgCase
  rw [if_pos rfl]
  rfl

@[simp] theorem State.msgCase_unexpected_vectors (s : State) (p : Nat) (m : Msg) : (s.msgCase p m 8).vectors = s.vectors := by
  simp only [State.msgCase_unexpected, State.fset_vectors, State.setFlag_vectors, State.bump_vectors]

theorem State.msgCase_unexpected_case (s : State) (p : Nat) (m : Msg) : (s.msgCase p m 8).fget F.PRT_MSG_LAST_CASE p = 8 := by
  have hsrc : F.PRT_MSG_LASTSRC_SRC.addr p 0 ≠ F.PRT_MSG_LAST_CASE.addr p 0 := by
    simp only [Fld.addr, F.PRT_MSG_LASTSRC_SRC, F.PRT_MSG_LAST_CASE]
    omega
  rw [State.msgCase_unexpected, State.fget_fset_other _ _ _ _ _ _ _ _ (.inl hsrc) (by decide),
    State.fget_fset_other _ _ _ _ _ _ _ _ (.inr (by decide)) (by decide),
    State.fget_fset_other _ _ _ _ _ _ _ _ (.inr (by decide)) (by decide), State.fget_fset_same _ _ _ _ _ (by decide)]
  rfl

theorem State.msgCase_unexpected_count (s : State) (p : Nat) (m : Msg) :
    (s.msgCase p m 8).fget F.PRT_MSG_ERRCNT1_UNEXP p =
      min (s.fget F.PRT_MSG_ERRCNT1_UNEXP p + 1) (onesMask F.PRT_MSG_ERRCNT1_UNEXP.wid) := by
  have hlast : F.PRT_MSG_LAST_CASE.addr p 0 ≠ F.PRT_MSG_ERRCNT1_UNEXP.addr p 0 := by
    simp only [Fld.addr, F.PRT_MSG_LAST_CASE, F.PRT_MSG_ERRCNT1_UNEXP]
    omega
  have hsrc : F.PRT_MSG_LASTSRC_SRC.addr p 0 ≠ F.PRT_MSG_ERRCNT1_UNEXP.addr p 0 := by
    simp only [Fld.addr, F.PRT_MSG_LASTSRC_SRC, F.PRT_MSG_ERRCNT1_UNEXP]
    omega
  rw [State.msgCase_unexpected, State.fget_fset_other _ _ _ _ _ _ _ _ (.inl hsrc) (by decide),
    State.fget_fset_other _ F.PRT_MSG_LAST_OPCODE _ _ _ _ _ _ (.inl hlast) (by decide),
    State.fget_fset_other _ F.PRT_MSG_LAST_LEN _ _ _ _ _ _ (.inl hlast) (by decide),
    State.fget_fset_other _ F.PRT_MSG_LAST_CASE _ _ _ _ _ _ (.inl hlast) (by decide),
    State.fget_setFlag_other _ F.PRT_MSG_LAST_VALID _ _ _ _ _ _ (.inl hlast) (by decide)]
  exact State.fget_bumpBy_same _ _ _ _ _ (by decide)

/-! ## Acknowledgements -/

/-- IntAck `m` acknowledges delivery `d` (R613). (Log 84: the node is the one that `d` was sent to) -/
def Delivery.ackedBy (d : Delivery) (m : Msg) : Prop := d.m.dst = m.src ∧ d.m.ten = m.ten ∧ d.m.tag = m.tag ∧ d.m.htx = m.htx

/-- The vector that an IntAck names (R615). -/
def ackVec (m : Msg) : Nat := 8 * m.ten.toNat + m.tag.toNat % 8

theorem State.intAck_ends {m : Msg} {d : Delivery} (hout : (s.evgAwake.vec (ackVec m)).out = some d) (hack : d.ackedBy m) (p : Nat) :
    s.intAck p m = s.evgAwake.evgEnded (ackVec m) := by
  obtain ⟨hdst, hten, htag, hhtx⟩ := hack
  unfold ackVec at hout ⊢
  simp [State.intAck, hout, hdst, hten, htag, hhtx]

theorem State.intAck_unexpected {m : Msg} (hnone : ∀ d, (s.evgAwake.vec (ackVec m)).out = some d → ¬ d.ackedBy m) (p : Nat) :
    s.intAck p m = s.evgAwake.msgCase p m 8 := by
  unfold ackVec at hnone
  unfold State.intAck
  cases hout : (s.evgAwake.vec (8 * m.ten.toNat + m.tag.toNat % 8)).out with
  | none => simp only [hout]
  | some d =>
    have hne := hnone d hout
    simp only [Delivery.ackedBy] at hne
    simp [hout, and_assoc, hne]

theorem exec_intAck {p : Nat} {m : Msg} (h : s.admits p { m with op := Op.intAck }) :
    exec (.intAck p m) s =
      .next (s.after ((s.heard p { m with op := Op.intAck }).intAck p { m with op := Op.intAck })) :=
  congrArg _ (State.message_eq (fun m s => s.intAck p m) h)

/-! ## The command register -/

theorem State.evgAck_ends {n : Nat} (h : (s.vec n).out ≠ none) : s.evgAck n = s.evgAwake.evgEnded n :=
  if_pos (Option.isSome_iff_ne_none.mpr h)

theorem State.evgAck_idle {n : Nat} (h : (s.vec n).out = none) : s.evgAck n = s.evgAwake :=
  if_neg (by simp [h])

theorem State.evgDiscard_open {n : Nat} (h : (s.vec n).pend = true) :
    s.evgDiscard n = (s.modVec n EvVector.empty).bump F.EVG_DROP_DISC :=
  if_pos h

theorem State.evgDiscard_empty {n : Nat} (h : (s.vec n).pend = false) : s.evgDiscard n = s :=
  if_neg (by simp [h])

section
variable {n : Nat} (hn : n < 1024)
include hn

/-- Above VECTOR the word of a command on vector `n` has the command's own bit alone. -/
theorem getLsbD_evgCmd (i : Nat) {j : Nat} (hj : 10 ≤ j) (hj' : j < 32) :
    (bitWord i ||| BitVec.ofNat 32 n).getLsbD j = decide (i = j) := by
  have hlarge : n < 2 ^ j := Nat.lt_of_lt_of_le hn (Nat.pow_le_pow_right (n := 2) (by decide) hj)
  simp only [bitWord, BitVec.getLsbD_or, BitVec.getLsbD_ofNat, hj', Nat.testBit_two_pow, Nat.testBit_lt_two_pow hlarge,
    decide_true, Bool.true_and, Bool.or_false]

/-- VECTOR of the word of a command on vector `n`. -/
theorem getBits_evgCmd {i : Nat} (hi : 10 ≤ i) : getBits (bitWord i ||| BitVec.ofNat 32 n) 0 10 = n := by
  have hcmd : 2 ^ i % 2 ^ 10 = 0 := Nat.mod_eq_zero_of_dvd (Nat.pow_dvd_pow 2 hi)
  simp only [getBits, bitWord, Nat.shiftRight_zero, BitVec.toNat_or, BitVec.toNat_ofNat, Nat.or_mod_two_pow,
    Nat.mod_mod_of_dvd _ (Nat.pow_dvd_pow 2 (show 10 ≤ 32 by decide)), hcmd, Nat.zero_or]
  exact Nat.mod_eq_of_lt hn

/-- A command on a vector is the write of its word to EVG_CMD. -/
theorem State.evgCommand_eq {who : Party} (ht : s.takes who 0x8008) (w : Word) :
    s.vecCommand n (fun s => s.command who 0x8008 w) = s.after (s.writeEvgCmd w) := by
  rw [State.vecCommand, if_pos hn, State.command_eq w ht]
  rfl

theorem exec_evgAck {who : Party} (ht : s.takes who 0x8008) : exec (.evgAck who n) s = .next (s.after (s.evgAck n)) := by
  refine congrArg _ ((State.evgCommand_eq hn ht _).trans (congrArg _ ?_))
  simp only [State.writeEvgCmd, onBit, getBits_evgCmd hn (show 10 ≤ 31 by decide),
    getLsbD_evgCmd hn 31 (show 10 ≤ 30 by decide) (by decide), getLsbD_evgCmd hn 31 (show 10 ≤ 31 by decide) (by decide)]
  rfl

theorem exec_evgFlush {who : Party} (ht : s.takes who 0x8008) :
    exec (.evgFlush who n) s = .next (s.after (s.evgDiscard n)) := by
  refine congrArg _ ((State.evgCommand_eq hn ht _).trans (congrArg _ ?_))
  simp only [State.writeEvgCmd, onBit, getBits_evgCmd hn (show 10 ≤ 30 by decide),
    getLsbD_evgCmd hn 30 (show 10 ≤ 30 by decide) (by decide), getLsbD_evgCmd hn 30 (show 10 ≤ 31 by decide) (by decide)]
  rfl

end

end

end Sys2Proof.Machine
end

section
/-! The statements about the event gatherer: batches (16 R607 to R609) and the end of a delivery (16 R613, R618). -/
namespace Sys2Proof.Machine

/-- Settles O46: an event that has a vector opens or joins the batch of that vector, one that has none is counted. -/
theorem eventBatches : Obligations.EventBatches := by
  unfold Obligations.EventBatches
  refine ⟨fun s i e q hrst hq => ⟨fun n hn => ?routed, fun hn => ?dropped⟩, fun s i hrst hq => ?empty⟩
  case routed =>
    refine ⟨(s.withQueue i q).modVec n (fun v => v.add i e.cls s.now), ?_, ?_, fun j hj => State.vec_modVec_other _ hj _, rfl, rfl, ?_⟩
    · rw [exec_eventTaken hrst, State.takeEvent_routed hq hn]
    · rw [State.modVec_sources, State.withQueue_q]
    · have hvec : ((s.withQueue i q).modVec n (fun v => v.add i e.cls s.now)).vec n = (s.vec n).add i e.cls s.now :=
        State.vec_modVec_same _ n _
      rw [hvec]
      cases hpend : (s.vec n).pend with
      | false => simp [EvVector.add_opens hpend]
      | true => simp [EvVector.add_joins hpend, hpend]
  case dropped =>
    refine ⟨(s.withQueue i q).bump F.EVG_DROP_NOVEC, ?_, s.withQueue_q i q, rfl, ?_⟩
    · rw [exec_eventTaken hrst, State.takeEvent_dropped hq hn]
    · exact State.fget_bumpBy_same _ _ _ _ _ (by decide)
  case empty =>
    rw [exec_eventTaken hrst, State.takeEvent_nil hq]

/-- Settles O47: an acknowledgement of either kind ends the delivery that it matches, an IntAck that matches none is counted as
unexpected, and FLUSH discards an open batch. -/
theorem interruptDelivery : Obligations.InterruptDelivery := by
  unfold Obligations.InterruptDelivery
  refine ⟨?intAck, fun s who n ht hn => ⟨fun hout => ?ack, fun hout => ?ackIdle, fun hpend => ?flush, fun hpend => ?flushEmpty⟩⟩
  case intAck =>
    rintro s v p n m w rfl hadm rfl rfl
    rw [exec_intAck hadm]
    refine ⟨fun d hout hdst hten htag hhtx => ?ends, fun hnone => ?unexpected⟩
    case ends =>
      rw [State.intAck_ends hout ⟨hdst, hten, htag, hhtx⟩ p]
      rfl
    case unexpected =>
      refine ⟨_, congrArg _ (congrArg _ (State.intAck_unexpected ?_ p)), State.msgCase_unexpected_vectors _ _ _,
        State.msgCase_unexpected_case _ _ _, State.msgCase_unexpected_count _ _ _⟩
      rintro d hout ⟨hdst, hten, htag, hhtx⟩
      simpa [hdst, hten, htag, hhtx] using hnone d hout
  case ack =>
    rw [exec_evgAck hn ht, State.evgAck_ends hout]
    rfl
  case ackIdle =>
    rw [exec_evgAck hn ht, State.evgAck_idle hout]
  case flush =>
    have hempty : ((s.modVec n EvVector.empty).bump F.EVG_DROP_DISC).vec n = (s.vec n).empty := s.vec_modVec_same n _
    refine ⟨(s.modVec n EvVector.empty).bump F.EVG_DROP_DISC, ?_, congrArg EvVector.pend hempty, congrArg EvVector.count hempty,
      by rw [hempty]; rfl, fun j hj => s.vec_modVec_other hj _, State.fget_bumpBy_same _ _ _ _ _ (by decide)⟩
    rw [exec_evgFlush hn ht, State.evgDiscard_open hpend]
  case flushEmpty =>
    rw [exec_evgFlush hn ht, State.evgDiscard_empty hpend]

end Sys2Proof.Machine
end

section
/-!
SUPPORT. Fabric time, one rule each: the write that sets it, the read that latches it, a reference event, and what a PPS edge and a
missing one come to (18 R657 to R661).
-/
namespace Sys2Proof.Machine

section
variable {s : State} {who : Party}

/-! ## Setting (R657) -/

/-- The word of TIM_SET_CMD has the bits of a staging command with OP 0 and the epoch as its handle. -/
theorem timSetWord_eq (ep : BitVec 16) : bitWord 31 ||| ep.zeroExtend 32 = stgWord 0 ep := by
  simp [stgWord]

theorem exec_timSetGo (ht : s.takes who 0x401C) (ep : BitVec 16) : exec (.timSetGo who ep) s = .next (s.after (s.timSet ep)) := by
  have hwrite (v : Word) : s.writeAt who 0x401C v = onBit v 31 (fun s => s.timSet (v.extractLsb' 0 16)) s := rfl
  have hset : s.writeAt who 0x401C (bitWord 31 ||| ep.zeroExtend 32) = s.timSet ep := by
    rw [timSetWord_eq, hwrite, onBit, if_pos (stgWord_go 0 ep), stgWord_handle]
  rw [← hset, ← State.command_eq _ ht]
  rfl

/-! ## Reading (R657) -/

theorem exec_timNowRead (ht : s.takes who 0x4008) : exec (.timNowRead who) s = .next s.timLatch.2 := by
  have ⟨_, _, _, hserved⟩ := ht
  have hread : s.regRead who 0x4008 = s.timLatch := by simp [State.regRead, hserved]
  rw [← hread, ← State.access_eq (fun s => (s.regRead who 0x4008).2) ht]
  exact congrArg _ (State.act_eq _ ht.rstN)

theorem State.timLatch_lo (s : State) : s.timLatch.2.fget F.TIM_NOW_LO_TIME = (fab64 s.now).toNat % 2 ^ 32 := by
  rw [State.timLatch, State.fget_fset_apart _ _ _ _ _ _ (by decide) (by decide),
    State.fget_fset_apart _ _ _ _ _ _ (by decide) (by decide), State.fget_fset_same _ _ _ _ _ (by decide)]
  rfl

theorem State.timLatch_hi (s : State) : s.timLatch.2.fget F.TIM_NOW_HI_TIME = (fab64 s.now).toNat / 2 ^ 32 := by
  have hlt : (fab64 s.now).toNat / 2 ^ 32 < 2 ^ 32 := Nat.div_lt_of_lt_mul (fab64 s.now).isLt
  rw [State.timLatch, State.fget_fset_apart _ _ _ _ _ _ (by decide) (by decide), State.fget_fset_same _ _ _ _ _ (by decide)]
  exact Nat.mod_eq_of_lt hlt

theorem State.timLatch_epoch (s : State) : s.timLatch.2.fget F.TIM_NOW_EP_EPOCH = (fabEpoch s.now).toNat := by
  rw [State.timLatch, State.fget_fset_same _ _ _ _ _ (by decide)]
  exact Nat.mod_eq_of_lt (fabEpoch s.now).isLt

theorem State.timLatch_word_other (s : State) {a : Nat} (hlo : a ≠ 0x4008) (hhi : a ≠ 0x400C) (hep : a ≠ 0x4010) :
    s.timLatch.2.word a = s.word a := by
  rw [State.timLatch, State.word_fset_other _ F.TIM_NOW_EP_EPOCH _ 0 0 _ hep.symm,
    State.word_fset_other _ F.TIM_NOW_HI_TIME _ 0 0 _ hhi.symm, State.word_fset_other _ F.TIM_NOW_LO_TIME _ 0 0 _ hlo.symm]

/-! ## Reference events (R658, R659) -/

theorem State.setLocked_fget (s : State) (b : Bool) {g : Fld} {i j : Nat}
    (h : F.TIM_STATUS_LOCKED.apart (g.addr i j) g.lsb g.wid = true) (hg : g.lsb + g.wid ≤ 32) :
    (s.setLocked b).fget g i j = s.fget g i j :=
  State.fget_fset_apart s _ _ _ _ _ h hg

/-- Without SERVO a reference event does not move the timebase. -/
theorem State.servo_off (h : s.flag F.TIM_CTL_SERVO = false) (e : Int) : s.servo e = s := by
  simp [State.servo, h]

/-- What the servo writes: LOCKED, or the trim. -/
theorem State.servo_fget (s : State) (e : Int) {g : Fld} {i j : Nat}
    (h : Fld.allApart [F.TIM_STATUS_LOCKED, F.TIM_TRIM_PPB] (g.addr i j) g.lsb g.wid = true) (hg : g.lsb + g.wid ≤ 32) :
    (s.servo e).fget g i j = s.fget g i j := by
  unfold State.servo
  split
  · rfl
  · split
    · exact State.setLocked_fget s false (Fld.allApart_mem h (by simp)) hg
    · exact State.fget_fset_apart _ _ _ _ _ _ (Fld.allApart_mem h (f := F.TIM_TRIM_PPB) (by simp)) hg

/-- A reference event with phase error `e` counted and its error recorded, with the run of events within the lock limit that it
leaves (R658, R659). -/
def State.refCounted (s : State) (e : Int) : State :=
  { (s.fset F.TIM_ERR_NS (satInt 32 (e / (2 ^ 32 : Int)))).bump F.TIM_SYNC_CNT_ACCEPTED with
    tb := { s.tb with lockRun := if e.natAbs ≤ s.lockLimit then min (s.tb.lockRun + 1) 4 else 0 } }

/-- A reference event is counted, sets or clears LOCKED or leaves it, and then the servo acts. -/
theorem State.refEvent_cases (s : State) (e : Int) :
    s.refEvent e = (s.refCounted e).servo e ∨ ∃ b, s.refEvent e = ((s.refCounted e).setLocked b).servo e := by
  have hlock : s.refEvent e = (if (s.refCounted e).tb.lockRun = 0 then (s.refCounted e).setLocked false
      else if (s.refCounted e).tb.lockRun = 4 then (s.refCounted e).setLocked true else s.refCounted e).servo e := rfl
  rw [hlock]
  split
  · exact .inr ⟨false, rfl⟩
  · split
    · exact .inr ⟨true, rfl⟩
    · exact .inl rfl

theorem State.refCounted_fget (s : State) (e : Int) {g : Fld} {i j : Nat}
    (h : Fld.allApart [F.TIM_ERR_NS, F.TIM_SYNC_CNT_ACCEPTED] (g.addr i j) g.lsb g.wid = true) (hg : g.lsb + g.wid ≤ 32) :
    (s.refCounted e).fget g i j = s.fget g i j := by
  rw [State.refCounted, State.with_tb_fget, State.bump, State.bumpBy,
    State.fget_fset_apart _ _ _ _ _ _ (Fld.allApart_mem h (f := F.TIM_SYNC_CNT_ACCEPTED) (by simp)) hg,
    State.fget_fset_apart _ _ _ _ _ _ (Fld.allApart_mem h (f := F.TIM_ERR_NS) (by simp)) hg]

theorem State.refCounted_accepted (s : State) (e : Int) :
    (s.refCounted e).fget F.TIM_SYNC_CNT_ACCEPTED = min (s.fget F.TIM_SYNC_CNT_ACCEPTED + 1) 0x7FFF := by
  rw [State.refCounted, State.with_tb_fget, State.bump, State.fget_bumpBy_same _ _ _ _ _ (by decide),
    State.fget_fset_apart _ _ _ _ _ _ (by decide) (by decide)]
  rfl

/-- After it has been counted, a reference event writes LOCKED and the trim. -/
theorem State.refEvent_fget (s : State) (e : Int) {g : Fld} {i j : Nat}
    (h : Fld.allApart [F.TIM_STATUS_LOCKED, F.TIM_TRIM_PPB] (g.addr i j) g.lsb g.wid = true) (hg : g.lsb + g.wid ≤ 32) :
    (s.refEvent e).fget g i j = (s.refCounted e).fget g i j := by
  obtain hev | ⟨b, hev⟩ := s.refEvent_cases e
  · rw [hev, State.servo_fget _ _ h hg]
  · rw [hev, State.servo_fget _ _ h hg, State.setLocked_fget _ _ (Fld.allApart_mem h (by simp)) hg]

/-- Without SERVO a reference event leaves fabric time and the trim as they are. -/
theorem State.refEvent_servoOff (h : s.flag F.TIM_CTL_SERVO = false) (e : Int) :
    (s.refEvent e).now = s.now ∧ (s.refEvent e).fget F.TIM_TRIM_PPB = s.fget F.TIM_TRIM_PPB := by
  have htrim : (s.refCounted e).fget F.TIM_TRIM_PPB = s.fget F.TIM_TRIM_PPB := State.refCounted_fget s e (by decide) (by decide)
  have hoff : (s.refCounted e).flag F.TIM_CTL_SERVO = false := by
    rw [State.flag, State.refCounted_fget _ _ (by decide) (by decide)]
    exact h
  obtain hev | ⟨b, hev⟩ := s.refEvent_cases e
  · rw [hev, State.servo_off hoff]
    exact ⟨rfl, htrim⟩
  · have hoff' : ((s.refCounted e).setLocked b).flag F.TIM_CTL_SERVO = false := by
      rw [State.flag, State.setLocked_fget _ _ (by decide) (by decide)]
      exact hoff
    rw [hev, State.servo_off hoff', State.setLocked_fget _ _ (by decide) (by decide)]
    exact ⟨rfl, htrim⟩

/-! ## The PPS reference (R658, R661) -/

theorem exec_ppsEdge (h : s.boot.rstN = false) : exec .ppsEdge s = .next (s.after s.ppsEdge) :=
  congrArg _ (State.run_eq State.ppsEdge h)

theorem exec_ppsMiss (h : s.boot.rstN = false) : exec .ppsMiss s = .next (s.after s.ppsMiss) :=
  congrArg _ (State.run_eq State.ppsMiss h)

/-- An edge within 500 ms of the last one is rejected. -/
theorem State.ppsEdge_early (hsrc : s.fget F.TIM_CTL_SOURCE = 1) {t : Time} (hedge : s.tb.edge = some t)
    (hle : s.now ≤ t + msec 500) : s.ppsEdge = s.bump F.TIM_SYNC_CNT_REJECTED := by
  simp [State.ppsEdge, hsrc, hedge, hle]

/-- The edge captured, with PPS_MISS cleared. -/
def State.ppsCaptured (s : State) : State :=
  ({ (s.fset F.TIM_PPS_CAP_LO_TIME (fab64 s.now).toNat).fset F.TIM_PPS_CAP_HI_TIME ((fab64 s.now).toNat / 2 ^ 32) with
    tb := { s.tb with edge := some s.now } } : State).setFlag F.TIM_STATUS_PPS_MISS false

/-- The phase error of a PPS edge: fabric time less the offset, from the nearest whole second (R658). -/
def State.ppsError (s : State) : Int :=
  let x : Int := (s.now : Int) - s.ppsOfs * (nsec 1 : Nat)
  let sec : Int := (msec 1000 : Nat)
  x - (x + sec / 2) / sec * sec

/-- Any other edge of the reference is captured and is a reference event, and the next one is compared with the time that it leaves. -/
theorem State.ppsEdge_accepted (hsrc : s.fget F.TIM_CTL_SOURCE = 1) (hlate : ∀ t, s.tb.edge = some t → t + msec 500 < s.now) :
    s.ppsEdge = { s.ppsCaptured.refEvent s.ppsError with
      tb := { (s.ppsCaptured.refEvent s.ppsError).tb with edge := some (s.ppsCaptured.refEvent s.ppsError).now } } := by
  cases hedge : s.tb.edge with
  | none =>
    simp only [State.ppsEdge, hsrc, hedge]
    rfl
  | some t =>
    have hlate : ¬ s.now ≤ t + msec 500 := Nat.not_le.mpr (hlate t hedge)
    simp only [State.ppsEdge, hsrc, hedge, hlate]
    rfl

theorem State.ppsCaptured_fget (s : State) {g : Fld} {i j : Nat} (h : Fld.allApart
    [F.TIM_PPS_CAP_LO_TIME, F.TIM_PPS_CAP_HI_TIME, F.TIM_STATUS_PPS_MISS] (g.addr i j) g.lsb g.wid = true) (hg : g.lsb + g.wid ≤ 32) :
    s.ppsCaptured.fget g i j = s.fget g i j := by
  rw [State.ppsCaptured, State.setFlag,
    State.fget_fset_apart _ _ _ _ _ _ (Fld.allApart_mem h (f := F.TIM_STATUS_PPS_MISS) (by simp)) hg,
    State.with_tb_fget,
    State.fget_fset_apart _ _ _ _ _ _ (Fld.allApart_mem h (f := F.TIM_PPS_CAP_HI_TIME) (by simp)) hg,
    State.fget_fset_apart _ _ _ _ _ _ (Fld.allApart_mem h (f := F.TIM_PPS_CAP_LO_TIME) (by simp)) hg]

theorem State.ppsCaptured_miss (s : State) : s.ppsCaptured.fget F.TIM_STATUS_PPS_MISS = 0 := by
  rw [State.ppsCaptured, State.fget_setFlag_same _ _ _ _ _ (by decide) (by decide)]
  rfl

/-- A missing edge of the reference sets PPS_MISS and leads to holdover. -/
theorem State.ppsMiss_reference (hsrc : s.fget F.TIM_CTL_SOURCE = 1) :
    s.ppsMiss = ((s.until (s.tb.edge.getD s.tb.sentAt + msec 1500)).setFlag F.TIM_STATUS_PPS_MISS true).holdover :=
  if_pos hsrc

theorem State.holdover_locked (s : State) : s.holdover.flag F.TIM_STATUS_LOCKED = false := by
  rw [State.holdover, State.with_tb_flag, State.setLocked, State.flag_setFlag_same _ _ _ _ _ (by decide) (by decide)]

theorem State.holdover_fget (s : State) {g : Fld} {i j : Nat}
    (h : F.TIM_STATUS_LOCKED.apart (g.addr i j) g.lsb g.wid = true) (hg : g.lsb + g.wid ≤ 32) :
    s.holdover.fget g i j = s.fget g i j := by
  rw [State.holdover, State.with_tb_fget, State.setLocked_fget s false h hg]

end

end Sys2Proof.Machine
end

section
/-! The statement about fabric time and the PPS reference (18 R657 to R661). -/
namespace Sys2Proof.Machine

/-- Settles O15: TIM_SET takes a later time and refuses any other, a read latches the instant, and the PPS reference is rejected,
accepted or lost by the rule of its case. -/
theorem fabricTime : Obligations.FabricTime := by
  unfold Obligations.FabricTime
  refine ⟨fun s who ep ht => ?set, fun s who ht => ?read, fun s t hrst hsrc hedge hle => ?early, fun s hrst hsrc hlate => ?accepted,
    fun s hrst hsrc => ?miss⟩
  case set =>
    rw [exec_timSetGo ht]
    exact ⟨_, rfl, fun hlater => by rw [State.timSet, if_pos hlater],
      fun hle => by rw [State.timSet, if_neg (Nat.not_lt.mpr hle)]⟩
  case read =>
    exact ⟨_, exec_timNowRead ht, rfl, s.timLatch_lo, s.timLatch_hi, s.timLatch_epoch, fun a => s.timLatch_word_other⟩
  case early =>
    rw [exec_ppsEdge hrst, State.ppsEdge_early hsrc hedge hle]
  case accepted =>
    refine ⟨_, (exec_ppsEdge hrst).trans (by rw [State.ppsEdge_accepted hsrc hlate]), rfl, ?missCleared, ?counted,
      fun hservo => ?servoOff⟩
    case missCleared =>
      have hmiss : (s.ppsCaptured.refEvent s.ppsError).fget F.TIM_STATUS_PPS_MISS = 0 := by
        rw [State.refEvent_fget _ _ (by decide) (by decide), State.refCounted_fget _ _ (by decide) (by decide),
          State.ppsCaptured_miss]
      exact bne_eq_false_iff_eq.mpr hmiss
    case counted =>
      have hcount := State.refCounted_accepted s.ppsCaptured s.ppsError
      rw [← State.refEvent_fget _ _ (by decide) (by decide), State.ppsCaptured_fget _ (by decide) (by decide)] at hcount
      exact hcount
    case servoOff =>
      have hkept : s.ppsCaptured.flag F.TIM_CTL_SERVO = false := by
        rw [State.flag, State.ppsCaptured_fget _ (by decide) (by decide)]
        exact hservo
      obtain ⟨hnow, htrim⟩ := State.refEvent_servoOff hkept s.ppsError
      exact ⟨hnow, htrim.trans (State.ppsCaptured_fget _ (by decide) (by decide))⟩
  case miss =>
    refine ⟨_, (exec_ppsMiss hrst).trans (by rw [State.ppsMiss_reference hsrc]), ?missSet, State.holdover_locked _, rfl, rfl, ?trim⟩
    case missSet =>
      rw [State.flag, State.holdover_fget _ (by decide) (by decide)]
      exact State.flag_setFlag_same _ _ _ _ _ (by decide) (by decide)
    case trim =>
      rw [State.holdover_fget _ (by decide) (by decide), State.fget_setFlag_other _ _ _ _ _ _ _ _ (by decide) (by decide),
        State.until_fget]

end Sys2Proof.Machine
end

section
/-!
SUPPORT. What entry into the safe state leaves in the registers and at SAFE_N (19 R701), and what a CORRECTED error counts (19 R695).
-/
namespace Sys2Proof.Machine

/-- A write apart from SAF_STATUS.SAFE neither enters nor leaves the safe state. -/
theorem State.isSafe_fset (s : State) {f : Fld} (v n m : Nat)
    (h : f.apart (F.SAF_STATUS_SAFE.addr 0 0) F.SAF_STATUS_SAFE.lsb F.SAF_STATUS_SAFE.wid = true) :
    (s.fset f v n m).isSafe = s.isSafe :=
  congrArg (· != 0) (State.fget_fset_apart s v n m 0 0 h (by decide))

section
variable {s : State}

theorem State.enterSafe_eq (h : s.isSafe = false) (cause : BitVec 8) :
    s.enterSafe cause = (({ (s.setFlag F.SAF_STATUS_SAFE true).fset F.SAF_STATUS_SAFE_CAUSE cause.toNat with
      safePin := true } : State).raiseSafety 0).react .safe := by
  simp [State.enterSafe, h]

/-- The registers after the entry: SAFE and the cause written; source 0, which it raises, can touch the count of dropped events alone. -/
theorem State.enterSafe_status (h : s.isSafe = false) (cause : BitVec 8) {g : Fld} {i j : Nat}
    (hg : F.EVG_DROP_FULL.apart (g.addr i j) g.lsb g.wid = true) (hw : g.lsb + g.wid ≤ 32) :
    (s.enterSafe cause).fget g i j =
      ((s.setFlag F.SAF_STATUS_SAFE true).fset F.SAF_STATUS_SAFE_CAUSE cause.toNat).fget g i j := by
  rw [State.enterSafe_eq h]
  exact State.raiseSafety_fget _ _ _ _ _ (by simp [Fld.allApart, hg]) hw

theorem State.enterSafe_isSafe (h : s.isSafe = false) (cause : BitVec 8) : (s.enterSafe cause).isSafe = true := by
  rw [State.isSafe, State.flag, State.enterSafe_status h cause (by decide) (by decide),
    State.fget_fset_apart _ _ _ _ _ _ (by decide) (by decide), State.fget_setFlag_same _ _ _ _ _ (by decide) (by decide)]
  rfl

theorem State.enterSafe_cause (h : s.isSafe = false) (cause : BitVec 8) :
    (s.enterSafe cause).fget F.SAF_STATUS_SAFE_CAUSE = cause.toNat := by
  rw [State.enterSafe_status h cause (by decide) (by decide), State.fget_fset_same _ _ _ _ _ (by decide)]
  exact Nat.mod_eq_of_lt cause.isLt

theorem State.enterSafe_pin (h : s.isSafe = false) (cause : BitVec 8) : (s.enterSafe cause).safePin = true := by
  rw [State.enterSafe_eq h]
  simp

/-- Outside the safe state a cause is logged and noticed, and then the safe state is entered: SAFE, the cause and SAFE_N. -/
theorem State.safeCause_enters (h : s.isSafe = false) (cause unit : BitVec 8) :
    (s.safeCause cause unit).isSafe = true ∧ (s.safeCause cause unit).fget F.SAF_STATUS_SAFE_CAUSE = cause.toNat ∧
      (s.safeCause cause unit).safePin = true := by
  have hlogged : ((s.logEntry (s.entryNow 0 none unit cause none)).notice
      (monitorNotice cause 0 true unit none none)).isSafe = false := by
    rw [State.isSafe, State.flag, State.notice_fget _ _ _ _ _ (by decide) (by decide),
      State.logEntry_fget _ _ _ _ _ (by decide) (by decide)]
    exact h
  rw [State.safeCause, if_neg (by simp [h])]
  exact ⟨State.enterSafe_isSafe hlogged cause, State.enterSafe_cause hlogged cause, State.enterSafe_pin hlogged cause⟩

end

/-- A CORRECTED error is counted once, logged or not. -/
theorem State.corrected_count (s : State) (cause unit : BitVec 8) (ten : Option Tenant) (addr : Option Addr) :
    (s.corrected cause unit ten addr).fget F.SAF_CNT0_CORR = min (s.fget F.SAF_CNT0_CORR + 1) 0x7FFF := by
  have hbump : (s.bump F.SAF_CNT0_CORR).fget F.SAF_CNT0_CORR = min (s.fget F.SAF_CNT0_CORR + 1) 0x7FFF :=
    State.fget_bumpBy_same _ _ _ _ _ (by decide)
  unfold State.corrected
  dsimp only
  split
  · rw [State.logEntry_fget _ _ _ _ _ (by decide) (by decide), hbump]
  · exact hbump

end Sys2Proof.Machine
end

section
/-!
SUPPORT. The commands that report temperature, supplies and the reference clock, an equation for each case that they can meet
(19 R704, R705; 22 R778; 18 R666).
-/
namespace Sys2Proof.Machine

section
variable {s : State}

/-! ## Temperature (19 R704) -/

theorem exec_tempWarn (h : s.boot.rstN = false) (temp : BitVec 8) :
    exec (.tempWarn temp) s = .next (s.after (s.tempWarn temp)) :=
  congrArg _ (State.run_eq (·.tempWarn temp) h)

theorem exec_tempTrip (h : s.boot.rstN = false) (temp : BitVec 8) :
    exec (.tempTrip temp) s = .next (s.after (s.tempTrip temp)) :=
  congrArg _ (State.run_eq (·.tempTrip temp) h)

theorem State.tempWarn_below {temp : BitVec 8} (h : temp.toNat < s.fget F.SAF_CTL_TWARN + 64) :
    s.tempWarn temp = s.fset F.SAF_STATUS_TEMP temp.toNat :=
  if_neg (Nat.not_le.mpr h)

theorem State.tempWarn_reached {temp : BitVec 8} (h : s.fget F.SAF_CTL_TWARN + 64 ≤ temp.toNat) :
    s.tempWarn temp = (s.fset F.SAF_STATUS_TEMP temp.toNat).raiseSafety 3 :=
  if_pos h

theorem State.tempTrip_below {temp : BitVec 8} (h : temp.toNat < 199) :
    s.tempTrip temp = s.fset F.SAF_STATUS_TEMP temp.toNat :=
  if_neg (Nat.not_le.mpr h)

theorem State.tempTrip_reached {temp : BitVec 8} (h : 199 ≤ temp.toNat) :
    s.tempTrip temp = ((s.fset F.SAF_STATUS_TEMP temp.toNat).setFlag F.SAF_FAULT_ENV true).safeCause 0x2C unitChip :=
  if_pos h

/-- To record the reading and set SAF_FAULT.ENV is not yet to enter the safe state. -/
theorem State.isSafe_tempTripped (h : s.isSafe = false) (temp : BitVec 8) :
    ((s.fset F.SAF_STATUS_TEMP temp.toNat).setFlag F.SAF_FAULT_ENV true).isSafe = false := by
  rw [State.setFlag, State.isSafe_fset _ _ _ _ (by decide), State.isSafe_fset _ _ _ _ (by decide)]
  exact h

/-! ## Supplies (19 R705, 22 R778) -/

theorem exec_supplyFault (h : s.boot.rstN = false) (sup : Supply) :
    exec (.supplyFault sup) s = .next (s.after (s.supplyFault sup)) :=
  congrArg _ (State.run_eq (·.supplyFault sup) h)

theorem exec_vddPhyReturn (h : s.boot.rstN = false) : exec .vddPhyReturn s = .next (s.after s.phyReturn) :=
  congrArg _ (State.run_eq State.phyReturn h)

theorem State.supplyFault_other {sup : Supply} (h : sup ≠ .phy) :
    s.supplyFault sup = (s.setFlag F.SAF_FAULT_ENV true).safeCause 0x2D unitChip :=
  if_neg h

theorem State.supplyFault_phy : s.supplyFault .phy = forUp (fun p u => u.portDown p) 0 12
    (((s.setFlag F.SAF_FAULT_ENV true).safeCause 0x2D unitChip).modBoot (fun b => { b with phyOut := true })) := by
  simp only [State.supplyFault, if_true]

theorem State.phyReturn_out (h : s.boot.phyOut = true) : s.phyReturn = forUp (fun p u => u.startPortReset p) 0 12
    (s.modBoot (fun b => { b with phyOut := false, trainBy := s.now + msec 10 })) :=
  if_neg (by simp [h])

/-! ## The reference clock (18 R666) -/

theorem exec_refclkLoss (h : s.boot.rstN = false) : exec .refclkLoss s = .next (s.after s.refLoss) :=
  congrArg _ (State.run_eq State.refLoss h)

theorem exec_refclkReturn (h : s.boot.rstN = false) : exec .refclkReturn s = .next (s.after s.refReturn) :=
  congrArg _ (State.run_eq State.refReturn h)

/-- The timebase on its backup clock: the loss marked, and in holdover. -/
def State.onBackup (s : State) : State :=
  ((s.setFlag F.TIM_STATUS_BACKUP true).setFlag F.TIM_STATUS_REF_LOST true).holdover

/-- The loss of the reference clock reported, before the ports go down: error cause 0x2E and safety source 1. -/
def State.refLossReported (s : State) : State := (s.onBackup.corrected 0x2E unitChip none none).raiseSafety 1

theorem State.refLoss_running (h : s.flag F.TIM_STATUS_BACKUP = false) :
    s.refLoss = forUp (fun p u => u.portDown p) 0 12 s.refLossReported :=
  if_neg (by simp [h])

theorem State.refReturn_backup (h : s.flag F.TIM_STATUS_BACKUP = true) :
    s.refReturn = forUp (fun p u => u.startPortReset p) 0 12 (s.setFlag F.TIM_STATUS_BACKUP false) :=
  if_pos h

theorem State.onBackup_backup (s : State) : s.onBackup.flag F.TIM_STATUS_BACKUP = true := by
  rw [State.flag, State.onBackup, State.holdover_fget _ (by decide) (by decide),
    State.fget_setFlag_other _ _ _ _ _ _ _ _ (by decide) (by decide), State.fget_setFlag_same _ _ _ _ _ (by decide) (by decide)]
  rfl

theorem State.onBackup_refLost (s : State) : s.onBackup.flag F.TIM_STATUS_REF_LOST = true := by
  rw [State.flag, State.onBackup, State.holdover_fget _ (by decide) (by decide),
    State.fget_setFlag_same _ _ _ _ _ (by decide) (by decide)]
  rfl

/-- Outside BACKUP, REF_LOST and LOCKED the registers are those before the loss. -/
theorem State.onBackup_fget (s : State) {g : Fld} {i j : Nat}
    (h : Fld.allApart [F.TIM_STATUS_BACKUP, F.TIM_STATUS_REF_LOST, F.TIM_STATUS_LOCKED] (g.addr i j) g.lsb g.wid = true)
    (hg : g.lsb + g.wid ≤ 32) : s.onBackup.fget g i j = s.fget g i j := by
  rw [State.onBackup, State.holdover_fget _ (Fld.allApart_mem h (f := F.TIM_STATUS_LOCKED) (by simp)) hg, State.setFlag,
    State.fget_fset_apart _ _ _ _ _ _ (Fld.allApart_mem h (f := F.TIM_STATUS_REF_LOST) (by simp)) hg, State.setFlag,
    State.fget_fset_apart _ _ _ _ _ _ (Fld.allApart_mem h (f := F.TIM_STATUS_BACKUP) (by simp)) hg]

/-- Beyond the counts of the report the registers are those of the timebase on its backup clock. -/
theorem State.refLossReported_fget (s : State) {g : Fld} {i j : Nat}
    (h : Fld.allApart [F.SAF_CNT0_CORR, F.SAF_LOG_STAT_DROPPED, F.EVG_DROP_FULL] (g.addr i j) g.lsb g.wid = true)
    (hg : g.lsb + g.wid ≤ 32) : s.refLossReported.fget g i j = s.onBackup.fget g i j := by
  have hdrop := Fld.allApart_mem h (f := F.EVG_DROP_FULL) (by simp)
  rw [State.refLossReported, State.raiseSafety_fget _ _ _ _ _ (by simp [Fld.allApart, hdrop]) hg,
    State.corrected_fget _ _ _ _ _ _ _ _ h hg]

theorem State.refLossReported_flag (s : State) {g : Fld}
    (h : Fld.allApart [F.SAF_CNT0_CORR, F.SAF_LOG_STAT_DROPPED, F.EVG_DROP_FULL] (g.addr 0 0) g.lsb g.wid = true)
    (hg : g.lsb + g.wid ≤ 32) : s.refLossReported.flag g = s.onBackup.flag g :=
  congrArg (· != 0) (s.refLossReported_fget h hg)

theorem State.refLossReported_slew (s : State) : s.refLossReported.tb.slew = 0 := by
  simp [State.refLossReported, State.onBackup, State.holdover]

theorem State.refLossReported_trim (s : State) : s.refLossReported.fget F.TIM_TRIM_PPB = s.fget F.TIM_TRIM_PPB := by
  rw [State.refLossReported_fget _ (by decide) (by decide), State.onBackup_fget _ (by decide) (by decide)]

theorem State.refLossReported_count (s : State) :
    s.refLossReported.fget F.SAF_CNT0_CORR = min (s.fget F.SAF_CNT0_CORR + 1) 0x7FFF := by
  rw [State.refLossReported, State.raiseSafety_fget _ _ _ _ _ (by decide) (by decide), State.corrected_count,
    State.onBackup_fget _ (by decide) (by decide)]

end

end Sys2Proof.Machine
end

section
/-! The statement about temperature, supplies and the reference clock (18 R661, R666; 19 R704, R705; 22 R778). -/
namespace Sys2Proof.Machine

/-- Settles O10: a reading is recorded and at its limit raises source 3 or enters the safe state, a supply fault enters it, and the
supply of the ports and the reference clock take the ports down and reset them, each by the equation of its case. -/
theorem environment : Obligations.Environment := by
  unfold Obligations.Environment
  intro s hrst
  refine ⟨fun temp hlow => ?warnBelow, fun temp hhigh => ?warn, fun temp hhigh => ?trip, fun temp hlow => ?tripBelow,
    fun sup hsup => ?supply, ⟨_, rfl, ?supplyPhy⟩, fun hout => ?phyReturn, fun hrun => ?loss, fun hback => ?refReturn⟩
  case warnBelow => rw [exec_tempWarn hrst, State.tempWarn_below hlow]
  case warn => rw [exec_tempWarn hrst, State.tempWarn_reached hhigh]
  case trip =>
    exact ⟨_, by rw [exec_tempTrip hrst, State.tempTrip_reached hhigh], rfl,
      fun hsafe => State.safeCause_enters (State.isSafe_tempTripped hsafe temp) _ _⟩
  case tripBelow => rw [exec_tempTrip hrst, State.tempTrip_below hlow]
  case supply => rw [exec_supplyFault hrst, State.supplyFault_other hsup]
  case supplyPhy =>
    rw [exec_supplyFault hrst, State.supplyFault_phy]
    rfl
  case phyReturn =>
    rw [exec_vddPhyReturn hrst, State.phyReturn_out hout]
    rfl
  case loss =>
    refine ⟨s.refLossReported, ?_, ?_, ?_, s.refLossReported_slew, s.refLossReported_trim, s.refLossReported_count, ?_⟩
    · rw [State.refLossReported_flag _ (by decide) (by decide), State.onBackup_backup]
    · rw [State.refLossReported_flag _ (by decide) (by decide), State.onBackup_refLost]
    · rw [State.refLossReported_flag _ (by decide) (by decide)]
      exact State.holdover_locked _
    · rw [exec_refclkLoss hrst, State.refLoss_running hrun]
  case refReturn => rw [exec_refclkReturn hrst, State.refReturn_backup hback]

end Sys2Proof.Machine
end

section
/-!
SUPPORT. Every command ends in a next state and keeps what `Keeps` says: the commands by the shape of their meaning, each by the
law of its operation.
-/
namespace Sys2Proof.Machine

section
variable (s : State) {f : State → State}

theorem run_ends (hf : ∀ u, Keeps s u → Keeps s (f u)) :
    ∃ t, (.next (s.run f) : Host.Outcome State Fault Refusal) = .next t ∧ Keeps s t :=
  ⟨_, rfl, State.run_keeps (.refl s) hf⟩

theorem act_ends (hf : ∀ u, Keeps s u → Keeps s (f u)) :
    ∃ t, (.next (s.act f) : Host.Outcome State Fault Refusal) = .next t ∧ Keeps s t :=
  ⟨_, rfl, State.act_keeps (.refl s) hf⟩

theorem pin_ends (hf : ∀ u, Keeps s u → Keeps s (f u)) :
    ∃ t, (.next (s.pin f) : Host.Outcome State Fault Refusal) = .next t ∧ Keeps s t :=
  ⟨_, rfl, State.pin_keeps (.refl s) hf⟩

theorem message_ends {p : Nat} {m : Msg} {op : BitVec 8} {g : Msg → State → State} (hg : ∀ n u, Keeps s u → Keeps s (g n u)) :
    ∃ t, (.next (s.message p m op g) : Host.Outcome State Fault Refusal) = .next t ∧ Keeps s t :=
  ⟨_, rfl, State.message_keeps (.refl s) hg⟩

end

theorem exec_keeps (c : Instr) (s : State) : ∃ t, exec c s = .next t ∧ Keeps s t := by
  cases c
  case coldReset => exact ⟨_, rfl, State.coldReset_keeps (.refl s)⟩
  case rstNDeassert => exact ⟨_, rfl, State.rstNDeassert_keeps (.refl s)⟩
  case bootFuse => exact run_ends s fun _ h => State.bootFuse_keeps h
  case bootRom => exact run_ends s fun _ h => State.bootRom_keeps h
  case spiImageFetch => exact run_ends s fun _ h => State.spiFetch_keeps h
  case bootIcmdStart | bootIdataWrite | bootIcmdLoad | glbRstWarm | glbRstUmevo | unlkNonce | unlkDataWrite |
      unlkVerify | fuseRevoke | hcDisableRequest | hcEnableRequest | hcmMopClean | hcmMopCleanInv | hcmMopInvClean |
      hcmRngClean | hcmRngCleanInv | hcmRngInvClean | migStart | migLimitWrite | lossLogNext | hprobeGo |
      tenantResetGo | stgAlloc | stgFree | stgLoad | cwdKeyA | cwdKeyB | cwdCtlWrite | swdService | timSetGo |
      safCmdEnter | safLogNext | jigDisarmAll | registerWrite => exact ⟨_, rfl, State.command_keeps (.refl s)⟩
  case bootAuth => exact run_ends s fun _ h => State.bootAuth_keeps h
  case bootInit => exact run_ends s fun _ h => State.bootInit_keeps h
  case bootTrainEnd => exact run_ends s fun _ h => State.bootTrainEnd_keeps h
  case wrstNAssert => exact pin_ends s fun _ h => State.wrstAssert_keeps h
  case warmResetFlushEnd => exact run_ends s fun _ h => State.warmFlushEnd_keeps h
  case wrstNDeassert => exact ⟨_, rfl, State.wrstDeassert_keeps (.refl s)⟩
  case unlkVerifyDone => exact run_ends s fun _ h => State.unlkDone_keeps h
  case testEnAssert => exact pin_ends s fun _ h => State.testEnAssert_keeps h
  case supplyFault => exact run_ends s fun _ h => State.supplyFault_keeps h
  case vddPhyReturn => exact run_ends s fun _ h => State.phyReturn_keeps h
  case tempWarn => exact run_ends s fun _ h => State.tempWarn_keeps h
  case tempTrip => exact run_ends s fun _ h => State.tempTrip_keeps h
  case refclkLoss => exact run_ends s fun _ h => State.refLoss_keeps h
  case refclkReturn => exact run_ends s fun _ h => State.refReturn_keeps h
  case llPayloadRx | llIdleRx | llNakRx | llInitRx | llDownNoticeRx => exact ⟨_, rfl, State.flitOf_keeps (.refl s)⟩
  case llDrainDone => exact run_ends s fun _ h => State.atPort_keeps h fun _ h => State.drained_keeps h
  case llAckDelayExpiry => exact run_ends s fun _ h => State.atPort_keeps h fun _ h => State.ackDelayEnd_keeps h
  case llNakResend => exact run_ends s fun _ h => State.atPort_keeps h fun _ h => State.nakAgain_keeps h
  case llReplayTimeout => exact run_ends s fun _ h => State.atPort_keeps h fun _ h => State.replayEnd_keeps h
  case uciePhyRetrain => exact run_ends s fun _ h => State.atPort_keeps h fun _ h => State.retrainCmd_keeps h
  case llRetrainCmd | portReset => exact ⟨_, rfl, State.atPort_keeps (.refl s) fun _ h => State.commandBit_keeps h⟩
  case ucieRetrainDone => exact run_ends s fun _ h => State.atPort_keeps h fun _ h => State.retrained_keeps h
  case llRetrainTimeout => exact run_ends s fun _ h => State.atPort_keeps h fun _ h => State.retrainEnd_keeps h
  case ucieTrainDone => exact run_ends s fun _ h => State.atPort_keeps h fun _ h => State.trained_keeps h
  case ucieTrainFail => exact run_ends s fun _ h => State.atPort_keeps h fun _ h => .ite (State.trainFail_keeps h) h
  case llLinkResetTimeout => exact run_ends s fun _ h => State.atPort_keeps h fun _ h => State.linkResetTimeout_keeps h
  case ucieLowPowerRequest | vendorSidebandRx => exact act_ends s fun _ h => h
  case messageForward | unexpectedMessage => exact ⟨_, rfl, State.rejected_keeps (.refl s)⟩
  case rdShared | rdUnique | rdOnce | rdNoSnp | cleanUnique | makeUnique | evictClean | wrBackFull | wrUnique |
      wrPosted | wrNt | wrNoSnp | reserveRd | condWr | atomicFar | gatherRd | gatherRdFf | scatterWr | scatterWrFf |
      fenceW | fenceFull | clampAlloc | clampFree | lockAcq | lockRel | barrierArrive | clampSetPrio =>
    exact ⟨_, rfl, State.requestOf_keeps (.refl s)⟩
  case gatherScatterComplete => exact run_ends s fun _ h => State.atSlice_keeps h fun _ h => State.gatherEnd_keeps h
  case fenceFullComp => exact run_ends s fun _ h => State.atPort_keeps h fun _ h => State.fenceFullEnd_keeps h
  case postedWriteCommit => exact run_ends s fun _ h => State.atPort_keeps h fun _ h => State.postedCommit_keeps h
  case clampIngressRetry => exact run_ends s fun _ h => .ite (State.clampRetry_keeps h) h
  case snpRsp | snpRspData => exact message_ends s fun _ _ h => State.snoopAnswer_keeps h
  case compAck | settle => exact message_ends s fun _ _ h => State.followOn_keeps h
  case ingressRetry => exact run_ends s fun _ h => State.atSlice_keeps h fun _ h => State.ingressRetry_keeps h
  case memData => exact message_ends s fun _ _ h => State.memData_keeps h
  case memCancelled => exact message_ends s fun _ _ h => State.memCancelled_keeps h
  case memWrAck => exact message_ends s fun _ _ h => State.memWrAck_keeps h
  case memOfferRsp => exact message_ends s fun _ _ h => State.memOfferRsp_keeps h
  case censusRsp => exact message_ends s fun _ _ h => State.censusRsp_keeps h
  case seizeAck => exact message_ends s fun _ _ h => State.seizeAck_keeps h
  case rcvInvRsp => exact message_ends s fun _ _ h => State.rcvInvRsp_keeps h
  case regRd | regWr => exact message_ends s fun _ _ h => State.mgtAccess_keeps h
  case intAck => exact message_ends s fun _ _ h => State.intAck_keeps h
  case idleHint => exact message_ends s fun _ _ h => State.idleHint_keeps h
  case latencyTolerance => exact message_ends s fun _ _ h => State.latencyTol_keeps h
  case latencyAckAfterWake => exact run_ends s fun _ h => State.latencyAck_keeps h
  case timesyncRequestRx | timesyncResponseRx => exact message_ends s fun _ _ h => State.timeSync_keeps h
  case timesyncInterval => exact run_ends s fun _ h => State.syncInterval_keeps h
  case snoopTimeoutOwner => exact run_ends s fun _ h => State.atSlice_keeps h fun _ h => State.ownerTimeout_keeps h
  case snoopTimeoutSharer => exact run_ends s fun _ h => State.atSlice_keeps h fun _ h => State.sharerTimeout_keeps h
  case censusSnoopTimeout => exact run_ends s fun _ h => State.atSlice_keeps h fun _ h => State.censusTimeout_keeps h
  case recallCopyTimeout => exact run_ends s fun _ h => State.atSlice_keeps h fun _ h => State.recallTimeout_keeps h
  case settleTimeout => exact run_ends s fun _ h => State.atSlice_keeps h fun _ h => State.settleTimeout_keeps h
  case seizeCloseTimeout => exact run_ends s fun _ h => State.atSlice_keeps h fun _ h => State.seizeClose_keeps h
  case compAckTimeout => exact run_ends s fun _ h => State.atSlice_keeps h fun _ h => State.compAckTimeout_keeps h
  case memrdTimeout => exact run_ends s fun _ h => State.atSlice_keeps h fun _ h => State.memRdTimeout_keeps h
  case memwrTimeout => exact run_ends s fun _ h => State.atSlice_keeps h fun _ h => State.memWrTimeout_keeps h
  case memOfferTimeout => exact run_ends s fun _ h => State.atSlice_keeps h fun _ h => State.offerTimeout_keeps h
  case companionFill => exact run_ends s fun _ h => State.atSlice_keeps h fun _ h => State.companionAct_keeps h
  case companionFillTimeout => exact run_ends s fun _ h => State.atSlice_keeps h fun _ h => State.companionTimeout_keeps h
  case windowEntryExpiry => exact run_ends s fun _ h => .ite (State.winExpire_keeps h) h
  case rsvHoldTimeout => exact run_ends s fun _ h => State.atSlice_keeps h fun _ h => State.holdTimeout_keeps h
  case cwbTimeout => exact run_ends s fun _ h => State.atPort_keeps h fun _ h => State.cwbTimeout_keeps h
  case sfScrubPass => exact run_ends s fun _ h => State.atSlice_keeps h fun _ h => State.sfScrubPass_keeps h
  case hcScrubPass => exact run_ends s fun _ h => State.atSlice_keeps h fun _ h => State.hcScrubPass_keeps h
  case sfRdselGo | sfLooseClear | clampBreak | clampHselGo =>
    exact ⟨_, rfl, State.atSlice_keeps (.refl s) fun _ h => State.command_keeps h⟩
  case hcDrainComplete => exact run_ends s fun _ h => State.hcDrainComplete_keeps h
  case hcmRngAbort | migAbort => exact ⟨_, rfl, State.commandBit_keeps (.refl s)⟩
  case rangeEngineSet => exact run_ends s fun _ h => State.atSlice_keeps h fun _ h => .ite (State.rangeSet_keeps h) h
  case sliceFault => exact run_ends s fun _ h => State.atSlice_keeps h fun _ h => State.react_keeps h
  case hcScanoutDone => exact run_ends s fun _ h => State.atSlice_keeps h fun _ h => State.hcScanDone_keeps h
  case sfScanoutDone => exact run_ends s fun _ h => State.atSlice_keeps h fun _ h => State.sfScanDone_keeps h
  case scanoutStall => exact run_ends s fun _ h => State.atSlice_keeps h fun _ h => State.scanStall_keeps h
  case evictionHoldEnd => exact run_ends s fun _ h => State.atSlice_keeps h fun _ h => State.evictHoldEnd_keeps h
  case censusSetStart => exact run_ends s fun _ h => State.atSlice_keeps h fun _ h => State.censusStart_keeps h
  case migAutoStart => exact run_ends s fun _ h => State.atSlice_keeps h fun _ h => State.migAuto_keeps h
  case migCopyUnit => exact run_ends s fun _ h => State.migCopy_keeps h
  case migHandoverComplete => exact run_ends s fun _ h => State.migHandover_keeps h
  case replaceRequestPeriodic => exact run_ends s fun _ h => State.replacePeriodic_keeps h
  case dmonStart | dmonClrMin => exact ⟨_, rfl, State.atSlice_keeps (.refl s) fun _ h => State.commandBit_keeps h⟩
  case dmonAutoDue => exact run_ends s fun _ h => State.atSlice_keeps h fun _ h => State.dmonAutoDue_keeps h
  case dmonMeasureEnd => exact run_ends s fun _ h => State.atSlice_keeps h fun _ h => State.dmonEnd_keeps h
  case ageingDue => exact run_ends s fun _ h => State.atSlice_keeps h fun _ h => State.ageingDue_keeps h
  case ageingEnd => exact run_ends s fun _ h => State.atSlice_keeps h fun _ h => State.ageingEnd_keeps h
  case hprobeDone => exact run_ends s fun _ h => State.hprobeDone_keeps h
  case tenantDrain => exact run_ends s fun _ h => State.tenantDrain_keeps h
  case tenantInvalidate => exact run_ends s fun _ h => State.tenantInvalidate_keeps h
  case tenantClean => exact run_ends s fun _ h => State.tenantClean_keeps h
  case tenantRevoke => exact run_ends s fun _ h => State.tenantRevoke_keeps h
  case tenantClear => exact run_ends s fun _ h => State.tenantClear_keeps h
  case tenantStepEnd => exact run_ends s fun _ h => State.tenantStepEnd_keeps h
  case stgDataAccess => exact ⟨_, rfl, State.stgAccess_keeps (.refl s)⟩
  case overlayValidated => exact run_ends s fun _ h => State.overlayValidated_keeps h
  case eventTaken => exact run_ends s fun _ h => State.takeEvent_keeps h
  case vectorCoalTimeout => exact run_ends s fun _ h => .ite (State.coalTimeout_keeps h) h
  case interruptResend => exact run_ends s fun _ h => .ite (State.evgResend_keeps h) h
  case evgAck | evgFlush | evgVcoalWrite => exact ⟨_, rfl, State.vecCommand_keeps (.refl s) fun _ h => State.command_keeps h⟩
  case evgRetain => exact run_ends s fun _ h => State.evgRetain_keeps h
  case evgWake => exact run_ends s fun _ h => State.evgAwake_keeps h
  case cwdRejectedWrite | jigArm | jigDisarm => exact ⟨_, rfl, .ite (State.command_keeps (.refl s)) (.refl s)⟩
  case cwdExpiry => exact run_ends s fun _ h => State.cwdExpiry_keeps h
  case healthyIntervalEnd => exact run_ends s fun _ h => State.healthyEnd_keeps h
  case swdExpiry => exact run_ends s fun _ h => State.swdExpiry_keeps h
  case swdHardTimerEnd => exact run_ends s fun _ h => State.swdHardEnd_keeps h
  case timNowRead => exact act_ends s fun _ h => State.access_keeps h fun _ h => State.regRead_keeps h
  case ppsEdge => exact run_ends s fun _ h => State.ppsEdge_keeps h
  case ppsMiss => exact run_ends s fun _ h => State.ppsMiss_keeps h
  case sliceIdleTimeout => exact run_ends s fun _ h => State.atSlice_keeps h fun _ h => State.idleTimeout_keeps h
  case powerEntryDone => exact run_ends s fun _ h => State.atSlice_keeps h fun _ h => State.entryDone_keeps h
  case sliceExitDone => exact run_ends s fun _ h => State.atSlice_keeps h fun _ h => State.exitDone_keeps h
  case voltageEvaluation => exact run_ends s fun _ h => State.voltageEval_keeps h
  case stallDetected => exact run_ends s fun _ h => State.stall_keeps h
  case comparatorMismatch => exact run_ends s fun _ h => State.comparator_keeps h
  case trackerAgeExceeded => exact run_ends s fun _ h => State.atSlice_keeps h fun _ h => State.trackerAge_keeps h
  case latentTest => exact run_ends s fun _ h => State.latentTest_keeps h
  case pinReadbackMismatch => exact run_ends s fun _ h => State.pinMismatch_keeps h
  case jigReorderTimeout => exact run_ends s fun _ h => State.atPort_keeps h fun _ h => State.reorderEnd_keeps h
  case i3cPrivateWrite => exact act_ends s fun _ h => State.i3cWrite_keeps h
  case i3cPrivateRead => exact act_ends s fun _ h => State.i3cRead_keeps h
  case entdaa => exact act_ends s fun _ h => State.entDaa_keeps h
  case setdasa => exact act_ends s fun _ h => State.setDasa_keeps h
  case setnewda => exact act_ends s fun _ h => State.setNewDa_keeps h
  case rstdaa => exact act_ends s fun _ h => State.rstDaa_keeps h
  case getpid => exact act_ends s fun _ h => State.getPid_keeps h
  case getbcr | getdcr => exact act_ends s fun _ h => State.getCcc_keeps h
  case getstatus => exact act_ends s fun _ h => State.getStatus_keeps h
  case enec | disec => exact act_ends s fun _ h => State.evCcc_keeps h
  case jtagExtest => exact ⟨_, rfl, State.extest_keeps (.refl s)⟩
  case jtagSamplePreload => exact ⟨_, rfl, State.samplePreload_keeps (.refl s)⟩
  case jtagIdcode | trstNAssert => exact ⟨_, rfl, State.tap_keeps (.refl s)⟩
  case jtagClamp | jtagHighz => exact ⟨_, rfl, State.drivePins_keeps (.refl s)⟩
  case umvHalt => exact pin_ends s fun _ h => State.tapHalt_keeps h
  case umvResume => exact pin_ends s fun _ h => State.tapResume_keeps h
  case umvMem => exact pin_ends s fun _ h => State.umvMem_keeps h
  case jtagBypass => exact ⟨_, rfl, .ite (.refl s) (State.bypass_keeps (.refl s))⟩
  case flitClock => exact run_ends s fun _ h => State.atPort_keeps h fun _ h => State.flitClock_keeps h
  case ucieSidebandRegAccess => exact act_ends s fun _ h => State.atPort_keeps h fun _ h => State.sidebandAccess_keeps h
  case testEnDeassert => exact ⟨_, rfl, State.testEnDeassert_keeps (.refl s)⟩
  case hcScanoutTimeout => exact run_ends s fun _ h => State.atSlice_keeps h fun _ h => State.hcScanTimeout_keeps h
  case sfEntryReadDone => exact run_ends s fun _ h => State.atSlice_keeps h fun _ h => State.sfRdDone_keeps h
  case clampEntryReadDone => exact run_ends s fun _ h => State.atSlice_keeps h fun _ h => State.hselDone_keeps h
  case umevoSramError => exact run_ends s fun _ h => State.umvSramError_keeps h
  case unlistedCcc => exact act_ends s fun _ h => State.otherCcc_keeps h
  case hdrExitPattern => exact act_ends s fun _ h => State.hdrExit_keeps h

/-- A step keeps what its command, or the clock period, keeps of the state without the command. -/
theorem step_keeps {s t : State} (h : step s = .next t) : Keeps { s with pending := s.pending.tail } t := by
  cases hq : s.pending with
  | nil =>
    have ht : s.tick = t := by simpa [step, hq] using h
    have hs : ({ s with pending := s.pending.tail } : State) = s := by rw [hq, List.tail_nil, ← hq]
    rw [← hq, hs, ← ht]
    exact tick_keeps (.refl s)
  | cons c rest =>
    obtain ⟨u, hu, hk⟩ := exec_keeps c { s with pending := rest }
    have ht : u = t := by simpa [step, hq, hu] using h
    exact ht ▸ hk

end Sys2Proof.Machine
end

section
/-! The statements about what every command and every step keeps. -/
namespace Sys2Proof.Machine

/-- Settles O55: each command ends in a next state, and keeps the queue among the rest of `Keeps`. -/
theorem everyCommandEnds : Obligations.EveryCommandEnds := by
  intro c s
  obtain ⟨t, ht, hk⟩ := exec_keeps c s
  exact ⟨t, ht, hk.pending⟩

/-- Settles O56, by the law of each command: it writes each array by the operations that keep its canonical form. -/
theorem arraysStayCanonical : Obligations.ArraysStayCanonical := by
  intro s t hs h
  obtain ⟨h1, h2, h3, h4, h5, h6, h7, h8, h9, h10, h11, h12⟩ := hs
  exact (step_keeps h).arrays ⟨h1, h2, h3, h4, h5, h6, h7, h8, h9, h10, h11, h12⟩

/-- Settles O57: the queue holds no register, and each command keeps the hard-wired ones. -/
theorem identityStays : Obligations.IdentityStays :=
  fun _ _ hs h => (step_keeps h).ids hs

/-- Settles O58: each command keeps the rule of SAFE_N and the legal lifecycle states. -/
theorem safePinRuleStays : Obligations.SafePinRuleStays :=
  fun _ _ h => ⟨(step_keeps h).pin, (step_keeps h).lc⟩

/-- Settles O59: each command keeps the bounds of the two logs and of the event queues. -/
theorem capacitiesHold : Obligations.CapacitiesHold :=
  fun _ _ h => ⟨(step_keeps h).log, (step_keeps h).loss, (step_keeps h).queues⟩

end Sys2Proof.Machine
end

section
/-! The statements about a step and about the state after reset. -/
namespace Sys2Proof.Machine

/-- Settles O53: a step is defined by the front of the queue, and a clock period without trim and slew is 2.5 ns. -/
theorem stepRunsFront : Obligations.StepRunsFront := by
  refine ⟨fun _ _ _ => rfl, fun s hq => ⟨by simp [step, hq], fun hrst => by simp [State.tick, hrst], fun hrst hslew htrim => ?_⟩⟩
  have htb : { s.tb with slew := 0 } = s.tb := by rw [← hslew]
  simp [State.tick, hrst, hslew, htrim, htb]

/-- Settles O54: no register has been written and every array is empty, so each reads its reset value. -/
theorem resetState : Obligations.ResetState := by
  have hids : State.reset.idsHold := by unfold State.idsHold; decide +kernel
  have harrays : State.reset.ArraysWf :=
    ⟨.nil _, .nil _, .nil _, .nil _, .nil _, .nil _, .nil _, .nil _, .nil _, .nil _, .nil _, .nil _⟩
  have hpin : State.reset.pinRule := fun h => Bool.noConfusion h
  have hlc : State.reset.lcLegal := ⟨.nil _, by decide +kernel⟩
  have hqueues : State.reset.queuesFit := fun _ he => absurd he List.not_mem_nil
  exact ⟨fun _ => rfl, rfl, rfl, rfl, rfl, rfl, by decide +kernel, hids, harrays, hpin, hlc, hqueues⟩

end Sys2Proof.Machine
end

section
/-!
SUPPORT. While RST_N is asserted (15 R576) a command has no effect, but for the levels of the pins and the registers of the TAP.
-/
namespace Sys2Proof.Machine

/-- From `s` to `t` nothing has moved but the pins and the TAP, and the count of the free values that they take. -/
def State.PinsOnly (s t : State) : Prop := t = { s with fresh := t.fresh, boot := t.boot } ∧ t.boot.rstN = s.boot.rstN

theorem State.PinsOnly.refl (s : State) : s.PinsOnly s := ⟨rfl, rfl⟩

theorem State.PinsOnly.fget {s t : State} (h : s.PinsOnly t) (g : Fld) (i j : Nat) : t.fget g i j = s.fget g i j := by
  rw [h.1]
  rfl

theorem State.PinsOnly.port {s t : State} (h : s.PinsOnly t) (p : Nat) : t.port p = s.port p := by
  rw [h.1]
  rfl

theorem State.PinsOnly.lsl {s t : State} (h : s.PinsOnly t) (l : Nat) : t.lsl l = s.lsl l := by
  rw [h.1]
  rfl

/-- What leaves a state alone for every number leaves it alone when repeated. -/
theorem forUp_fixed {σ : Type} {f : Nat → σ → σ} {s : σ} (h : ∀ k, f k s = s) (n i : Nat) : forUp f i n s = s := by
  induction n generalizing i with
  | zero => rfl
  | succ n ih => rw [forUp, h, ih]

section
variable {s t : State}

/-- A move of the pins alone is nothing that Umevo logs. -/
theorem State.PinsOnly.logAll (h : s.PinsOnly t) : s.logAll t = t := by
  have hports : s.logPorts t = t := forUp_fixed (fun p => by simp [h.fget, h.port]) _ _
  have hslices : s.logSlices t = t := by
    unfold State.logSlices
    dsimp only
    rw [forUp_fixed (s := t) ?fenced, forUp_fixed (s := t) ?census, forUp_fixed (s := t) ?seized]
    case fenced => exact fun k => by simp [h.fget]
    case census => exact fun l => by simp [h.lsl]
    case seized => exact fun k => by simp [h.fget]
  have hmig : s.logMig t = t := if_pos (h.fget _ _ _).symm
  rw [State.logAll, hports, hslices, hmig, ite_self]

/-- Nothing follows from it either, while RST_N is asserted. -/
theorem State.PinsOnly.after (h : s.PinsOnly t) (hrst : s.boot.rstN = true) (hdue : s.due = []) : s.logAll t.settle = t := by
  have hidle : t.settle = t := State.settle_idle (by rw [h.1]; exact hdue) (by simp [State.serving, h.2, hrst])
  rw [hidle, h.logAll]

end

theorem holds {s x : State} (h : x = s) : ∃ t, (.next x : Host.Outcome State Fault Refusal) = .next t ∧ s.PinsOnly t :=
  ⟨s, congrArg _ h, .refl s⟩

theorem ite_holds {s x : State} {c : Prop} [Decidable c] (h : x = s) :
    ∃ t, (.next (if c then x else s) : Host.Outcome State Fault Refusal) = .next t ∧ s.PinsOnly t :=
  holds (by rw [h, ite_self])

section
variable {s : State} (hrst : s.boot.rstN = true) {f : State → State}
include hrst

theorem run_holds : ∃ t, (.next (s.run f) : Host.Outcome State Fault Refusal) = .next t ∧ s.PinsOnly t :=
  ⟨s, congrArg _ (State.run_asserted f hrst), .refl s⟩

theorem State.command_asserted {who : Party} {a : Nat} {v : Word} : s.command who a v = s :=
  State.run_asserted _ hrst

theorem State.message_asserted {p : Nat} {m : Msg} {op : BitVec 8} {g : Msg → State → State} : s.message p m op g = s := by
  simp only [State.message, State.run_asserted _ hrst]

theorem State.stgAccess_asserted {who : Party} {t : Tenant} {wr : Option Word} : s.stgAccess who t wr = s := by
  cases wr with
  | none => simp only [State.stgAccess, State.run_asserted _ hrst]
  | some v => simp only [State.stgAccess, State.command_asserted hrst]

theorem act_holds : ∃ t, (.next (s.act f) : Host.Outcome State Fault Refusal) = .next t ∧ s.PinsOnly t :=
  ⟨s, congrArg _ (if_pos hrst), .refl s⟩

/-- At a pin, and with no reaction due, what moves is what the effect moves. -/
theorem pin_holds (hdue : s.due = []) (h : s.PinsOnly (f s)) :
    ∃ t, (.next (s.pin f) : Host.Outcome State Fault Refusal) = .next t ∧ s.PinsOnly t :=
  ⟨_, congrArg _ (h.after hrst hdue), h⟩

theorem State.warmReset_asserted : s.warmReset = s := by
  simp [State.warmReset, hrst]

theorem State.wrstAssert_asserted : s.PinsOnly s.wrstAssert := by
  unfold State.wrstAssert
  split
  · exact .refl s
  · rw [State.warmReset_asserted (by exact hrst)]
    exact ⟨rfl, rfl⟩

theorem State.testEnAssert_asserted : s.PinsOnly s.testEnAssert := by
  unfold State.testEnAssert
  split
  · exact .refl s
  · rw [State.warmReset_asserted (by exact hrst)]
    exact ⟨rfl, rfl⟩

end

theorem State.tap_pinsOnly (s : State) (ir : BitVec 8) (dr : BitVec 64) : s.PinsOnly (s.tap ir dr) := ⟨rfl, rfl⟩

theorem State.debugOnly_pinsOnly {s : State} (h : s.lifecycle ≠ 1) (f : State → State) : s.PinsOnly (s.debugOnly f) := by
  rw [State.debugOnly, if_neg h]
  exact s.tap_pinsOnly _ _

theorem State.drivePins_pinsOnly (s : State) (code : BitVec 8) : s.PinsOnly (s.drivePins code) := by
  unfold State.drivePins
  split <;> exact s.tap_pinsOnly _ _

theorem State.extest_pinsOnly (s : State) (bits : BitVec 128) : s.PinsOnly (s.extest bits) := by
  unfold State.extest
  split
  · exact ⟨rfl, rfl⟩
  · exact s.tap_pinsOnly _ _

/-- A command while RST_N is asserted and no reaction is due, outside lifecycle state 1. -/
theorem exec_asserted {s : State} (hrst : s.boot.rstN = true) (hdue : s.due = []) (hlc : s.lifecycle ≠ 1) {c : Instr}
    (hcold : c ≠ .coldReset) (hend : ∀ a b, c ≠ .rstNDeassert a b) : ∃ t, exec c s = .next t ∧ s.PinsOnly t := by
  cases c
  case coldReset =>
    exact absurd rfl hcold
  case rstNDeassert =>
    exact absurd rfl (hend _ _)
  case bootFuse | bootRom | spiImageFetch | bootAuth | bootInit | bootTrainEnd | warmResetFlushEnd | unlkVerifyDone |
      supplyFault | vddPhyReturn | tempWarn | tempTrip | refclkLoss | refclkReturn | llDrainDone | llAckDelayExpiry |
      llNakResend | llReplayTimeout | uciePhyRetrain | ucieRetrainDone | llRetrainTimeout | ucieTrainDone |
      ucieTrainFail | llLinkResetTimeout | gatherScatterComplete | fenceFullComp | postedWriteCommit |
      clampIngressRetry | ingressRetry | latencyAckAfterWake | timesyncInterval | snoopTimeoutOwner |
      snoopTimeoutSharer | censusSnoopTimeout | recallCopyTimeout | settleTimeout | seizeCloseTimeout |
      compAckTimeout | memrdTimeout | memwrTimeout | memOfferTimeout | companionFill | companionFillTimeout |
      windowEntryExpiry | rsvHoldTimeout | cwbTimeout | sfScrubPass | hcScrubPass | hcDrainComplete | rangeEngineSet |
      sliceFault | hcScanoutDone | sfScanoutDone | scanoutStall | evictionHoldEnd | censusSetStart | migAutoStart |
      migCopyUnit | migHandoverComplete | replaceRequestPeriodic | dmonAutoDue | dmonMeasureEnd | ageingDue |
      ageingEnd | hprobeDone | tenantDrain | tenantInvalidate | tenantClean | tenantRevoke | tenantClear |
      tenantStepEnd | overlayValidated | eventTaken | vectorCoalTimeout | interruptResend | evgRetain | evgWake |
      cwdExpiry | healthyIntervalEnd | swdExpiry | swdHardTimerEnd | ppsEdge | ppsMiss | sliceIdleTimeout |
      powerEntryDone | sliceExitDone | voltageEvaluation | stallDetected | comparatorMismatch | trackerAgeExceeded |
      latentTest | pinReadbackMismatch | jigReorderTimeout | flitClock | hcScanoutTimeout | sfEntryReadDone |
      clampEntryReadDone | umevoSramError =>
    exact run_holds hrst
  case bootIcmdStart | bootIdataWrite | bootIcmdLoad | glbRstWarm | glbRstUmevo | unlkNonce | unlkDataWrite |
      unlkVerify | fuseRevoke | hcDisableRequest | hcEnableRequest | hcmMopClean | hcmMopCleanInv | hcmMopInvClean |
      hcmRngClean | hcmRngCleanInv | hcmRngInvClean | migStart | migLimitWrite | lossLogNext | hprobeGo |
      tenantResetGo | stgAlloc | stgFree | stgLoad | cwdKeyA | cwdKeyB | cwdCtlWrite | swdService | timSetGo |
      safCmdEnter | safLogNext | jigDisarmAll | registerWrite =>
    exact holds (State.command_asserted hrst)
  case hcmRngAbort | migAbort =>
    exact holds (State.command_asserted hrst)
  case rdShared | rdUnique | rdOnce | rdNoSnp | cleanUnique | makeUnique | evictClean | wrBackFull | wrUnique |
      wrPosted | wrNt | wrNoSnp | reserveRd | condWr | atomicFar | gatherRd | gatherRdFf | scatterWr | scatterWrFf |
      fenceW | fenceFull | clampAlloc | clampFree | lockAcq | lockRel | barrierArrive | clampSetPrio =>
    exact holds (State.message_asserted hrst)
  case snpRsp | snpRspData | compAck | settle | memData | memCancelled | memWrAck | memOfferRsp | censusRsp |
      seizeAck | rcvInvRsp | regRd | regWr | intAck | idleHint | latencyTolerance | timesyncRequestRx |
      timesyncResponseRx =>
    exact holds (State.message_asserted hrst)
  case messageForward | unexpectedMessage =>
    exact holds (State.run_asserted _ hrst)
  case llPayloadRx | llIdleRx | llNakRx | llInitRx | llDownNoticeRx =>
    exact holds (State.run_asserted _ hrst)
  case sfRdselGo | sfLooseClear | clampBreak | clampHselGo | evgAck | evgFlush | evgVcoalWrite | cwdRejectedWrite |
      jigArm | jigDisarm =>
    exact ite_holds (State.command_asserted hrst)
  case llRetrainCmd | portReset | dmonStart | dmonClrMin =>
    exact ite_holds (State.command_asserted hrst)
  case ucieLowPowerRequest | vendorSidebandRx | timNowRead | i3cPrivateWrite | i3cPrivateRead | entdaa | setdasa |
      setnewda | rstdaa | getpid | getbcr | getdcr | getstatus | enec | disec | ucieSidebandRegAccess | unlistedCcc |
      hdrExitPattern =>
    exact act_holds hrst
  case stgDataAccess => exact holds (State.stgAccess_asserted hrst)
  case wrstNAssert =>
    exact pin_holds hrst hdue (State.wrstAssert_asserted hrst)
  case testEnAssert =>
    exact pin_holds hrst hdue (State.testEnAssert_asserted hrst)
  case wrstNDeassert | testEnDeassert | jtagSamplePreload | jtagIdcode | trstNAssert => exact ⟨_, rfl, rfl, rfl⟩
  case jtagExtest bits => exact ⟨_, rfl, s.extest_pinsOnly bits⟩
  case jtagClamp | jtagHighz => exact ⟨_, rfl, s.drivePins_pinsOnly _⟩
  case umvHalt | umvResume | umvMem =>
    exact pin_holds hrst hdue (State.debugOnly_pinsOnly hlc _)
  case jtagBypass code =>
    refine ⟨_, rfl, ?_⟩
    split
    · exact .refl s
    · exact s.tap_pinsOnly _ _

end Sys2Proof.Machine
end

section
/-! The statement about commands while RST_N is asserted. -/
namespace Sys2Proof.Machine

/-- Settles O60: only the pins and the TAP move. -/
theorem resetHolds : Obligations.ResetHolds := by
  intro c s hrst hdue hlc hcold hend
  obtain ⟨t, ht, hpins, hkept⟩ := exec_asserted hrst hdue (by omega) hcold hend
  refine ⟨t, ht, ?_, ?_, ?_, ?_, ?_, ?_, ?_, ?_, hkept.trans hrst⟩ <;> rw [hpins]

end Sys2Proof.Machine
end

section
/-!
SUPPORT. What the I3C target does with a command and with a transfer (21 R731 to R735), an equation for each case.
-/
namespace Sys2Proof.Machine

section
variable {s : State}

theorem State.rstN_of_listens (h : s.listens = true) : s.boot.rstN = false := by
  simp only [State.listens, Bool.and_eq_true, Bool.not_eq_true'] at h
  exact h.1

/-- A command of the target that listens has its effect. -/
theorem State.act_listens (h : s.listens = true) (f : State → State) : s.act f = f s :=
  State.act_eq f (State.rstN_of_listens h)

theorem State.setDasa_static (h : s.listens = true) (da : BitVec 7) :
    s.setDasa s.sa da = (s.setDa da).reply (some []) := by
  simp [State.setDasa, h]

theorem State.named_iff {a : BitVec 7} (h : s.listens = true) : s.named a = true ↔ s.da = some a := by
  simp [State.named, h]

theorem State.setNewDa_named {a : BitVec 7} (h : s.named a = true) (da : BitVec 7) :
    s.setNewDa a da = (s.setDa da).reply (some []) := if_pos h

theorem State.setNewDa_other {a : BitVec 7} (h : s.named a = false) (da : BitVec 7) :
    s.setNewDa a da = s.reply none := if_neg (by simp [h])

theorem State.getCcc_named {a : BitVec 7} (h : s.named a = true) (bytes : List Byte) : s.getCcc a bytes = s.reply (some bytes) := by
  rw [State.getCcc, if_pos h]

theorem State.getCcc_other {a : BitVec 7} (h : s.named a = false) (bytes : List Byte) : s.getCcc a bytes = s.reply none := by
  rw [State.getCcc, if_neg (by simp [h])]

theorem State.getStatus_named {a : BitVec 7} (h : s.named a = true) : s.getStatus a = { s with boot := { s.boot with
    out3 := some [0x00, if s.boot.parity3 then 0x20 else 0x00], parity3 := false } } := by
  rw [State.getStatus, State.getCcc_named h, if_pos h]
  rfl

/-- The provisioned ID, most significant byte first: ADDR_SEL stands in bits 14 to 12. -/
theorem State.pid_bytes (s : State) : (List.range 6).map (fun i => s.pid.extractLsb' (8 * (5 - i)) 8) =
    [0x0B, 0x46, 0x07, 0x16, BitVec.ofNat 8 (16 * s.fget F.GLB_BOOT_STATUS_ADDR_SEL), 0x00] := by
  have hsel : s.fget F.GLB_BOOT_STATUS_ADDR_SEL < 8 := s.fget_lt _ _ _
  have hall : ∀ n < 8, (List.range 6).map (fun i => ((0x0B4607160000 : BitVec 48) + BitVec.ofNat 48 (n * 0x1000)).extractLsb' (8 * (5 - i)) 8) =
    [0x0B, 0x46, 0x07, 0x16, BitVec.ofNat 8 (16 * n), 0x00] := by decide
  exact hall _ hsel

theorem State.otherCcc_hdr {code : Byte} (h : s.listens = true) (hcode : 0x20 ≤ code.toNat ∧ code.toNat < 0x28) :
    s.otherCcc code none = s.modBoot (fun b => { b with hdr3 := true }) := by
  simp [State.otherCcc, h, hcode]

theorem State.otherCcc_ignored {code : Byte} (hcode : code.toNat < 0x20 ∨ 0x28 ≤ code.toNat) : s.otherCcc code none = s := by
  refine if_neg ?_
  simp only [Bool.and_eq_true, decide_eq_true_eq]
  omega

/-! ## Transfers -/

/-- While the target ignores transfers nothing is acknowledged. -/
theorem State.i3cRead_deaf (h : s.listens = false) (i2c : Bool) (a : BitVec 7) (n : Nat) : s.i3cRead i2c a n = s.reply none :=
  if_pos (by simp [State.answers, h])

theorem State.listens_of_answers {i2c : Bool} {addr : BitVec 7} (h : s.answers i2c addr = true) : s.listens = true := by
  simp only [State.answers, Bool.and_eq_true] at h
  exact h.1

/-- A write transfer without a parity error is its frame. -/
theorem State.i3cWrite_whole {i2c : Bool} {addr : BitVec 7} (h : s.answers i2c addr = true) (bytes : List Byte) :
    s.i3cWrite ⟨i2c, addr, bytes, none⟩ = (s.reply (some [])).i3cFrame false bytes := by
  have hgood : i3cGood ⟨i2c, addr, bytes, none⟩ = bytes := by cases i2c <;> rfl
  simp [State.i3cWrite, h, hgood]

/-- The pointer has the lowest bits of its first byte. -/
theorem offset_low (o0 o1 o2 : Byte) : (o2 ++ o1 ++ o0 : BitVec 24).extractLsb' 0 2 = o0.extractLsb' 0 2 := by
  ext i hi
  have : i < 8 := by omega
  simp only [BitVec.getElem_extractLsb', Nat.zero_add, BitVec.getLsbD_append, this, if_true]

/-- The state in which the frame has set the pointer, the controller's ID and the mark of a misaligned OFFSET. -/
def State.pointed3 (s : State) (ptr : BitVec 24) (id : BitVec 7) (bad : Bool) : State :=
  { s with boot := { s.boot with out3 := some [], ptr3 := ptr, id3 := id, bad3 := bad } }

/-- What a frame does once its header is taken, by the alignment of the OFFSET and the direction that the CTRL byte asks for. -/
theorem State.i3cFrame_header (s : State) (c o0 o1 o2 : Byte) (data : List Byte) :
    (s.reply (some [])).i3cFrame false (c :: o0 :: o1 :: o2 :: data) =
      (let u := s.pointed3 (o2 ++ o1 ++ o0) (c.extractLsb' 0 7) (o0.extractLsb' 0 2 != 0)
       if o0.extractLsb' 0 2 ≠ 0 then u.accErr (.i3c (c.extractLsb' 0 7)) 3 (o2 ++ o1 ++ o0 : BitVec 24).toNat
       else if c.getLsbD 7 then u.i3cValues (.i3c (c.extractLsb' 0 7)) data
       else if data.isEmpty then u else u.accErr (.i3c (c.extractLsb' 0 7)) 4 (o2 ++ o1 ++ o0 : BitVec 24).toNat) := by
  rw [← offset_low o0 o1 o2]
  rfl

/-- One value of a write transfer. -/
theorem State.i3cValues_one (h : s.boot.rstN = false) (who : Party) (v0 v1 v2 v3 : Byte) :
    s.i3cValues who [v0, v1, v2, v3] =
      s.after ((s.regWrite who s.boot.ptr3.toNat (v3 ++ v2 ++ v1 ++ v0)).modBoot (fun b => { b with ptr3 := b.ptr3 + 4 })) := by
  simp only [State.i3cValues]
  rw [State.run_eq _ h]

/-- A read of one register is one word of the pointer's register. -/
theorem State.i3cRead_word {i2c : Bool} {addr : BitVec 7} (h : s.answers i2c addr = true) :
    s.i3cRead i2c addr 4 =
      (s.i3cWord.2.modBoot (fun b => { b with ptr3 := b.ptr3 + 4 })).reply (some (wordOut s.i3cWord.1)) := by
  simp [State.i3cRead, h, State.i3cWords]

/-- The pointer's register, where a read has no effect of its own. -/
theorem State.i3cWord_look (hbad : s.boot.bad3 = false) (hserved : s.served s.boot.ptr3.toNat = true)
    (hnow : s.boot.ptr3 ≠ 0x4008) (hlow : s.boot.ptr3.toNat < 0x40000) : s.i3cWord = (s.look s.boot.ptr3.toNat, s) := by
  have hlatch : s.boot.ptr3.toNat ≠ 0x4008 := fun h => hnow (BitVec.eq_of_toNat_eq h)
  have hstaging : ¬(0x40000 ≤ s.boot.ptr3.toNat ∧ s.boot.ptr3.toNat < 0x48000 ∧ s.boot.ptr3.toNat % 0x100 = 0x50) := by omega
  rw [State.i3cWord, if_neg (by simp [hbad]), State.regRead, if_neg (by simp [hserved]), if_neg hlatch, if_neg hstaging]

end

end Sys2Proof.Machine
end

section
/-! The statements about the I3C target (21 R731 to R735). -/
namespace Sys2Proof.Machine

/-- Settles O1: each code is the operation of its row on a target that listens, and HDR Exit makes it listen again. -/
theorem i3cCommonCodes : Obligations.I3cCommonCodes := by
  unfold Obligations.I3cCommonCodes
  refine ⟨fun s h => ?codes, fun s hrst => ?hdr⟩
  case codes =>
    have hact : ∀ f, (.next (s.act f) : Host.Outcome State Fault Refusal) = .next (f s) := fun f => congrArg _ (State.act_listens h f)
    refine ⟨fun da hda => ?_, fun won da hkept => ?_, fun da => ?_, fun a da ha => ?_, ?_, fun a ha => ?named, hact (·.evCcc none),
      hact (·.evCcc none), fun code a => hact _, fun code hcode => ?_, fun a da ha => ?foreign⟩
    · exact (hact _).trans (congrArg _ (if_pos (by simp [h, hda])))
    · refine (hact _).trans (congrArg _ (if_neg ?_))
      rcases hkept with hlost | hheld
      · simp [hlost]
      · simp [hheld]
    · exact (hact _).trans (congrArg _ (State.setDasa_static h da))
    · exact (hact _).trans (congrArg _ (State.setNewDa_named ((State.named_iff h).mpr ha) da))
    · exact (hact _).trans (congrArg _ (if_pos h))
    case named =>
      have hn := (State.named_iff h).mpr ha
      refine ⟨(hact _).trans (congrArg _ ?_), (hact _).trans (congrArg _ (State.getCcc_named hn _)),
        (hact _).trans (congrArg _ (State.getCcc_named hn _)), (hact _).trans (congrArg _ (State.getStatus_named hn)),
        (hact _).trans (congrArg _ (State.getCcc_named hn _)), (hact _).trans (congrArg _ (State.getCcc_named hn _))⟩
      exact (State.getCcc_named hn _).trans (by rw [State.pid_bytes])
    · exact (hact _).trans (congrArg _ (State.otherCcc_ignored hcode))
    case foreign =>
      have hn : s.named a = false := Bool.eq_false_iff.mpr (fun hna => ha ((State.named_iff h).mp hna))
      exact ⟨(hact _).trans (congrArg _ (State.getCcc_other hn _)), (hact _).trans (congrArg _ (State.setNewDa_other hn da))⟩
  case hdr =>
    refine ⟨congrArg _ (State.act_eq _ hrst), by simp [State.listens, hrst], fun code hcode hhdr => ?_⟩
    have h : s.listens = true := by simp [State.listens, hrst, hhdr]
    obtain ⟨t, ht, hrstT, hdeaf⟩ : ∃ t, s.otherCcc code none = t ∧ t.boot.rstN = false ∧ t.listens = false :=
      ⟨_, State.otherCcc_hdr h hcode, hrst, Bool.and_false _⟩
    exact ⟨t, congrArg _ ((State.act_listens h _).trans ht), hdeaf,
      fun a n => congrArg _ ((State.act_eq _ hrstT).trans (State.i3cRead_deaf hdeaf false a n))⟩

/-- Settles O2: a write transfer is its header and then its value or its error, a read is the word of the pointer's register. -/
theorem i3cTransfers : Obligations.I3cTransfers := by
  unfold Obligations.I3cTransfers
  intro s i2c addr h
  have hrst := State.rstN_of_listens (State.listens_of_answers h)
  have hwrite : ∀ bytes, exec (.i3cPrivateWrite ⟨i2c, addr, bytes, none⟩) s = .next ((s.reply (some [])).i3cFrame false bytes) :=
    fun bytes => congrArg _ ((State.act_eq _ hrst).trans (State.i3cWrite_whole h bytes))
  have hread : exec (.i3cPrivateRead i2c addr 4) s =
      .next ((s.i3cWord.2.modBoot (fun b => { b with ptr3 := b.ptr3 + 4 })).reply (some (wordOut s.i3cWord.1))) :=
    congrArg _ ((State.act_eq _ hrst).trans (State.i3cRead_word h))
  refine ⟨fun c o0 o1 o2 hc ho => ?pointer, fun c o0 o1 o2 v0 v1 v2 v3 hc ho => ⟨_, rfl, ?value⟩,
    fun c o0 o1 o2 data ho => ⟨_, rfl, ?misaligned⟩, fun hbad hserved hnow hlow => ?read, fun hbad => ?readBad⟩
  case pointer =>
    rw [hwrite, State.i3cFrame_header]
    simp only [ho, hc, ne_eq, not_true_eq_false, if_false, bne_self_eq_false, Bool.false_eq_true, List.isEmpty_nil, if_true]
    rfl
  case value =>
    rw [hwrite, State.i3cFrame_header]
    simp only [ho, hc, ne_eq, not_true_eq_false, if_false, if_true, bne_self_eq_false]
    rw [State.i3cValues_one (by exact hrst)]
    rfl
  case misaligned =>
    have hmark : (o0.extractLsb' 0 2 != 0) = true := by simpa using ho
    rw [hwrite, State.i3cFrame_header, hmark]
    exact congrArg _ (if_pos ho)
  case read =>
    rw [hread, State.i3cWord_look hbad hserved hnow hlow]
    rfl
  case readBad =>
    rw [hread, State.i3cWord, if_pos hbad]
    exact congrArg _ (by rw [show wordOut 0 = [0, 0, 0, 0] by decide]; rfl)

end Sys2Proof.Machine
end

section
/-!
SUPPORT. The TAP and the debug access through it (22 R766, R767; 17 R645), the cold reset and the end of RST_N (15 R576, R591).
-/
namespace Sys2Proof.Machine

section
variable {s : State}

/-! ## The TAP -/

theorem State.drivePins_asserted (h : s.boot.wrstN = true) (code : BitVec 8) : s.drivePins code = s.tap code 0 := if_pos h

theorem State.drivePins_bypass (h : s.boot.wrstN = false) (code : BitVec 8) : s.drivePins code = s.bypass 0xFF := if_neg (by simp [h])

theorem State.extest_asserted (h : s.boot.wrstN = true) (bits : BitVec 128) :
    s.extest bits = (s.tap 0x00 0).modBoot (fun b => { b with bsr := bits }) := if_pos h

theorem State.extest_bypass (h : s.boot.wrstN = false) (bits : BitVec 128) : s.extest bits = s.bypass 0xFF := if_neg (by simp [h])

/-- A code above 4 that is not one of the three debug codes has no row of R767. -/
theorem tapCodes_unlisted {code : BitVec 8} (hlow : 4 < code.toNat) (hdebug : code.toNat < 0x20 ∨ 0x22 < code.toNat) :
    tapCodes.contains code = false := by
  simp only [tapCodes, List.contains_eq_mem, List.mem_cons, List.not_mem_nil, or_false, decide_eq_false_iff_not]
  rintro (rfl | rfl | rfl | rfl | rfl | rfl | rfl | rfl) <;> simp at hlow hdebug

theorem State.debugOnly_debug (h : s.lifecycle = 1) (f : State → State) : s.debugOnly f = f s := if_pos h

theorem State.debugOnly_other (h : s.lifecycle ≠ 1) (f : State → State) : s.debugOnly f = s.bypass 0xFF := if_neg h

/-! ## The debug access -/

theorem exec_umvHalt (s : State) : exec .umvHalt s = .next (s.after s.tapHalt) := rfl

theorem exec_umvResume (s : State) : exec .umvResume s = .next (s.after s.tapResume) := rfl

theorem exec_umvMem (s : State) (rq : BitVec 64) : exec (.umvMem rq) s = .next (s.after (s.umvMem rq)) := rfl

theorem exec_jtagBypass {code : BitVec 8} (h : tapCodes.contains code = false) : exec (.jtagBypass code) s = .next (s.bypass code) :=
  congrArg Host.Outcome.next (if_neg (Bool.not_eq_true _ |>.mpr h))

theorem State.umvHalt_running (hlc : s.lifecycle = 1) (hrun : s.umv.halted = false) (hstate : s.fget F.WDG_UMV_STATUS_STATE ≠ 1) :
    s.umvHalt = (s.modUmv (fun u => { u with halted := true, frozen := some s.now })).fset F.WDG_UMV_STATUS_STATE 2 :=
  if_neg (by simp [hlc, hrun, hstate])

theorem State.takeTrap_none (h : s.umv.trap = false) : s.takeTrap = s := if_pos (by simp [h])

/-- The release lets the CWD count on from where it stood. -/
theorem State.umvResume_halted {f : Time} (hlc : s.lifecycle = 1) (hhalt : s.umv.halted = true) (hfrozen : s.umv.frozen = some f)
    (htrap : s.umv.trap = false) :
    s.umvResume = (s.modUmv (fun u => { u with halted := false, frozen := none, start := u.start + (s.now - f) })).fset
      F.WDG_UMV_STATUS_STATE 0 := by
  have hrelease : s.umvResume = ((s.modUmv (fun u => { u with halted := false, frozen := none, start := match u.frozen with
      | some f => u.start + (s.now - f)
      | none => u.start })).fset F.WDG_UMV_STATUS_STATE 0).takeTrap := if_neg (by simp [hlc, hhalt])
  rw [hrelease, State.takeTrap_none (by exact htrap)]
  simp only [State.modUmv, hfrozen]

theorem State.umvMem_rom {rq : BitVec 64} (hlc : s.lifecycle = 1) (haddr : (rq.extractLsb' 0 32).toNat < 0x10000) :
    s.umvMem rq = s.tap 0x22 (Config.romWord ((rq.extractLsb' 0 32).toNat / 4) ++ rq.extractLsb' 0 32) :=
  (State.debugOnly_debug hlc _).trans (if_pos haddr)

/-! ## The end of RST_N -/

/-- Boot step 1, before the CWD starts and the boot moves on. -/
def State.strapped (s : State) (sel : BitVec 3) (src : Bool) : State :=
  (((s.modBoot (fun b => { b with rstN := false, since := s.now, vidOn := true })).setFlag F.GLB_BOOT_STATUS_BOOT_SEL src).fset
    F.GLB_BOOT_STATUS_ADDR_SEL sel.toNat).fset F.GLB_I3C_STATUS_STATIC (0x50 + sel.toNat)

theorem State.rstNDeassert_asserted (h : s.boot.rstN = true) (sel : BitVec 3) (src : Bool) :
    s.rstNDeassert sel src = (s.strapped sel src).cwdStart.bootStep 2 := if_neg (by simp [h])

/-- A register field after the end of RST_N, apart from the step of the boot. -/
theorem State.rstNDeassert_fget (h : s.boot.rstN = true) (sel : BitVec 3) (src : Bool) {g : Fld}
    (hg : F.GLB_BOOT_STATUS_STEP.apart (g.addr 0 0) g.lsb g.wid = true) (hw : g.lsb + g.wid ≤ 32) :
    (s.rstNDeassert sel src).fget g = (s.strapped sel src).fget g := by
  rw [State.rstNDeassert_asserted h, State.bootStep, State.fget_fset_apart _ _ _ _ _ _ hg hw]
  rfl

theorem State.strapped_addrSel (s : State) (sel : BitVec 3) (src : Bool) :
    (s.strapped sel src).fget F.GLB_BOOT_STATUS_ADDR_SEL = sel.toNat := by
  rw [State.strapped, State.fget_fset_other _ _ _ _ _ _ _ _ (by decide) (by decide), State.fget_fset_same _ _ _ _ _ (by decide)]
  exact Nat.mod_eq_of_lt sel.isLt

theorem State.strapped_bootSel (s : State) (sel : BitVec 3) (src : Bool) :
    (s.strapped sel src).flag F.GLB_BOOT_STATUS_BOOT_SEL = src := by
  rw [State.flag, State.strapped, State.fget_fset_other _ _ _ _ _ _ _ _ (by decide) (by decide),
    State.fget_fset_other _ _ _ _ _ _ _ _ (by decide) (by decide)]
  exact State.flag_setFlag_same _ _ _ _ _ (by decide) (by decide)

theorem State.strapped_static (s : State) (sel : BitVec 3) (src : Bool) :
    (s.strapped sel src).fget F.GLB_I3C_STATUS_STATIC = 0x50 + sel.toNat := by
  have hsel := sel.isLt
  rw [State.strapped, State.fget_fset_same _ _ _ _ _ (by decide)]
  exact Nat.mod_eq_of_lt (Nat.lt_of_lt_of_le (Nat.add_lt_add_left hsel _) (by decide))

theorem State.strapped_word (s : State) (sel : BitVec 3) (src : Bool) {a : Nat} (hboot : a ≠ 0x200) (hi3c : a ≠ 0x110) :
    (s.strapped sel src).word a = s.word a := by
  rw [State.strapped, State.word_fset_other _ _ _ _ _ _ (Ne.symm hi3c), State.word_fset_other _ _ _ _ _ _ (Ne.symm hboot), State.setFlag,
    State.word_fset_other _ _ _ _ _ _ (Ne.symm hboot)]
  rfl

theorem State.rstNDeassert_word (h : s.boot.rstN = true) (sel : BitVec 3) (src : Bool) {a : Nat} (hboot : a ≠ 0x200) (hi3c : a ≠ 0x110) :
    (s.rstNDeassert sel src).word a = s.word a := by
  rw [State.rstNDeassert_asserted h, State.bootStep, State.word_fset_other _ _ _ _ _ _ (Ne.symm hboot)]
  exact s.strapped_word sel src hboot hi3c

end

end Sys2Proof.Machine
end

section
/-! The statements about the TAP, the debug access, the cold reset and the end of RST_N. -/
namespace Sys2Proof.Machine

/-- Settles O3: each code is the operation of its row, and BYPASS where R767 says so. -/
theorem tapInstructions : Obligations.TapInstructions := by
  unfold Obligations.TapInstructions
  intro s
  refine ⟨rfl, rfl, fun _ => rfl, fun h => ?driven, fun h => ?quiet, fun code hlow hdebug => ?unlisted, fun hlc => ?closed⟩
  case driven =>
    exact ⟨fun bits => congrArg _ (State.extest_asserted h bits), congrArg _ (State.drivePins_asserted h _),
      congrArg _ (State.drivePins_asserted h _)⟩
  case quiet =>
    exact ⟨fun bits => congrArg _ (State.extest_bypass h bits), congrArg _ (State.drivePins_bypass h _),
      congrArg _ (State.drivePins_bypass h _)⟩
  case unlisted => exact exec_jtagBypass (tapCodes_unlisted hlow hdebug)
  case closed =>
    refine ⟨?_, ?_, fun rq => ?_⟩
    · rw [exec_umvHalt, State.tapHalt, State.debugOnly_other hlc]
      rfl
    · rw [exec_umvResume, State.tapResume, State.debugOnly_other hlc]
      rfl
    · rw [exec_umvMem, State.umvMem, State.debugOnly_other hlc]
      rfl

/-- Settles O4: in DEBUG each instruction is its operation on Umevo and then the TAP's capture. -/
theorem umevoDebug : Obligations.UmevoDebug := by
  unfold Obligations.UmevoDebug
  intro s hlc
  refine ⟨fun hrun hstate => ?halt, fun f hhalt hfrozen htrap => ?resume, fun rq haddr => ?mem⟩
  case halt =>
    rw [exec_umvHalt, State.tapHalt, State.debugOnly_debug hlc, State.umvHalt_running hlc hrun hstate]
    rfl
  case resume =>
    rw [exec_umvResume, State.tapResume, State.debugOnly_debug hlc, State.umvResume_halted hlc hhalt hfrozen htrap]
    rfl
  case mem =>
    rw [exec_umvMem, State.umvMem_rom hlc haddr]
    rfl

/-- Settles O5: a cold reset leaves the reset state but for the pins and the fuses, and the end of RST_N is boot step 1. -/
theorem coldResetAndStraps : Obligations.ColdResetAndStraps := by
  unfold Obligations.ColdResetAndStraps
  have hlc : State.reset.lifecycle = 0 := by decide +kernel
  refine ⟨fun s => ⟨_, rfl, fun _ => rfl, rfl, rfl, hlc, rfl, rfl, rfl, rfl, rfl, rfl, rfl⟩,
    fun s sel src h => ⟨_, rfl, ?_⟩, fun s sel src h => congrArg _ (if_pos (by simp [h]))⟩
  have heq := State.rstNDeassert_asserted h sel src
  refine ⟨by rw [heq]; rfl, by rw [heq]; rfl, ?addrSel, ?bootSel, ?static, ?step, by rw [heq]; rfl, by rw [heq]; rfl, by rw [heq]; rfl,
    fun a => State.rstNDeassert_word h sel src⟩
  case addrSel => rw [State.rstNDeassert_fget h _ _ (by decide) (by decide), State.strapped_addrSel]
  case bootSel => rw [State.flag, State.rstNDeassert_fget h _ _ (by decide) (by decide)]; exact s.strapped_bootSel sel src
  case static => rw [State.rstNDeassert_fget h _ _ (by decide) (by decide), State.strapped_static]
  case step => rw [heq]; exact State.fget_fset_same _ _ _ _ _ (by decide)

end Sys2Proof.Machine
end

section
/-!
SUPPORT. The shapes of a command, as what it ends in: the operation that runs, at its port, at its slice, behind a message or behind a
register write.
-/
namespace Sys2Proof.Machine

section
variable {s : State}

theorem next_run (h : s.boot.rstN = false) (f : State → State) :
    (.next (s.run f) : Host.Outcome State Fault Refusal) = .next (s.after (f s)) := congrArg _ (State.run_eq f h)

theorem next_atPort (h : s.boot.rstN = false) {p : Nat} (hp : p < 12) (f : State → State) :
    (.next (s.run (fun s => s.atPort p f)) : Host.Outcome State Fault Refusal) = .next (s.after (f s)) :=
  (next_run h _).trans (by rw [State.atPort, if_pos hp])

theorem next_atSlice (h : s.boot.rstN = false) {k : Nat} (hk : k < 18) (f : State → State) :
    (.next (s.run (fun s => s.atSlice k f)) : Host.Outcome State Fault Refusal) = .next (s.after (f s)) :=
  (next_run h _).trans (by rw [State.atSlice, if_pos hk])

theorem next_command {who : Party} {a : Nat} (v : Word) (h : s.takes who a) :
    (.next (s.command who a v) : Host.Outcome State Fault Refusal) = .next (s.after (s.writeAt who a v)) :=
  congrArg _ (State.command_eq v h)

theorem next_message {p : Nat} {m : Msg} {op : BitVec 8} (f : Msg → State → State) (h : s.admits p { m with op := op }) :
    (.next (s.message p m op f) : Host.Outcome State Fault Refusal) =
      .next (s.after (f { m with op := op } (s.heard p { m with op := op }))) :=
  congrArg _ (State.message_eq f h)

theorem next_requestOf {p : Nat} {m : Msg} {op : BitVec 8} (h : s.admits p { m with op := op }) :
    (.next (s.requestOf p m op) : Host.Outcome State Fault Refusal) =
      .next (s.after ((s.heard p { m with op := op }).request p { m with op := op })) :=
  next_message _ h

end

/-! ## Fields of registers that have an instance for each unit -/

/-- Other bits of a register read as before, whichever its instance. -/
theorem State.fget_fset_bits (s : State) {f g : Fld} (v n m i j : Nat) (h : g.lsb + g.wid ≤ f.lsb ∨ f.lsb + f.wid ≤ g.lsb)
    (hg : g.lsb + g.wid ≤ 32) : (s.fset f v n m).fget g i j = s.fget g i j :=
  State.fget_fset_other s f g v n m i j (.inr h) hg

/-- Two registers of one unit stand at different addresses. -/
def Fld.beside (f g : Fld) : Bool := f.base + f.off != g.base + g.off && f.stride == g.stride && f.mstr == g.mstr

/-- A register of the same unit reads as before. -/
theorem State.fget_fset_beside (s : State) {f g : Fld} (v n m : Nat) (h : f.beside g = true) (hg : g.lsb + g.wid ≤ 32) :
    (s.fset f v n m).fget g n m = s.fget g n m := by
  refine State.fget_fset_other s f g v n m n m (.inl ?_) hg
  simp only [Fld.beside, Bool.and_eq_true, bne_iff_ne, beq_iff_eq] at h
  simp only [Fld.addr, h.1.2, h.2]
  omega

theorem State.flag_eq_of_fget {s u : State} {g : Fld} {i j : Nat} (h : s.fget g i j = u.fget g i j) : s.flag g i j = u.flag g i j :=
  congrArg (· != 0) h

end Sys2Proof.Machine
end

section
/-!
SUPPORT. Delivery of the image over I3C (15 R593, R597), the unlock of DEBUG, the revocation of a key slot and the reset of Umevo
(15 R581 to R590).
-/
namespace Sys2Proof.Machine

section
variable {s : State} {who : Party}

/-! ## Delivery of the image -/

theorem exec_bootIcmdStart (ht : s.takes who 0x20C) : exec (.bootIcmdStart who) s = .next (s.after s.icmdStart) :=
  next_command _ ht

theorem exec_bootIcmdLoad (ht : s.takes who 0x20C) : exec (.bootIcmdLoad who) s = .next (s.after s.icmdLoad) :=
  next_command _ ht

theorem exec_bootIdataWrite (ht : s.takes who 0x210) (v : Word) : exec (.bootIdataWrite who v) s = .next (s.after (s.idata v)) :=
  next_command _ ht

theorem State.icmdStart_delivering (h : s.i3cBoot = true) : s.icmdStart = s.modBoot (fun b => { b with ptr := 0 }) := if_pos h

theorem State.icmdStart_other (h : s.i3cBoot = false) : s.icmdStart = s := if_neg (by simp [h])

theorem State.icmdLoad_delivering (h : s.i3cBoot = true) : s.icmdLoad = s.submit (4 * s.boot.ptr) := if_pos h

theorem State.icmdLoad_other (h : s.i3cBoot = false) : s.icmdLoad = s := if_neg (by simp [h])

theorem State.idata_delivering (h : s.i3cBoot = true) (hroom : s.boot.ptr < 65536) (v : Word) :
    s.idata v = s.modBoot (fun b => { b with image := spSet 0 b.image b.ptr v, ptr := b.ptr + 1 }) := if_pos (by simp [h, hroom])

theorem State.idata_full (hfull : 65536 ≤ s.boot.ptr) (v : Word) : s.idata v = s := if_neg (by simp; omega)

theorem State.idata_other (h : s.i3cBoot = false) (v : Word) : s.idata v = s := if_neg (by simp [h])

/-! ## Unlock -/

theorem exec_unlkNonce (ht : s.takes who 0x264) : exec (.unlkNonce who) s = .next (s.after s.unlkNonce) := next_command _ ht

theorem exec_unlkVerify (ht : s.takes who 0x264) : exec (.unlkVerify who) s = .next (s.after s.unlkVerify) := next_command _ ht

theorem exec_unlkDataWrite (ht : s.takes who 0x260) (v : Word) : exec (.unlkDataWrite who v) s = .next (s.after (s.unlkData v)) :=
  next_command _ ht

theorem State.unlkResult_noNonce (h : s.boot.nonce = none) : s.unlkResult = 5 := by
  rw [State.unlkResult, h]

theorem State.unlkResult_closed (h : s.boot.nonce ≠ none) (hlc : s.lifecycle = 2) : s.unlkResult = 2 := by
  obtain ⟨n, hn⟩ := Option.ne_none_iff_exists'.mp h
  rw [State.unlkResult, hn]
  exact if_pos (.inl hlc)

/-- The state in which the verification has ended, before PEND. -/
def State.unlkEnded (s : State) (r : Nat) : State :=
  ((s.modBoot (fun b => { b with unlk := none, nonce := none })).setFlag F.GLB_UNLK_STATUS_BUSY false).fset F.GLB_UNLK_STATUS_RESULT r

theorem State.unlkDone_eq {r : Nat} (hrun : s.umevoRuns = true) (h : s.boot.unlk = some r) :
    s.unlkDone = if r = 1 then (s.unlkEnded r).setFlag F.GLB_UNLK_STATUS_PEND true else s.unlkEnded r := by
  rw [State.unlkDone, h]
  exact if_neg (by simp [hrun])

theorem State.unlkDone_nonce {r : Nat} (hrun : s.umevoRuns = true) (h : s.boot.unlk = some r) : s.unlkDone.boot.nonce = none := by
  rw [State.unlkDone_eq hrun h]
  split <;> rfl

/-- Bits of GLB_UNLK_STATUS other than PEND. -/
theorem State.unlkDone_fget {r : Nat} (hrun : s.umevoRuns = true) (h : s.boot.unlk = some r) {g : Fld}
    (hg : F.GLB_UNLK_STATUS_PEND.apart (g.addr 0 0) g.lsb g.wid = true) (hw : g.lsb + g.wid ≤ 32) :
    s.unlkDone.fget g = (s.unlkEnded r).fget g := by
  rw [State.unlkDone_eq hrun h]
  split
  · exact State.fget_fset_apart _ _ _ _ _ _ hg hw
  · rfl

theorem State.unlkEnded_pend (s : State) (r : Nat) : (s.unlkEnded r).flag F.GLB_UNLK_STATUS_PEND = s.flag F.GLB_UNLK_STATUS_PEND := by
  refine State.flag_eq_of_fget ?_
  rw [State.unlkEnded, State.fget_fset_apart _ _ _ _ _ _ (by decide) (by decide), State.setFlag,
    State.fget_fset_apart _ _ _ _ _ _ (by decide) (by decide)]
  rfl

theorem State.unlkDone_pend {r : Nat} (hrun : s.umevoRuns = true) (h : s.boot.unlk = some r) :
    s.unlkDone.flag F.GLB_UNLK_STATUS_PEND = (s.flag F.GLB_UNLK_STATUS_PEND || r == 1) := by
  rw [State.unlkDone_eq hrun h]
  split
  · rename_i hr
    rw [State.flag_setFlag_same _ _ _ _ _ (by decide) (by decide), hr]
    simp
  · rename_i hr
    rw [State.unlkEnded_pend]
    simp [hr]

/-! ## Revocation -/

theorem getLsbD_revokeWord (slot : BitVec 2) : (bitWord 31 ||| slot.zeroExtend 32 : Word).getLsbD 31 = true ∧
    (bitWord 31 ||| slot.zeroExtend 32 : Word).extractLsb' 0 2 = slot := by
  revert slot
  decide

theorem exec_fuseRevoke_umevo (ht : s.takes .umevoM 0x234) (slot : BitVec 2) :
    exec (.fuseRevoke .umevoM slot) s = .next (s.after (s.fuseRevoke slot)) := by
  obtain ⟨hgo, hslot⟩ := getLsbD_revokeWord slot
  have hwrite : s.writeAt .umevoM 0x234 (bitWord 31 ||| slot.zeroExtend 32) = s.fuseRevoke slot := by
    have hfuse : s.writeAt .umevoM 0x234 (bitWord 31 ||| slot.zeroExtend 32) =
        s.writeFuse .umevoM (bitWord 31 ||| slot.zeroExtend 32) := rfl
    rw [hfuse, State.writeFuse, State.reserved, if_pos (beq_self_eq_true _), onBit, if_pos hgo, hslot]
  rw [← hwrite]
  exact next_command _ ht

theorem exec_fuseRevoke_other (ht : s.takes who 0x234) (hwho : who ≠ .umevoM) (slot : BitVec 2) :
    exec (.fuseRevoke who slot) s = .next (s.after (s.accErr who 1 0x234)) := by
  have hwrite : s.writeAt who 0x234 (bitWord 31 ||| slot.zeroExtend 32) = s.accErr who 1 0x234 := by
    have hfuse : s.writeAt who 0x234 (bitWord 31 ||| slot.zeroExtend 32) = s.writeFuse who (bitWord 31 ||| slot.zeroExtend 32) := rfl
    rw [hfuse, State.writeFuse, State.reserved, if_neg (by simpa using hwho)]
  rw [← hwrite]
  exact next_command _ ht

/-- The fuse of a slot that the sealed Pattern does not rest on. -/
def State.revoked (s : State) (slot : BitVec 2) : State :=
  s.modBoot (fun b => { b with
    blown := b.blown ||| BitVec.ofNat 4 (2 ^ slot.toNat),
    fuses := { b.fuses with revoke := b.fuses.revoke ||| BitVec.ofNat 4 (2 ^ slot.toNat) } })

theorem State.revoked_blown (s : State) (slot : BitVec 2) :
    (s.revoked slot).boot.blown = s.boot.blown ||| BitVec.ofNat 4 (2 ^ slot.toNat) := rfl

theorem State.revoked_revoke (s : State) (slot : BitVec 2) :
    (s.revoked slot).boot.fuses.revoke = s.boot.fuses.revoke ||| BitVec.ofNat 4 (2 ^ slot.toNat) := rfl

theorem State.fuseRevoke_free {slot : BitVec 2} (hsealed : s.flag F.PAT_STATUS_SEALED = true)
    (hkey : s.fget F.PAT_STATUS_KEY ≠ slot.toNat) :
    s.fuseRevoke slot = (s.revoked slot).fset F.GLB_FUSE_STATUS_REVOKED (s.revoked slot).boot.fuses.revoke.toNat :=
  if_pos (by simp [hsealed, hkey])

theorem State.fuseRevoke_kept {slot : BitVec 2} (h : s.flag F.PAT_STATUS_SEALED = false ∨ s.fget F.PAT_STATUS_KEY = slot.toNat) :
    s.fuseRevoke slot = s := by
  refine if_neg ?_
  rcases h with hopen | hkey
  · simp [hopen]
  · simp [hkey]

theorem getLsbD_slotBit (slot : BitVec 2) (i : Nat) : (BitVec.ofNat 4 (2 ^ slot.toNat)).getLsbD i = decide (i = slot.toNat) := by
  have hslot := slot.isLt
  rw [BitVec.getLsbD_ofNat, Nat.testBit_two_pow]
  by_cases hi : slot.toNat = i
  · have : i < 4 := by omega
    simp [hi, this]
  · simp [hi, Ne.symm hi]

/-! ## The reset of Umevo -/

/-- GLB_RST_CMD with its key: bit 31 asks for a warm reset, bit 30 for the reset of Umevo. -/
theorem State.writeRst_allowed (hwho : who ≠ .umevoU) (v : Word) :
    s.writeRst who v = s.rstCmd (v.getLsbD 31) (v.getLsbD 30) (v.extractLsb' 0 16) :=
  if_pos (bne_iff_ne.mpr hwho)

theorem exec_glbRstUmevo (ht : s.takes who 0x220) (hwho : who ≠ .umevoU) :
    exec (.glbRstUmevo who 0xB007) s = .next (s.after s.umevoReset) := by
  refine (next_command _ ht).trans (congrArg (fun u => Host.Outcome.next (s.after u)) ?_)
  exact (State.writeRst_allowed hwho _).trans (congr (congr (congrArg s.rstCmd (by decide)) (by decide)) (by decide) :
    _ = s.rstCmd false true 0xB007)

@[simp] theorem State.overlayAbandoned_umv (s : State) : s.overlayAbandoned.umv = s.umv := by
  unfold State.overlayAbandoned
  split
  · rfl
  · simp only [State.overlayResult, State.raise_umv, State.setFlag_umv, State.fset_umv]

/-- Umevo's state is not the loader's: no step of the abandoned load touches it. -/
theorem State.overlayAbandoned_umvState (s : State) :
    s.overlayAbandoned.fget F.WDG_UMV_STATUS_STATE = s.fget F.WDG_UMV_STATUS_STATE := by
  unfold State.overlayAbandoned
  split
  · rfl
  · rw [State.raise_fget _ _ _ _ _ _ _ (by decide) (by decide)]
    simp (disch := decide) only [State.overlayResult, State.setFlag, State.fget_fset_apart]
    rfl

/-- A base image that the loader was working on is rejected. -/
def State.loaderFreed (s : State) : State :=
  if s.fget F.PAT_STATUS_LOADER = 1 then (s.patErr (imgErr 0x64) false 0).fset F.PAT_STATUS_LOADER 0 else s

/-- A core that is neither halted nor held runs again. -/
def State.coreRestarted (s : State) : State :=
  if s.umv.halted || s.fget F.WDG_UMV_STATUS_STATE == 1 then s else s.fset F.WDG_UMV_STATUS_STATE 0

/-- A boot under way goes back to step 3. -/
def State.bootRestarted (s : State) : State :=
  if s.flag F.PAT_STATUS_SEALED || s.bootFailed || s.flushing || s.fget F.GLB_BOOT_STATUS_STEP < 3 then s
  else (State.fset { s with boot := { s.boot with image := [], ptr := 0, bytes := 0, accepted := none } } F.GLB_BOOT_STATUS_STEP 3).fset
    F.GLB_BOOT_STATUS_SOURCE 0

theorem State.umevoReset_eq (s : State) : s.umevoReset =
    (s.modUmv (fun u => { u with trap := false, took := false })).overlayAbandoned.loaderFreed.coreRestarted.bootRestarted := rfl

@[simp] theorem State.loaderFreed_umv (s : State) : s.loaderFreed.umv = s.umv := by
  unfold State.loaderFreed
  split
  · simp only [State.patErr, State.setFlag_umv, State.fset_umv]
  · rfl

@[simp] theorem State.loaderFreed_umvState (s : State) : s.loaderFreed.fget F.WDG_UMV_STATUS_STATE = s.fget F.WDG_UMV_STATUS_STATE := by
  unfold State.loaderFreed
  split
  · simp (disch := decide) only [State.patErr, State.setFlag, State.fget_fset_apart]
  · rfl

@[simp] theorem State.coreRestarted_umv (s : State) : s.coreRestarted.umv = s.umv := by
  unfold State.coreRestarted
  split <;> rfl

theorem State.coreRestarted_running (hrun : s.umv.halted = false) (hstate : s.fget F.WDG_UMV_STATUS_STATE ≠ 1) :
    s.coreRestarted = s.fset F.WDG_UMV_STATUS_STATE 0 := if_neg (by simp [hrun, hstate])

@[simp] theorem State.bootRestarted_umv (s : State) : s.bootRestarted.umv = s.umv := by
  unfold State.bootRestarted
  split <;> rfl

@[simp] theorem State.bootRestarted_umvState (s : State) :
    s.bootRestarted.fget F.WDG_UMV_STATUS_STATE = s.fget F.WDG_UMV_STATUS_STATE := by
  unfold State.bootRestarted
  split
  · rfl
  · simp (disch := decide) only [State.fget_fset_apart]
    rfl

theorem State.umevoReset_trap (s : State) : s.umevoReset.umv.trap = false := by
  rw [State.umevoReset_eq]
  simp [State.modUmv]

theorem State.umevoReset_state (hrun : s.umv.halted = false) (hstate : s.fget F.WDG_UMV_STATUS_STATE ≠ 1) :
    s.umevoReset.fget F.WDG_UMV_STATUS_STATE = 0 := by
  rw [State.umevoReset_eq, State.bootRestarted_umvState, State.coreRestarted_running]
  · exact State.fget_fset_same _ _ _ _ _ (by decide)
  · simpa [State.modUmv] using hrun
  · rw [State.loaderFreed_umvState, State.overlayAbandoned_umvState]
    exact hstate

end

end Sys2Proof.Machine
end

section
/-! The statements about the delivery of the image and about unlock, revocation and the reset of Umevo. -/
namespace Sys2Proof.Machine

/-- Settles O7: each command is its operation on the image buffer, which acts in step 4 with SOURCE 0b11 alone. -/
theorem imageDelivery : Obligations.ImageDelivery := by
  unfold Obligations.ImageDelivery
  intro s who v
  refine ⟨fun h ht => ⟨?_, ?_⟩, fun h ht hroom => ?_, fun h ht hfull => ?_, fun h ht => ⟨?_, ?_⟩, fun h ht => ?_⟩
  · rw [exec_bootIcmdStart ht, State.icmdStart_delivering h]
    rfl
  · rw [exec_bootIcmdLoad ht, State.icmdLoad_delivering h]
    rfl
  · rw [exec_bootIdataWrite ht, State.idata_delivering h hroom]
    rfl
  · rw [exec_bootIdataWrite ht, State.idata_full hfull]
  · rw [exec_bootIcmdStart ht, State.icmdStart_other h]
  · rw [exec_bootIcmdLoad ht, State.icmdLoad_other h]
  · rw [exec_bootIdataWrite ht, State.idata_other h]

/-- Settles O9: each command is its operation, which the party that may not command it does not reach. -/
theorem unlockAndFuses : Obligations.UnlockAndFuses := by
  unfold Obligations.UnlockAndFuses
  refine ⟨fun s who ht => ⟨exec_unlkNonce ht, exec_unlkVerify ht, State.unlkResult_noNonce, State.unlkResult_closed⟩,
    fun s who v ht => exec_unlkDataWrite ht v, fun s r hrst hrun h hr => ?done, fun s slot ht hsealed hkey => ?revoke,
    fun s slot ht h => by rw [exec_fuseRevoke_umevo ht, State.fuseRevoke_kept h],
    fun s who slot hwho ht => exec_fuseRevoke_other ht hwho slot,
    fun s who hwho ht => ⟨exec_glbRstUmevo ht hwho, State.umevoReset_state, s.umevoReset_trap⟩⟩
  case done =>
    refine ⟨next_run hrst _, ?busy, ?result, State.unlkDone_nonce hrun h, State.unlkDone_pend hrun h⟩
    case busy =>
      rw [State.flag, State.unlkDone_fget hrun h (by decide) (by decide), State.unlkEnded,
        State.fget_fset_apart _ _ _ _ _ _ (by decide) (by decide), State.fget_setFlag_same _ _ _ _ _ (by decide) (by decide)]
      rfl
    case result =>
      rw [State.unlkDone_fget hrun h (by decide) (by decide), State.unlkEnded, State.fget_fset_same _ _ _ _ _ (by decide)]
      exact Nat.mod_eq_of_lt hr
  case revoke =>
    refine ⟨_, by rw [exec_fuseRevoke_umevo ht, State.fuseRevoke_free hsealed hkey], ?_, ?_, fun i hi => ?_, ?_⟩
    · simp only [State.fset_boot, State.revoked_blown, BitVec.getLsbD_or, getLsbD_slotBit, decide_true, Bool.or_true]
    · simp only [State.fset_boot, State.revoked_revoke, BitVec.getLsbD_or, getLsbD_slotBit, decide_true, Bool.or_true]
    · simp only [State.fset_boot, State.revoked_revoke, BitVec.getLsbD_or, getLsbD_slotBit, hi, decide_false, Bool.or_false]
    · rw [State.fget_fset_same _ _ _ _ _ (by decide)]
      exact Nat.mod_eq_of_lt (BitVec.isLt _)

end Sys2Proof.Machine
end

section
/-!
SUPPORT. Register accesses (00 R12 to R16; 21 R730, R746, R748): what the decoder does with each, what it records of one that it refuses,
and which writable field a write meets.
-/
namespace Sys2Proof.Machine

/-! ## Fields of registers that have an instance for each unit -/

/-- A register with one instance stands below the block of another. -/
def Fld.below (f g : Fld) : Bool := f.stride == 0 && f.mstr == 0 && decide (f.base + f.off < g.base)

theorem Fld.apart_below {f g : Fld} (h : f.below g = true) (i j lsb wid : Nat) : f.apart (g.addr i j) lsb wid = true := by
  simp only [Fld.below, Bool.and_eq_true, decide_eq_true_eq] at h
  obtain ⟨⟨hstride, hmstr⟩, hlow⟩ := h
  have hne : f.base + f.off ≠ g.addr i j := by unfold Fld.addr; omega
  simp [Fld.apart, hstride, hmstr, hne]

theorem State.fget_fset_below (s : State) {f g : Fld} (v n m i j : Nat) (h : f.below g = true) (hg : g.lsb + g.wid ≤ 32) :
    (s.fset f v n m).fget g i j = s.fget g i j :=
  State.fget_fset_apart s v n m i j (Fld.apart_below h i j _ _) hg

theorem State.raise_fget_unit (s : State) (x c : Nat) (t : Option Tenant) {g : Fld} (i j : Nat) (h : F.EVG_DROP_FULL.below g = true)
    (hg : g.lsb + g.wid ≤ 32) : (s.raise x c t).fget g i j = s.fget g i j :=
  State.raise_fget s x c t g i j (by simp [Fld.allApart, Fld.apart_below h]) hg

/-! ## Refused accesses -/

section
variable (s : State) (who : Party) (a : Nat)

/-- The counter of a kind of refused access. -/
def accCount : Nat → Fld
  | 1 => F.GLB_ACC_ERR0_DENIED
  | 2 => F.GLB_ACC_ERR0_LOCKED
  | 3 => F.GLB_ACC_ERR1_MISALIGN
  | 4 => F.GLB_ACC_ERR1_PARTIAL
  | _ => F.GLB_ACC_ERR1_PARITY

theorem State.accErr_eq (kind : Nat) : s.accErr who kind a =
    ((((((s.bump (accCount kind)).setFlag F.GLB_ACC_LAST_VALID true).fset F.GLB_ACC_LAST_PATH (pathCode who)).fset F.GLB_ACC_LAST_KIND
      kind).fset F.GLB_ACC_LAST_WORD (a / 4)).fset F.GLB_ACC_LASTSRC_I3C ((masterOf who).toNat / 2 ^ 20)).fset F.GLB_ACC_LASTSRC_ID
        (masterOf who).toNat := by
  match kind with
  | 0 | 1 | 2 | 3 | 4 | _ + 5 => rfl

theorem State.accErr_count (kind : Nat) (hk : (accCount kind).lsb + (accCount kind).wid ≤ 32) (hbase : (accCount kind).addr 0 0 < 0x108) :
    (s.accErr who kind a).fget (accCount kind) = min (s.fget (accCount kind) + 1) (onesMask (accCount kind).wid) := by
  have hother : ∀ (u : State) (f : Fld) (v : Nat), 0x108 ≤ f.addr 0 0 → (u.fset f v).fget (accCount kind) = u.fget (accCount kind) :=
    fun u f v hf => State.fget_fset_other _ _ _ _ _ _ _ _ (.inl (by omega)) hk
  rw [State.accErr_eq, hother _ _ _ (by decide), hother _ _ _ (by decide), hother _ _ _ (by decide), hother _ _ _ (by decide),
    hother _ _ _ (by decide), State.setFlag, hother _ _ _ (by decide)]
  exact State.fget_bumpBy_same _ _ _ _ _ hk

theorem State.accErr_kind {kind : Nat} (hk : kind < 16) : (s.accErr who kind a).fget F.GLB_ACC_LAST_KIND = kind := by
  rw [State.accErr_eq]
  simp (disch := decide) only [State.fget_fset_apart, State.fget_fset_same]
  exact Nat.mod_eq_of_lt hk

theorem State.accErr_valid (kind : Nat) : (s.accErr who kind a).flag F.GLB_ACC_LAST_VALID = true := by
  rw [State.flag, State.accErr_eq]
  simp (disch := decide) only [State.fget_fset_apart, State.fget_setFlag_same]
  rfl

theorem State.accErr_wordNo (kind : Nat) (ha : a < 2 ^ 24) : (s.accErr who kind a).fget F.GLB_ACC_LAST_WORD = a / 4 := by
  rw [State.accErr_eq]
  simp (disch := decide) only [State.fget_fset_apart, State.fget_fset_same]
  exact Nat.mod_eq_of_lt (Nat.div_lt_of_lt_mul ha)

theorem State.accErr_word {kind b : Nat} (h0 : b ≠ (accCount kind).addr 0 0) (h8 : b ≠ 0x108) (hc : b ≠ 0x10C) :
    (s.accErr who kind a).word b = s.word b := by
  rw [State.accErr_eq, State.word_fset_other _ _ _ _ _ _ (Ne.symm hc), State.word_fset_other _ _ _ _ _ _ (Ne.symm hc),
    State.word_fset_other _ _ _ _ _ _ (Ne.symm h8), State.word_fset_other _ _ _ _ _ _ (Ne.symm h8),
    State.word_fset_other _ _ _ _ _ _ (Ne.symm h8), State.setFlag, State.word_fset_other _ _ _ _ _ _ (Ne.symm h8)]
  exact State.word_fset_other _ _ _ _ _ _ (Ne.symm h0)

/-- A field apart from the counts and the record of refused accesses. -/
theorem State.accErr_fget_above (kind : Nat) {g : Fld} (i j : Nat) (hbase : 0x110 ≤ g.base) :
    (s.accErr who kind a).fget g i j = s.fget g i j := by
  have haddr : 0x110 ≤ g.addr i j := by unfold Fld.addr; omega
  have hcount : (accCount kind).addr 0 0 < 0x110 := by unfold accCount; split <;> decide
  unfold State.fget
  rw [State.accErr_word] <;> omega

end

/-! ## The decoder -/

section
variable {s : State} {who : Party} {a : Nat} (v : Word)

theorem State.regWrite_shut (h : s.shut who = true) : s.regWrite who a v = s := if_pos h

theorem State.regWrite_denied (h : s.shut who = false) (hm : s.mayAccess who = false) : s.regWrite who a v = s.accErr who 1 a := by
  simp [State.regWrite, State.access, h, hm]

theorem State.regWrite_misaligned (h : s.shut who = false) (hm : s.mayAccess who = true) (ha : a % 4 ≠ 0) :
    s.regWrite who a v = s.accErr who 3 a := by
  simp [State.regWrite, State.access, h, hm, ha]

theorem State.regWrite_unserved (h : s.shut who = false) (hm : s.mayAccess who = true) (ha : a % 4 = 0) (hs : s.served a = false) :
    s.regWrite who a v = s := by
  simp [State.regWrite, State.access, h, hm, ha, hs]

theorem State.rstN_of_open (h : s.shut who = false) : s.boot.rstN = false := by
  simp only [State.shut, Bool.or_eq_false_iff] at h
  exact h.1

end

/-! ## Writable fields -/

section
variable {s : State} {who : Party} {n a : Nat} {v : Word} {l : List WFld}

/-- A write meets the fields of a list that stand at its address. -/
theorem State.writeFields_filter (s : State) (who : Party) (n a : Nat) (v : Word) (l : List WFld) :
    s.writeFields who n a v l = s.writeFields who n a v (l.filter (fun w => (w.fld.member n a).isSome)) := by
  induction l generalizing s with
  | nil => rfl
  | cons w l ih =>
    by_cases hw : (w.fld.member n a).isSome
    · rw [List.filter_cons_of_pos (by exact hw)]
      exact ih _
    · have hnone : s.writeField who n a v w = s := by
        rw [State.writeField, Option.not_isSome_iff_eq_none.mp hw]
      rw [List.filter_cons_of_neg (by exact hw), ← ih s]
      exact congrArg (fun u : State => u.writeFields who n a v l) hnone

theorem State.writeFields_none (h : l.filter (fun w => (w.fld.member n a).isSome) = []) : s.writeFields who n a v l = s := by
  rw [State.writeFields_filter, h]
  rfl

theorem State.writeFields_one {w : WFld} (h : l.filter (fun w => (w.fld.member n a).isSome) = [w]) :
    s.writeFields who n a v l = s.writeField who n a v w := by
  rw [State.writeFields_filter, h]
  rfl

/-! ## The block of an address -/

theorem State.writeAt_glb (h : a < 0x1000) : s.writeAt who a v = s.writeGlb who a v := if_pos h

theorem State.writeAt_evg (hlow : 0x8000 ≤ a) (hhigh : a < 0x10000) : s.writeAt who a v = s.writeEvg who a v := by
  unfold State.writeAt
  rw [if_neg (by omega), if_neg (by omega), if_neg (by omega), if_neg (by omega), if_neg (by omega), if_neg (by omega), if_neg (by omega),
    if_neg (by omega), if_pos hhigh]

theorem State.writeAt_slc (hlow : 0x20000 ≤ a) (hhigh : a < 0x32000) :
    s.writeAt who a v = s.writeSlc who ((a - 0x20000) / 0x1000) a v := by
  unfold State.writeAt
  rw [if_neg (by omega), if_neg (by omega), if_neg (by omega), if_neg (by omega), if_neg (by omega), if_neg (by omega), if_neg (by omega),
    if_neg (by omega), if_neg (by omega), if_neg (by omega), if_neg (by omega), if_pos hhigh]

theorem State.writeAt_beyond (h : 0x48000 ≤ a) : s.writeAt who a v = s := by
  unfold State.writeAt
  rw [if_neg (by omega), if_neg (by omega), if_neg (by omega), if_neg (by omega), if_neg (by omega), if_neg (by omega), if_neg (by omega),
    if_neg (by omega), if_neg (by omega), if_neg (by omega), if_neg (by omega), if_neg (by omega), if_neg (by omega), if_neg (by omega)]

end

theorem getBits_bit (w : Word) (i : Nat) : getBits w i 1 = (w.getLsbD i).toNat := by
  rw [BitVec.getLsbD, Nat.toNat_testBit, getBits, Nat.shiftRight_eq_div_pow, Nat.pow_one]

/-- The whole word of a register written by a field of 32 bits. -/
theorem setBits_whole (w v : Word) : setBits w 0 32 (getBits v 0 32) = v := by
  apply BitVec.eq_of_getLsbD_eq
  intro i hi
  rw [getLsbD_setBits _ _ _ _ _ hi, if_pos (by omega), testBit_getBits]
  simp [hi]

section
variable {s : State} {who : Party} (v : Word)

/-- GLB_SCRATCHi takes the word (R12). -/
theorem State.writeAt_scratch {i : Nat} (hi : i < 4) : s.writeAt who (0x30 + 4 * i) v = s.setWord (0x30 + 4 * i) v := by
  have hfields : ∀ i < 4, glbWritable.filter (fun w => (w.fld.member 0 (0x30 + 4 * i)).isSome) = [⟨F.GLB_SCRATCH_DATA, .rw, []⟩] ∧
      F.GLB_SCRATCH_DATA.member 0 (0x30 + 4 * i) = some i := by decide
  obtain ⟨hone, hmember⟩ := hfields i hi
  have hglb : s.writeGlb who (0x30 + 4 * i) v = s.writeFields who 0 (0x30 + 4 * i) v glbWritable := by
    obtain rfl | rfl | rfl | rfl : i = 0 ∨ i = 1 ∨ i = 2 ∨ i = 3 := by omega
    all_goals rfl
  rw [State.writeAt_glb (by omega), hglb, State.writeFields_one hone]
  have haddr : F.GLB_SCRATCH_DATA.addr 0 i = 0x30 + 4 * i := by simp [Fld.addr, F.GLB_SCRATCH_DATA]
  simp only [State.writeField, hmember, List.isEmpty_nil, Bool.true_or, if_true, State.fset, haddr]
  exact congrArg _ (setBits_whole _ v)

/-- The identification registers are read only. -/
theorem State.writeAt_ids {a : Nat} (h : a < 0x30) : s.writeAt who a v = s := by
  have hfields : ∀ a < 0x30, glbWritable.filter (fun w => (w.fld.member 0 a).isSome) = [] := by decide
  have hglb : s.writeGlb who a v = s.writeFields who 0 a v glbWritable := by
    unfold State.writeGlb
    split
    rotate_right
    · rfl
    all_goals omega
  rw [State.writeAt_glb (by omega), hglb, State.writeFields_none (hfields a h)]

/-- A sealed TWIN stays, and the write is counted (R746). -/
theorem State.writeAt_twin {k : Nat} (hk : k < 18) (hsealed : s.flag F.PAT_STATUS_SEALED = true) :
    s.writeAt who (F.SLC_SHED_CTL_TWIN.addr k 0) v = s.accErr who 2 (F.SLC_SHED_CTL_TWIN.addr k 0) := by
  have hfields : ∀ k < 18, slcWritable.filter (fun w => (w.fld.member k (F.SLC_SHED_CTL_TWIN.addr k 0)).isSome) =
        [⟨F.SLC_SHED_CTL_TWIN, .rwl, [(3, 10)]⟩] ∧ F.SLC_SHED_CTL_TWIN.member k (F.SLC_SHED_CTL_TWIN.addr k 0) = some 0 := by decide
  obtain ⟨hone, hmember⟩ := hfields k hk
  have haddr : F.SLC_SHED_CTL_TWIN.addr k 0 = 0x20B00 + 0x1000 * k := by simp [Fld.addr, F.SLC_SHED_CTL_TWIN]; omega
  have hslc : s.writeSlc who k (F.SLC_SHED_CTL_TWIN.addr k 0) v = s.writeFields who k (F.SLC_SHED_CTL_TWIN.addr k 0) v slcWritable := by
    have hoff : F.SLC_SHED_CTL_TWIN.addr k 0 % 0x1000 = 0xB00 := by omega
    unfold State.writeSlc
    rw [hoff]
    rfl
  rw [State.writeAt_slc (by omega) (by omega), show (F.SLC_SHED_CTL_TWIN.addr k 0 - 0x20000) / 0x1000 = k by omega, hslc,
    State.writeFields_one hone]
  simp only [State.writeField, hmember, hsealed, if_true]

/-- EVG_CTL.RESEND takes every encoding but the reserved one (R12). -/
theorem State.writeAt_resend : (s.writeAt who 0x8000 v).fget F.EVG_CTL_RESEND =
    if getBits v 0 4 = 15 then s.fget F.EVG_CTL_RESEND else getBits v 0 4 := by
  have hone : evgWritable.filter (fun w => (w.fld.member 0 0x8000).isSome) = [⟨F.EVG_CTL_RESEND, .rw, [(0, 14)]⟩] := by decide
  have hmember : F.EVG_CTL_RESEND.member 0 0x8000 = some 0 := by decide
  have hevg : s.writeEvg who 0x8000 v = s.writeFields who 0 0x8000 v evgWritable := rfl
  have hlt : getBits v 0 4 < 16 := Nat.mod_lt _ (by decide)
  have hbits : getBits v F.EVG_CTL_RESEND.lsb F.EVG_CTL_RESEND.wid = getBits v 0 4 := rfl
  rw [State.writeAt_evg (by decide) (by decide), hevg, State.writeFields_one hone]
  simp only [State.writeField, hmember, hbits, List.isEmpty_cons, List.any_cons, List.any_nil, Bool.or_false, Bool.false_or, Nat.zero_le,
    decide_true, Bool.true_and, decide_eq_true_eq]
  by_cases hres : getBits v 0 4 = 15
  · rw [if_neg (by omega), if_pos hres]
  · rw [if_pos (by omega), if_neg hres, State.fget_fset_same _ _ _ _ _ (by decide)]
    exact Nat.mod_eq_of_lt hlt

/-- EVG_DROP is cleared by its CLR bit alone (R16). -/
theorem State.writeAt_evgDrop : s.writeAt who 0x800C v = if v.getLsbD 31 then s.setWord 0x800C 0 else s := by
  have hone : evgWritable.filter (fun w => (w.fld.member 0 0x800C).isSome) = [⟨F.EVG_DROP_CLR, .clr, []⟩] := by decide
  have hmember : F.EVG_DROP_CLR.member 0 0x800C = some 0 := by decide
  have hevg : s.writeEvg who 0x800C v = s.writeFields who 0 0x800C v evgWritable := rfl
  have hbit : getBits v F.EVG_DROP_CLR.lsb F.EVG_DROP_CLR.wid = (v.getLsbD 31).toNat := getBits_bit v 31
  rw [State.writeAt_evg (by decide) (by decide), hevg, State.writeFields_one hone]
  simp only [State.writeField, hmember, hbit]
  cases v.getLsbD 31 <;> rfl

theorem exec_registerWrite (h : s.boot.rstN = false) (off : BitVec 24) :
    exec (.registerWrite who off v) s = .next (s.after (s.regWrite who off.toNat v)) := next_run h _

theorem exec_registerWrite_taken {off : BitVec 24} (ht : s.takes who off.toNat) :
    exec (.registerWrite who off v) s = .next (s.after (s.writeAt who off.toNat v)) := next_command _ ht

end

end Sys2Proof.Machine
end

section
/-! The statement about register writes. -/
namespace Sys2Proof.Machine

/-- Settles O50: the decoder refuses and records, or the field that stands at the address takes the write as its access code says. -/
theorem registerWrites : Obligations.RegisterWrites := by
  unfold Obligations.RegisterWrites
  intro s who off v
  refine ⟨fun hrst => congrArg _ (State.run_asserted _ hrst), fun hrst hshut => ?shut, fun hopen hm => ?denied, fun hopen hm ha => ?misaligned,
    fun hopen hm ha hs => ?unserved, fun ht => ⟨fun i hi ha => ?scratch, fun ha => ?ids, fun ha => ?beyond, fun k hk ha hsealed => ?twin,
      fun ha => ?resend, fun ha => ?drop⟩⟩
  case shut => rw [exec_registerWrite v hrst, State.regWrite_shut v hshut]
  case denied =>
    refine ⟨_, by rw [exec_registerWrite v (State.rstN_of_open hopen), State.regWrite_denied v hopen hm], ?_, ?_, ?_, ?_, fun a h0 h8 hc => ?_⟩
    · exact s.accErr_count who _ 1 (by decide) (by decide)
    · exact s.accErr_kind who _ (by decide)
    · exact s.accErr_wordNo who _ 1 off.isLt
    · exact s.accErr_valid who _ 1
    · exact s.accErr_word who _ h0 h8 hc
  case misaligned =>
    exact ⟨_, by rw [exec_registerWrite v (State.rstN_of_open hopen), State.regWrite_misaligned v hopen hm ha],
      s.accErr_count who _ 3 (by decide) (by decide), s.accErr_kind who _ (by decide)⟩
  case unserved => rw [exec_registerWrite v (State.rstN_of_open hopen), State.regWrite_unserved v hopen hm ha hs]
  case scratch => rw [exec_registerWrite_taken v ht, ha, State.writeAt_scratch v hi]
  case ids => rw [exec_registerWrite_taken v ht, State.writeAt_ids v ha]
  case beyond => rw [exec_registerWrite_taken v ht, State.writeAt_beyond ha]
  case twin =>
    refine ⟨_, by rw [exec_registerWrite_taken v ht, ha, State.writeAt_twin v hk hsealed], ?_, ?_, ?_⟩
    · exact s.accErr_fget_above who _ 2 k 0 (by decide)
    · exact s.accErr_count who _ 2 (by decide) (by decide)
    · exact s.accErr_kind who _ (by decide)
  case resend => exact ⟨_, by rw [exec_registerWrite_taken v ht, ha], State.writeAt_resend v⟩
  case drop =>
    refine ⟨_, by rw [exec_registerWrite_taken v ht, ha, State.writeAt_evgDrop], fun h => ?_, fun h => ?_⟩
    · rw [if_pos h, State.word_setWord_same]
    · rw [if_neg (by rw [h]; exact Bool.false_ne_true)]

end Sys2Proof.Machine
end

section
/-!
SUPPORT. A message taken out of its receive buffer, register accesses in the MGT class (05 R189, R190; 21 R738, R739), and messages that
fail a check or are for another node (05 R192, R193; 03 R87).
-/
namespace Sys2Proof.Machine

/-! ## A message heard -/

section
variable (s : State) (p : Nat) (m : Msg)

theorem State.present_field {α : Type} (get : State → α) (hports : ∀ (s : State) x, get { s with ports := x } = get s) :
    get (s.present p m) = get s := by
  unfold State.present
  split
  · rfl
  · exact hports _ _

/-- Taking a message out of the receive buffer touches the ports alone. -/
theorem State.heard_field {α : Type} (get : State → α) (hports : ∀ (s : State) x, get { s with ports := x } = get s) :
    get (s.heard p m) = get s := by
  rw [← State.present_field s p m get hports]
  unfold State.heard State.consume
  dsimp only
  split
  · exact hports _ _
  · rfl

@[simp] theorem State.heard_boot : (s.heard p m).boot = s.boot := s.heard_field p m (·.boot) fun _ _ => rfl
@[simp] theorem State.heard_regs : (s.heard p m).regs = s.regs := s.heard_field p m (·.regs) fun _ _ => rfl
@[simp] theorem State.heard_pat : (s.heard p m).pat = s.pat := s.heard_field p m (·.pat) fun _ _ => rfl
@[simp] theorem State.heard_cur : (s.heard p m).cur = s.cur := s.heard_field p m (·.cur) fun _ _ => rfl
@[simp] theorem State.heard_now : (s.heard p m).now = s.now := s.heard_field p m (·.now) fun _ _ => rfl
@[simp] theorem State.heard_slices : (s.heard p m).slices = s.slices := s.heard_field p m (·.slices) fun _ _ => rfl
@[simp] theorem State.heard_fget (g : Fld) (i j : Nat) : (s.heard p m).fget g i j = s.fget g i j :=
  s.heard_field p m (·.fget g i j) fun _ _ => rfl

end

/-! ## Register accesses in the MGT class -/

section
variable {v : State} {m : Msg}

/-- The register that a RegRd or RegWr names. -/
def mgtAddr (m : Msg) : Nat := (slotField m 1 0 24).toNat

theorem State.shut_mgt (h : v.boot.rstN = false) (src : Node) : v.shut (.mgt src) = (!v.ready || v.flushing) := by
  simp [State.shut, h]

theorem State.mgtAccess_shut (h : v.shut (.mgt m.src) = true) : v.mgtAccess m = v := if_pos h

theorem State.mgtAccess_denied (h : v.shut (.mgt m.src) = false) (hm : v.mayAccess (.mgt m.src) = false) :
    v.mgtAccess m = (v.accErr (.mgt m.src) 1 (mgtAddr m)).send (regRsp m 0 1) := by
  simp [State.mgtAccess, h, hm, mgtAddr]

theorem State.mgtAccess_misaligned (h : v.shut (.mgt m.src) = false) (hm : v.mayAccess (.mgt m.src) = true) (ha : mgtAddr m % 4 ≠ 0) :
    v.mgtAccess m = (v.accErr (.mgt m.src) 3 (mgtAddr m)).send (regRsp m 0 2) := by
  rw [State.mgtAccess, if_neg (by simp [h]), if_neg (by simp [hm])]
  exact if_pos ha

theorem State.mgtAccess_read (h : v.shut (.mgt m.src) = false) (hm : v.mayAccess (.mgt m.src) = true) (ha : mgtAddr m % 4 = 0)
    (hop : m.op = Op.regRd) : v.mgtAccess m = (v.regRead (.mgt m.src) (mgtAddr m)).2.send
      (regRsp m (v.regRead (.mgt m.src) (mgtAddr m)).1 0) := by
  rw [State.mgtAccess, if_neg (by simp [h]), if_neg (by simp [hm])]
  exact (if_neg (not_not_intro ha)).trans (if_pos hop)

theorem State.mgtAccess_write (h : v.shut (.mgt m.src) = false) (hm : v.mayAccess (.mgt m.src) = true) (ha : mgtAddr m % 4 = 0)
    (hop : m.op ≠ Op.regRd) (hs : v.served (mgtAddr m) = true) :
    v.mgtAccess m = (v.writeAt (.mgt m.src) (mgtAddr m) (slotField m 1 32 32)).send (regRsp m 0 0) := by
  rw [State.mgtAccess, if_neg (by simp [h]), if_neg (by simp [hm])]
  refine (if_neg (not_not_intro ha)).trans ((if_neg hop).trans ?_)
  exact congrArg (fun u : State => u.send (regRsp m 0 0)) (State.regWrite_eq _ ⟨h, hm, ha, hs⟩)

theorem State.regRead_unserved {who : Party} {a : Nat} (hs : v.served a = false) : v.regRead who a = (0, v) := if_pos (by simp [hs])

theorem State.regRead_look {who : Party} {a : Nat} (hs : v.served a = true) (hlow : a < 0x40000) (hnow : a ≠ 0x4008) :
    v.regRead who a = (v.look a, v) := by
  rw [State.regRead, if_neg (by simp [hs]), if_neg hnow, if_neg (by omega)]

end

/-! ## Messages that fail a check -/

section
variable {s : State} {p : Nat} {m : Msg}

theorem exec_rejected {c : Instr} (hc : c = .messageForward p m ∨ c = .unexpectedMessage p m) : exec c s = .next (s.rejected p m) := by
  rcases hc with rfl | rfl <;> rfl

theorem State.rejected_pass (hrst : s.boot.rstN = false) (hv : (s.present p m).verdict p m = .pass) : s.rejected p m = s.after s := by
  rw [State.rejected, State.run_eq _ hrst, hv]
  simp

theorem State.rejected_verdict {w : Verdict} (hrst : s.boot.rstN = false) (ha : s.arrives p m = true)
    (hv : (s.present p m).verdict p m = w) (hw : w ≠ .pass) : s.rejected p m = s.after ((s.heard p m).applyVerdict p m w) := by
  rw [State.rejected, State.run_eq _ hrst, if_pos (by simp [ha, hv, hw])]
  unfold State.receive
  dsimp only
  rw [hv]
  cases w
  case pass => exact absurd rfl hw
  all_goals rfl

/-- The state in which a case has been counted in `f` and recorded, before the event that it raises. -/
def State.caseNoted (s : State) (p : Nat) (m : Msg) (i : Nat) (f : Fld) : State :=
  (((((s.bump f p).setFlag F.PRT_MSG_LAST_VALID true p).fset F.PRT_MSG_LAST_CASE i p).fset
    F.PRT_MSG_LAST_LEN m.len.toNat p).fset F.PRT_MSG_LAST_OPCODE m.op.toNat p).fset F.PRT_MSG_LASTSRC_SRC m.src.toNat p

theorem State.msgCase_eq (s : State) (p : Nat) (m : Msg) (i : Nat) : ∃ f, s.msgCase p m i =
    if i = 8 then s.caseNoted p m i f else (s.caseNoted p m i f).raise (portSource p 3) Cls.message none := ⟨_, rfl⟩

/-- A port's register after a case has been counted and recorded. -/
theorem State.msgCase_fget (s : State) (i : Nat) {g : Fld} {x : Nat} (h : ∀ f, (s.caseNoted p m i f).fget g p = x)
    (hg : F.EVG_DROP_FULL.below g = true) (hw : g.lsb + g.wid ≤ 32) : (s.msgCase p m i).fget g p = x := by
  obtain ⟨f, hf⟩ := s.msgCase_eq p m i
  rw [hf, ← h f]
  split
  · rfl
  · exact State.raise_fget_unit _ _ _ _ _ _ hg hw

theorem State.msgCase_ports (s : State) (i : Nat) : (s.msgCase p m i).ports = s.ports := by
  obtain ⟨f, hf⟩ := s.msgCase_eq p m i
  have hnoted : (s.caseNoted p m i f).ports = s.ports := by
    simp only [State.caseNoted, State.fset_ports, State.setFlag_ports, State.bump_ports]
  rw [hf]
  split
  · exact hnoted
  · rw [State.raise_ports, hnoted]

/-- Fields of PRTn_MSG_LAST and PRTn_MSG_LASTSRC after a case has been noted. -/
theorem State.caseNoted_last (s : State) (f : Fld) {i : Nat} (hi : i < 16) :
    (s.caseNoted p m i f).fget F.PRT_MSG_LAST_CASE p = i ∧ (s.caseNoted p m i f).fget F.PRT_MSG_LAST_OPCODE p = m.op.toNat ∧
      (s.caseNoted p m i f).fget F.PRT_MSG_LASTSRC_SRC p = m.src.toNat ∧ (s.caseNoted p m i f).fget F.PRT_MSG_LAST_VALID p = 1 := by
  unfold State.caseNoted
  simp (disch := decide) only [State.fget_fset_beside, State.fget_fset_bits, State.fget_fset_same, State.fget_setFlag_same, if_true]
  exact ⟨Nat.mod_eq_of_lt hi, Nat.mod_eq_of_lt m.op.isLt, Nat.mod_eq_of_lt m.src.isLt, trivial⟩

/-- The role of the port by which a node that is not the home is reached. -/
theorem State.forward_dest {i : Nat} (hi : s.entryOf m.dst = some i) (hhome : (s.entry i).home = false) :
    (s.entryOf m.dst).map (fun i => if (s.entry i).home then Role.off else s.role (s.entry i).prim) = some (s.role (s.entry i).prim) := by
  simp [hi, hhome]

/-- A message that may not pass through is counted at its port (R87). -/
def State.crossed (s : State) (p : Nat) : State := (s.bump F.PRT_RT_ERRCNT_XIT p).raise (portSource p 2) Cls.routing none

theorem State.crossed_count (s : State) (p : Nat) : (s.crossed p).fget F.PRT_RT_ERRCNT_XIT p =
    min (s.fget F.PRT_RT_ERRCNT_XIT p + 1) (onesMask F.PRT_RT_ERRCNT_XIT.wid) := by
  rw [State.crossed, State.raise_fget_unit _ _ _ _ _ _ (by decide) (by decide)]
  exact State.fget_bumpBy_same _ _ _ _ _ (by decide)

theorem State.crossed_ports (s : State) (p : Nat) : (s.crossed p).ports = s.ports := by
  rw [State.crossed, State.raise_ports, State.bump_ports]

theorem State.forward_unknown (h : s.entryOf m.dst = none) : s.forward p m = s.crossed p := by
  unfold State.forward
  rw [h]
  cases s.role p <;> rfl

theorem State.forward_clients {i : Nat} (hrole : s.role p = .client) (hi : s.entryOf m.dst = some i) (hhome : (s.entry i).home = false)
    (hdest : s.role (s.entry i).prim = .client) : s.forward p m = s.crossed p := by
  unfold State.forward
  rw [State.forward_dest hi hhome, hrole, hdest]
  rfl

theorem State.forward_peer {i : Nat} (hrole : s.role p = .client) (hi : s.entryOf m.dst = some i) (hhome : (s.entry i).home = false)
    (hdest : s.role (s.entry i).prim = .peer) (hsafe : s.isSafe = false) : s.sends (s.forward p m) m := by
  unfold State.forward
  rw [State.forward_dest hi hhome, hrole, hdest]
  simp only [Bool.not_true, Bool.false_eq_true, if_false, hsafe, false_and]
  intro d hd
  have hsent : m ∈ ((s.send m).port d).tx := s.sends_send m d hd
  rw [hd]
  dsimp only
  split
  · rw [State.modPort, State.port_setPort]
    split
    · next h => subst h; exact hsent
    · exact hsent
  · exact hsent

end

end Sys2Proof.Machine
end

section
/-! The statements about accesses in the MGT class and about messages that fail a check. -/
namespace Sys2Proof.Machine

/-- Settles O51: the two messages are one operation, which the decoder refuses, reads or writes. -/
theorem mgtAccesses : Obligations.MgtAccesses := by
  unfold Obligations.MgtAccesses
  intro s v p a m w c o hc hw hadm hv ha
  have hexec : exec c s = .next (s.after (v.mgtAccess w)) := by
    simp only [List.mem_cons, List.not_mem_nil, or_false, Prod.mk.injEq] at hc
    rcases hc with ⟨rfl, rfl⟩ | ⟨rfl, rfl⟩
    all_goals
      subst hw hv
      exact next_message _ hadm
  have hop : w.op = o := by rw [hw]
  have haddr : a = mgtAddr w := ha
  have hshut : v.shut (.mgt w.src) = (!v.ready || v.flushing) := State.shut_mgt (by rw [hv, State.heard_boot]; exact hadm.1) _
  rw [hexec, haddr]
  refine ⟨fun h => ?closed, fun hready hflush => ?opened⟩
  case closed =>
    have : v.shut (.mgt w.src) = true := by rcases h with h | h <;> simp [hshut, h]
    rw [State.mgtAccess_shut this]
  case opened =>
    have hopen : v.shut (.mgt w.src) = false := by simp [hshut, hready, hflush]
    refine ⟨fun hm => by rw [State.mgtAccess_denied hopen hm], fun hm hmis => by rw [State.mgtAccess_misaligned hopen hm hmis],
      fun hm hal hrd hlow hnow hs => ?_, fun hm hal hrd hs => ?_, fun hm hal hwr hs => ?_⟩
    · rw [State.mgtAccess_read hopen hm hal (hop.trans hrd), State.regRead_look hs hlow hnow]
    · rw [State.mgtAccess_read hopen hm hal (hop.trans hrd), State.regRead_unserved hs]
    · rw [State.mgtAccess_write hopen hm hal (by rw [hop, hwr]; decide) hs]

/-- Settles O52: the two commands apply the verdict of the checks to the message taken out of its buffer. -/
theorem rejectedMessages : Obligations.RejectedMessages := by
  unfold Obligations.RejectedMessages
  intro s v p m c hc hrst ha hv
  have happly : ∀ w, (s.present p m).verdict p m = w → w ≠ .pass → exec c s = .next (s.after (v.applyVerdict p m w)) := fun w h hw => by
    rw [exec_rejected hc, State.rejected_verdict hrst ha h hw, hv]
  refine ⟨fun h => by rw [exec_rejected hc, State.rejected_pass hrst h], fun i h hi => ?discard, fun h => ?source, fun h => ?forward,
    fun h => ?unavailable, fun h => ?resetting, fun h => ?unhomed, fun h => ?noClass⟩
  case unavailable => rw [happly _ h (by simp), State.applyVerdict]
  case resetting => rw [happly _ h (by simp), State.applyVerdict]
  case unhomed => rw [happly _ h (by simp), State.applyVerdict]
  case noClass => rw [happly _ h (by simp), State.applyVerdict]
  case discard =>
    have hlast := fun f => v.caseNoted_last (p := p) (m := m) f (i := i) (by omega)
    have hcase := happly _ h (by simp)
    rw [State.applyVerdict] at hcase
    refine ⟨_, hcase, ?_, ?_, ?_, ?_, v.msgCase_ports i⟩
    · exact v.msgCase_fget i (fun f => (hlast f).1) (by decide) (by decide)
    · exact v.msgCase_fget i (fun f => (hlast f).2.1) (by decide) (by decide)
    · exact v.msgCase_fget i (fun f => (hlast f).2.2.1) (by decide) (by decide)
    · exact congrArg (· != 0) (v.msgCase_fget i (fun f => (hlast f).2.2.2) (by decide) (by decide))
  case source =>
    have hsource := happly _ h (by simp)
    rw [State.applyVerdict] at hsource
    refine ⟨_, hsource, by rw [State.raise_ports, State.bump_ports], ?_⟩
    rw [State.raise_fget_unit _ _ _ _ _ _ (by decide) (by decide)]
    exact State.fget_bumpBy_same _ _ _ _ _ (by decide)
  case forward =>
    have hfwd := happly _ h (by simp)
    rw [State.applyVerdict] at hfwd
    refine ⟨fun i hrole hi hhome hdest hsafe => ⟨_, hfwd, State.forward_peer hrole hi hhome hdest hsafe⟩,
      fun i hrole hi hhome hdest => ?_, fun hnone => ?_⟩
    · rw [State.forward_clients hrole hi hhome hdest] at hfwd
      exact ⟨_, hfwd, v.crossed_ports p, v.crossed_count p⟩
    · rw [State.forward_unknown hnone] at hfwd
      exact ⟨_, hfwd, v.crossed_ports p, v.crossed_count p⟩

end Sys2Proof.Machine
end

section
/-!
SUPPORT. The FATAL report and the two ladders of the watchdogs (17 R632 to R643, 19 R697, R701): what each stage of a report leaves
of the registers and of Umevo's own state.
-/
namespace Sys2Proof.Machine

variable {s : State}

theorem State.isSafe_notice (s : State) (x : Notice) : (s.notice x).isSafe = s.isSafe :=
  congrArg (· != 0) (State.notice_fget s x _ _ _ (by decide) (by decide))

theorem State.isSafe_logEntry (s : State) (e : LogEntry) : (s.logEntry e).isSafe = s.isSafe :=
  congrArg (· != 0) (State.logEntry_fget s e _ _ _ (by decide) (by decide))

theorem State.isSafe_raiseSafety (s : State) (i : Nat) : (s.raiseSafety i).isSafe = s.isSafe :=
  congrArg (· != 0) (State.raiseSafety_fget s i _ _ _ (by decide) (by decide))

theorem State.safeCause_eq (h : s.isSafe = false) (cause unit : BitVec 8) : s.safeCause cause unit =
    ((s.logEntry (s.entryNow 0 none unit cause none)).notice (monitorNotice cause 0 true unit none none)).enterSafe cause := by
  simp [State.safeCause, h]

theorem State.safeCause_idle (h : s.isSafe = true) (cause unit : BitVec 8) : s.safeCause cause unit = s := by
  simp [State.safeCause, h]

theorem State.enterSafe_due (h : s.isSafe = false) (cause : BitVec 8) : (s.enterSafe cause).due = s.due ++ [Reaction.safe] := by
  simp [State.enterSafe_eq h, State.react]

/-- While the log has room an entry is appended to it and nothing else moves. -/
theorem State.logEntry_room (h : s.log.length < 256) (e : LogEntry) : s.logEntry e = { s with log := s.log ++ [e] } := by
  simp [State.logEntry, h]

/-! ## The class FATAL (19 R697) -/

/-- A FATAL error counted, logged and raised, before its notice and its reaction. -/
def State.fatalReported (s : State) (cause unit : BitVec 8) (a : Option Addr) : State :=
  (((s.bump F.SAF_CNT1_FATAL).logEntry ((s.bump F.SAF_CNT1_FATAL).entryNow 4 none unit cause a)).raiseSafety 5).setFlag F.SAF_FAULT_FATAL true

theorem State.fatalReported_fget (s : State) (cause unit : BitVec 8) (a : Option Addr) {g : Fld}
    (h : Fld.allApart [F.SAF_CNT1_FATAL, F.SAF_LOG_STAT_DROPPED, F.EVG_DROP_FULL, F.SAF_FAULT_FATAL] (g.addr 0 0) g.lsb g.wid = true)
    (hg : g.lsb + g.wid ≤ 32) : (s.fatalReported cause unit a).fget g = s.fget g := by
  have hdropped := Fld.allApart_mem h (f := F.SAF_LOG_STAT_DROPPED) (by simp)
  have hfull := Fld.allApart_mem h (f := F.EVG_DROP_FULL) (by simp)
  rw [State.fatalReported, State.setFlag, State.fget_fset_apart _ _ _ _ _ _ (Fld.allApart_mem h (f := F.SAF_FAULT_FATAL) (by simp)) hg,
    State.raiseSafety_fget _ _ _ _ _ (by simp [Fld.allApart, hfull]) hg,
    State.logEntry_fget _ _ _ _ _ (by simp [Fld.allApart, hdropped, hfull]) hg]
  exact State.fget_fset_apart _ _ _ _ _ _ (Fld.allApart_mem h (f := F.SAF_CNT1_FATAL) (by simp)) hg

theorem State.fatalReported_flagged (s : State) (cause unit : BitVec 8) (a : Option Addr) :
    (s.fatalReported cause unit a).fget F.SAF_FAULT_FATAL = 1 :=
  State.fget_setFlag_same _ _ _ _ _ (by decide) (by decide)

theorem State.fatalReported_count (s : State) (cause unit : BitVec 8) (a : Option Addr) :
    (s.fatalReported cause unit a).fget F.SAF_CNT1_FATAL = min (s.fget F.SAF_CNT1_FATAL + 1) 0x7FFF := by
  rw [State.fatalReported, State.setFlag, State.fget_fset_apart _ _ _ _ _ _ (by decide) (by decide),
    State.raiseSafety_fget _ _ _ _ _ (by decide) (by decide), State.logEntry_fget _ _ _ _ _ (by decide) (by decide)]
  exact State.fget_bumpBy_same _ _ _ _ _ (by decide)

theorem State.fatalReported_isSafe (s : State) (cause unit : BitVec 8) (a : Option Addr) :
    (s.fatalReported cause unit a).isSafe = s.isSafe :=
  congrArg (· != 0) (s.fatalReported_fget cause unit a (by decide) (by decide))

/-- A FATAL error acts by a warm reset, and not by the safe state (19 R697). -/
def State.fatalWarm (s : State) : Bool := s.flag F.SAF_CTL_FATAL_ACT && s.lifecycle != 2

theorem State.fatalReported_warm (s : State) (cause unit : BitVec 8) (a : Option Addr) :
    (s.fatalReported cause unit a).fatalWarm = s.fatalWarm := by
  simp only [State.fatalWarm, State.flag, State.lifecycle]
  rw [State.fatalReported_fget s cause unit a (by decide) (by decide), State.fatalReported_fget s cause unit a (by decide) (by decide)]

/-- Outside the reset sequence the report is noticed, and then acts unless the safe state is in force already. -/
theorem State.fatal_eq (s : State) (cause unit : BitVec 8) (a : Option Addr) : ∃ x,
    s.fatal cause unit a false =
      if s.isSafe then (s.fatalReported cause unit a).notice x
      else if s.fatalWarm then ((s.fatalReported cause unit a).notice x).react .warm
      else ((s.fatalReported cause unit a).notice x).enterSafe cause := by
  refine ⟨monitorNotice cause 4 (s.isSafe || (!s.isSafe && !s.fatalWarm)) unit none a, ?_⟩
  rw [← s.fatalReported_isSafe cause unit a, ← s.fatalReported_warm cause unit a]
  unfold State.fatal
  simp only [Bool.or_false]
  rfl

theorem State.fatal_reads (s : State) (cause unit : BitVec 8) (a : Option Addr) {g : Fld}
    (h : Fld.allApart [F.SAF_NOTICE_COUNT, F.PRT_RT_DROPCNT_NOROUTE] (g.addr 0 0) g.lsb g.wid = true)
    (hs : Fld.allApart [F.EVG_DROP_FULL, F.SAF_STATUS_SAFE, F.SAF_STATUS_SAFE_CAUSE] (g.addr 0 0) g.lsb g.wid = true)
    (hg : g.lsb + g.wid ≤ 32) : (s.fatal cause unit a false).fget g = (s.fatalReported cause unit a).fget g := by
  obtain ⟨x, hx⟩ := s.fatal_eq cause unit a
  rw [hx]
  split
  case isTrue => exact State.notice_fget _ _ _ _ _ h hg
  case isFalse hsafe =>
    split
    · rw [State.react_fget, State.notice_fget _ _ _ _ _ h hg]
    · rw [State.enterSafe_status (by rw [State.isSafe_notice, State.fatalReported_isSafe]; simpa using hsafe) cause
          (Fld.allApart_mem hs (f := F.EVG_DROP_FULL) (by simp)) hg, State.setFlag,
        State.fget_fset_apart _ _ _ _ _ _ (Fld.allApart_mem hs (f := F.SAF_STATUS_SAFE_CAUSE) (by simp)) hg,
        State.fget_fset_apart _ _ _ _ _ _ (Fld.allApart_mem hs (f := F.SAF_STATUS_SAFE) (by simp)) hg,
        State.notice_fget _ _ _ _ _ h hg]

/-! ## What Umevo's own reports leave of its state -/

theorem State.umvLog_umv (s : State) (c u : Nat) (t : Tenant) (d : Nat) :
    ∃ l, (s.umvLog c u t d).umv = { s.umv with log := l } := by
  unfold State.umvLog
  split
  · exact ⟨s.umv.log, rfl⟩
  · exact ⟨_, rfl⟩

/-- A trap that is taken is marked so and logged: nothing else of Umevo's state moves (17 R643). -/
theorem State.takeTrap_umv (s : State) : ∃ b l, s.takeTrap.umv = { s.umv with took := b, log := l } := by
  unfold State.takeTrap
  split
  · exact ⟨s.umv.took, s.umv.log, rfl⟩
  · dsimp only
    split
    · exact ⟨true, s.umv.log, rfl⟩
    · obtain ⟨l, hl⟩ := (((s.modUmv (fun u => { u with took := true })).fset F.WDG_UMV_STATUS_STATE 3).notice
        (watchdogNotice s.umv.trapCause 2 0 s.isSafe)).umvLog_umv 0x08 0 0 s.umv.trapCause.toNat
      refine ⟨true, l, hl.trans ?_⟩
      rw [State.notice_umv]
      rfl

/-! ## Writes of the watchdog registers (17 R633, R635, R642) -/

theorem State.writeAt_wdg {who : Party} {a : Nat} {v : Word} (hlow : 0x2000 ≤ a) (hhigh : a < 0x3000) :
    s.writeAt who a v = s.writeWdg who a v := by
  unfold State.writeAt
  rw [if_neg (by omega), if_neg (by omega), if_pos hhigh]

theorem State.writeAt_cwdCtl (who : Party) (v : Word) : s.writeAt who 0x2000 v = s.cwdCtl who v := by
  rw [State.writeAt_wdg (by decide) (by decide), State.writeWdg, if_pos rfl]

/-- The key of a service register is the low half of the word that carries it. -/
theorem key_of_word (key : BitVec 16) : (key.zeroExtend 32).extractLsb' 0 16 = key := by
  apply BitVec.eq_of_toNat_eq
  simp [Nat.mod_eq_of_lt key.isLt]

theorem State.writeAt_cwdSvc (who : Party) (key : BitVec 16) : s.writeAt who 0x2004 (key.zeroExtend 32) = s.cwdService who key := by
  rw [State.writeAt_wdg (by decide) (by decide), State.writeWdg, if_neg (by decide), if_pos rfl, key_of_word]

theorem State.writeAt_swdSvc (who : Party) (key : BitVec 16) : s.writeAt who 0x2010 (key.zeroExtend 32) = s.swdService who key := by
  rw [State.writeAt_wdg (by decide) (by decide), State.writeWdg, if_neg (by decide), if_neg (by decide), if_pos rfl, key_of_word]

theorem exec_cwdKeyA {who : Party} (h : s.takes who 0x2004) (key : BitVec 16) :
    exec (.cwdKeyA who key) s = .next (s.after (s.cwdService who key)) := by
  rw [← State.writeAt_cwdSvc]
  exact next_command _ h

theorem exec_cwdKeyB {who : Party} (h : s.takes who 0x2004) (key : BitVec 16) :
    exec (.cwdKeyB who key) s = .next (s.after (s.cwdService who key)) := by
  rw [← State.writeAt_cwdSvc]
  exact next_command _ h

theorem exec_cwdCtlWrite {who : Party} (h : s.takes who 0x2000) (v : Word) :
    exec (.cwdCtlWrite who v) s = .next (s.after (s.cwdCtl who v)) := by
  rw [← State.writeAt_cwdCtl]
  exact next_command v h

theorem exec_swdService {who : Party} (h : s.takes who 0x2010) (key : BitVec 16) :
    exec (.swdService who key) s = .next (s.after (s.swdService who key)) := by
  rw [← State.writeAt_swdSvc]
  exact next_command _ h

/-- A write of the CWD's registers that is not Umevo's in machine privilege is rejected and reported (17 R636). -/
theorem exec_cwdRejectedWrite {who : Party} (hwho : who ≠ .umevoM) :
    (s.takes who 0x2000 → exec (.cwdRejectedWrite who 0) s = .next (s.after s.cwdReject)) ∧
    (s.takes who 0x2004 → exec (.cwdRejectedWrite who 4) s = .next (s.after s.cwdReject)) := by
  have hexec : ∀ off, off = 0 ∨ off = 4 → exec (.cwdRejectedWrite who off) s = .next (s.command who (0x2000 + off) 0) := by
    rintro off (rfl | rfl) <;> exact congrArg _ (if_pos (by simp [hwho]))
  constructor
  · intro h
    rw [hexec 0 (.inl rfl), next_command 0 h, State.writeAt_cwdCtl, State.cwdCtl, if_pos hwho]
  · intro h
    rw [hexec 4 (.inr rfl), next_command 0 h, show (0 : Word) = (0 : BitVec 16).zeroExtend 32 from rfl, State.writeAt_cwdSvc,
      State.cwdService, if_pos hwho]

section CwdService

theorem State.cwdService_keyA (hkey : s.umv.keyA = false) (key : BitVec 16) : s.cwdService .umevoM key =
    if key ≠ 0x3C0F then s.cwdExpire 3
    else if s.cwdOpenNow then s.modUmv (fun u => { u with keyA := true }) else s.cwdOutside 2 := by
  simp [State.cwdService, hkey]

theorem State.cwdService_keyB (hkey : s.umv.keyA = true) (key : BitVec 16) : s.cwdService .umevoM key =
    if key ≠ 0xC3F0 then s.cwdExpire 3
    else if s.cwdOpenNow then (s.modUmv (fun u => { u with restarted := false })).cwdStart else s.cwdOutside 2 := by
  simp [State.cwdService, hkey]

theorem State.cwdStart_running (h : s.umv.frozen = none) : s.cwdStart = { s with umv := { s.umv with
    start := s.now, period := s.fget F.WDG_CWD_CTL_PERIOD, open_ := s.fget F.WDG_CWD_CTL_OPEN, keyA := false } } := by
  simp [State.cwdStart, State.modUmv, h]

end CwdService

/-! ## The ladder of the core watchdog (17 R637, R640) -/

/-- An expiry reported: the notice, SAF_FAULT.CWD, and the healthy interval started again. -/
def State.cwdReported (s : State) (x : Notice) : State := ((s.notice x).setFlag F.SAF_FAULT_CWD true).healthyAgain

theorem State.cwdReported_umv (s : State) (x : Notice) : ∃ t, (s.cwdReported x).umv = { s.umv with healthyFrom := t } := by
  refine ⟨if ((s.notice x).setFlag F.SAF_FAULT_CWD true).ready then some ((s.notice x).setFlag F.SAF_FAULT_CWD true).now else none, ?_⟩
  simp only [State.cwdReported, State.healthyAgain, State.modUmv, State.setFlag_umv, State.notice_umv]

theorem State.cwdReported_isSafe (s : State) (x : Notice) : (s.cwdReported x).isSafe = s.isSafe :=
  calc (s.cwdReported x).isSafe
    _ = ((s.notice x).setFlag F.SAF_FAULT_CWD true).isSafe := rfl
    _ = s.isSafe := by rw [State.setFlag, State.isSafe_fset _ _ _ _ (by decide), State.isSafe_notice]

/-- The first rung resets the core and remembers that it did. -/
theorem State.cwdExpire_first (hsafe : s.isSafe = false) (hboot : s.bootFailed = false) (hfresh : s.umv.restarted = false)
    (cause : BitVec 8) : ∃ u : State, s.cwdExpire cause =
      (u.modUmv (fun v => { v with restarted := true })).umvLog 0x09 0 0 cause.toNat :=
  ⟨(((s.cwdReported (watchdogNotice cause 1 1 false)).raise 8 Cls.watchdog none).umevoReset).cwdStart, by
    simp [State.cwdExpire, State.cwdReported, hsafe, hboot, hfresh]⟩

/-- The second rung asks for a chip reset and counts it. -/
theorem State.cwdExpire_second (hsafe : s.isSafe = false) (hrung : s.bootFailed = true ∨ s.umv.restarted = true)
    (hchain : s.umv.chain < s.umv.n) (cause : BitVec 8) :
    s.cwdExpire cause = (s.cwdReported (watchdogNotice cause 1 2 false)).chainUp.cwdStart.react .warm := by
  have hlater : (!s.umv.restarted && !s.bootFailed) = false := by rcases hrung with h | h <;> simp [h]
  simp [State.cwdExpire, State.cwdReported, hsafe, hlater, hchain]

/-- The third rung enters the safe state. -/
theorem State.cwdExpire_third (hsafe : s.isSafe = false) (hrung : s.bootFailed = true ∨ s.umv.restarted = true)
    (hchain : s.umv.n ≤ s.umv.chain) (cause : BitVec 8) :
    s.cwdExpire cause = (s.cwdReported (watchdogNotice cause 1 3 true)).cwdStart.enterSafe cause := by
  have hlater : (!s.umv.restarted && !s.bootFailed) = false := by rcases hrung with h | h <;> simp [h]
  simp [State.cwdExpire, State.cwdReported, hsafe, hlater, Nat.not_lt.mpr hchain]

theorem State.mem_due_react (s : State) (r : Reaction) : r ∈ (s.react r).due := List.mem_append_right _ (List.mem_singleton_self r)

theorem State.cwdExpire_restarts (hsafe : s.isSafe = false) (hboot : s.bootFailed = false) (hfresh : s.umv.restarted = false)
    (cause : BitVec 8) : (s.cwdExpire cause).umv.restarted = true := by
  obtain ⟨u, hu⟩ := State.cwdExpire_first hsafe hboot hfresh cause
  obtain ⟨l, hl⟩ := (u.modUmv (fun v => { v with restarted := true })).umvLog_umv 0x09 0 0 cause.toNat
  rw [hu, hl]
  rfl

theorem State.cwdExpire_chains (hsafe : s.isSafe = false) (hrung : s.bootFailed = true ∨ s.umv.restarted = true)
    (hchain : s.umv.chain < s.umv.n) (hfirst : s.umv.chained = false) (cause : BitVec 8) :
    (s.cwdExpire cause).umv.chain = s.umv.chain + 1 ∧ Reaction.warm ∈ (s.cwdExpire cause).due := by
  rw [State.cwdExpire_second hsafe hrung hchain]
  refine ⟨?_, State.mem_due_react _ _⟩
  obtain ⟨t, ht⟩ := s.cwdReported_umv (watchdogNotice cause 1 2 false)
  rw [State.react_umv]
  simp only [State.cwdStart, State.chainUp, State.modUmv, ht, hfirst]
  simp

theorem State.cwdExpire_safe (hsafe : s.isSafe = false) (hrung : s.bootFailed = true ∨ s.umv.restarted = true)
    (hchain : s.umv.n ≤ s.umv.chain) (cause : BitVec 8) :
    (s.cwdExpire cause).isSafe = true ∧ (s.cwdExpire cause).safePin = true ∧
      (s.cwdExpire cause).fget F.SAF_STATUS_SAFE_CAUSE = cause.toNat := by
  rw [State.cwdExpire_third hsafe hrung hchain]
  have hs : (s.cwdReported (watchdogNotice cause 1 3 true)).cwdStart.isSafe = false :=
    (s.cwdReported_isSafe (watchdogNotice cause 1 3 true)).trans hsafe
  exact ⟨State.enterSafe_isSafe hs cause, State.enterSafe_pin hs cause, State.enterSafe_cause hs cause⟩

theorem exec_cwdExpiry (hrst : s.boot.rstN = false) (hrun : s.umv.frozen = none) :
    exec .cwdExpiry s = .next (s.after ((s.until (s.umv.start + s.umv.cwdLen)).cwdExpire 1)) := by
  rw [← show s.cwdExpiry = (s.until (s.umv.start + s.umv.cwdLen)).cwdExpire 1 by simp [State.cwdExpiry, hrst, hrun]]
  exact next_run hrst _

theorem exec_umevoSramError (hrst : s.boot.rstN = false) : exec .umevoSramError s = .next (s.after (s.cwdExpire 5)) := by
  rw [← show s.umvSramError = s.cwdExpire 5 from rfl]
  exact next_run hrst _

theorem exec_healthyIntervalEnd (hrst : s.boot.rstN = false) (hready : s.ready = true) {t : Time} (ht : s.umv.healthyFrom = some t) :
    exec .healthyIntervalEnd s = .next (s.after { s with
      now := max s.now (t + msec (2 ^ s.umv.healthy))
      umv := { s.umv with chain := 0, healthyFrom := none } }) := by
  have hend : s.healthyEnd =
      (s.until (t + msec (2 ^ s.umv.healthy))).modUmv (fun u => { u with chain := 0, healthyFrom := none }) := by
    simp [State.healthyEnd, ht, hready]
  refine (next_run hrst _).trans ?_
  rw [hend]
  rfl

/-! ## The safety watchdog (17 R642, R643) -/

/-- An expiry of the safety watchdog raised and marked, before Umevo takes the trap. -/
def State.swdReported (s : State) (cause : BitVec 8) : State :=
  (((s.modUmv (fun u => { u with
    trap := true, took := false, trapCause := cause,
    hardEnd := some (s.now + usec (16 * 2 ^ s.fget F.WDG_SWD_CTL_HARD)) })).raise 9 Cls.watchdog none).setFlag F.SAF_FAULT_SWD true).healthyAgain

theorem State.swdReported_umv (s : State) (cause : BitVec 8) : ∃ t, (s.swdReported cause).umv = { s.umv with
    trap := true, took := false, trapCause := cause, hardEnd := some (s.now + usec (16 * 2 ^ s.fget F.WDG_SWD_CTL_HARD)),
    healthyFrom := t } := by
  simp only [State.swdReported, State.healthyAgain, State.modUmv, State.setFlag_umv, State.raise_umv]
  exact ⟨_, rfl⟩

theorem State.swdExpire_umv (s : State) (cause : BitVec 8) :
    (s.swdExpire cause).umv.trap = true ∧ (s.swdExpire cause).umv.trapCause = cause ∧
      (s.swdExpire cause).umv.hardEnd = some (s.now + usec (16 * 2 ^ s.fget F.WDG_SWD_CTL_HARD)) := by
  obtain ⟨t, ht⟩ := s.swdReported_umv cause
  obtain ⟨b, l, hl⟩ := (s.swdReported cause).takeTrap_umv
  rw [ht] at hl
  rw [show s.swdExpire cause = (s.swdReported cause).takeTrap from rfl, hl]
  exact ⟨rfl, rfl, rfl⟩

theorem State.swdExpire_flag (s : State) (cause : BitVec 8) : (s.swdExpire cause).flag F.SAF_FAULT_SWD = true := by
  have htrap := (s.swdReported cause).takeTrap_fget F.SAF_FAULT_SWD 0 0 (by decide) (by decide)
  have hset : (s.swdReported cause).fget F.SAF_FAULT_SWD = 1 := by
    rw [State.swdReported, State.healthyAgain, State.modUmv_fget, State.fget_setFlag_same _ _ _ _ _ (by decide) (by decide)]
    rfl
  rw [show s.swdExpire cause = (s.swdReported cause).takeTrap from rfl, State.flag, htrap, hset]
  rfl

theorem exec_swdExpiry (hrst : s.boot.rstN = false) (harmed : s.umv.armed = true) (hhard : s.umv.hardEnd = none) :
    exec .swdExpiry s = .next (s.after ((s.until (s.umv.swdStart + s.umv.swdLen)).swdExpire 8)) := by
  rw [← show s.swdExpiry = (s.until (s.umv.swdStart + s.umv.swdLen)).swdExpire 8 by simp [State.swdExpiry, harmed, hhard]]
  exact next_run hrst _

/-- The hard timer has run out at `t`: the trap ends and the core leaves its trap state. -/
def State.hardEnded (s : State) (t : Time) : State :=
  let v := (s.until t).modUmv (fun u => { u with hardEnd := none, trap := false, took := false })
  if v.fget F.WDG_UMV_STATUS_STATE = 3 then v.fset F.WDG_UMV_STATUS_STATE 0 else v

theorem State.hardEnded_umv (s : State) (t : Time) :
    (s.hardEnded t).umv = { s.umv with hardEnd := none, trap := false, took := false } := by
  unfold State.hardEnded
  dsimp only
  split <;> rfl

theorem State.hardEnded_now (s : State) (t : Time) : (s.hardEnded t).now = max s.now t := by
  unfold State.hardEnded
  dsimp only
  split <;> rfl

theorem State.hardEnded_isSafe (s : State) (t : Time) : (s.hardEnded t).isSafe = s.isSafe := by
  unfold State.hardEnded
  dsimp only
  split
  · exact State.isSafe_fset _ _ _ _ (by decide)
  · rfl

theorem State.swdHardEnd_eq {t : Time} (h : s.umv.hardEnd = some t) : s.swdHardEnd =
    if (s.hardEnded t).isSafe then (s.hardEnded t).swdStart
    else if s.umv.chain < s.umv.n then (s.hardEnded t).chainUp.react .warm
    else (((s.hardEnded t).notice (watchdogNotice s.umv.trapCause 2 0 true)).swdStart).enterSafe s.umv.trapCause := by
  simp only [State.swdHardEnd, h]
  rfl

theorem State.swdHardEnd_chains {t : Time} (h : s.umv.hardEnd = some t) (hsafe : s.isSafe = false) (hchain : s.umv.chain < s.umv.n) :
    s.swdHardEnd = (s.hardEnded t).chainUp.react .warm := by
  rw [State.swdHardEnd_eq h, State.hardEnded_isSafe, hsafe, if_neg (by simp), if_pos hchain]

theorem State.swdHardEnd_safe {t : Time} (h : s.umv.hardEnd = some t) (hsafe : s.isSafe = false) (hchain : s.umv.n ≤ s.umv.chain) :
    s.swdHardEnd = (((s.hardEnded t).notice (watchdogNotice s.umv.trapCause 2 0 true)).swdStart).enterSafe s.umv.trapCause := by
  rw [State.swdHardEnd_eq h, State.hardEnded_isSafe, hsafe, if_neg (by simp), if_neg (Nat.not_lt.mpr hchain)]

theorem State.swdService_served {who : Party} (hwho : s.isSafetyMaster who = true) (hready : s.ready = true) (hhard : s.umv.hardEnd = none)
    (harmed : s.umv.armed = true) (hin : s.now < s.umv.swdStart + s.umv.swdLen) : s.swdService who 0x5A17 = s.swdStart := by
  simp [State.swdService, hwho, hready, hhard, harmed, Nat.not_le.mpr hin]

theorem State.swdService_rejected {who : Party} (h : s.isSafetyMaster who = false ∨ s.ready = false) (key : BitVec 16) :
    s.swdService who key = (s.bump F.WDG_REJECT_SWD).raise 11 Cls.watchdog none :=
  if_pos (by rcases h with h | h <;> simp [h])

end Sys2Proof.Machine
end

section
/-! The statements about the safe state and the watchdogs (17 R632 to R643, 19 R697, R701). -/
namespace Sys2Proof.Machine

/-- Settles O11: entry writes SAFE, the cause and SAFE_N once, and the FATAL class is reported first and then acts by its two bits. -/
theorem safeStateEntry : Obligations.SafeStateEntry := by
  unfold Obligations.SafeStateEntry
  refine ⟨fun s cause unit hsafe => ?entry, fun s cause unit hsafe => State.safeCause_idle hsafe cause unit, fun s cause unit a => ?fatal⟩
  case entry =>
    have hlogged : ((s.logEntry (s.entryNow 0 none unit cause none)).notice (monitorNotice cause 0 true unit none none)).isSafe = false := by
      rw [State.isSafe_notice, State.isSafe_logEntry, hsafe]
    obtain ⟨h1, h2, h3⟩ := State.safeCause_enters hsafe cause unit
    refine ⟨h1, h2, h3, ?_, fun hroom => ?_⟩
    · rw [State.safeCause_eq hsafe, State.enterSafe_due hlogged]
      simp
    · rw [State.safeCause_eq hsafe, State.enterSafe_log, State.notice_log, State.logEntry_room hroom]
  case fatal =>
    obtain ⟨x, hx⟩ := s.fatal_eq cause unit a
    have hreported : ((s.fatalReported cause unit a).notice x).isSafe = s.isSafe := by
      rw [State.isSafe_notice, State.fatalReported_isSafe]
    refine ⟨?_, ?_, fun hsafe hact => ?_, fun hsafe hact hlc => ?_⟩
    · rw [State.flag, State.fatal_reads _ _ _ _ (by decide) (by decide) (by decide), State.fatalReported_flagged]
      rfl
    · rw [State.fatal_reads _ _ _ _ (by decide) (by decide) (by decide), State.fatalReported_count]
    · have hwarm : s.fatalWarm = false := by rcases hact with h | h <;> simp [State.fatalWarm, h]
      have hs := hreported.trans hsafe
      rw [hx, hsafe, hwarm]
      exact ⟨State.enterSafe_isSafe hs cause, State.enterSafe_pin hs cause, State.enterSafe_cause hs cause⟩
    · have hwarm : s.fatalWarm = true := by simp [State.fatalWarm, hact, hlc]
      rw [hx, hsafe, hwarm]
      exact ⟨State.mem_due_react _ _, hreported.trans hsafe⟩

/-- Settles O13: each key, control write and expiry of the core watchdog by the equation of its case, and each rung by its own lemma. -/
theorem coreWatchdog : Obligations.CoreWatchdog := by
  unfold Obligations.CoreWatchdog
  refine ⟨fun s ht hopen => ⟨fun hkey => ?keyA, fun hkey hrun => ?keyB⟩, fun s key ht => ⟨fun hkey hne => ?wrongA, fun hkey hne => ?wrongB⟩,
    fun s ht hopen hover hkey => ?early, fun s v ht hopen hp ho => ?control, fun s who hwho => exec_cwdRejectedWrite hwho,
    fun s hrst hrun => ⟨exec_cwdExpiry hrst hrun, exec_umevoSramError hrst⟩,
    fun s cause hsafe ⟨hboot, hfresh⟩ => State.cwdExpire_restarts hsafe hboot hfresh cause,
    fun s cause hsafe hrung => ⟨fun hchain hfirst => State.cwdExpire_chains hsafe hrung hchain hfirst cause,
      fun hchain => State.cwdExpire_safe hsafe hrung hchain cause⟩,
    fun s t hrst hready ht => exec_healthyIntervalEnd hrst hready ht⟩
  case keyA => rw [exec_cwdKeyA ht, State.cwdService_keyA hkey, if_neg (by simp), if_pos hopen, State.modUmv]
  case keyB =>
    rw [exec_cwdKeyB ht, State.cwdService_keyB hkey, if_neg (by simp), if_pos hopen,
      State.cwdStart_running (s := s.modUmv (fun u => { u with restarted := false })) hrun]
    rfl
  case wrongA => rw [exec_cwdKeyA ht, State.cwdService_keyA hkey, if_pos hne]
  case wrongB => rw [exec_cwdKeyB ht, State.cwdService_keyB hkey, if_pos hne]
  case early =>
    rw [exec_cwdKeyA ht, State.cwdService_keyA hkey, if_neg (by simp), if_neg (by simp [hopen]), State.cwdOutside, if_neg (by simp [hover])]
  case control =>
    rw [exec_cwdCtlWrite ht, State.cwdCtl, if_neg (by simp), if_neg (by simp [hopen])]
    simp only [hp, ho, if_true]

/-- Settles O14: a service starts the period again or is rejected, an expiry traps and starts the hard timer, whose end climbs the ladder. -/
theorem safetyWatchdog : Obligations.SafetyWatchdog := by
  unfold Obligations.SafetyWatchdog
  refine ⟨fun s who ht hwho hready hhard harmed hin => ?served, fun s who key ht hbad => ?rejected, fun s hrst harmed hhard => ?expiry,
    fun s t hrst hhard hsafe hchain hfirst => ?chains, fun s t hrst hhard hsafe hchain => ?safe⟩
  case served => rw [exec_swdService ht, State.swdService_served hwho hready hhard harmed hin, State.swdStart, State.modUmv]
  case rejected => rw [exec_swdService ht, State.swdService_rejected hbad]
  case expiry =>
    obtain ⟨htrap, hcause, hend⟩ := (s.until (s.umv.swdStart + s.umv.swdLen)).swdExpire_umv 8
    exact ⟨_, exec_swdExpiry hrst harmed hhard, htrap, hcause, State.swdExpire_flag _ _, hend⟩
  case chains =>
    have humv := s.hardEnded_umv t
    refine ⟨(s.hardEnded t).chainUp.react .warm, ?_, ?_, ?_, ?_, State.mem_due_react _ _, s.hardEnded_now t⟩
    · exact (next_run hrst _).trans (by rw [State.swdHardEnd_chains hhard hsafe hchain])
    all_goals rw [State.react_umv]; simp [State.chainUp, State.modUmv, humv, hfirst]
  case safe =>
    have hs : (((s.hardEnded t).notice (watchdogNotice s.umv.trapCause 2 0 true)).swdStart).isSafe = false :=
      ((State.isSafe_notice _ _).trans (s.hardEnded_isSafe t)).trans hsafe
    refine ⟨_, (next_run hrst _).trans (by rw [State.swdHardEnd_safe hhard hsafe hchain]), State.enterSafe_isSafe hs _,
      State.enterSafe_pin hs _⟩

end Sys2Proof.Machine
end

section
/-!
SUPPORT. The safety monitor's detections and latent tests (19 R699, R702 to R706), the TimeSync exchange (18 R662 to R665) and the power
states of the slices (18 R671 to R675).
-/
namespace Sys2Proof.Machine

variable {s : State}

/-! ## Units of the safety monitor -/

theorem unitAsSlice_of_lt {u : BitVec 8} (h : u.toNat < 18) : unitAsSlice u = some u.toNat := if_pos h

theorem unitAsSlice_of_le {u : BitVec 8} (h : 18 ≤ u.toNat) : unitAsSlice u = none := if_neg (Nat.not_lt.mpr h)

theorem unitAsPort_of_le {u : BitVec 8} (h : 0x2C ≤ u.toNat) : unitAsPort u = none := if_neg (by omega)

theorem toNat_portUnit {p : Nat} (h : p < 12) : (BitVec.ofNat 8 (0x20 + p)).toNat = 0x20 + p := by
  rw [BitVec.toNat_ofNat]
  omega

theorem unitAsPort_portUnit {p : Nat} (h : p < 12) : unitAsPort (BitVec.ofNat 8 (0x20 + p)) = some p := by
  rw [unitAsPort, toNat_portUnit h, if_pos (by omega), Nat.add_sub_cancel_left]

theorem State.stall_slice {u : BitVec 8} (h : u.toNat < 18) : s.stall u = s.react (.fence u.toNat 0x20) := by
  simp [State.stall, unitAsSlice_of_lt h]

theorem State.stall_chip {u : BitVec 8} (h : 0x2C ≤ u.toNat) : s.stall u = s.fatal 0x21 u none s.flushing := by
  simp [State.stall, unitAsSlice_of_le (show 18 ≤ u.toNat by omega), unitAsPort_of_le h]

theorem State.stall_port {p : Nat} (h : p < 12) (hrole : s.role p ≠ .off) :
    s.stall (BitVec.ofNat 8 (0x20 + p)) = (s.portFails p 0x22).setFlag F.SAF_FAULT_PORT true := by
  have hslice : unitAsSlice (BitVec.ofNat 8 (0x20 + p)) = none := unitAsSlice_of_le (by rw [toNat_portUnit h]; omega)
  simp [State.stall, hslice, unitAsPort_portUnit h, hrole]

theorem State.comparator_slice {u : BitVec 8} (h : u.toNat < 18) : s.comparator u = s.react (.fence u.toNat 0x1E) := by
  simp [State.comparator, unitAsSlice_of_lt h]

theorem State.comparator_other {u : BitVec 8} (h : 18 ≤ u.toNat) : s.comparator u = s.fatal 0x1F u none s.flushing := by
  simp [State.comparator, unitAsSlice_of_le h]

theorem State.trackerAge_open {k t : Nat} {x : Txn} (hx : s.txn k t = some x) (hopen : x.opened = true) :
    s.trackerAge k t = (s.until (x.admitted + 2 * x.bound)).react (.fence k 0x23) := by
  simp [State.trackerAge, hx, hopen]

/-! ## Latent tests (19 R706) -/

theorem State.latentSync_from (s : State) : s.latentSync.latent.from_ = s.latent.from_ := by
  unfold State.latentSync
  split
  · rfl
  · dsimp only
    split
    · rfl
    · split <;> rfl

/-- A test that passes in a round is recorded in it. -/
theorem State.mem_ran_latentRan (h : s.latent.from_.isSome = true) (u test : BitVec 8) : (u, test) ∈ (s.latentRan u test).latent.ran := by
  have hfrom : s.latentSync.latent.from_.isNone = false := by
    rw [State.latentSync_from]
    exact Option.isNone_eq_false_iff.mpr h
  unfold State.latentRan
  dsimp only
  rw [hfrom, Bool.or_false]
  split
  next hran => exact List.contains_iff_mem.mp hran
  next => exact List.mem_append_right _ (List.mem_singleton_self _)

/-- A failed latent test recorded: the round fails, SAF_LT names the unit, and safety source 4 is raised. -/
def State.latentFailed (s : State) (u : BitVec 8) : State :=
  ((({ s.latentSync with latent := { s.latentSync.latent with failed := true } }.setFlag F.SAF_LT_FAILED true).fset
    F.SAF_LT_LAST u.toNat).setFlag F.SAF_FAULT_LATENT true).raiseSafety 4

theorem State.latentFails_slice {u : BitVec 8} (h : u.toNat < 18) :
    s.latentFails u = (s.latentFailed u).react (.fence u.toNat 0x2B) := by
  rw [State.latentFails]
  simp only [unitAsSlice_of_lt h]
  rfl

theorem State.latentFailed_failed (s : State) (u : BitVec 8) : (s.latentFailed u).latent.failed = true := by
  rw [State.latentFailed, State.raiseSafety_latent]
  rfl

/-- What a failed latent test leaves in the registers of the monitor. -/
theorem State.latentFailed_fget (s : State) (u : BitVec 8) : (s.latentFailed u).fget F.SAF_LT_FAILED = 1 ∧
    (s.latentFailed u).fget F.SAF_FAULT_LATENT = 1 ∧ (s.latentFailed u).fget F.SAF_LT_LAST = u.toNat := by
  refine ⟨?_, ?_, ?_⟩
  all_goals rw [State.latentFailed, State.raiseSafety_fget _ _ _ _ _ (by decide) (by decide)]
  case refine_1 =>
    rw [State.setFlag, State.fget_fset_apart _ _ _ _ _ _ (by decide) (by decide), State.fget_fset_apart _ _ _ _ _ _ (by decide) (by decide),
      State.fget_setFlag_same _ _ _ _ _ (by decide) (by decide), if_pos rfl]
  case refine_2 => rw [State.fget_setFlag_same _ _ _ _ _ (by decide) (by decide), if_pos rfl]
  case refine_3 =>
    rw [State.setFlag, State.fget_fset_apart _ _ _ _ _ _ (by decide) (by decide), State.fget_fset_same _ _ _ _ _ (by decide)]
    exact Nat.mod_eq_of_lt u.isLt

theorem exec_latentTest (hrst : s.boot.rstN = false) {u test : BitVec 8} (h : s.latentTests.contains (u, test) = true) (pass : Bool) :
    exec (.latentTest u test pass) s = .next (s.after (if pass then s.latentRan u test else s.latentFails u)) := by
  have htest : s.latentTest u test pass = if pass then s.latentRan u test else s.latentFails u := by
    rw [State.latentTest, if_neg (by simpa using h)]
  rw [← htest]
  exact next_run hrst _

/-! ## Commands of the safety master and of the log (19 R699, R701) -/

theorem State.writeAt_saf {who : Party} {a : Nat} {v : Word} (hlow : 0x3000 ≤ a) (hhigh : a < 0x4000) :
    s.writeAt who a v = s.writeSaf who a v := by
  unfold State.writeAt
  rw [if_neg (by omega), if_neg (by omega), if_neg (by omega), if_pos hhigh]

theorem cmd_bit (key : BitVec 16) : (bitWord 31 ||| key.zeroExtend 32).getLsbD 31 = true := by
  simp [bitWord]

theorem cmd_key (key : BitVec 16) : (bitWord 31 ||| key.zeroExtend 32).extractLsb' 0 16 = key := by
  have hbit : (bitWord 31).extractLsb' 0 16 = 0 := by decide
  rw [BitVec.extractLsb'_or, hbit, key_of_word]
  exact BitVec.zero_or

theorem exec_safCmdEnter {who : Party} (h : s.takes who 0x300C) (key : BitVec 16) : exec (.safCmdEnter who key) s =
    .next (s.after (if s.isSafetyMaster who then s.safEnter key else s.accErr who 1 0x300C)) := by
  have hwrite : s.writeAt who 0x300C (bitWord 31 ||| key.zeroExtend 32) =
      if s.isSafetyMaster who then s.safEnter key else s.accErr who 1 0x300C := by
    rw [State.writeAt_saf (by decide) (by decide)]
    simp only [State.writeSaf, State.writeSafCmd, State.reserved, onBit, cmd_bit, cmd_key, if_true]
  rw [← hwrite]
  exact next_command _ h

theorem exec_safLogNext {who : Party} (h : s.takes who 0x3034) : exec (.safLogNext who) s = .next (s.after s.logNext) := by
  have hbit : (bitWord 31).getLsbD 31 = true := by decide
  have hwrite : s.writeAt who 0x3034 (bitWord 31) = s.logNext := by
    rw [State.writeAt_saf (by decide) (by decide)]
    simp only [State.writeSaf, onBit, hbit, if_true]
  rw [← hwrite]
  exact next_command _ h

theorem exec_pinReadbackMismatch (hrst : s.boot.rstN = false) : exec .pinReadbackMismatch s = .next (s.after (if s.isSafe then
    s.setFlag F.SAF_FAULT_READBACK true else (s.setFlag F.SAF_FAULT_READBACK true).fatal 0x31 unitChip none s.flushing)) :=
  next_run hrst State.pinMismatch

/-! ## TimeSync (18 R662 to R665) -/

/-- A message that passes the checks acts under the opcode of its row, in the state that has taken it. -/
theorem next_taken {p : Nat} {m w : Msg} {op : BitVec 8} (f : Msg → State → State) (hw : w = { m with op := op }) (h : s.admits p w) :
    (.next (s.message p m op f) : Host.Outcome State Fault Refusal) = .next (s.after (f w (s.heard p w))) := by
  subst hw
  exact next_message f h

theorem State.syncInterval_due (hsrc : s.fget F.TIM_CTL_SOURCE = 2) (hport : (s.port (s.fget F.TIM_CTL_SRC_PORT)).st = .active)
    {v : State} (hv : v = s.until (s.tb.sentAt + usec (2 ^ s.fget F.TIM_SYNC_CTL_INTERVAL))) (hreq : s.tb.req = none) :
    s.syncInterval = State.sendOn { v with tb := { v.tb with seq := s.tb.seq + 1, req := some (s.tb.seq, v.now), sentAt := v.now } }
      (s.fget F.TIM_CTL_SRC_PORT) (syncMsg s.home (s.partnerNode (s.fget F.TIM_CTL_SRC_PORT)) s.tb.seq 0 0) := by
  subst hv
  unfold State.syncInterval
  dsimp only
  rw [if_pos ⟨hsrc, hport⟩, if_neg (by simp [State.until, hreq])]
  rfl

theorem State.timeSync_request {p : Nat} {m : Msg} (hkind : m.fspec.toNat % 4 = 0) (hlead : (s.fget F.TIM_SYNC_CTL_LEADER).testBit p = true) :
    s.timeSync p m = s.sendOn p (syncMsg s.home (s.partnerNode p) m.tag 1
      ((0 : BitVec 16) ++ (stampBits s.now).2 ++ (0 : BitVec 32) ++ (stampBits s.now).1)) := by
  rw [State.timeSync, if_pos hkind, State.syncRequest, if_pos hlead]

theorem State.timeSync_response {p : Nat} {m : Msg} (hkind : m.fspec.toNat % 4 = 1) : s.timeSync p m = s.syncResponse p m := by
  rw [State.timeSync, if_neg (by omega)]

/-- The first response to the request outstanding is accepted when its epoch is the receiver's: its delay is recorded, the request is
no longer outstanding, and the response is a reference event. -/
theorem State.syncResponse_first {p : Nat} {m : Msg} {t1 : Time} (hreq : s.tb.req = some (m.tag, t1))
    (hsrc : s.fget F.TIM_CTL_SOURCE = 2) (hport : s.fget F.TIM_CTL_SRC_PORT = p) (hdelays : s.tb.delays = [])
    (hepoch : ((msgSlot m 1).extractLsb' 96 16 : BitVec 16) = fabEpoch s.now) :
    ∃ u e, s.syncResponse p m = State.refEvent u e ∧ u.tb.req = none ∧ u.tb.rejects = 0 ∧ u.tb.delays.length = 1 ∧
      ∃ d, u.regs = ((s.setFlag F.TIM_STATUS_SYNC_LOST false).fset F.TIM_SYNC_DLY_D d).regs := by
  have hkept : ¬ (s.fget F.TIM_CTL_SOURCE ≠ 2 ∨ s.fget F.TIM_CTL_SRC_PORT ≠ p ∨ m.tag ≠ m.tag) := by simp [hsrc, hport]
  simp only [State.syncResponse, hreq, if_neg hkept, hdelays, hepoch, Bool.false_or]
  rw [if_neg (by simp)]
  refine ⟨_, _, rfl, rfl, rfl, ?_, _, rfl⟩
  simp [hdelays]

/-- Without SERVO a reference event moves no more of the timebase's own state than the run of events within the lock limit. -/
theorem State.refEvent_tb (h : s.flag F.TIM_CTL_SERVO = false) (e : Int) : ∃ n, (s.refEvent e).tb = { s.tb with lockRun := n } := by
  have hoff : (s.refCounted e).flag F.TIM_CTL_SERVO = false := by
    rw [State.flag, State.refCounted_fget _ _ (by decide) (by decide)]
    exact h
  obtain hev | ⟨b, hev⟩ := s.refEvent_cases e
  · exact ⟨_, by rw [hev, State.servo_off hoff]; rfl⟩
  · have hoff' : ((s.refCounted e).setLocked b).flag F.TIM_CTL_SERVO = false := by
      rw [State.flag, State.setLocked_fget _ _ (by decide) (by decide)]
      exact hoff
    exact ⟨_, by rw [hev, State.servo_off hoff', State.setLocked, State.setFlag_tb]; rfl⟩

theorem State.ppsEdge_other (hsrc : s.fget F.TIM_CTL_SOURCE ≠ 1) : s.ppsEdge =
    (s.fset F.TIM_PPS_CAP_LO_TIME (fab64 s.now).toNat).fset F.TIM_PPS_CAP_HI_TIME ((fab64 s.now).toNat / 2 ^ 32) := by
  simp [State.ppsEdge, hsrc]

/-! ## Power states (18 R671 to R675) -/

/-- When the idle time ends, an ACTIVE slice in DOZE that is not busy goes to the state that its exit time allows. -/
theorem State.idleTimeout_idle {k : Nat} (hrole : s.srole k = .active) (hpwr : (s.slice k).pwr = .doze)
    (hent : (s.slice k).entering = none) (hbusy : s.sliceBusy k = false) {v : State}
    (hv : v = s.until ((s.slice k).idleAt + usec (2 ^ s.fget F.PWR_CTL_ENTRY_IDLE))) :
    (v.pwrTarget k = .nap → s.idleTimeout k = v.modSlice k (fun c => { c with pwr := .nap })) ∧
    (v.pwrTarget k = .doze → s.idleTimeout k = v) := by
  subst hv
  constructor
  all_goals
    intro htarget
    unfold State.idleTimeout
    dsimp only
    rw [if_neg (by simp [hrole, hpwr, hent, hbusy]), htarget]

/-- A slice that has finished the entry into a power state: its reservations are gone, and with them what the state does not retain. -/
def Slice.entered (e : PwrState) (c : Slice) : Slice :=
  { c with pwr := e, entering := none, waking := false, rsv := [], hc := c.hc.filter (fun f => e != .deep && decide (f.1 % 16 < 8)),
           sf := if e = .deep then [] else c.sf }

theorem State.entryDone_entered {k : Nat} {e : PwrState} (hent : (s.slice k).entering = some e) (hbusy : s.entryBusy k = false)
    (hleft : s.entryLeft k e = false) : s.entryDone k = s.modSlice k (Slice.entered e) := by
  simp only [State.entryDone, hent, hbusy, hleft]
  rfl

theorem Slice.entered_deep (c : Slice) : (c.entered .deep).hc = [] ∧ (c.entered .deep).sf = [] := by
  simp [Slice.entered]

theorem Slice.entered_sleep (c : Slice) :
    (c.entered .sleep).sf = c.sf ∧ (c.entered .sleep).hc = c.hc.filter (fun f => decide (f.1 % 16 < 8)) :=
  ⟨rfl, rfl⟩

/-- A slice that has left NAP: it is in DOZE, its idle time starts, and the exit is counted. -/
def Slice.woken (now : Time) (c : Slice) : Slice :=
  { c with pwr := .doze, waking := false, idleAt := now, wakes := min (c.wakes + 1) 0xFFFF }

theorem State.exitDone_nap {k : Nat} (hwaking : (s.slice k).waking = true) (hpwr : (s.slice k).pwr = .nap)
    (hempty : (s.slice k).ingress = []) : s.exitDone k = s.modSlice k (Slice.woken s.now) := by
  have hall : (s.modSlice k (Slice.woken s.now)).ingressAll k = s.modSlice k (Slice.woken s.now) := by
    rw [State.ingressAll, State.slice_modSlice_same, show (Slice.woken s.now (s.slice k)).ingress = [] from hempty, List.foldl_nil]
  unfold State.exitDone
  dsimp only
  rw [if_pos (by simp [hwaking, hpwr, pwrCode])]
  split
  next =>
    have hdeeper : ∀ t : PwrState, ¬ (t = .nap ∧ pwrCode t < pwrCode (s.slice k).pwr) := by
      rintro t ⟨rfl, hlt⟩
      rw [hpwr] at hlt
      exact Nat.lt_irrefl _ hlt
    rw [if_neg (hdeeper _), if_neg (by simp [hpwr])]
    rfl
  next => exact hall

/-- The voltage code that an evaluation in TRACK moves to (18 R675). -/
def State.nextVid (s : State) : Nat :=
  let now := s.fget F.PWR_VREQ_VID
  let low := s.actives.foldl (fun m k => min m (s.sFactor k)) 0x10000
  if (low < s.fget F.PWR_VCTL_TARGET ∨ now < s.fget F.PWR_VCTL_VMIN) ∧ now < 48 then now + 1
  else if 17 * s.fget F.PWR_VCTL_TARGET < 16 * low ∧ 4 ≤ s.tb.evals ∧ s.fget F.PWR_VCTL_VMIN < now then now - 1
  else now

/-- One evaluation moves the code by at most one, within its bound, and lowers it only above VMIN and after four evaluations. -/
theorem State.nextVid_bounds (h : s.fget F.PWR_VREQ_VID ≤ 48) :
    s.nextVid ≤ 48 ∧ s.nextVid ≤ s.fget F.PWR_VREQ_VID + 1 ∧ s.fget F.PWR_VREQ_VID ≤ s.nextVid + 1 ∧
      (s.nextVid < s.fget F.PWR_VREQ_VID → s.fget F.PWR_VCTL_VMIN < s.fget F.PWR_VREQ_VID ∧ 4 ≤ s.tb.evals) := by
  unfold State.nextVid
  dsimp only
  split
  next hup => omega
  next =>
    split
    next hdown => omega
    next => omega

theorem State.voltageEval_hold (hsealed : s.flag F.PAT_STATUS_SEALED = true) (hmode : s.flag F.PWR_VCTL_MODE = false) :
    s.voltageEval.fget F.PWR_VREQ_VID = s.fget F.PWR_VCTL_VHOLD ∧ s.voltageEval.tb.track = false := by
  unfold State.voltageEval
  dsimp only
  rw [if_neg (by simp [hsealed]), if_neg (by simp [hmode])]
  refine ⟨?_, rfl⟩
  rw [State.with_tb_fget, State.fget_fset_same _ _ _ _ _ (by decide)]
  exact Nat.mod_eq_of_lt (State.fget_lt s F.PWR_VCTL_VHOLD 0 0)

theorem State.voltageEval_track (hsealed : s.flag F.PAT_STATUS_SEALED = true) (hmode : s.flag F.PWR_VCTL_MODE = true)
    (htrack : s.tb.track = true) (h : s.fget F.PWR_VREQ_VID ≤ 48) : s.voltageEval.fget F.PWR_VREQ_VID = s.nextVid := by
  have hle : s.nextVid < 2 ^ 6 := Nat.lt_of_le_of_lt (State.nextVid_bounds h).1 (by decide)
  unfold State.voltageEval
  dsimp only
  rw [if_neg (by simp [hsealed]), if_pos hmode, State.with_tb_fget, State.fget_fset_same _ _ _ _ _ (by decide), if_pos htrack, if_pos htrack]
  exact Nat.mod_eq_of_lt hle

end Sys2Proof.Machine
end

section
/-! The statements about the safety monitor, TimeSync and the power states (18 R662 to R675, 19 R699 to R706). -/
namespace Sys2Proof.Machine

/-- Settles O12: each detection by the equation of its unit, a latent test by its verdict, and the two commands by the write of their word. -/
theorem safetyMonitor : Obligations.SafetyMonitor := by
  unfold Obligations.SafetyMonitor
  intro s hrst
  refine ⟨fun u hu => ?slice, fun u hu => ?chip, fun p hp hrole _ => ?port, fun sl trk x hsl hx hopen => ?age, fun u test ht hfrom => ?passes,
    fun u test ht hu => ?fails, fun hsafe => ?readSafe, fun hsafe => ?readFatal, fun who ht hwho => ?enter, fun who key ht hwho => ?denied,
    fun who ht => exec_safLogNext ht⟩
  case slice => exact ⟨(next_run hrst _).trans (by rw [State.stall_slice hu]), (next_run hrst _).trans (by rw [State.comparator_slice hu])⟩
  case chip =>
    exact ⟨(next_run hrst _).trans (by rw [State.stall_chip hu]), (next_run hrst _).trans (by rw [State.comparator_other (by omega)])⟩
  case port =>
    exact ⟨_, (next_run hrst _).trans (by rw [State.stall_port hp hrole]), State.flag_setFlag_same _ _ _ _ _ (by decide) (by decide)⟩
  case age => exact (next_atSlice hrst hsl _).trans (by rw [State.trackerAge_open hx hopen])
  case passes => exact ⟨_, exec_latentTest hrst ht true, State.mem_ran_latentRan hfrom u test⟩
  case fails =>
    obtain ⟨hfailed, hfault, hlast⟩ := s.latentFailed_fget u
    refine ⟨(s.latentFailed u).react (.fence u.toNat 0x2B), ?_, ?_, ?_, ?_, ?_, State.mem_due_react _ _⟩
    · rw [exec_latentTest hrst ht, if_neg (by simp), State.latentFails_slice hu]
    · rw [State.react_latent, State.latentFailed_failed]
    · rw [State.flag, State.react_fget, hfailed]
      rfl
    · rw [State.flag, State.react_fget, hfault]
      rfl
    · rw [State.react_fget, hlast]
  case readSafe => rw [exec_pinReadbackMismatch hrst, if_pos hsafe]
  case readFatal => rw [exec_pinReadbackMismatch hrst, if_neg (by simp [hsafe])]
  case enter => rw [exec_safCmdEnter ht, if_pos hwho, State.safEnter, if_pos rfl]
  case denied => rw [exec_safCmdEnter ht, if_neg (by simp [hwho])]

/-- Settles O16: a follower asks, a leader answers with the instant, the first answer in the right epoch is a reference event, and an edge
that is no reference is captured. -/
theorem timeExchange : Obligations.TimeExchange := by
  unfold Obligations.TimeExchange
  refine ⟨fun s p hrst hsrc hp hport hreq => ?asks, fun s p m w hw hadm hkind hlead => ?answers, fun s p m w hw hadm hkind hreq => ?stray,
    fun s p m w t1 hw hadm hkind hreq hsrc hport hdelays hservo hepoch => ?accepted, fun s hrst hsrc => ?captured, fun s t hrst hsrc ht => ?miss⟩
  case asks =>
    subst hp
    exact ⟨_, _, (next_run hrst _).trans (by rw [State.syncInterval_due hsrc hport rfl hreq]), rfl, rfl⟩
  case answers =>
    have hkind' : w.fspec.toNat % 4 = 0 := by rw [hw]; exact hkind
    have htag : w.tag = m.tag := by rw [hw]
    exact ⟨_, _, (next_taken _ hw hadm).trans (by rw [State.timeSync_request hkind' hlead, htag]), rfl, rfl⟩
  case stray =>
    have hkind' : w.fspec.toNat % 4 = 1 := by rw [hw]; exact hkind
    exact (next_taken _ hw hadm).trans (by rw [State.timeSync_response hkind', State.syncResponse, hreq])
  case accepted =>
    have hkind' : w.fspec.toNat % 4 = 1 := by rw [hw]; exact hkind
    have hreq' : (s.heard p w).tb.req = some (w.tag, t1) := by rw [hreq, hw]
    have hepoch' : ((msgSlot w 1).extractLsb' 96 16 : BitVec 16) = fabEpoch (s.heard p w).now := by rw [← hepoch, hw]; rfl
    obtain ⟨u, e, heq, hnone, hrejects, hone, d, hregs⟩ := State.syncResponse_first hreq' hsrc hport hdelays hepoch'
    have hread : ∀ g : Fld, u.fget g = (((s.heard p w).setFlag F.TIM_STATUS_SYNC_LOST false).fset F.TIM_SYNC_DLY_D d).fget g := fun g => by
      simp only [State.fget, State.word, hregs]
    have hoff : u.flag F.TIM_CTL_SERVO = false := by
      rw [State.flag, hread, State.fget_fset_apart _ _ _ _ _ _ (by decide) (by decide), State.setFlag,
        State.fget_fset_apart _ _ _ _ _ _ (by decide) (by decide)]
      exact hservo
    obtain ⟨n, hn⟩ := State.refEvent_tb hoff e
    refine ⟨u.refEvent e, (next_taken _ hw hadm).trans (by rw [State.timeSync_response hkind', heq]), ?_, ?_, ?_, ?_, ?_⟩
    · rw [hn, ← hnone]
    · rw [hn, ← hrejects]
    · rw [hn, ← hone]
    · rw [State.flag, State.refEvent_fget _ _ (by decide) (by decide), State.refCounted_fget _ _ (by decide) (by decide), hread,
        State.fget_fset_apart _ _ _ _ _ _ (by decide) (by decide), State.fget_setFlag_same _ _ _ _ _ (by decide) (by decide)]
      rfl
    · rw [State.refEvent_fget _ _ (by decide) (by decide), State.refCounted_accepted, hread,
        State.fget_fset_apart _ _ _ _ _ _ (by decide) (by decide), State.setFlag, State.fget_fset_apart _ _ _ _ _ _ (by decide) (by decide)]
  case captured => rw [exec_ppsEdge hrst, State.ppsEdge_other hsrc]
  case miss =>
    refine ⟨_, exec_ppsMiss hrst, ?_⟩
    rw [State.ppsMiss_reference hsrc, ht]
    rfl

/-- Settles O17: idle time, entry and exit by the equation of each, and the voltage code by the bounds of one evaluation. -/
theorem powerStates : Obligations.PowerStates := by
  unfold Obligations.PowerStates
  refine ⟨fun s k hrst hk hrole hpwr hent hbusy => ?idle, fun s k e hrst hk hent hbusy hleft => ?entry,
    fun s k hrst hk hwaking hpwr hempty _ _ _ => ?exit, fun s hrst hsealed hmode => ?hold, fun s hrst hsealed hmode htrack hle => ?track⟩
  case idle =>
    obtain ⟨hnap, hdoze⟩ := State.idleTimeout_idle hrole hpwr hent hbusy rfl
    exact ⟨_, rfl, fun h => (next_atSlice hrst hk _).trans (by rw [hnap h]), fun h => (next_atSlice hrst hk _).trans (by rw [hdoze h])⟩
  case entry =>
    refine ⟨_, (next_atSlice hrst hk _).trans (by rw [State.entryDone_entered hent hbusy hleft]), ?_⟩
    rw [State.slice_modSlice_same]
    refine ⟨rfl, rfl, rfl, ?_, ?_⟩
    · rintro rfl
      exact Slice.entered_deep _
    · rintro rfl
      exact Slice.entered_sleep _
  case exit =>
    refine ⟨_, (next_atSlice hrst hk _).trans (by rw [State.exitDone_nap hwaking hpwr hempty]), ?_⟩
    rw [State.slice_modSlice_same]
    exact ⟨rfl, rfl, rfl, rfl⟩
  case hold => exact ⟨_, next_run hrst _, State.voltageEval_hold hsealed hmode⟩
  case track =>
    refine ⟨_, next_run hrst _, ?_⟩
    rw [State.voltageEval_track hsealed hmode htrack hle]
    exact State.nextVid_bounds hle

end Sys2Proof.Machine
end

section
/-!
SUPPORT. A port that closes (04 R146 to R150): what a link reset, a failed port and a port taken down leave of the port and of its
registers. Messages that are sent again enter egress queues, and nothing else of a port.
-/
namespace Sys2Proof.Machine

variable {s : State} {p : Nat}

/-- A send can add to the egress queue of a port alone. -/
theorem State.send_port (s : State) (m : Msg) (p : Nat) : ∃ tx, (s.send m).port p = { s.port p with tx := tx } := by
  unfold State.send
  split
  next d _ =>
    by_cases h : d = p
    · subst h
      exact ⟨(s.port d).tx ++ [m], by simp [State.sendOn]⟩
    · exact ⟨(s.port p).tx, by simp [State.sendOn, State.modPort, State.port, State.setPort, spGet_spSet, h]⟩
  next => exact ⟨(s.port p).tx, by simp⟩

theorem State.sendAll_port (ms : List Msg) (s : State) (p : Nat) : ∃ tx, (s.sendAll ms).port p = { s.port p with tx := tx } := by
  induction ms generalizing s with
  | nil => exact ⟨(s.port p).tx, rfl⟩
  | cons m ms ih =>
    obtain ⟨t, ht⟩ := s.send_port m p
    obtain ⟨u, hu⟩ := ih (s.send m)
    exact ⟨u, by rw [State.sendAll, List.foldl_cons, ← State.sendAll, hu, ht]⟩

/-- Two fields that share no bit of a register, whatever the units: other bits, or another offset of like blocks. -/
def Fld.clear (f g : Fld) : Bool :=
  decide (g.lsb + g.wid ≤ f.lsb) || decide (f.lsb + f.wid ≤ g.lsb) ||
    (f.base == g.base && f.stride == g.stride && f.mstr == 0 && g.mstr == 0 && f.off != g.off && decide (f.off < f.stride) &&
      decide (g.off < f.stride))

theorem State.fget_fset_clear (s : State) {f g : Fld} (v n m i j : Nat) (h : f.clear g = true) (hg : g.lsb + g.wid ≤ 32) :
    (s.fset f v n m).fget g i j = s.fget g i j := by
  simp only [Fld.clear, Bool.or_eq_true, Bool.and_eq_true, decide_eq_true_eq, beq_iff_eq, bne_iff_ne] at h
  rcases h with h | ⟨⟨⟨⟨⟨⟨hbase, hstride⟩, hf⟩, hg'⟩, hoff⟩, hlt⟩, hlt'⟩
  · exact State.fget_fset_bits s v n m i j h hg
  · refine State.fget_fset_other s f g v n m i j (.inl fun heq => hoff ?_) hg
    simp only [Fld.addr, hf, hg', hbase, ← hstride] at heq
    have hmod : (f.stride * n + f.off) % f.stride = (f.stride * i + g.off) % f.stride := congrArg (· % f.stride) (by omega)
    rwa [Nat.mul_add_mod, Nat.mul_add_mod, Nat.mod_eq_of_lt hlt, Nat.mod_eq_of_lt hlt'] at hmod

theorem State.sendAll_fget (s : State) (ms : List Msg) {g : Fld} (i j : Nat) (h : F.PRT_RT_DROPCNT_NOROUTE.clear g = true)
    (hg : g.lsb + g.wid ≤ 32) : (s.sendAll ms).fget g i j = s.fget g i j :=
  State.foldl_field (·.fget g i j) (fun s m => State.send_field (·.fget g i j) (fun _ _ => rfl) (fun _ _ => rfl)
    (fun s v n m => State.fget_fset_clear s v n m i j h hg) s m) ms s

/-- What the port had still to send is taken out of it (R147). -/
def Port.emptied (q : Port) : Port :=
  { q with unacked := [], tx := [], txSlots := [], replay := [], replayAt := none, held := none, again := none, wait := none }

theorem State.foldl_startTimer_port (ms : List Msg) (s : State) (p : Nat) : (ms.foldl State.startTimer s).port p = s.port p :=
  State.foldl_field (·.port p) (fun s m => by simp) ms s

theorem State.takeUndelivered_port (s : State) (p : Nat) : (s.takeUndelivered p).2.port p = (s.port p).emptied := by
  rw [State.takeUndelivered, State.foldl_startTimer_port, State.port_setPort_same]
  rfl

theorem State.takeUndelivered_fget (s : State) (p : Nat) (g : Fld) (i j : Nat) : (s.takeUndelivered p).2.fget g i j = s.fget g i j :=
  State.foldl_field (·.fget g i j) (fun s m => State.startTimer_field (·.fget g i j) (fun _ _ => rfl) s m) _ _

theorem State.dropPartial_port (s : State) (p : Nat) : (s.dropPartial p).port p = { s.port p with rxPart := none } := by
  unfold State.dropPartial
  split
  next h => rw [← h]
  next =>
    show (s.modPort p (fun q => { q with rxPart := none })).port p = _
    rw [State.port_modPort_same]

theorem State.dropPartial_fget (s : State) (p : Nat) {g : Fld} (i j : Nat) (h : F.PRT_LL_DUPCNT_PARTIAL.clear g = true)
    (hg : g.lsb + g.wid ≤ 32) :
    (s.dropPartial p).fget g i j = s.fget g i j := by
  unfold State.dropPartial
  split
  · rfl
  · exact State.fget_fset_clear _ _ _ _ _ _ h hg

/-- Port `p` closes: what it had to send is taken out, a message half received is dropped, `f` restarts the port, and what was taken out
is sent on the routes then in force. -/
def State.closePort (s : State) (p : Nat) (f : Port → Port) : State :=
  (((s.takeUndelivered p).2.dropPartial p).modPort p f).sendAll (s.takeUndelivered p).1

theorem State.closePort_port (s : State) (p : Nat) (f : Port → Port) :
    ∃ tx, (s.closePort p f).port p = { f { (s.port p).emptied with rxPart := none } with tx := tx } := by
  obtain ⟨tx, htx⟩ := State.sendAll_port (s.takeUndelivered p).1 (((s.takeUndelivered p).2.dropPartial p).modPort p f) p
  exact ⟨tx, by rw [State.closePort, htx, State.port_modPort_same, State.dropPartial_port, State.takeUndelivered_port]⟩

theorem State.closePort_fget (s : State) (p : Nat) (f : Port → Port) {g : Fld} (i j : Nat)
    (hroute : F.PRT_RT_DROPCNT_NOROUTE.clear g = true) (hpart : F.PRT_LL_DUPCNT_PARTIAL.clear g = true) (hg : g.lsb + g.wid ≤ 32) :
    (s.closePort p f).fget g i j = s.fget g i j := by
  rw [State.closePort, State.sendAll_fget _ _ _ _ hroute hg, State.modPort_fget, State.dropPartial_fget _ _ _ _ hpart hg,
    State.takeUndelivered_fget]

theorem State.setPortState_port (s : State) (p : Nat) (x : PortState) : (s.setPortState p x).port p = { s.port p with st := x } := by
  rw [State.setPortState, State.failover_port, State.port_modPort_same]

/-! ## LASTERR (R152) -/

@[simp] theorem State.lastErr_port (s : State) (p : Nat) (cause : BitVec 4) (j : Nat) : (s.lastErr p cause).port j = s.port j := rfl

theorem State.lastErr_reads (s : State) (p : Nat) (cause : BitVec 4) : (s.lastErr p cause).fget F.PRT_LL_LASTERR_VALID p = 1 ∧
    (s.lastErr p cause).fget F.PRT_LL_LASTERR_CAUSE p = cause.toNat ∧
    (s.lastErr p cause).fget F.PRT_LL_LASTERR_EXPECT p = (s.port p).expect.toNat := by
  have hcause : cause.toNat % 2 ^ F.PRT_LL_LASTERR_CAUSE.wid = cause.toNat := Nat.mod_eq_of_lt cause.isLt
  have hexpect : (s.port p).expect.toNat % 2 ^ F.PRT_LL_LASTERR_EXPECT.wid = (s.port p).expect.toNat := Nat.mod_eq_of_lt (s.port p).expect.isLt
  refine ⟨?_, ?_, ?_⟩
  · simp (disch := decide) only [State.lastErr, State.setFlag, State.fget_fset_bits, State.fget_fset_same]
    rfl
  · simp (disch := decide) only [State.lastErr, State.fget_fset_bits, State.fget_fset_same, hcause]
  · simp (disch := decide) only [State.lastErr, State.fget_fset_same, hexpect]

/-! ## A failed port (R148) -/

/-- The port as it is while it is FAILED. -/
def Port.failed (q : Port) : Port := { q.restart with inReset := false, draining := false, notices := 0 }

theorem State.failPort_eq (s : State) (p : Nat) (cause : BitVec 4) : s.failPort p cause =
    (((s.lastErr p cause).setPortState p .failed).closePort p Port.failed).raise (portSource p 0) Cls.link none := rfl

theorem State.failPort_port (s : State) (p : Nat) (cause : BitVec 4) : ∃ tx, (s.failPort p cause).port p =
    { Port.failed { ({ s.port p with st := .failed } : Port).emptied with rxPart := none } with tx := tx } := by
  obtain ⟨tx, htx⟩ := ((s.lastErr p cause).setPortState p .failed).closePort_port p Port.failed
  exact ⟨tx, by rw [State.failPort_eq, State.raise_port, htx, State.setPortState_port, State.lastErr_port]⟩

theorem State.failPort_fget (s : State) (p : Nat) (cause : BitVec 4) {g : Fld} (i j : Nat)
    (hroute : F.PRT_RT_DROPCNT_NOROUTE.clear g = true) (hpart : F.PRT_LL_DUPCNT_PARTIAL.clear g = true)
    (hdrop : F.EVG_DROP_FULL.below g = true) (hg : g.lsb + g.wid ≤ 32) :
    (s.failPort p cause).fget g i j = (s.lastErr p cause).fget g i j := by
  rw [State.failPort_eq, State.raise_fget_unit _ _ _ _ _ _ hdrop hg, State.closePort_fget _ _ _ _ _ hroute hpart hg, State.setPortState_fget]

theorem State.failPort_failed (s : State) (p : Nat) (cause : BitVec 4) :
    ((s.failPort p cause).port p).st = .failed ∧ ((s.failPort p cause).port p).inReset = false := by
  obtain ⟨tx, htx⟩ := s.failPort_port p cause
  rw [htx]
  exact ⟨rfl, rfl⟩

/-- LASTERR of a failed port names its cause. -/
theorem State.failPort_lastErr (s : State) (p : Nat) (cause : BitVec 4) : (s.failPort p cause).fget F.PRT_LL_LASTERR_VALID p = 1 ∧
    (s.failPort p cause).fget F.PRT_LL_LASTERR_CAUSE p = cause.toNat ∧
    (s.failPort p cause).fget F.PRT_LL_LASTERR_EXPECT p = (s.port p).expect.toNat := by
  rw [State.failPort_fget _ _ _ _ _ (by decide) (by decide) (by decide) (by decide),
    State.failPort_fget _ _ _ _ _ (by decide) (by decide) (by decide) (by decide),
    State.failPort_fget _ _ _ _ _ (by decide) (by decide) (by decide) (by decide)]
  exact s.lastErr_reads p cause

/-! ## A link reset (R146) -/

/-- A link reset recorded: LASTERR, its count, its instant among the last three, and the flush of the buffers to come. -/
def State.resetRecorded (s : State) (p : Nat) (cause : BitVec 4) : State :=
  (((s.lastErr p cause).bump F.PRT_LL_ERRCNT1_LRESET p).modPort p (fun q =>
    { q with resets := (s.port p).resets.drop ((s.port p).resets.length - 3) ++ [s.now] })).react (.portFlush p)

/-- The port as a link reset leaves it: down, and draining its receive buffers. -/
def Port.resetting (q : Port) : Port := { q.restart with inReset := true, draining := true, notices := 0 }

theorem State.linkReset_eq (s : State) (p : Nat) (cause : BitVec 4) : s.linkReset p cause =
    if ((s.port p).resets.drop ((s.port p).resets.length - 3)).length = 3 ∧
        s.now ≤ ((s.port p).resets.drop ((s.port p).resets.length - 3)).headD 0 + msec 100 then
      (s.resetRecorded p cause).failPort p cause
    else ((s.resetRecorded p cause).setPortState p .down).closePort p Port.resetting := rfl

theorem State.resetRecorded_port (s : State) (p : Nat) (cause : BitVec 4) : ∃ r, (s.resetRecorded p cause).port p = { s.port p with resets := r } :=
  ⟨(s.port p).resets.drop ((s.port p).resets.length - 3) ++ [s.now], by
    rw [State.resetRecorded, State.react_port, State.port_modPort_same, State.bump_port, State.lastErr_port]⟩

theorem State.resetRecorded_fget (s : State) (p : Nat) (cause : BitVec 4) (g : Fld) (h : F.PRT_LL_ERRCNT1_LRESET.beside g = true)
    (hg : g.lsb + g.wid ≤ 32) : (s.resetRecorded p cause).fget g p = (s.lastErr p cause).fget g p := by
  rw [State.resetRecorded, State.react_fget, State.modPort_fget]
  exact State.fget_fset_beside _ _ _ _ h hg

theorem State.resetRecorded_count (s : State) (p : Nat) (cause : BitVec 4) : (s.resetRecorded p cause).fget F.PRT_LL_ERRCNT1_LRESET p =
    min (s.fget F.PRT_LL_ERRCNT1_LRESET p + 1) (onesMask F.PRT_LL_ERRCNT1_LRESET.wid) := by
  have hkept : (s.lastErr p cause).fget F.PRT_LL_ERRCNT1_LRESET p = s.fget F.PRT_LL_ERRCNT1_LRESET p := by
    simp (disch := decide) only [State.lastErr, State.setFlag, State.fget_fset_beside]
  rw [State.resetRecorded, State.react_fget, State.modPort_fget, State.bump, State.fget_bumpBy_same _ _ _ _ _ (by decide), hkept]

/-- Whether or not the reset fails the port, LASTERR and the count are those of the reset recorded. -/
theorem State.linkReset_fget (s : State) (p : Nat) (cause : BitVec 4) {g : Fld} (hroute : F.PRT_RT_DROPCNT_NOROUTE.clear g = true)
    (hpart : F.PRT_LL_DUPCNT_PARTIAL.clear g = true) (hdrop : F.EVG_DROP_FULL.below g = true) (hg : g.lsb + g.wid ≤ 32) :
    (s.linkReset p cause).fget g p = ((s.resetRecorded p cause).lastErr p cause).fget g p ∨
      (s.linkReset p cause).fget g p = (s.resetRecorded p cause).fget g p := by
  rw [State.linkReset_eq]
  split
  · exact .inl (State.failPort_fget _ _ _ _ _ hroute hpart hdrop hg)
  · exact .inr (by rw [State.closePort_fget _ _ _ _ _ hroute hpart hg, State.setPortState_fget])

theorem State.linkReset_down (h : (s.port p).resets.length < 3) (cause : BitVec 4) : ∃ tx r, (s.linkReset p cause).port p =
    { Port.resetting { ({ s.port p with resets := r, st := .down } : Port).emptied with rxPart := none } with tx := tx } := by
  obtain ⟨r, hr⟩ := s.resetRecorded_port p cause
  obtain ⟨tx, htx⟩ := ((s.resetRecorded p cause).setPortState p .down).closePort_port p Port.resetting
  refine ⟨tx, r, ?_⟩
  rw [State.linkReset_eq, if_neg (fun hc => absurd hc.1 (by rw [List.length_drop]; omega)), htx, State.setPortState_port, hr]

theorem State.linkReset_fourth {a b c : Time} (h : (s.port p).resets = [a, b, c]) (hsoon : s.now ≤ a + msec 100) (cause : BitVec 4) :
    s.linkReset p cause = (s.resetRecorded p cause).failPort p cause := by
  rw [State.linkReset_eq, if_pos (by simpa [h] using hsoon)]

end Sys2Proof.Machine
end

section
/-! The statement about link resets (04 R146 to R149). -/
namespace Sys2Proof.Machine

/-- Settles O23: the reset is recorded first, and then the port closes, down or FAILED, with what it had to send taken out. -/
theorem linkReset : Obligations.LinkReset := by
  unfold Obligations.LinkReset
  rintro s p cause u rfl
  obtain ⟨r, hr⟩ := s.resetRecorded_port p cause
  obtain ⟨hvalid, hcause, hexpect⟩ := s.lastErr_reads p cause
  obtain ⟨hvalid', hcause', hexpect'⟩ := (s.resetRecorded p cause).lastErr_reads p cause
  rw [hr] at hexpect'
  refine ⟨?cause, ?valid, ?expect, ?count, fun hfew => ?down, fun a b c hthree hsoon => ?fails⟩
  case cause =>
    rcases State.linkReset_fget s p cause (g := F.PRT_LL_LASTERR_CAUSE) (by decide) (by decide) (by decide) (by decide) with h | h
    · rw [h, hcause']
    · rw [h, State.resetRecorded_fget _ _ _ _ (by decide) (by decide), hcause]
  case valid =>
    rcases State.linkReset_fget s p cause (g := F.PRT_LL_LASTERR_VALID) (by decide) (by decide) (by decide) (by decide) with h | h
    · rw [State.flag, h, hvalid']
      rfl
    · rw [State.flag, h, State.resetRecorded_fget _ _ _ _ (by decide) (by decide), hvalid]
      rfl
  case expect =>
    rcases State.linkReset_fget s p cause (g := F.PRT_LL_LASTERR_EXPECT) (by decide) (by decide) (by decide) (by decide) with h | h
    · rw [h, hexpect']
    · rw [h, State.resetRecorded_fget _ _ _ _ (by decide) (by decide), hexpect]
  case count =>
    rcases State.linkReset_fget s p cause (g := F.PRT_LL_ERRCNT1_LRESET) (by decide) (by decide) (by decide) (by decide) with h | h
    · rw [h, ← s.resetRecorded_count p cause]
      simp (disch := decide) only [State.lastErr, State.setFlag, State.fget_fset_beside]
    · rw [h, s.resetRecorded_count p cause]
  case down =>
    obtain ⟨tx, r, hport⟩ := State.linkReset_down hfew cause
    rw [hport]
    exact ⟨rfl, rfl, rfl, rfl, rfl, rfl, rfl⟩
  case fails =>
    rw [State.linkReset_fourth hthree hsoon]
    exact State.failPort_failed _ _ _

end Sys2Proof.Machine
end

section
/-!
SUPPORT. What a port does with a flit that it receives (04 R121 to R135): the sequence check, the ACK and credit fields, and the exchange
of INIT records.
-/
namespace Sys2Proof.Machine

variable {s : State} {p : Nat} {f : Flit}

/-- A flit command on a port is the reception of its flit. -/
theorem exec_flit (hrst : s.boot.rstN = false) (hp : p < 12) (f : Flit) :
    exec (.llPayloadRx p f) s = .next (s.after (s.rxFlit p { f with typ := flitPayload })) ∧
    exec (.llIdleRx p f) s = .next (s.after (s.rxFlit p { f with typ := flitIdle })) ∧
    exec (.llNakRx p f) s = .next (s.after (s.rxFlit p { f with typ := flitNak })) ∧
    exec (.llInitRx p f) s = .next (s.after (s.rxFlit p { f with typ := flitInit })) ∧
    exec (.llDownNoticeRx p f) s = .next (s.after (s.rxFlit p { f with typ := flitDown })) :=
  ⟨next_atPort hrst hp _, next_atPort hrst hp _, next_atPort hrst hp _, next_atPort hrst hp _, next_atPort hrst hp _⟩

theorem State.rxFlit_closed (h : (s.port p).st = .down ∨ (s.port p).st = .train ∨ (s.port p).st = .failed) : s.rxFlit p f = s := by
  rcases h with h | h | h <;> simp [State.rxFlit, h]

theorem State.rxFlit_damaged (h : (s.port p).st = .active ∨ (s.port p).st = .init) (hcrc : f.crc ≠ flitCrc f) :
    s.rxFlit p f = s.bump F.PRT_LL_ERRCNT0_CRC p := by
  rcases h with h | h <;> simp [State.rxFlit, h, hcrc]

theorem State.rxFlit_active (h : (s.port p).st = .active) (hcrc : f.crc = flitCrc f) : s.rxFlit p f = s.rxActive p f := by
  simp [State.rxFlit, h, ← hcrc]

theorem State.rxFlit_init (h : (s.port p).st = .init) (hcrc : f.crc = flitCrc f) (htyp : f.typ = flitInit) (hn : (s.port p).notices = 0) :
    s.rxFlit p f = s.rxInit p f := by
  simp [State.rxFlit, h, ← hcrc, htyp, hn]

/-! ## Flits of an ACTIVE port (R121, R130 to R135) -/

/-- A flit that takes part in the sequence: PAYLOAD, IDLE or NAK. -/
def ordered (f : Flit) : Prop := f.typ = flitPayload ∨ f.typ = flitIdle ∨ f.typ = flitNak

theorem State.rxActive_down (h : f.typ = flitDown) : s.rxActive p f = s.linkReset p 9 := if_pos h

theorem State.rxActive_init (h : f.typ = flitInit) (hn : (s.port p).notices = 0) : s.rxActive p f = s.linkError p 6 := by
  have hdown : f.typ ≠ flitDown := by rw [h]; decide
  rw [State.rxActive, if_neg hdown, if_neg (by omega), if_pos h]

/-- A flit of the sequence passes the sequence check, then the ACK and credit fields, and then acts when it is a NAK. -/
def State.rxOrdered (s : State) (p : Nat) (f : Flit) : State :=
  match s.rxSeq p f with
  | (s1, some e) => s1.linkError p e
  | (s1, none) =>
    match s1.rxAckCredits p f with
    | (s2, some e) => s2.linkError p e
    | (s2, none) => if f.typ = flitNak then s2.rxNak p f else s2

theorem State.rxActive_ordered (h : ordered f) (hn : (s.port p).notices = 0) : s.rxActive p f = s.rxOrdered p f := by
  have hdown : f.typ ≠ flitDown := by rcases h with h | h | h <;> rw [h] <;> decide
  have hinit : f.typ ≠ flitInit := by rcases h with h | h | h <;> rw [h] <;> decide
  rw [State.rxActive, if_neg hdown, if_neg (by omega), if_neg hinit,
    if_pos (show f.typ = flitPayload ∨ f.typ = flitIdle ∨ f.typ = flitNak from h)]
  rfl

/-- A flit whose sequence check fails is a link protocol error. -/
theorem State.rxOrdered_error {s1 : State} {e : BitVec 4} (h : s.rxSeq p f = (s1, some e)) : s.rxOrdered p f = s1.linkError p e := by
  rw [State.rxOrdered, h]

/-- How far the flit's number is ahead of the one expected. -/
def State.seqGap (s : State) (p : Nat) (f : Flit) : Nat := (f.seq - (s.port p).expect).toNat

theorem State.seqGap_zero (h : f.seq = (s.port p).expect) : s.seqGap p f = 0 := by
  rw [State.seqGap, h]
  simp

theorem State.rxSeq_gap (h : 1 ≤ s.seqGap p f) (hle : s.seqGap p f ≤ 511) : s.rxSeq p f = (s.gap p, none) := by
  unfold State.seqGap at h hle
  simp only [State.rxSeq]
  rw [if_neg (by omega), if_pos ⟨h, hle⟩]

theorem State.rxSeq_range (h : 512 ≤ s.seqGap p f) (hlt : s.seqGap p f < 3584) : s.rxSeq p f = (s, some 2) := by
  unfold State.seqGap at h hlt
  simp only [State.rxSeq]
  rw [if_neg (by omega), if_neg (by omega), if_neg (by omega), if_neg (by omega)]

theorem State.rxSeq_old (htyp : f.typ = flitPayload) (h : 3584 ≤ s.seqGap p f) : s.rxSeq p f = (s.bump F.PRT_LL_DUPCNT_DUP p, none) := by
  unfold State.seqGap at h
  simp only [State.rxSeq]
  rw [if_neg (by omega), if_neg (by omega), if_neg (by omega), if_pos h, if_pos htyp]

theorem State.rxSeq_inOrder (htyp : f.typ ≠ flitPayload) (h : f.seq = (s.port p).expect) : s.rxSeq p f = (s, none) := by
  have h0 : (f.seq - (s.port p).expect).toNat = 0 := State.seqGap_zero h
  simp only [State.rxSeq]
  rw [if_neg (fun hc => htyp hc.1), if_neg (by omega), if_pos h0]

/-- The port that takes an in-order PAYLOAD flit, before its slots. -/
def Port.advanced (q : Port) (ackT : Time) : Port :=
  { q with expect := q.expect + 1, nakPend := false, nakDue := false, ackOwed := true, ackT := ackT }

theorem State.rxSeq_payload (htyp : f.typ = flitPayload) (h : f.seq = (s.port p).expect) : ∃ t, s.rxSeq p f =
    (s.setPort p (Port.takeSlots (s.role p) f.slots ((s.port p).advanced t)).1,
      if (Port.takeSlots (s.role p) f.slots ((s.port p).advanced t)).2 then none else some 5) := by
  have h0 : (f.seq - (s.port p).expect).toNat = 0 := State.seqGap_zero h
  refine ⟨if (s.port p).ackOwed then (s.port p).ackT else s.now + s.ackDelay p, ?_⟩
  simp only [State.rxSeq]
  rw [if_pos ⟨htyp, h0⟩]
  rfl

/-- An ACK that frees nothing leaves the port as it is. -/
theorem Port.ack_nothing {q : Port} {a : BitVec 12} (h : a + 1 = (q.replay.headD (q.nextSeq, [])).1) (t : Time) : q.ack a t = some q := by
  have h0 : a - (q.replay.headD (q.nextSeq, [])).1 + 1 = 0 := by rw [← h]; bv_omega
  unfold Port.ack
  dsimp only
  rw [h0, show (0 : BitVec 12).toNat = 0 from rfl, if_pos (Nat.zero_le _), if_pos rfl]

theorem Port.takeCredit_none (q : Port) (t : BitVec 12) : q.takeCredit 7 t = some q := if_pos (by decide)

/-- A flit that acknowledges nothing and returns no credit leaves the port as it is. -/
theorem State.rxAckCredits_nothing (hack : f.ack + 1 = ((s.port p).replay.headD ((s.port p).nextSeq, [])).1) (h0 : f.cls0 = 7) (h1 : f.cls1 = 7) :
    s.rxAckCredits p f = (s.setPort p (s.port p), none) := by
  simp only [State.rxAckCredits, Port.ack_nothing hack, h0, h1, Port.takeCredit_none, Option.bind_some]

/-- A flit that passes the sequence check, acknowledges nothing and returns no credit acts as a NAK or not at all. -/
theorem State.rxOrdered_nothing {s1 : State} (h : s.rxSeq p f = (s1, none))
    (hack : f.ack + 1 = ((s1.port p).replay.headD ((s1.port p).nextSeq, [])).1) (h0 : f.cls0 = 7) (h1 : f.cls1 = 7) :
    s.rxOrdered p f = if f.typ = flitNak then (s1.setPort p (s1.port p)).rxNak p f else s1.setPort p (s1.port p) := by
  rw [State.rxOrdered, h]
  dsimp only
  rw [State.rxAckCredits_nothing hack h0 h1]

/-- What the ACK and the credit fields of a flit leave of the port: only the replay buffer and the credits move (R133, R141). -/
def Port.SameReceiver (q u : Port) : Prop :=
  u.expect = q.expect ∧ u.nakPend = q.nakPend ∧ u.ackOwed = q.ackOwed ∧ u.rx = q.rx

theorem Port.SameReceiver.refl (q : Port) : q.SameReceiver q := ⟨rfl, rfl, rfl, rfl⟩

theorem Port.SameReceiver.trans {q u v : Port} (h : q.SameReceiver u) (g : u.SameReceiver v) : q.SameReceiver v :=
  ⟨g.1.trans h.1, g.2.1.trans h.2.1, g.2.2.1.trans h.2.2.1, g.2.2.2.trans h.2.2.2⟩

theorem Port.ack_same {q u : Port} {a : BitVec 12} {t : Time} (h : q.ack a t = some u) : q.SameReceiver u := by
  unfold Port.ack at h
  dsimp only at h
  split at h
  · split at h <;> obtain rfl := Option.some.inj h <;> exact ⟨rfl, rfl, rfl, rfl⟩
  · exact absurd h (by simp)

theorem Port.takeCredit_same {q u : Port} {c : BitVec 3} {t : BitVec 12} (h : q.takeCredit c t = some u) : q.SameReceiver u := by
  unfold Port.takeCredit at h
  dsimp only at h
  split at h
  · obtain rfl := Option.some.inj h
    exact .refl q
  · split at h
    · exact absurd h (by simp)
    · obtain rfl := Option.some.inj h
      exact ⟨rfl, rfl, rfl, rfl⟩

/-- What a step of the reception leaves: the registers, the other ports, and the receiver of port `p`. -/
def State.Receives (s u : State) (p : Nat) : Prop :=
  u.regs = s.regs ∧ (∀ j, j ≠ p → u.port j = s.port j) ∧ (s.port p).SameReceiver (u.port p)

theorem State.Receives.trans {s u v : State} (h : s.Receives u p) (g : u.Receives v p) : s.Receives v p :=
  ⟨g.1.trans h.1, fun j hj => (g.2.1 j hj).trans (h.2.1 j hj), h.2.2.trans g.2.2⟩

theorem State.receives_setPort {q : Port} (h : (s.port p).SameReceiver q) : s.Receives (s.setPort p q) p :=
  ⟨rfl, fun j hj => by rw [State.port_setPort, if_neg hj.symm], by rw [State.port_setPort_same]; exact h⟩

theorem State.receives_linkError (s : State) (p : Nat) (e : BitVec 4) : s.Receives (s.linkError p e) p :=
  State.receives_setPort ⟨rfl, rfl, rfl, rfl⟩

theorem State.receives_rxAckCredits (s : State) (p : Nat) (f : Flit) : s.Receives (s.rxAckCredits p f).1 p := by
  unfold State.rxAckCredits
  split
  next => exact ⟨rfl, fun _ _ => rfl, .refl _⟩
  next q hq =>
    have hack := Port.ack_same hq
    split
    next => exact State.receives_setPort hack
    next q' hq' =>
      obtain ⟨q1, h1, h2⟩ := Option.bind_eq_some_iff.mp hq'
      exact State.receives_setPort (hack.trans ((Port.takeCredit_same h1).trans (Port.takeCredit_same h2)))

/-- After the sequence check a PAYLOAD flit moves neither the registers nor the receiver. -/
theorem State.receives_rxPayload (htyp : f.typ = flitPayload) (hn : (s.port p).notices = 0) {s1 : State} {e : Option (BitVec 4)}
    (hseq : s.rxSeq p f = (s1, e)) : s1.Receives (s.rxActive p f) p := by
  rw [State.rxActive_ordered (.inl htyp) hn, State.rxOrdered, hseq]
  cases e with
  | some e => exact State.receives_linkError s1 p e
  | none =>
    have hcredits := s1.receives_rxAckCredits p f
    dsimp only
    cases hx : s1.rxAckCredits p f with
    | mk s2 e2 =>
      rw [hx] at hcredits
      cases e2 with
      | some e2 => exact hcredits.trans (State.receives_linkError s2 p e2)
      | none =>
        have hnak : f.typ ≠ flitNak := by rw [htyp]; decide
        simpa [hnak] using hcredits

/-- Slots that are accepted move no more of the receiver than its messages. -/
theorem Port.takeSlots_same (role : Role) (l : List Slot) (q : Port) : (Port.takeSlots role l q).1.expect = q.expect ∧
    (Port.takeSlots role l q).1.nakPend = q.nakPend ∧ (Port.takeSlots role l q).1.ackOwed = q.ackOwed := by
  induction l generalizing q with
  | nil => exact ⟨rfl, rfl, rfl⟩
  | cons x t ih =>
    unfold Port.takeSlots
    split
    next =>
      dsimp only
      split
      · exact ih q
      · split
        · exact ⟨rfl, rfl, rfl⟩
        · split <;> split
          · exact ⟨rfl, rfl, rfl⟩
          · exact ih _
          · exact ⟨rfl, rfl, rfl⟩
          · exact ih _
    next r _ =>
      dsimp only
      split <;> split
      · exact ⟨rfl, rfl, rfl⟩
      · exact ih _
      · exact ⟨rfl, rfl, rfl⟩
      · exact ih _

/-- NULL slots between messages hold nothing. -/
theorem Port.takeSlots_null (role : Role) (n : Nat) {q : Port} (h : q.rxPart = none) :
    Port.takeSlots role (List.replicate n 0) q = (q, true) := by
  induction n with
  | zero => rfl
  | succ n ih =>
    rw [List.replicate_succ, Port.takeSlots, h]
    exact ih

/-- A flit that holds one message of one slot delivers it. -/
theorem Port.takeSlots_one (role : Role) {h : Slot} {q : Port} (hpart : q.rxPart = none) (hop : (h.extractLsb' 0 8 : BitVec 8) ≠ 0)
    (hcls : opClass (h.extractLsb' 0 8) < 6) (hlen : (h.extractLsb' 8 5 : BitVec 5) = 0) :
    (Port.takeSlots role (padSlots [h]) q).1.rx = q.rx ++ [ofSlots h []] := by
  have hslots : padSlots [h] = h :: List.replicate 14 0 := rfl
  rw [hslots, Port.takeSlots, hpart]
  simp only [hlen]
  rw [if_neg hop, if_neg (by omega), if_pos (show (0 : BitVec 5).toNat + 1 = 1 from rfl)]
  split
  · rfl
  · rw [Port.takeSlots_null role 14 rfl]

/-- A replay that starts from the oldest flit of the buffer (R135, R136). -/
theorem State.startReplay_oldest {o : BitVec 12} {x : List Slot} {rest : List (BitVec 12 × List Slot)} (h : (s.port p).replay = (o, x) :: rest)
    (hlimit : (s.port p).replays < s.fget F.PRT_LL_TIMER_REPLAY_LIMIT p) :
    s.startReplay p = (s.bump F.PRT_LL_ERRCNT1_REPLAY p).modPort p (fun q =>
      { q with replayAt := some o, replayFrom := o, replays := q.replays + 1, replayT := s.now + s.replayTmo p }) := by
  simp only [State.startReplay, h]
  rw [if_neg (by omega)]

theorem State.setPort_self_port (s : State) (p j : Nat) : (s.setPort p (s.port p)).port j = s.port j := by
  rw [State.port_setPort]
  split
  next h => rw [h]
  next => rfl

/-! ## INIT records (R122 to R125) -/

theorem State.rxInit_version {r : Slot} (hr : f.slots.headD 0 = r) (h : (r.extractLsb' 0 8 : BitVec 8) ≠ 1) :
    s.rxInit p f = s.failPort p 0xA := by
  simp only [State.rxInit, hr]
  rw [if_pos h]

theorem State.rxInit_agent {r : Slot} (hr : f.slots.headD 0 = r) (h : (r.extractLsb' 0 8 : BitVec 8) = 1)
    (hkind : (r.extractLsb' 8 2 : BitVec 2).toNat < 2) (hagent : agentOk (s.role p) (r.extractLsb' 12 4 : BitVec 4).toNat = false) :
    s.rxInit p f = s.failPort p 0xB := by
  simp only [State.rxInit, hr]
  rw [if_neg (by simp [h]), if_neg (by omega), if_pos (by rw [hagent]; rfl)]

/-- The slots that an INIT record advertises, by class. -/
def initCredits (r : Slot) : List Nat := (List.range 6).map (fun i => (r.extractLsb' (36 + 12 * i) 12 : BitVec 12).toNat)

theorem initCredits_getD (r : Slot) {c : Nat} (h : c < 6) : (initCredits r).getD c 0 = (r.extractLsb' (36 + 12 * c) 12 : BitVec 12).toNat := by
  simp [initCredits, h]

/-- The port that has accepted a FULL record. -/
def Port.accepted (q : Port) (r : Slot) : Port :=
  { q with gotInit := true, gotOk := q.gotOk || r.getLsbD 10, partner := initCredits r,
           cr := (List.range 6).foldl (fun l i => spMod Credit.zero l i (fun x => { x with adv := (initCredits r).getD i 0 })) q.cr }

/-- The partner of a FULL record recorded in LL_STATUS. -/
def State.partnerRecorded (s : State) (p : Nat) (r : Slot) : State :=
  (s.fset F.PRT_LL_STATUS_PARTNER_NODE (r.extractLsb' 16 20 : BitVec 20).toNat p).fset F.PRT_LL_STATUS_PARTNER_AGENT
    (r.extractLsb' 12 4 : BitVec 4).toNat p

theorem State.rxInit_full {r : Slot} (hr : f.slots.headD 0 = r) (h : (r.extractLsb' 0 8 : BitVec 8) = 1)
    (hkind : (r.extractLsb' 8 2 : BitVec 2) = 0) (hresume : (s.port p).resume = false)
    (hagent : agentOk (s.role p) (r.extractLsb' 12 4 : BitVec 4).toNat = true)
    (hcr : ∀ c ∈ Machine.sends (s.role p), c < 6 ∧ 32 ≤ (r.extractLsb' (36 + 12 * c) 12 : BitVec 12).toNat) :
    s.rxInit p f = ((s.partnerRecorded p r).modPort p (fun q => q.accepted r)).maybeActive p := by
  have hany : (Machine.sends (s.role p)).any (fun c => (initCredits r).getD c 0 < 32) = false := by
    rw [List.any_eq_false]
    intro c hc
    obtain ⟨hlt, hle⟩ := hcr c hc
    rw [initCredits_getD r hlt]
    simpa using hle
  unfold initCredits at hany
  simp only [State.rxInit, hr, hkind, hany]
  rw [if_neg (by simp [h]), if_neg (by simp), if_neg (by rw [hagent]; decide), if_neg (by simp),
    if_neg (by simp [hresume]), if_neg (by simp)]
  rfl

theorem State.partnerRecorded_reads (s : State) (p : Nat) (r : Slot) :
    (s.partnerRecorded p r).fget F.PRT_LL_STATUS_PARTNER_NODE p = (r.extractLsb' 16 20 : BitVec 20).toNat ∧
    (s.partnerRecorded p r).fget F.PRT_LL_STATUS_PARTNER_AGENT p = (r.extractLsb' 12 4 : BitVec 4).toNat := by
  have hnode : (r.extractLsb' 16 20 : BitVec 20).toNat % 2 ^ F.PRT_LL_STATUS_PARTNER_NODE.wid = (r.extractLsb' 16 20 : BitVec 20).toNat :=
    Nat.mod_eq_of_lt (r.extractLsb' 16 20 : BitVec 20).isLt
  have hagent : (r.extractLsb' 12 4 : BitVec 4).toNat % 2 ^ F.PRT_LL_STATUS_PARTNER_AGENT.wid = (r.extractLsb' 12 4 : BitVec 4).toNat :=
    Nat.mod_eq_of_lt (r.extractLsb' 12 4 : BitVec 4).isLt
  constructor
  · simp (disch := decide) only [State.partnerRecorded, State.fget_fset_bits, State.fget_fset_same, hnode]
  · simp (disch := decide) only [State.partnerRecorded, State.fget_fset_same, hagent]

/-- The credits of a class after the advertised slots of six classes have been written. -/
theorem Port.accepted_credit (q : Port) (r : Slot) {c : Nat} (h : c < 6) :
    ((q.accepted r).credit c).adv = (r.extractLsb' (36 + 12 * c) 12 : BitVec 12).toNat := by
  have hrange : List.range 6 = [0, 1, 2, 3, 4, 5] := rfl
  have hadv := initCredits_getD r h
  rw [Port.credit, Port.accepted, hrange]
  simp only [List.foldl_cons, List.foldl_nil, spGet_spMod]
  have hclass : c = 0 ∨ c = 1 ∨ c = 2 ∨ c = 3 ∨ c = 4 ∨ c = 5 := by omega
  rcases hclass with rfl | rfl | rfl | rfl | rfl | rfl <;> exact hadv

/-- ACTIVE is entered when RX_OK has gone both ways, and otherwise nothing happens (R124). -/
theorem State.maybeActive_port (s : State) (p : Nat) : (s.maybeActive p).port p =
    if (s.port p).sentOk && (s.port p).gotOk then { s.port p with
      st := .active, fails := 0, inReset := false, replayT := s.now + s.replayTmo p,
      replayAt := if (s.port p).resume then ((s.port p).replay.head?).map (·.1) else none,
      replayFrom := if (s.port p).resume then ((s.port p).replay.headD (0, [])).1 else 0 }
    else s.port p := by
  unfold State.maybeActive
  split
  · rw [State.enterActive, State.port_modPort_same, State.setPortState_port]
  · rfl

theorem State.maybeActive_fget (s : State) (p : Nat) (g : Fld) (i j : Nat) : (s.maybeActive p).fget g i j = s.fget g i j := by
  unfold State.maybeActive
  split
  · rw [State.enterActive, State.modPort_fget, State.setPortState_fget]
  · rfl

theorem Port.credit_of_cr {q u : Port} (h : u.cr = q.cr) (c : Nat) : u.credit c = q.credit c := by
  rw [Port.credit, Port.credit, h]

end Sys2Proof.Machine
end

section
/-! The statements about the flits that a port receives (04 R121 to R135). -/
namespace Sys2Proof.Machine

/-- Settles O19: each flit by its row of the reception, and a flit in sequence by the sequence check and then its ACK and credits. -/
theorem linkReceive : Obligations.LinkReceive := by
  unfold Obligations.LinkReceive
  intro s p f hrst hp
  obtain ⟨hpay, hidle, hnak, hinit, hdown⟩ := exec_flit hrst hp f
  refine ⟨fun c g hcg => ?common, fun g hg hcrc hst hn => ⟨fun hseq => ?taken, fun hold => ?old⟩,
    fun g o x rest hg hcrc hst hn hseq hrep hack h0 h1 hat hlimit => ?nak, fun g hg hcrc hst hn hseq hack h0 h1 => ?idle,
    fun g hg hcrc hst hn => ?init, fun g hg hcrc hst => ?notice⟩
  case common =>
    have hexec : exec c s = .next (s.after (s.rxFlit p g)) ∧ g.seq = f.seq ∧ g.ack = f.ack ∧ g.cls0 = f.cls0 ∧ g.cls1 = f.cls1 ∧
        (g.typ ≠ flitInit → g.typ ≠ flitDown → ordered g) := by
      simp only [List.mem_cons, Prod.mk.injEq, List.not_mem_nil, or_false] at hcg
      rcases hcg with ⟨rfl, rfl⟩ | ⟨rfl, rfl⟩ | ⟨rfl, rfl⟩ | ⟨rfl, rfl⟩ | ⟨rfl, rfl⟩
      · exact ⟨hpay, rfl, rfl, rfl, rfl, fun _ _ => .inl rfl⟩
      · exact ⟨hidle, rfl, rfl, rfl, rfl, fun _ _ => .inr (.inl rfl)⟩
      · exact ⟨hnak, rfl, rfl, rfl, rfl, fun _ _ => .inr (.inr rfl)⟩
      · exact ⟨hinit, rfl, rfl, rfl, rfl, fun h _ => absurd rfl h⟩
      · exact ⟨hdown, rfl, rfl, rfl, rfl, fun _ h => absurd rfl h⟩
    obtain ⟨hexec, hseq, hack, hc0, hc1, hord⟩ := hexec
    refine ⟨fun hclosed => ?_, fun hopen hbad => ?_, fun hst hcrc hn hi hd hlow hhigh => ?_,
      fun hst hcrc hn hi hd hlow hhigh hpend hf h0 h1 hnotNak => ?_⟩
    · rw [hexec, State.rxFlit_closed hclosed]
    · rw [hexec, State.rxFlit_damaged hopen hbad]
    · rw [hexec, State.rxFlit_active hst hcrc, State.rxActive_ordered (hord hi hd) hn,
        State.rxOrdered_error (State.rxSeq_range (by rw [State.seqGap, hseq]; exact hlow) (by rw [State.seqGap, hseq]; exact hhigh))]
    · have hgap : s.gap p = s.modPort p (fun q => { q with nakPend := true, nakDue := true, nakT := s.now + s.replayTmo p }) := by
        rw [State.gap, if_neg (by simp [hpend])]
      have hq : (s.gap p).port p = { s.port p with nakPend := true, nakDue := true, nakT := s.now + s.replayTmo p } := by
        rw [hgap, State.port_modPort_same]
      have hact : s.rxActive p g = (s.gap p).setPort p ((s.gap p).port p) := by
        have hpass := State.rxSeq_gap (f := g) (by rw [State.seqGap, hseq]; exact hlow) (by rw [State.seqGap, hseq]; exact hhigh)
        rw [State.rxActive_ordered (hord hi hd) hn,
          State.rxOrdered_nothing hpass (by rw [hq, hack]; exact hf) (hc0.trans h0) (hc1.trans h1), if_neg hnotNak]
      have hself := fun j => State.setPort_self_port (s.gap p) p j
      refine ⟨_, by rw [hexec, State.rxFlit_active hst hcrc, hact], ?_, ?_, ?_, ?_, ?_, ?_, fun j hj => ?_⟩
      · rw [hself, hq]
      · rw [hself, hq]
      · rw [hself, hq]
      · rw [hself, hq]
      · rw [hself, hq]
      · rw [hgap]
        rfl
      · rw [hself, hgap, State.modPort, State.port_setPort, if_neg hj.symm]
  case taken =>
    have htyp : g.typ = flitPayload := by rw [hg]
    have hgseq : g.seq = (s.port p).expect := by rw [hg]; exact hseq
    have hslots : g.slots = f.slots := by rw [hg]
    obtain ⟨t, ht⟩ := State.rxSeq_payload htyp hgseq
    obtain ⟨hregs, hothers, hexp, hnp, howed, hrx⟩ := State.receives_rxPayload htyp hn ht
    obtain ⟨hexp', hnp', howed'⟩ := Port.takeSlots_same (s.role p) g.slots ((s.port p).advanced t)
    rw [State.port_setPort_same] at hexp hnp howed hrx
    refine ⟨_, by rw [hpay, ← hg, State.rxFlit_active hst hcrc], ?_, ?_, ?_, hregs, fun j hj => ?_, fun h hone hpart hop hcls hlen => ?_⟩
    · rw [hexp, hexp', hseq]
      rfl
    · rw [hnp, hnp']
      rfl
    · rw [howed, howed']
      rfl
    · rw [hothers j hj, State.port_setPort, if_neg hj.symm]
    · rw [hrx, hslots, hone, Port.takeSlots_one (s.role p) (q := (s.port p).advanced t) hpart hop hcls hlen]
      rfl
  case old =>
    have htyp : g.typ = flitPayload := by rw [hg]
    have hgap : 3584 ≤ s.seqGap p g := by rw [State.seqGap, hg]; exact hold
    obtain ⟨hregs, _, hexp, _, _, hrx⟩ := State.receives_rxPayload htyp hn (State.rxSeq_old htyp hgap)
    refine ⟨_, by rw [hpay, ← hg, State.rxFlit_active hst hcrc], ?_, ?_, ?_⟩
    · rw [State.fget, State.word, hregs]
      exact State.fget_bumpBy_same _ _ _ _ _ (by decide)
    · rw [hexp, State.bump_port]
    · rw [hrx, State.bump_port]
  case nak =>
    have htyp : g.typ = flitNak := by rw [hg]
    have hord : ordered g := .inr (.inr htyp)
    have hself := State.setPort_self_port s p p
    have hact : s.rxActive p g = (s.setPort p (s.port p)).startReplay p := by
      have hpass := State.rxSeq_inOrder (f := g) (by rw [htyp]; decide) (by rw [hg]; exact hseq)
      rw [State.rxActive_ordered hord hn, State.rxOrdered_nothing hpass (by rw [hrep, hg]; exact hack) (by rw [hg]; exact h0) (by rw [hg]; exact h1),
        if_pos htyp, State.rxNak, if_neg (by rw [hself, hat]; simp)]
    have hreplay := State.startReplay_oldest (s := s.setPort p (s.port p)) (p := p) (by rw [hself]; exact hrep) (by rw [hself]; exact hlimit)
    refine ⟨_, by rw [hnak, ← hg, State.rxFlit_active hst hcrc, hact, hreplay], ?_⟩
    rw [State.port_modPort_same, State.bump_port, hself]
    refine ⟨rfl, rfl, rfl, ?_⟩
    rw [State.modPort_fget]
    exact State.fget_bumpBy_same _ _ _ _ _ (by decide)
  case idle =>
    have htyp : g.typ = flitIdle := by rw [hg]
    have hact : s.rxActive p g = s.setPort p (s.port p) := by
      have hpass := State.rxSeq_inOrder (f := g) (by rw [htyp]; decide) (by rw [hg]; exact hseq)
      rw [State.rxActive_ordered (.inr (.inl htyp)) hn,
        State.rxOrdered_nothing hpass (by rw [hg]; exact hack) (by rw [hg]; exact h0) (by rw [hg]; exact h1), if_neg (by rw [htyp]; decide)]
    exact ⟨_, by rw [hidle, ← hg, State.rxFlit_active hst hcrc, hact], fun j => State.setPort_self_port s p j, rfl⟩
  case init =>
    rw [hinit, ← hg, State.rxFlit_active hst hcrc, State.rxActive_init (by rw [hg]) hn]
  case notice =>
    rw [hdown, ← hg, State.rxFlit_active hst hcrc, State.rxActive_down (by rw [hg])]

/-- Settles O20: the version and the agent fail the port, a FULL record is accepted, and RX_OK both ways enters ACTIVE. -/
theorem linkInitExchange : Obligations.LinkInitExchange := by
  unfold Obligations.LinkInitExchange
  intro s p f g r hrst hp hg hcrc hst hn hr
  obtain ⟨_, _, _, hinit, _⟩ := exec_flit hrst hp f
  have hhead : g.slots.headD 0 = r := by rw [hg, hr]
  have hexec : exec (.llInitRx p f) s = .next (s.after (s.rxInit p g)) := by
    rw [hinit, ← hg, State.rxFlit_init hst hcrc (by rw [hg]) hn]
  refine ⟨fun hver => ?version, fun hver hkind hagent => ?agent, fun hver hkind hresume hagent hcr => ?full, fun cause => ?fails⟩
  case version => rw [hexec, State.rxInit_version hhead hver]
  case agent => rw [hexec, State.rxInit_agent hhead hver hkind hagent]
  case full =>
    obtain ⟨hnode, hagent'⟩ := s.partnerRecorded_reads p r
    have hport := State.maybeActive_port ((s.partnerRecorded p r).modPort p (fun q => q.accepted r)) p
    rw [State.port_modPort_same, show (s.partnerRecorded p r).port p = s.port p from rfl] at hport
    refine ⟨_, by rw [hexec, State.rxInit_full hhead hver hkind hresume hagent hcr], ?_, ?_, ?_, fun hsent hok => ?_, fun hsent => ?_,
      fun c hc => ?_⟩
    · rw [State.maybeActive_fget, State.modPort_fget, hnode]
    · rw [State.maybeActive_fget, State.modPort_fget, hagent']
    · rw [hport]
      split <;> rfl
    · have hboth : (((s.port p).accepted r).sentOk && ((s.port p).accepted r).gotOk) = true := by simp [Port.accepted, hsent, hok]
      rw [hport, if_pos hboth]
      exact ⟨rfl, rfl⟩
    · have hboth : (((s.port p).accepted r).sentOk && ((s.port p).accepted r).gotOk) = false := by simp [Port.accepted, hsent]
      rw [hport, hboth]
      exact hst
    · rw [← (s.port p).accepted_credit r hc, Port.credit_of_cr]
      rw [hport]
      split <;> rfl
  case fails =>
    obtain ⟨hvalid, hcause, _⟩ := s.failPort_lastErr p cause
    refine ⟨hcause, ?_, (s.failPort_failed p cause).1⟩
    rw [State.flag, hvalid]
    rfl

end Sys2Proof.Machine
end

section
/-!
SUPPORT. A command bit of a register (21 R12, R13): a write that leaves every other field of its register as it reads changes nothing.
-/
namespace Sys2Proof.Machine

section
variable {α : Type} {d : α}

/-- Below the first index of an array in order nothing is held. -/
theorem spGet_below {l : Sp α} {i k : Nat} (hl : spRising (some i) l = true) (hk : k ≤ i) : spGet d l k = d := by
  induction l generalizing i with
  | nil => rfl
  | cons e t ih =>
    simp only [spRising, Bool.and_eq_true, decide_eq_true_eq] at hl
    rw [spGet, if_neg (by omega), ih hl.2 (by omega)]

/-- An array in order reads at each of its indexes the value held there. -/
theorem spGet_of_mem {l : Sp α} {lo : Option Nat} (hl : spRising lo l = true) {e : Nat × α} (he : e ∈ l) : spGet d l e.1 = e.2 := by
  induction l generalizing lo with
  | nil => exact absurd he List.not_mem_nil
  | cons f t ih =>
    simp only [spRising, Bool.and_eq_true] at hl
    rcases List.mem_cons.mp he with rfl | he
    · exact if_pos rfl
    · have hne : f.1 ≠ e.1 := fun heq => by
        have hrise : ∀ {i : Nat} {t : Sp α}, spRising (some i) t = true → ∀ e ∈ t, i < e.1 := by
          intro i t
          induction t generalizing i with
          | nil => exact fun _ e he => absurd he List.not_mem_nil
          | cons g t ih =>
            intro hg e he
            simp only [spRising, Bool.and_eq_true, decide_eq_true_eq] at hg
            rcases List.mem_cons.mp he with rfl | he
            · exact hg.1
            · exact Nat.lt_trans hg.1 (ih hg.2 e he)
        exact Nat.lt_irrefl _ (heq ▸ hrise hl.2 e he)
      rw [spGet, if_neg hne, ih hl.2 he]

theorem spInsert_self {k : Nat} {l : Sp α} (h : spGet d l k ≠ d) {lo : Option Nat} (hl : spRising lo l = true) :
    spInsert k (spGet d l k) l = l := by
  induction l generalizing lo with
  | nil => exact absurd rfl h
  | cons e t ih =>
    obtain ⟨i, w⟩ := e
    simp only [spRising, Bool.and_eq_true] at hl
    by_cases hik : i = k
    · simp [spInsert, spGet, hik]
    · have hget : spGet d ((i, w) :: t) k = spGet d t k := by simp [spGet, hik]
      rw [hget] at h ⊢
      have hlow : ¬ k < i := fun hlt => h (spGet_below hl.2 (Nat.le_of_lt hlt))
      rw [spInsert, if_neg hlow, if_neg (Ne.symm hik), ih h hl.2]

/-- An array in canonical form that is written with what it holds is the same array. -/
theorem SpCanon.set_self [DecidableEq α] {d : Nat → α} {l : Sp α} (h : SpCanon d l) (k : Nat) : spSet (d k) l k (spGet (d k) l k) = l := by
  obtain ⟨hrise, hval⟩ := h
  unfold spSet
  split
  next hd =>
    refine List.filter_eq_self.mpr fun e he => ?_
    simp only [bne_iff_ne]
    rintro rfl
    exact hval e he ((spGet_of_mem hrise he).symm.trans hd)
  next hd => exact spInsert_self hd hrise

end

section
variable {s : State} {who : Party} {n a : Nat} {v : Word}

theorem setBits_self (w : Word) {lsb wid : Nat} : setBits w lsb wid (getBits w lsb wid) = w := by
  apply BitVec.eq_of_getLsbD_eq
  intro i hi
  rw [getLsbD_setBits _ _ _ _ _ hi, testBit_getBits]
  split
  next hin => simp [show i - lsb < wid by omega, show lsb + (i - lsb) = i by omega]
  next => rfl

/-- A field that is written with what it reads changes nothing. -/
theorem State.fset_self (h : SpCanon regInit s.regs) (f : Fld) (n m : Nat) : s.fset f (s.fget f n m) n m = s := by
  rw [State.fset, State.fget, setBits_self, State.setWord]
  have hset : spSet (regInit (f.addr n m)) s.regs (f.addr n m) (s.word (f.addr n m)) = s.regs := h.set_self _
  rw [hset]

theorem Fld.addr_of_member {f : Fld} {m : Nat} (h : f.member n a = some m) : f.addr n m = a := by
  unfold Fld.member at h
  dsimp only at h
  split at h
  · exact absurd h (by simp)
  · split at h
    next hok => exact Option.some.inj h ▸ hok.1
    next => exact absurd h (by simp)

/-- The field is written as it reads when the command bit `i` is set beside the bits of `fields`. -/
def WFld.untouched (fields : Word) (i : Nat) (w : WFld) : Bool :=
  (w.acc == .rw || w.acc == .rws) && (List.range w.fld.wid).all (fun j => fields.getLsbD (w.fld.lsb + j) && w.fld.lsb + j != i)

theorem getLsbD_bitWord (i j : Nat) : (bitWord i).getLsbD j = (decide (j < 32) && decide (i = j)) := by
  rw [bitWord, BitVec.getLsbD_ofNat, Nat.testBit_two_pow]

theorem getBits_masked {fields x : Word} {i lsb wid : Nat}
    (h : ∀ j < wid, fields.getLsbD (lsb + j) = true ∧ lsb + j ≠ i) :
    getBits ((x &&& fields) ||| bitWord i) lsb wid = getBits x lsb wid := by
  apply Nat.eq_of_testBit_eq
  intro j
  rw [testBit_getBits, testBit_getBits]
  by_cases hj : j < wid
  · obtain ⟨hf, hne⟩ := h j hj
    have hbit : (bitWord i).getLsbD (lsb + j) = false := by
      rw [getLsbD_bitWord, decide_eq_false hne.symm, Bool.and_false]
    rw [BitVec.getLsbD_or, BitVec.getLsbD_and, hf, hbit, Bool.and_true, Bool.or_false]
  · simp [hj]

/-- A write of a command bit that keeps the fields of its register writes no field. -/
theorem State.writeFields_commandBit (hs : SpCanon regInit s.regs) {fields : Word} {i : Nat} {l : List WFld}
    (hl : ∀ w ∈ l, (w.fld.member n a).isSome = true → w.untouched fields i = true) :
    s.writeFields who n a ((s.word a &&& fields) ||| bitWord i) l = s := by
  have hone : ∀ w ∈ l, s.writeField who n a ((s.word a &&& fields) ||| bitWord i) w = s := by
    intro w hw
    unfold State.writeField
    split
    next => rfl
    next m hm =>
      have hkeep := hl w hw (by rw [hm]; rfl)
      simp only [WFld.untouched, Bool.and_eq_true, Bool.or_eq_true, beq_iff_eq, List.all_eq_true, List.mem_range, bne_iff_ne] at hkeep
      obtain ⟨hacc, hbits⟩ := hkeep
      have hread : getBits ((s.word a &&& fields) ||| bitWord i) w.fld.lsb w.fld.wid = s.fget w.fld n m := by
        rw [getBits_masked hbits, State.fget, Fld.addr_of_member hm]
      dsimp only
      rw [hread, State.fset_self hs]
      rcases hacc with hacc | hacc <;> rw [hacc] <;> exact ite_self s
  clear hl
  induction l with
  | nil => rfl
  | cons w l ih =>
    rw [State.writeFields, List.foldl_cons, hone w List.mem_cons_self]
    exact ih fun x hx => hone x (List.mem_cons_of_mem _ hx)

theorem bit_commandBit {fields x : Word} {i : Nat} (hi : i < 32) : ((x &&& fields) ||| bitWord i).getLsbD i = true := by
  rw [BitVec.getLsbD_or, getLsbD_bitWord, decide_eq_true hi, decide_eq_true rfl, Bool.true_and, Bool.or_true]

theorem bit_commandBit_other {fields x : Word} {i j : Nat} (hj : fields.getLsbD j = false) (hne : i ≠ j) :
    ((x &&& fields) ||| bitWord i).getLsbD j = false := by
  rw [BitVec.getLsbD_or, BitVec.getLsbD_and, hj, getLsbD_bitWord, decide_eq_false hne, Bool.and_false, Bool.and_false, Bool.or_false]

end

end Sys2Proof.Machine
end

section
/-!
SUPPORT. What a port sends in a flit clock (04 R114, R123 to R146): an equation for each case of the transmitter.
-/
namespace Sys2Proof.Machine

variable {s : State} {p : Nat}

theorem crcFlit_crc (f : Flit) : (crcFlit f).crc = flitCrc (crcFlit f) := rfl

theorem State.emit_port (s : State) (p : Nat) (f : Flit) : ∃ w h, (s.emit p f).port p =
    { s.port p with lastTx := some f, flitNo := (s.port p).flitNo + 1, ackOwed := false, wait := w, held := h } :=
  ⟨_, _, State.port_modPort_same _ _ _⟩

theorem State.flitClock_closed (h : (s.port p).st = .down ∨ (s.port p).st = .train ∨ (s.port p).st = .failed) : s.flitClock p = s := by
  rcases h with h | h | h <;> simp [State.flitClock, h]

theorem State.flitClock_init (h : (s.port p).st = .init) (hready : s.ready = true) : s.flitClock p = s.txInit p := by
  simp [State.flitClock, h, hready]

theorem State.flitClock_notice (h : (s.port p).st = .active) (hn : 0 < (s.port p).notices) : s.flitClock p = s.txNotice p := by
  simp [State.flitClock, h, hn]

theorem State.flitClock_active (h : (s.port p).st = .active) (hn : (s.port p).notices = 0) : s.flitClock p = s.txActive p := by
  simp [State.flitClock, h, hn]

/-- The INIT flit of port `p` (R123). -/
def State.initFlit (s : State) (p : Nat) : Flit := crcFlit
  { seq := if (s.port p).resume then ((s.port p).replay.headD ((s.port p).nextSeq, [])).1 else 0,
    ack := if (s.port p).resume then (s.port p).expect - 1 else 0xFFF,
    typ := flitInit, cls0 := 7, tot0 := 0, cls1 := 7, tot1 := 0, rsv := 0, slots := padSlots [s.initRecord p], crc := 0 }

/-- Before a record has come and RX_OK has gone, an INIT flit moves nothing but the port's last flit. -/
theorem State.txInit_first (hgot : (s.port p).gotInit = false) (hsent : (s.port p).sentOk = false) : s.txInit p =
    s.modPort p (fun q => { q with lastTx := some (s.initFlit p), sentOk := q.sentOk || q.gotInit }) := by
  have heq : s.txInit p =
      (s.modPort p (fun q => { q with lastTx := some (s.initFlit p), sentOk := q.sentOk || q.gotInit })).maybeActive p := rfl
  rw [heq, State.maybeActive, if_neg]
  rw [State.port_modPort_same]
  simp [hgot, hsent]

/-- The DOWN_NOTICE flit of port `p` (R146). -/
def State.noticeFlit (s : State) (p : Nat) : Flit := crcFlit
  { seq := (s.port p).nextSeq, ack := (s.port p).expect - 1, typ := flitDown, cls0 := 7, tot0 := 0, cls1 := 7, tot1 := 0, rsv := 0,
    slots := padSlots [(s.port p).noticeCause.zeroExtend 128], crc := 0 }

theorem State.txNotice_more (h : 1 < (s.port p).notices) : s.txNotice p =
    s.modPort p (fun q => { q with lastTx := some (s.noticeFlit p), notices := q.notices - 1 }) :=
  if_neg (by omega)

theorem State.txNotice_last (h : (s.port p).notices = 1) (hreset : (s.port p).thenReset = false) : s.txNotice p =
    (s.modPort p (fun q => { q with lastTx := some (s.noticeFlit p), notices := 0 })).linkReset p (s.port p).noticeCause := by
  have hmod : s.modPort p (fun q => { q with lastTx := some (s.noticeFlit p), notices := q.notices - 1 }) =
      s.modPort p (fun q => { q with lastTx := some (s.noticeFlit p), notices := 0 }) := by
    rw [State.modPort, State.modPort, h]
  rw [← hmod]
  unfold State.txNotice
  dsimp only
  rw [if_pos h, if_neg (by simp [hreset])]
  rfl

/-! ## An ACTIVE port (R114) -/

section Active
variable (hheld : (s.port p).held = none) (hagain : (s.port p).again = none)
include hheld hagain

theorem State.txActive_nak (h : (s.port p).nakDue = true) : ∃ v : State,
    v = (s.bump F.PRT_LL_ERRCNT0_NAK p).modPort p (fun q => { q with nakDue := false }) ∧
    s.txActive p = v.emit p (v.mkFlit p flitNak (((s.port p).replayAt).getD (s.port p).nextSeq) noSlots) := by
  refine ⟨_, rfl, ?_⟩
  simp only [State.txActive, hheld, hagain, h]
  rfl

theorem State.txActive_replay (h : (s.port p).nakDue = false) {n : BitVec 12} (hn : (s.port p).replayAt = some n) :
    s.txActive p = s.txReplay p n := by
  simp only [State.txActive, hheld, hagain, h, hn]
  rfl

theorem State.txActive_new (h : (s.port p).nakDue = false) (hn : (s.port p).replayAt = none) : s.txActive p =
    if (s.port p).replay.length < 512 ∧
        ((s.port p).txSlots ≠ [] ∨ (pickMsg (s.port p) (s.port p).tx 0 (s.port p).jigBlocked).isSome) then s.txPayload p
    else s.emit p (s.mkFlit p flitIdle (s.port p).nextSeq noSlots) := by
  simp only [State.txActive, hheld, hagain, h, hn]
  rfl

end Active

theorem State.txReplay_found {n : BitVec 12} {x : List Slot} (h : (s.port p).replay.find? (fun r => r.1 == n) = some (n, x)) :
    ∃ v : State, v = s.modPort p (fun q => { q with replayAt := if n + 1 = q.nextSeq then none else some (n + 1) }) ∧
      s.txReplay p n = v.emit p (v.mkFlit p flitPayload n x) := by
  refine ⟨_, rfl, ?_⟩
  simp only [State.txReplay, h]

/-! ## A new PAYLOAD flit (R129, R139) -/

/-- The rest of a message fills the flit that has room for it. -/
theorem fillFlit_rest {q : Port} (htx : q.tx = []) (heads : List (Msg × Nat)) (l : List Slot) (n : Nat) (hn : l.length ≤ n) (acc : List Slot) :
    fillFlit n { q with txSlots := l } acc heads = (acc ++ l, heads, { q with txSlots := [] }) := by
  induction l generalizing n acc with
  | nil =>
    cases n with
    | zero => rw [fillFlit, List.append_nil]
    | succ n => simp [fillFlit, htx, pickMsg]
  | cons x t ih =>
    cases n with
    | zero => exact absurd hn (by simp)
    | succ n =>
      rw [fillFlit]
      dsimp only
      have hstep := ih n (by simpa using hn) (acc ++ [x])
      rw [List.append_assoc, List.singleton_append] at hstep
      exact hstep

/-- The egress queue's only message, picked for a flit that has room for it and credits. -/
def Port.oneSent (q : Port) (m : Msg) : Port :=
  ({ q with tx := [], txSlots := [] } : Port).modCredit (opClass m.op) (fun x => { x with used := x.used + m.body.length + 1 })

theorem pickMsg_one {q : Port} {m : Msg} (hcr : (q.credit (opClass m.op)).used + m.body.length + 1 ≤ (q.credit (opClass m.op)).adv) :
    pickMsg q [m] 0 [] = some (0, m) := by
  simp [pickMsg, hcr]

theorem fillFlit_one {q : Port} {m : Msg} (htx : q.tx = [m]) (hslots : q.txSlots = []) (hwait : q.wait = none)
    (hcr : (q.credit (opClass m.op)).used + m.body.length + 1 ≤ (q.credit (opClass m.op)).adv) (hlen : m.body.length < 15) :
    fillFlit 15 q [] [] = (toSlots m, [(m, 0)], q.oneSent m) := by
  have hpick : pickMsg q [m] 0 q.jigBlocked = some (0, m) := by
    rw [Port.jigBlocked, hwait]
    exact pickMsg_one hcr
  have hrest := fillFlit_rest (q := q.oneSent m) rfl [(m, 0)] m.body 14 (by omega) [headerSlot m]
  rw [fillFlit, hslots]
  simp only [htx, hpick, toSlots, List.eraseIdx_zero, List.tail_cons, List.nil_append, List.length_nil]
  exact hrest

theorem State.stampPort_port (s : State) (p : Nat) : (s.stampPort p).port p = { s.port p with tx := (s.port p).tx.map (stampSync s.now) } :=
  State.port_modPort_same _ _ _

theorem State.noteSync_port (s : State) (heads : List (Msg × Nat)) (j : Nat) : (s.noteSync heads).port j = s.port j := by
  unfold State.noteSync
  split
  · split <;> rfl
  · rfl

theorem State.timersStart_port (s : State) (p : Nat) (heads : List (Msg × Nat)) (t : State) (j : Nat) :
    (s.timersStart p heads t).port j = t.port j := State.foldl_startTimer_port _ _ _

/-- The only message of the egress queue in the replay buffer, with its timers started, before its flit goes out. -/
def State.oneQueued (s : State) (p : Nat) (m : Msg) : State :=
  (s.stampPort p).timersStart p [(m, 0)] (((s.stampPort p).enterReplay p (toSlots m) [(m, 0)] ((s.port p).oneSent m)).noteSync [(m, 0)])

theorem State.oneQueued_port {m : Msg} (hwait : (s.port p).wait = none) : ∃ t l, (s.oneQueued p m).port p = { (s.port p).oneSent m with
    nextSeq := (s.port p).nextSeq + 1, replay := (s.port p).replay ++ [((s.port p).nextSeq, padSlots (toSlots m))],
    replayT := t, unacked := l, wait := none } := by
  rw [State.oneQueued, State.timersStart_port, State.noteSync_port, State.enterReplay, State.port_setPort_same]
  simp only [Port.oneSent, Port.modCredit, hwait]
  exact ⟨_, _, rfl⟩

/-- A PAYLOAD flit that holds the only message of the egress queue. -/
theorem State.txPayload_one {m : Msg} (htx : (s.port p).tx = [m]) (hslots : (s.port p).txSlots = []) (hwait : (s.port p).wait = none)
    (hjig : s.jig = []) (hop : m.op ≠ Op.timeSync) (hlen : m.body.length < 15)
    (hcr : ((s.port p).credit (opClass m.op)).used + m.body.length + 1 ≤ ((s.port p).credit (opClass m.op)).adv) :
    s.txPayload p = (s.oneQueued p m).emit p ((s.oneQueued p m).mkFlit p flitPayload (s.port p).nextSeq (padSlots (toSlots m))) := by
  have hstamp : (s.stampPort p).port p = s.port p := by
    rw [State.stampPort_port, htx, List.map_singleton, stampSync, if_pos hop, ← htx]
  have hfill := fillFlit_one htx hslots hwait hcr hlen
  have hnone : (s.stampPort p).jigFlit p [(m, 0)] = (none, s.stampPort p) := by
    rw [State.jigFlit, if_pos]
    show s.jig.isEmpty = true
    rw [hjig]
    rfl
  unfold State.txPayload
  dsimp only
  rw [hstamp, hfill]
  dsimp only
  rw [hnone]
  rfl

theorem Port.oneSent_used (q : Port) (m : Msg) :
    ((q.oneSent m).credit (opClass m.op)).used = (q.credit (opClass m.op)).used + m.body.length + 1 := by
  simp [Port.oneSent, Port.modCredit, Port.credit, spGet_spMod]

end Sys2Proof.Machine
end

section
/-! The statement about what a port sends (04 R114 to R146). -/
namespace Sys2Proof.Machine

/-- Settles O21: in each state of the transmitter the flit that goes out, by the equation of its case. -/
theorem linkTransmit : Obligations.LinkTransmit := by
  unfold Obligations.LinkTransmit
  intro s p hrst hp
  have hexec : exec (.flitClock p) s = .next (s.after (s.flitClock p)) := next_atPort hrst hp _
  refine ⟨fun hclosed => ?closed, fun hst hready hgot hsent => ?init, fun hst hn => ?notice, fun hst hn hreset => ?last,
    fun hst hn hheld hagain => ⟨fun hnak => ?nak, fun hnak => ⟨fun n x hat hfound => ?replay, fun hat htx hslots => ?idle,
      fun m hat hslots htx hwait hjig hop hlen hroom hcr => ?payload⟩⟩⟩
  case closed => rw [hexec, State.flitClock_closed hclosed]
  case init =>
    refine ⟨_, s.initFlit p, by rw [hexec, State.flitClock_init hst hready, State.txInit_first hgot hsent], ?_⟩
    rw [State.port_modPort_same]
    refine ⟨rfl, rfl, crcFlit_crc _, fun hres => ?_, rfl, hst⟩
    simp [State.initFlit, crcFlit, hres]
  case notice =>
    refine ⟨_, s.noticeFlit p, by rw [hexec, State.flitClock_notice hst (by omega), State.txNotice_more hn], ?_⟩
    rw [State.port_modPort_same]
    exact ⟨rfl, rfl, rfl, crcFlit_crc _, rfl, hst⟩
  case last =>
    exact ⟨_, s.noticeFlit p, by rw [hexec, State.flitClock_notice hst (by omega), State.txNotice_last hn hreset], rfl⟩
  case nak =>
    obtain ⟨v, hv, htx⟩ := State.txActive_nak hheld hagain hnak
    have hvp : v.port p = { s.port p with nakDue := false } := by rw [hv, State.port_modPort_same, State.bump_port]
    obtain ⟨w, h, hport⟩ := v.emit_port p (v.mkFlit p flitNak (((s.port p).replayAt).getD (s.port p).nextSeq) noSlots)
    refine ⟨_, v.mkFlit p flitNak (((s.port p).replayAt).getD (s.port p).nextSeq) noSlots,
      by rw [hexec, State.flitClock_active hst hn, htx], ?_⟩
    rw [hport]
    refine ⟨rfl, rfl, ?_, crcFlit_crc _, ?_, rfl, ?_⟩
    · rw [State.mkFlit, crcFlit, hvp]
    · rw [hvp]
    · rw [State.emit, State.modPort_fget, hv, State.modPort_fget, State.bump, State.fget_bumpBy_same _ _ _ _ _ (by decide)]
  case replay =>
    obtain ⟨v, hv, htx⟩ := State.txReplay_found hfound
    have hvp : v.port p = { s.port p with replayAt := if n + 1 = (s.port p).nextSeq then none else some (n + 1) } := by
      rw [hv, State.port_modPort_same]
    obtain ⟨w, h, hport⟩ := v.emit_port p (v.mkFlit p flitPayload n x)
    refine ⟨_, v.mkFlit p flitPayload n x,
      by rw [hexec, State.flitClock_active hst hn, State.txActive_replay hheld hagain hnak hat, htx], ?_⟩
    rw [hport, hvp]
    exact ⟨rfl, rfl, rfl, rfl, rfl, rfl⟩
  case idle =>
    obtain ⟨w, h, hport⟩ := s.emit_port p (s.mkFlit p flitIdle (s.port p).nextSeq noSlots)
    refine ⟨_, s.mkFlit p flitIdle (s.port p).nextSeq noSlots, by
      rw [hexec, State.flitClock_active hst hn, State.txActive_new hheld hagain hnak hat, if_neg (by simp [htx, hslots, pickMsg])], ?_⟩
    rw [hport]
    exact ⟨rfl, rfl, rfl, rfl, crcFlit_crc _, rfl, rfl, rfl⟩
  case payload =>
    obtain ⟨t, l, hvp⟩ := State.oneQueued_port (m := m) hwait
    obtain ⟨w, h, hport⟩ := (s.oneQueued p m).emit_port p
      ((s.oneQueued p m).mkFlit p flitPayload (s.port p).nextSeq (padSlots (toSlots m)))
    have hpick : (pickMsg (s.port p) (s.port p).tx 0 (s.port p).jigBlocked).isSome = true := by
      rw [htx, Port.jigBlocked, hwait, pickMsg_one hcr]
      rfl
    refine ⟨_, (s.oneQueued p m).mkFlit p flitPayload (s.port p).nextSeq (padSlots (toSlots m)), by
      rw [hexec, State.flitClock_active hst hn, State.txActive_new hheld hagain hnak hat, if_pos ⟨hroom, .inr hpick⟩,
        State.txPayload_one htx hslots hwait hjig hop hlen hcr], ?_⟩
    rw [hport, hvp]
    exact ⟨rfl, rfl, rfl, rfl, crcFlit_crc _, rfl, rfl, rfl, (s.port p).oneSent_used m⟩

end Sys2Proof.Machine
end

section
/-!
SUPPORT. The timers and the training of a port (04 R132 to R150): an equation for each case.
-/
namespace Sys2Proof.Machine

variable {s : State} {p : Nat}

/-! ## The acknowledgement delay (R134): every flit clock of an ACTIVE port sends a flit -/

/-- `u` follows `s` in the same instant, with a flit on the wire of port `p`. -/
def State.Sends (s u : State) (p : Nat) : Prop := (u.port p).lastTx.isSome = true ∧ u.now = s.now

theorem State.sends_emit (s : State) (p : Nat) (f : Flit) : s.Sends (s.emit p f) p := by
  obtain ⟨w, h, hport⟩ := s.emit_port p f
  exact ⟨by rw [hport]; rfl, rfl⟩

theorem State.Sends.of_now {s t u : State} (h : t.Sends u p) (ht : t.now = s.now) : s.Sends u p := ⟨h.1, h.2.trans ht⟩

/-- A flit that goes out after a change of the port's own state. -/
theorem State.sends_emit_modPort (s : State) (p : Nat) (g : Port → Port) (f : Flit) : s.Sends ((s.modPort p g).emit p f) p :=
  ⟨((s.modPort p g).sends_emit p f).1, rfl⟩

theorem State.sends_jigWire (s : State) (p : Nat) (seq : BitVec 12) (slots : List Slot) (hit : Option (Nat × Msg × Nat)) :
    s.Sends (s.jigWire p seq slots hit) p := by
  unfold State.jigWire
  split
  · exact s.sends_emit p _
  · dsimp only
    split
    · exact s.sends_emit p _
    · exact s.sends_emit p _
    · exact s.sends_emit_modPort p _ _
    · obtain ⟨w, h, hport⟩ := s.emit_port p (s.mkFlit p flitIdle (seq + 1) noSlots)
      refine ⟨?_, rfl⟩
      rw [State.port_modPort_same, hport]
      rfl
    · obtain ⟨w, h, hport⟩ := s.emit_port p (s.mkFlit p flitPayload seq slots)
      refine ⟨?_, rfl⟩
      rw [State.port_modPort_same, hport]
      rfl
    · exact s.sends_emit p _

/-- A fold keeps what each of its steps keeps. -/
theorem foldl_kept {β γ δ : Type} (get : β → δ) {f : β → γ → β} (h : ∀ b c, get (f b c) = get b) (l : List γ) (b : β) :
    get (l.foldl f b) = get b := by
  induction l generalizing b with
  | nil => rfl
  | cons c l ih => exact (ih (f b c)).trans (h b c)

theorem State.jigFire_now (s : State) (c : Nat) (r : JigRun) : (s.jigFire c r).now = s.now := by
  unfold State.jigFire
  dsimp only
  split <;> rfl

theorem State.jigFlit_now (s : State) (p : Nat) (heads : List (Msg × Nat)) : (s.jigFlit p heads).2.now = s.now := by
  unfold State.jigFlit
  split
  · rfl
  · refine foldl_kept (fun acc : Option (Nat × Msg × Nat) × State => acc.2.now) (fun acc c => ?_) _ _
    dsimp only
    split
    · split <;> split
      · split
        · rfl
        · exact State.jigFire_now _ _ _
      · rfl
      · split
        · rfl
        · exact State.jigFire_now _ _ _
      · rfl
    · rfl

theorem State.noteSync_now (s : State) (heads : List (Msg × Nat)) : (s.noteSync heads).now = s.now := by
  unfold State.noteSync
  split
  · split <;> rfl
  · rfl

theorem State.timersStart_now (s : State) (p : Nat) (heads : List (Msg × Nat)) (t : State) : (s.timersStart p heads t).now = t.now :=
  State.foldl_field (·.now) (fun _ _ => State.startTimer_now _ _) _ _

theorem State.sends_txPayload (s : State) (p : Nat) : s.Sends (s.txPayload p) p := by
  have hjig : ∀ heads, ((s.stampPort p).jigFlit p heads).2.now = s.now := fun heads => State.jigFlit_now _ _ _
  unfold State.txPayload
  dsimp only
  split
  · refine (State.sends_jigWire _ p _ _ _).of_now ?_
    rw [State.timersStart_now, State.noteSync_now]
    exact hjig _
  · split
    · exact (State.sends_emit _ p _).of_now (hjig _)
    · refine (State.sends_jigWire _ p _ _ _).of_now ?_
      rw [State.timersStart_now, State.noteSync_now]
      exact hjig _

theorem State.sends_txReplay (s : State) (p : Nat) (n : BitVec 12) : s.Sends (s.txReplay p n) p := by
  unfold State.txReplay
  dsimp only
  split <;> exact s.sends_emit_modPort p _ _

theorem State.sends_txHeld {x : Flit × Nat × Time × Nat} (h : (s.port p).held = some x) : s.Sends (s.txHeld p) p := by
  unfold State.txHeld
  rw [h]
  exact (State.sends_jigWire _ p _ _ _).of_now (State.jigFlit_now _ _ _)

theorem State.sends_ite {c : Prop} [Decidable c] {a b : State} (ha : c → s.Sends a p) (hb : s.Sends b p) : s.Sends (if c then a else b) p := by
  split
  next h => exact ha h
  next => exact hb

theorem State.sends_txActive (s : State) (p : Nat) : s.Sends (s.txActive p) p := by
  unfold State.txActive
  dsimp only
  refine State.sends_ite (fun hdue => ?held) ?rest
  case held =>
    cases hheld : (s.port p).held with
    | none => simp [hheld] at hdue
    | some x => exact State.sends_txHeld hheld
  case rest =>
    split
    · split <;> exact s.sends_emit_modPort p _ _
    · refine State.sends_ite (fun _ => ?_) ?_
      · exact ⟨(State.sends_emit _ p _).1, rfl⟩
      · split
        · exact s.sends_txReplay p _
        · exact State.sends_ite (fun _ => s.sends_txPayload p) (s.sends_emit p _)

theorem State.ackDelayEnd_owed (h : (s.port p).st = .active) (howed : (s.port p).ackOwed = true) (hn : (s.port p).notices = 0) :
    s.ackDelayEnd p = (s.until (s.port p).ackT).txActive p := by
  rw [State.ackDelayEnd, if_pos ⟨h, howed⟩]
  exact State.flitClock_active (s := s.until (s.port p).ackT) h hn

/-! ## The NAK, replay and retrain timers (R132, R136, R144, R145) -/

theorem State.nakAgain_pending (h : (s.port p).st = .active) (hpend : (s.port p).nakPend = true) : s.nakAgain p =
    (s.until (s.port p).nakT).modPort p (fun q =>
      { q with nakDue := true, nakT := (s.until (s.port p).nakT).now + (s.until (s.port p).nakT).replayTmo p }) :=
  if_pos ⟨h, hpend⟩

theorem State.replayEnd_eq (h : (s.port p).st = .active) (hrep : (s.port p).replay ≠ []) :
    s.replayEnd p = (s.until (s.port p).replayT).startReplay p := if_pos ⟨h, hrep⟩

theorem State.startReplay_limit {o : BitVec 12} {x : List Slot} {rest : List (BitVec 12 × List Slot)} (h : (s.port p).replay = (o, x) :: rest)
    (hlimit : s.fget F.PRT_LL_TIMER_REPLAY_LIMIT p ≤ (s.port p).replays) : s.startReplay p = s.retrain p := by
  simp only [State.startReplay, h]
  rw [if_pos hlimit]

/-- The port in a retrain that starts now. -/
def Port.retraining (now : Time) (q : Port) : Port :=
  { q with retrains := [now], retrainT := now + msec 1, ucieUp := false, resume := true, gotInit := false, sentOk := false, gotOk := false,
           replayAt := none }

theorem State.retrainCmd_first (h : (s.port p).st = .active) (hnone : (s.port p).retrains = [])
    (hlimit : 0 < s.fget F.PRT_LL_TIMER_RETRAIN_LIMIT p) : s.retrainCmd p =
    ((s.bump F.PRT_LL_ERRCNT1_RETRAIN p).setPortState p .retrain).modPort p (Port.retraining s.now) := by
  have hrecent : (s.port p).retrains.filter (fun t => s.now < t + msec 10) = [] := by rw [hnone, List.filter_nil]
  rw [State.retrainCmd, if_pos h, State.retrain, hrecent, List.length_nil, if_neg (Nat.not_le.mpr hlimit)]
  rfl

/-! ## The command bits of LL_CTL (R150, R152) -/

theorem State.writeAt_prt {who : Party} {v : Word} (hp : p < 12) : s.writeAt who (prtReg p 0) v = s.writePrt who p (prtReg p 0) v := by
  have hport : (prtReg p 0 - 0x10000) / 0x1000 = p := by
    unfold prtReg
    omega
  have hlow : 0x10000 ≤ prtReg p 0 := by
    unfold prtReg
    omega
  have hhigh : prtReg p 0 < 0x1C000 := by
    unfold prtReg
    omega
  unfold State.writeAt
  rw [if_neg (by omega), if_neg (by omega), if_neg (by omega), if_neg (by omega), if_neg (by omega), if_neg (by omega), if_neg (by omega),
    if_neg (by omega), if_neg (by omega), if_pos hhigh, hport]

/-- The writable fields of LL_CTL keep their values when a command bit below them is set. -/
theorem llCtl_untouched : ∀ p < 12, ∀ i < 6, ∀ w ∈ prtWritable, (w.fld.member p (prtReg p 0)).isSome = true → w.untouched 0xC0 i = true := by
  decide

theorem exec_llCtl {who : Party} (hp : p < 12) (ht : s.takes who (prtReg p 0)) (hwf : s.ArraysWf) :
    exec (.llRetrainCmd p who) s = .next (s.after (s.retrainCmd p)) ∧ exec (.portReset p who) s = .next (s.after (s.startPortReset p)) := by
  have hbase : prtReg p 0 % 0x1000 = 0 := by
    unfold prtReg
    omega
  have hword : ∀ i < 6, s.writeAt who (prtReg p 0) ((s.word (prtReg p 0) &&& 0xC0) ||| bitWord i) =
      onBit ((s.word (prtReg p 0) &&& 0xC0) ||| bitWord i) 1 (fun s => s.startPortReset p)
        (onBit ((s.word (prtReg p 0) &&& 0xC0) ||| bitWord i) 2 (fun s => s.retrainCmd p) s) := by
    intro i hi
    rw [State.writeAt_prt hp, State.writePrt, if_pos hbase, State.writeFields_commandBit hwf.regs (llCtl_untouched p hp i hi)]
  constructor
  · have hexec : exec (.llRetrainCmd p who) s = .next (s.commandBit who (prtReg p 0) 0xC0 2) := congrArg _ (if_pos hp)
    rw [hexec, State.commandBit, State.command_eq _ ht, hword 2 (by decide), onBit, if_neg, onBit, if_pos (bit_commandBit (by decide))]
    rw [bit_commandBit_other (by decide) (by decide)]
    decide
  · have hexec : exec (.portReset p who) s = .next (s.commandBit who (prtReg p 0) 0xC0 1) := congrArg _ (if_pos hp)
    rw [hexec, State.commandBit, State.command_eq _ ht, hword 1 (by decide), onBit, if_pos (bit_commandBit (by decide)), onBit, if_neg]
    rw [bit_commandBit_other (by decide) (by decide)]
    decide

/-! ## Training (R113, R124, R146, R148, R151) -/

theorem State.retrained_waiting (h : (s.port p).st = .retrain) (hup : (s.port p).ucieUp = false) (rep : LaneRepair) :
    s.retrained p rep = s.modPort p (fun q => { q with ucieUp := true, rep := rep }) := if_pos ⟨h, by simp [hup]⟩

theorem State.retrainEnd_eq (h : (s.port p).st = .retrain) : s.retrainEnd p = (s.until (s.port p).retrainT).linkReset p 7 := if_pos h

/-- The highest rate under the cap, when the partner has it. -/
theorem find_rateCap {cap : Nat} {rates : BitVec 3} (h : rates.getLsbD (cap - 1) = true) (hlow : 1 ≤ cap) (hhigh : cap ≤ 3) :
    [3, 2, 1].find? (fun r => decide (r ≤ cap) && rates.getLsbD (r - 1)) = some cap := by
  obtain rfl | rfl | rfl : cap = 1 ∨ cap = 2 ∨ cap = 3 := by omega
  all_goals simp at h; simp [h]

theorem State.trained_cap (hst : (s.port p).st = .train) {rates : BitVec 3} (h : rates.getLsbD (s.rateCap p - 1) = true) (hlow : 1 ≤ s.rateCap p)
    (hhigh : s.rateCap p ≤ 3) (rep : LaneRepair) : s.trained p rates rep = (s.setPortState p .init).modPort p (fun q =>
      { q.restart with ucieUp := true, rate := BitVec.ofNat 2 (s.rateCap p), rep := rep }) := by
  rw [State.trained, if_pos hst]
  dsimp only
  rw [find_rateCap h hlow hhigh]

/-- Training fails when the partner has no rate under the cap. -/
theorem State.trained_none (hst : (s.port p).st = .train) {rates : BitVec 3}
    (h : ∀ r, 1 ≤ r → r ≤ s.rateCap p → r ≤ 3 → rates.getLsbD (r - 1) = false) (rep : LaneRepair) : s.trained p rates rep = s.trainFail p := by
  have hnone : [3, 2, 1].find? (fun r => decide (r ≤ s.rateCap p) && rates.getLsbD (r - 1)) = none := by
    rw [List.find?_eq_none]
    intro r hr
    by_cases hcap : r ≤ s.rateCap p
    · have hbit : rates.getLsbD (r - 1) = false := by
        refine h r ?_ hcap ?_
        all_goals simp only [List.mem_cons, List.not_mem_nil, or_false] at hr; omega
      simp [hbit]
    · simp [hcap]
  rw [State.trained, if_pos hst]
  dsimp only
  rw [hnone]

theorem exec_ucieTrainFail (hrst : s.boot.rstN = false) (hp : p < 12) (hst : (s.port p).st = .train) :
    exec (.ucieTrainFail p) s = .next (s.after (s.trainFail p)) :=
  (next_atPort hrst hp _).trans (by rw [if_pos hst])

theorem State.trainFail_again (h : (s.port p).fails < 2) : s.trainFail p = s.modPort p (fun q => { q with fails := q.fails + 1 }) :=
  if_neg (by omega)

theorem State.trainFail_third (h : (s.port p).fails = 2) :
    s.trainFail p = (s.modPort p (fun q => { q with fails := (s.port p).fails + 1 })).failPort p 0xD := if_pos (by omega)

theorem State.drained_empty (hdrain : (s.port p).draining = true) (hrx : (s.port p).rx = []) (href : s.flag F.TIM_STATUS_BACKUP = false)
    (hphy : s.boot.phyOut = false) : s.drained p = (s.setPortState p (if (s.port p).ucieUp then .init else .train)).modPort p (fun q =>
      { q.restart with draining := false, drainT := s.now + msec 10 }) :=
  if_pos ⟨hdrain, hrx, by simp [href], by simp [hphy]⟩

/-- A link reset that has not come to ACTIVE in time, counted. -/
def State.resetLate (s : State) (p : Nat) : State := (s.until (s.port p).drainT).modPort p (fun q => { q with fails := q.fails + 1 })

theorem State.linkResetTimeout_late (hin : (s.port p).inReset = true) (hdrain : (s.port p).draining = false)
    (hst : (s.port p).st = .train ∨ (s.port p).st = .init) : s.linkResetTimeout p =
    if 3 ≤ (s.port p).fails + 1 then (s.resetLate p).failPort p (BitVec.ofNat 4 (s.fget F.PRT_LL_LASTERR_CAUSE p))
    else (s.resetLate p).linkReset p (BitVec.ofNat 4 (s.fget F.PRT_LL_LASTERR_CAUSE p)) := by
  rw [State.linkResetTimeout]
  dsimp only
  rw [if_pos ⟨hin, by simp [hdrain], hst⟩]
  rfl

end Sys2Proof.Machine
end

section
/-! The statement about the timers and the training of a port (04 R132 to R152). -/
namespace Sys2Proof.Machine

/-- Settles O22: each timer, training event and command bit by the equation of its case. -/
theorem linkTimersAndTraining : Obligations.LinkTimersAndTraining := by
  unfold Obligations.LinkTimersAndTraining
  intro s p hrst hp
  refine ⟨fun hst howed hn => ?ack, fun hst hpend => ?nak, fun o x rest hst hrep => ⟨fun hlimit => ?replay, fun hlimit => ?limit⟩,
    fun hst hnone hlimit => ?retrain, fun who ht hwf => exec_llCtl hp ht hwf, fun rep hst hup => ?retrained, fun hst => ?late,
    fun rates rep hst => ⟨fun h hlow hhigh => ?trained, fun h => ?noRate⟩, fun hst hfails => ?again, fun hst hfails => ?third,
    fun hdrain hrx href hphy => ?drained, fun hin hdrain hst hfails => ?resetFails, fun hin hdrain hst hfails => ?resetAgain, ?lowPower,
    fun bits => ?vendor, fun wr a v => ?sideband⟩
  case ack =>
    obtain ⟨hsent, hnow⟩ := (s.until (s.port p).ackT).sends_txActive p
    exact ⟨_, (next_atPort hrst hp _).trans (by rw [State.ackDelayEnd_owed hst howed hn]), hsent, hnow⟩
  case nak =>
    refine ⟨_, (next_atPort hrst hp _).trans (by rw [State.nakAgain_pending hst hpend]), ?_⟩
    rw [State.port_modPort_same]
    exact ⟨rfl, rfl, rfl⟩
  case replay =>
    have hstart := State.startReplay_oldest (s := s.until (s.port p).replayT) (p := p) hrep hlimit
    refine ⟨_, (next_atPort hrst hp _).trans (by rw [State.replayEnd_eq hst (by simp [hrep]), hstart]), ?_⟩
    rw [State.port_modPort_same]
    exact ⟨rfl, rfl⟩
  case limit =>
    have hlate := State.startReplay_limit (s := s.until (s.port p).replayT) (p := p) hrep hlimit
    exact (next_atPort hrst hp _).trans (by rw [State.replayEnd_eq hst (by simp [hrep]), hlate])
  case retrain =>
    refine ⟨_, (next_atPort hrst hp _).trans (by rw [State.retrainCmd_first hst hnone hlimit]), ?_⟩
    rw [State.port_modPort_same, State.setPortState_port, State.bump_port]
    refine ⟨rfl, rfl, rfl, rfl, rfl, ?_⟩
    rw [State.modPort_fget, State.setPortState_fget, State.bump, State.fget_bumpBy_same _ _ _ _ _ (by decide)]
  case retrained => exact (next_atPort hrst hp _).trans (by rw [State.retrained_waiting hst hup])
  case late => exact (next_atPort hrst hp _).trans (by rw [State.retrainEnd_eq hst])
  case trained =>
    refine ⟨_, (next_atPort hrst hp _).trans (by rw [State.trained_cap hst h hlow hhigh]), ?_⟩
    rw [State.port_modPort_same, State.setPortState_port]
    refine ⟨rfl, rfl, ?_, rfl, rfl, rfl, rfl⟩
    exact (BitVec.toNat_ofNat _ _).trans (Nat.mod_eq_of_lt (by omega))
  case noRate =>
    rw [exec_ucieTrainFail hrst hp hst]
    exact (next_atPort hrst hp _).trans (by rw [State.trained_none hst h])
  case again => rw [exec_ucieTrainFail hrst hp hst, State.trainFail_again hfails]
  case third =>
    refine ⟨_, by rw [exec_ucieTrainFail hrst hp hst, State.trainFail_third hfails], (State.failPort_failed _ p _).1, ?_⟩
    exact (State.failPort_lastErr _ p _).2.1
  case drained =>
    refine ⟨_, (next_atPort hrst hp _).trans (by rw [State.drained_empty hdrain hrx href hphy]), ?_⟩
    rw [State.port_modPort_same, State.setPortState_port]
    exact ⟨rfl, rfl, rfl⟩
  case resetFails =>
    refine ⟨_, (next_atPort hrst hp _).trans (by rw [State.linkResetTimeout_late hin hdrain hst, if_pos (by omega)]), ?_⟩
    exact (State.failPort_failed _ p _).1
  case resetAgain =>
    exact ⟨_, s.resetLate p, (next_atPort hrst hp _).trans (by rw [State.linkResetTimeout_late hin hdrain hst, if_neg (by omega)]), rfl, rfl⟩
  case lowPower => exact congrArg _ (State.act_eq id hrst)
  case vendor => exact congrArg _ (State.act_eq id hrst)
  case sideband =>
    exact congrArg _ ((State.act_eq (fun s => s.atPort p (fun s => s.sidebandAccess p)) hrst).trans (if_pos hp))

end Sys2Proof.Machine
end

section
/-!
SUPPORT. A request from its arrival to the admission point of its slice (07 R253 to R270): what the buffers and the window leave
alone, what the window answers, and when the Shed admits, chains or puts off.
-/
namespace Sys2Proof.Machine

section
variable {s : State} {k l t : Nat} {m : Msg} {x : Txn}

/-! ## Slices and trackers -/

theorem State.slice_modSlice (s : State) (k j : Nat) (f : Slice → Slice) :
    (s.modSlice k f).slice j = if k = j then f (s.slice k) else s.slice j := State.slice_setSlice _ _ _ _

theorem State.slice_modSlice_other (s : State) {j : Nat} (f : Slice → Slice) (h : j ≠ k) : (s.modSlice k f).slice j = s.slice j := by
  rw [State.slice_modSlice, if_neg (Ne.symm h)]

@[simp] theorem State.txn_setTxn_same (s : State) (k t : Nat) (x : Option Txn) : (s.setTxn k t x).txn k t = x := by
  simp [State.txn, State.setTxn, spGet_spSet]

theorem State.txn_setTxn_other (s : State) {j : Nat} (x : Option Txn) (h : j ≠ t) : (s.setTxn k t x).txn k j = s.txn k j := by
  simp [State.txn, State.setTxn, spGet_spSet, Ne.symm h]

theorem State.txn_congr {s u : State} (h : u.slices = s.slices) (k t : Nat) : u.txn k t = s.txn k t := by
  rw [State.txn, State.txn, State.slice, State.slice, h]

theorem State.slice_congr {s u : State} (h : u.slices = s.slices) (k : Nat) : u.slice k = s.slice k := by
  rw [State.slice, State.slice, h]

theorem State.port_congr {s u : State} (h : u.ports = s.ports) (p : Nat) : u.port p = s.port p := by rw [State.port, State.port, h]

/-! ## The reservation table is all that a request's arrival changes of its slice -/

theorem State.noteCalm_slice (s : State) (k : Nat) (m : Msg) {j : Nat} (h : j ≠ k) : (s.noteCalm k m).slice j = s.slice j :=
  State.slice_modSlice_other s _ h

@[simp] theorem State.noteCalm_trk (s : State) (k : Nat) (m : Msg) (j : Nat) : ((s.noteCalm k m).slice j).trk = (s.slice j).trk := by
  rw [State.noteCalm, State.slice_modSlice]
  split
  · next h => rw [h]
  · rfl

@[simp] theorem State.noteCalm_chain (s : State) (k : Nat) (m : Msg) (j : Nat) :
    ((s.noteCalm k m).slice j).chain = (s.slice j).chain := by
  rw [State.noteCalm, State.slice_modSlice]
  split
  · next h => rw [h]
  · rfl

@[simp] theorem State.noteCalm_ingress (s : State) (k : Nat) (m : Msg) (j : Nat) :
    ((s.noteCalm k m).slice j).ingress = (s.slice j).ingress := by
  rw [State.noteCalm, State.slice_modSlice]
  split
  · next h => rw [h]
  · rfl

@[simp] theorem State.noteCalm_regs (s : State) (k : Nat) (m : Msg) : (s.noteCalm k m).regs = s.regs := rfl
@[simp] theorem State.noteCalm_ports (s : State) (k : Nat) (m : Msg) : (s.noteCalm k m).ports = s.ports := rfl
@[simp] theorem State.noteCalm_jig (s : State) (k : Nat) (m : Msg) : (s.noteCalm k m).jig = s.jig := rfl
theorem State.noteCalm_winSlice (s : State) (k : Nat) (m : Msg) : (s.noteCalm k m).winSlice m = s.winSlice m := rfl
theorem State.noteCalm_winAsk (s : State) (k l : Nat) (m : Msg) : (s.noteCalm k m).winAsk l m = s.winAsk l m := rfl

theorem State.noteCalm_txn (s : State) (k : Nat) (m : Msg) (j t : Nat) : (s.noteCalm k m).txn j t = s.txn j t := by
  rw [State.txn, State.noteCalm_trk, State.txn]

theorem State.relays_noteCalm (s : State) (k : Nat) (m : Msg) : s.Relays (s.noteCalm k m) := .of_same rfl rfl rfl

/-! ## Buffers in which no combining entry waits -/

theorem forUp_fixed_below {σ : Type} {f : Nat → σ → σ} {s : σ} {b : Nat} (h : ∀ i, i < b → f i s = s) (n i : Nat) (hb : i + n ≤ b) :
    forUp f i n s = s := by
  induction n generalizing i with
  | zero => rfl
  | succ n ih => rw [forUp, h i (by omega), ih (i + 1) (by omega)]

theorem State.flushEverywhere_uncombined (h : s.uncombined) (sel : Nat → Combine → Bool) (f : Option Fld) :
    s.flushEverywhere sel f = s :=
  forUp_fixed_below (b := 12) (fun p hp => by simp [State.flushWhere, h p hp]) _ _ (by omega)

theorem State.touchFlush_uncombined (h : s.uncombined) (p : Nat) (m : Msg) : s.touchFlush p m = s := by
  rw [State.touchFlush]
  split
  · rfl
  · exact State.flushEverywhere_uncombined h _ _

/-! ## The window -/

@[simp] theorem State.win_setWin_same (s : State) (l n : Nat) (es : List WEntry) : (s.setWin l n es).win l n = es := by
  simp [State.win, State.setWin, spGet_spSet]

theorem State.relays_winOpen (s : State) (l : Nat) (m : Msg) : s.Relays (s.winOpen l m) :=
  .of_same (State.winOpen_field (·.pat) (fun _ _ => rfl) _ _ _) (State.winOpen_field (·.cur) (fun _ _ => rfl) _ _ _)
    (State.winOpen_field (·.ports) (fun _ _ => rfl) _ _ _)

@[simp] theorem State.winOpen_slices (s : State) (l : Nat) (m : Msg) : (s.winOpen l m).slices = s.slices :=
  State.winOpen_field (·.slices) (fun _ _ => rfl) _ _ _
@[simp] theorem State.winOpen_ports (s : State) (l : Nat) (m : Msg) : (s.winOpen l m).ports = s.ports :=
  State.winOpen_field (·.ports) (fun _ _ => rfl) _ _ _
@[simp] theorem State.winOpen_regs (s : State) (l : Nat) (m : Msg) : (s.winOpen l m).regs = s.regs :=
  State.winOpen_field (·.regs) (fun _ _ => rfl) _ _ _
@[simp] theorem State.winOpen_due (s : State) (l : Nat) (m : Msg) : (s.winOpen l m).due = s.due :=
  State.winOpen_field (·.due) (fun _ _ => rfl) _ _ _
@[simp] theorem State.winOpen_jig (s : State) (l : Nat) (m : Msg) : (s.winOpen l m).jig = s.jig :=
  State.winOpen_field (·.jig) (fun _ _ => rfl) _ _ _
@[simp] theorem State.winOpen_wno (s : State) (l : Nat) (m : Msg) : (s.winOpen l m).wno = s.wno :=
  State.winOpen_field (·.wno) (fun _ _ => rfl) _ _ _
@[simp] theorem State.winOpen_now (s : State) (l : Nat) (m : Msg) : (s.winOpen l m).now = s.now :=
  State.winOpen_field (·.now) (fun _ _ => rfl) _ _ _
@[simp] theorem State.winOpen_barriers (s : State) (l : Nat) (m : Msg) : (s.winOpen l m).barriers = s.barriers :=
  State.winOpen_field (·.barriers) (fun _ _ => rfl) _ _ _

/-- The OPEN entry of a request. -/
def State.openedFor (s : State) (m : Msg) : WEntry :=
  { src := m.src, ten := m.ten, tag := m.tag, op := m.op, echk := m.echk, st := .opened, time := s.now, resp := none }

theorem State.openedFor_key (s : State) (m : Msg) :
    keyOf m (s.openedFor m) = true ∧ (s.openedFor m).st = .opened ∧ (s.openedFor m).op = m.op ∧ (s.openedFor m).echk = m.echk := by
  simp [State.openedFor, keyOf]

/-- A request that the window takes as new stands in it as an open entry (07 R266). -/
theorem State.winOpen_entry (h : s.winAsk l m = .go false) :
    ∃ e ∈ (s.winOpen l m).win l (winSetOf m.src m.ten m.tag),
      keyOf m e = true ∧ e.st = .opened ∧ e.op = m.op ∧ e.echk = m.echk := by
  have hroom : (s.win l (winSetOf m.src m.ten m.tag)).length < 16 ∨
      (s.win l (winSetOf m.src m.ten m.tag)).any (fun e => !s.winLive l e) = true := by
    rw [State.winAsk] at h
    split at h
    · dsimp only at h
      split at h
      · assumption
      · exact absurd h (by simp)
    · split at h
      · exact absurd h (by simp)
      · split at h <;> exact absurd h (by simp)
  unfold State.winOpen
  dsimp only
  split
  · next i hi =>
    refine ⟨s.openedFor m, ?_, s.openedFor_key m⟩
    rw [State.win_setWin_same]
    exact List.mem_set (List.findIdx?_eq_some_iff_findIdx_eq.mp hi).1 _
  · split
    · refine ⟨s.openedFor m, ?_, s.openedFor_key m⟩
      rw [State.win_setWin_same]
      exact List.mem_append_right _ (List.mem_singleton_self _)
    · next hfull =>
      split
      · next i hi =>
        refine ⟨s.openedFor m, ?_, s.openedFor_key m⟩
        rw [State.win_setWin_same]
        exact List.mem_set (List.findIdx?_eq_some_iff_findIdx_eq.mp hi).1 _
      · next hnone =>
        rw [List.findIdx?_eq_none_iff] at hnone
        obtain ⟨e, he, hdead⟩ := List.any_eq_true.mp (hroom.resolve_left hfull)
        exact absurd hdead (by simpa using hnone e he)

/-- After an Acknowledged transaction of the request has closed, no entry of its key waits for an acknowledgement (07 R266). -/
theorem State.winClose_entry (s : State) (l : Nat) (m : Msg) {st : WState} (hst : st ≠ .waiting) :
    ∀ e ∈ (s.winClose l m st).win l (winSetOf m.src m.ten m.tag), keyOf m e = true → e.st ≠ .waiting := by
  intro e he hk
  rw [State.winClose, State.winMod, State.win_setWin_same, List.mem_map] at he
  obtain ⟨e₀, -, rfl⟩ := he
  by_cases hkey : keyOf m e₀ = true
  · rw [if_pos hkey]
    by_cases hw : e₀.st = .waiting
    · rw [if_pos hw]
      exact hst
    · rw [if_neg hw]
      exact hw
  · rw [if_neg hkey] at hk
    exact absurd hk hkey

/-! ## The Shed -/

theorem State.ttRead_unarmed (h : s.jig = []) (k : Nat) : s.ttRead k = s := by simp [State.ttRead, State.jigRead, h]

theorem State.shed_admits (hjig : s.jig = []) (hfree : s.conflictsOpen k x.scope = false) (ht : s.freeTracker k x = some t) :
    s.shed k x = (true, s.admitAt k t x) := by
  rw [State.shed, State.ttRead_unarmed hjig]
  simp [hfree, ht]

theorem State.shed_chains (hjig : s.jig = []) (hconf : s.conflictsOpen k x.scope = true) (hroom : s.chainOk k x = true) :
    s.shed k x = (true, (s.modSlice k (fun c => { c with chain := c.chain ++ [x] })).noteDepth k x.scope) := by
  rw [State.shed, State.ttRead_unarmed hjig]
  simp [hconf, hroom]

theorem State.shed_stalls (hjig : s.jig = []) (hfree : s.conflictsOpen k x.scope = false) (ht : s.freeTracker k x = none) :
    s.shed k x = (false, s) := by
  rw [State.shed, State.ttRead_unarmed hjig]
  simp [hfree, ht]

/-- Whether an open entry conflicts is read off the trackers alone. -/
theorem State.conflictsOpen_congr {s u : State} (h : (u.slice k).trk = (s.slice k).trk) (c : Scope) :
    u.conflictsOpen k c = s.conflictsOpen k c := by
  rw [State.conflictsOpen, State.conflictsOpen, h]

theorem State.chainOk_congr {s u : State} (h : (u.slice k).chain = (s.slice k).chain) (x : Txn) : u.chainOk k x = s.chainOk k x := by
  rw [State.chainOk, State.chainOk, h]

/-- Whether a pool has room is read off the Pattern and the use of it. -/
theorem State.poolOk_congr {s u : State} (hpat : u.pat = s.pat) (size n : Nat) (use : Tenant → Nat) (t : Tenant) :
    u.poolOk size n use t = s.poolOk size n use t := by
  have hten : u.ten t = s.ten t := by rw [State.ten, State.ten, State.cfg, State.cfg, hpat]
  rw [State.poolOk, State.poolOk, hten, hpat]

/-- The tracker that is free is read off the trackers and the Pattern alone. -/
theorem State.freeTracker_congr {s u : State} (h : (u.slice k).trk = (s.slice k).trk) (hpat : u.pat = s.pat) (x : Txn) :
    u.freeTracker k x = s.freeTracker k x := by
  have huse : u.trackersOf k = s.trackersOf k := by
    funext n
    rw [State.trackersOf, State.trackersOf, h]
  have hpool : u.poolOk 960 1 (s.trackersOf k) x.m.ten = s.poolOk 960 1 (s.trackersOf k) x.m.ten := State.poolOk_congr hpat _ _ _ _
  have htxn : u.txn k = s.txn k := by
    funext n
    rw [State.txn, State.txn, h]
  rw [State.freeTracker, State.freeTracker, huse, hpool, htxn]

theorem State.freeTracker_constr (s : State) (k : Nat) (x : Txn) (b : Bool) :
    s.freeTracker k { x with constr := b } = s.freeTracker k x := rfl

theorem State.holdFor_none (h : ∀ e ∈ (s.slice k).trk, ∀ y, e.2 = some y → y.phase ≠ .hold) (m : Msg) : s.holdFor k m = none := by
  rw [State.holdFor]
  split
  · rw [Option.map_eq_none_iff, List.find?_eq_none]
    intro e he
    rcases hy : e.2 with _ | y
    · simp
    · simp [h e he y hy]
  · rfl

/-! ## The admission point -/

/-- The requests on one line. -/
def lineOps : List (BitVec 8) :=
  [Op.rdShared, Op.rdUnique, Op.rdOnce, Op.rdNoSnp, Op.cleanUnique, Op.makeUnique, Op.evictClean, Op.wrBackFull, Op.wrUnique, Op.wrNoSnp,
    Op.reserveRd, Op.condWr, Op.atomicFar]

theorem lineOps_inSlice : ∀ o ∈ lineOps, inSlice o = true ∧ isClamp o = false := by decide

theorem State.reqPlace_line (h : m.op ∈ lineOps) (s : State) : s.reqPlace m = .inl (lineAddr (msgAddr m)) := by
  simp only [lineOps, List.mem_cons, List.not_mem_nil, or_false] at h
  rcases h with h | h | h | h | h | h | h | h | h | h | h | h | h <;> rw [State.reqPlace, h] <;> rfl

theorem State.reqSlice_line (h : m.op ∈ lineOps) (s : State) : s.reqSlice m = s.logOf (lineAddr (msgAddr m)) := by
  rw [State.reqSlice, State.reqPlace_line h]

theorem State.reqHeld_line (h : m.op ∈ lineOps) (s : State) :
    s.reqHeld m = s.held (s.logOf (lineAddr (msgAddr m))) (lineAddr (msgAddr m)) := by
  obtain ⟨hin, hclamp⟩ := lineOps_inSlice _ h
  rw [State.reqHeld, hclamp, hin, State.reqSlice_line h]
  rfl

/-- A request on one line that ends no hold goes to the Shed, and opens its window entry when it is taken there. -/
theorem State.reqRun_line (h : x.m.op ∈ lineOps) (hhold : s.holdFor k x.m = none) {b : Bool} {u : State}
    (hs : (s.wakeSlice k).shed k { x with constr := s.constrained k x.m } = (b, u)) :
    s.reqRun k l x = (b, if b then u.winOpen l x.m else u) := by
  have hrun : s.reqRun k l x = (match s.holdFor k x.m with
      | some t => (true, (s.winOpen l x.m).takeCondWr k t x.m (s.constrained k x.m))
      | none =>
        let r := (s.wakeSlice k).shed k { x with constr := s.constrained k x.m }
        if r.1 then (true, r.2.winOpen l x.m) else r) := by
    simp only [lineOps, List.mem_cons, List.not_mem_nil, or_false] at h
    rcases h with h | h | h | h | h | h | h | h | h | h | h | h | h <;> rw [State.reqRun, h] <;> rfl
  rw [hrun, hhold]
  dsimp only
  rw [hs]
  cases b <;> rfl

/-- A request that touches no combining entry and that its slice, awake if it is to act in it, does not hold back. -/
structure State.Reaches (s : State) (x : Txn) (k l : Nat) : Prop where
  unflushed : s.uncombined
  serves : s.physOf (s.reqSlice x.m) = k
  unheld : s.reqHeld x.m = false
  awake : inSlice x.m.op = true → (s.slice k).pwr = .active
  window : s.winSlice x.m = l

theorem State.awake_active (h : (s.slice k).pwr = .active) : s.awake k = true := by simp [State.awake, h]

theorem State.Reaches.up (h : s.Reaches x k l) : (inSlice x.m.op && !s.awake k) = false := by
  cases hin : inSlice x.m.op
  · rfl
  · rw [State.awake_active (h.awake hin)]
    rfl

/-- One that the window takes as new acts with what `reqRun` makes of it. -/
theorem State.Reaches.reqGo_new (h : s.Reaches x k l) (hask : s.winAsk l x.m = .go false) :
    s.reqGo x = (if ((s.noteCalm k x.m).reqRun k l x).1 then .done else .stall, ((s.noteCalm k x.m).reqRun k l x).2) := by
  have hup := h.up
  obtain ⟨hun, hk, hheld, -, hwin⟩ := h
  have hask' : (s.noteCalm k x.m).winAsk l x.m = .go false := hask
  have hwin' : (s.noteCalm k x.m).winSlice x.m = l := hwin
  simp only [State.reqGo, State.touchFlush_uncombined hun, hk, hheld, hup, hwin', hask', Bool.false_eq_true, if_false]
  split <;> rfl

/-- One that the window knows is answered or counted by it. -/
theorem State.Reaches.reqGo_known (h : s.Reaches x k l) {a : WinAns} (hask : s.winAsk l x.m = a) {u : State}
    (hans : (s.noteCalm k x.m).winAnswer l x.m a = some u) : s.reqGo x = (.done, u) := by
  have hup := h.up
  obtain ⟨hun, hk, hheld, -, hwin⟩ := h
  have hask' : (s.noteCalm k x.m).winAsk l x.m = a := hask
  have hwin' : (s.noteCalm k x.m).winSlice x.m = l := hwin
  simp only [State.reqGo, State.touchFlush_uncombined hun, hk, hheld, hup, hwin', hask', Bool.false_eq_true, if_false]
  cases a with
  | go re => exact absurd hans (by simp [State.winAnswer])
  | noWay => exact absurd hans (by simp [State.winAnswer])
  | dupOpen => simp only [hans, Option.getD_some]
  | resend r => simp only [hans, Option.getD_some]
  | quiet => simp only [hans, Option.getD_some]
  | lost => simp only [hans, Option.getD_some]
  | clash => simp only [hans, Option.getD_some]

theorem State.reqGo_held (hun : s.uncombined) (h : s.reqHeld x.m = true) : s.reqGo x = (.held, s) := by
  simp [State.reqGo, State.touchFlush_uncombined hun, h]

theorem State.reqGo_asleep (hun : s.uncombined) (h : s.reqHeld x.m = false) (hin : inSlice x.m.op = true)
    (hk : s.physOf (s.reqSlice x.m) = k) (hup : s.awake k = false) : s.reqGo x = (.held, s.wakeSlice k) := by
  simp [State.reqGo, State.touchFlush_uncombined hun, h, hin, hk, hup]

/-! ## From the port to the admission point -/

/-- The transaction of a client's request that arrives at port `p`. -/
def arrived (m : Msg) (p : Nat) : Txn := Txn.new .client m p (.line (lineAddr (msgAddr m)))

/-- What becomes of a request for slice `k` when the admission point has had it. -/
def State.putOff (k : Nat) (x : Txn) (r : ReqOut × State) : State :=
  match r.1 with
  | .done => r.2
  | .held => r.2.wait k x false
  | .stall => r.2.wait k x true
  | .wstall => (r.2.wait k x false).wrapInc F.SLC_SHED_WSTALL_COUNT k

/-- A request other than a Clamp's goes to the admission point, unless it queues behind an earlier one of its tenant. -/
theorem State.request_go {p : Nat} (hclamp : isClamp m.op = false)
    (hq : inSlice m.op = false ∨ s.reqHeld m = true ∨ s.queuedAhead (s.physOf (s.reqSlice m)) m.ten = false ∨
      (∀ b, s.winAsk (s.winSlice m) m ≠ .go b) ∧ s.winAsk (s.winSlice m) m ≠ .noWay) :
    s.request p m = State.putOff (s.physOf (s.reqSlice m)) (arrived m p) (s.reqGo (arrived m p)) := by
  unfold State.request
  dsimp only
  rw [if_neg (by simp [hclamp]), if_neg]
  · rfl
  · intro hc
    simp only [Bool.and_eq_true, Bool.not_eq_true'] at hc
    obtain ⟨⟨⟨⟨⟨hin, -⟩, hfresh⟩, hheld⟩, hahead⟩, -⟩ := hc
    rcases hq with h | h | h | ⟨hgo, hno⟩
    · exact absurd (h.symm.trans hin) (by simp)
    · exact absurd (h.symm.trans hheld) (by simp)
    · exact absurd (h.symm.trans hahead) (by simp)
    · split at hfresh
      · next b hb => exact hgo b hb
      · next hb => exact hno hb
      · exact absurd hfresh (by simp)

end

/-! ## Responses and waits -/

theorem State.relays_compDone (s : State) (l : Nat) (m : Msg) : s.Relays (s.compDone l m) :=
  (s.relays_send _).trans (State.relays_winDone _ _ _ _)

theorem State.sends_compDone (s : State) (l : Nat) (m : Msg) : s.sends (s.compDone l m) (respTo m Op.comp 0 false 0 []) :=
  (s.sends_send _).relay (State.relays_winDone _ _ _ _)

theorem State.wait_slice (s : State) (k : Nat) (x : Txn) (b : Bool) :
    (s.wait k x b).slice k = { s.slice k with ingress := (s.slice k).ingress ++ [x] } := by
  have h := s.slice_modSlice_same k (fun c => { c with ingress := c.ingress ++ [x] })
  unfold State.wait
  cases b
  · exact h
  · rw [if_pos rfl, State.slice_congr (State.wrapInc_slices _ _ _ _), h]

end Sys2Proof.Machine
end

section
/-! The statements about the requests on one line, and about those that the window knows (07 R253 to R270). -/
namespace Sys2Proof.Machine

section
variable {s : State} {k l : Nat} {m : Msg} {p : Nat}

theorem State.noteCalm_fget (s : State) (k : Nat) (m : Msg) (f : Fld) (n j : Nat) : (s.noteCalm k m).fget f n j = s.fget f n j := rfl

theorem State.noteCalm_port (s : State) (k : Nat) (m : Msg) (q : Nat) : (s.noteCalm k m).port q = s.port q := rfl

/-- A request on one line that its slice, awake, does not hold back is what the Shed makes of it. -/
theorem State.request_line (hop : m.op ∈ lineOps) (h : s.Reaches (arrived m p) k l) (hask : s.winAsk l m = .go false)
    (hq : s.queuedAhead k m.ten = false) (hhold : ∀ e ∈ (s.slice k).trk, ∀ y, e.2 = some y → y.phase ≠ .hold) :
    ∃ c, ∀ u, ((s.noteCalm k m).shed k { arrived m p with constr := c } = (true, u) → s.request p m = u.winOpen l m) ∧
      ((s.noteCalm k m).shed k { arrived m p with constr := c } = (false, u) → s.request p m = u.wait k (arrived m p) true) := by
  refine ⟨(s.noteCalm k m).constrained k m, fun u => ?_⟩
  have hk : s.physOf (s.reqSlice m) = k := h.serves
  have hnohold : (s.noteCalm k m).holdFor k m = none := State.holdFor_none (by rwa [State.noteCalm_trk]) m
  have hwake := State.wakeSlice_active ((s.noteCalm_pwr k m).trans (h.awake (lineOps_inSlice _ hop).1))
  have hm : (arrived m p).m = m := rfl
  rw [State.request_go (lineOps_inSlice _ hop).2 (.inr (.inr (.inl (by rw [hk]; exact hq)))), hk, h.reqGo_new hask, hm]
  have hrun {b : Bool} (hs : (s.noteCalm k m).shed k { arrived m p with constr := (s.noteCalm k m).constrained k m } = (b, u)) :
      (s.noteCalm k m).reqRun k l (arrived m p) = (b, if b then u.winOpen l m else u) :=
    State.reqRun_line (x := arrived m p) hop hnohold ((congrArg (fun r : State => r.shed k _) hwake).trans hs)
  refine ⟨fun hs => ?_, fun hs => ?_⟩
  · rw [hrun hs]
    rfl
  · rw [hrun hs]
    rfl

/-! ## What an admission changes -/

variable {t : Nat} {x : Txn}

theorem State.admitAt_eq (s : State) (k t : Nat) (x : Txn) : s.admitAt k t x =
    (s.setTxn k t (some { x with
      opened := true, phase := .waiting, admitted := s.now,
      bound := closingBound (if x.internal then s.maxTmo else s.snpTmo x.m.ten) })).react (.start k t) := rfl

theorem State.admitAt_txn (hx : x.internal = false) : (s.admitAt k t x).txn k t =
    some { x with opened := true, phase := .waiting, admitted := s.now, bound := closingBound (s.snpTmo x.m.ten) } := by
  rw [State.admitAt_eq, State.txn_congr (State.react_slices _ _), State.txn_setTxn_same, hx]
  rfl

theorem State.admitAt_txn_other (s : State) {j : Nat} (h : j ≠ t) : (s.admitAt k t x).txn k j = s.txn k j := by
  rw [State.admitAt_eq, State.txn_congr (State.react_slices _ _), State.txn_setTxn_other _ _ h]

theorem State.admitAt_slice_other (s : State) {j : Nat} (h : j ≠ k) : (s.admitAt k t x).slice j = s.slice j := by
  rw [State.admitAt_eq, State.slice_congr (State.react_slices _ _)]
  exact State.slice_modSlice_other s _ h

theorem State.start_of_admitAt (s : State) (k t : Nat) (x : Txn) : Reaction.start k t ∈ (s.admitAt k t x).due := by
  rw [State.admitAt_eq]
  exact State.mem_due_react _ _

/-- The window's answer is read off the windows, the time, the registers and the logical slices. -/
theorem State.winAsk_congr {s u : State} (hwins : u.wins = s.wins) (hnow : u.now = s.now) (hregs : u.regs = s.regs)
    (hlogic : u.logic = s.logic) (l : Nat) (m : Msg) : u.winAsk l m = s.winAsk l m := by
  have hwin (n : Nat) : u.win l n = s.win l n := by rw [State.win, State.win, hwins]
  have hword (a : Nat) : u.word a = s.word a := by rw [State.word, State.word, hregs]
  have htwin : u.twin l = s.twin l := by
    rw [State.twin, State.twin, State.physOf, State.physOf, State.lsl, State.lsl, hlogic, State.fget, State.fget, hword]
  have hlive (e : WEntry) : u.winLive l e = s.winLive l e := by rw [State.winLive, State.winLive, hnow, htwin]
  have hfind : u.winFind l m = s.winFind l m := by simp only [State.winFind, hwin, hlive]
  rw [State.winAsk, State.winAsk, hfind]
  simp only [hwin, hlive]

/-- The state in which the Shed has admitted a request on one line at tracker `t` as transaction `x`. -/
def State.lineTaken (s : State) (k l t : Nat) (x : Txn) : State := ((s.noteCalm k x.m).admitAt k t x).winOpen l x.m

theorem State.lineTaken_txn (s : State) (hx : x.internal = false) : (s.lineTaken k l t x).txn k t =
    some { x with opened := true, phase := .waiting, admitted := s.now, bound := closingBound (s.snpTmo x.m.ten) } := by
  rw [State.lineTaken, State.txn_congr (State.winOpen_slices _ _ _), State.admitAt_txn hx]
  rfl

theorem State.lineTaken_txn_other (s : State) {j : Nat} (h : j ≠ t) : (s.lineTaken k l t x).txn k j = s.txn k j := by
  rw [State.lineTaken, State.txn_congr (State.winOpen_slices _ _ _), State.admitAt_txn_other _ h, State.noteCalm_txn]

theorem State.lineTaken_slice_other (s : State) {j : Nat} (h : j ≠ k) : (s.lineTaken k l t x).slice j = s.slice j := by
  rw [State.lineTaken, State.slice_congr (State.winOpen_slices _ _ _), State.admitAt_slice_other _ h, State.noteCalm_slice _ _ _ h]

theorem State.lineTaken_start (s : State) (k l t : Nat) (x : Txn) : Reaction.start k t ∈ (s.lineTaken k l t x).due := by
  rw [State.lineTaken, State.winOpen_due]
  exact State.start_of_admitAt _ _ _ _

theorem State.lineTaken_regs (s : State) (k l t : Nat) (x : Txn) : (s.lineTaken k l t x).regs = s.regs := by
  rw [State.lineTaken, State.winOpen_regs, State.admitAt_eq, State.react_regs, State.setTxn_regs, State.noteCalm_regs]

theorem State.lineTaken_port (s : State) (k l t : Nat) (x : Txn) (q : Nat) : (s.lineTaken k l t x).port q = s.port q := by
  rw [State.lineTaken, State.port_congr (State.winOpen_ports _ _ _), State.admitAt_eq, State.react_port, State.setTxn_port,
    State.noteCalm_port]

theorem State.lineTaken_entry (hask : s.winAsk l x.m = .go false) :
    ∃ e ∈ (s.lineTaken k l t x).win l (winSetOf x.m.src x.m.ten x.m.tag),
      keyOf x.m e = true ∧ e.st = .opened ∧ e.op = x.m.op ∧ e.echk = x.m.echk := by
  refine State.winOpen_entry ((State.winAsk_congr ?_ ?_ ?_ ?_ l x.m).trans ((s.noteCalm_winAsk k l x.m).trans hask)) <;>
    simp [State.admitAt_eq]

end

/-- Settles O24: the request goes to the Shed with only the reservation table noted; there the equation of its case holds. -/
theorem lineRequests : Obligations.LineRequests := by
  unfold Obligations.LineRequests
  intro s v p k l m w c o a x hrow hw hadm hv ha hl hk hx hnew hnohold
  obtain ⟨hun, hjig, hwin, hask⟩ := hnew
  have hexec : exec c s = .next (s.after (v.request p w)) ∧ o ∈ lineOps := by
    subst hw hv
    simp only [List.mem_cons, List.not_mem_nil, or_false, Prod.mk.injEq] at hrow
    rcases hrow with ⟨rfl, rfl⟩ | ⟨rfl, rfl⟩ | ⟨rfl, rfl⟩ | ⟨rfl, rfl⟩ | ⟨rfl, rfl⟩ | ⟨rfl, rfl⟩ | ⟨rfl, rfl⟩ | ⟨rfl, rfl⟩ |
      ⟨rfl, rfl⟩ | ⟨rfl, rfl⟩ | ⟨rfl, rfl⟩ | ⟨rfl, rfl⟩ | ⟨rfl, rfl⟩
    all_goals exact ⟨next_requestOf hadm, by decide⟩
  obtain ⟨hexec, hline⟩ := hexec
  have hop : w.op ∈ lineOps := by rw [hw]; exact hline
  have hslice : v.physOf (v.reqSlice w) = k := by rw [State.reqSlice_line hop, ← ha, ← hl, ← hk]
  have hheld : v.reqHeld w = v.held l a := by rw [State.reqHeld_line hop, ← ha, ← hl]
  have hxw : arrived w p = x := by rw [hx, ha]; rfl
  have hxs : x.scope = .line a := by rw [hx]; rfl
  have hxm : x.m = w := by rw [hx]; rfl
  have hxp : x.port = p := by rw [hx]; rfl
  have hxi : x.internal = false := by rw [hx]; rfl
  refine ⟨fun hh hq hup => ?_, fun hh => ?_, fun hh hq hup => ?_⟩
  · obtain ⟨b, hreq⟩ := State.request_line (p := p) hop ⟨hun, hslice, hheld.trans hh, fun _ => hup, hwin⟩ hask hq hnohold
    rw [hxw] at hreq
    have hjig' : (v.noteCalm k w).jig = [] := hjig
    have hconf : (v.noteCalm k w).conflictsOpen k (.line a) = v.conflictsOpen k (.line a) :=
      State.conflictsOpen_congr (v.noteCalm_trk k w k) _
    have hfree : (v.noteCalm k w).freeTracker k { x with constr := b } = v.freeTracker k x :=
      State.freeTracker_congr (s := v) (v.noteCalm_trk k w k) rfl _
    refine ⟨fun t hc ht => ?_, fun hc hroom => ?_, fun hc ht => ?_⟩
    · have hshed := State.shed_admits (k := k) (x := { x with constr := b }) hjig' (hxs ▸ hconf.trans hc) (hfree.trans ht)
      have htaken : v.request p w = v.lineTaken k l t { x with constr := b } := by
        rw [(hreq _).1 hshed, ← hxm]
        rfl
      have htxn := v.lineTaken_txn (k := k) (l := l) (t := t) (x := { x with constr := b }) hxi
      refine ⟨v.lineTaken k l t { x with constr := b }, _, hexec.trans (by rw [htaken]), htxn, hxm, hxs, hxp, rfl, rfl, by rw [← hxm],
        v.lineTaken_start _ _ _ _, ?_, v.lineTaken_regs _ _ _ _, fun j hj => v.lineTaken_txn_other hj,
        fun j hj => v.lineTaken_slice_other hj, v.lineTaken_port _ _ _ _⟩
      rw [← hxm]
      exact State.lineTaken_entry (by rw [← hask, ← hxm])
    · have hshed := State.shed_chains (k := k) (x := { x with constr := b }) hjig' (hxs ▸ hconf.trans hc)
        ((State.chainOk_congr (v.noteCalm_chain k w k) _).trans hroom)
      refine ⟨_, { x with constr := b }, hexec.trans (by rw [(hreq _).1 hshed]), ?_, hxm, hxs, fun j => ?_⟩
      · rw [State.slice_congr (State.winOpen_slices _ _ _), State.noteDepth, State.fset_slice, State.slice_modSlice_same]
        exact congrArg (· ++ _) (v.noteCalm_chain k w k)
      · rw [State.txn_congr (State.winOpen_slices _ _ _), State.noteDepth, State.txn, State.fset_slice, State.slice_modSlice_same]
        exact congrArg (spGet none · j) (v.noteCalm_trk k w k)
    · have hshed := State.shed_stalls (k := k) (x := { x with constr := b }) hjig' (hxs ▸ hconf.trans hc) (hfree.trans ht)
      refine ⟨_, hexec.trans (by rw [(hreq _).2 hshed]), ?_, ?_⟩
      · rw [State.wait_slice]
        exact congrArg (· ++ _) (v.noteCalm_ingress k w k)
      · exact State.fget_wrapBy_same _ _ _ _ _ (by decide)
  · have hreq : v.request p w = v.wait k x false := by
      rw [State.request_go (lineOps_inSlice _ hop).2 (.inr (.inl (hheld.trans hh))), hslice, State.reqGo_held hun (hheld.trans hh), hxw]
      rfl
    exact ⟨v.wait k x false, hexec.trans (by rw [hreq]), by rw [State.wait_slice], rfl⟩
  · have hreq : v.request p w = (v.wakeSlice k).wait k x false := by
      rw [State.request_go (lineOps_inSlice _ hop).2 (.inr (.inr (.inl (by rw [hslice]; exact hq)))), hslice,
        State.reqGo_asleep hun (hheld.trans hh) (lineOps_inSlice _ hop).1 hslice hup, hxw]
      rfl
    have hsleep : v.wakeSlice k = v.modSlice k (fun c => { c with waking := true }) := by
      simp only [State.awake, Bool.or_eq_false_iff, beq_eq_false_iff_ne] at hup
      rw [State.wakeSlice, if_neg hup.1, if_neg hup.2]
    rw [hsleep] at hreq
    refine ⟨(v.modSlice k (fun c => { c with waking := true })).wait k x false, hexec.trans (by rw [hreq]), ?_, ?_, rfl⟩
    · rw [State.wait_slice, State.slice_modSlice_same]
    · rw [State.wait_slice, State.slice_modSlice_same]

/-- A request other than a Clamp's that the window knows is answered or counted by it. -/
theorem State.request_known {s : State} {k l p : Nat} {m : Msg} (hclamp : isClamp m.op = false) (h : s.Reaches (arrived m p) k l)
    {a : WinAns} (hask : s.winAsk l m = a) {u : State} (hans : (s.noteCalm k m).winAnswer l m a = some u) : s.request p m = u := by
  have hk : s.physOf (s.reqSlice m) = k := h.serves
  have hwin : s.winSlice m = l := h.window
  have hknown : (∀ b, s.winAsk (s.winSlice m) m ≠ .go b) ∧ s.winAsk (s.winSlice m) m ≠ .noWay := by
    rw [hwin, hask]
    refine ⟨fun b hb => ?_, fun hb => ?_⟩ <;> rw [hb] at hans <;> exact absurd hans (by simp [State.winAnswer])
  rw [State.request_go hclamp (.inr (.inr (.inr hknown))), hk, h.reqGo_known hask hans]
  rfl

/-- Settles O25: of the state the window's answer changes its count, and what it sends. -/
theorem windowAnswers : Obligations.WindowAnswers := by
  unfold Obligations.WindowAnswers
  intro s v p k l m w c o hrow hw hadm hv hun hwin hl hk hheld hup
  have hexec : exec c s = .next (s.after (v.request p w)) ∧ isClamp o = false := by
    subst hw hv
    simp only [List.mem_cons, List.not_mem_nil, or_false, Prod.mk.injEq] at hrow
    rcases hrow with ⟨rfl, rfl⟩ | ⟨rfl, rfl⟩ | ⟨rfl, rfl⟩ | ⟨rfl, rfl⟩ | ⟨rfl, rfl⟩ | ⟨rfl, rfl⟩
    all_goals exact ⟨next_requestOf hadm, by decide⟩
  obtain ⟨hexec, hclamp⟩ := hexec
  have hclampW : isClamp w.op = false := by rw [hw]; exact hclamp
  have hreach : v.Reaches (arrived w p) k l := ⟨hun, by rw [hk, hl]; rfl, hheld, fun _ => hup, hwin.symm⟩
  have hphys : (v.noteCalm k w).physOf l = k := hk.symm
  have hans {a : WinAns} {u : State} (hask : v.winAsk l w = a) (h : (v.noteCalm k w).winAnswer l w a = some u) :
      exec c s = .next (s.after u) := by
    rw [hexec, State.request_known hclampW hreach hask h]
  have hrelay : v.Relays (v.noteCalm k w) := v.relays_noteCalm k w
  refine ⟨fun hask => ?_, fun r hask => ?_, fun hask => ?_, fun hask => ?_, fun hask => ?_⟩
  · exact ⟨(v.noteCalm k w).bump F.SLC_SHED_DUPCNT0_DUP_OPEN k, hans hask (by simp only [State.winAnswer, hphys]), fun q => by rw [State.bump_port, State.noteCalm_port],
      by rw [State.bump, State.fget_bumpBy_same _ _ _ _ _ (by decide), State.noteCalm_fget]⟩
  · refine ⟨((v.noteCalm k w).bump F.SLC_SHED_DUPCNT0_RESENT k).send r, hans hask (by simp only [State.winAnswer, hphys]),
      (hrelay.trans (State.relays_bump _ _ _ _)).sends (State.sends_send _ _), fun hroute => ?_⟩
    obtain ⟨d, hd⟩ := Option.ne_none_iff_exists'.mp hroute
    have hd' : ((v.noteCalm k w).bump F.SLC_SHED_DUPCNT0_RESENT k).routeTo r.dst = some d :=
      ((hrelay.trans (State.relays_bump _ _ _ _)).route _).trans hd
    simp only [State.send, hd', State.sendOn_fget]
    rw [State.bump, State.fget_bumpBy_same _ _ _ _ _ (by decide), State.noteCalm_fget]
  · exact ⟨(v.noteCalm k w).bump F.SLC_SHED_DUPCNT0_QUIET k, hans hask (by simp only [State.winAnswer, hphys]), fun q => by rw [State.bump_port, State.noteCalm_port],
      by rw [State.bump, State.fget_bumpBy_same _ _ _ _ _ (by decide), State.noteCalm_fget]⟩
  · exact ⟨((v.noteCalm k w).bump F.SLC_SHED_DUPCNT1_LOST k).send (plainResp w Op.homeUnavailable),
      hans hask (by simp only [State.winAnswer, hphys]), (hrelay.trans (State.relays_bump _ _ _ _)).sends (State.sends_send _ _)⟩
  · refine ⟨((v.noteCalm k w).bump F.SLC_SHED_DUPCNT1_TAGCLASH k).raise (sliceSource k 4) Cls.protocol (some w.ten),
      hans hask (by simp only [State.winAnswer, hphys]), fun q => by rw [State.raise_port, State.bump_port, State.noteCalm_port], fun j => ?_, ?_⟩
    · by_cases h : j = k
      · exact .inr h
      · exact .inl (by rw [State.raise_slice, State.bump_slice, State.noteCalm_slice _ _ _ h])
    · rw [State.raise_slice, State.bump_slice, State.noteCalm_trk]

end Sys2Proof.Machine
end

section
/-!
SUPPORT. What the Shed leaves alone when a write of a buffer reaches it (07 R255), and how a fence, a posted and a non-temporal write
complete (08 R308 to R316).
-/
namespace Sys2Proof.Machine

section
variable {α : Type} (get : State → α) (hregs : ∀ (s : State) x, get { s with regs := x } = get s)
  (hjig : ∀ (s : State) x, get { s with jig := x } = get s) (hdue : ∀ (s : State) x, get { s with due := x } = get s)
  (hfresh : ∀ (s : State) x, get { s with fresh := x } = get s) (hslices : ∀ (s : State) x, get { s with slices := x } = get s)

include hregs hjig hdue in
theorem State.jigFire_field (s : State) (c : Nat) (r : JigRun) : get (s.jigFire c r) = get s := by
  unfold State.jigFire
  dsimp only
  split
  · exact (hregs _ _).trans (hjig _ _)
  · exact (hdue _ _).trans ((hregs _ _).trans (hjig _ _))

include hregs hjig hdue in
theorem State.jigRead_field (s : State) (n u : Nat) (a : Option Addr) : get (s.jigRead n u a).2 = get s := by
  unfold State.jigRead
  split
  · rfl
  · refine foldl_kept (fun acc : Nat × State => get acc.2) (fun acc c => ?_) _ _
    split
    · rfl
    · dsimp only
      split
      · split
        · exact State.jigFire_field get hregs hjig hdue _ _ _
        · exact hjig _ _
      · rfl

include hregs hjig hdue hfresh in
theorem State.ttRead_field (s : State) (k : Nat) : get (s.ttRead k) = get s := by
  have hread := State.jigRead_field get hregs hjig hdue s 0xB k none
  unfold State.ttRead
  dsimp only
  split
  · exact hread
  · split
    · exact (hdue _ _).trans hread
    · split
      · exact (hdue _ _).trans ((hfresh _ _).trans hread)
      · exact (hfresh _ _).trans hread

include hregs hjig hdue hfresh hslices in
theorem State.shed_field (s : State) (k : Nat) (x : Txn) : get (s.shed k x).2 = get s := by
  have hread := State.ttRead_field get hregs hjig hdue hfresh s k
  unfold State.shed
  dsimp only
  split
  · split
    · exact (hregs _ _).trans ((hslices _ _).trans hread)
    · exact hread
  · split
    · exact (hdue _ _).trans ((hslices _ _).trans hread)
    · exact hread

include hregs hslices in
theorem State.wait_field (s : State) (k : Nat) (x : Txn) (b : Bool) : get (s.wait k x b) = get s := by
  cases b
  · exact hslices _ _
  · exact (hregs _ _).trans (hslices _ _)

include hslices in
theorem State.wakeSlice_field (s : State) (k : Nat) : get (s.wakeSlice k) = get s := by
  unfold State.wakeSlice
  dsimp only
  split
  · rfl
  · split
    · exact hslices _ _
    · exact hslices _ _

include hregs hjig hdue hfresh hslices in
theorem State.shedOrWait_field (s : State) (k : Nat) (x : Txn) : get (s.shedOrWait k x) = get s := by
  have hshed (u : State) := State.shed_field get hregs hjig hdue hfresh hslices u k x
  have hwait (u : State) (b : Bool) := State.wait_field get hregs hslices u k x b
  have hwake (u : State) := State.wakeSlice_field get hslices u k
  unfold State.shedOrWait
  dsimp only
  split
  · split
    · exact hwait _ _
    · split
      · exact (hwake _).trans (hwait _ _)
      · split
        · exact hshed _
        · exact (hwait _ _).trans (hshed _)
  · split
    · exact hwait _ _
    · split
      · exact hwait _ _
      · split
        · exact (hwake _).trans (hwait _ _)
        · split
          · exact (hshed _).trans (hwake _)
          · exact (hwait _ _).trans ((hshed _).trans (hwake _))

end

@[simp] theorem State.shedOrWait_ports (s : State) (k : Nat) (x : Txn) : (s.shedOrWait k x).ports = s.ports :=
  State.shedOrWait_field (·.ports) (fun _ _ => rfl) (fun _ _ => rfl) (fun _ _ => rfl) (fun _ _ => rfl) (fun _ _ => rfl) s k x
@[simp] theorem State.shedOrWait_wno (s : State) (k : Nat) (x : Txn) : (s.shedOrWait k x).wno = s.wno :=
  State.shedOrWait_field (·.wno) (fun _ _ => rfl) (fun _ _ => rfl) (fun _ _ => rfl) (fun _ _ => rfl) (fun _ _ => rfl) s k x
@[simp] theorem State.shedOrWait_now (s : State) (k : Nat) (x : Txn) : (s.shedOrWait k x).now = s.now :=
  State.shedOrWait_field (·.now) (fun _ _ => rfl) (fun _ _ => rfl) (fun _ _ => rfl) (fun _ _ => rfl) (fun _ _ => rfl) s k x

theorem State.relays_shedOrWait (s : State) (k : Nat) (x : Txn) : s.Relays (s.shedOrWait k x) :=
  .of_same
    (State.shedOrWait_field (·.pat) (fun _ _ => rfl) (fun _ _ => rfl) (fun _ _ => rfl) (fun _ _ => rfl) (fun _ _ => rfl) s k x)
    (State.shedOrWait_field (·.cur) (fun _ _ => rfl) (fun _ _ => rfl) (fun _ _ => rfl) (fun _ _ => rfl) (fun _ _ => rfl) s k x)
    (State.shedOrWait_ports s k x)

/-! ## Buffered writes and fences -/

section
variable {s : State} {k l p : Nat} {m : Msg}

theorem State.compDone_port (s : State) (l : Nat) (m : Msg) (q : Nat) : ∃ tx, (s.compDone l m).port q = { s.port q with tx := tx } :=
  s.send_port _ q

@[simp] theorem State.compDone_wno (s : State) (l : Nat) (m : Msg) : (s.compDone l m).wno = s.wno :=
  State.send_field (·.wno) (fun _ _ => rfl) (fun _ _ => rfl) (fun _ _ _ _ => rfl) s _
@[simp] theorem State.compDone_barriers (s : State) (l : Nat) (m : Msg) : (s.compDone l m).barriers = s.barriers :=
  State.send_field (·.barriers) (fun _ _ => rfl) (fun _ _ => rfl) (fun _ _ _ _ => rfl) s _

theorem State.Relays.compDone {u : State} (h : s.Relays u) (l : Nat) (m : Msg) :
    s.sends (u.compDone l m) (respTo m Op.comp 0 false 0 []) := h.sends (u.sends_compDone l m)

theorem State.winOpen_port (s : State) (l : Nat) (m : Msg) (q : Nat) : (s.winOpen l m).port q = s.port q :=
  State.port_congr (s.winOpen_ports l m) q

theorem State.pendingBelow_congr {s u : State} (h : u.ports = s.ports) (src : Node) (t : Tenant) (n : Nat) :
    u.pendingBelow src t n = s.pendingBelow src t n := by
  rw [State.pendingBelow, State.pendingBelow, h]

theorem State.uncombined_congr {s u : State} (h : u.ports = s.ports) (hs : s.uncombined) : u.uncombined :=
  fun p hp => by rw [State.port_congr h, hs p hp]

/-- A change of port `p` that takes no message out of its queues. -/
theorem State.relays_modPort (s : State) (p : Nat) (f : Port → Port) (h : ∀ q, (f q).tx = q.tx) : s.Relays (s.modPort p f) := by
  refine ⟨State.routeTo_congr rfl rfl, fun d x hx => ?_⟩
  rw [State.modPort, State.port_setPort]
  split
  · next hd => rw [h, hd]; exact hx
  · exact hx

/-- The state in which a write has its window entry and its number. -/
def State.numbered (s : State) (l : Nat) (m : Msg) : State := { s.winOpen l m with wno := s.wno + 1 }

theorem State.numbered_port (s : State) (l : Nat) (m : Msg) (q : Nat) : (s.numbered l m).port q = s.port q := s.winOpen_port l m q

theorem State.relays_numbered (s : State) (l : Nat) (m : Msg) : s.Relays (s.numbered l m) :=
  (s.relays_winOpen l m).trans (.of_same rfl rfl rfl)

/-- The state in which a posted write has its entry. -/
def State.postedAt (s : State) (l p : Nat) (m : Msg) : State :=
  let s1 := (s.numbered l m).modPort p (fun q => { q with pwb := q.pwb ++ [⟨m, s.wno, false⟩] })
  s1.fset F.PRT_WB_OCC_PWB_MAX (max (s1.fget F.PRT_WB_OCC_PWB_MAX p) (s1.port p).pwb.length) p

theorem State.postedAt_wno (s : State) (l p : Nat) (m : Msg) : (s.postedAt l p m).wno = s.wno + 1 := rfl

theorem State.postedAt_pwb (s : State) (l p : Nat) (m : Msg) :
    ((s.postedAt l p m).port p).pwb = (s.port p).pwb ++ [⟨m, s.wno, false⟩] := by
  rw [State.postedAt, State.fset_port, State.port_modPort_same, State.numbered_port]

theorem State.relays_postedAt (s : State) (l p : Nat) (m : Msg) : s.Relays (s.postedAt l p m) :=
  ((s.relays_numbered l m).trans (State.relays_modPort _ p (fun q => { q with pwb := q.pwb ++ [⟨m, s.wno, false⟩] }) fun _ => rfl)).trans
    (State.relays_fset _ _ _ _ _)

theorem State.runPosted_eq (h : s.poolOk 128 1 (s.pwbUse p) m.ten = true) : s.runPosted l p m =
    (true, ((s.postedAt l p m).compDone l m).shedOrWait (s.sliceOf (lineAddr (msgAddr m)))
      (Txn.new (.posted p s.wno) m p (.line (lineAddr (msgAddr m))))) := by
  rw [State.runPosted, if_pos h]
  rfl

/-- A posted write has its entry and its completion when it has been taken (08 R308). -/
theorem State.runPosted_takes (h : s.poolOk 128 1 (s.pwbUse p) m.ten = true) : ∃ u, s.runPosted l p m = (true, u) ∧ u.wno = s.wno + 1 ∧
    (u.port p).pwb = (s.port p).pwb ++ [⟨m, s.wno, false⟩] ∧ s.sends u (respTo m Op.comp 0 false 0 []) := by
  refine ⟨_, State.runPosted_eq h, ?_, ?_, ?_⟩
  · rw [State.shedOrWait_wno, State.compDone_wno, State.postedAt_wno]
  · rw [State.port_congr (State.shedOrWait_ports _ _ _)]
    obtain ⟨tx, htx⟩ := State.compDone_port (s.postedAt l p m) l m p
    rw [htx]
    exact s.postedAt_pwb l p m
  · exact ((s.relays_postedAt l p m).compDone l m).relay (State.relays_shedOrWait _ _ _)

/-- The combining entry of a non-temporal write that finds none open. -/
def State.combined (s : State) (p : Nat) (m : Msg) : Combine :=
  { idx := (firstFrom (fun i => !(s.port p).cwb.any (fun c => c.idx == i)) 0 32).getD 0, src := m.src, ten := m.ten,
    sector := sectorOf (lineAddr (msgAddr m)), lines := [(hcSubOf (lineAddr (msgAddr m)), s.wno, m)],
    until_ := s.now + usec (2 ^ s.fget F.PRT_WB_CTL_CWB_TMO p), flushing := false }

/-- The state in which it has that entry. -/
def State.combinedAt (s : State) (l p : Nat) (m : Msg) : State :=
  let s1 := (s.numbered l m).modPort p (fun q => { q with cwb := q.cwb ++ [s.combined p m] })
  s1.fset F.PRT_WB_OCC_CWB_MAX (max (s1.fget F.PRT_WB_OCC_CWB_MAX p) (s1.port p).cwb.length) p

theorem State.combinedAt_wno (s : State) (l p : Nat) (m : Msg) : (s.combinedAt l p m).wno = s.wno + 1 := rfl

theorem State.combinedAt_cwb (s : State) (l p : Nat) (m : Msg) :
    ((s.combinedAt l p m).port p).cwb = (s.port p).cwb ++ [s.combined p m] := by
  rw [State.combinedAt, State.fset_port, State.port_modPort_same, State.numbered_port]

theorem State.relays_combinedAt (s : State) (l p : Nat) (m : Msg) : s.Relays (s.combinedAt l p m) :=
  ((s.relays_numbered l m).trans (State.relays_modPort _ p (fun q => { q with cwb := q.cwb ++ [s.combined p m] }) fun _ => rfl)).trans
    (State.relays_fset _ _ _ _ _)

theorem State.runNT_eq (hnone : (s.port p).cwb = []) (h : s.poolOk 32 1 (s.cwbUse p) m.ten = true) :
    s.runNT l p m = (true, (s.combinedAt l p m).compDone l m) := by
  have hfind (f : Combine → Bool) : (s.port p).cwb.find? f = none := by rw [hnone]; rfl
  rw [State.runNT]
  dsimp only
  rw [hfind]
  dsimp only
  rw [if_pos h]
  rfl

/-- A non-temporal write that finds no combining entry has one and its completion when it has been taken (08 R312). -/
theorem State.runNT_takes (hnone : (s.port p).cwb = []) (h : s.poolOk 32 1 (s.cwbUse p) m.ten = true) :
    ∃ u, s.runNT l p m = (true, u) ∧ u.wno = s.wno + 1 ∧ (u.port p).cwb = [s.combined p m] ∧
      s.sends u (respTo m Op.comp 0 false 0 []) := by
  refine ⟨_, State.runNT_eq hnone h, ?_, ?_, ?_⟩
  · rw [State.compDone_wno, State.combinedAt_wno]
  · obtain ⟨tx, htx⟩ := State.compDone_port (s.combinedAt l p m) l m p
    rw [htx]
    exact (s.combinedAt_cwb l p m).trans (by rw [hnone]; rfl)
  · exact (s.relays_combinedAt l p m).compDone l m

/-- A fence of the first kind completes at once, and stands before later writes while earlier ones are pending (08 R315). -/
theorem State.runFenceW_uncombined (h : s.uncombined) (l : Nat) (m : Msg) :
    s.sends (s.runFenceW l m) (respTo m Op.comp 0 false 0 []) ∧ (s.runFenceW l m).barriers =
      (if s.pendingBelow m.src m.ten s.wno then s.barriers ++ [(m.src, m.ten, s.wno)] else s.barriers) := by
  have hflush (sel : Nat → Combine → Bool) (f : Option Fld) : (s.winOpen l m).flushEverywhere sel f = s.winOpen l m :=
    State.flushEverywhere_uncombined (State.uncombined_congr (s.winOpen_ports l m) h) _ _
  have hpend (n : Nat) := State.pendingBelow_congr (s.winOpen_ports l m) m.src m.ten n
  have hopen := s.relays_winOpen l m
  rw [State.runFenceW, hflush, hpend, State.winOpen_wno, State.winOpen_barriers, State.compDone_barriers]
  split
  · refine ⟨State.Relays.compDone (hopen.trans ?_) l m, rfl⟩
    exact .of_same rfl rfl rfl
  · exact ⟨hopen.compDone l m, State.winOpen_barriers _ _ _⟩

theorem State.runFenceFull_idle (h : s.uncombined) (hidle : s.pendingBelow m.src m.ten s.wno = false) :
    s.sends (s.runFenceFull l p m) (respTo m Op.comp 0 false 0 []) := by
  have hflush (sel : Nat → Combine → Bool) (f : Option Fld) : (s.winOpen l m).flushEverywhere sel f = s.winOpen l m :=
    State.flushEverywhere_uncombined (State.uncombined_congr (s.winOpen_ports l m) h) _ _
  rw [State.runFenceFull]
  dsimp only
  rw [hflush, State.pendingBelow_congr (s.winOpen_ports l m), State.winOpen_wno, hidle, if_neg (by simp)]
  exact (s.relays_winOpen l m).compDone l m

theorem State.runFenceFull_pending (h : s.uncombined) (hpend : s.pendingBelow m.src m.ten s.wno = true) :
    ∃ i, ((s.runFenceFull l p m).port p).fences = (s.port p).fences ++ [⟨i, m, s.wno⟩] ∧
      ∀ q, ((s.runFenceFull l p m).port q).tx = (s.port q).tx := by
  have hflush (sel : Nat → Combine → Bool) (f : Option Fld) : (s.winOpen l m).flushEverywhere sel f = s.winOpen l m :=
    State.flushEverywhere_uncombined (State.uncombined_congr (s.winOpen_ports l m) h) _ _
  rw [State.runFenceFull]
  dsimp only
  rw [hflush, State.pendingBelow_congr (s.winOpen_ports l m), State.winOpen_wno, hpend, if_pos rfl, State.port_modPort_same,
    State.winOpen_port]
  refine ⟨_, rfl, fun q => ?_⟩
  rw [State.modPort, State.port_setPort, State.winOpen_port]
  split
  · next hq => rw [hq]
  · rw [State.winOpen_port]

/-- A request that acts outside the slice and that the window takes as new is what `reqRun` makes of it. -/
theorem State.request_buffered (hclamp : isClamp m.op = false) (hin : inSlice m.op = false) (h : s.Reaches (arrived m p) k l)
    (hask : s.winAsk l m = .go false) {u : State} (hrun : (s.noteCalm k m).reqRun k l (arrived m p) = (true, u)) :
    s.request p m = u := by
  have hk : s.physOf (s.reqSlice m) = k := h.serves
  have hm : (arrived m p).m = m := rfl
  rw [State.request_go hclamp (.inl hin), hk, h.reqGo_new hask, hm, hrun]
  rfl

end

end Sys2Proof.Machine
end

section
/-! The statement about posted, non-temporal and fencing requests (08 R308 to R316). -/
namespace Sys2Proof.Machine

/-- The requests that the buffers of a port serve. -/
def bufferOps : List (BitVec 8) := [Op.wrPosted, Op.wrNT, Op.fenceW, Op.fenceFull]

theorem bufferOps_outside :
    ∀ o ∈ bufferOps, isClamp o = false ∧ inSlice o = false ∧ (16 ≤ o.toNat && o.toNat ≤ 19) = false := by decide

/-- Settles O26: the request reaches its buffer with only the reservation table noted. -/
theorem bufferedWrites : Obligations.BufferedWrites := by
  unfold Obligations.BufferedWrites
  intro s v p l m w o hw hadm hv hnew hp
  obtain ⟨hun, hjig, hwin, hask⟩ := hnew
  have hop : w.op = o := by rw [hw]
  have hexec : s.requestOf p m o = s.after (v.request p w) := by
    subst hw hv
    exact State.requestOf_eq hadm
  have hreach (ho : v.reqHeld w = false) (hin : inSlice w.op = false) : v.Reaches (arrived w p) (v.physOf (v.reqSlice w)) l :=
    ⟨hun, rfl, ho, fun h => absurd (hin.symm.trans h) (by simp), hwin⟩
  have hbuf (ho : o ∈ bufferOps) {u : State}
      (hrun : (v.noteCalm (v.physOf (v.reqSlice w)) w).reqRun (v.physOf (v.reqSlice w)) l (arrived w p) = (true, u)) :
      s.requestOf p m o = s.after u := by
    have hout : isClamp w.op = false ∧ inSlice w.op = false ∧ (16 ≤ w.op.toNat && w.op.toNat ≤ 19) = false := by
      rw [hop]
      exact bufferOps_outside o ho
    have hheld : v.reqHeld w = false := by
      rw [State.reqHeld, hout.1, hout.2.1]
      simp [hout.2.2]
    rw [hexec, State.request_buffered hout.1 hout.2.1 (hreach hheld hout.2.1) hask hrun]
  generalize hk : v.physOf (v.reqSlice w) = k at hbuf
  have hrelay := v.relays_noteCalm k w
  have hunc : (v.noteCalm k w).uncombined := hun
  have hm : (arrived w p).m = w := rfl
  refine ⟨?_, ?_, ?_, ?_, ?_⟩
  · rintro rfl hpool
    obtain ⟨u, hrun, hno, hpwb, hsend⟩ := State.runPosted_takes (s := v.noteCalm k w) (l := l) hpool
    refine ⟨u, congrArg _ (hbuf (by decide) ?_), hno, hpwb, hrelay.sends hsend⟩
    rw [State.reqRun, hm, hop]
    exact hrun
  · rintro rfl hpool
    obtain ⟨u, hrun, hno, hcwb, hsend⟩ := State.runNT_takes (s := v.noteCalm k w) (l := l) (hun p hp) hpool
    refine ⟨u, _, congrArg _ (hbuf (by decide) ?_), hno, hcwb, rfl, rfl, rfl, rfl, rfl, rfl, hrelay.sends hsend⟩
    rw [State.reqRun, hm, hop]
    exact hrun
  · rintro rfl
    obtain ⟨hsend, hbar⟩ := State.runFenceW_uncombined hunc l w
    refine ⟨_, congrArg _ (hbuf (by decide) (u := (v.noteCalm k w).runFenceW l w) ?_), hrelay.sends hsend, hbar⟩
    rw [State.reqRun, hm, hop]
    rfl
  · rintro rfl hidle
    refine ⟨_, congrArg _ (hbuf (by decide) (u := (v.noteCalm k w).runFenceFull l p w) ?_),
      hrelay.sends (State.runFenceFull_idle hunc hidle)⟩
    rw [State.reqRun, hm, hop]
    rfl
  · rintro rfl hpend
    obtain ⟨i, hf, htx⟩ := State.runFenceFull_pending (l := l) (p := p) hunc hpend
    refine ⟨_, i, congrArg _ (hbuf (by decide) (u := (v.noteCalm k w).runFenceFull l p w) ?_), hf, htx⟩
    rw [State.reqRun, hm, hop]
    rfl

end Sys2Proof.Machine
end

section
/-! The statement about what the buffers do later (08 R309 to R316, 07 R255). -/
namespace Sys2Proof.Machine

section
variable {s : State} {k p : Nat}

/-- The flush of a combining entry marks it, and moves neither ports nor time otherwise. -/
theorem State.flushEntry_cwb {c : Combine} (h : (s.port p).cwb = [c]) (hc : c.flushing = false) (f : Option Fld) :
    ((s.flushEntry p c.idx f).port p).cwb = [{ c with flushing := true }] ∧ (s.flushEntry p c.idx f).now = s.now := by
  have hfind : (s.port p).cwb.find? (fun x => x.idx == c.idx && !x.flushing) = some c := by simp [h, hc]
  rw [State.flushEntry, hfind]
  dsimp only
  refine ⟨?_, ?_⟩
  · refine (State.foldl_field (fun u => (u.port p).cwb) (fun u x => ?_) _ _).trans ?_
    · exact congrArg Port.cwb (State.port_congr (State.shedOrWait_ports _ _ _) p)
    · cases f <;> simp [h]
  · refine (State.foldl_field (·.now) (fun u x => State.shedOrWait_now _ _ _) _ _).trans ?_
    cases f <;> rfl

/-- Fence `i` is taken from port `p`. -/
def State.dropFence (s : State) (p i : Nat) : State :=
  s.modPort p (fun q => { q with fences := q.fences.filter (fun f => f.idx != i) })

theorem State.relays_dropFence (s : State) (p i : Nat) : s.Relays (s.dropFence p i) :=
  State.relays_modPort s p (fun q => { q with fences := q.fences.filter (fun f => f.idx != i) }) fun _ => rfl

theorem State.fenceFullEnd_clear {f : Fence} (hf : (s.port p).fences = [f]) (hidle : s.pendingBelow f.m.src f.m.ten f.lim = false) :
    s.fenceFullEnd p f.idx = (s.dropFence p f.idx).compDone (s.winSlice f.m) f.m := by
  have hfind : (s.port p).fences.find? (fun g => g.idx == f.idx) = some f := by simp [hf]
  rw [State.fenceFullEnd, hfind]
  dsimp only
  rw [if_neg (by simp [hidle]), State.dropFence]

theorem findSome?_range_unique {α : Type} {f : Nat → Option α} {n k : Nat} {v : α} (hk : k < n) (hv : f k = some v)
    (h : ∀ j, j < n → j ≠ k → f j = none) : (List.range n).findSome? f = some v := by
  obtain ⟨a, ha⟩ : ∃ a, (List.range n).findSome? f = some a :=
    Option.isSome_iff_exists.mp (List.findSome?_isSome_iff.mpr ⟨k, List.mem_range.mpr hk, by simp [hv]⟩)
  obtain ⟨j, hj, hfj⟩ := List.exists_of_findSome?_eq_some ha
  by_cases hjk : j = k
  · rw [ha, ← hfj, hjk, hv]
  · exact absurd (hfj.symm.trans (h j (List.mem_range.mp hj) hjk)) (by simp)

/-- A posted write whose turn has come, and which waits to commit at one tracker, commits there (08 R309). -/
theorem State.postedCommit_turn {t w : Nat} {e : Posted} {x : Txn} (hpwb : (s.port p).pwb = [e]) (hno : e.no = w)
    (hready : e.ready = true) (hclear : s.fenceClear e.m.src e.m.ten w = true) (hk : k < 18) (htrk : (s.slice k).trk = [(t, some x)])
    (hother : ∀ j, j < 18 → j ≠ k → (s.slice j).trk = []) (hkind : x.kind = .posted p w) (hphase : x.phase = .commit) :
    s.postedCommit p w = s.recordAndEnd k t := by
  have hfind : (s.port p).pwb.find? (fun e => e.no == w) = some e := by simp [hpwb, hno]
  rw [State.postedCommit, hfind]
  dsimp only
  rw [if_pos (by simp [hready, hclear, hpwb, hno]), findSome?_range_unique (v := (k, t)) hk (by simp [htrk, hkind, hphase])
    (fun j hj hjk => by rw [hother j hj hjk]; rfl)]

end

/-- Settles O27: an entry that is not there or whose turn has not come changes nothing; the others by the equation of their case. -/
theorem bufferTimers : Obligations.BufferTimers := by
  unfold Obligations.BufferTimers
  intro s hrst
  refine ⟨fun p f hp hf hidle => ?_, fun p f hp hf hpend => ?_, fun p k t w e x hp hk hpwb hno hready hclear htrk hother hkind hph => ?_,
    fun p w e hp hpwb hno hready => ?_, fun p c hp hcwb hfl => ?_, fun k x r hk hing hkind hheld hgo => ?_, fun k t hk hing => ?_⟩
  · refine ⟨s.fenceFullEnd p f.idx, next_atPort hrst hp _, ?_⟩
    rw [State.fenceFullEnd_clear hf hidle]
    refine ⟨?_, (s.relays_dropFence p f.idx).compDone _ _⟩
    obtain ⟨tx, htx⟩ := State.compDone_port (s.dropFence p f.idx) (s.winSlice f.m) f.m p
    rw [htx, State.dropFence, State.port_modPort_same, hf]
    simp
  · refine (next_atPort hrst hp _).trans ?_
    have hfind : (s.port p).fences.find? (fun g => g.idx == f.idx) = some f := by simp [hf]
    rw [State.fenceFullEnd, hfind]
    dsimp only
    rw [if_pos hpend]
  · refine (next_atPort hrst hp _).trans ?_
    rw [State.postedCommit_turn hpwb hno hready hclear hk htrk hother hkind hph]
  · refine (next_atPort hrst hp _).trans ?_
    have hfind : (s.port p).pwb.find? (fun e => e.no == w) = some e := by simp [hpwb, hno]
    rw [State.postedCommit, hfind]
    dsimp only
    rw [if_neg (by simp [hready])]
  · refine ⟨s.cwbTimeout p c.idx, next_atPort hrst hp _, ?_⟩
    have hfind : (s.port p).cwb.find? (fun x => x.idx == c.idx && !x.flushing) = some c := by simp [hcwb, hfl]
    rw [State.cwbTimeout, hfind]
    exact State.flushEntry_cwb (s := s.until c.until_) hcwb hfl _
  · refine (next_atSlice hrst hk _).trans ?_
    have hint : x.internal = false := by simp [Txn.internal, hkind]
    have hretry : s.retryInternal k x.m.ten = s := by simp [State.retryInternal, hing, hint]
    have hfind : (s.slice k).ingress.find? (fun y => !y.internal && y.m.ten == x.m.ten && !s.waitHeld y) = some x := by
      simp [hing, hint, hheld]
    rw [State.ingressRetry, hretry, State.retryClient, hfind]
    dsimp only
    rw [hkind]
    dsimp only
    rw [hgo, if_pos rfl]
  · refine (next_atSlice hrst hk _).trans ?_
    have hretry : s.retryInternal k t = s := by simp [State.retryInternal, hing]
    rw [State.ingressRetry, hretry, State.retryClient, hing]
    rfl

end Sys2Proof.Machine
end

section
/-! The statement about CompAck and Settle, and what closing an entry changes (06 R229, R232, 07 R256, R257). -/
namespace Sys2Proof.Machine

section
variable {s : State} {k t : Nat} {x : Txn}

/-! ## Closing an entry -/

theorem State.tryFree_field {α : Type} (get : State → α) (hslices : ∀ (s : State) x, get { s with slices := x } = get s)
    (hdue : ∀ (s : State) x, get { s with due := x } = get s) (s : State) (k t : Nat) : get (s.tryFree k t) = get s := by
  unfold State.tryFree
  split
  · rfl
  · split
    · exact (hdue _ _).trans ((hdue _ _).trans (hslices _ _))
    · rfl

theorem State.closeTxn_field {α : Type} (get : State → α) (hslices : ∀ (s : State) x, get { s with slices := x } = get s)
    (hdue : ∀ (s : State) x, get { s with due := x } = get s) (s : State) (k t : Nat) : get (s.closeTxn k t) = get s := by
  unfold State.closeTxn
  split
  · rfl
  · exact (hdue _ _).trans ((hdue _ _).trans ((State.tryFree_field get hslices hdue _ k t).trans (hslices _ _)))

@[simp] theorem State.closeTxn_regs (s : State) (k t : Nat) : (s.closeTxn k t).regs = s.regs :=
  State.closeTxn_field (·.regs) (fun _ _ => rfl) (fun _ _ => rfl) s k t
@[simp] theorem State.closeTxn_wins (s : State) (k t : Nat) : (s.closeTxn k t).wins = s.wins :=
  State.closeTxn_field (·.wins) (fun _ _ => rfl) (fun _ _ => rfl) s k t
@[simp] theorem State.closeTxn_now (s : State) (k t : Nat) : (s.closeTxn k t).now = s.now :=
  State.closeTxn_field (·.now) (fun _ _ => rfl) (fun _ _ => rfl) s k t
@[simp] theorem State.closeTxn_ports (s : State) (k t : Nat) : (s.closeTxn k t).ports = s.ports :=
  State.closeTxn_field (·.ports) (fun _ _ => rfl) (fun _ _ => rfl) s k t

/-- The tracker frees, or stays as it is. -/
theorem State.tryFree_txn (s : State) (k t : Nat) : (s.tryFree k t).txn k t = none ∨ (s.tryFree k t).txn k t = s.txn k t := by
  unfold State.tryFree
  split
  · exact .inr rfl
  · split
    · exact .inl (by rw [State.txn_congr (State.react_slices _ _), State.txn_congr (State.react_slices _ _), State.txn_setTxn_same])
    · exact .inr rfl

theorem State.tryFree_txn_other (s : State) {j : Nat} (h : j ≠ t) : (s.tryFree k t).txn k j = s.txn k j := by
  unfold State.tryFree
  split
  · rfl
  · split
    · rw [State.txn_congr (State.react_slices _ _), State.txn_congr (State.react_slices _ _), State.txn_setTxn_other _ _ h]
    · rfl

/-- The transaction with its entry closed. -/
def Txn.closed (x : Txn) : Txn := { x with opened := false, phase := .closed, copies := [], unwritten := false }

theorem State.closeTxn_eq (h : s.txn k t = some x) : s.closeTxn k t =
    (((s.setTxn k t (some x.closed)).tryFree k t).react (.way k (scopeSf x.scope))).react (.admitNext k) := by
  rw [State.closeTxn, h]
  rfl

theorem State.closeTxn_txn (h : s.txn k t = some x) : (s.closeTxn k t).txn k t = none ∨ (s.closeTxn k t).txn k t = some x.closed := by
  rw [State.closeTxn_eq h, State.txn_congr (State.react_slices _ _), State.txn_congr (State.react_slices _ _)]
  exact (State.tryFree_txn _ k t).imp_right (·.trans (State.txn_setTxn_same _ _ _ _))

theorem State.closeTxn_txn_other {j : Nat} (hj : j ≠ t) : (s.closeTxn k t).txn k j = s.txn k j := by
  rcases hx : s.txn k t with _ | x
  · rw [State.closeTxn, hx]
  · rw [State.closeTxn_eq hx, State.txn_congr (State.react_slices _ _), State.txn_congr (State.react_slices _ _),
      State.tryFree_txn_other _ hj, State.txn_setTxn_other _ _ hj]

theorem State.closeTxn_admits (h : s.txn k t = some x) : Reaction.admitNext k ∈ (s.closeTxn k t).due := by
  rw [State.closeTxn_eq h]
  exact State.mem_due_react _ _

theorem State.win_congr {s u : State} (h : u.wins = s.wins) (l n : Nat) : u.win l n = s.win l n := by rw [State.win, State.win, h]

end

/-- Settles O32: the message is counted, or it closes the entry of the transaction that waits for it. -/
theorem followOnMessages : Obligations.FollowOnMessages := by
  unfold Obligations.FollowOnMessages
  intro s v p m w row o ph hrow hw hadm hv
  have hexec : exec row s = .next (s.after (v.followOn p w ph)) := by
    subst hw hv
    simp only [List.mem_cons, List.not_mem_nil, or_false, Prod.mk.injEq] at hrow
    rcases hrow with ⟨rfl, rfl, rfl⟩ | ⟨rfl, rfl, rfl⟩
    · exact next_message (fun m s => s.followOn p m .ack) hadm
    · exact next_message (fun m s => s.followOn p m .settle) hadm
  refine ⟨fun hnone => ?_, fun k t x hat htxn => ?_⟩
  · rw [hexec, State.followOn, hnone]
  · have hclose : (v.winClose (v.winSlice x.m) x.m .done).txn k t = some x := htxn
    refine ⟨(v.winClose (v.winSlice x.m) x.m .done).closeTxn k t, by simp only [hexec, State.followOn, hat, htxn], fun y hy => ?_,
      State.closeTxn_admits hclose, ?_, fun j hj => ?_, ?_⟩
    · rcases State.closeTxn_txn hclose with h | h
      · exact absurd (h.symm.trans hy) (by simp)
      · obtain rfl := Option.some.inj (h.symm.trans hy)
        exact ⟨rfl, rfl, rfl⟩
    · rw [State.win_congr (State.closeTxn_wins _ _ _)]
      exact v.winClose_entry _ _ (by simp)
    · exact State.closeTxn_txn_other hj
    · rw [State.closeTxn_regs]
      rfl

end Sys2Proof.Machine
end

section
/-!
SUPPORT. What the arrays of a slice, the home cache's writes and the error reports leave alone: no tracker changes, no time passes,
and the fields of registers that they do not count in read as before (09 R350 to R368, 10 R389 to R408).
-/
namespace Sys2Proof.Machine

section
variable {s u v : State}

/-! ## Fields that no unit's instance of another field can touch -/

/-- Field `f`, with at most eight members, never shares a bit with field `g`, whatever the units: other bits, another place in blocks of
like size, or a register below the blocks of units. -/
def Fld.never (f g : Fld) : Bool :=
  decide (g.lsb + g.wid ≤ f.lsb) || decide (f.lsb + f.wid ≤ g.lsb) ||
    (f.mstr == 0 && g.mstr == 0 && f.stride % 0x1000 == 0 && g.stride % 0x1000 == 0 &&
      (f.base + f.off) % 0x1000 != (g.base + g.off) % 0x1000) ||
    (f.mstr == 0 && g.mstr == 0 && f.stride % 0x100 == 0 && g.stride % 0x100 == 0 &&
      (f.base + f.off) % 0x100 != (g.base + g.off) % 0x100) ||
    (f.stride == 0 && decide (f.base + f.off + 8 * f.mstr < 0x10000) && decide (0x10000 ≤ g.base + g.off))

theorem Fld.addr_mod (f : Fld) (d n : Nat) (hm : f.mstr = 0) (hs : f.stride % d = 0) (m : Nat) :
    f.addr n m % d = (f.base + f.off) % d := by
  obtain ⟨q, hq⟩ := Nat.dvd_of_mod_eq_zero hs
  have : f.addr n m = d * (q * n) + (f.base + f.off) := by
    rw [Fld.addr, hm, hq, Nat.mul_assoc]
    omega
  rw [this, Nat.mul_add_mod]

theorem State.fget_fset_never (s : State) {f g : Fld} (v n m i j : Nat) (h : f.never g = true) (hm : m < 8) (hg : g.lsb + g.wid ≤ 32) :
    (s.fset f v n m).fget g i j = s.fget g i j := by
  refine State.fget_fset_other s f g v n m i j ?_ hg
  simp only [Fld.never, Bool.or_eq_true, Bool.and_eq_true, decide_eq_true_eq, beq_iff_eq, bne_iff_ne] at h
  rcases h with (((h | h) | ⟨⟨⟨⟨hf, hg'⟩, hsf⟩, hsg⟩, hne⟩) | ⟨⟨⟨⟨hf, hg'⟩, hsf⟩, hsg⟩, hne⟩) | ⟨⟨hs, hlow⟩, hhigh⟩
  · exact .inr (.inl h)
  · exact .inr (.inr h)
  · refine .inl fun heq => hne ?_
    rw [← f.addr_mod _ n hf hsf m, heq, g.addr_mod _ i hg' hsg j]
  · refine .inl fun heq => hne ?_
    rw [← f.addr_mod _ n hf hsf m, heq, g.addr_mod _ i hg' hsg j]
  · refine .inl (Nat.ne_of_lt ?_)
    have hmem : f.mstr * m ≤ f.mstr * 8 := Nat.mul_le_mul_left _ (by omega)
    have hunit : g.base + g.off ≤ g.addr i j := by rw [Fld.addr]; omega
    have hf : f.addr n m = f.base + f.off + f.mstr * m := by rw [Fld.addr, hs]; omega
    omega

/-- The fields in which the arrays, the home cache and the error reports count and record. -/
def asideFields : List Fld :=
  [F.EVG_DROP_FULL, F.PRT_RT_DROPCNT_NOROUTE, F.JIG_CH_STATUS_FIRED, F.SAF_NOTICE_COUNT, F.SAF_LOG_STAT_DROPPED, F.SAF_CNT0_CORR,
    F.SAF_CNT0_DEFER, F.SAF_CNT1_CONT, F.SAF_FAULT_CONTAINED, F.SAF_TFATAL_TENANT, F.SLC_SF_XFMT_PROMO, F.SLC_SF_XFMT_DEMO,
    F.SLC_SF_ECCCNT_CE, F.SLC_SF_ECCCNT_UE, F.SLC_SF_ECCLAST_VALID, F.SLC_SF_ECCLAST_UE, F.SLC_SF_ECCLAST_WAY, F.SLC_SF_ECCLAST_SET,
    F.SLC_HC_HIT_COUNT, F.SLC_HC_MISS_COUNT, F.SLC_HC_EVICT_SECTORS, F.SLC_HC_EVICT_BYPASS, F.SLC_HC_ECCCNT_CE, F.SLC_HC_ECCCNT_UE,
    F.SLC_HC_TAGCNT_CLEAN, F.SLC_HC_TAGCNT_LOST, F.SLC_HC_ERRLAST_VALID, F.SLC_HC_ERRLAST_KIND, F.SLC_HC_ERRLAST_SUB,
    F.SLC_HC_ERRLAST_WAY, F.SLC_HC_ERRLAST_SET]

/-- A field that none of them touches. -/
def Fld.apartAside (g : Fld) : Bool := decide (g.lsb + g.wid ≤ 32) && asideFields.all (·.never g)

/-- From `s` to `u` no tracker changes, no time passes, the Pattern stays, and a register field beside the counts reads as before. -/
structure State.Aside (s u : State) : Prop where
  trk : ∀ k, (u.slice k).trk = (s.slice k).trk
  now : u.now = s.now
  pat : u.pat = s.pat
  fget : ∀ g : Fld, g.apartAside = true → ∀ i j, u.fget g i j = s.fget g i j

theorem State.Aside.refl (s : State) : s.Aside s := ⟨fun _ => rfl, rfl, rfl, fun _ _ _ _ => rfl⟩

theorem State.Aside.trans (h : s.Aside u) (g : u.Aside v) : s.Aside v :=
  ⟨fun k => (g.trk k).trans (h.trk k), g.now.trans h.now, g.pat.trans h.pat, fun f hf i j => (g.fget f hf i j).trans (h.fget f hf i j)⟩

theorem State.Aside.txn (h : s.Aside u) (k t : Nat) : u.txn k t = s.txn k t := by rw [State.txn, State.txn, h.trk]

theorem State.Aside.snpTmo (h : s.Aside u) (t : Tenant) : u.snpTmo t = s.snpTmo t := by
  rw [State.snpTmo, State.snpTmo, h.fget F.TNT_CTL_SNP_TMO (by decide)]

/-- A step that leaves slices, time, Pattern and registers alone. -/
theorem State.Aside.of_same (hslices : u.slices = s.slices) (hnow : u.now = s.now) (hpat : u.pat = s.pat) (hregs : u.regs = s.regs) :
    s.Aside u :=
  ⟨fun k => by rw [State.slice_congr hslices], hnow, hpat,
    fun g _ i j => by rw [State.fget, State.fget, State.word, State.word, hregs]⟩

theorem State.Aside.foldl {α : Type} {f : State → α → State} (h : ∀ (s : State) a, s.Aside (f s a)) (xs : List α) (s : State) :
    s.Aside (xs.foldl f s) := by
  induction xs generalizing s with
  | nil => exact .refl s
  | cons x xs ih => exact (h s x).trans (ih (f s x))

theorem State.Aside.forUp {f : Nat → State → State} (h : ∀ i (s : State), s.Aside (f i s)) (i n : Nat) (s : State) :
    s.Aside (Machine.forUp f i n s) := by
  induction n generalizing i s with
  | zero => exact .refl s
  | succ n ih => exact (h i s).trans (ih (i + 1) (f i s))

/-- A further step that leaves slices, time, Pattern and registers alone. -/
theorem State.Aside.same (h : s.Aside u) (hslices : v.slices = u.slices) (hnow : v.now = u.now) (hpat : v.pat = u.pat)
    (hregs : v.regs = u.regs) : s.Aside v := h.trans (.of_same hslices hnow hpat hregs)

/-! ## Registers, slices, messages, logs -/

section
variable (h : s.Aside u)
include h

theorem State.Aside.fset {f : Fld} (hf : f ∈ asideFields) {m : Nat} (hm : m < 8) (v n : Nat) : s.Aside (u.fset f v n m) := by
  refine h.trans ⟨fun _ => rfl, rfl, rfl, fun g hg i j => ?_⟩
  simp only [Fld.apartAside, Bool.and_eq_true, decide_eq_true_eq, List.all_eq_true] at hg
  exact State.fget_fset_never u v n m i j (hg.2 f hf) hm hg.1

theorem State.Aside.setFlag {f : Fld} (hf : f ∈ asideFields) (b : Bool) (n : Nat) : s.Aside (u.setFlag f b n) :=
  h.fset hf (by omega) _ _

theorem State.Aside.bump {f : Fld} (hf : f ∈ asideFields) (n : Nat) : s.Aside (u.bump f n) := h.fset hf (by omega) _ _

theorem State.Aside.wrapInc {f : Fld} (hf : f ∈ asideFields) (n : Nat) : s.Aside (u.wrapInc f n) := h.fset hf (by omega) _ _

theorem State.Aside.modSlice {k : Nat} {f : Slice → Slice} (hf : ∀ c, (f c).trk = c.trk) : s.Aside (u.modSlice k f) := by
  refine h.trans ⟨fun j => ?_, rfl, rfl, fun _ _ _ _ => rfl⟩
  rw [State.slice_modSlice]
  split
  · next hk => rw [hf, hk]
  · rfl

theorem State.Aside.react (r : Reaction) : s.Aside (u.react r) := h.same rfl rfl rfl rfl

theorem State.Aside.raise (i c : Nat) (t : Option Tenant) : s.Aside (u.raise i c t) := by
  unfold State.raise
  dsimp only
  split
  · exact h.same rfl rfl rfl rfl
  · refine State.Aside.bump ?_ (by decide) 0
    exact h.same rfl rfl rfl rfl

theorem State.Aside.raiseSafety (i : Nat) : s.Aside (u.raiseSafety i) := h.raise _ _ _

omit h in
/-- A message that is no snoop and no recovery message starts no timer. -/
theorem State.startTimer_quiet (s : State) {m : Msg} (hm : opClass m.op ≠ 1 ∧ opClass m.op ≠ 5) : s.startTimer m = s := by
  rw [State.startTimer, if_pos (by simp [hm.1, hm.2])]

theorem State.Aside.send {m : Msg} (hm : opClass m.op ≠ 1 ∧ opClass m.op ≠ 5) : s.Aside (u.send m) := by
  unfold State.send
  split
  · exact h.same rfl rfl rfl rfl
  · rw [State.startTimer_quiet _ hm]
    exact h.bump (by decide) _

theorem State.Aside.logEntry (e : LogEntry) : s.Aside (u.logEntry e) := by
  unfold State.logEntry
  split
  · exact h.same rfl rfl rfl rfl
  · split
    · exact h.same rfl rfl rfl rfl
    · have hdrop : s.Aside (u.bump F.SAF_LOG_STAT_DROPPED) := h.bump (by decide) 0
      dsimp only
      split
      · refine State.Aside.raiseSafety ?_ 6
        exact hdrop.same rfl rfl rfl rfl
      · exact hdrop

theorem State.Aside.notice (x : Notice) : s.Aside (u.notice x) := by
  unfold State.notice
  split
  · exact h
  · exact State.Aside.send (h.wrapInc (by decide) 0) (show opClass Op.faultNotice ≠ 1 ∧ opClass Op.faultNotice ≠ 5 by decide)

theorem State.Aside.corrected (c w : BitVec 8) (t : Option Tenant) (a : Option Addr) : s.Aside (u.corrected c w t a) := by
  have hcnt : s.Aside (u.bump F.SAF_CNT0_CORR) := h.bump (by decide) 0
  unfold State.corrected
  dsimp only
  split
  · exact hcnt.logEntry _
  · exact hcnt

theorem State.Aside.deferred (c w : BitVec 8) (t : Option Tenant) (a : Option Addr) (i : Option Nat) :
    s.Aside (u.deferred c w t a i) := by
  have hcnt : s.Aside (u.bump F.SAF_CNT0_DEFER) := h.bump (by decide) 0
  unfold State.deferred
  dsimp only
  split
  · exact (hcnt.logEntry _).raiseSafety _
  · exact (hcnt.logEntry _).raise _ _ _
  · exact hcnt.logEntry _

theorem State.Aside.setTFatal (t : Tenant) (b : Bool) : s.Aside (u.setTFatal t b) :=
  h.fset (by decide) (by have := t.isLt; omega) _ _

theorem State.Aside.contained (c w : BitVec 8) (t : Tenant) (a : Option Addr) (i : Option Nat) : s.Aside (u.contained c w t a i) := by
  have hcnt : s.Aside (u.bump F.SAF_CNT1_CONT) := h.bump (by decide) 0
  have htail {x : State} (hx : s.Aside x) : s.Aside ((((x.raiseSafety 7).setFlag F.SAF_FAULT_CONTAINED true).notice
      (monitorNotice c 3 false w (some t) a)).setTFatal t true) :=
    (((hx.raiseSafety 7).setFlag (by decide) true 0).notice _).setTFatal t true
  unfold State.contained
  cases i <;> dsimp only <;> split
  · exact (htail (hcnt.logEntry _)).react _
  · exact htail (hcnt.logEntry _)
  · exact (htail ((hcnt.logEntry _).raise _ _ _)).react _
  · exact htail ((hcnt.logEntry _).raise _ _ _)

theorem State.Aside.containedNone (c w : BitVec 8) (a : Option Addr) : s.Aside (u.containedNone c w a) := by
  have hcnt : s.Aside (u.bump F.SAF_CNT1_CONT) := h.bump (by decide) 0
  exact (((hcnt.logEntry _).setFlag (by decide) true 0).notice _).raiseSafety 7

theorem State.Aside.containedMask (c w : BitVec 8) (m : BitVec 128) (a : Option Addr) (i : Option Nat) :
    s.Aside (u.containedMask c w m a i) := by
  unfold State.containedMask
  split
  · exact h.containedNone _ _ _
  · refine h.trans (State.Aside.forUp (fun n x => ?_) _ _ _)
    split
    · exact (State.Aside.refl x).contained _ _ _ _ _
    · exact .refl x

/-! ## The Jig's reads -/

theorem State.Aside.jigFire {c : Nat} (hc : c < 8) (r : JigRun) : s.Aside (u.jigFire c r) := by
  have hfired (x : State) (hx : s.Aside x) : s.Aside (x.bump F.JIG_CH_STATUS_FIRED 0 c) := hx.fset (by decide) hc _ _
  unfold State.jigFire
  dsimp only
  split
  · exact hfired _ (h.same rfl rfl rfl rfl)
  · refine State.Aside.react (hfired _ ?_) _
    exact h.same rfl rfl rfl rfl

theorem State.Aside.jigRead (n k : Nat) (a : Option Addr) : s.Aside (u.jigRead n k a).2 := by
  unfold State.jigRead
  split
  · exact h
  · refine List.foldlRecOn (motive := fun acc : Nat × State => s.Aside acc.2) _ _ h (fun acc hacc c hc => ?_)
    have hc8 : c < 8 := List.mem_range.mp hc
    split
    · exact hacc
    · dsimp only
      split
      · split
        · exact State.Aside.jigFire hacc hc8 _
        · exact hacc.same rfl rfl rfl rfl
      · exact hacc

/-! ## The snoop filter -/

theorem State.Aside.sfPut (k set w : Nat) (e : BitVec 118) : s.Aside (u.sfPut k set w e) := h.modSlice fun _ => rfl
theorem State.Aside.setLoose (k set : Nat) : s.Aside (u.setLoose k set) := h.modSlice fun _ => rfl
theorem State.Aside.countCE (k : Nat) : s.Aside (u.countCE k) := h.modSlice fun _ => rfl

theorem State.Aside.sfRetire (k set w : Nat) : s.Aside (u.sfRetire k set w) := by
  unfold State.sfRetire
  split
  · exact h
  · split
    · exact h.react _
    · exact h.modSlice fun _ => rfl

theorem State.Aside.sfEccLast (k set w : Nat) (b : Bool) : s.Aside (u.sfEccLast k set w b) :=
  (((h.setFlag (by decide) true k).setFlag (by decide) b k).fset (by decide) (by decide) w k).fset (by decide) (by decide) set k

theorem State.Aside.countFmt (k : Nat) (a b : Sharers) : s.Aside (u.countFmt k a b) := by
  unfold State.countFmt
  split
  · exact h.bump (by decide) k
  · split
    · exact h.bump (by decide) k
    · exact h

theorem State.Aside.sfWrite (k : Nat) (a : Addr) (t : Tenant) (w : Nat) (r : LineRec) : s.Aside (u.sfWrite k a t w r) := by
  unfold State.sfWrite
  split
  · exact h.sfPut _ _ _ _
  · exact h.sfPut _ _ _ _

theorem State.Aside.sfChoose (k set : Nat) (t : Tenant) (q o : Bool) : s.Aside (u.sfChoose k set t q o).2 := by
  unfold State.sfChoose
  dsimp only
  split
  · exact h
  · split
    · exact h
    · dsimp only
      split
      · exact h.trans (State.Aside.foldl (fun x w => (State.Aside.refl x).sfPut _ _ _ _) _ _)
      · exact h

theorem State.Aside.putNow (k : Nat) (a : Addr) (t : Tenant) (r : LineRec) : s.Aside (u.putNow k a t r) := by
  unfold State.putNow
  split
  · exact (h.countFmt _ _ _).sfWrite _ _ _ _ _
  · have hchoose := h.sfChoose k (sfSetOf a) t false false
    split
    · next w s1 heq => exact State.Aside.sfWrite (by rw [heq] at hchoose; exact hchoose) _ _ _ _ _
    · next c s1 hne heq =>
      rw [heq] at hchoose
      split
      · exact hchoose
      · exact hchoose.setLoose _ _

/-! ## The home cache -/

theorem State.Aside.setFrame (k set w : Nat) (f : Frame) : s.Aside (u.setFrame k set w f) := h.modSlice fun _ => rfl
theorem State.Aside.supersede (k : Nat) (a : Addr) : s.Aside (u.supersede k a) := h.modSlice fun _ => rfl

theorem State.Aside.hcErrLast (k kind sub w set : Nat) : s.Aside (u.hcErrLast k kind sub w set) :=
  ((((h.setFlag (by decide) true k).fset (by decide) (by decide) kind k).fset (by decide) (by decide) sub k).fset (by decide) (by decide)
    w k).fset (by decide) (by decide) set k

theorem State.Aside.hcRecordRetired (k set w : Nat) : s.Aside (u.hcRecordRetired k set w) := by
  unfold State.hcRecordRetired
  split
  · exact h
  · split
    · exact h.react _
    · refine State.Aside.setFrame ?_ _ _ _ _
      exact h.modSlice fun _ => rfl

theorem State.Aside.hcCheckTag (k set w : Nat) : s.Aside (u.hcCheckTag k set w) := by
  unfold State.hcCheckTag
  split
  · exact h
  · extract_lets x f s1 i o s2 bad
    have h1 : s.Aside s1 := by
      have hread := h.jigRead 0xA k (if tagV (u.frame k set w).tag != 0 then some (sectorAddr set (u.frame k set w).tag) else none)
      dsimp only [s1]
      split
      · exact hread
      · exact hread.setFrame _ _ _ _
    have h2 : s.Aside s2 := by
      dsimp only [s2]
      split
      · exact h1.same rfl rfl rfl rfl
      · exact h1
    split
    · exact h2
    · refine State.Aside.corrected (State.Aside.hcErrLast (State.Aside.bump (h2.setFrame _ _ _ _) ?_ k) _ _ _ _ _) _ _ _ _
      decide
    · have h3 := ((((h2.setFrame k set w Frame.free).bump (f := F.SLC_HC_TAGCNT_LOST) (by decide) k).hcErrLast k 4 0 w set).hcRecordRetired
        k set w)
      refine State.Aside.containedMask ?_ _ _ _ _ _
      rename_i m t1 t2 t3 c hc
      dsimp only [t3]
      split
      · exact h3.react _
      · exact h3.modSlice fun _ => rfl

theorem State.Aside.hcCheckSet (k set : Nat) : s.Aside (u.hcCheckSet k set) :=
  h.trans (State.Aside.forUp (fun w x => (State.Aside.refl x).hcCheckTag k set w) _ _ _)

theorem State.Aside.toMemory (a : Addr) {mk : Addr → Node → Msg} (hmk : ∀ b n, opClass (mk b n).op ≠ 1 ∧ opClass (mk b n).op ≠ 5) :
    s.Aside (u.toMemory a mk) := by
  unfold State.toMemory
  split
  · exact h
  · exact h.send (hmk _ _)

theorem State.Aside.sendMemWr (k : Nat) (o : MemOp) : s.Aside (u.sendMemWr k o) := by
  refine State.Aside.toMemory ?_ _ fun _ _ => (show opClass Op.memWr ≠ 1 ∧ opClass Op.memWr ≠ 5 by decide)
  exact h.modSlice fun _ => rfl

theorem State.Aside.sendOffer (k : Nat) (o : MemOp) : s.Aside (u.sendOffer k o) := by
  refine State.Aside.toMemory ?_ _ fun _ _ => (show opClass Op.memCleanOffer ≠ 1 ∧ opClass Op.memCleanOffer ≠ 5 by decide)
  exact h.modSlice fun _ => rfl

theorem State.Aside.readCw (k set w b c : Nat) : s.Aside (u.readCw k set w b c).2 := by
  unfold State.readCw
  extract_lets f sb jx s0 s1 flips clear put poisoned bad
  have h1 : s.Aside s1 := by
    have hread := h.jigRead 9 k (some (subAddr set f.tag b))
    dsimp only [s1]
    split
    · exact hread
    · exact h
  have hput {x : State} (y : Sub) (hx : s.Aside x) : s.Aside (put x y) := hx.setFrame _ _ _ _
  have hbad {x : State} (hx : s.Aside x) : s.Aside (bad x).2 := by
    dsimp only [bad]
    split <;> dsimp only
    · refine State.Aside.deferred (State.Aside.hcErrLast (State.Aside.bump (hput _ hx) ?_ k) _ _ _ _ _) _ _ _ _ _
      decide
    · refine State.Aside.corrected (State.Aside.hcErrLast (State.Aside.bump (State.Aside.countCE (hx.setFrame _ _ _ _) k) ?_ k) _ _ _ _ _)
        _ _ _ _
      decide
  split
  · exact h
  · split
    · exact h1
    · refine State.Aside.corrected (State.Aside.hcErrLast (State.Aside.bump (State.Aside.countCE (hput _ h1) k) ?_ k) _ _ _ _ _) _ _ _ _
      decide
    · exact hbad h1
    · have hdraw : s.Aside s1.draw.2 := h1.same rfl rfl rfl rfl
      split
      next i s2 heq =>
      rw [heq] at hdraw
      split
      · exact hbad hdraw
      · exact hput _ hdraw

theorem State.Aside.readSub (k set w b : Nat) : s.Aside (u.readSub k set w b) := (h.readCw k set w b 0).readCw k set w b 1

theorem State.Aside.evictFrame (k set w e : Nat) : s.Aside (u.evictFrame k set w e) := by
  unfold State.evictFrame
  refine State.Aside.setFrame ((h.bump (f := F.SLC_HC_EVICT_SECTORS) (by decide) k).trans (State.Aside.forUp (fun b x => ?_) _ _ _)) _ _ _ _
  have hread := (State.Aside.refl x).readSub k set w b
  split
  · exact .refl x
  · dsimp only
    split
    · exact hread
    · split
      · exact hread.sendMemWr _ _
      · split
        · exact hread.sendOffer _ _
        · exact hread

theorem State.Aside.hcAllocate (k : Nat) (a : Addr) (t : Tenant) : s.Aside (u.hcAllocate k a t).2 := by
  unfold State.hcAllocate
  dsimp only
  split
  · exact h
  · split
    · exact h
    · split
      · exact h.bump (by decide) k
      · exact h.bump (by decide) k
      · refine State.Aside.evictFrame ?_ _ _ _ _
        exact h.modSlice fun _ => rfl

theorem State.Aside.hcWriteLine (k : Nat) (a : Addr) (t : Tenant) (l : Line) (p : BitVec 4) (tag : Tag) (alloc : Bool) :
    s.Aside (u.hcWriteLine k a t l p tag alloc) := by
  unfold State.hcWriteLine
  dsimp only
  split
  · split
    · exact (h.supersede _ _).setFrame _ _ _ _
    · exact (h.supersede _ _).sendMemWr _ _
  · have halloc : s.Aside (if alloc = true then u.hcAllocate k a t else (none, u)).2 := by
      split
      · exact h.hcAllocate _ _ _
      · exact h
    split
    · next w s1 heq =>
      rw [heq] at halloc
      exact State.Aside.setFrame (halloc.supersede _ _) _ _ _ _
    · next s1 heq =>
      rw [heq] at halloc
      exact State.Aside.sendMemWr (halloc.supersede _ _) _ _

theorem State.Aside.poisonCopy (k : Nat) (a : Addr) (t : Tenant) (tag : Tag) : s.Aside (u.poisonCopy k a t tag) := by
  unfold State.poisonCopy
  split
  · exact h.hcWriteLine _ _ _ _ _ _ _
  · have hwrite := h.hcWriteLine k a t 0 0xF tag true
    dsimp only
    split
    · refine State.Aside.setFrame ?_ _ _ _ _
      exact hwrite.same rfl rfl rfl rfl
    · exact hwrite

end

end

end Sys2Proof.Machine
end

section
/-! SUPPORT. What an answer makes of the transaction that it matches: its data, its memory read, and when it moves on (06 R211 to R241). -/
namespace Sys2Proof.Machine

section
variable {s : State} {k t : Nat} {x : Txn}

theorem State.modTxn_eq (h : s.txn k t = some x) (f : Txn → Txn) : s.modTxn k t f = s.setTxn k t (some (f x)) := by
  rw [State.modTxn, h]

theorem State.setTxn_memOps (s : State) (k t : Nat) (x : Option Txn) (j : Nat) : ((s.setTxn k t x).slice j).memOps = (s.slice j).memOps := by
  rw [State.setTxn, State.slice_modSlice]
  split
  · next h => rw [h]
  · rfl

/-- A step that changes of transaction `x` at most its memory read, and of registers at most what messages and memory count. -/
structure State.Reads (s u : State) (k t : Nat) (x : Txn) : Prop where
  txn : ∃ r, u.txn k t = some { x with memRd := r }
  now : u.now = s.now
  fget : ∀ g : Fld, g.apartAside = true → F.SLC_COH_SPECWASTE_COUNT.never g = true → ∀ i j, u.fget g i j = s.fget g i j

theorem State.Reads.refl (h : s.txn k t = some x) : s.Reads s k t x := ⟨⟨x.memRd, h⟩, rfl, fun _ _ _ _ _ => rfl⟩

theorem State.Reads.trans {u v : State} (h : s.Reads u k t x) (g : ∀ y, u.txn k t = some y → u.Reads v k t y) : s.Reads v k t x := by
  obtain ⟨r, hr⟩ := h.txn
  have hv := g _ hr
  obtain ⟨r', hr'⟩ := hv.txn
  exact ⟨⟨r', hr'⟩, hv.now.trans h.now, fun f hf hw i j => (hv.fget f hf hw i j).trans (h.fget f hf hw i j)⟩

/-- Sending a message to memory for the line of a transaction whose memory read is set anew. -/
theorem State.setTxn_toMemory_reads (s : State) (r : Option MemWait) (a : Addr) {mk : Addr → Node → Msg}
    (hmk : ∀ b n, opClass (mk b n).op ≠ 1 ∧ opClass (mk b n).op ≠ 5) :
    s.Reads ((s.setTxn k t (some { x with memRd := r })).toMemory a mk) k t x := by
  have h := (State.Aside.refl (s.setTxn k t (some { x with memRd := r }))).toMemory a hmk
  exact ⟨⟨r, (h.txn k t).trans (State.txn_setTxn_same _ _ _ _)⟩, h.now, fun g hg _ i j => h.fget g hg i j⟩

theorem State.sendMemRd_eq (h : s.txn k t = some x) (spec : Bool) (tmo : Time) : s.sendMemRd k t spec tmo =
    (s.setTxn k t (some { x with memRd := some ⟨spec, false, s.now + tmo⟩ })).toMemory x.line (memRdMsg s.home k t x.m.ten spec) := by
  rw [State.sendMemRd, h]

theorem memRdMsg_quiet (home : Node) (k t : Nat) (ten : Tenant) (spec : Bool) (a : Addr) (n : Node) :
    opClass (memRdMsg home k t ten spec a n).op ≠ 1 ∧ opClass (memRdMsg home k t ten spec a n).op ≠ 5 :=
  show opClass Op.memRd ≠ 1 ∧ opClass Op.memRd ≠ 5 by decide

theorem State.wantMem_reads (h : s.txn k t = some x) : s.Reads (s.wantMem k t) k t x := by
  rw [State.wantMem, h]
  dsimp only
  split
  · rw [State.sendMemRd_eq h]
    exact State.setTxn_toMemory_reads s _ _ (memRdMsg_quiet _ _ _ _ _)
  · exact .refl h

/-- A transaction that holds its data reads no memory. -/
theorem State.wantMem_held (h : s.txn k t = some x) (hdata : x.data.isSome = true) : s.wantMem k t = s := by
  rw [State.wantMem, h]
  dsimp only
  rw [if_neg]
  rcases hx : x.data with _ | d
  · rw [hx] at hdata
    exact absurd hdata (by simp)
  · simp

theorem State.cancelMemRd_reads (h : s.txn k t = some x) : s.Reads (s.cancelMemRd k t) k t x := by
  rw [State.cancelMemRd, h]
  dsimp only
  split
  · split
    · refine State.setTxn_toMemory_reads s _ _ fun _ _ => ?_
      exact (show opClass Op.memCancel ≠ 1 ∧ opClass Op.memCancel ≠ 5 by decide)
    · exact .refl h
  · exact .refl h

/-- The transaction with the home's copy, or with dirty data, given to it. -/
def Txn.given (x : Txn) (d : Line × BitVec 4) (dirty fromMem : Bool) : Txn :=
  { x with data := some d, dirty := dirty, fromMem := fromMem, specHeld := x.specHeld && fromMem }

theorem State.giveData_eq (h : s.txn k t = some x) (d : Line × BitVec 4) (dirty fromMem : Bool) : s.giveData k t d dirty fromMem =
    (let s2 := if !fromMem && x.specHeld then (s.setTxn k t (some (x.given d dirty fromMem))).wrapInc F.SLC_COH_SPECWASTE_COUNT k
      else s.setTxn k t (some (x.given d dirty fromMem))
     if fromMem then s2 else s2.cancelMemRd k t) := by
  rw [State.giveData, h, State.modTxn_eq h]
  rfl

/-- Data from memory is given without more. -/
theorem State.giveData_fromMem (h : s.txn k t = some x) (d : Line × BitVec 4) (dirty : Bool) :
    s.giveData k t d dirty true = s.setTxn k t (some (x.given d dirty true)) :=
  (State.giveData_eq h d dirty true).trans (by simp)

theorem State.setTxn_reads (s : State) (k t : Nat) (x : Txn) : s.Reads (s.setTxn k t (some x)) k t x :=
  ⟨⟨x.memRd, State.txn_setTxn_same _ _ _ _⟩, rfl, fun _ _ _ _ _ => rfl⟩

/-- A count of data that was read in vain touches no transaction. -/
theorem State.wasted_reads (h : s.txn k t = some x) (n : Nat) : s.Reads (s.wrapInc F.SLC_COH_SPECWASTE_COUNT n) k t x := by
  refine ⟨⟨x.memRd, (State.txn_congr (State.wrapInc_slices _ _ _ _) k t).trans h⟩, State.wrapInc_now _ _ _ _, fun g hg hw i j => ?_⟩
  simp only [Fld.apartAside, Bool.and_eq_true, decide_eq_true_eq] at hg
  exact State.fget_fset_never s _ _ _ _ _ hw (by decide) hg.1

theorem State.giveData_reads (h : s.txn k t = some x) (d : Line × BitVec 4) (dirty : Bool) :
    s.Reads (s.giveData k t d dirty false) k t (x.given d dirty false) := by
  rw [State.giveData_eq h]
  simp only [Bool.not_false, Bool.true_and, Bool.false_eq_true, if_false]
  refine State.Reads.trans ?_ fun y hy => State.cancelMemRd_reads hy
  split
  · exact (State.setTxn_reads _ _ _ _).trans fun y hy => State.wasted_reads hy k
  · exact State.setTxn_reads _ _ _ _

/-! ## When a transaction moves on -/

/-- A client's transaction that has still a snoop to be answered looks at most at memory. -/
theorem State.moveEngine_snooping (h : s.txn k t = some x) (hkind : x.kind = .client) (hphase : x.phase = .snoop)
    (hcopies : x.copies ≠ []) : s.moveEngine k t = s.wantMem k t := by
  have hmove : s.moveEngine k t = s.moveOn k t := by
    rw [State.moveEngine, h]
    dsimp only
    rw [hkind]
  have hempty : (!x.copies.isEmpty) = true := by simpa using hcopies
  rw [hmove, State.moveOn, h]
  dsimp only
  rw [hphase]
  dsimp only
  rw [State.advance, h]
  dsimp only
  rw [if_pos hempty]

/-- One that has still an answer of a recall to come does nothing. -/
theorem State.moveEngine_recalling (h : s.txn k t = some x) (hkind : x.kind = .client) (hphase : x.phase = .recall)
    (hcopies : x.copies ≠ []) : s.moveEngine k t = s := by
  have hmove : s.moveEngine k t = s.moveOn k t := by
    rw [State.moveEngine, h]
    dsimp only
    rw [hkind]
  rw [hmove, State.moveOn, h]
  dsimp only
  rw [hphase]
  dsimp only
  rw [if_neg (by simpa using hcopies)]

/-- A census set that has still an answer to come does nothing. -/
theorem State.moveEngine_census (h : s.txn k t = some x) {l n : Nat} (hkind : x.kind = .census l) (hscope : x.scope = .sfSet n)
    (hcopies : x.copies ≠ []) : s.moveEngine k t = s := by
  rw [State.moveEngine, h]
  dsimp only
  rw [hkind, hscope]
  dsimp only
  rw [if_pos (by simpa using hcopies)]

/-- A closed entry whose memory read has ended, in a slice without memory operations, frees its tracker. -/
theorem State.tryFree_closed (h : s.txn k t = some x) (hphase : x.phase = .closed) (hmem : x.memRd = none)
    (hops : (s.slice k).memOps = []) : s.tryFree k t = ((s.setTxn k t none).react (.way k 0)).react (.admitNext k) := by
  rw [State.tryFree, h]
  dsimp only
  rw [if_pos ⟨hphase, by simp [hmem], by simp [hops]⟩]

end

end Sys2Proof.Machine
end

section
/-! The statements about the answers to snoops and of memory (06 R211 to R241, 10 R397 to R399). -/
namespace Sys2Proof.Machine

/-- The copy that an answer matches stands first in the list. -/
theorem matchCopy_first {m : Msg} {ops : List (BitVec 8)} {c : Copy} {cs : List Copy} (hdst : c.dst = m.src)
    (hrange : c.range = msgAgg m) (hop : c.op ∈ ops) : matchCopy m ops (c :: cs) = some c := by
  rw [matchCopy, List.find?_cons_of_pos]
  simp [hdst, hrange, hop]

/-- The transaction when copy `c`, the first of two, has answered. -/
def Txn.answered (x : Txn) (c d : Copy) (m : Msg) : Txn :=
  { x with copies := [d], xState := if c.toOwner then msgState m else x.xState }

section
variable {s : State} {p k t : Nat} {m : Msg} {x : Txn} {c d : Copy} {isData : Bool}

theorem State.snoopAnswer_bad (hx : s.txn (msgSlice m) (msgTrk m) = some x)
    (hc : matchCopy m [Op.snpShared, Op.snpUnique, Op.snpOnce, Op.snpMakeInv, Op.snpBackInv] x.copies = some c)
    (hbad : msgDirty m ≠ isData ∨ legalAnswer c.op (msgState m) isData = false) : s.snoopAnswer p m isData = s.msgCase p m 8 := by
  rw [State.snoopAnswer, hx]
  dsimp only
  rw [hc]
  dsimp only
  rw [if_pos]
  rcases hbad with h | h
  · exact .inr (.inl h)
  · exact .inr (.inr (by simp [h]))

theorem State.snoopAnswer_good (hx : s.txn (msgSlice m) (msgTrk m) = some x) (hcopies : x.copies = [c, d])
    (hc : matchCopy m [Op.snpShared, Op.snpUnique, Op.snpOnce, Op.snpMakeInv, Op.snpBackInv] x.copies = some c)
    (hten : m.ten = x.m.ten) (hdirty : msgDirty m = isData) (hlegal : legalAnswer c.op (msgState m) isData = true) :
    s.snoopAnswer p m isData =
      (let s1 := s.setTxn (msgSlice m) (msgTrk m) (some (x.answered c d m))
       let s2 := if !isData then s1
         else if c.toOwner then s1.giveData (msgSlice m) (msgTrk m) (msgLine m 1, msgPoison4 m) true false
         else s1.wrapInc F.SLC_SHED_XDATA_COUNT (msgSlice m)
       s2.moveEngine (msgSlice m) (msgTrk m)) := by
  have herase : x.copies.erase c = [d] := by rw [hcopies, List.erase_cons_head]
  rw [State.snoopAnswer, hx]
  dsimp only
  rw [hc]
  dsimp only
  rw [if_neg (by simp [hten, hdirty, hlegal]), herase]
  rfl

/-- What an answer that matches makes of the transaction. -/
theorem State.snoopAnswer_txn (hx : s.txn (msgSlice m) (msgTrk m) = some x) (hkind : x.kind = .client) (hphase : x.phase = .snoop)
    (hcopies : x.copies = [c, d])
    (hc : matchCopy m [Op.snpShared, Op.snpUnique, Op.snpOnce, Op.snpMakeInv, Op.snpBackInv] x.copies = some c)
    (hten : m.ten = x.m.ten) (hdirty : msgDirty m = isData) (hlegal : legalAnswer c.op (msgState m) isData = true) :
    ∃ y, (s.snoopAnswer p m isData).txn (msgSlice m) (msgTrk m) = some y ∧ y.copies = [d] ∧
      y.xState = (if c.toOwner then msgState m else x.xState) ∧ y.lrec = x.lrec ∧
      (isData = true → c.toOwner = true → y.data = some (msgLine m 1, msgPoison4 m) ∧ y.dirty = true) ∧
      (isData = true → c.toOwner = false → y.data = x.data ∧ (s.snoopAnswer p m isData).fget F.SLC_SHED_XDATA_COUNT (msgSlice m) =
        (s.fget F.SLC_SHED_XDATA_COUNT (msgSlice m) + 1) % 2 ^ F.SLC_SHED_XDATA_COUNT.wid) := by
  rw [State.snoopAnswer_good hx hcopies hc hten hdirty hlegal]
  have htxn := State.txn_setTxn_same s (msgSlice m) (msgTrk m) (some (x.answered c d m))
  cases isData
  · dsimp only
    rw [Bool.not_false, if_pos rfl, State.moveEngine_snooping htxn hkind hphase (by simp [Txn.answered])]
    obtain ⟨r, hr⟩ := (State.wantMem_reads htxn).txn
    exact ⟨_, hr, rfl, rfl, rfl, fun h => absurd h (by simp), fun h => absurd h (by simp)⟩
  · dsimp only
    rw [Bool.not_true, if_neg (by simp)]
    cases howner : c.toOwner
    · rw [if_neg (by simp), if_neg (by simp)]
      have htxn' : ((s.setTxn (msgSlice m) (msgTrk m) (some (x.answered c d m))).wrapInc F.SLC_SHED_XDATA_COUNT (msgSlice m)).txn
          (msgSlice m) (msgTrk m) = some (x.answered c d m) := (State.txn_congr (State.wrapInc_slices _ _ _ _) _ _).trans htxn
      rw [State.moveEngine_snooping htxn' hkind hphase (by simp [Txn.answered])]
      obtain ⟨⟨r, hr⟩, -, hfget⟩ := State.wantMem_reads htxn'
      refine ⟨_, hr, rfl, by simp [Txn.answered, howner], rfl, fun _ h => absurd h (by simp), fun _ _ => ⟨rfl, ?_⟩⟩
      exact (hfget _ (by decide) (by decide) _ _).trans (State.fget_wrapBy_same _ _ _ _ _ (by decide))
    · rw [if_pos rfl, if_pos rfl]
      obtain ⟨r, hr⟩ := (State.giveData_reads htxn (msgLine m 1, msgPoison4 m) true).txn
      rw [State.moveEngine_snooping hr hkind hphase (by simp [Txn.answered, Txn.given])]
      obtain ⟨⟨r', hr'⟩, -, -⟩ := State.wantMem_reads hr
      exact ⟨_, hr', rfl, by simp [Txn.answered, Txn.given, howner], rfl, fun _ _ => ⟨rfl, rfl⟩, fun _ h => absurd h (by simp)⟩

end

/-- Settles O31: the answer changes the transaction that it names, which then waits for the other copy. -/
theorem snoopResponses : Obligations.SnoopResponses := by
  unfold Obligations.SnoopResponses
  intro s v p k t m w row o isData hrow hw hadm hv hk ht
  have hexec : exec row s = .next (s.after (v.snoopAnswer p w isData)) := by
    subst hw hv
    simp only [List.mem_cons, List.not_mem_nil, or_false, Prod.mk.injEq] at hrow
    rcases hrow with ⟨rfl, rfl, rfl⟩ | ⟨rfl, rfl, rfl⟩
    · exact next_message (fun m s => s.snoopAnswer p m false) hadm
    · exact next_message (fun m s => s.snoopAnswer p m true) hadm
  refine ⟨fun hnone => ?_, fun x c d hx hkind hphase hcopies hdst hrange hop hten => ⟨fun hdirty hlegal => ?_, fun hbad => ?_⟩⟩
  · rw [hexec, State.snoopAnswer, msgSlice, msgTrk, ← hk, ← ht, hnone]
  · have hm := matchCopy_first (cs := [d]) hdst hrange (ops := [Op.snpShared, Op.snpUnique, Op.snpOnce, Op.snpMakeInv, Op.snpBackInv]) hop
    rw [← hcopies] at hm
    subst hk ht
    obtain ⟨y, hy, hrest⟩ := State.snoopAnswer_txn (p := p) hx hkind hphase hcopies hm hten hdirty hlegal
    exact ⟨v.snoopAnswer p w isData, y, hexec, hy, hrest⟩
  · have hm := matchCopy_first (cs := [d]) hdst hrange (ops := [Op.snpShared, Op.snpUnique, Op.snpOnce, Op.snpMakeInv, Op.snpBackInv]) hop
    rw [← hcopies] at hm
    subst hk ht
    rw [hexec, State.snoopAnswer_bad hx hm hbad]

end Sys2Proof.Machine
end

section
/-! SUPPORT. How the answers of memory end a read, a write and an offer (06 R226, R241, 10 R397 to R399). -/
namespace Sys2Proof.Machine

section
variable {s : State} {p k t : Nat} {m : Msg} {x : Txn} {r : MemWait} {b : MemOp}

/-- The memory read of a transaction has ended. -/
def Txn.unread (x : Txn) : Txn := { x with memRd := none }

theorem State.endRead_eq (h : s.txn k t = some x) : s.modTxn k t (fun x => { x with memRd := none }) = s.setTxn k t (some x.unread) :=
  State.modTxn_eq h _

/-- A closed entry whose memory read ends in vain frees its tracker, and the waste is counted. -/
theorem State.wasted_frees (hphase : x.phase = .closed) (hops : (s.slice k).memOps = []) :
    (((s.setTxn k t (some x.unread)).wrapInc F.SLC_COH_SPECWASTE_COUNT k).tryFree k t).txn k t = none ∧
      (((s.setTxn k t (some x.unread)).wrapInc F.SLC_COH_SPECWASTE_COUNT k).tryFree k t).fget F.SLC_COH_SPECWASTE_COUNT k =
        (s.fget F.SLC_COH_SPECWASTE_COUNT k + 1) % 2 ^ F.SLC_COH_SPECWASTE_COUNT.wid := by
  have htxn : ((s.setTxn k t (some x.unread)).wrapInc F.SLC_COH_SPECWASTE_COUNT k).txn k t = some x.unread :=
    (State.txn_congr (State.wrapInc_slices _ _ _ _) _ _).trans (State.txn_setTxn_same _ _ _ _)
  have hops' : (((s.setTxn k t (some x.unread)).wrapInc F.SLC_COH_SPECWASTE_COUNT k).slice k).memOps = [] := by
    rw [State.wrapInc_slice, State.setTxn_memOps, hops]
  rw [State.tryFree_closed htxn hphase rfl hops']
  refine ⟨?_, ?_⟩
  · rw [State.txn_congr (State.react_slices _ _), State.txn_congr (State.react_slices _ _), State.txn_setTxn_same]
  · rw [State.react_fget, State.react_fget, State.setTxn_fget, State.wrapInc, State.fget_wrapBy_same _ _ _ _ _ (by decide)]
    rfl

/-- Data that a closed entry has no use for (06 R226). -/
theorem State.memData_closed (hx : s.txn (msgSlice m) (msgTrk m) = some x) (hr : x.memRd = some r) (hten : m.ten = x.m.ten)
    (hopen : x.opened = false) : s.memData p m =
      ((s.setTxn (msgSlice m) (msgTrk m) (some x.unread)).wrapInc F.SLC_COH_SPECWASTE_COUNT (msgSlice m)).tryFree (msgSlice m) (msgTrk m) := by
  have hunused : x.dataUnused = true := by simp [Txn.dataUnused, hopen]
  rw [State.memData, hx]
  dsimp only
  rw [hr]
  dsimp only
  rw [if_neg (by simp [hten]), if_pos (by simp [hunused]), if_neg (by simp [hopen]), State.endRead_eq hx]

/-- The end of a cancelled read of a closed entry (05 R178). -/
theorem State.memCancelled_closed (hx : s.txn (msgSlice m) (msgTrk m) = some x) (hr : x.memRd = some r) (hten : m.ten = x.m.ten)
    (hcancel : r.cancelled = true) (hopen : x.opened = false) : s.memCancelled p m =
      ((s.setTxn (msgSlice m) (msgTrk m) (some x.unread)).wrapInc F.SLC_COH_SPECWASTE_COUNT (msgSlice m)).tryFree (msgSlice m) (msgTrk m) := by
  rw [State.memCancelled, hx]
  dsimp only
  rw [hr]
  dsimp only
  rw [if_neg (by simp [hten, hcancel]), if_neg (by simp [hopen]), State.endRead_eq hx]

/-- Data that a client's transaction waits for, while a snoop is to be answered, is given to it (06 R226). -/
theorem State.memData_used {d : Copy} (hx : s.txn (msgSlice m) (msgTrk m) = some x) (hr : x.memRd = some r) (hten : m.ten = x.m.ten)
    (hcancel : r.cancelled = false) (hused : x.dataUnused = false) (hkind : x.kind = .client)
    (hpend : s.wrPending (msgSlice m) x.line = false) (hcopies : x.copies = [d]) (hphase : x.phase = .snoop) :
    (s.memData p m).txn (msgSlice m) (msgTrk m) = some { x with
      memRd := none, specHeld := r.spec, data := some (msgLine m 1, msgPoison4 m), dirty := false, fromMem := true } := by
  have hread := State.txn_setTxn_same s (msgSlice m) (msgTrk m) (some x.unread)
  have hspec := State.txn_setTxn_same (s.setTxn (msgSlice m) (msgTrk m) (some x.unread)) (msgSlice m) (msgTrk m)
    (some { x.unread with specHeld := r.spec })
  rw [State.memData, hx]
  dsimp only
  rw [hr]
  dsimp only
  rw [if_neg (by simp [hten]), if_neg (by simp [hcancel, hused, hpend]), if_neg (by simp [hkind]), State.endRead_eq hx,
    State.modTxn_eq hread, State.giveData_fromMem hspec]
  have hgiven := State.txn_setTxn_same
    ((s.setTxn (msgSlice m) (msgTrk m) (some x.unread)).setTxn (msgSlice m) (msgTrk m) (some { x.unread with specHeld := r.spec }))
    (msgSlice m) (msgTrk m) (some (Txn.given { x.unread with specHeld := r.spec } (msgLine m 1, msgPoison4 m) false true))
  rw [State.moveEngine_snooping hgiven hkind hphase (by simp [Txn.given, Txn.unread, hcopies]), State.wantMem_held hgiven rfl, hgiven]
  simp [Txn.given, Txn.unread]

/-! ## Memory operations -/

/-- Slice `k` without the memory operation that was its only one. -/
def State.noOps (s : State) (k : Nat) : State := s.modSlice k (fun c => { c with memOps := [] })

theorem State.noOps_memOps (s : State) (k : Nat) : ((s.noOps k).slice k).memOps = [] := by rw [State.noOps, State.slice_modSlice_same]

theorem State.noOps_trk (s : State) (k : Nat) : ((s.noOps k).slice k).trk = (s.slice k).trk := by
  rw [State.noOps, State.slice_modSlice_same]

theorem State.noOps_frame (s : State) (k set w : Nat) : (s.noOps k).frame k set w = s.frame k set w := by
  rw [State.frame, State.noOps, State.slice_modSlice_same, State.frame]

theorem State.erase_op (h : (s.slice k).memOps = [b]) : s.modSlice k (fun c => { c with memOps := c.memOps.erase b }) = s.noOps k := by
  rw [State.noOps, State.modSlice, State.modSlice, h, List.erase_cons_head]

theorem State.frame_setFrame_same (s : State) (k set w : Nat) (f : Frame) : (s.setFrame k set w f).frame k set w = f := by
  rw [State.frame, State.setFrame, State.slice_modSlice_same, spGet_spSet, if_pos rfl]

theorem State.setFrame_trk (s : State) (k set w : Nat) (f : Frame) : ((s.setFrame k set w f).slice k).trk = (s.slice k).trk := by
  rw [State.setFrame, State.slice_modSlice_same]

theorem State.setFrame_memOps (s : State) (k set w : Nat) (f : Frame) : ((s.setFrame k set w f).slice k).memOps = (s.slice k).memOps := by
  rw [State.setFrame, State.slice_modSlice_same]

/-- What is left of the end of a memory operation in a slice without trackers. -/
theorem State.idle_after_op (h : (s.slice k).trk = []) (n : Nat) (a : Addr) :
    ((((s.tryFree k n).retryMem k a).slice k).trk.foldl (fun (s : State) e => s.sweepEnd k e.1) ((s.tryFree k n).retryMem k a)) = s := by
  have hfree : s.tryFree k n = s := by
    rw [State.tryFree, State.txn, h]
    rfl
  rw [hfree, State.retryMem, h]
  dsimp only [List.foldl_nil]
  rw [h]
  rfl

/-- The end of a write that makes no frame clean, retires none and belongs to no range engine. -/
theorem State.memOpEnd_plain (hops : (s.slice k).memOps = [b]) (hret : b.retire = none) (hctx : b.ctx = none)
    (htrk : (s.slice k).trk = []) (hclean : b.clean = none) (ok : Bool) : s.memOpEnd k b ok = s.noOps k := by
  rw [State.memOpEnd, hclean, hret, hctx, State.erase_op hops]
  exact State.idle_after_op ((s.noOps_trk k).trans htrk) _ _

/-- The end of a write that makes a sub-block clean which still holds its line (10 R410). -/
theorem State.memOpEnd_cleans {set way i : Nat} (hops : (s.slice k).memOps = [b]) (hret : b.retire = none) (hctx : b.ctx = none)
    (htrk : (s.slice k).trk = []) (hclean : b.clean = some (set, way, i, false)) (hdead : b.dead = false)
    (hvalid : (tagV (s.frame k set way).tag).getLsbD i = true) (hline : subAddr set (s.frame k set way).tag i = b.line) :
    s.memOpEnd k b true = (s.noOps k).setFrame k set way ((s.frame k set way).cleanSub i) := by
  rw [State.memOpEnd, hclean, hret, hctx, State.erase_op hops]
  dsimp only
  rw [State.noOps_frame, if_pos (by simp [hvalid, hline, hdead]), if_neg (by simp)]
  exact State.idle_after_op ((State.setFrame_trk _ _ _ _ _).trans ((s.noOps_trk k).trans htrk)) _ _

theorem State.send_memOps {m : Msg} (hm : opClass m.op ≠ 1 ∧ opClass m.op ≠ 5) (u : State) (k : Nat) :
    ((u.send m).slice k).memOps = (u.slice k).memOps := by
  unfold State.send
  split
  · rw [State.sendOn_slice]
  · rw [State.startTimer_quiet _ hm, State.bump_slice]

/-- A write sent to memory is kept until it is acknowledged. -/
theorem State.sendMemWr_memOps (s : State) (k : Nat) (o : MemOp) : ((s.sendMemWr k o).slice k).memOps = (s.slice k).memOps ++ [o] := by
  have hmod : ((s.modSlice k (fun c => { c with memOps := c.memOps ++ [o] })).slice k).memOps = (s.slice k).memOps ++ [o] := by
    rw [State.slice_modSlice_same]
  unfold State.sendMemWr State.toMemory
  split
  · exact hmod
  · refine Eq.trans ?_ hmod
    exact State.send_memOps (show opClass Op.memWr ≠ 1 ∧ opClass Op.memWr ≠ 5 by decide) _ _

/-- An accepted offer whose copy still stands becomes a write (10 R399). -/
theorem State.offerEnd_accepted (hops : (s.slice k).memOps = [b]) (hdead : b.dead = false) : s.offerEnd k b true =
    ((s.noOps k).bump F.SLC_HC_OFFER_ACCEPT k).sendMemWr k { b with offer := false, deadline := s.now + s.snpTmo b.ten } := by
  rw [State.offerEnd, State.erase_op hops]
  dsimp only
  rw [Bool.not_true, if_neg (by simp), if_neg (by simp [hdead]), if_pos rfl]

theorem State.offerEnd_declined (hops : (s.slice k).memOps = [b]) :
    s.offerEnd k b false = (s.noOps k).bump F.SLC_HC_OFFER_DECLINE k := by
  rw [State.offerEnd, State.erase_op hops]
  dsimp only
  rw [Bool.not_false, if_pos rfl, if_neg (by simp)]

end

end Sys2Proof.Machine
end

section
/-! The statement about the answers of memory (06 R226, R241, 10 R397 to R399). -/
namespace Sys2Proof.Machine

/-- Settles O33: the answer ends the read, the write or the offer that it names, and is counted when there is none. -/
theorem memoryAnswers : Obligations.MemoryAnswers := by
  unfold Obligations.MemoryAnswers
  intro s v p k t m w o hw hadm hv hk ht
  subst hk ht
  have hdata (ho : o = Op.memData) : exec (.memData p m) s = .next (s.after (v.memData p w)) := by
    subst ho hv
    exact next_taken (fun m s => s.memData p m) hw hadm
  have hcancelled (ho : o = Op.memCancelled) : exec (.memCancelled p m) s = .next (s.after (v.memCancelled p w)) := by
    subst ho hv
    exact next_taken (fun m s => s.memCancelled p m) hw hadm
  have hack (ho : o = Op.memWrAck) : exec (.memWrAck p m) s = .next (s.after (v.memWrAck p w)) := by
    subst ho hv
    exact next_taken (fun m s => s.memWrAck p m) hw hadm
  have hoffer (ho : o = Op.memOfferRsp) : exec (.memOfferRsp p m) s = .next (s.after (v.memOfferRsp p w)) := by
    subst ho hv
    exact next_taken (fun m s => s.memOfferRsp p m) hw hadm
  refine ⟨fun hnone => ⟨fun ho => ?_, fun ho => ?_⟩, fun x r d ho hx hr hten hcancel hused hkind hpend hcopies hphase => ?_,
    fun x r hx hr hten hopen hphase hops => ⟨fun ho => ?_, fun ho hcancel => ?_⟩, fun hops => ⟨fun ho => ?_, fun ho => ?_⟩,
    fun b hops htag hten hret hctx htrk => ⟨fun ho hwr hclean => ?_, fun set way i ho hwr hdead hclean hvalid hline => ?_,
      fun ho hof hdead hacc => ?_, fun ho hof hdec => ?_⟩⟩
  · rw [hdata ho, State.memData, msgSlice, msgTrk, hnone]
  · rw [hcancelled ho, State.memCancelled, msgSlice, msgTrk, hnone]
  · exact ⟨v.memData p w, hdata ho, State.memData_used hx hr hten hcancel hused hkind hpend hcopies hphase⟩
  · refine ⟨v.memData p w, hdata ho, ?_⟩
    rw [State.memData_closed hx hr hten hopen]
    exact State.wasted_frees hphase hops
  · refine ⟨v.memCancelled p w, hcancelled ho, ?_⟩
    rw [State.memCancelled_closed hx hr hten hcancel hopen]
    exact State.wasted_frees hphase hops
  · rw [hack ho, State.memWrAck, msgSlice, hops]
    rfl
  · rw [hoffer ho, State.memOfferRsp, msgSlice, hops]
    rfl
  · have hfind : (v.slice (msgSlice w)).memOps.find? (fun o => o.tag == w.tag && o.ten == w.ten && !o.offer) = some b := by
      rw [msgSlice, hops]
      simp [htag, hten, hwr]
    rw [hack ho, State.memWrAck, hfind]
    exact congrArg (fun u => Host.Outcome.next (s.after u)) (State.memOpEnd_plain hops hret hctx htrk hclean true)
  · have hfind : (v.slice (msgSlice w)).memOps.find? (fun o => o.tag == w.tag && o.ten == w.ten && !o.offer) = some b := by
      rw [msgSlice, hops]
      simp [htag, hten, hwr]
    refine ⟨_, hack ho, ?_⟩
    rw [State.memWrAck, hfind]
    dsimp only
    rw [msgSlice, State.memOpEnd_cleans hops hret hctx htrk hclean hdead hvalid hline]
    exact ⟨(State.setFrame_memOps _ _ _ _ _).trans (v.noOps_memOps _), State.frame_setFrame_same _ _ _ _ _⟩
  · have hfind : (v.slice (msgSlice w)).memOps.find? (fun o => o.tag == w.tag && o.ten == w.ten && o.offer) = some b := by
      rw [msgSlice, hops]
      simp [htag, hten, hof]
    refine ⟨_, hoffer ho, ?_⟩
    rw [State.memOfferRsp, hfind]
    dsimp only
    rw [msgSlice, hacc, State.offerEnd_accepted hops hdead]
    refine ⟨?_, ?_⟩
    · rw [State.sendMemWr_memOps, State.bump_slice, State.noOps_memOps]
      rfl
    · rw [((State.Aside.refl _).sendMemWr _ _).fget _ (by decide), State.bump, State.fget_bumpBy_same _ _ _ _ _ (by decide)]
      rfl
  · have hfind : (v.slice (msgSlice w)).memOps.find? (fun o => o.tag == w.tag && o.ten == w.ten && o.offer) = some b := by
      rw [msgSlice, hops]
      simp [htag, hten, hof]
    refine ⟨_, hoffer ho, ?_⟩
    rw [State.memOfferRsp, hfind]
    dsimp only
    rw [msgSlice, hdec, State.offerEnd_declined hops]
    refine ⟨?_, ?_⟩
    · rw [State.bump_slice, State.noOps_memOps]
    · rw [State.bump, State.fget_bumpBy_same _ _ _ _ _ (by decide)]
      rfl

end Sys2Proof.Machine
end

section
/-! The statement about the answers to recovery and census messages (06 R239, 09 R370, R374). -/
namespace Sys2Proof.Machine

section
variable {s : State} {p k t : Nat} {m : Msg} {x : Txn} {c d : Copy}

/-- The transaction without recovery messages to be answered. -/
def Txn.recovered (x : Txn) : Txn := { x with seized := [] }

/-- The transaction that waits for copy `d` alone. -/
def Txn.awaits (x : Txn) (d : Copy) : Txn := { x with copies := [d] }

theorem State.consumed_eq (hx : s.txn k t = some x) (hs : x.seized = [c]) :
    s.modTxn k t (fun x => { x with seized := x.seized.erase c }) = s.setTxn k t (some x.recovered) := by
  rw [State.modTxn_eq hx, hs, List.erase_cons_head]
  rfl

/-- A SeizeAck takes its notice off the list, and closes the entry of a requester that is seized (06 R237, R239). -/
theorem State.seizeAck_eq (hx : s.txn (msgSlice m) (msgTrk m) = some x) (hs : x.seized = [c]) (hop : c.op = Op.seizeNotice)
    (hdst : c.dst = m.src) (hten : m.ten = x.copyTen c) : s.seizeAck p m =
      if x.phase = .seizeClose ∧ m.src = x.m.src then (s.setTxn (msgSlice m) (msgTrk m) (some x.recovered)).seizeClose (msgSlice m) (msgTrk m)
      else s.setTxn (msgSlice m) (msgTrk m) (some x.recovered) := by
  have hfind : x.seized.find? (fun c => c.op == Op.seizeNotice && c.dst == m.src) = some c := by simp [hs, hop, hdst]
  rw [State.seizeAck, hx]
  dsimp only
  rw [hfind]
  dsimp only
  rw [if_neg (by simp [hten]), State.consumed_eq hx hs]

theorem State.seizeClose_closes (hx : s.txn k t = some x) (hphase : x.phase = .seizeClose) :
    ∀ y, (s.seizeClose k t).txn k t = some y → y.opened = false ∧ y.phase = .closed := by
  intro y hy
  rw [State.seizeClose, hx] at hy
  dsimp only at hy
  rw [if_pos hphase] at hy
  have hclose : (s.winClose (s.winSlice x.m) x.m .expired).txn k t = some x := hx
  rcases State.closeTxn_txn hclose with h | h
  · exact absurd (h.symm.trans hy) (by simp)
  · obtain rfl := Option.some.inj (h.symm.trans hy)
    exact ⟨rfl, rfl⟩

/-- A RcvInvRsp of a recall takes its copy off the list and writes what is dirty at the home (09 R370). -/
theorem State.rcvInvRsp_recall (hx : s.txn (msgSlice m) (msgTrk m) = some x) (hkind : x.kind = .client) (hphase : x.phase = .recall)
    (hcopies : x.copies = [c, d]) (hop : c.op = Op.rcvInv) (hdst : c.dst = m.src) (hrange : c.range = msgAgg m) (hten : m.ten = x.m.ten) :
    s.rcvInvRsp p m = if msgDirty m then (s.setTxn (msgSlice m) (msgTrk m) (some (x.awaits d))).hcWriteLine (msgSlice m) c.line x.m.ten
        (msgLine m 1) (msgPoison4 m) (BitVec.ofNat 12 (msgTrk m)) true
      else s.setTxn (msgSlice m) (msgTrk m) (some (x.awaits d)) := by
  have hmatch : matchCopy m [Op.rcvInv] x.copies = some c := by
    rw [hcopies]
    exact matchCopy_first hdst hrange (by simp [hop])
  have hcopyTen : x.copyTen c = x.m.ten := by rw [Txn.copyTen, hkind]
  have herase : x.copies.erase c = [d] := by rw [hcopies, List.erase_cons_head]
  have hset := State.txn_setTxn_same s (msgSlice m) (msgTrk m) (some (x.awaits d))
  rw [State.rcvInvRsp, hx]
  dsimp only
  rw [hmatch]
  dsimp only
  rw [hcopyTen, if_neg (by simp [hten]), herase]
  change State.moveEngine (if msgDirty m = true then (s.setTxn (msgSlice m) (msgTrk m) (some (x.awaits d))).hcWriteLine (msgSlice m) c.line
    x.m.ten (msgLine m 1) (msgPoison4 m) (BitVec.ofNat 12 (msgTrk m)) true else s.setTxn (msgSlice m) (msgTrk m) (some (x.awaits d))) _ _ = _
  split
  · exact State.moveEngine_recalling ((((State.Aside.refl _).hcWriteLine _ _ _ _ _ _ _).txn _ _).trans hset) hkind hphase (by simp [Txn.awaits])
  · exact State.moveEngine_recalling hset hkind hphase (by simp [Txn.awaits])

/-- A RcvInvRsp to a recovery message alone is consumed (06 R239). -/
theorem State.rcvInvRsp_recovery (hx : s.txn (msgSlice m) (msgTrk m) = some x) (hcopies : x.copies = []) (hs : x.seized = [c])
    (hop : c.op = Op.rcvInv) (hdst : c.dst = m.src) (hrange : c.range = msgAgg m) (hten : m.ten = x.copyTen c) :
    s.rcvInvRsp p m = s.setTxn (msgSlice m) (msgTrk m) (some x.recovered) := by
  have hnone : matchCopy m [Op.rcvInv] x.copies = none := by rw [hcopies]; rfl
  have hmatch : matchCopy m [Op.rcvInv] x.seized = some c := by
    rw [hs]
    exact matchCopy_first hdst hrange (by simp [hop])
  rw [State.rcvInvRsp, hx]
  dsimp only
  rw [hnone]
  dsimp only
  rw [hmatch]
  dsimp only
  rw [if_neg (by simp [hten]), State.consumed_eq hx hs]

/-- The record of a line with what an exact census answer says of its node (09 R374). -/
def censusRec (cfg : TenCfg) (st : BitVec 3) (n : Node) (r : LineRec) : LineRec :=
  if st = stUC ∨ st = stUD ∨ st = stO then { r with own := some n }
  else if st = stS then { r with sh := addSharer cfg r.sh n } else r

/-- An exact census answer takes its copy off the list and contributes to the record of its line. -/
theorem State.censusRsp_exact {l n : Nat} {r : LineRec} (hx : s.txn (msgSlice m) (msgTrk m) = some x) (hkind : x.kind = .census l)
    (hscope : x.scope = .sfSet n) (hcopies : x.copies = [c, d]) (hop : c.op = Op.censusSnp) (hexact : c.range = false)
    (hdst : c.dst = m.src) (hagg : msgAgg m = false) (hreb : x.rebuilt = [(c.line, m.ten, r)]) :
    ∃ y, (s.censusRsp p m).txn (msgSlice m) (msgTrk m) = some y ∧ y.copies = [d] ∧
      y.rebuilt = [(c.line, m.ten, censusRec (s.ten m.ten) (msgState m) c.dst r)] := by
  have hcopyTen : x.copyTen c = m.ten := by simp [Txn.copyTen, hkind, hreb]
  have hmatch : matchCopy m [Op.censusSnp] (x.copies.filter (fun c => x.copyTen c == m.ten)) = some c := by
    rw [hcopies, List.filter_cons_of_pos (by simp [hcopyTen])]
    exact matchCopy_first hdst (hexact.trans hagg.symm) (by simp [hop])
  have herase : x.copies.erase c = [d] := by rw [hcopies, List.erase_cons_head]
  rw [State.censusRsp, hx]
  dsimp only
  rw [hmatch]
  dsimp only
  rw [herase, State.modRebuilt, State.modTxn_eq (State.txn_setTxn_same _ _ _ _)]
  refine ⟨_, (congrArg (fun u : State => u.txn (msgSlice m) (msgTrk m))
    (State.moveEngine_census (l := l) (n := n) (State.txn_setTxn_same _ _ _ _) ?_ ?_ ?_)).trans
      (State.txn_setTxn_same _ _ _ _), rfl, ?_⟩
  · exact hkind
  · exact hscope
  · simp
  dsimp only
  rw [hreb]
  simp only [hexact, censusRec, List.map_cons, List.map_nil, Bool.or_eq_true, beq_iff_eq]
  simp [or_assoc]

end

/-- Settles O34: the answer ends what it names, and is counted when that awaits none. -/
theorem recoveryAnswers : Obligations.RecoveryAnswers := by
  unfold Obligations.RecoveryAnswers
  intro s v p k t m w o x hw hadm hv hk ht hx
  subst hk ht
  have hack (ho : o = Op.seizeAck) : exec (.seizeAck p m) s = .next (s.after (v.seizeAck p w)) := by
    subst ho hv
    exact next_taken (fun m s => s.seizeAck p m) hw hadm
  have hinv (ho : o = Op.rcvInvRsp) : exec (.rcvInvRsp p m) s = .next (s.after (v.rcvInvRsp p w)) := by
    subst ho hv
    exact next_taken (fun m s => s.rcvInvRsp p m) hw hadm
  have hcensus (ho : o = Op.censusRsp) : exec (.censusRsp p m) s = .next (s.after (v.censusRsp p w)) := by
    subst ho hv
    exact next_taken (fun m s => s.censusRsp p m) hw hadm
  refine ⟨fun c ho hs hop hdst hten hphase => ?_, fun c ho hs hop hdst hten hphase hsrc => ?_, fun ho hs => ?_,
    fun c d ho hkind hphase hcopies hop hdst hrange hten => ⟨fun hdirty => ?_, fun hdirty => ?_⟩,
    fun c ho hcopies hs hop hdst hrange hten => ?_,
    fun l n c d r ho hkind hscope hcopies hop hexact hdst hagg hreb => ?_⟩
  · rw [hack ho, State.seizeAck_eq hx hs hop hdst hten, if_neg (fun h => hphase h.1)]
    rfl
  · refine ⟨v.seizeAck p w, hack ho, ?_⟩
    rw [State.seizeAck_eq hx hs hop hdst hten, if_pos ⟨hphase, hsrc⟩]
    exact State.seizeClose_closes (State.txn_setTxn_same _ _ _ _) hphase
  · have hx' : v.txn (msgSlice w) (msgTrk w) = some x := hx
    rw [hack ho, State.seizeAck, hx']
    dsimp only
    rw [hs]
    rfl
  · rw [hinv ho, State.rcvInvRsp_recall hx hkind hphase hcopies hop hdst hrange hten, if_neg (by simp [hdirty])]
    rfl
  · rw [hinv ho, State.rcvInvRsp_recall hx hkind hphase hcopies hop hdst hrange hten, if_pos hdirty]
    rfl
  · rw [hinv ho, State.rcvInvRsp_recovery hx hcopies hs hop hdst hrange hten]
    rfl
  · obtain ⟨y, hy, hcop, hrec⟩ := State.censusRsp_exact (p := p) hx hkind hscope hcopies hop hexact hdst hagg hreb
    exact ⟨v.censusRsp p w, y, hcensus ho, hy, hcop, hrec⟩

end Sys2Proof.Machine
end

section
/-! The statement about completions, memory and holds that time out (06 R237, R238, R325, 07 R268, 10 R395 to R399). -/
namespace Sys2Proof.Machine

section
variable {s : State} {k t : Nat} {x : Txn} {b : MemOp}

/-! ## Recovery messages -/

/-- From `s` to `u` transaction `t` of slice `k` stays one, no time passes, and a register field beside the counts reads as before. -/
structure State.Alerts (s u : State) (k t : Nat) : Prop where
  txn : (s.txn k t).isSome = true → (u.txn k t).isSome = true
  now : u.now = s.now
  fget : ∀ g : Fld, g.apartAside = true → ∀ i j, u.fget g i j = s.fget g i j

theorem State.Alerts.trans {u v : State} (h : s.Alerts u k t) (g : u.Alerts v k t) : s.Alerts v k t :=
  ⟨fun hs => g.txn (h.txn hs), g.now.trans h.now, fun f hf i j => (g.fget f hf i j).trans (h.fget f hf i j)⟩

theorem State.Aside.alerts {u : State} (h : s.Aside u) (k t : Nat) : s.Alerts u k t :=
  ⟨fun hs => by rw [h.txn]; exact hs, h.now, h.fget⟩

theorem State.setTxn_alerts (s : State) (i j : Nat) (y : Txn) (k t : Nat) : s.Alerts (s.setTxn i j (some y)) k t := by
  refine ⟨fun hs => ?_, rfl, fun _ _ _ _ => rfl⟩
  by_cases hk : k = i
  · subst hk
    by_cases ht : t = j
    · subst ht
      rw [State.txn_setTxn_same]
      rfl
    · rw [State.txn_setTxn_other _ _ ht]
      exact hs
  · rw [State.txn, State.setTxn, State.slice_modSlice, if_neg (Ne.symm hk)]
    exact hs

theorem State.startTimer_alerts (s : State) (m : Msg) (k t : Nat) : s.Alerts (s.startTimer m) k t := by
  unfold State.startTimer
  split
  · exact (State.Aside.refl s).alerts k t
  · dsimp only
    split
    · exact (State.Aside.refl s).alerts k t
    · split
      · exact s.setTxn_alerts _ _ _ k t
      · exact (State.Aside.refl s).alerts k t

theorem State.send_alerts (s : State) (m : Msg) (k t : Nat) : s.Alerts (s.send m) k t := by
  unfold State.send
  split
  · next p _ => exact ((State.Aside.refl s).same (v := s.sendOn p m) rfl rfl rfl rfl).alerts k t
  · exact (((State.Aside.refl s).bump (by decide) _).alerts k t).trans (State.startTimer_alerts _ m k t)

theorem State.modTxn_alerts (s : State) (i j : Nat) (f : Txn → Txn) (k t : Nat) : s.Alerts (s.modTxn i j f) k t := by
  unfold State.modTxn
  split
  · exact s.setTxn_alerts _ _ _ k t
  · exact (State.Aside.refl s).alerts k t

theorem State.sendRecovery_alerts (s : State) (k t : Nat) (ten : Tenant) (op : BitVec 8) (a : Addr) (dst : Node) (n : Nat) (range : Bool) :
    s.Alerts (s.sendRecovery k t ten op a dst n range) k t :=
  (s.modTxn_alerts k t _ k t).trans (State.send_alerts _ _ k t)

theorem State.foldl_alerts {α : Type} {f : State → α → State} (h : ∀ (s : State) a, s.Alerts (f s a) k t) (xs : List α) (s : State) :
    s.Alerts (xs.foldl f s) k t := by
  induction xs generalizing s with
  | nil => exact (State.Aside.refl s).alerts k t
  | cons a xs ih => exact (h s a).trans (ih (f s a))

/-- What a seizure records: its kind, and one more in its count. -/
theorem State.seizeEvent_fget (s : State) (k kind j : Nat) (a : Addr) (ten : Tenant) (n : Nat) (node : Node) (hkind : kind < 4) :
    (s.seizeEvent k F.SLC_COH_SEIZECNT_SETTLE kind j a ten n node).fget F.SLC_COH_SEIZECNT_SETTLE k =
        min (s.fget F.SLC_COH_SEIZECNT_SETTLE k + 1) (onesMask F.SLC_COH_SEIZECNT_SETTLE.wid) ∧
      (s.seizeEvent k F.SLC_COH_SEIZECNT_SETTLE kind j a ten n node).fget F.SLC_COH_LASTSEIZE0_KIND k = kind := by
  unfold State.seizeEvent
  dsimp only
  refine ⟨?_, ?_⟩
  · rw [((State.Aside.refl _).raise _ _ _).fget _ (by decide)]
    simp (disch := decide) only [State.setFlag, State.bump, State.fget_fset_beside, State.fget_bumpBy_same]
  · rw [((State.Aside.refl _).raise _ _ _).fget _ (by decide)]
    simp (disch := decide) only [State.setFlag, State.fget_fset_beside, State.fget_fset_same]
    exact Nat.mod_eq_of_lt hkind

theorem State.seizeEvent_slices (s : State) (k : Nat) (f : Fld) (kind j : Nat) (a : Addr) (ten : Tenant) (n : Nat) (node : Node) :
    (s.seizeEvent k f kind j a ten n node).slices = s.slices := by
  simp only [State.seizeEvent, State.raise_slices, State.fset_slices, State.setFlag_slices, State.bump_slices]

theorem State.seizeEvent_now (s : State) (k : Nat) (f : Fld) (kind j : Nat) (a : Addr) (ten : Tenant) (n : Nat) (node : Node) :
    (s.seizeEvent k f kind j a ten n node).now = s.now := by
  simp only [State.seizeEvent, State.raise_now, State.fset_now, State.setFlag_now, State.bump_now]

/-! ## Contained errors -/

theorem State.notice_memOps (s : State) (n : Notice) (k : Nat) : ((s.notice n).slice k).memOps = (s.slice k).memOps := by
  unfold State.notice
  split
  · rfl
  · refine (State.send_memOps (show opClass Op.faultNotice ≠ 1 ∧ opClass Op.faultNotice ≠ 5 by decide) _ _).trans ?_
    rw [State.wrapInc_slice]

/-- What a contained error of a tenant leaves of the memory operations, and the fault bit that it sets. -/
theorem State.contained_memOps (s : State) (c w : BitVec 8) (t : Tenant) (a : Option Addr) (k : Nat) :
    ((s.contained c w t a none).slice k).memOps = (s.slice k).memOps := by
  unfold State.contained
  dsimp only
  split
  · rw [State.react_slice, State.setTFatal_slice, State.notice_memOps, State.setFlag_slice, State.raiseSafety_slice, State.logEntry_slice,
      State.bump_slice]
  · rw [State.setTFatal_slice, State.notice_memOps, State.setFlag_slice, State.raiseSafety_slice, State.logEntry_slice,
      State.bump_slice]

theorem State.contained_flag (s : State) (c w : BitVec 8) (t : Tenant) (a : Option Addr) :
    (s.contained c w t a none).flag F.SAF_FAULT_CONTAINED = true := by
  have htail (u : State) (n : Notice) :
      (((u.setFlag F.SAF_FAULT_CONTAINED true).notice n).setTFatal t true).flag F.SAF_FAULT_CONTAINED = true := by
    rw [State.flag, State.setTFatal_fget _ _ _ _ _ _ (by decide) (by decide), State.notice_fget _ _ _ _ _ (by decide) (by decide)]
    exact State.flag_setFlag_same u _ true 0 0 (by decide) (by decide)
  unfold State.contained
  dsimp only
  split
  · rw [State.flag, State.react_fget]
    exact htail _ _
  · exact htail _ _

/-! ## Reads that end without data -/

theorem State.cancelMemRd_unread (h : s.txn k t = some x) (hr : x.memRd = none) : s.cancelMemRd k t = s := by
  rw [State.cancelMemRd, h]
  dsimp only
  rw [hr]

/-- Data given to a transaction that reads no memory. -/
theorem State.giveData_unread (h : s.txn k t = some x) (hr : x.memRd = none) (d : Line × BitVec 4) (dirty : Bool) :
    (s.giveData k t d dirty false).txn k t = some (x.given d dirty false) := by
  rw [State.giveData_eq h]
  simp only [Bool.not_false, Bool.true_and, Bool.false_eq_true, if_false]
  have hgiven := State.txn_setTxn_same s k t (some (x.given d dirty false))
  split
  · have hwaste : ((s.setTxn k t (some (x.given d dirty false))).wrapInc F.SLC_COH_SPECWASTE_COUNT k).txn k t = some (x.given d dirty false) :=
      (State.txn_congr (State.wrapInc_slices _ _ _ _) k t).trans hgiven
    rw [State.cancelMemRd_unread hwaste hr, hwaste]
  · rw [State.cancelMemRd_unread hgiven hr, hgiven]

/-- A closed transaction is not open. -/
theorem State.closeTxn_closes (h : s.txn k t = some x) : ∀ y, (s.closeTxn k t).txn k t = some y → y.opened = false ∧ y.phase = .closed := by
  intro y hy
  rcases State.closeTxn_txn h with hnone | hclosed
  · exact absurd (hnone.symm.trans hy) (by simp)
  · obtain rfl := Option.some.inj (hclosed.symm.trans hy)
    exact ⟨rfl, rfl⟩

theorem State.winClose_txn (s : State) (l : Nat) (m : Msg) (st : WState) (k t : Nat) : (s.winClose l m st).txn k t = s.txn k t := rfl
theorem State.winClose_now (s : State) (l : Nat) (m : Msg) (st : WState) : (s.winClose l m st).now = s.now := rfl
theorem State.winClose_fget (s : State) (l : Nat) (m : Msg) (st : WState) (g : Fld) (i j : Nat) :
    (s.winClose l m st).fget g i j = s.fget g i j := rfl

theorem State.fget_closeTxn (s : State) (k t : Nat) (g : Fld) (i j : Nat) : (s.closeTxn k t).fget g i j = s.fget g i j := by
  rw [State.fget, State.fget, State.word, State.word, State.closeTxn_regs]

/-! ## The timeouts -/

/-- The state in which a requester that sent no CompAck is seized: the recovery messages are sent and its line's record is written. -/
def State.seizeNoticed (s : State) (k t : Nat) (x : Txn) : State :=
  let s1 := x.rcSent.foldl (fun (s : State) c => s.sendRecovery k t x.m.ten Op.rcvInv x.line c.dst c.k c.range) (s.until x.ackBy)
  (s1.sendRecovery k t x.m.ten Op.seizeNotice x.line x.m.src 0 false).putNow k x.line x.m.ten
    { own := none, sh := x.rcSent.foldl (fun sh c => addBlock (s.ten x.m.ten) sh c.dst (if c.range then c.k else 0)) x.lrec.sh }

theorem State.seizeNoticed_alerts (s : State) (k t : Nat) (x : Txn) : (s.until x.ackBy).Alerts (s.seizeNoticed k t x) k t :=
  ((State.foldl_alerts (fun u _ => u.sendRecovery_alerts k t _ _ _ _ _ _) _ _).trans (State.sendRecovery_alerts _ _ _ _ _ _ _ _ _)).trans
    (((State.Aside.refl _).putNow _ _ _ _).alerts k t)

/-- The transaction that waits for a SeizeAck until time `due`. -/
def Txn.seizing (x : Txn) (due : Time) : Txn := { x with phase := .seizeClose, ackBy := due }

theorem State.settleTimeout_eq (h : s.txn k t = some x) (hphase : x.phase = .settle) : s.settleTimeout k t =
    ((s.seizeNoticed k t x).seizeEvent k F.SLC_COH_SEIZECNT_SETTLE 2 2 x.line x.m.ten 0 x.m.src).modTxn k t
      (·.seizing ((s.seizeNoticed k t x).now + (s.seizeNoticed k t x).snpTmo x.m.ten)) := by
  rw [State.settleTimeout, h]
  dsimp only
  rw [if_neg (by simp [hphase])]
  rfl

/-- A requester without CompAck is seized (06 R237). -/
theorem State.settleTimeout_seizes (h : s.txn k t = some x) (hphase : x.phase = .settle) :
    ∃ y, (s.settleTimeout k t).txn k t = some y ∧ y.phase = .seizeClose ∧ (s.settleTimeout k t).now = max s.now x.ackBy ∧
      y.ackBy = (s.settleTimeout k t).now + s.snpTmo x.m.ten ∧
      (s.settleTimeout k t).fget F.SLC_COH_SEIZECNT_SETTLE k =
        min (s.fget F.SLC_COH_SEIZECNT_SETTLE k + 1) (onesMask F.SLC_COH_SEIZECNT_SETTLE.wid) ∧
      (s.settleTimeout k t).fget F.SLC_COH_LASTSEIZE0_KIND k = 2 := by
  rw [State.settleTimeout_eq h hphase]
  have h2 := s.seizeNoticed_alerts k t x
  generalize s.seizeNoticed k t x = s2 at h2
  obtain ⟨y, hy⟩ := Option.isSome_iff_exists.mp (h2.txn (by rw [State.txn_congr (State.until_slices _ _), h]; rfl))
  have hev : (s2.seizeEvent k F.SLC_COH_SEIZECNT_SETTLE 2 2 x.line x.m.ten 0 x.m.src).txn k t = some y :=
    (State.txn_congr (State.seizeEvent_slices ..) k t).trans hy
  have htmo : s2.snpTmo x.m.ten = s.snpTmo x.m.ten := by
    rw [State.snpTmo, State.snpTmo, h2.fget F.TNT_CTL_SNP_TMO (by decide), State.until_fget]
  have hnow : s2.now = max s.now x.ackBy := h2.now
  obtain ⟨hcount, hkind⟩ := s2.seizeEvent_fget k 2 2 x.line x.m.ten 0 x.m.src (by omega)
  rw [State.modTxn_eq hev]
  refine ⟨_, State.txn_setTxn_same _ _ _ _, rfl, ?_, ?_, ?_, ?_⟩
  · rw [State.setTxn_now, State.seizeEvent_now, hnow]
  · rw [State.setTxn_now, State.seizeEvent_now]
    exact congrArg (s2.now + ·) htmo
  · rw [State.setTxn_fget, hcount, h2.fget F.SLC_COH_SEIZECNT_SETTLE (by decide), State.until_fget]
  · rw [State.setTxn_fget, hkind]

/-- The state in which the data of a transaction whose CompAck did not come has been written at the home. -/
def State.ackWritten (s : State) (k t : Nat) (x : Txn) : State :=
  match x.data with
  | some d => if x.unwritten then (s.until x.ackBy).hcWriteLine k x.line x.m.ten d.1 d.2 (BitVec.ofNat 12 t) true else s.until x.ackBy
  | none => s.until x.ackBy

theorem State.ackWritten_aside (s : State) (k t : Nat) (x : Txn) : (s.until x.ackBy).Aside (s.ackWritten k t x) := by
  unfold State.ackWritten
  split
  · split
    · exact (State.Aside.refl _).hcWriteLine _ _ _ _ _ _ _
    · exact .refl _
  · exact .refl _

theorem State.compAckTimeout_eq (h : s.txn k t = some x) (hphase : x.phase = .ack) : s.compAckTimeout k t =
    (((s.ackWritten k t x).bump F.SLC_COH_TMOCNT_ACK k).winClose ((s.ackWritten k t x).winSlice x.m) x.m .expired).closeTxn k t := by
  rw [State.compAckTimeout, h]
  dsimp only
  rw [if_neg (by simp [hphase])]
  rfl

/-- A CompAck that does not come counts, and closes the entry (06 R238). -/
theorem State.compAckTimeout_closes (h : s.txn k t = some x) (hphase : x.phase = .ack) :
    (s.compAckTimeout k t).now = max s.now x.ackBy ∧
      (∀ y, (s.compAckTimeout k t).txn k t = some y → y.opened = false ∧ y.phase = .closed) ∧
      (s.compAckTimeout k t).fget F.SLC_COH_TMOCNT_ACK k = min (s.fget F.SLC_COH_TMOCNT_ACK k + 1) (onesMask F.SLC_COH_TMOCNT_ACK.wid) := by
  rw [State.compAckTimeout_eq h hphase]
  have h1 := s.ackWritten_aside k t x
  generalize s.ackWritten k t x = s1 at h1
  have hx : ((s1.bump F.SLC_COH_TMOCNT_ACK k).winClose (s1.winSlice x.m) x.m .expired).txn k t = some x :=
    (State.winClose_txn _ _ _ _ k t).trans ((State.txn_congr (State.bump_slices ..) k t).trans ((h1.txn k t).trans h))
  refine ⟨(State.closeTxn_now _ _ _).trans ((State.winClose_now _ _ _ _).trans ((State.bump_now _ _ _ _).trans h1.now)), State.closeTxn_closes hx, (State.fget_closeTxn _ _ _ _ _ _).trans ?_⟩
  refine (State.winClose_fget _ _ _ _ _ _ _).trans ((State.fget_bumpBy_same s1 _ 1 k 0 (by decide)).trans ?_)
  rw [h1.fget F.SLC_COH_TMOCNT_ACK (by decide)]
  rfl

theorem State.memEvent_slices (s : State) (k : Nat) (t : Tenant) : (s.memEvent k t).slices = s.slices := by
  rw [State.memEvent, State.raise_slices, State.bump_slices]

theorem State.memEvent_fget (s : State) (k : Nat) (t : Tenant) :
    (s.memEvent k t).fget F.SLC_COH_TMOCNT_MEM k = min (s.fget F.SLC_COH_TMOCNT_MEM k + 1) (onesMask F.SLC_COH_TMOCNT_MEM.wid) := by
  rw [State.memEvent, ((State.Aside.refl _).raise _ _ _).fget _ (by decide), State.bump, State.fget_bumpBy_same _ _ _ _ _ (by decide)]

/-- The state in which a read of memory has ended without an answer: its line is poisoned (06 R241). -/
def State.readFailed (s : State) (k t : Nat) (x : Txn) (due : Time) : State :=
  let s1 := ((s.until due).setTxn k t (some { x with memRd := none })).memEvent k x.m.ten
  ({ s1 with fresh := s1.fresh + 1 }).deferred 0x25 (unitSlice k) (some x.m.ten) (some x.line) none

theorem State.readFailed_txn (s : State) (k t : Nat) (x : Txn) (due : Time) :
    (s.readFailed k t x due).txn k t = some { x with memRd := none } := by
  rw [State.readFailed, State.txn_congr (State.deferred_slices ..)]
  exact (State.txn_congr (State.memEvent_slices ..) k t).trans (State.txn_setTxn_same _ _ _ _)

theorem State.readFailed_now (s : State) (k t : Nat) (x : Txn) (due : Time) : (s.readFailed k t x due).now = max s.now due := by
  rw [State.readFailed, State.deferred_now]
  exact (State.raise_now ..).trans (State.bump_now ..)

theorem State.readFailed_fget (s : State) (k t : Nat) (x : Txn) (due : Time) : (s.readFailed k t x due).fget F.SLC_COH_TMOCNT_MEM k =
    min (s.fget F.SLC_COH_TMOCNT_MEM k + 1) (onesMask F.SLC_COH_TMOCNT_MEM.wid) := by
  rw [State.readFailed, ((State.Aside.refl _).deferred _ _ _ _ _).fget _ (by decide)]
  exact State.memEvent_fget _ _ _

theorem State.memRdTimeout_eq {r : MemWait} (h : s.txn k t = some x) (hkind : x.kind = .client) (hr : x.memRd = some r)
    (hcancel : r.cancelled = false) (hused : x.dataUnused = false) : s.memRdTimeout k t =
      ((s.readFailed k t x r.deadline).giveData k t
        (Config.poisonedLine (((s.until r.deadline).setTxn k t (some { x with memRd := none })).memEvent k x.m.ten).fresh, 0xF) false false).moveEngine
        k t := by
  have huntil : (s.until r.deadline).txn k t = some x := h
  rw [State.memRdTimeout, h]
  dsimp only
  rw [hr]
  dsimp only
  rw [if_neg (by simp [hkind]), if_neg (by simp [hcancel, hused]), State.modTxn_eq huntil]
  rfl

/-- A read that memory does not answer gives poisoned data (06 R241, 10 R395). -/
theorem State.memRdTimeout_poisons {r : MemWait} {d : Copy} (h : s.txn k t = some x) (hkind : x.kind = .client) (hr : x.memRd = some r)
    (hcancel : r.cancelled = false) (hused : x.dataUnused = false) (hcopies : x.copies = [d]) (hphase : x.phase = .snoop) :
    ∃ y l, (s.memRdTimeout k t).txn k t = some y ∧ y.memRd = none ∧ y.data = some (l, 0xF) ∧
      (s.memRdTimeout k t).now = max s.now r.deadline ∧ (s.memRdTimeout k t).fget F.SLC_COH_TMOCNT_MEM k =
        min (s.fget F.SLC_COH_TMOCNT_MEM k + 1) (onesMask F.SLC_COH_TMOCNT_MEM.wid) := by
  rw [State.memRdTimeout_eq h hkind hr hcancel hused]
  generalize Config.poisonedLine _ = l
  have hfail := s.readFailed_txn k t x r.deadline
  have hgiven := State.giveData_unread hfail rfl (l, 0xF) false
  have hreads := State.giveData_reads hfail (l, 0xF) false
  rw [State.moveEngine_snooping hgiven hkind hphase (by simp [Txn.given, hcopies]), State.wantMem_held hgiven rfl]
  exact ⟨_, l, hgiven, rfl, rfl, hreads.now.trans (s.readFailed_now _ _ _ _),
    (hreads.fget F.SLC_COH_TMOCNT_MEM (by decide) (by decide) _ _).trans (s.readFailed_fget _ _ _ _)⟩

/-- A companion fill reads memory when its frame still takes the line, and ends otherwise (10 R404). -/
theorem State.companionAct_reads (h : s.txn k t = some x) (hkind : x.kind = .companion) (hphase : x.phase = .fill) {v : State}
    (hv : v = s.hcCheckSet k (hcSetOf x.line)) (hfill : v.fillOk k x.line = true) (hwr : v.wrPending k x.line = false) :
    ∃ y, (s.companionAct k t).txn k t = some y ∧ y.phase = .mem ∧ y.memRd = some ⟨false, false, v.now + v.maxTmo⟩ := by
  have htxn : v.txn k t = some x := by
    rw [hv, ((State.Aside.refl s).hcCheckSet k _).txn]
    exact h
  rw [State.companionAct, h]
  dsimp only
  rw [if_neg (by simp [hkind, hphase]), ← hv, if_neg (by simp [hfill, hwr]), State.modTxn_eq htxn,
    State.sendMemRd_eq (State.txn_setTxn_same _ _ _ _)]
  refine ⟨_, (((State.Aside.refl _).toMemory _ (memRdMsg_quiet _ _ _ _ _)).txn k t).trans (State.txn_setTxn_same _ _ _ _), rfl, ?_⟩
  rw [State.setTxn_now]

theorem State.companionAct_ends (h : s.txn k t = some x) (hkind : x.kind = .companion) (hphase : x.phase = .fill) {v : State}
    (hv : v = s.hcCheckSet k (hcSetOf x.line)) (hend : v.fillOk k x.line = false ∨ v.wrPending k x.line = true) :
    ∀ y, (s.companionAct k t).txn k t = some y → y.opened = false ∧ y.phase = .closed := by
  have htxn : v.txn k t = some x := by
    rw [hv, ((State.Aside.refl s).hcCheckSet k _).txn]
    exact h
  rw [State.companionAct, h]
  dsimp only
  rw [if_neg (by simp [hkind, hphase]), ← hv, if_pos (by simpa using hend)]
  exact State.closeTxn_closes htxn

theorem State.companionTimeout_ends {r : MemWait} (h : s.txn k t = some x) (hkind : x.kind = .companion) (hr : x.memRd = some r) :
    (s.companionTimeout k t).now = max s.now r.deadline ∧
      (∀ y, (s.companionTimeout k t).txn k t = some y → y.opened = false ∧ y.phase = .closed) ∧
      (s.companionTimeout k t).fget F.SLC_COH_TMOCNT_MEM k = min (s.fget F.SLC_COH_TMOCNT_MEM k + 1) (onesMask F.SLC_COH_TMOCNT_MEM.wid) := by
  have huntil : (s.until r.deadline).txn k t = some x := h
  rw [State.companionTimeout, h]
  dsimp only
  rw [hr]
  dsimp only
  rw [if_pos hkind, State.modTxn_eq huntil]
  have hx := (State.txn_congr (State.bump_slices ((s.until r.deadline).setTxn k t (some { x with memRd := none })) F.SLC_COH_TMOCNT_MEM k 0)
    k t).trans (State.txn_setTxn_same _ _ _ _)
  exact ⟨State.closeTxn_now _ _ _, State.closeTxn_closes hx,
    (State.fget_closeTxn _ _ _ _ _ _).trans (State.fget_bumpBy_same _ _ 1 k 0 (by decide))⟩

theorem State.holdTimeout_ends {a : Addr} (h : (s.slice k).trk = [(t, some x)]) (hphase : x.phase = .hold) (hopen : x.opened = true)
    (hscope : x.scope = .line (lineAddr a)) : s.holdTimeout k a = (s.until x.ackBy).closeTxn k t := by
  rw [State.holdTimeout, h, List.find?_cons_of_pos (by simp [hphase, hopen, hscope])]

/-- A write that memory does not acknowledge is a contained error of its tenant (10 R396). -/
theorem State.memWrTimeout_ends (hops : (s.slice k).memOps = [b]) (htrk : (s.slice k).trk = []) (hret : b.retire = none)
    (hctx : b.ctx = none) (hclean : b.clean = none) (hflush : s.boot.flushBy = none) (hwr : b.offer = false) :
    ((s.memWrTimeout k b.tag).slice k).memOps = [] ∧ (s.memWrTimeout k b.tag).now = max s.now b.deadline ∧
      (s.memWrTimeout k b.tag).flag F.SAF_FAULT_CONTAINED = true ∧ (s.memWrTimeout k b.tag).fget F.SLC_COH_TMOCNT_MEM k =
        min (s.fget F.SLC_COH_TMOCNT_MEM k + 1) (onesMask F.SLC_COH_TMOCNT_MEM.wid) := by
  have hfind : (s.slice k).memOps.find? (fun o => o.tag == b.tag && !o.offer) = some b := by simp [hops, hwr]
  have hev : (((s.until b.deadline).memEvent k b.ten).slice k).memOps = [b] ∧ (((s.until b.deadline).memEvent k b.ten).slice k).trk = [] := by
    rw [State.slice_congr (State.memEvent_slices _ _ _), State.until_slice]
    exact ⟨hops, htrk⟩
  have haside := (State.Aside.refl ((s.until b.deadline).memEvent k b.ten)).contained 0x26 (unitSlice k) b.ten (some b.line) none
  rw [State.memWrTimeout, if_neg (by simp [hflush]), hfind]
  dsimp only
  rw [State.memOpEnd_plain ((State.contained_memOps _ _ _ _ _ k).trans hev.1) hret hctx ((haside.trk k).trans hev.2) hclean]
  refine ⟨State.noOps_memOps _ _, ?_, State.contained_flag _ _ _ _ _, ?_⟩
  · refine haside.now.trans ?_
    rw [State.memEvent, State.raise_now, State.bump_now]
    rfl
  · exact (haside.fget F.SLC_COH_TMOCNT_MEM (by decide) k 0).trans (State.memEvent_fget _ _ _)

/-- An offer that memory does not answer is declined (10 R399). -/
theorem State.offerTimeout_declines (hops : (s.slice k).memOps = [b]) (hoffer : b.offer = true) :
    ((s.offerTimeout k b.tag).slice k).memOps = [] ∧ (s.offerTimeout k b.tag).now = max s.now b.deadline ∧
      (s.offerTimeout k b.tag).fget F.SLC_HC_OFFER_DECLINE k =
        min (s.fget F.SLC_HC_OFFER_DECLINE k + 1) (onesMask F.SLC_HC_OFFER_DECLINE.wid) := by
  have hfind : (s.slice k).memOps.find? (fun o => o.tag == b.tag && o.offer) = some b := by simp [hops, hoffer]
  have huntil : ((s.until b.deadline).slice k).memOps = [b] := hops
  rw [State.offerTimeout, hfind]
  dsimp only
  rw [State.offerEnd_declined huntil]
  refine ⟨?_, rfl, State.fget_bumpBy_same _ _ _ _ _ (by decide)⟩
  rw [State.bump_slice, State.noOps_memOps]

/-- The window entries whose time is over leave (07 R268). -/
theorem State.winExpire_eq {l n : Nat} {due : Time} (h : s.winEnd l n = some due) :
    s.winExpire l n = (s.until due).setWin l n (((s.until due).win l n).filter ((s.until due).winLive l)) := by
  rw [State.winExpire, h]

theorem State.winExpire_mem {l n : Nat} {due : Time} (h : s.winEnd l n = some due) (e : WEntry) :
    e ∈ (s.winExpire l n).win l n ↔ e ∈ s.win l n ∧ (s.winExpire l n).winLive l e = true := by
  rw [State.winExpire_eq h, State.win_setWin_same, List.mem_filter]
  rfl

end

/-- Settles O36: what times out is counted and ends, and is nothing when it does not wait. -/
theorem transactionTimeouts : Obligations.TransactionTimeouts := by
  unfold Obligations.TransactionTimeouts
  refine ⟨fun s k t x hup hk hx => ⟨fun hphase => ?_, fun hphase => ?_, fun hphase => ?_, fun hphase => ?_, fun hphase => ?_,
    fun hphase => ?_, fun r d hkind hr hcancel hused hcopies hphase => ?_, fun v hkind hphase hv => ⟨fun hfill hwr => ?_, fun hend => ?_⟩,
    fun r hkind hr => ?_, fun a hphase hopen hscope htrk => ?_⟩, fun s k b hup hk hops htrk hret hctx hclean => ⟨fun hflush hwr => ?_,
    fun hoffer => ?_⟩, fun s l n due hup hl hn hend => ?_, fun s l n hup hend => ?_⟩
  · obtain ⟨y, hy⟩ := State.settleTimeout_seizes hx hphase
    exact ⟨_, y, next_atSlice hup hk (·.settleTimeout k t), hy⟩
  · exact ⟨_, next_atSlice hup hk (·.seizeClose k t), State.seizeClose_closes hx hphase⟩
  · refine (next_atSlice hup hk (·.settleTimeout k t)).trans ?_
    rw [State.settleTimeout, hx]
    dsimp only
    rw [if_pos hphase]
  · refine (next_atSlice hup hk (·.seizeClose k t)).trans ?_
    rw [State.seizeClose, hx]
    dsimp only
    rw [if_neg hphase]
  · refine (next_atSlice hup hk (·.compAckTimeout k t)).trans ?_
    rw [State.compAckTimeout, hx]
    dsimp only
    rw [if_pos hphase]
  · exact ⟨_, next_atSlice hup hk (·.compAckTimeout k t), State.compAckTimeout_closes hx hphase⟩
  · obtain ⟨y, l, hy⟩ := State.memRdTimeout_poisons hx hkind hr hcancel hused hcopies hphase
    exact ⟨_, y, l, next_atSlice hup hk (·.memRdTimeout k t), hy⟩
  · obtain ⟨y, hy⟩ := State.companionAct_reads hx hkind hphase hv hfill hwr
    exact ⟨_, y, next_atSlice hup hk (·.companionAct k t), hy⟩
  · exact ⟨_, next_atSlice hup hk (·.companionAct k t), State.companionAct_ends hx hkind hphase hv hend⟩
  · exact ⟨_, next_atSlice hup hk (·.companionTimeout k t), State.companionTimeout_ends hx hkind hr⟩
  · refine ⟨_, next_atSlice hup hk (·.holdTimeout k a), ?_⟩
    rw [State.holdTimeout_ends htrk hphase hopen hscope]
    exact ⟨State.closeTxn_now _ _ _, State.closeTxn_closes hx⟩
  · exact ⟨_, next_atSlice hup hk (·.memWrTimeout k b.tag), State.memWrTimeout_ends hops htrk hret hctx hclean hflush hwr⟩
  · exact ⟨_, next_atSlice hup hk (·.offerTimeout k b.tag), State.offerTimeout_declines hops hoffer⟩
  · refine ⟨s.winExpire l n, (next_run hup _).trans (by rw [if_pos ⟨hl, hn⟩]), ?_, State.winExpire_mem hend⟩
    rw [State.winExpire_eq hend]
    rfl
  · refine (next_run hup _).trans ?_
    rw [State.winExpire, hend, ite_self]

end Sys2Proof.Machine
end

section
/-! The statement about idle hints, coalescing, retention and the timers of a vector (16 R610 to R619). -/
namespace Sys2Proof.Machine

section
variable {s : State} {n : Nat} {v : EvVector}

theorem State.evgServe_retained (h : s.flag F.EVG_STATUS_RETAINED = true) : s.evgServe = s := by
  rw [State.evgServe, h, if_pos (by simp)]

theorem State.evgAwake_eq : s.evgAwake = if s.flag F.EVG_STATUS_RETAINED then (s.setFlag F.EVG_STATUS_RETAINED false).evgServe else s := rfl

theorem State.evgAwake_retained (h : s.flag F.EVG_STATUS_RETAINED = true) :
    s.evgAwake = (s.setFlag F.EVG_STATUS_RETAINED false).evgServe := by rw [State.evgAwake_eq, if_pos h]

theorem State.evgAwake_awake (h : s.flag F.EVG_STATUS_RETAINED = false) : s.evgAwake = s := by
  rw [State.evgAwake_eq, h, if_neg (by simp)]

theorem State.vec_bump (s : State) (f : Fld) (j m i : Nat) : (s.bump f j m).vec i = s.vec i := rfl

/-! ## Idle hints -/

/-- A hint of a node that no vector targets is counted (R614). -/
theorem State.idleHint_none {m : Msg} (hawake : s.flag F.EVG_STATUS_RETAINED = false)
    (h : ∀ r ∈ (s.ten m.ten).vectors, r.target ≠ m.src) : s.idleHint m = s.bump F.EVG_DROP_HINT := by
  have hfilter : (s.ten m.ten).vectors.filter (fun v => v.target == m.src) = [] := List.filter_eq_nil_iff.mpr (by simpa using h)
  rw [State.idleHint]
  rw [State.evgAwake_awake hawake, hfilter, if_pos (by rfl)]

theorem State.idleHint_one {m : Msg} {r : PVector} (hawake : s.flag F.EVG_STATUS_RETAINED = false)
    (h : (s.ten m.ten).vectors.filter (fun v => v.target == m.src) = [r]) :
    s.idleHint m = (s.modVec (8 * m.ten.toNat + r.vec) (fun x => { x with idle := m.fspec.getLsbD 0 })).evgServe := by
  rw [State.idleHint]
  rw [State.evgAwake_awake hawake, h, if_neg (by simp)]
  rfl

/-! ## The coalescing register -/

/-- What a write of EVG_VCOALn makes of its vector (R618, R619). -/
def EvVector.coalWritten (v : EvVector) (w : Word) : EvVector :=
  { v with mask := w.getLsbD 31, coalTime := if 1 ≤ getBits w 16 10 ∧ getBits w 16 10 ≤ 1000 then getBits w 16 10 else v.coalTime,
           coalCount := if getBits w 0 8 = 0 then v.coalCount else getBits w 0 8 }

theorem State.writeAt_vcoal (who : Party) (hn : n < 1024) (w : Word) : s.writeAt who (vcoalReg n) w = s.vcoalWrite n w := by
  rw [State.writeAt_evg (by rw [vcoalReg]; omega) (by rw [vcoalReg]; omega), State.writeEvg, if_neg (by rw [vcoalReg]; omega),
    if_pos (by rw [vcoalReg]; omega), if_pos (by rw [vcoalReg]; omega), vcoalReg, show (0xC004 + 16 * n - 0xC000) / 16 = n by omega]

theorem State.vcoalWrite_eq (hawake : s.flag F.EVG_STATUS_RETAINED = false) (w : Word) :
    s.vcoalWrite n w = (s.modVec n (·.coalWritten w)).evgServe := by
  have h : (s.modVec n (·.coalWritten w)).flag F.EVG_STATUS_RETAINED = false := hawake
  rw [← State.evgAwake_awake h]
  rfl

/-! ## Retention -/

theorem State.evgRetain_enters (hdeep : s.allDeep = true) (hmax : s.fget F.PWR_CTL_MAX_STATE = 4)
    (h : ∀ e ∈ s.vectors, e.2.out = none ∧ e.2.pend = false) : s.evgRetain s.allDeep = s.setFlag F.EVG_STATUS_RETAINED true := by
  have hidle : (s.vectors.any (fun e => e.2.out.isSome || (e.2.pend && !e.2.mask && decide (s.now < e.2.t0 + usec e.2.coalTime)))) = false := by
    rw [List.any_eq_false]
    intro e he
    simp [h e he]
  rw [State.evgRetain]
  rw [hidle, hdeep, hmax, if_pos (by rfl)]

theorem State.evgRetain_stays (h : s.allDeep = false ∨ s.fget F.PWR_CTL_MAX_STATE ≠ 4 ∨ ∃ e ∈ s.vectors, e.2.out ≠ none) :
    s.evgRetain s.allDeep = s := by
  rw [State.evgRetain]
  refine if_neg fun hall => ?_
  simp only [Bool.and_eq_true, beq_iff_eq, Bool.not_eq_true', List.any_eq_false] at hall
  obtain ⟨⟨hdeep, hmax⟩, hidle⟩ := hall
  rcases h with hlight | hstate | ⟨e, he, hout⟩
  · simp [hlight] at hdeep
  · exact hstate hmax
  · have := hidle e he
    rcases hx : e.2.out with _ | d
    · exact hout hx
    · simp [hx] at this

/-! ## The two timers -/

/-- The Interrupt of a vector's batch (R615). -/
def State.interruptOf (s : State) (n : Nat) (v : EvVector) : Msg :=
  mkMsg Op.interrupt (vecTen n) s.home v.target (v.seq.zeroExtend 12 <<< 3 ||| BitVec.ofNat 12 (n % 8)) 0x1F 0 false 0
    [interruptSlot (n % 8) v false false]

/-- The vector when Interrupt `m` has taken its batch. -/
def EvVector.taken (v : EvVector) (m : Msg) (t : Time) : EvVector := { v.empty with seq := v.seq + 1, out := some ⟨m, t⟩ }

/-- A batch whose condition is met goes out by the ordinary Interrupt (R610, R611). -/
theorem State.deliver_met (hv : s.vec n = v) (hmet : v.met s.now = true) :
    s.deliver n = (s.modVec n (·.taken (s.interruptOf n v) s.now)).send (s.interruptOf n v) := by
  rw [State.deliver, hv]
  dsimp only
  rw [hmet, Bool.not_true, Bool.and_false, if_neg (by simp)]
  rfl

/-- With one vector, and that one ready, serving the gatherer delivers it. -/
theorem State.evgServe_one (hvecs : s.vectors = [(n, v)]) (hready : s.ready = true) (hawake : s.flag F.EVG_STATUS_RETAINED = false)
    (hv : v.ready s.now = true) : s.evgServe = s.deliver n := by
  have hvec : s.vec n = v := by simp [State.vec, hvecs, spGet]
  have hsort : sortByKey (fun n => (s.vec n).minsrc) [n] = [n] := rfl
  rw [State.evgServe, hready, hawake, if_neg (by simp)]
  dsimp only
  rw [hvecs, List.filter_cons_of_pos (by simpa using hv), List.filter_nil, List.map_cons, List.map_nil, hsort, List.foldl_cons,
    List.foldl_nil, hvec, if_pos hv]

theorem State.coalTimeout_idle (h : (s.vec n).pend = false ∨ (s.vec n).mask = true) : s.coalTimeout n = s := by
  rw [State.coalTimeout]
  rcases h with h | h
  · rw [h, if_neg (by simp)]
  · rw [h, if_neg (by simp)]

/-- The end of COAL_TIME delivers the batch (R610). -/
theorem State.coalTimeout_delivers (hvecs : s.vectors = [(n, v)]) (hready : s.ready = true) (hawake : s.flag F.EVG_STATUS_RETAINED = false)
    (hpend : v.pend = true) (hmask : v.mask = false) (hen : v.enable = true) (hout : v.out = none) :
    s.coalTimeout n = ((s.until (v.t0 + usec v.coalTime)).modVec n (·.taken (s.interruptOf n v) (max s.now (v.t0 + usec v.coalTime)))).send
      (s.interruptOf n v) := by
  have hvec : s.vec n = v := by simp [State.vec, hvecs, spGet]
  have hmet : v.met (max s.now (v.t0 + usec v.coalTime)) = true := by simp [EvVector.met, Nat.le_max_right]
  have hv : v.ready (max s.now (v.t0 + usec v.coalTime)) = true := by simp [EvVector.ready, hpend, hmask, hen, hout, hmet]
  rw [State.coalTimeout, hvec]
  rw [hpend, hmask, if_pos (by simp), State.evgServe_one (s := s.until _) hvecs hready hawake hv, State.deliver_met (s := s.until _) hvec hmet]
  rfl

/-- The delivery sent again, with its RESENT bit (R616). -/
def Delivery.again (d : Delivery) : Msg := sealMsg { d.m with body := d.m.body.map (fun x => x ||| BitVec.ofNat 128 (2 ^ 18)) }

theorem State.evgResend_none (h : (s.vec n).out = none ∨ s.fget F.EVG_CTL_RESEND = 0) : s.evgResend n = s := by
  rw [State.evgResend]
  dsimp only
  split
  · rfl
  · next d hd =>
    rcases h with hout | hzero
    · simp [hout] at hd
    · rw [if_pos (.inl hzero)]

theorem State.evgResend_some {d : Delivery} (hout : (s.vec n).out = some d) (hr : s.fget F.EVG_CTL_RESEND ≠ 0) (hready : s.ready = true) :
    s.evgResend n = (((s.until (d.time + usec (2 ^ s.fget F.EVG_CTL_RESEND))).modVec n (fun v =>
      { v with out := some ⟨d.again, max s.now (d.time + usec (2 ^ s.fget F.EVG_CTL_RESEND))⟩ })).wrapInc F.EVG_RESENT_COUNT).send d.again := by
  rw [State.evgResend, hout]
  dsimp only
  rw [if_neg (by simp [hr, hready])]
  rfl

end

/-- Settles O48: a hint, a write, the retention and each timer have the effect that the operation on the vector has. -/
theorem eventGatherer : Obligations.EventGatherer := by
  unfold Obligations.EventGatherer
  refine ⟨fun s v p m w hw hadm hv hawake => ?_, fun s who n w hn ht hawake => ?_, fun s hup => ⟨fun hdeep hmax hvecs => ?_, fun h => ?_,
    fun hret => ⟨State.evgServe_retained hret, ?_⟩, State.evgAwake_retained, fun hawake => ⟨State.evgAwake_awake hawake, ?_⟩⟩,
    fun s n v hup hn hvecs hready hawake hpend hmask hen hout => ?_, fun s n hup hn h => ?_,
    fun s n r hup hn hready hr => ⟨fun d hout hne => ?_, fun h => ?_⟩⟩
  · have hexec : exec (.idleHint p m) s = .next (s.after (v.idleHint w)) := by
      subst hv
      exact next_taken (fun m s => s.idleHint m) hw hadm
    refine ⟨fun hnone => ⟨v.idleHint w, hexec, ?_, ?_⟩, fun r hone => ?_⟩
    · rw [State.idleHint_none hawake hnone]
      rfl
    · rw [State.idleHint_none hawake hnone, State.bump, State.fget_bumpBy_same _ _ _ _ _ (by decide)]
    · rw [hexec, State.idleHint_one hawake hone]
  · refine ⟨s.modVec n (·.coalWritten w), ?_, ?_, fun hlow hhigh => ?_, fun h => ?_, fun hne => ?_, fun h0 => ?_, fun j hj => ?_, rfl⟩
    · rw [← State.vcoalWrite_eq hawake, ← State.writeAt_vcoal who hn]
      refine Eq.trans ?_ (next_command w ht)
      exact congrArg Host.Outcome.next (if_pos hn)
    · rw [State.vec_modVec_same, EvVector.coalWritten]
    · rw [State.vec_modVec_same, EvVector.coalWritten]
      exact if_pos ⟨hlow, hhigh⟩
    · rw [State.vec_modVec_same, EvVector.coalWritten]
      exact if_neg (by omega)
    · rw [State.vec_modVec_same, EvVector.coalWritten]
      exact if_neg hne
    · rw [State.vec_modVec_same, EvVector.coalWritten]
      exact if_pos h0
    · exact State.vec_modVec_other s hj _
  · exact (next_run hup _).trans (by rw [State.evgRetain_enters hdeep hmax hvecs])
  · exact (next_run hup _).trans (by rw [State.evgRetain_stays h])
  · exact (next_run hup _).trans (by rw [State.evgAwake_retained hret])
  · exact (next_run hup _).trans (by rw [State.evgAwake_awake hawake])
  · have hvec : s.vec n = v := by simp [State.vec, hvecs, spGet]
    refine ⟨s.coalTimeout n, s.interruptOf n v, (next_run hup _).trans (by rw [if_pos hn]), ?_⟩
    rw [State.coalTimeout_delivers hvecs hready hawake hpend hmask hen hout]
    have htaken : ((((s.until (v.t0 + usec v.coalTime)).modVec n
        (·.taken (s.interruptOf n v) (max s.now (v.t0 + usec v.coalTime)))).send (s.interruptOf n v)).vec n) =
        v.taken (s.interruptOf n v) (max s.now (v.t0 + usec v.coalTime)) := by
      rw [State.vec, State.send_vectors]
      refine (State.vec_modVec_same _ _ _).trans ?_
      exact congrArg (EvVector.taken · _ _) hvec
    rw [htaken, State.send_now]
    refine ⟨rfl, rfl, rfl, rfl, ?_, rfl, rfl, rfl, rfl, rfl, rfl⟩
    refine State.Relays.sends ?_ (State.sends_send _ _)
    exact .of_same rfl rfl rfl
  · exact (next_run hup _).trans (by rw [State.coalTimeout_idle h, ite_self])
  · subst hr
    refine ⟨s.evgResend n, d.again, (next_run hup _).trans (by rw [if_pos hn]), ?_⟩
    rw [State.evgResend_some hout hne hready]
    refine ⟨?_, ?_, ?_, rfl, rfl, rfl, rfl, rfl, ?_⟩
    · rw [State.send_now, State.wrapInc_now]
      rfl
    · rw [State.vec, State.send_vectors, State.wrapInc_vectors, State.send_now, State.wrapInc_now]
      exact congrArg EvVector.out (State.vec_modVec_same _ _ _)
    · refine State.Relays.sends ?_ (State.sends_send _ _)
      exact .of_same rfl rfl rfl
    · rw [State.send_fget _ _ _ _ _ (by decide) (by decide)]
      exact State.fget_wrapBy_same _ _ _ _ _ (by decide)
  · subst hr
    exact (next_run hup _).trans (by rw [State.evgResend_none h, ite_self])

end Sys2Proof.Machine
end

section
/-! The statement about the Jig's channels: arming, refusal and disarming (20 R714, R719, R720, R723). -/
namespace Sys2Proof.Machine

section
variable {s : State} {c : Nat} {v : Word}

theorem State.writeAt_jig {who : Party} {a : Nat} (hlow : 0x7000 ≤ a) (hhigh : a < 0x8000) : s.writeAt who a v = s.writeJig who a v := by
  unfold State.writeAt
  rw [if_neg (by omega), if_neg (by omega), if_neg (by omega), if_neg (by omega), if_neg (by omega), if_neg (by omega), if_neg (by omega),
    if_pos hhigh]

theorem State.writeAt_channel (who : Party) (hc : c < 8) (v : Word) : s.writeAt who (chanReg c) v = s.writeChan c v := by
  rw [State.writeAt_jig (by rw [chanReg]; omega) (by rw [chanReg]; omega), State.writeJig, if_neg (by rw [chanReg]; omega),
    if_pos (by rw [chanReg]; omega)]
  dsimp only
  rw [if_pos (by rw [chanReg]; omega), chanReg, show (0x7100 + 0x20 * c - 0x7100) / 0x20 = c by omega]

theorem getBits_lt (w : Word) (lsb wid : Nat) : getBits w lsb wid < 2 ^ wid := Nat.mod_lt _ (Nat.two_pow_pos wid)

/-! ## The fields that a channel's control register takes -/

/-- The fields of JIG_CHc_CTL that a write takes beside ARM. -/
def chanCtlFields : List Fld := [F.JIG_CH_CTL_REPEAT, F.JIG_CH_CTL_TRIG, F.JIG_CH_CTL_KIND, F.JIG_CH_CTL_UNIT]

theorem State.jigCtl_field {α : Type} (get : State → α) (h : ∀ (s : State) (f : Fld), f ∈ chanCtlFields → ∀ x, get (s.fset f x 0 c) = get s)
    (s : State) (v : Word) : get (s.jigCtl c v) = get s := by
  have hrep := h s F.JIG_CH_CTL_REPEAT (by decide)
  have htrig (u : State) := h u F.JIG_CH_CTL_TRIG (by decide)
  have hkind (u : State) := h u F.JIG_CH_CTL_KIND (by decide)
  have hunit (u : State) := h u F.JIG_CH_CTL_UNIT (by decide)
  unfold State.jigCtl
  dsimp only
  split <;> split <;> split <;> simp only [State.setFlag, hrep, htrig, hkind, hunit]

theorem State.jigCtl_jig (s : State) (c : Nat) (v : Word) : (s.jigCtl c v).jig = s.jig := State.jigCtl_field (·.jig) (fun _ _ _ _ => rfl) s v
theorem State.jigCtl_log (s : State) (c : Nat) (v : Word) : (s.jigCtl c v).log = s.log := State.jigCtl_field (·.log) (fun _ _ _ _ => rfl) s v
theorem State.jigCtl_sources (s : State) (c : Nat) (v : Word) : (s.jigCtl c v).sources = s.sources :=
  State.jigCtl_field (·.sources) (fun _ _ _ _ => rfl) s v

/-- A field that stands apart from those of the channel's control register. -/
theorem State.jigCtl_fget (s : State) (c : Nat) (v : Word) (g : Fld) (i j : Nat)
    (h : ∀ f ∈ chanCtlFields, f.addr 0 c ≠ g.addr i j ∨ g.lsb + g.wid ≤ f.lsb ∨ f.lsb + f.wid ≤ g.lsb) (hg : g.lsb + g.wid ≤ 32) :
    (s.jigCtl c v).fget g i j = s.fget g i j :=
  State.jigCtl_field (·.fget g i j) (fun s f hf x => State.fget_fset_other s f g x 0 c i j (h f hf) hg) s v

theorem State.jigCtl_kind (s : State) (h : ¬ (getBits v 24 4 = 0 ∨ getBits v 24 4 = 7 ∨ 14 ≤ getBits v 24 4)) :
    (s.jigCtl c v).fget F.JIG_CH_CTL_KIND 0 c = getBits v 24 4 := by
  have hk : getBits v 24 4 % 2 ^ 4 = getBits v 24 4 := Nat.mod_eq_of_lt (getBits_lt v 24 4)
  unfold State.jigCtl
  dsimp only
  rw [if_neg h]
  split
  · exact (State.fget_fset_same _ _ _ _ _ (by decide)).trans hk
  · rw [State.fget_fset_bits _ _ _ _ _ _ (by decide) (by decide)]
    exact (State.fget_fset_same _ _ _ _ _ (by decide)).trans hk

theorem State.jigCtl_trig (s : State) (h : getBits v 28 2 ≠ 3) : (s.jigCtl c v).fget F.JIG_CH_CTL_TRIG 0 c = getBits v 28 2 := by
  have ht : getBits v 28 2 % 2 ^ 2 = getBits v 28 2 := Nat.mod_eq_of_lt (getBits_lt v 28 2)
  have htrig (u : State) : (u.fset F.JIG_CH_CTL_TRIG (getBits v 28 2) 0 c).fget F.JIG_CH_CTL_TRIG 0 c = getBits v 28 2 :=
    (State.fget_fset_same _ _ _ _ _ (by decide)).trans ht
  unfold State.jigCtl
  dsimp only
  rw [if_neg h]
  split <;> split <;> simp (disch := decide) only [State.fget_fset_bits, htrig]

theorem State.jigCtl_unit (s : State) (h : getBits v 16 5 < 18) : (s.jigCtl c v).fget F.JIG_CH_CTL_UNIT 0 c = getBits v 16 5 := by
  unfold State.jigCtl
  dsimp only
  rw [if_neg (Nat.not_le.mpr h)]
  exact (State.fget_fset_same _ _ _ _ _ (by decide)).trans (Nat.mod_eq_of_lt (getBits_lt v 16 5))

/-! ## Refusals -/

section
variable {k un tr : Nat}

theorem State.jigRefusal_locked (h : s.lifecycle = 2) : s.jigRefusal c k un tr = some 1 := by
  rw [State.jigRefusal]
  exact if_pos h

theorem State.jigRefusal_ungranted (h : s.lifecycle = 0) (hgrant : s.pat.jigGrant = false) : s.jigRefusal c k un tr = some 2 := by
  rw [State.jigRefusal]
  rw [if_neg (by omega), if_pos ⟨h, .inl (by simp [hgrant])⟩]

/-- In DEBUG, on units that are in use, a reserved encoding is refused with code 5. -/
theorem State.jigRefusal_reserved (h : s.lifecycle = 1) (hres : k = 0 ∨ k = 0xE ∨ tr = 3) (hroles : ∀ q, q < 12 → s.role q ≠ .off)
    (hsroles : ∀ q, q < 18 → s.srole q = .active) : s.jigRefusal c k un tr = some 5 := by
  have hunit : ¬ (k ≠ 0xD ∧ (if decide (k ≤ 7) then decide (un < 12) && s.role un == .off
      else decide (un < 18) && (s.srole un == .spare || s.srole un == .fenced)) = true) := by
    rintro ⟨-, hbad⟩
    split at hbad
    · simp only [Bool.and_eq_true, decide_eq_true_eq, beq_iff_eq] at hbad
      exact hroles un hbad.1 hbad.2
    · simp only [Bool.and_eq_true, decide_eq_true_eq, Bool.or_eq_true, beq_iff_eq] at hbad
      rw [hsroles un hbad.1] at hbad
      simp at hbad
  have hreserved : s.jigReserved c k un tr = true := by
    rw [State.jigReserved]
    rcases hres with rfl | rfl | rfl <;> simp
  rw [State.jigRefusal]
  rw [if_neg (by omega), if_neg (by omega), if_neg (by omega), if_neg hunit, if_pos hreserved]

/-- A ladder of refusals gives none exactly where no rung applies. -/
theorem ite_some_eq_none {p : Prop} [Decidable p] {a : Nat} {r : Option Nat} : (if p then some a else r) = none ↔ ¬ p ∧ r = none := by
  split
  · next hp => simp [hp]
  · next hp => simp [hp]

theorem ite_some_le {p : Prop} [Decidable p] {a b : Nat} {r : Option Nat} (ha : a ≤ b) (hr : ∀ code, r = some code → code ≤ b) :
    ∀ code, (if p then some a else r) = some code → code ≤ b := by
  intro code h
  split at h
  · exact Option.some.inj h ▸ ha
  · exact hr code h

theorem State.jigRefusal_safe (h : s.isSafe = true) : s.jigRefusal c k un tr ≠ none := by
  intro hnone
  simp only [State.jigRefusal, ite_some_eq_none] at hnone
  obtain ⟨-, -, -, -, -, hunsafe, -⟩ := hnone
  exact hunsafe h

/-- A refusal code is one of the six of R719. -/
theorem State.jigRefusal_le {code : Nat} (h : s.jigRefusal c k un tr = some code) : code ≤ 6 := by
  refine ite_some_le (by decide) (ite_some_le (by decide) (ite_some_le (by decide) (ite_some_le (by decide) (ite_some_le (by decide)
    (ite_some_le (by decide) ?_))))) code h
  exact fun _ h => nomatch h

/-- What is not refused has no reserved encoding (R719). -/
theorem State.jigRefusal_none (h : s.jigRefusal c k un tr = none) : s.jigReserved c k un tr = false := by
  simp only [State.jigRefusal, ite_some_eq_none] at h
  obtain ⟨-, -, -, -, hunreserved, -⟩ := h
  exact Bool.eq_false_iff.mpr hunreserved

theorem State.jigReserved_legal (h : s.jigReserved c k un tr = false) :
    k ≠ 0 ∧ k ≠ 7 ∧ k ≠ 14 ∧ k ≠ 15 ∧ tr ≠ 3 ∧ (k ≠ 0xD → un < 18) := by
  rw [State.jigReserved] at h
  simp only [Bool.or_eq_false_iff, beq_eq_false_iff_ne, Bool.and_eq_false_iff, bne_eq_false_iff_eq, decide_eq_false_iff_not] at h
  obtain ⟨⟨⟨⟨⟨⟨⟨h0, h7⟩, h14⟩, h15⟩, h3⟩, -⟩, -⟩, hunit⟩ := h
  refine ⟨h0, h7, h14, h15, h3, fun hd => ?_⟩
  rcases hunit with hk | hlt
  · exact absurd hk hd
  · split at hlt <;> omega

end

/-! ## Arming -/

theorem State.jigArm_armed (h : spGet none s.jig c ≠ none) : s.jigArm c v = s := by
  rw [State.jigArm, if_pos (Option.isSome_iff_ne_none.mpr h)]

/-- A refused arming write takes the other fields and records the refusal (R719). -/
def State.jigRefused (s : State) (c : Nat) (v : Word) (code : Nat) : State :=
  ((((s.jigCtl c v).fset F.JIG_CH_STATUS_CODE code 0 c).bump F.JIG_REFUSE_COUNT).fset F.JIG_REFUSE_CHAN c).fset F.JIG_REFUSE_CODE code

theorem State.jigArm_refused {code : Nat} (h : spGet none s.jig c = none)
    (href : s.jigRefusal c (getBits v 24 4) (getBits v 16 5) (getBits v 28 2) = some code) : s.jigArm c v = s.jigRefused c v code := by
  rw [State.jigArm, if_neg (by simp [h]), href]
  rfl

/-- An armed channel: its control fields with ARM, its count at zero, and its run. -/
def State.jigArmed (s : State) (c : Nat) (v : Word) : State :=
  { ((s.jigCtl c v).setFlag F.JIG_CH_CTL_ARM true 0 c).fset F.JIG_CH_STATUS_FIRED 0 0 c with
    jig := spSet none s.jig c (some ⟨s.now, 0, 0, false⟩) }

theorem State.jigArm_armed_new (h : spGet none s.jig c = none)
    (href : s.jigRefusal c (getBits v 24 4) (getBits v 16 5) (getBits v 28 2) = none) : s.jigArm c v = s.jigArmed c v := by
  rw [State.jigArm, if_neg (by simp [h]), href]
  dsimp only
  rw [State.jigCtl_jig]
  rfl

theorem State.jigArmed_fget (s : State) (c : Nat) (v : Word) (g : Fld) (i j : Nat) : (s.jigArmed c v).fget g i j =
    (((s.jigCtl c v).setFlag F.JIG_CH_CTL_ARM true 0 c).fset F.JIG_CH_STATUS_FIRED 0 0 c).fget g i j := rfl

theorem State.jigArmed_jig (s : State) (c : Nat) (v : Word) :
    (s.jigArmed c v).jig = spSet none s.jig c (some ⟨s.now, 0, 0, false⟩) := rfl

/-- A field of a channel's registers, and one of the JIG registers below them. -/
def Fld.ofChannel (f : Fld) : Bool := f.stride == 0 && f.mstr == 32 && decide (0x7100 ≤ f.base + f.off) && decide (f.lsb + f.wid ≤ 32)
def Fld.belowChannels (f : Fld) : Bool :=
  f.stride == 0 && f.mstr == 0 && decide (f.base + f.off < 0x7100) && decide (f.lsb + f.wid ≤ 32)

theorem Fld.channel_apart {f g : Fld} (hf : f.ofChannel = true) (hg : g.belowChannels = true) (c : Nat) : f.addr 0 c ≠ g.addr 0 0 := by
  simp only [Fld.ofChannel, Fld.belowChannels, Bool.and_eq_true, beq_iff_eq, decide_eq_true_eq] at hf hg
  obtain ⟨⟨⟨hfs, hfm⟩, hfa⟩, -⟩ := hf
  obtain ⟨⟨⟨hgs, hgm⟩, hga⟩, -⟩ := hg
  rw [Fld.addr, Fld.addr, hfs, hfm, hgs, hgm]
  omega

theorem State.fget_fset_ofChannel (s : State) {f g : Fld} (x c : Nat) (hf : f.ofChannel = true) (hg : g.belowChannels = true) :
    (s.fset f x 0 c).fget g = s.fget g := by
  refine State.fget_fset_other s f g x 0 c 0 0 (.inl (Fld.channel_apart hf hg c)) ?_
  simp only [Fld.belowChannels, Bool.and_eq_true, decide_eq_true_eq] at hg
  exact hg.2

theorem State.fget_fset_belowChannels (s : State) {f g : Fld} (x c : Nat) (hf : f.belowChannels = true) (hg : g.ofChannel = true) :
    (s.fset f x).fget g 0 c = s.fget g 0 c := by
  refine State.fget_fset_other s f g x 0 0 0 c (.inl (Fld.channel_apart hg hf c).symm) ?_
  simp only [Fld.ofChannel, Bool.and_eq_true, decide_eq_true_eq] at hg
  exact hg.2

/-- What a refusal records: the code at the channel, and channel, code and count in JIG_REFUSE (R719). -/
theorem State.jigRefused_records (s : State) (v : Word) (hc : c < 8) {code : Nat} (hcode : code < 16) :
    (s.jigRefused c v code).fget F.JIG_CH_STATUS_CODE 0 c = code ∧ (s.jigRefused c v code).fget F.JIG_REFUSE_CHAN = c ∧
      (s.jigRefused c v code).fget F.JIG_REFUSE_CODE = code ∧
      (s.jigRefused c v code).fget F.JIG_REFUSE_COUNT = min (s.fget F.JIG_REFUSE_COUNT + 1) (onesMask F.JIG_REFUSE_COUNT.wid) ∧
      (s.jigRefused c v code).fget F.JIG_CH_CTL_ARM 0 c = s.fget F.JIG_CH_CTL_ARM 0 c := by
  refine ⟨?_, ?_, ?_, ?_, ?_⟩
  · simp (disch := decide) only [State.jigRefused, State.bump, State.bumpBy, State.fget_fset_belowChannels, State.fget_fset_same]
    exact Nat.mod_eq_of_lt hcode
  · simp (disch := decide) only [State.jigRefused, State.fget_fset_bits, State.fget_fset_same]
    exact Nat.mod_eq_of_lt hc
  · simp (disch := decide) only [State.jigRefused, State.fget_fset_same]
    exact Nat.mod_eq_of_lt hcode
  · have hctl : (s.jigCtl c v).fget F.JIG_REFUSE_COUNT = s.fget F.JIG_REFUSE_COUNT :=
      State.jigCtl_field (·.fget F.JIG_REFUSE_COUNT)
        (fun u f hf x => State.fget_fset_ofChannel u x c ((by decide : ∀ f ∈ chanCtlFields, f.ofChannel = true) f hf) (by decide)) s v
    simp (disch := decide) only [State.jigRefused, State.bump, State.fget_fset_bits, State.fget_bumpBy_same, State.fget_fset_ofChannel, hctl]
  · simp (disch := decide) only [State.jigRefused, State.bump, State.bumpBy, State.fget_fset_belowChannels, State.fget_fset_beside]
    exact s.jigCtl_fget c v _ 0 c (fun f hf => .inr ((by decide : ∀ f ∈ chanCtlFields, 32 ≤ f.lsb ∨ f.lsb + f.wid ≤ 31) f hf)) (by decide)

/-! ## Disarming -/

theorem State.jigDisarm_free (h : spGet none s.jig c = none) (code : Option Nat) : s.jigDisarm c code = s := by
  rw [State.jigDisarm, h]

theorem State.jigDisarm_armed (h : spGet none s.jig c ≠ none) (code : Nat) : s.jigDisarm c (some code) =
    (({ s with jig := spErase c s.jig }).setFlag F.JIG_CH_CTL_ARM false 0 c).fset F.JIG_CH_STATUS_CODE code 0 c := by
  obtain ⟨r, hr⟩ := Option.ne_none_iff_exists'.mp h
  rw [State.jigDisarm, hr]

theorem State.jigDisarm_run (s : State) (c j : Nat) (code : Option Nat) :
    spGet none (s.jigDisarm c code).jig j = if j = c then none else spGet none s.jig j := by
  have herase : spGet none (spErase c s.jig) j = if j = c then none else spGet none s.jig j := by
    rw [spGet_spErase]
    simp only [eq_comm]
  unfold State.jigDisarm
  split
  · next hnone =>
    split
    · next hj => rw [hj, hnone]
    · rfl
  · cases code <;> exact herase

/-- What a channel shows after it was disarmed with a code. -/
theorem State.jigDisarm_shows (h : spGet none s.jig c ≠ none) {code : Nat} (hcode : code < 16) :
    (s.jigDisarm c (some code)).flag F.JIG_CH_CTL_ARM 0 c = false ∧ (s.jigDisarm c (some code)).fget F.JIG_CH_STATUS_CODE 0 c = code ∧
      (s.jigDisarm c (some code)).fget F.JIG_CH_CTL_KIND 0 c = s.fget F.JIG_CH_CTL_KIND 0 c := by
  rw [State.jigDisarm_armed h]
  refine ⟨?_, ?_, ?_⟩
  · rw [State.flag, State.fget_fset_beside _ _ _ _ (by decide) (by decide), State.fget_setFlag_same _ _ _ _ _ (by decide) (by decide)]
    rfl
  · rw [State.fget_fset_same _ _ _ _ _ (by decide)]
    exact Nat.mod_eq_of_lt hcode
  · rw [State.fget_fset_beside _ _ _ _ (by decide) (by decide), State.setFlag, State.fget_fset_bits _ _ _ _ _ _ (by decide) (by decide)]
    rfl

/-- Disarming another channel leaves the control and status registers of a channel alone. -/
theorem State.jigDisarm_other {j : Nat} (hj : j ≠ c) (s : State) (code : Option Nat) {g : Fld} (hg : g = F.JIG_CH_CTL_ARM ∨ g = F.JIG_CH_STATUS_CODE) :
    (s.jigDisarm j code).fget g 0 c = s.fget g 0 c := by
  have harm (u : State) (b : Bool) : (u.setFlag F.JIG_CH_CTL_ARM b 0 j).fget g 0 c = u.fget g 0 c := by
    refine State.fget_fset_other u _ g _ 0 j 0 c (.inl ?_) (by rcases hg with rfl | rfl <;> decide)
    rcases hg with rfl | rfl <;> simp only [Fld.addr, F.JIG_CH_CTL_ARM, F.JIG_CH_STATUS_CODE] <;> omega
  have hcode (u : State) (x : Nat) : (u.fset F.JIG_CH_STATUS_CODE x 0 j).fget g 0 c = u.fget g 0 c := by
    refine State.fget_fset_other u _ g _ 0 j 0 c (.inl ?_) (by rcases hg with rfl | rfl <;> decide)
    rcases hg with rfl | rfl <;> simp only [Fld.addr, F.JIG_CH_CTL_ARM, F.JIG_CH_STATUS_CODE] <;> omega
  unfold State.jigDisarm
  split
  · rfl
  · split
    · exact (hcode _ _).trans (harm _ _)
    · exact harm _ _

/-- DISARM_ALL, up to channel `i + n`: a channel among those is disarmed, and shows the code when it was armed. -/
theorem State.jigDisarmAll_shows (code n i : Nat) (s : State) (hcode : code < 16) (c : Nat) :
    (spGet none s.jig c = none ∨ i ≤ c ∧ c < i + n → spGet none (forUp (fun c (s : State) => s.jigDisarm c (some code)) i n s).jig c = none) ∧
    (i ≤ c → c < i + n → spGet none s.jig c ≠ none →
      (forUp (fun c (s : State) => s.jigDisarm c (some code)) i n s).flag F.JIG_CH_CTL_ARM 0 c = false ∧
      (forUp (fun c (s : State) => s.jigDisarm c (some code)) i n s).fget F.JIG_CH_STATUS_CODE 0 c = code) ∧
    ((c < i ∨ i + n ≤ c) → ∀ g, g = F.JIG_CH_CTL_ARM ∨ g = F.JIG_CH_STATUS_CODE →
      (forUp (fun c (s : State) => s.jigDisarm c (some code)) i n s).fget g 0 c = s.fget g 0 c) := by
  induction n generalizing i s with
  | zero => exact ⟨fun h => h.elim id (by omega), by omega, fun _ _ _ => rfl⟩
  | succ n ih =>
    obtain ⟨hfree, hshow, hkeep⟩ := ih (i + 1) (s.jigDisarm i (some code))
    have hrun := s.jigDisarm_run i c (some code)
    refine ⟨fun h => hfree ?_, fun hlow hhigh harmed => ?_, fun hout g hg => ?_⟩
    · by_cases hc : c = i
      · exact .inl (hrun.trans (if_pos hc))
      · rcases h with h | h
        · exact .inl (hrun.trans ((if_neg hc).trans h))
        · exact .inr (by omega)
    · by_cases hc : c = i
      · subst hc
        obtain ⟨harm, hcodes, -⟩ := State.jigDisarm_shows harmed hcode
        refine ⟨?_, (hkeep (.inl (by omega)) _ (.inr rfl)).trans hcodes⟩
        exact (congrArg (· != 0) (hkeep (.inl (by omega)) _ (.inl rfl))).trans harm
      · exact hshow (by omega) (by omega) (by rw [hrun, if_neg hc]; exact harmed)
    · exact (hkeep (by omega) g hg).trans (State.jigDisarm_other (by omega) s _ hg)

theorem State.reorderEnd_none {p : Nat} (h : (s.port p).held = none) : s.reorderEnd p = s := by rw [State.reorderEnd, h]

end

/-- Settles O49: an arming write is refused, or arms; a write without ARM disarms; the held flit of a port goes out at its time. -/
theorem jigChannels : Obligations.JigChannels := by
  unfold Obligations.JigChannels
  refine ⟨fun s who c v w k un tr hc ht hw hk hun htr => ?_, fun s who c hc ht => ?_, fun s who ht => ?_, fun s p hup hp => ⟨fun h hheld => ?_,
    fun hnone => ?_⟩⟩
  · subst hk hun htr
    have hexec : exec (.jigArm who c v) s = .next (s.after (s.jigArm c w)) := by
      have hbit : w.getLsbD 31 = true := by simp [hw, getLsbD_bitWord]
      have hchan : s.writeAt who (chanReg c) w = s.jigArm c w := by rw [State.writeAt_channel who hc, State.writeChan, if_pos hbit]
      rw [← hchan, hw]
      refine Eq.trans ?_ (next_command _ ht)
      exact congrArg Host.Outcome.next (if_pos hc)
    refine ⟨fun harmed => by rw [hexec, State.jigArm_armed harmed], fun hfree => ⟨fun code hcode => ?_, fun hnone => ?_⟩,
      State.jigRefusal_locked, State.jigRefusal_ungranted, State.jigRefusal_reserved, State.jigRefusal_safe⟩
    · have hle := State.jigRefusal_le hcode
      refine ⟨s.jigRefused c w code, by rw [hexec, State.jigArm_refused hfree hcode], ?_⟩
      obtain ⟨hstat, hchan, hcodes, hcount, harm⟩ := s.jigRefused_records w hc (code := code) (by omega)
      exact ⟨State.jigCtl_jig _ _ _, hstat, hchan, hcodes, hcount, harm, State.jigCtl_log _ _ _, State.jigCtl_sources _ _ _⟩
    · obtain ⟨h0, h7, h14, h15, h3, hunit⟩ := State.jigReserved_legal (State.jigRefusal_none hnone)
      have hlt : getBits w 24 4 < 16 := getBits_lt w 24 4
      refine ⟨s.jigArmed c w, by rw [hexec, State.jigArm_armed_new hfree hnone], ?_, ?_, ?_, ?_, ?_, fun hd => ?_, fun j hj => ?_⟩
      · rw [State.jigArmed_jig, spGet_spSet, if_pos rfl]
      · rw [State.flag, State.jigArmed_fget, State.fget_fset_beside _ _ _ _ (by decide) (by decide),
          State.fget_setFlag_same _ _ _ _ _ (by decide) (by decide)]
        rfl
      · rw [State.jigArmed_fget, State.fget_fset_same _ _ _ _ _ (by decide)]
        rfl
      · rw [State.jigArmed_fget, State.fget_fset_beside _ _ _ _ (by decide) (by decide), State.setFlag,
          State.fget_fset_bits _ _ _ _ _ _ (by decide) (by decide), State.jigCtl_kind s (by omega)]
      · rw [State.jigArmed_fget, State.fget_fset_beside _ _ _ _ (by decide) (by decide), State.setFlag,
          State.fget_fset_bits _ _ _ _ _ _ (by decide) (by decide), State.jigCtl_trig s h3]
      · rw [State.jigArmed_fget, State.fget_fset_beside _ _ _ _ (by decide) (by decide), State.setFlag,
          State.fget_fset_bits _ _ _ _ _ _ (by decide) (by decide), State.jigCtl_unit s (hunit hd)]
      · rw [State.jigArmed_jig, spGet_spSet, if_neg (Ne.symm hj)]
  · have hexec : exec (.jigDisarm who c) s = .next (s.after (s.jigOff c (setBits (s.word (chanReg c)) 31 1 0))) := by
      have hbit : (setBits (s.word (chanReg c)) 31 1 0).getLsbD 31 = false := by
        have := getBits_setBits_same (s.word (chanReg c)) 31 1 0 (by decide)
        rw [getBits_bit] at this
        simpa using this
      have hchan : s.writeAt who (chanReg c) (setBits (s.word (chanReg c)) 31 1 0) = s.jigOff c (setBits (s.word (chanReg c)) 31 1 0) := by
        rw [State.writeAt_channel who hc, State.writeChan, hbit, if_neg (by simp)]
      rw [← hchan]
      refine Eq.trans ?_ (next_command _ ht)
      exact congrArg Host.Outcome.next (if_pos hc)
    refine ⟨fun harmed => ⟨s.jigDisarm c (some 8), ?_, ?_, ?_⟩, fun hfree => ⟨s.jigCtl c (setBits (s.word (chanReg c)) 31 1 0), ?_,
      State.jigCtl_jig _ _ _, fun a ha => ?_⟩⟩
    · rw [hexec, State.jigOff, if_pos (Option.isSome_iff_ne_none.mpr harmed)]
    · exact (s.jigDisarm_run c c _).trans (if_pos rfl)
    · obtain ⟨harm, hcode, hkind⟩ := State.jigDisarm_shows harmed (code := 8) (by omega)
      exact ⟨harm, hcode, fun j hj => (s.jigDisarm_run c j _).trans (if_neg hj), hkind⟩
    · rw [hexec, State.jigOff, if_neg (by simp [hfree])]
    · refine State.jigCtl_field (·.word a) (fun u f hf x => State.word_fset_other u f x 0 c a ?_) s _
      have haddr : f.addr 0 c = chanReg c := by
        simp only [chanCtlFields, List.mem_cons, List.not_mem_nil, or_false] at hf
        rcases hf with rfl | rfl | rfl | rfl <;> simp [Fld.addr, chanReg, F.JIG_CH_CTL_REPEAT, F.JIG_CH_CTL_TRIG, F.JIG_CH_CTL_KIND, F.JIG_CH_CTL_UNIT]
      rw [haddr]
      exact Ne.symm ha
  · refine ⟨s.jigDisarmAll 8, ?_, fun c hc => ?_⟩
    · have hall : s.writeAt who 0x7004 (bitWord 31) = s.jigDisarmAll 8 := by
        rw [State.writeAt_jig (by omega) (by omega), State.writeJig, if_pos rfl, onBit, if_pos (by decide)]
      rw [← hall]
      exact next_command _ ht
    · obtain ⟨hrun, hshow, -⟩ := State.jigDisarmAll_shows 8 8 0 s (by omega) c
      exact ⟨hrun (.inr (by omega)), hshow (by omega) (by omega)⟩
  · refine (next_atPort hup hp (·.reorderEnd p)).trans ?_
    rw [State.reorderEnd, hheld]
  · refine (next_atPort hup hp (·.reorderEnd p)).trans ?_
    rw [State.reorderEnd_none hnone]

end Sys2Proof.Machine
end

section
/-! The statement about the delay monitors (02 R60 to R73). -/
namespace Sys2Proof.Machine

section
variable {s : State} {k : Nat} {v : Word}

/-! ## The control register -/

theorem State.writeAt_slcReg (who : Party) {o : Nat} (hk : k < 18) (ho : o < 0x1000) (v : Word) :
    s.writeAt who (slcReg k o) v = s.writeSlc who k (slcReg k o) v := by
  rw [State.writeAt_slc (by rw [slcReg]; omega) (by rw [slcReg]; omega),
    show (slcReg k o - 0x20000) / 0x1000 = k by rw [slcReg]; omega]

theorem State.writeSlc_dmon (who : Party) (v : Word) : s.writeSlc who k (slcReg k 0xE00) v =
    onBit v 8 (fun s => s.dmonStart k) (onBit v 9 (fun s => s.dmonClrMin k) (s.writeFields who k (slcReg k 0xE00) v slcWritable)) := by
  have hoff : slcReg k 0xE00 % 0x1000 = 0xE00 := by rw [slcReg]; omega
  unfold State.writeSlc
  rw [hoff]
  rfl

/-- The fields of DMON_CTL keep their values when a command bit beside them is set. -/
theorem dmonCtl_untouched : ∀ k < 18, ∀ i, i = 8 ∨ i = 9 → ∀ w ∈ slcWritable, (w.fld.member k (slcReg k 0xE00)).isSome = true →
    w.untouched 0xFD i = true := by
  rintro k hk i (rfl | rfl)
  · revert k hk
    decide
  · revert k hk
    decide

theorem State.writeAt_dmonBit (who : Party) (hk : k < 18) (hwf : s.ArraysWf) {i : Nat} (hi : i = 8 ∨ i = 9) :
    s.writeAt who (slcReg k 0xE00) ((s.word (slcReg k 0xE00) &&& 0xFD) ||| bitWord i) = if i = 8 then s.dmonStart k else s.dmonClrMin k := by
  rw [State.writeAt_slcReg who hk (by decide), State.writeSlc_dmon, State.writeFields_commandBit hwf.regs (dmonCtl_untouched k hk i hi)]
  rcases hi with rfl | rfl
  · rw [onBit, if_pos (bit_commandBit (by decide)), onBit, bit_commandBit_other (by decide) (by decide), if_neg (by decide), if_pos rfl]
  · rw [onBit, bit_commandBit_other (by decide) (by decide), if_neg (by decide), onBit, if_pos (bit_commandBit (by decide)),
      if_neg (by decide)]

/-! ## Automatic measurements -/

theorem State.dmonAutoDue_off (h : s.flag F.SLC_DMON_CTL_AUTO k = false) : s.dmonAutoDue k = s := by
  rw [State.dmonAutoDue, h, if_neg (by simp)]

/-- The state in which the next automatic measurement is set and its time has come. -/
def State.autoMoved (s : State) (k : Nat) : State :=
  (s.until (s.slice k).autoAt).modSlice k (fun c => { c with autoAt := c.autoAt + usec (2 ^ s.fget F.SLC_DMON_CTL_INTERVAL k) })

theorem State.dmonAutoDue_eq (hauto : s.flag F.SLC_DMON_CTL_AUTO k = true) (hat : (s.slice k).autoAt ≠ 0) : s.dmonAutoDue k =
    if (s.slice k).measures then (s.autoMoved k).modSlice k (fun c => { c with deferred := true }) else (s.autoMoved k).dmonBegin k := by
  have hmeasures : ((s.autoMoved k).slice k).measures = (s.slice k).measures := by
    rw [State.autoMoved, State.slice_modSlice_same, State.until_slice, Slice.measures, Slice.measures]
  rw [State.dmonAutoDue, hauto, if_pos (by simpa using hat)]
  exact congrArg (fun b : Bool => if b then (s.autoMoved k).modSlice k (fun c => { c with deferred := true }) else (s.autoMoved k).dmonBegin k)
    hmeasures

theorem State.dmonBegin_slice (s : State) (k : Nat) : (s.dmonBegin k).slice k =
    { s.slice k with measuring := true, window := s.fget F.SLC_DMON_CTL_WINDOW k } := by rw [State.dmonBegin, State.slice_modSlice_same]

/-! ## The end of a measurement -/

/-- The factor of a count over a window (R65). -/
def speedFactor (count code : Nat) : Nat := min (256 * min count 0xFFFFF / (1800 * windowUs code)) 0xFFFF

theorem State.dmonReport_deferred (s : State) (k count code : Nat) :
    ((s.dmonReport k count code).slice k).deferred = (s.slice k).deferred := by
  rw [State.dmonReport, State.slice_modSlice_same]
  simp only [State.fset_slice, State.setFlag_slice]

/-- The state that shows count `n` and factor `f` of a window. -/
def State.reported (s : State) (k n code f : Nat) : State :=
  (((((s.fset F.SLC_DMON_SPEED_COUNT n k).fset F.SLC_DMON_SPEED_WIN code k).setFlag F.SLC_DMON_SPEED_VALID true k).fset
    F.SLC_DMON_FACTOR_FACTOR f k).fset F.SLC_DMON_FACTOR_MIN (min f (s.fget F.SLC_DMON_FACTOR_MIN k)) k)

theorem State.dmonReport_fget (s : State) (k count code : Nat) (g : Fld) (i j : Nat) :
    (s.dmonReport k count code).fget g i j = (s.reported k (min count 0xFFFFF) code (speedFactor count code)).fget g i j := by
  rw [State.dmonReport, State.modSlice_fget, State.reported, speedFactor]

theorem State.reported_shows (s : State) (k code : Nat) {n f : Nat} (hn : n < 2 ^ 20) (hf : f < 2 ^ 16) :
    (s.reported k n code f).fget F.SLC_DMON_SPEED_COUNT k = n ∧ (s.reported k n code f).flag F.SLC_DMON_SPEED_VALID k = true ∧
      (s.reported k n code f).fget F.SLC_DMON_FACTOR_FACTOR k = f ∧
      (s.reported k n code f).fget F.SLC_DMON_FACTOR_MIN k = min f (s.fget F.SLC_DMON_FACTOR_MIN k) := by
  refine ⟨?_, ?_, ?_, ?_⟩
  · simp (disch := decide) only [State.reported, State.setFlag, State.fget_fset_beside, State.fget_fset_bits, State.fget_fset_same]
    exact Nat.mod_eq_of_lt hn
  · simp (disch := decide) only [State.reported, State.flag, State.fget_fset_beside, State.fget_setFlag_same]
    rfl
  · simp (disch := decide) only [State.reported, State.fget_fset_bits, State.fget_fset_same]
    exact Nat.mod_eq_of_lt hf
  · simp (disch := decide) only [State.reported, State.fget_fset_same]
    exact Nat.mod_eq_of_lt (Nat.lt_of_le_of_lt (Nat.min_le_left _ _) hf)

theorem speedFactor_lt (count code : Nat) : speedFactor count code < 2 ^ 16 := by
  rw [speedFactor]
  exact Nat.lt_of_le_of_lt (Nat.min_le_right _ _) (by decide)

/-- What a report shows of the count and the factor. -/
theorem State.dmonReport_shows (s : State) (k count code : Nat) :
    (s.dmonReport k count code).fget F.SLC_DMON_SPEED_COUNT k = min count 0xFFFFF ∧
      (s.dmonReport k count code).flag F.SLC_DMON_SPEED_VALID k = true ∧
      (s.dmonReport k count code).fget F.SLC_DMON_FACTOR_FACTOR k = speedFactor count code ∧
      (s.dmonReport k count code).fget F.SLC_DMON_FACTOR_MIN k = min (speedFactor count code) (s.fget F.SLC_DMON_FACTOR_MIN k) := by
  simp only [State.flag, State.dmonReport_fget]
  exact s.reported_shows k code (Nat.lt_of_le_of_lt (Nat.min_le_right _ _) (by decide)) (speedFactor_lt _ _)

theorem State.dmonReport_age (s : State) (k count code : Nat) {g : Fld} (hg : g = F.SLC_DMON_AGE_AGE ∨ g = F.SLC_DMON_AGE_VALID) :
    (s.dmonReport k count code).fget g k = s.fget g k := by
  rw [State.dmonReport_fget]
  generalize min count 0xFFFFF = n
  generalize speedFactor count code = f
  rcases hg with rfl | rfl <;> simp (disch := decide) only [State.reported, State.setFlag, State.fget_fset_beside]

theorem State.dmonDeferred_fget (s : State) (k : Nat) (g : Fld) (i j : Nat) : (s.dmonDeferred k).fget g i j = s.fget g i j := by
  unfold State.dmonDeferred
  dsimp only
  split
  · rw [State.dmonBegin, State.modSlice_fget, State.modSlice_fget]
  · rfl

theorem State.dmonDeferred_none (h : (s.slice k).deferred = false) : s.dmonDeferred k = s := by
  rw [State.dmonDeferred, h, if_neg (by simp)]

/-- A deferred measurement that starts leaves the ageing measurement alone. -/
theorem State.dmonDeferred_ageing (s : State) (k : Nat) : ((s.dmonDeferred k).slice k).ageing = (s.slice k).ageing := by
  unfold State.dmonDeferred
  dsimp only
  split
  · rw [State.dmonBegin_slice, State.slice_modSlice_same]
  · rfl

theorem State.dmonEnd_eq (count : Nat) (h : (s.slice k).measuring = true) : s.dmonEnd k count =
    ((s.dmonReport k count (s.slice k).window).modSlice k (fun c => { c with measuring := false })).dmonDeferred k := by
  rw [State.dmonEnd, if_pos h]

theorem State.dmonEnd_fget (count : Nat) (h : (s.slice k).measuring = true) (g : Fld) (i j : Nat) :
    (s.dmonEnd k count).fget g i j = (s.dmonReport k count (s.slice k).window).fget g i j := by
  rw [State.dmonEnd_eq count h, State.dmonDeferred_fget, State.modSlice_fget]

theorem State.dmonEnd_ends (count : Nat) (h : (s.slice k).measuring = true) (hnone : (s.slice k).deferred = false) :
    ((s.dmonEnd k count).slice k).measuring = false := by
  have hkept := s.dmonReport_deferred k count (s.slice k).window
  have hslice := State.slice_modSlice_same (s.dmonReport k count (s.slice k).window) k (fun c => { c with measuring := false })
  rw [State.dmonEnd_eq count h, State.dmonDeferred_none (by rw [hslice]; exact hkept.trans hnone), hslice]

/-! ## Ageing -/

theorem State.ageingDue_eq (h : (s.slice k).ageAt ≠ 0) : s.ageingDue k = (s.until (s.slice k).ageAt).modSlice k (fun c =>
    { c with ageing := true, ageAt := c.ageAt + usec (2 ^ 20), ceHit := decide (s.pat.predCe < c.ceNow), ceNow := 0 }) := by
  rw [State.ageingDue, if_neg h]

/-- An ageing measurement ends with the ageing `age`, which it reports (R61). -/
def State.aged (s : State) (k speed age : Nat) : State :=
  (((((s.fset F.SLC_DMON_AGE_AGE age k).setFlag F.SLC_DMON_AGE_VALID true k)).dmonReport k speed 3).modSlice k
    (fun c => { c with ageing := false })).dmonDeferred k

theorem State.ageingEnd_bad (speed fresh : Nat) (h : (s.slice k).ageing = true) (hbad : s.boot.baseBad.getLsbD k = true) :
    s.ageingEnd k speed fresh = s.aged k speed 1001 := by
  rw [State.ageingEnd, if_pos h]
  dsimp only
  rw [if_pos hbad]
  rfl

theorem State.ageingEnd_good {speed fresh d : Nat} (h : (s.slice k).ageing = true) (hgood : s.boot.baseBad.getLsbD k = false)
    (hd : d = fresh * s.fget F.SLC_DMON_BASE_BASE k) (hpos : 0 < d) :
    s.ageingEnd k speed fresh = s.aged k speed (10000 * (d - speed * 2 ^ 14) / d) := by
  subst hd
  rw [State.ageingEnd, if_pos h]
  dsimp only
  rw [hgood, if_neg (by simp), if_neg (Nat.ne_of_gt hpos)]
  rfl

/-- What an ageing measurement shows and leaves. -/
theorem State.aged_shows (s : State) (k speed : Nat) {age : Nat} (hage : age < 2 ^ 16) :
    (s.aged k speed age).fget F.SLC_DMON_AGE_AGE k = age ∧ (s.aged k speed age).flag F.SLC_DMON_AGE_VALID k = true ∧
      ((s.aged k speed age).slice k).ageing = false := by
  refine ⟨?_, ?_, ?_⟩
  · rw [State.aged, State.dmonDeferred_fget, State.modSlice_fget, State.dmonReport_age _ _ _ _ (.inl rfl), State.setFlag,
      State.fget_fset_bits _ _ _ _ _ _ (by decide) (by decide), State.fget_fset_same _ _ _ _ _ (by decide)]
    exact Nat.mod_eq_of_lt hage
  · rw [State.flag, State.aged, State.dmonDeferred_fget, State.modSlice_fget, State.dmonReport_age _ _ _ _ (.inr rfl),
      State.fget_setFlag_same _ _ _ _ _ (by decide) (by decide)]
    rfl
  · rw [State.aged, State.dmonDeferred_ageing, State.slice_modSlice_same]

theorem ageing_lt (d speed : Nat) : 10000 * (d - speed) / d < 2 ^ 16 := by
  rcases Nat.eq_zero_or_pos d with rfl | hd
  · simp
  · have hle : 10000 * (d - speed) / d ≤ 10000 := by
      refine Nat.div_le_of_le_mul ?_
      rw [Nat.mul_comm d]
      exact Nat.mul_le_mul_left _ (Nat.sub_le _ _)
    omega

end

/-- Settles O41: the commands, the automatic measurements, and the ends of SPEED and ageing measurements. -/
theorem delayMonitors : Obligations.DelayMonitors := by
  unfold Obligations.DelayMonitors
  refine ⟨fun s who k hk ht hwf => ?_, fun s k hup hk => ⟨fun hauto hat => ?_, fun hoff => ?_, fun count f hrun hf => ?_, fun count hidle => ?_,
    fun hat => ?_, fun speed fresh hrun hgood hpos => ?_, fun speed fresh hrun hbad => ?_, fun speed fresh hidle => ?_⟩⟩
  · have hstart : exec (.dmonStart who k) s = .next (s.after (s.dmonStart k)) := by
      refine Eq.trans (congrArg Host.Outcome.next (if_pos hk)) ((next_command _ ht).trans ?_)
      rw [State.writeAt_dmonBit who hk hwf (.inl rfl), if_pos rfl]
    refine ⟨fun hidle => ?_, fun hrun => ?_, ?_⟩
    · rw [hstart, State.dmonStart, hidle, if_neg (by simp)]
      rfl
    · rw [hstart, State.dmonStart, if_pos hrun]
    · refine Eq.trans (congrArg Host.Outcome.next (if_pos hk)) ((next_command _ ht).trans ?_)
      rw [State.writeAt_dmonBit who hk hwf (.inr rfl), if_neg (by decide)]
      rfl
  · refine ⟨_, next_atSlice hup hk (·.dmonAutoDue k), ?_⟩
    rw [State.dmonAutoDue_eq hauto hat]
    have hmoved : (s.autoMoved k).slice k = { s.slice k with autoAt := (s.slice k).autoAt + usec (2 ^ s.fget F.SLC_DMON_CTL_INTERVAL k) } := by
      rw [State.autoMoved, State.slice_modSlice_same]
      rfl
    split
    · next hrun =>
      rw [State.slice_modSlice_same, hmoved]
      exact ⟨rfl, rfl, fun _ => rfl, fun h => absurd (hrun.symm.trans h) (by simp)⟩
    · next hrun =>
      rw [State.dmonBegin_slice, hmoved]
      exact ⟨rfl, rfl, fun h => absurd h hrun, fun _ => rfl⟩
  · refine (next_atSlice hup hk (·.dmonAutoDue k)).trans ?_
    rw [State.dmonAutoDue_off hoff]
  · obtain ⟨hcount, hvalid, hfactor, hmin⟩ := s.dmonReport_shows k count (s.slice k).window
    refine ⟨_, next_atSlice hup hk (·.dmonEnd k count), ?_, ?_, ?_, ?_, State.dmonEnd_ends count hrun⟩
    · rw [State.dmonEnd_fget count hrun, hcount]
    · rw [State.flag, State.dmonEnd_fget count hrun]
      exact hvalid
    · rw [State.dmonEnd_fget count hrun, hfactor, hf, speedFactor, windowUs]
    · rw [State.dmonEnd_fget count hrun, hmin, hf, speedFactor, windowUs]
  · refine (next_atSlice hup hk (·.dmonEnd k count)).trans ?_
    rw [State.dmonEnd, hidle, if_neg (by simp)]
  · refine ⟨_, next_atSlice hup hk (·.ageingDue k), ?_⟩
    rw [State.ageingDue_eq hat, State.slice_modSlice_same]
    exact ⟨rfl, rfl, rfl, rfl, rfl⟩
  · obtain ⟨hage, hvalid, hends⟩ := s.aged_shows k speed (ageing_lt (fresh * s.fget F.SLC_DMON_BASE_BASE k) (speed * 2 ^ 14))
    refine ⟨_, next_atSlice hup hk (·.ageingEnd k speed fresh), ?_⟩
    rw [State.ageingEnd_good hrun hgood rfl hpos]
    exact ⟨hvalid, hends, hage⟩
  · obtain ⟨hage, hvalid, -⟩ := s.aged_shows k speed (show 1001 < 2 ^ 16 by decide)
    refine ⟨_, next_atSlice hup hk (·.ageingEnd k speed fresh), ?_⟩
    rw [State.ageingEnd_bad speed fresh hrun hbad]
    exact ⟨hage, hvalid⟩
  · refine (next_atSlice hup hk (·.ageingEnd k speed fresh)).trans ?_
    rw [State.ageingEnd, hidle, if_neg (by simp)]

end Sys2Proof.Machine
end

section
/-! The statement about the barriers of the Clamp and stale handles (11 R429, R436, R443, R450, R451). -/
namespace Sys2Proof.Machine

section
variable {s : State} {l : Nat} {m : Msg} {e : ClampEnt}

/-! ## Arrivals at the bank -/

/-- The arrivals at a barrier when `m` has come (R450). -/
def ClampEnt.arrivals (e : ClampEnt) (m : Msg) : Nat := e.count + (slotField m 1 86 20).toNat + 1

/-- The record of an arrival. -/
def State.arriveRec (s : State) (m : Msg) : ClampRec := { m := m, role := .waiter, shared := false, prio := 0, stamp := s.now, note := none }

/-- The barrier with one arrival more. -/
def ClampEnt.arrived (e : ClampEnt) (m : Msg) (r : ClampRec) : ClampEnt :=
  { e with count := e.arrivals m, recs := e.recs ++ [r], came := if e.came.contains m.ten then e.came else e.came ++ [m.ten] }

/-- The barrier that has completed: a new epoch, and nobody in it. -/
def ClampEnt.completed (e : ClampEnt) : ClampEnt := { e with count := 0, epoch := e.epoch + 1, recs := [], came := [] }

/-- BarrierDone to the record of an arrival. -/
def State.barrierDone (s : State) (l : Nat) (ep : BitVec 16) (r : ClampRec) : State :=
  (s.wrapInc F.SLC_CLAMP_GRANTS_COUNT (s.physOf l)).clampSend l r.m Op.barrierDone (clampSlot (clHandle r.m) false ep 0)

theorem State.barrierDone_banks (s : State) (l : Nat) (ep : BitVec 16) (r : ClampRec) : (s.barrierDone l ep r).banks = s.banks := by
  rw [State.barrierDone, State.clampSend_banks, State.wrapInc_banks]

theorem State.relays_barrierDone (s : State) (l : Nat) (ep : BitVec 16) (r : ClampRec) : s.Relays (s.barrierDone l ep r) :=
  (State.relays_fset _ _ _ _ _).trans (State.relays_clampSend _ _ _ _ _)

theorem State.sends_barrierDone (s : State) (l : Nat) (ep : BitVec 16) (r : ClampRec) :
    s.sends (s.barrierDone l ep r) (respTo r.m Op.barrierDone 0 false 0 [clampSlot (clHandle r.m) false ep 0]) :=
  (State.relays_fset _ _ _ _ _).sends (State.sends_clampSend _ _ _ _ _)

/-- An open barrier of a bank, with room for one arrival more. -/
structure State.OpenBarrier (s : State) (l : Nat) (m : Msg) (e : ClampEnt) : Prop where
  ent : s.ent l (handleIdx m) = e
  barrier : e.st = .barrier
  room : e.recs.length < e.res

theorem State.barrierArrive_early (h : s.OpenBarrier l m e) (hn : e.arrivals m < e.target + 1) :
    s.barrierArrive l m = s.setEnt l (handleIdx m) (e.arrived m (s.arriveRec m)) := by
  obtain ⟨hent, hst, hroom⟩ := h
  rw [ClampEnt.arrivals] at hn
  rw [State.barrierArrive, hent]
  dsimp only
  rw [if_neg (by simp [hst]), if_neg (by omega), if_neg (by omega)]
  rfl

theorem State.barrierArrive_last (h : s.OpenBarrier l m e) (hn : e.arrivals m = e.target + 1) :
    s.barrierArrive l m = (e.recs ++ [s.arriveRec m]).foldl (fun (s : State) r => s.barrierDone l (e.epoch + 1) r)
      (s.setEnt l (handleIdx m) e.completed) := by
  obtain ⟨hent, hst, hroom⟩ := h
  rw [ClampEnt.arrivals] at hn
  rw [State.barrierArrive, hent]
  dsimp only
  rw [if_neg (by simp [hst]), if_neg (by omega), if_pos hn]
  rfl

theorem State.barrierArrive_over (h : s.OpenBarrier l m e) (hn : e.target + 1 < e.arrivals m) :
    s.barrierArrive l m = (s.breakEnt l (handleIdx m) 6).clampRsp l m Op.lockBroken 6 := by
  obtain ⟨hent, hst, hroom⟩ := h
  rw [ClampEnt.arrivals] at hn
  rw [State.barrierArrive, hent]
  dsimp only
  rw [if_neg (by simp [hst]), if_pos (.inl hn)]

theorem State.breakEnt_ent (s : State) (l i code : Nat) : (s.breakEnt l i code).ent l i =
    { s.ent l i with st := .broken, cause := code, count := 0, recs := [], came := [] } := by
  rw [State.breakEnt, State.ent_setEnt_same]

theorem State.relays_breakEnt (s : State) (l i code : Nat) : s.Relays (s.breakEnt l i code) :=
  ((s.breakWaiters_sends l (s.ent l i).recs code).1.trans (State.relays_bump _ _ _ _)).trans (State.relays_setEnt _ _ _ _)

/-! ## Which requests reach the bank, and what their handles name -/

/-- A handle that names a barrier of the requester's own tenant passes the checks of R436. -/
theorem State.clampCheck_barrier (hst : e.st = .barrier) (hgen : e.gen = handleGen m) (hten : m.ten = e.ten)
    (hop : m.op = Op.barrierArrive) : s.clampCheck l m e = none := by
  rw [State.clampCheck]
  dsimp only
  rw [if_neg (by simp [hop, hst, hgen, Op.barrierArrive]), if_neg (by simp [hten])]

theorem State.clampAt_barrier (hent : s.ent l (handleIdx m) = e) (hst : e.st = .barrier) (hgen : e.gen = handleGen m) (hten : m.ten = e.ten)
    (hhost : (s.lsl l).hosted = false) (hjig : s.jig = []) (hop : m.op = Op.barrierArrive) :
    s.clampAt l m = (true, s.barrierArrive l m) := by
  have halloc : m.op ≠ Op.clampAlloc := by rw [hop]; decide
  simp only [State.clampAt, if_neg halloc, State.clampRead_unarmed hjig, hhost, hent, State.clampCheck_barrier hst hgen hten hop,
    Bool.false_eq_true, if_false]
  rw [hop]
  rfl

/-- A handle of a FREE entry, or of another GEN, is stale whatever the request (R436). -/
theorem State.clampAt_stale (hent : s.ent l (handleIdx m) = e) (hstale : e.st = .free ∨ e.gen ≠ handleGen m)
    (hhost : (s.lsl l).hosted = false) (hjig : s.jig = []) (halloc : m.op ≠ Op.clampAlloc) :
    s.clampAt l m = (true, s.clampStale l m) := by
  have hcheck : s.clampCheck l m e = some (s.clampStale l m) := by
    rw [State.clampCheck]
    exact if_pos (hstale.elim .inl fun h => .inr (.inl h))
  simp only [State.clampAt, if_neg halloc, State.clampRead_unarmed hjig, hhost, hent, hcheck, Bool.false_eq_true, if_false]

theorem State.clampStale_bank (s : State) (l : Nat) (m : Msg) (z : Nat) : (s.clampStale l m).bank z = s.bank z :=
  State.bank_congr ((State.clampRsp_banks _ _ _ _ _).trans (State.bump_banks _ _ _ _)) z

theorem State.sends_clampStale (s : State) (l : Nat) (m : Msg) :
    s.sends (s.clampStale l m) (respTo m Op.handleStale 0 false 0 [clampSlot (clHandle m) false 0 0]) :=
  (State.relays_bump _ _ _ _).sends (State.sends_clampRsp _ _ _ _ _)

/-- A request with a stale handle changes nothing in the bank and is answered HandleStale. -/
theorem State.ReachesBank.stale (ha : s.ReachesBank l m) (hent : s.ent l (handleIdx m) = e) (hstale : e.st = .free ∨ e.gen ≠ handleGen m)
    (hhost : (s.lsl l).hosted = false) (hjig : s.jig = []) (halloc : m.op ≠ Op.clampAlloc) (hqueue : (s.bank l).queue = []) (p : Nat) :
    (s.request p m).bank l = s.bank l ∧
      s.sends (s.request p m) (respTo m Op.handleStale 0 false 0 [clampSlot (clHandle m) false 0 0]) := by
  have hbank : (s.atBank l m).clampAt l m = (true, (s.atBank l m).clampStale l m) :=
    State.clampAt_stale (by rw [State.atBank_ent, hent]) hstale (by rw [State.atBank_lsl, hhost]) (by rw [State.atBank_jig, hjig]) halloc
  have hreq : s.request p m = (s.atBank l m).clampStale l m := by
    by_cases hop : m.op = Op.lockAcq
    · exact ha.request_lockAcq hop hqueue hbank p
    · rw [ha.request hop, hbank]
  rw [hreq]
  exact ⟨(State.clampStale_bank _ _ _ _).trans (State.atBank_bank _ _ _ _), (s.relays_atBank l m).sends (State.sends_clampStale _ _ _)⟩

/-! ## What an arrival leaves and sends -/

section
variable (ha : s.ReachesBank l m) (hop : m.op = Op.barrierArrive) (hent : s.ent l (handleIdx m) = e) (hst : e.st = .barrier)
  (hgen : e.gen = handleGen m) (hten : m.ten = e.ten) (hhost : (s.lsl l).hosted = false) (hjig : s.jig = [])
  (hroom : e.recs.length < e.res) (p : Nat)
include ha hop hent hst hgen hten hhost hjig

theorem State.ReachesBank.request_barrier : s.request p m = (s.atBank l m).barrierArrive l m := by
  rw [ha.request (by rw [hop]; decide), State.clampAt_barrier (by rw [State.atBank_ent, hent]) hst hgen hten
    (by rw [State.atBank_lsl, hhost]) (by rw [State.atBank_jig, hjig]) hop]

include hroom

/-- One that does not complete the barrier waits. -/
theorem State.ReachesBank.barrier_early (hn : e.arrivals m < e.target + 1) :
    (s.request p m).ent l (handleIdx m) = e.arrived m ((s.atBank l m).arriveRec m) ∧ ∀ q, (s.request p m).port q = s.port q := by
  have hopen : (s.atBank l m).OpenBarrier l m e := ⟨by rw [State.atBank_ent, hent], hst, hroom⟩
  rw [ha.request_barrier hop hent hst hgen hten hhost hjig, State.barrierArrive_early hopen hn, State.ent_setEnt_same]
  exact ⟨rfl, fun q => s.atBank_port l m q⟩

/-- The last one completes it, and everybody is answered. -/
theorem State.ReachesBank.barrier_last (hn : e.arrivals m = e.target + 1) :
    (s.request p m).ent l (handleIdx m) = e.completed ∧
      s.sends (s.request p m) (respTo m Op.barrierDone 0 false 0 [clampSlot (clHandle m) false (e.epoch + 1) 0]) ∧
      ∀ r ∈ e.recs, s.sends (s.request p m) (respTo r.m Op.barrierDone 0 false 0 [clampSlot (clHandle r.m) false (e.epoch + 1) 0]) := by
  have hopen : (s.atBank l m).OpenBarrier l m e := ⟨by rw [State.atBank_ent, hent], hst, hroom⟩
  obtain ⟨-, hmsgs⟩ := State.foldl_sends (fun (s : State) r => s.relays_barrierDone l (e.epoch + 1) r)
    (fun s r => s.sends_barrierDone l (e.epoch + 1) r) (e.recs ++ [(s.atBank l m).arriveRec m])
    ((s.atBank l m).setEnt l (handleIdx m) e.completed)
  have hrelay := (s.relays_atBank l m).trans (State.relays_setEnt _ l (handleIdx m) e.completed)
  rw [ha.request_barrier hop hent hst hgen hten hhost hjig, State.barrierArrive_last hopen hn]
  refine ⟨?_, hrelay.sends (hmsgs ((s.atBank l m).arriveRec m) (List.mem_append_right _ (List.mem_singleton_self _))),
    fun r hr => hrelay.sends (hmsgs r (List.mem_append_left _ hr))⟩
  rw [State.ent_congr (State.foldl_field State.banks (fun s r => s.barrierDone_banks l (e.epoch + 1) r) _ _), State.ent_setEnt_same]

/-- One too many breaks it. -/
theorem State.ReachesBank.barrier_over (hn : e.target + 1 < e.arrivals m) :
    (s.request p m).ent l (handleIdx m) = { e with st := .broken, cause := 6, count := 0, recs := [], came := [] } ∧
      s.sends (s.request p m) (respTo m Op.lockBroken 0 false 0 [clampSlot (clHandle m) false 0 6]) := by
  have hopen : (s.atBank l m).OpenBarrier l m e := ⟨by rw [State.atBank_ent, hent], hst, hroom⟩
  rw [ha.request_barrier hop hent hst hgen hten hhost hjig, State.barrierArrive_over hopen hn, State.clampRsp_ent, State.breakEnt_ent,
    hopen.ent]
  exact ⟨rfl, ((s.relays_atBank l m).trans (State.relays_breakEnt _ _ _ _)).sends (State.sends_clampRsp _ _ _ _ _)⟩

end

/-- A request whose handle names no slice of the Pattern is answered HandleStale, and nothing else happens (R429). -/
theorem State.request_unmapped (hclamp : isClamp m.op = true) (halloc : m.op ≠ Op.clampAlloc) (h : s.pat.nActive ≤ handleSlice m) (p : Nat) :
    s.request p m = s.send (respTo m Op.handleStale 0 false 0 [clampSlot (clHandle m) false 0 0]) := by
  rw [State.request]
  exact if_pos (by simp [hclamp, halloc, h])

/-! ## The ingress queue -/

theorem State.clampRetry_empty (h : (s.bank l).queue = []) : s.clampRetry l = s := by rw [State.clampRetry, h]

theorem State.clampRetry_eq {p : Nat} {t : List (Msg × Nat)} {r : Bool × State} (h : (s.bank l).queue = (m, p) :: t)
    (hat : s.clampAt l m = r) : s.clampRetry l = if r.1 then r.2.modBank l (fun b => { b with queue := t }) else s := by
  rw [State.clampRetry, h]
  dsimp only
  rw [hat]

end

/-- Settles O30: an arrival waits, completes the barrier or breaks it; a stale handle is answered so; the queue's first goes when it can. -/
theorem clampBarriers : Obligations.ClampBarriers := by
  unfold Obligations.ClampBarriers
  refine ⟨fun s v p l i m w o e hw hadm hv hnew hheld hhost hawake he hl hlive hi => ?_, fun s v p m w hw hadm hv hslice => ?_,
    fun s l hup hl => ⟨fun hnone => ?_, fun m p t r hqueue hat => ?_, fun m p t r hqueue hat => ?_⟩⟩
  · obtain ⟨-, hjig, -, hask⟩ := hnew
    subst hi
    have hexec : s.requestOf p m o = s.after (v.request p w) := by
      subst hw hv
      exact State.requestOf_eq hadm
    have hop : w.op = o := by rw [hw]
    have ha (ho : isClamp o = true ∧ o ≠ Op.clampAlloc) : v.ReachesBank l w := by
      obtain ⟨hclamp, hne⟩ := hop ▸ ho
      exact ⟨hclamp, hl ▸ State.reqPlace_handle hclamp hne v, .inr (hl ▸ hlive), hask, hheld, hawake⟩
    refine ⟨fun ho hst hgen hten hroom => ⟨fun hn => ?_, fun hn => ?_, fun hn => ?_⟩, fun c hc hqueue hstale => ?_⟩
    · subst ho
      obtain ⟨hent, hports⟩ := (ha (by decide)).barrier_early hop he hst hgen hten hhost hjig hroom p hn
      exact ⟨v.request p w, (v.atBank l w).arriveRec w, congrArg _ hexec, by rw [hent]; rfl, by rw [hent]; rfl, rfl, by rw [hent]; rfl, hports⟩
    · subst ho
      obtain ⟨hent, hsends⟩ := (ha (by decide)).barrier_last hop he hst hgen hten hhost hjig hroom p hn
      exact ⟨v.request p w, congrArg _ hexec, by rw [hent]; rfl, by rw [hent]; rfl, by rw [hent]; rfl, hsends⟩
    · subst ho
      obtain ⟨hent, hsend⟩ := (ha (by decide)).barrier_over hop he hst hgen hten hhost hjig hroom p hn
      exact ⟨v.request p w, congrArg _ hexec, by rw [hent], by rw [hent], by rw [hent], hsend⟩
    · have hrow : exec c s = .next (s.requestOf p m o) ∧ isClamp o = true ∧ o ≠ Op.clampAlloc := by
        simp only [List.mem_cons, List.not_mem_nil, or_false, Prod.mk.injEq] at hc
        rcases hc with ⟨rfl, rfl⟩ | ⟨rfl, rfl⟩ | ⟨rfl, rfl⟩ | ⟨rfl, rfl⟩ | ⟨rfl, rfl⟩ <;> exact ⟨rfl, by decide⟩
      obtain ⟨hcmd, ho⟩ := hrow
      exact ⟨v.request p w, hcmd.trans (congrArg _ hexec), (ha ho).stale he hstale hhost hjig (hop ▸ ho.2) hqueue p⟩
  · subst hv
    have hop : w.op = Op.lockAcq := by rw [hw]
    refine (next_taken (fun m s => s.request p m) hw hadm).trans ?_
    rw [State.request_unmapped (by rw [hop]; decide) (by rw [hop]; decide) hslice]
  · refine (next_run hup _).trans ?_
    rw [if_pos hl, State.clampRetry_empty hnone]
  · refine (next_run hup _).trans ?_
    rw [if_pos hl, State.clampRetry_eq hqueue hat, if_pos rfl]
  · refine (next_run hup _).trans ?_
    rw [if_pos hl, State.clampRetry_eq hqueue hat, if_neg (by simp)]

end Sys2Proof.Machine
end

section
/-! SUPPORT. A scrub pass over arrays in which no way holds anything (09 R366, R367, 10 R404, R405). -/
namespace Sys2Proof.Machine

section
variable {s : State} {k n w : Nat}

/-! ## Scrub passes that find nothing -/

theorem State.latentRan_field {α : Type} (get : State → α) (hregs : ∀ (s : State) x, get { s with regs := x } = get s)
    (hlatent : ∀ (s : State) x, get { s with latent := x } = get s) (s : State) (u t : BitVec 8) : get (s.latentRan u t) = get s := by
  have hsync : get s.latentSync = get s := by
    unfold State.latentSync
    split
    · rfl
    · dsimp only
      split
      · rfl
      · split
        · exact (hlatent _ _).trans (hregs _ _)
        · exact hlatent _ _
  unfold State.latentRan
  dsimp only
  split
  · exact hsync
  · exact (hlatent _ _).trans hsync

theorem State.latentRan_slice (s : State) (u t : BitVec 8) (k : Nat) : (s.latentRan u t).slice k = s.slice k :=
  State.latentRan_field (·.slice k) (fun _ _ => rfl) (fun _ _ => rfl) s u t

/-- A latent test that ran changes no field of a unit's registers. -/
theorem State.latentRan_fget (s : State) (u t : BitVec 8) {g : Fld} (hbelow : F.SAF_LT_PASSES.below g = true) (hg : g.lsb + g.wid ≤ 32)
    (i j : Nat) : (s.latentRan u t).fget g i j = s.fget g i j := by
  have hsync : s.latentSync.fget g i j = s.fget g i j := by
    unfold State.latentSync
    split
    · rfl
    · dsimp only
      split
      · rfl
      · split
        · exact State.fget_fset_below s _ _ _ _ _ hbelow hg
        · rfl
  unfold State.latentRan
  dsimp only
  split
  · exact hsync
  · exact hsync

theorem State.sfScrub_empty (hscrub : s.scrubbed k = true) (hsf : (s.slice k).sf = []) : s.sfScrub k [] = s := by
  rw [State.sfScrub, if_pos hscrub, hsf]
  rfl

theorem State.hcScrub_empty (hscrub : s.scrubbed k = true) (hhc : (s.slice k).hc = []) : s.hcScrub k [] = s := by
  rw [State.hcScrub, if_pos hscrub, hhc]
  rfl

/-! ## A hard fault in an empty array -/

theorem eraseDups_singleton (a : Nat × Nat) : [a].eraseDups = [a] := rfl

theorem State.sfScrub_one (hscrub : s.scrubbed k = true) (hsf : (s.slice k).sf = []) (hn : n < 65536) (hw : w < 16) :
    s.sfScrub k [(n, w)] = s.sfScrubEntry k n w true := by
  rw [State.sfScrub, if_pos hscrub, hsf]
  dsimp only
  rw [List.filter_cons_of_pos (by simp [hn, hw]), List.filter_nil, eraseDups_singleton]
  simp only [List.map_nil, List.nil_append, List.foldl_cons, List.foldl_nil, List.contains_cons, beq_self_eq_true, Bool.true_or]

theorem State.hcScrub_one (hscrub : s.scrubbed k = true) (hhc : (s.slice k).hc = []) (hn : n < 1024) (hw : w < 16) :
    s.hcScrub k [(n, w)] = s.hcScrubFrame k n w true := by
  rw [State.hcScrub, if_pos hscrub, hhc]
  dsimp only
  rw [List.map_nil, List.filter_nil, List.filter_cons_of_pos (by simp [hn, hw]), List.filter_nil, eraseDups_singleton]
  simp only [List.nil_append, List.foldl_cons, List.foldl_nil, List.contains_cons, beq_self_eq_true, Bool.true_or]

theorem State.jigRead_unarmed (h : s.jig = []) (kind u : Nat) (a : Option Addr) : s.jigRead kind u a = (0, s) := by
  rw [State.jigRead, h]
  rfl

theorem sfCheck_zero : sfCheck 0 = .good 0 := by decide +kernel

theorem popNat_zero (n : Nat) : popNat n 0 = 0 := by
  induction n with
  | zero => rfl
  | succ n ih => rw [popNat, ih]; simp

/-- Reading an entry that is empty finds nothing. -/
theorem State.sfCheckWay_empty (hjig : s.jig = []) (hzero : s.sfAt k n w = 0) : s.sfCheckWay k n w = s := by
  rw [State.sfCheckWay]
  split
  · rfl
  · rw [State.jigRead_unarmed hjig]
    dsimp only
    rw [if_pos rfl, popNat_zero, if_neg (by simp), if_neg (by simp), if_neg (by simp), hzero, sfCheck_zero]

/-- A corrected error that the scrub counts at entry `(n, w)`. -/
def State.sfScrubbed (s : State) (k n w : Nat) : State :=
  (((s.countCE k).bump F.SLC_SF_ECCCNT_CE k).sfEccLast k n w false).corrected 0x10 (unitSlice k) none none

theorem State.sfScrubbed_slice (s : State) (k n w : Nat) : (s.sfScrubbed k n w).slice k = { s.slice k with ceNow := (s.slice k).ceNow + 1 } := by
  rw [State.sfScrubbed, State.corrected_slice, State.sfEccLast]
  simp only [State.fset_slice, State.setFlag_slice, State.bump_slice]
  rw [State.countCE, State.slice_modSlice_same]

theorem State.sfScrubbed_jig (s : State) (k n w : Nat) : (s.sfScrubbed k n w).jig = s.jig := by
  rw [State.sfScrubbed, State.corrected_jig, State.sfEccLast]
  simp only [State.fset_jig, State.setFlag_jig, State.bump_jig]
  rfl

theorem State.sfScrubbed_count (s : State) (k n w : Nat) : (s.sfScrubbed k n w).fget F.SLC_SF_ECCCNT_CE k =
    min (s.fget F.SLC_SF_ECCCNT_CE k + 1) (onesMask F.SLC_SF_ECCCNT_CE.wid) := by
  have hbelow : ∀ f ∈ [F.SAF_CNT0_CORR, F.SAF_LOG_STAT_DROPPED, F.EVG_DROP_FULL], f.below F.SLC_SF_ECCCNT_CE = true := by decide
  rw [State.sfScrubbed, State.corrected_fget _ _ _ _ _ _ _ _
    (List.all_eq_true.mpr fun f hf => Fld.apart_below (hbelow f hf) k 0 _ _) (by decide)]
  simp (disch := decide) only [State.sfEccLast, State.setFlag, State.fget_fset_beside, State.bump, State.fget_bumpBy_same]
  rfl

/-- A way with a hard fault in an empty snoop filter is counted and retired (09 R366, R367). -/
theorem State.sfScrubEntry_hard (hjig : s.jig = []) (hsf : (s.slice k).sf = []) (hret : s.sfRetired k n w = false)
    (hroom : (s.slice k).sfRet.length < 256) : s.sfScrubEntry k n w true =
      (s.sfScrubbed k n w).modSlice k (fun c => { c with sfRet := c.sfRet ++ [(n, w)] }) := by
  have hzero : s.sfAt k n w = 0 := by rw [State.sfAt, hsf]; rfl
  have hslice := s.sfScrubbed_slice k n w
  have hzero' : (s.sfScrubbed k n w).sfAt k n w = 0 := by rw [State.sfAt, hslice, hsf]; rfl
  have hret' : (s.sfScrubbed k n w).sfRetired k n w = false := by rw [State.sfRetired, hslice]; exact hret
  have hcheck : (s.sfScrubbed k n w).sfCheckWay k n w = s.sfScrubbed k n w :=
    State.sfCheckWay_empty ((s.sfScrubbed_jig k n w).trans hjig) hzero'
  have hmoved : ((s.sfScrubbed k n w).slice k).ceNow ≠ (s.slice k).ceNow := by
    rw [hslice]
    exact Nat.succ_ne_self _
  have hfault : (s.sfScrubbed k n w).sfHardFault k n w = (s.sfScrubbed k n w).modSlice k (fun c => { c with sfRet := c.sfRet ++ [(n, w)] }) := by
    rw [State.sfHardFault, hret', if_neg (by simp)]
    dsimp only
    rw [hzero', if_neg (by decide), State.sfRetire, hret', if_neg (by simp), if_neg (by rw [hslice]; exact Nat.not_le.mpr hroom)]
  have hcounted : (if (true && (s.slice k).ceNow == (s.slice k).ceNow && !s.sfRetired k n w) = true then
      (((s.countCE k).bump F.SLC_SF_ECCCNT_CE k).sfEccLast k n w false).corrected 0x10 (unitSlice k) none none else s) = s.sfScrubbed k n w :=
    if_pos (by simp [hret])
  rw [State.sfScrubEntry, hret, if_neg (by simp)]
  dsimp only
  rw [State.sfCheckWay_empty hjig hzero, hcounted, if_neg hmoved, hcheck, if_pos (by simp), hfault]

theorem tagCheck_free : tagCheck Frame.free.tag = .good := by decide

theorem State.hcCheckTag_empty (hjig : s.jig = []) (hfree : s.frame k n w = Frame.free) : s.hcCheckTag k n w = s := by
  rw [State.hcCheckTag]
  split
  · rfl
  · rw [State.jigRead_unarmed hjig]
    dsimp only
    rw [if_pos rfl, if_neg (by simp), if_neg (by simp), hfree, tagCheck_free]

theorem State.readSub_empty (hfree : s.frame k n w = Frame.free) (b : Nat) : s.readSub k n w b = s := by
  have hread (h : Nat) : s.readCw k n w b h = (false, s) := by
    rw [State.readCw, hfree]
    dsimp only
    exact if_pos (by simp [Frame.free, tagV])
  rw [State.readSub, State.readSubP]
  dsimp only
  rw [hread, hread]

/-- A frame with a hard fault in an empty home cache is retired (10 R405). -/
theorem State.hcScrubFrame_hard (hjig : s.jig = []) (hhc : (s.slice k).hc = []) (hops : (s.slice k).memOps = [])
    (hret : (s.slice k).hcRet.contains (n, w) = false) (hroom : (s.slice k).hcRet.length < 128) : s.hcScrubFrame k n w true =
      (s.modSlice k (fun c => { c with hcRet := c.hcRet ++ [(n, w)] })).setFrame k n w Frame.free := by
  have hfree : s.frame k n w = Frame.free := by rw [State.frame, hhc]; rfl
  have hret' : s.hcRetired k n w = false := by rw [State.hcRetired, hret, hops]; rfl
  have hreads : forUp (fun b (s : State) => s.readSub k n w b) 0 4 s = s := forUp_fixed (fun b => State.readSub_empty hfree b) 4 0
  have hflush : s.hcRetireFrame k n w = s.hcRecordRetired k n w := by
    rw [State.hcRetireFrame, hret', if_neg (by simp)]
    dsimp only
    rw [hreads, forUp_fixed (s := s) (fun b => by rw [hfree]; exact if_neg (by simp [Frame.free, tagV])) 4 0, hret', if_neg (by simp)]
  rw [State.hcScrubFrame, hret', if_neg (by simp)]
  dsimp only
  rw [State.hcCheckTag_empty hjig hfree, hreads, if_pos rfl, Bool.true_or, if_pos rfl, hflush, State.hcRecordRetired, hret,
    if_neg (by simp), if_neg (Nat.not_le.mpr hroom)]

end

end Sys2Proof.Machine
end

section
/-! The statement about scrubbing and the diagnostic reads (03 R103, 09 R366 to R378, 10 R404, 11 R453, R457). -/
namespace Sys2Proof.Machine

section
variable {s : State} {k : Nat} {who : Party} {v : Word}

/-! ## What wakes for a diagnostic read -/

theorem State.diagWake_fget (s : State) (k : Nat) (g : Fld) (i j : Nat) : (s.diagWake k).fget g i j = s.fget g i j := by
  unfold State.diagWake
  split
  · exact State.wakeSlice_field (·.fget g i j) (fun _ _ => rfl) s k
  · rfl

/-- Waking a slice leaves the reads under way in it alone. -/
theorem State.wakeSlice_reads (s : State) (k : Nat) : ((s.wakeSlice k).slice k).rdBusy = (s.slice k).rdBusy ∧
    ((s.wakeSlice k).slice k).hselBusy = (s.slice k).hselBusy := by
  unfold State.wakeSlice
  dsimp only
  split
  · exact ⟨rfl, rfl⟩
  · split <;> rw [State.slice_modSlice_same] <;> exact ⟨rfl, rfl⟩

theorem State.diagWake_reads (s : State) (k : Nat) : ((s.diagWake k).slice k).rdBusy = (s.slice k).rdBusy ∧
    ((s.diagWake k).slice k).hselBusy = (s.slice k).hselBusy := by
  unfold State.diagWake
  split
  · exact s.wakeSlice_reads k
  · exact ⟨rfl, rfl⟩

/-! ## The command registers -/

/-- Bits below a command bit are written as they stand. -/
theorem getBits_or_bitWord (v : Word) {lsb wid i : Nat} (h : lsb + wid ≤ i) : getBits (v ||| bitWord i) lsb wid = getBits v lsb wid := by
  apply Nat.eq_of_testBit_eq
  intro j
  rw [testBit_getBits, testBit_getBits]
  by_cases hj : j < wid
  · rw [BitVec.getLsbD_or, getLsbD_bitWord, decide_eq_false (show i ≠ lsb + j by omega), Bool.and_false, Bool.or_false]
  · simp [hj]

theorem bit_or_bitWord (v : Word) {i : Nat} (hi : i < 32) : (v ||| bitWord i).getLsbD i = true := by
  rw [BitVec.getLsbD_or, getLsbD_bitWord, decide_eq_true hi, decide_eq_true rfl, Bool.true_and, Bool.or_true]

/-- SLCn_SF_RDSEL: its two fields are written, and GO starts the read. -/
theorem State.writeAt_rdsel (hk : k < 18) : s.writeAt who (slcReg k 0x838) (v ||| bitWord 31) =
    ((s.fset F.SLC_SF_RDSEL_WAY (getBits v 16 4) k).fset F.SLC_SF_RDSEL_SET (getBits v 0 16) k).sfRdGo k := by
  have hfields : ∀ k < 18, slcWritable.filter (fun w => (w.fld.member k (0x20838 + 0x1000 * k)).isSome) =
      [⟨F.SLC_SF_RDSEL_WAY, .rw, []⟩, ⟨F.SLC_SF_RDSEL_SET, .rw, []⟩] ∧ F.SLC_SF_RDSEL_WAY.member k (0x20838 + 0x1000 * k) = some 0 ∧
      F.SLC_SF_RDSEL_SET.member k (0x20838 + 0x1000 * k) = some 0 := by decide
  obtain ⟨htwo, hway, hset⟩ := hfields k hk
  have hwayBits : getBits (v ||| bitWord 31) F.SLC_SF_RDSEL_WAY.lsb F.SLC_SF_RDSEL_WAY.wid = getBits v 16 4 :=
    getBits_or_bitWord v (by decide)
  have hsetBits : getBits (v ||| bitWord 31) F.SLC_SF_RDSEL_SET.lsb F.SLC_SF_RDSEL_SET.wid = getBits v 0 16 :=
    getBits_or_bitWord v (by decide)
  have hslc : s.writeSlc who k (slcReg k 0x838) (v ||| bitWord 31) = s.writeRdsel who k (v ||| bitWord 31) := by
    have hoff : slcReg k 0x838 % 0x1000 = 0x838 := by rw [slcReg]; omega
    unfold State.writeSlc
    rw [hoff]
    rfl
  rw [State.writeAt_slcReg who hk (by decide), hslc, State.writeRdsel, onBit, if_pos (bit_or_bitWord v (by decide)),
    State.writeFields_filter, htwo]
  simp only [State.writeFields, List.foldl_cons, List.foldl_nil, State.writeField, hway, hset, hwayBits, hsetBits, List.isEmpty_nil,
    Bool.true_or, if_true]

/-- SLCn_CLAMP_HSEL: the index is written, and GO starts the read. -/
theorem State.writeAt_hsel (hk : k < 18) (i : BitVec 12) : s.writeAt who (slcReg k 0xD18) (bitWord 31 ||| i.zeroExtend 32) =
    (s.fset F.SLC_CLAMP_HSEL_INDEX i.toNat k).hselGo k := by
  have hfields : ∀ k < 18, slcWritable.filter (fun w => (w.fld.member k (0x20D18 + 0x1000 * k)).isSome) =
      [⟨F.SLC_CLAMP_HSEL_INDEX, .rw, []⟩] ∧ F.SLC_CLAMP_HSEL_INDEX.member k (0x20D18 + 0x1000 * k) = some 0 := by decide
  obtain ⟨hone, hindex⟩ := hfields k hk
  have hbits : getBits (bitWord 31 ||| i.zeroExtend 32) F.SLC_CLAMP_HSEL_INDEX.lsb F.SLC_CLAMP_HSEL_INDEX.wid = i.toNat := by
    rw [BitVec.or_comm]
    refine (getBits_or_bitWord _ (by decide)).trans ?_
    simp only [getBits, F.SLC_CLAMP_HSEL_INDEX, Nat.shiftRight_zero, BitVec.truncate_eq_setWidth, BitVec.toNat_setWidth]
    omega
  have hbit : (bitWord 31 ||| i.zeroExtend 32).getLsbD 31 = true := by
    rw [BitVec.or_comm]
    exact bit_or_bitWord _ (by decide)
  have hslc (x : Word) : s.writeSlc who k (slcReg k 0xD18) x = s.writeHsel who k x := by
    have hoff : slcReg k 0xD18 % 0x1000 = 0xD18 := by rw [slcReg]; omega
    unfold State.writeSlc
    rw [hoff]
    rfl
  rw [State.writeAt_slcReg who hk (by decide), hslc, State.writeHsel, onBit, if_pos hbit, State.writeFields_one hone]
  simp only [State.writeField, hindex, hbits, List.isEmpty_nil, Bool.true_or, if_true]

theorem State.writeAt_looseClear (hk : k < 18) : s.writeAt who (slcReg k 0x824) (bitWord 31) = s.looseClear k := by
  have hoff : slcReg k 0x824 % 0x1000 = 0x824 := by rw [slcReg]; omega
  have hslc : s.writeSlc who k (slcReg k 0x824) (bitWord 31) = onBit (bitWord 31) 31 (fun s => s.looseClear k) s := by
    unfold State.writeSlc
    rw [hoff]
    rfl
  rw [State.writeAt_slcReg who hk (by decide), hslc, onBit, if_pos (by decide)]

theorem State.writeAt_clampBreak (hk : k < 18) (i : BitVec 12) :
    s.writeAt who (slcReg k 0xD14) (bitWord 31 ||| i.zeroExtend 32) = s.clampBreak k i.toNat := by
  have hoff : slcReg k 0xD14 % 0x1000 = 0xD14 := by rw [slcReg]; omega
  have hbits : getBits (bitWord 31 ||| i.zeroExtend 32) 0 12 = i.toNat := by
    rw [BitVec.or_comm]
    refine (getBits_or_bitWord _ (by decide)).trans ?_
    simp only [getBits, Nat.shiftRight_zero, BitVec.truncate_eq_setWidth, BitVec.toNat_setWidth]
    omega
  have hbit : (bitWord 31 ||| i.zeroExtend 32).getLsbD 31 = true := by
    rw [BitVec.or_comm]
    exact bit_or_bitWord _ (by decide)
  have hslc (x : Word) : s.writeSlc who k (slcReg k 0xD14) x = onBit x 31 (fun s => s.clampBreak k (getBits x 0 12)) s := by
    unfold State.writeSlc
    rw [hoff]
    rfl
  rw [State.writeAt_slcReg who hk (by decide), hslc, onBit, if_pos hbit, hbits]

/-- GLB_HPROBE_ADDR_HI: the upper address bits are written, and GO starts the probe. -/
theorem State.writeAt_hprobe : s.writeAt who 0x144 (v ||| bitWord 31) = (s.fset F.GLB_HPROBE_ADDR_HI_ADDR_HI (getBits v 0 20)).hprobeGo := by
  have hone : glbWritable.filter (fun w => (w.fld.member 0 0x144).isSome) = [⟨F.GLB_HPROBE_ADDR_HI_ADDR_HI, .rw, []⟩] := by decide
  have hmember : F.GLB_HPROBE_ADDR_HI_ADDR_HI.member 0 0x144 = some 0 := by decide
  have hbits : getBits (v ||| bitWord 31) F.GLB_HPROBE_ADDR_HI_ADDR_HI.lsb F.GLB_HPROBE_ADDR_HI_ADDR_HI.wid = getBits v 0 20 :=
    getBits_or_bitWord v (by decide)
  have hglb (x : Word) : s.writeGlb who 0x144 x = s.writeProbe who x := rfl
  rw [State.writeAt_glb (by decide), hglb, State.writeProbe, onBit, if_pos (bit_or_bitWord v (by decide)), State.writeFields_one hone]
  simp only [State.writeField, hmember, hbits, List.isEmpty_nil, Bool.true_or, if_true]

theorem State.hprobeGo_shows (s : State) : s.hprobeGo.probing = true ∧ s.hprobeGo.flag F.GLB_HPROBE_RES0_VALID = false ∧
    s.hprobeGo.fget F.GLB_HPROBE_ADDR_HI_ADDR_HI = s.fget F.GLB_HPROBE_ADDR_HI_ADDR_HI :=
  ⟨rfl, State.flag_setFlag_same s _ false 0 0 (by decide) (by decide),
    State.fget_fset_beside (f := F.GLB_HPROBE_RES0_VALID) s _ 0 0 (by decide) (by decide)⟩

/-- A BREAK of a lock breaks it with cause 3, and answers its waiters (11 R453). -/
theorem State.clampBreak_lock {l i : Nat} (hl : s.logicalOn k = some l) (hst : (s.ent l i).st = .lock) :
    s.clampBreak k i = s.breakEnt l i 3 := by
  rw [State.clampBreak, hl]
  exact if_pos (.inl hst)

theorem State.breakEnt_sends (s : State) (l i code : Nat) : ∀ r ∈ (s.ent l i).recs, r.role = .waiter →
    s.sends (s.breakEnt l i code) (respTo r.m Op.lockBroken 0 false 0 [clampSlot (clHandle r.m) false 0 code]) :=
  fun r hr hw => ((s.breakWaiters_sends l (s.ent l i).recs code).2 r hr hw).relay
    ((State.relays_bump _ _ _ _).trans (State.relays_setEnt _ _ _ _))

/-! ## The ends of the reads -/

theorem State.sfRdDone_idle (h : (s.slice k).rdBusy = false) : s.sfRdDone k = s := by
  rw [State.sfRdDone, h]
  exact if_neg (by simp)

/-- The state that shows 118 bits `x` of an SF entry. -/
def State.sfShown (s : State) (k x : Nat) : State :=
  (((((s.fset F.SLC_SF_RDDATA_DATA (x / 2 ^ (32 * 0)) k 0).fset F.SLC_SF_RDDATA_DATA (x / 2 ^ (32 * 1)) k 1).fset
    F.SLC_SF_RDDATA_DATA (x / 2 ^ (32 * 2)) k 2).fset F.SLC_SF_RDDATA3_DATA (x / 2 ^ 96) k).setFlag F.SLC_SF_RDDATA3_UE false k).setFlag
    F.SLC_SF_RDDATA3_VALID true k

theorem State.sfRdDone_good {e : BitVec 118} (hbusy : (s.slice k).rdBusy = true) (hready : s.diagReady k = true)
    (hreads : s.diagReads k = true) (he : sfCheck (s.sfAt k (s.fget F.SLC_SF_RDSEL_SET k) (s.fget F.SLC_SF_RDSEL_WAY k)) = .good e) :
    s.sfRdDone k = (s.sfShown k e.toNat).modSlice k (fun c => { c with rdBusy := false }) := by
  rw [State.sfRdDone, hbusy, hready, if_pos (by rfl), hreads]
  simp only [Bool.not_true, Bool.false_eq_true, if_false]
  rw [he]
  rfl

/-- What the end of the read shows and leaves, from what its registers show before the slice notes that the read has ended. -/
theorem State.sfRdDone_shows {e : BitVec 118} (hbusy : (s.slice k).rdBusy = true) (hready : s.diagReady k = true)
    (hreads : s.diagReads k = true) (he : sfCheck (s.sfAt k (s.fget F.SLC_SF_RDSEL_SET k) (s.fget F.SLC_SF_RDSEL_WAY k)) = .good e) :
    ((s.sfRdDone k).slice k).rdBusy = false ∧ ∀ g j, (s.sfRdDone k).fget g k j = (s.sfShown k e.toNat).fget g k j := by
  rw [State.sfRdDone_good hbusy hready hreads he, State.slice_modSlice_same]
  exact ⟨rfl, fun g j => State.modSlice_fget _ _ _ _ _ _⟩

theorem sfDataApart {i j : Nat} (h : i ≠ j) (k : Nat) : F.SLC_SF_RDDATA_DATA.addr k i ≠ F.SLC_SF_RDDATA_DATA.addr k j := by
  simp only [Fld.addr, F.SLC_SF_RDDATA_DATA]
  omega

theorem sfData3Apart {i : Nat} (h : i < 3) (k : Nat) {f : Fld} (hf : f.base = 0x20000 ∧ f.stride = 0x1000 ∧ f.off = 0x848 ∧ f.mstr = 0) :
    f.addr k 0 ≠ F.SLC_SF_RDDATA_DATA.addr k i := by
  obtain ⟨hb, hs, ho, hm⟩ := hf
  simp only [Fld.addr, hb, hs, ho, hm, F.SLC_SF_RDDATA_DATA]
  omega

/-- What the registers of the read show. -/
theorem State.sfShown_shows (s : State) (k x : Nat) (hx : x < 2 ^ 118) :
    (s.sfShown k x).flag F.SLC_SF_RDDATA3_VALID k = true ∧ (s.sfShown k x).flag F.SLC_SF_RDDATA3_UE k = false ∧
      (∀ i, i < 3 → (s.sfShown k x).fget F.SLC_SF_RDDATA_DATA k i = x / 2 ^ (32 * i) % 2 ^ 32) ∧
      (s.sfShown k x).fget F.SLC_SF_RDDATA3_DATA k = x / 2 ^ 96 := by
  refine ⟨?_, ?_, fun i hi => ?_, ?_⟩
  · exact State.flag_setFlag_same _ _ true k 0 (by decide) (by decide)
  · simp (disch := decide) only [State.sfShown, State.flag, State.setFlag, State.fget_fset_bits, State.fget_fset_same]
    rfl
  · have htail (u : State) : ((((u.fset F.SLC_SF_RDDATA3_DATA (x / 2 ^ 96) k).setFlag F.SLC_SF_RDDATA3_UE false k).setFlag
        F.SLC_SF_RDDATA3_VALID true k)).fget F.SLC_SF_RDDATA_DATA k i = u.fget F.SLC_SF_RDDATA_DATA k i := by
      rw [State.setFlag, State.fget_fset_other _ _ _ _ _ _ _ _ (.inl (sfData3Apart hi k ⟨rfl, rfl, rfl, rfl⟩)) (by decide), State.setFlag,
        State.fget_fset_other _ _ _ _ _ _ _ _ (.inl (sfData3Apart hi k ⟨rfl, rfl, rfl, rfl⟩)) (by decide),
        State.fget_fset_other _ _ _ _ _ _ _ _ (.inl (sfData3Apart hi k ⟨rfl, rfl, rfl, rfl⟩)) (by decide)]
    have hother (u : State) {j : Nat} (y : Nat) (hj : j ≠ i) : (u.fset F.SLC_SF_RDDATA_DATA y k j).fget F.SLC_SF_RDDATA_DATA k i =
        u.fget F.SLC_SF_RDDATA_DATA k i := State.fget_fset_other _ _ _ _ _ _ _ _ (.inl (sfDataApart hj k)) (by decide)
    rw [State.sfShown, htail]
    obtain rfl | rfl | rfl : i = 0 ∨ i = 1 ∨ i = 2 := by omega
    · rw [hother _ _ (by decide), hother _ _ (by decide)]
      exact State.fget_fset_same _ _ _ _ _ (by decide)
    · rw [hother _ _ (by decide)]
      exact State.fget_fset_same _ _ _ _ _ (by decide)
    · exact State.fget_fset_same _ _ _ _ _ (by decide)
  · simp (disch := decide) only [State.sfShown, State.setFlag, State.fget_fset_bits, State.fget_fset_same]
    exact Nat.mod_eq_of_lt (Nat.div_lt_of_lt_mul (Nat.lt_of_lt_of_le hx (by decide)))

theorem State.hselDone_idle (h : (s.slice k).hselBusy = false) : s.hselDone k = s := by
  rw [State.hselDone, h]
  exact if_neg (by simp)

/-- STATE of an entry (11 R457). -/
def ClampEnt.stateCode (e : ClampEnt) : Nat := match e.st with | .free => 0 | .lock => 1 | .barrier => 2 | .broken => 3

/-- The state that shows entry `e` of the Clamp. -/
def State.entShown (s : State) (k : Nat) (e : ClampEnt) : State :=
  ((((((((s.fset F.SLC_CLAMP_HVAL0_STATE e.stateCode k).setFlag F.SLC_CLAMP_HVAL0_EXCL
    ((e.recs.filter (fun r => r.role == .holder)).any (fun r => !r.shared)) k).fset F.SLC_CLAMP_HVAL0_GEN e.gen.toNat k).fset
    F.SLC_CLAMP_HVAL0_WAITERS (e.recs.filter (fun r => r.role == .waiter)).length k).fset F.SLC_CLAMP_HVAL1_TENANT e.ten.toNat k).fset
    F.SLC_CLAMP_HVAL1_NODE e.src.toNat k).fset F.SLC_CLAMP_HVAL2_COUNT
      (if e.st = .barrier then e.count else (e.recs.filter (fun r => r.role == .holder)).length) k).setFlag F.SLC_CLAMP_HVAL0_VALID true k)

theorem State.hselDone_active {l : Nat} (hbusy : (s.slice k).hselBusy = true) (hawake : s.awake k = true) (hrole : s.srole k = .active)
    (hl : s.logicalOn k = some l) : s.hselDone k =
      (s.entShown k (s.ent l (s.fget F.SLC_CLAMP_HSEL_INDEX k))).modSlice k (fun c => { c with hselBusy := false }) := by
  rw [State.hselDone, hbusy, State.diagReady, hrole, hawake, if_pos (by simp), hl]
  rfl

theorem State.entShown_shows (s : State) (k : Nat) (e : ClampEnt) :
    (s.entShown k e).flag F.SLC_CLAMP_HVAL0_VALID k = true ∧ (s.entShown k e).fget F.SLC_CLAMP_HVAL0_GEN k = e.gen.toNat ∧
      (s.entShown k e).fget F.SLC_CLAMP_HVAL1_TENANT k = e.ten.toNat ∧ (s.entShown k e).fget F.SLC_CLAMP_HVAL1_NODE k = e.src.toNat ∧
      (s.entShown k e).fget F.SLC_CLAMP_HVAL0_STATE k = e.stateCode := by
  refine ⟨State.flag_setFlag_same _ _ true k 0 (by decide) (by decide), ?_, ?_, ?_, ?_⟩
  · simp (disch := decide) only [State.entShown, State.setFlag, State.fget_fset_bits, State.fget_fset_beside, State.fget_fset_same]
    exact Nat.mod_eq_of_lt e.gen.isLt
  · simp (disch := decide) only [State.entShown, State.setFlag, State.fget_fset_bits, State.fget_fset_beside, State.fget_fset_same]
    exact Nat.mod_eq_of_lt e.ten.isLt
  · simp (disch := decide) only [State.entShown, State.setFlag, State.fget_fset_bits, State.fget_fset_beside, State.fget_fset_same]
    exact Nat.mod_eq_of_lt e.src.isLt
  · simp (disch := decide) only [State.entShown, State.setFlag, State.fget_fset_bits, State.fget_fset_same]
    refine Nat.mod_eq_of_lt ?_
    rw [ClampEnt.stateCode]
    split <;> decide

/-- What the end of a read shows and leaves, from what its registers show before the slice notes that the read has ended. -/
theorem State.hselDone_shows {l : Nat} {e : ClampEnt} (hbusy : (s.slice k).hselBusy = true) (hawake : s.awake k = true)
    (hrole : s.srole k = .active) (hl : s.logicalOn k = some l) (he : e = s.ent l (s.fget F.SLC_CLAMP_HSEL_INDEX k)) :
    ((s.hselDone k).slice k).hselBusy = false ∧ ∀ g, (s.hselDone k).fget g k = (s.entShown k e).fget g k := by
  rw [State.hselDone_active hbusy hawake hrole hl, ← he, State.slice_modSlice_same]
  exact ⟨rfl, fun g => State.modSlice_fget _ _ _ _ _ _⟩

/-! ## The hash probe -/

/-- The state that shows the answer to a probe of address `a`, with RANGE `r`, MPORT `p` and the numbers of the map. -/
def State.probeShown (s : State) (a : Addr) (none? : Bool) (r p ps ls h : Nat) : State :=
  (((((((((s.setFlag F.GLB_HPROBE_RES0_UNHOMED none?).fset F.GLB_HPROBE_RES0_RANGE r).fset F.GLB_HPROBE_RES0_MPORT p).fset
    F.GLB_HPROBE_RES0_PSLICE ps).fset F.GLB_HPROBE_RES0_LSLICE ls).fset F.GLB_HPROBE_RES0_HASH h).fset F.GLB_HPROBE_RES1_HC_SET
    (hcSetOf a)).fset F.GLB_HPROBE_RES1_SF_SET (sfSetOf a)).setFlag F.GLB_HPROBE_RES0_VALID true)

theorem State.probeShown_shows (s : State) (a : Addr) (none? : Bool) (r p ps ls h : Nat) :
    (s.probeShown a none? r p ps ls h).flag F.GLB_HPROBE_RES0_VALID = true ∧
      (s.probeShown a none? r p ps ls h).fget F.GLB_HPROBE_RES1_HC_SET = hcSetOf a ∧
      (s.probeShown a none? r p ps ls h).fget F.GLB_HPROBE_RES1_SF_SET = sfSetOf a ∧
      (s.probeShown a none? r p ps ls h).flag F.GLB_HPROBE_RES0_UNHOMED = none? ∧
      (s.probeShown a none? r p ps ls h).fget F.GLB_HPROBE_RES0_HASH = h % 256 ∧
      (s.probeShown a none? r p ps ls h).fget F.GLB_HPROBE_RES0_LSLICE = ls % 16 ∧
      (s.probeShown a none? r p ps ls h).fget F.GLB_HPROBE_RES0_PSLICE = ps % 32 := by
  refine ⟨State.flag_setFlag_same _ _ true 0 0 (by decide) (by decide), ?_, ?_, ?_, ?_, ?_, ?_⟩
  · simp (disch := decide) only [State.probeShown, State.setFlag, State.fget_fset_bits, State.fget_fset_same]
    exact Nat.mod_eq_of_lt (BitVec.isLt _)
  · simp (disch := decide) only [State.probeShown, State.setFlag, State.fget_fset_beside, State.fget_fset_same]
    exact Nat.mod_eq_of_lt (BitVec.isLt _)
  · simp (disch := decide) only [State.flag, State.probeShown, State.setFlag, State.fget_fset_bits, State.fget_fset_same]
    cases none? <;> rfl
  · simp (disch := decide) only [State.probeShown, State.setFlag, State.fget_fset_bits, State.fget_fset_beside, State.fget_fset_same]
    rfl
  · simp (disch := decide) only [State.probeShown, State.setFlag, State.fget_fset_bits, State.fget_fset_beside, State.fget_fset_same]
    rfl
  · simp (disch := decide) only [State.probeShown, State.setFlag, State.fget_fset_bits, State.fget_fset_beside, State.fget_fset_same]
    rfl

/-- The probe ends with what the map says of its address. -/
theorem State.hprobeDone_eq {a : Addr} (hprobe : s.probing = true)
    (ha : a = addrOf (s.fget F.GLB_HPROBE_ADDR_LO_ADDR_LO) (s.fget F.GLB_HPROBE_ADDR_HI_ADDR_HI)) : ∃ r p : Nat, s.hprobeDone =
      { s.probeShown a (s.rangeOf a).isNone r p (if (s.rangeOf a).isSome then s.sliceOf a else 0)
          (if (s.rangeOf a).isSome then s.logOf a else 0) (if (s.rangeOf a).isSome then s.hash a else 0) with probing := false } := by
  refine ⟨match s.rangeOf a with | some (i, _) => i | none => 0, match s.rangeOf a with | some (_, h) => (memOf h a).1 | none => 0, ?_⟩
  rw [State.hprobeDone, if_pos hprobe, ← ha]
  rfl

end

/-- Settles O37: a scrub retires what fails hard, a command starts its read or its operation, and the end of a read shows what it read. -/
theorem scrubAndDiagnostics : Obligations.ScrubAndDiagnostics := by
  unfold Obligations.ScrubAndDiagnostics
  refine ⟨fun s k n w hup hk hscrub hjig hw => ⟨fun hsf => ?_, fun hhc => ?_, fun hn hsf hret hroom => ?_,
    fun hn hhc hops hret hroom => ?_⟩, fun s who k v i hk => ⟨fun ht => ?_, fun ht => ?_, fun ht => ?_, fun l ht hl hst => ?_, fun ht => ?_⟩,
    fun s k hup hk => ⟨fun e hbusy hready hreads he => ?_, fun hidle => ?_, fun l e hbusy hawake hrole hl he => ?_, fun hidle => ?_⟩,
    fun s a hup hprobe ha => ?_⟩
  · refine (next_atSlice hup hk (·.sfScrubPass k [])).trans ?_
    rw [State.sfScrubPass, State.sfScrub_empty hscrub hsf]
  · refine (next_atSlice hup hk (·.hcScrubPass k [])).trans ?_
    rw [State.hcScrubPass, State.hcScrub_empty hscrub hhc]
  · refine ⟨_, next_atSlice hup hk (·.sfScrubPass k [(n, w)]), ?_⟩
    rw [State.sfScrubPass, State.sfScrub_one hscrub hsf hn hw, State.sfScrubEntry_hard hjig hsf hret hroom]
    refine ⟨?_, ?_⟩
    · rw [State.latentRan_slice, State.slice_modSlice_same, State.sfScrubbed_slice]
    · rw [State.latentRan_fget _ _ _ (by decide) (by decide), State.modSlice_fget, State.sfScrubbed_count]
  · refine ⟨_, next_atSlice hup hk (·.hcScrubPass k [(n, w)]), ?_⟩
    rw [State.hcScrubPass, State.hcScrub_one hscrub hhc hn hw, State.hcScrubFrame_hard hjig hhc hops hret hroom, State.latentRan_slice,
      State.setFrame, State.slice_modSlice_same, State.slice_modSlice_same]
  · refine ⟨_, (congrArg Host.Outcome.next (if_pos hk)).trans (next_command _ ht), ?_⟩
    rw [State.writeAt_rdsel hk, State.sfRdGo]
    refine ⟨?_, ?_, ?_, ?_⟩
    · rw [(State.diagWake_reads _ _).1, State.slice_modSlice_same]
    · rw [State.flag, State.diagWake_fget, State.modSlice_fget]
      exact State.flag_setFlag_same _ _ false k 0 (by decide) (by decide)
    · rw [State.diagWake_fget, State.modSlice_fget, State.setFlag, State.fget_fset_beside _ _ _ _ (by decide) (by decide),
        State.fget_fset_same _ _ _ _ _ (by decide)]
      exact Nat.mod_eq_of_lt (getBits_lt v 0 16)
    · rw [State.diagWake_fget, State.modSlice_fget, State.setFlag, State.fget_fset_beside _ _ _ _ (by decide) (by decide),
        State.fget_fset_bits _ _ _ _ _ _ (by decide) (by decide), State.fget_fset_same _ _ _ _ _ (by decide)]
      exact Nat.mod_eq_of_lt (getBits_lt v 16 4)
  · refine (congrArg Host.Outcome.next (if_pos hk)).trans ((next_command _ ht).trans ?_)
    rw [State.writeAt_looseClear hk]
    rfl
  · refine ⟨_, (congrArg Host.Outcome.next (if_pos hk)).trans (next_command _ ht), ?_⟩
    rw [State.writeAt_hsel hk, State.hselGo]
    refine ⟨?_, ?_, ?_⟩
    · rw [(State.diagWake_reads _ _).2, State.slice_modSlice_same]
    · rw [State.flag, State.diagWake_fget, State.modSlice_fget]
      exact State.flag_setFlag_same _ _ false k 0 (by decide) (by decide)
    · rw [State.diagWake_fget, State.modSlice_fget, State.setFlag, State.fget_fset_beside _ _ _ _ (by decide) (by decide),
        State.fget_fset_same _ _ _ _ _ (by decide)]
      exact Nat.mod_eq_of_lt i.isLt
  · refine ⟨_, (congrArg Host.Outcome.next (if_pos hk)).trans (next_command _ ht), ?_⟩
    rw [State.writeAt_clampBreak hk, State.clampBreak_lock hl hst, State.breakEnt_ent]
    exact ⟨rfl, rfl, rfl, s.breakEnt_sends l i.toNat 3⟩
  · refine ⟨_, next_command _ ht, ?_⟩
    rw [State.writeAt_hprobe]
    obtain ⟨hprobe, hvalid, haddr⟩ := (s.fset F.GLB_HPROBE_ADDR_HI_ADDR_HI (getBits v 0 20)).hprobeGo_shows
    refine ⟨hprobe, hvalid, haddr.trans ?_⟩
    rw [State.fget_fset_same _ _ _ _ _ (by decide)]
    exact Nat.mod_eq_of_lt (getBits_lt v 0 20)
  · obtain ⟨hvalid, hue, hdata, hdata3⟩ := s.sfShown_shows k e.toNat e.isLt
    obtain ⟨hends, hget⟩ := State.sfRdDone_shows hbusy hready hreads he
    exact ⟨s.sfRdDone k, next_atSlice hup hk (·.sfRdDone k), hends, (congrArg (· != 0) (hget _ _)).trans hvalid,
      (congrArg (· != 0) (hget _ _)).trans hue, fun i hi => (hget _ _).trans (hdata i hi), (hget _ _).trans hdata3⟩
  · refine (next_atSlice hup hk (·.sfRdDone k)).trans ?_
    rw [State.sfRdDone_idle hidle]
  · obtain ⟨hvalid, hgen, hten, hnode, hstate⟩ := s.entShown_shows k e
    obtain ⟨hends, hget⟩ := State.hselDone_shows hbusy hawake hrole hl he
    refine ⟨s.hselDone k, next_atSlice hup hk (·.hselDone k), hends, (congrArg (· != 0) (hget _)).trans hvalid, (hget _).trans hgen,
      (hget _).trans hten, (hget _).trans hnode, fun hfree => (hget _).trans (hstate.trans ?_),
      fun hbroken => (hget _).trans (hstate.trans ?_)⟩
    · rw [ClampEnt.stateCode, hfree]
    · rw [ClampEnt.stateCode, hbroken]
  · refine (next_atSlice hup hk (·.hselDone k)).trans ?_
    rw [State.hselDone_idle hidle]
  · obtain ⟨r, p, heq⟩ := State.hprobeDone_eq hprobe ha
    obtain ⟨hvalid, hhc, hsf, hunhomed, hhash, hlslice, hpslice⟩ := s.probeShown_shows a (s.rangeOf a).isNone r p
      (if (s.rangeOf a).isSome then s.sliceOf a else 0) (if (s.rangeOf a).isSome then s.logOf a else 0)
      (if (s.rangeOf a).isSome then s.hash a else 0)
    have hget (g : Fld) : s.hprobeDone.fget g = (s.probeShown a (s.rangeOf a).isNone r p (if (s.rangeOf a).isSome then s.sliceOf a else 0)
        (if (s.rangeOf a).isSome then s.logOf a else 0) (if (s.rangeOf a).isSome then s.hash a else 0)).fget g := by
      rw [heq]
      exact State.with_probing_fget _ _ _ _ _
    refine ⟨s.hprobeDone, next_run hup State.hprobeDone, by rw [heq], (congrArg (· != 0) (hget _)).trans hvalid, (hget _).trans hhc,
      (hget _).trans hsf, (congrArg (· != 0) (hget _)).trans hunhomed, fun hsome => ⟨(hget _).trans (hhash.trans ?_),
        (hget _).trans (hlslice.trans ?_), (hget _).trans (hpslice.trans ?_)⟩⟩ <;> rw [if_pos hsome]

end Sys2Proof.Machine
end

section
/-!
SUPPORT. What a transaction that waits or takes a tracker leaves alone: the registers below the Jig's block, and how far each slice has
walked (10 R411). The registers of the home cache's block, and how context 0 starts and is looked at.
-/
namespace Sys2Proof.Machine

section
variable {s u v : State} {k l : Nat} {who : Party}

/-! ## The registers below the Jig's block, and the walks -/

/-- From `s` to `u` the registers below the Jig's block read as before, and no slice has walked on. -/
structure State.Parks (s u : State) : Prop where
  walk0 : ∀ k, (u.slice k).walk0 = (s.slice k).walk0
  fget : ∀ (g : Fld) (i j : Nat), g.addr i j < 0x7000 → g.lsb + g.wid ≤ 32 → u.fget g i j = s.fget g i j

theorem State.Parks.refl (s : State) : s.Parks s := ⟨fun _ => rfl, fun _ _ _ _ _ => rfl⟩

theorem State.Parks.trans (h : s.Parks u) (g : u.Parks v) : s.Parks v :=
  ⟨fun k => (g.walk0 k).trans (h.walk0 k), fun f i j ha hf => (g.fget f i j ha hf).trans (h.fget f i j ha hf)⟩

theorem State.parks_same (hslices : u.slices = s.slices) (hregs : u.regs = s.regs) : s.Parks u :=
  ⟨fun k => by rw [State.slice_congr hslices], fun g i j _ _ => by rw [State.fget, State.fget, State.word, State.word, hregs]⟩

theorem State.parks_fset (s : State) (f : Fld) (hf : 0x7000 ≤ f.base) (x n m : Nat) : s.Parks (s.fset f x n m) :=
  ⟨fun _ => rfl, fun g i j ha hg => State.fget_fset_other s f g x n m i j (.inl (by
    have hup : f.base ≤ f.addr n m := by rw [Fld.addr]; omega
    omega)) hg⟩

theorem State.parks_modSlice (s : State) (k : Nat) (f : Slice → Slice) (hf : ∀ c, (f c).walk0 = c.walk0) : s.Parks (s.modSlice k f) := by
  refine ⟨fun j => ?_, fun _ _ _ _ _ => rfl⟩
  rw [State.slice_modSlice]
  split
  · next h => rw [hf, h]
  · rfl

theorem State.jigFire_parks (s : State) (c : Nat) (r : JigRun) : s.Parks (s.jigFire c r) := by
  have hfired (v : State) (h : s.Parks v) : s.Parks (v.bump F.JIG_CH_STATUS_FIRED 0 c) :=
    h.trans (v.parks_fset F.JIG_CH_STATUS_FIRED (by decide) _ _ _)
  unfold State.jigFire
  dsimp only
  split
  · exact hfired _ (State.parks_same rfl rfl)
  · exact (hfired _ (State.parks_same rfl rfl)).trans (State.parks_same rfl rfl)

theorem State.jigRead_parks (s : State) (n u : Nat) (a : Option Addr) : s.Parks (s.jigRead n u a).2 := by
  unfold State.jigRead
  split
  · exact .refl s
  · refine List.foldlRecOn (motive := fun acc : Nat × State => s.Parks acc.2) _ _ (.refl s) (fun acc hacc c _ => ?_)
    split
    · exact hacc
    · dsimp only
      split
      · split
        · exact hacc.trans (acc.2.jigFire_parks _ _)
        · exact hacc.trans (State.parks_same rfl rfl)
      · exact hacc

theorem State.ttRead_parks (s : State) (k : Nat) : s.Parks (s.ttRead k) := by
  have hread := s.jigRead_parks 0xB k none
  unfold State.ttRead
  dsimp only
  split
  · exact hread
  · split
    · exact hread.trans (State.parks_same rfl rfl)
    · split
      · exact hread.trans (State.parks_same rfl rfl)
      · exact hread.trans (State.parks_same rfl rfl)

theorem State.admitAt_parks (s : State) (k t : Nat) (x : Txn) : s.Parks (s.admitAt k t x) := by
  have hset (y : Option Txn) : s.Parks (s.setTxn k t y) := State.parks_modSlice s k _ fun _ => rfl
  exact (hset _).trans (State.parks_same rfl rfl)

theorem State.shed_parks (s : State) (k : Nat) (x : Txn) : s.Parks (s.shed k x).2 := by
  have hread := s.ttRead_parks k
  have hdepth (v : State) (h : s.Parks v) : s.Parks (v.noteDepth k x.scope) :=
    h.trans (v.parks_fset F.SLC_SHED_OCC_MAXDEPTH (by decide) _ _ _)
  unfold State.shed
  dsimp only
  split
  · split
    · refine hdepth _ (hread.trans (State.parks_modSlice _ k _ ?_))
      exact fun _ => rfl
    · exact hread
  · split
    · exact hread.trans (State.admitAt_parks _ _ _ _)
    · exact hread

theorem State.wait_parks (s : State) (k : Nat) (x : Txn) (b : Bool) : s.Parks (s.wait k x b) := by
  have hqueued : s.Parks (s.modSlice k (fun c => { c with ingress := c.ingress ++ [x] })) := State.parks_modSlice s k _ fun _ => rfl
  cases b
  · exact hqueued
  · exact hqueued.trans (State.parks_fset _ F.SLC_SHED_STALL_COUNT (by decide) _ _ _)

theorem State.wakeSlice_parks (s : State) (k : Nat) : s.Parks (s.wakeSlice k) := by
  unfold State.wakeSlice
  dsimp only
  split
  · exact .refl s
  · split
    · exact State.parks_modSlice s k _ fun _ => rfl
    · exact State.parks_modSlice s k _ fun _ => rfl

theorem State.shedOrWait_parks (s : State) (k : Nat) (x : Txn) : s.Parks (s.shedOrWait k x) := by
  have hshed (u : State) := u.shed_parks k x
  have hwait (u : State) (b : Bool) := u.wait_parks k x b
  have hwake (u : State) := u.wakeSlice_parks k
  unfold State.shedOrWait
  dsimp only
  split
  · split
    · exact hwait _ _
    · split
      · exact (hwait _ _).trans (hwake _)
      · split
        · exact hshed _
        · exact (hshed _).trans (hwait _ _)
  · split
    · exact hwait _ _
    · split
      · exact hwait _ _
      · split
        · exact (hwait _ _).trans (hwake _)
        · split
          · exact (hwake _).trans (hshed _)
          · exact ((hwake _).trans (hshed _)).trans (hwait _ _)

/-! ## Slices in turn -/

/-- What the step of number `k` makes of `get`, when no other step touches it. -/
theorem forUp_reaches {σ α : Type} {f : Nat → σ → σ} {get : σ → α} {k : Nat} (hother : ∀ i s, i ≠ k → get (f i s) = get s)
    {p q : α → Prop} (hstep : ∀ s, p (get s) → q (get (f k s))) (n i : Nat) (s : σ) (hi : i ≤ k) (hk : k < i + n) (hp : p (get s)) :
    q (get (forUp f i n s)) := by
  have hpast : ∀ (n i : Nat) (s : σ), k < i → get (forUp f i n s) = get s := by
    intro n
    induction n with
    | zero => exact fun _ _ _ => rfl
    | succ n ih => exact fun i s h => (ih (i + 1) (f i s) (by omega)).trans (hother i s (by omega))
  induction n generalizing i s with
  | zero => omega
  | succ n ih =>
    by_cases h : i = k
    · subst h
      exact (hpast n (i + 1) _ (by omega)).symm ▸ hstep s hp
    · exact ih (i + 1) (f i s) (by omega) (by omega) ((hother i s h).symm ▸ hp)

theorem State.wakeSlice_slice_other (s : State) {j : Nat} (h : j ≠ k) : (s.wakeSlice k).slice j = s.slice j := by
  unfold State.wakeSlice
  dsimp only
  split
  · rfl
  · split
    · exact State.slice_modSlice_other s _ h
    · exact State.slice_modSlice_other s _ h

theorem State.actives_congr (hpat : u.pat = s.pat) (hlogic : u.logic = s.logic) (hroles : u.roles = s.roles) : u.actives = s.actives := by
  unfold State.actives State.srole State.logicalOn State.lsl
  rw [hpat, hlogic, hroles]

/-! ## Context 0 -/

/-- The set at which a slice begins: one in DEEP has nothing to walk. -/
def firstSet (p : PwrState) : Nat := if p == .deep then 1024 else 0

/-- A slice begins its walk, and one in SLEEP wakes for it. -/
def State.walkFrom0 (s : State) (k : Nat) : State :=
  let s1 := s.modSlice k (fun c => { c with walk0 := firstSet (s.slice k).pwr })
  if !((s.slice k).pwr == .deep) && (s1.slice k).pwr == .sleep then s1.wakeSlice k else s1

theorem State.startCtx0_eq (s : State) (j : RangeJob) :
    s.startCtx0 j = (forUp (fun k (s : State) => s.walkFrom0 k) 0 18 { s with ctx0 := some j }).rangeCheck 0 := rfl

theorem State.walkFrom0_field {α : Type} (get : State → α) (hslices : ∀ (s : State) x, get { s with slices := x } = get s) (s : State)
    (k : Nat) : get (s.walkFrom0 k) = get s := by
  unfold State.walkFrom0
  dsimp only
  split
  · rw [State.wakeSlice_field get hslices, State.modSlice, State.setSlice, hslices]
  · exact hslices _ _

/-- What the slices' beginning leaves alone. -/
theorem State.begun_field {α : Type} (get : State → α) (hslices : ∀ (s : State) x, get { s with slices := x } = get s) (s : State) :
    get (forUp (fun k (s : State) => s.walkFrom0 k) 0 18 s) = get s :=
  State.forUp_field get (fun k s => s.walkFrom0_field get hslices k) 18 0 s

theorem State.begun_walk0 (hk : k < 18) (hpwr : (s.slice k).pwr ≠ .deep) :
    ((forUp (fun k (s : State) => s.walkFrom0 k) 0 18 s).slice k).walk0 = 0 := by
  refine forUp_reaches (get := fun s : State => s.slice k) (p := fun c => c.pwr ≠ .deep) (q := fun c => c.walk0 = 0)
    (fun i s hi => ?_) (fun s hp => ?_) 18 0 s (by omega) (by omega) hpwr
  · unfold State.walkFrom0
    dsimp only
    split
    · exact (State.wakeSlice_slice_other _ (Ne.symm hi)).trans (State.slice_modSlice_other s _ (Ne.symm hi))
    · exact State.slice_modSlice_other s _ (Ne.symm hi)
  · unfold State.walkFrom0
    dsimp only
    split
    · rw [(State.wakeSlice_parks _ k).walk0, State.slice_modSlice_same]
      simp [hp, firstSet]
    · rw [State.slice_modSlice_same]
      simp [hp, firstSet]

/-- The counts and flags that the look at context 0 moves. -/
theorem State.rangeCheck_fget (s : State) {g : Fld} (i j : Nat)
    (hmode : F.HCM_MODE_STATUS_SETS_DONE.apart (g.addr i j) g.lsb g.wid = true)
    (hsets : F.HCM_RNG_STATUS_SETS_DONE.apart (g.addr i j) g.lsb g.wid = true)
    (hbusy : F.HCM_RNG_STATUS_BUSY.apart (g.addr i j) g.lsb g.wid = true) (hg : g.lsb + g.wid ≤ 32) :
    (s.rangeCheck 0).fget g i j = s.fget g i j := by
  have hcount : (if s.ctx0.isSome then s.fset (if s.hcMode = 1 then F.HCM_MODE_STATUS_SETS_DONE else F.HCM_RNG_STATUS_SETS_DONE)
      (s.setsDone 0) else s).fget g i j = s.fget g i j := by
    split
    · split
      · exact State.fget_fset_apart s _ _ _ _ _ hmode hg
      · exact State.fget_fset_apart s _ _ _ _ _ hsets hg
    · rfl
  unfold State.rangeCheck
  dsimp only
  rw [if_pos rfl]
  generalize (if s.ctx0.isSome then s.fset (if s.hcMode = 1 then F.HCM_MODE_STATUS_SETS_DONE else F.HCM_RNG_STATUS_SETS_DONE)
      (s.setsDone 0) else s) = u at hcount ⊢
  split
  · exact (State.fget_fset_apart { u with ctx0 := none } _ _ _ _ _ hbusy hg).trans hcount
  · exact hcount

/-- Context 0 goes on while an active slice has sets to walk. -/
theorem State.rangeCheck_walking (hstop : s.ctxStopped 0 = false) (hk : k ∈ s.actives) (hwalk : (s.slice k).walk0 < 1024) :
    s.rangeCheck 0 = if s.ctx0.isSome then
      s.fset (if s.hcMode = 1 then F.HCM_MODE_STATUS_SETS_DONE else F.HCM_RNG_STATUS_SETS_DONE) (s.setsDone 0) else s := by
  have hgoing : s.actives.all (fun k => ((0 == 0 && s.flag F.HCM_RNG_STATUS_ABORTED && s.hcMode != 1) ||
      1024 ≤ (s.slice k).walk 0) && s.rangeOpen k 0 == 0) = false := by
    refine List.all_eq_false.mpr ⟨k, hk, ?_⟩
    rw [State.ctxStopped] at hstop
    rw [hstop, Slice.walk, if_pos rfl, Bool.false_or, decide_eq_false (by omega), Bool.false_and]
    exact Bool.false_ne_true
  unfold State.rangeCheck
  dsimp only
  rw [if_pos rfl, hgoing]
  rfl

/-! ## A write of a register of the home cache's block -/

theorem State.writeAt_hcm (hlow : 0x6000 ≤ a) (hhigh : a < 0x7000) (x : Word) : s.writeAt who a x = s.writeHcm who a x := by
  unfold State.writeAt
  rw [if_neg (by omega), if_neg (by omega), if_neg (by omega), if_neg (by omega), if_neg (by omega), if_neg (by omega), if_pos hhigh]

end

end Sys2Proof.Machine
end

section
/-! The statement about the home cache's mode, its maintenance operations and its range engine (10 R409 to R419). -/
namespace Sys2Proof.Machine

section
variable {s : State} {k : Nat} {who : Party}

/-! ## The start of context 0 -/

theorem State.startCtx0_fget (s : State) (job : RangeJob) {g : Fld} (i j : Nat)
    (hmode : F.HCM_MODE_STATUS_SETS_DONE.apart (g.addr i j) g.lsb g.wid = true)
    (hsets : F.HCM_RNG_STATUS_SETS_DONE.apart (g.addr i j) g.lsb g.wid = true)
    (hbusy : F.HCM_RNG_STATUS_BUSY.apart (g.addr i j) g.lsb g.wid = true) (hg : g.lsb + g.wid ≤ 32) :
    (s.startCtx0 job).fget g i j = s.fget g i j :=
  (State.rangeCheck_fget _ i j hmode hsets hbusy hg).trans (State.begun_field (·.fget g i j) (fun _ _ => rfl) _)

/-- With an active slice to walk, context 0 is under way once it has started. -/
theorem State.startCtx0_goes (job : RangeJob) (hstop : s.ctxStopped 0 = false) (hk : k ∈ s.actives) (hpwr : (s.slice k).pwr ≠ .deep) :
    (s.startCtx0 job).ctx0 = some job ∧ (s.startCtx0 job).fget F.HCM_RNG_STATUS_BUSY = s.fget F.HCM_RNG_STATUS_BUSY := by
  have hk18 : k < 18 := by
    rw [State.actives, List.mem_filter, List.mem_range] at hk
    exact hk.1
  have hwalk (z : State) (h : z.slice k = s.slice k) := State.begun_walk0 (s := z) hk18 (h ▸ hpwr)
  have hfget (z : State) (g : Fld) := State.begun_field (·.fget g) (fun _ _ => rfl) z
  have hjob (z : State) := State.begun_field (·.ctx0) (fun _ _ => rfl) z
  have hact (z : State) := State.begun_field (·.actives) (fun _ _ => rfl) z
  rw [State.startCtx0_eq]
  obtain ⟨z, hz, hslice, hget, hctx, hacts⟩ : ∃ z, z = { s with ctx0 := some job } ∧ z.slice k = s.slice k ∧ (∀ g, z.fget g = s.fget g) ∧
      z.ctx0 = some job ∧ z.actives = s.actives := ⟨_, rfl, rfl, fun _ => rfl, rfl, rfl⟩
  rw [← hz]
  have hwalk := hwalk z hslice
  have hfget (g : Fld) : (forUp (fun k (s : State) => s.walkFrom0 k) 0 18 z).fget g = s.fget g := (hfget z g).trans (hget g)
  have hjob := (hjob z).trans hctx
  have hact := (hact z).trans hacts
  generalize forUp (fun k (s : State) => s.walkFrom0 k) 0 18 z = u at hwalk hfget hjob hact ⊢
  have hgoing : u.ctxStopped 0 = false := by
    rw [State.ctxStopped, State.flag, State.hcMode, hfget, hfget]
    exact hstop
  rw [State.rangeCheck_walking hgoing (hact ▸ hk) (by omega), hjob, if_pos (by rfl)]
  refine ⟨?_, ?_⟩
  · rw [State.fset_ctx0, hjob]
  · refine Eq.trans ?_ (hfget _)
    split
    · exact State.fget_fset_apart u _ _ _ _ _ (by decide) (by decide)
    · exact State.fget_fset_apart u _ _ _ _ _ (by decide) (by decide)

/-! ## The mode -/

/-- HCM_MODE_CTL: the field is written, and its bit disables or enables the home cache. -/
theorem State.writeAt_mode (s : State) (who : Party) (x : Word) : s.writeAt who 0x6000 x =
    if x.getLsbD 0 then (s.fset F.HCM_MODE_CTL_DISABLE (getBits x 0 1)).hcDisable else (s.fset F.HCM_MODE_CTL_DISABLE (getBits x 0 1)).hcEnable := by
  have hone : hcmWritable.filter (fun w => (w.fld.member 0 0x6000).isSome) = [⟨F.HCM_MODE_CTL_DISABLE, .rw, []⟩] ∧
      F.HCM_MODE_CTL_DISABLE.member 0 0x6000 = some 0 := by decide
  obtain ⟨hone, hmem⟩ := hone
  have hfield : s.writeFields who 0 0x6000 x hcmWritable = s.fset F.HCM_MODE_CTL_DISABLE (getBits x 0 1) := by
    rw [State.writeFields_one hone]
    simp only [State.writeField, hmem, List.isEmpty_nil, Bool.true_or, if_true]
    rfl
  rw [State.writeAt_hcm (by decide) (by decide)]
  show s.writeMode who x = _
  rw [State.writeMode, hfield]

/-- The job of a drain: the whole address space is cleaned and invalidated (R415). -/
def drainJob : RangeJob := { op := 1, base := 0, limit := 2 ^ 52 - 1, ten := none, ways := 0xFFFF }

/-- The registers in which a drain begins. -/
def State.draining (s : State) : State :=
  ((((s.fset F.HCM_MODE_STATUS_MODE 1).setFlag F.HCM_MODE_STATUS_BUSY true).setFlag F.HCM_MODE_STATUS_PEND_EN
    false).fset F.HCM_MODE_STATUS_SETS_DONE 0).fset F.HCM_RNG_STATUS_POISONED 0

theorem State.draining_shows (s : State) : s.draining.fget F.HCM_MODE_STATUS_MODE = 1 ∧ s.draining.fget F.HCM_MODE_STATUS_BUSY = 1 ∧
    s.draining.fget F.HCM_MODE_STATUS_PEND_EN = 0 := by
  refine ⟨?_, ?_, ?_⟩ <;>
  simp (disch := decide) only [State.draining, State.setFlag, State.fget_fset_apart, State.fget_fset_same] <;>
  rfl

/-- A home cache that is in use is drained: what the range engine had queued is dropped, and context 0 starts. -/
theorem State.hcDisable_enabled (h : s.hcMode = 0) : ∃ z : State, s.hcDisable = z.draining.startCtx0 drainJob ∧ z.actives = s.actives ∧
    ∀ k, (z.slice k).pwr = (s.slice k).pwr := by
  unfold State.hcDisable
  rw [h]
  dsimp only
  generalize hz : forUp _ 0 18 (if s.ctx0.isSome then _ else s) = z
  refine ⟨z, ?_, ?_, fun k => ?_⟩
  · simp only [State.draining, drainJob]
  · rw [← hz]
    refine (State.forUp_field State.actives ?_ _ _ _).trans ?_
    · exact fun _ _ => State.actives_congr rfl rfl rfl
    · split
      · exact State.actives_congr rfl rfl rfl
      · rfl
  · rw [← hz]
    refine (State.forUp_field (fun s : State => (s.slice k).pwr) (fun i s => ?_) _ _ _).trans ?_
    · rw [State.slice_modSlice]
      split
      · next hk => rw [hk]
      · rfl
    · split <;> rfl

theorem State.hcDisable_drains (h : s.hcMode = 0) : s.hcDisable.hcMode = 1 ∧ s.hcDisable.flag F.HCM_MODE_STATUS_BUSY = true ∧
    s.hcDisable.flag F.HCM_MODE_STATUS_PEND_EN = false ∧
    ((∃ k ∈ s.actives, (s.slice k).pwr ≠ .deep) → s.hcDisable.ctx0 = some drainJob) := by
  obtain ⟨z, hz, hact, hpwr⟩ := State.hcDisable_enabled h
  obtain ⟨hmode, hbusy, hpend⟩ := z.draining_shows
  have hget (g : Fld) (ha : F.HCM_MODE_STATUS_SETS_DONE.apart (g.addr 0 0) g.lsb g.wid = true)
      (hb : F.HCM_RNG_STATUS_SETS_DONE.apart (g.addr 0 0) g.lsb g.wid = true)
      (hc : F.HCM_RNG_STATUS_BUSY.apart (g.addr 0 0) g.lsb g.wid = true) (hg : g.lsb + g.wid ≤ 32) :=
    z.draining.startCtx0_fget drainJob 0 0 ha hb hc hg
  have hsame : z.draining.actives = z.actives ∧ ∀ k, z.draining.slice k = z.slice k := ⟨rfl, fun _ => rfl⟩
  rw [hz]
  generalize z.draining = d at hmode hbusy hpend hget hsame ⊢
  refine ⟨(hget F.HCM_MODE_STATUS_MODE (by decide) (by decide) (by decide) (by decide)).trans hmode, ?_, ?_, fun ⟨k, hk, hdeep⟩ => ?_⟩
  · rw [State.flag, hget _ (by decide) (by decide) (by decide) (by decide), hbusy]
    rfl
  · rw [State.flag, hget _ (by decide) (by decide) (by decide) (by decide), hpend]
    rfl
  · refine (State.startCtx0_goes drainJob ?_ (hsame.1.trans hact ▸ hk) (by rw [hsame.2, hpwr]; exact hdeep)).1
    rw [State.ctxStopped, State.hcMode, hmode]
    simp

theorem State.hcEnable_disabling (h : s.hcMode = 1) : s.hcEnable = s.setFlag F.HCM_MODE_STATUS_PEND_EN true := by
  simp only [State.hcEnable, h]

theorem State.hcEnable_disabled (h : s.hcMode = 2) : s.hcEnable = s.fset F.HCM_MODE_STATUS_MODE 0 := by
  simp only [State.hcEnable, h]

/-! ## Commands with GO -/

theorem goWord_op (x : Word) {j : Nat} (hj : j < 4) : getBits (goWord x j) 0 2 = j := by
  rw [goWord, getBits_setBits_same _ _ _ _ (by decide)]
  exact Nat.mod_eq_of_lt hj

theorem goWord_bit (x : Word) (j : Nat) {i : Nat} (hi : 2 ≤ i) (h : i < 31) : (goWord x j).getLsbD i = x.getLsbD i := by
  rw [goWord, getLsbD_setBits _ _ _ _ _ (by omega), if_neg (by omega), BitVec.getLsbD_or, getLsbD_bitWord, decide_eq_false (by omega : 31 ≠ i),
    Bool.and_false, Bool.or_false]

theorem goWord_go (x : Word) (j : Nat) : (goWord x j).getLsbD 31 = true := by
  rw [goWord, getLsbD_setBits _ _ _ _ _ (by decide), if_neg (by decide)]
  exact bit_or_bitWord x (by decide)

theorem goWord_bits (x : Word) (j : Nat) {lsb wid : Nat} (hl : 2 ≤ lsb) (h : lsb + wid ≤ 31) : getBits (goWord x j) lsb wid = getBits x lsb wid := by
  rw [goWord, getBits_setBits_other _ _ _ _ _ _ (.inr hl) (by omega)]
  exact getBits_or_bitWord x h

/-! ## Maintenance operations -/

/-- The fields of HCM_MOP_CMD after a write of `x`. -/
def State.mopAsked (s : State) (x : Word) : State :=
  ((((s.fset F.HCM_MOP_CMD_SLICE (getBits x 21 5)).fset F.HCM_MOP_CMD_WAY (getBits x 17 4)).fset F.HCM_MOP_CMD_SET (getBits x 7 10)).fset
    F.HCM_MOP_CMD_KIND (getBits x 2 1)).fset F.HCM_MOP_CMD_OP (getBits x 0 2)

theorem State.writeAt_mop (s : State) (who : Party) (x : Word) {j : Nat} (hj : j ≤ 2) :
    s.writeAt who 0x6018 (goWord x j) = (s.mopAsked (goWord x j)).mopGo := by
  have hfields : hcmWritable.filter (fun w => (w.fld.member 0 0x6018).isSome) =
      [⟨F.HCM_MOP_CMD_SLICE, .rw, []⟩, ⟨F.HCM_MOP_CMD_WAY, .rw, []⟩, ⟨F.HCM_MOP_CMD_SET, .rw, []⟩, ⟨F.HCM_MOP_CMD_KIND, .rw, []⟩,
        ⟨F.HCM_MOP_CMD_OP, .rw, [(0, 2)]⟩] ∧ F.HCM_MOP_CMD_SLICE.member 0 0x6018 = some 0 ∧ F.HCM_MOP_CMD_WAY.member 0 0x6018 = some 0 ∧
      F.HCM_MOP_CMD_SET.member 0 0x6018 = some 0 ∧ F.HCM_MOP_CMD_KIND.member 0 0x6018 = some 0 ∧
      F.HCM_MOP_CMD_OP.member 0 0x6018 = some 0 := by decide
  obtain ⟨hfive, hslice, hway, hset, hkind, hop⟩ := hfields
  have hlegal : getBits (goWord x j) F.HCM_MOP_CMD_OP.lsb F.HCM_MOP_CMD_OP.wid ≤ 2 := Nat.le_trans (Nat.le_of_eq (goWord_op x (by omega))) hj
  rw [State.writeAt_hcm (by decide) (by decide)]
  show s.writeMop who (goWord x j) = _
  rw [State.writeMop, onBit, if_pos (goWord_go x j), State.writeFields_filter, hfive]
  simp only [State.writeFields, List.foldl_cons, List.foldl_nil, State.writeField, hslice, hway, hset, hkind, hop, List.isEmpty_nil,
    List.isEmpty_cons, List.any_cons, List.any_nil, Bool.false_or, Bool.or_false, Nat.zero_le, decide_true, Bool.true_and,
    decide_eq_true hlegal, if_true]
  rfl

theorem State.mopAsked_shows (s : State) (x : Word) : (s.mopAsked x).fget F.HCM_MOP_CMD_SLICE = getBits x 21 5 ∧
    (s.mopAsked x).fget F.HCM_MOP_CMD_WAY = getBits x 17 4 ∧ (s.mopAsked x).fget F.HCM_MOP_CMD_SET = getBits x 7 10 ∧
    (s.mopAsked x).fget F.HCM_MOP_CMD_KIND = getBits x 2 1 ∧ (s.mopAsked x).fget F.HCM_MOP_CMD_OP = getBits x 0 2 := by
  have hmod (lsb wid : Nat) : getBits x lsb wid % 2 ^ wid = getBits x lsb wid := Nat.mod_eq_of_lt (getBits_lt x lsb wid)
  refine ⟨?_, ?_, ?_, ?_, ?_⟩
  all_goals
    simp (disch := decide) only [State.mopAsked, State.fget_fset_bits, State.fget_fset_same]
    exact hmod _ _

/-- The registers beside HCM_MOP_CMD read as before. -/
theorem State.mopAsked_fget (s : State) (x : Word) {g : Fld} (h : g = F.HCM_MOP_STATUS_BUSY ∨ g = F.HCM_MOP_STATUS_RESULT ∨
    g = F.HCM_MOP_ADDR_LO_ADDR_LO ∨ g = F.HCM_MOP_ADDR_HI_ADDR_HI) : (s.mopAsked x).fget g = s.fget g := by
  rcases h with rfl | rfl | rfl | rfl <;>
  simp (disch := decide) only [State.mopAsked, State.fget_fset_apart]

/-- GO is without effect while an operation is under way. -/
theorem State.mopGo_busy (h : s.flag F.HCM_MOP_STATUS_BUSY = true) : s.mopGo = s := by rw [State.mopGo, if_pos h]

/-- The operation has begun. -/
def State.mopBegun (s : State) : State := (s.setFlag F.HCM_MOP_STATUS_BUSY true).fset F.HCM_MOP_STATUS_RESULT 0

theorem State.mopGo_unhomed (h : s.flag F.HCM_MOP_STATUS_BUSY = false) (hkind : s.flag F.HCM_MOP_CMD_KIND = false)
    (hrange : s.rangeOf (addrOf (s.fget F.HCM_MOP_ADDR_LO_ADDR_LO) (s.fget F.HCM_MOP_ADDR_HI_ADDR_HI)) = none) :
    s.mopGo = s.mopBegun.mopEnd 2 := by
  rw [State.mopGo, h, if_neg Bool.false_ne_true]
  dsimp only
  rw [hkind, if_neg Bool.false_ne_true, hrange]
  rfl

theorem State.mopGo_frame (h : s.flag F.HCM_MOP_STATUS_BUSY = false) (hkind : s.flag F.HCM_MOP_CMD_KIND = true) : ∃ x, s.mopGo =
    if !s.actives.contains (s.fget F.HCM_MOP_CMD_SLICE) then s.mopBegun.mopEnd 3
    else if (s.slice (s.fget F.HCM_MOP_CMD_SLICE)).hcRet.contains (s.fget F.HCM_MOP_CMD_SET, s.fget F.HCM_MOP_CMD_WAY) then s.mopBegun.mopEnd 4
    else s.mopBegun.shedOrWait (s.fget F.HCM_MOP_CMD_SLICE) x := by
  rw [State.mopGo, h, if_neg Bool.false_ne_true]
  dsimp only
  rw [hkind, if_pos rfl]
  exact ⟨_, rfl⟩

theorem State.mopBegun_shows (s : State) : s.mopBegun.fget F.HCM_MOP_STATUS_BUSY = 1 ∧ s.mopBegun.fget F.HCM_MOP_STATUS_RESULT = 0 := by
  refine ⟨?_, ?_⟩ <;>
  simp (disch := decide) only [State.mopBegun, State.setFlag, State.fget_fset_bits, State.fget_fset_same] <;>
  rfl

theorem State.mopEnd_shows (s : State) (r : Nat) : (s.mopEnd r).flag F.HCM_MOP_STATUS_BUSY = false ∧
    (s.mopEnd r).fget F.HCM_MOP_STATUS_RESULT = r % 8 := by
  refine ⟨?_, ?_⟩
  · rw [State.flag]
    simp (disch := decide) only [State.mopEnd, State.setFlag, State.fget_fset_bits, State.fget_fset_same]
    rfl
  · simp (disch := decide) only [State.mopEnd, State.fget_fset_same]
    rfl

theorem State.mopEnd_begun_op (s : State) (r : Nat) : (s.mopBegun.mopEnd r).fget F.HCM_MOP_CMD_OP = s.fget F.HCM_MOP_CMD_OP := by
  simp (disch := decide) only [State.mopEnd, State.mopBegun, State.setFlag, State.fget_fset_apart]

/-! ## The range engine -/

/-- The fields of HCM_RNG_CMD after a write of `x`. -/
def State.rngAsked (s : State) (x : Word) : State :=
  ((s.fset F.HCM_RNG_CMD_TENANT (getBits x 10 7)).fset F.HCM_RNG_CMD_TFILT (getBits x 9 1)).fset F.HCM_RNG_CMD_OP (getBits x 0 2)

theorem State.writeAt_rng (s : State) (who : Party) {x : Word} (hop : getBits x 0 2 ≤ 2) (hgo : x.getLsbD 31 = true)
    (habort : x.getLsbD 30 = false) : s.writeAt who 0x6030 x = (s.rngAsked x).rngGo := by
  have hfields : hcmWritable.filter (fun w => (w.fld.member 0 0x6030).isSome) =
      [⟨F.HCM_RNG_CMD_TENANT, .rw, []⟩, ⟨F.HCM_RNG_CMD_TFILT, .rw, []⟩, ⟨F.HCM_RNG_CMD_OP, .rw, [(0, 2)]⟩] ∧
      F.HCM_RNG_CMD_TENANT.member 0 0x6030 = some 0 ∧ F.HCM_RNG_CMD_TFILT.member 0 0x6030 = some 0 ∧
      F.HCM_RNG_CMD_OP.member 0 0x6030 = some 0 := by decide
  obtain ⟨hthree, hten, hfilt, hopm⟩ := hfields
  have hlegal : getBits x F.HCM_RNG_CMD_OP.lsb F.HCM_RNG_CMD_OP.wid ≤ 2 := hop
  rw [State.writeAt_hcm (by decide) (by decide)]
  show s.writeRng who x = _
  rw [State.writeRng, onBit, habort, if_neg Bool.false_ne_true, onBit, if_pos hgo, State.writeFields_filter, hthree]
  simp only [State.writeFields, List.foldl_cons, List.foldl_nil, State.writeField, hten, hfilt, hopm, List.isEmpty_nil,
    List.isEmpty_cons, List.any_cons, List.any_nil, Bool.false_or, Bool.or_false, Nat.zero_le, decide_true, Bool.true_and,
    decide_eq_true hlegal, if_true]
  rfl

theorem State.rngAsked_op (s : State) (x : Word) : (s.rngAsked x).fget F.HCM_RNG_CMD_OP = getBits x 0 2 := by
  rw [State.rngAsked, State.fget_fset_same _ _ _ _ _ (by decide)]
  exact Nat.mod_eq_of_lt (getBits_lt x 0 2)

/-- A field of the home cache's block outside HCM_RNG_CMD. -/
theorem State.rngAsked_fget (s : State) (x : Word) {g : Fld} (h : g = F.HCM_MODE_STATUS_MODE ∨ g = F.HCM_RNG_STATUS_BUSY ∨
    g = F.HCM_RNG_BASE_LO_ADDR_LO ∨ g = F.HCM_RNG_BASE_HI_ADDR_HI ∨ g = F.HCM_RNG_LIMIT_LO_ADDR_LO ∨ g = F.HCM_RNG_LIMIT_HI_ADDR_HI) :
    (s.rngAsked x).fget g = s.fget g := by
  rcases h with rfl | rfl | rfl | rfl | rfl | rfl <;>
  simp (disch := decide) only [State.rngAsked, State.fget_fset_apart]

theorem State.rngGo_disabling (h : s.hcMode = 1) : s.rngGo = s.setFlag F.HCM_RNG_STATUS_REJECTED true := by rw [State.rngGo, if_pos h]

/-- The status in which an accepted GO begins. -/
def State.rngBegun (s : State) : State :=
  (((s.setFlag F.HCM_RNG_STATUS_REJECTED false).setFlag F.HCM_RNG_STATUS_ABORTED false).fset
    F.HCM_RNG_STATUS_POISONED 0).fset F.HCM_RNG_STATUS_SETS_DONE 0

theorem State.rngBegun_shows (s : State) : s.rngBegun.fget F.HCM_RNG_STATUS_REJECTED = 0 ∧ s.rngBegun.fget F.HCM_RNG_STATUS_ABORTED = 0 ∧
    s.rngBegun.fget F.HCM_RNG_STATUS_BUSY = s.fget F.HCM_RNG_STATUS_BUSY := by
  refine ⟨?_, ?_, ?_⟩
  · simp (disch := decide) only [State.rngBegun, State.setFlag, State.fget_fset_bits, State.fget_fset_same]
    rfl
  · simp (disch := decide) only [State.rngBegun, State.setFlag, State.fget_fset_bits, State.fget_fset_same]
    rfl
  · simp (disch := decide) only [State.rngBegun, State.setFlag, State.fget_fset_bits]

theorem State.rngGo_free (hmode : s.hcMode ≠ 1) (hbusy : s.flag F.HCM_RNG_STATUS_BUSY = false) {base limit : Addr}
    (hbase : base = addrOf (s.fget F.HCM_RNG_BASE_LO_ADDR_LO) (s.fget F.HCM_RNG_BASE_HI_ADDR_HI))
    (hlimit : limit = addrOf (s.fget F.HCM_RNG_LIMIT_LO_ADDR_LO) (s.fget F.HCM_RNG_LIMIT_HI_ADDR_HI)) : ∃ x : RangeJob,
    s.rngGo = (if limit.toNat < base.toNat then s.rngBegun else (s.rngBegun.setFlag F.HCM_RNG_STATUS_BUSY true).startCtx0 x) ∧
    x.op = s.fget F.HCM_RNG_CMD_OP ∧ x.base = base.toNat ∧ x.limit = limit.toNat := by
  subst hbase hlimit
  rw [State.rngGo, if_neg hmode, hbusy, if_neg Bool.false_ne_true]
  exact ⟨_, rfl, rfl, rfl, rfl⟩

/-- The fields of HCM_RNG_CMD keep their values when ABORT is set beside them. -/
theorem rngCmd_untouched : ∀ w ∈ hcmWritable, (w.fld.member 0 0x6030).isSome = true → w.untouched 0x0001FE03 30 = true := by decide

theorem State.writeAt_rngAbort (who : Party) (hwf : s.ArraysWf) :
    s.writeAt who 0x6030 ((s.word 0x6030 &&& 0x0001FE03) ||| bitWord 30) = s.rngAbort := by
  rw [State.writeAt_hcm (by decide) (by decide)]
  show s.writeRng who _ = _
  rw [State.writeRng, State.writeFields_commandBit hwf.regs rngCmd_untouched, onBit, if_pos (bit_commandBit (by decide)), onBit,
    bit_commandBit_other (by decide) (by decide), if_neg Bool.false_ne_true]

/-- A context that is free to go on opens its next set. -/
theorem State.rangeSet_walks {j : RangeJob} (hk : k ∈ s.actives) (hopen : s.rangeOpen k 0 = 0) (hstop : s.ctxStopped 0 = false)
    (hpwr : (s.slice k).pwr ≠ .deep) (hj : s.ctx0 = some j) (hwalk : (s.slice k).walk0 < 1024) :
    ((s.rangeSet k 0).slice k).walk0 = (s.slice k).walk0 + 1 := by
  have hfree : (!s.actives.contains k || decide (1024 ≤ (s.slice k).walk 0) || s.rangeOpen k 0 != 0 || s.ctxStopped 0 ||
      (s.slice k).pwr == .deep) = false := by
    rw [List.contains_iff_mem.mpr hk, hopen, hstop, Slice.walk, if_pos rfl, decide_eq_false (by omega)]
    simp [hpwr]
  rw [State.rangeSet, if_pos rfl, hj]
  dsimp only
  rw [hfree, if_neg Bool.false_ne_true, (State.shedOrWait_parks _ _ _).walk0, State.slice_modSlice_same]
  rfl

end

/-- A write of GO to HCM_MOP_CMD. -/
theorem mop_go {s : State} {who : Party} {v : Word} {c : Instr} {j : Nat}
    (hc : (c, j) ∈ [(Instr.hcmMopClean who v, 0), (.hcmMopCleanInv who v, 1), (.hcmMopInvClean who v, 2)]) (ht : s.takes who 0x6018) :
    exec c s = .next (s.after (s.mopAsked (goWord v j)).mopGo) ∧ j ≤ 2 := by
  have hrow : exec c s = .next (s.command who 0x6018 (goWord v j)) ∧ j ≤ 2 := by
    simp only [List.mem_cons, List.not_mem_nil, or_false, Prod.mk.injEq] at hc
    rcases hc with ⟨rfl, rfl⟩ | ⟨rfl, rfl⟩ | ⟨rfl, rfl⟩
    · exact ⟨rfl, by decide⟩
    · exact ⟨rfl, by decide⟩
    · exact ⟨rfl, by decide⟩
  refine ⟨hrow.1.trans ((next_command _ ht).trans ?_), hrow.2⟩
  rw [State.writeAt_mop _ _ _ hrow.2]

/-- A write of GO to HCM_RNG_CMD. -/
theorem rng_go {s : State} {who : Party} {v : Word} {c : Instr} {j : Nat}
    (hc : (c, j) ∈ [(Instr.hcmRngClean who v, 0), (.hcmRngCleanInv who v, 1), (.hcmRngInvClean who v, 2)]) (ht : s.takes who 0x6030) :
    exec c s = .next (s.after (s.rngAsked (setBits (goWord v j) 30 1 0)).rngGo) ∧ getBits (setBits (goWord v j) 30 1 0) 0 2 = j := by
  have hrow : exec c s = .next (s.command who 0x6030 (setBits (goWord v j) 30 1 0)) ∧ j ≤ 2 := by
    simp only [List.mem_cons, List.not_mem_nil, or_false, Prod.mk.injEq] at hc
    rcases hc with ⟨rfl, rfl⟩ | ⟨rfl, rfl⟩ | ⟨rfl, rfl⟩
    · exact ⟨rfl, by decide⟩
    · exact ⟨rfl, by decide⟩
    · exact ⟨rfl, by decide⟩
  have hop : getBits (setBits (goWord v j) 30 1 0) 0 2 = j :=
    (getBits_setBits_other _ _ _ _ _ _ (by decide) (by decide)).trans (goWord_op v (by omega))
  have hgo : (setBits (goWord v j) 30 1 0).getLsbD 31 = true := by
    rw [getLsbD_setBits _ _ _ _ _ (by decide), if_neg (by decide), goWord_go]
  have habort : (setBits (goWord v j) 30 1 0).getLsbD 30 = false := by
    rw [getLsbD_setBits _ _ _ _ _ (by decide), if_pos (by decide)]
    rfl
  refine ⟨hrow.1.trans ((next_command _ ht).trans ?_), hop⟩
  rw [State.writeAt_rng _ _ (Nat.le_trans (Nat.le_of_eq hop) hrow.2) hgo habort]

/-- Settles O38: each command register starts its engine from the fields written beside its bit; a drained home cache is disabled. -/
theorem homeCacheMaintenance : Obligations.HomeCacheMaintenance := by
  unfold Obligations.HomeCacheMaintenance
  refine ⟨fun s who ht => ⟨fun hmode => ?_, fun hmode => ?_, fun hmode => ?_⟩, fun s hup => ⟨fun hdone => ?_, fun hopen => ?_⟩,
    fun s who v c j hc ht => ?_, fun s who v c j base limit hc ht hbase hlimit => ?_, fun s who ht hwf => ⟨fun hbusy => ?_, fun hidle => ?_⟩,
    fun s k j hup hk hopen hstop hpwr hj hwalk => ?_, fun s k hup hnone => ?_⟩
  · have hwritten : (s.fset F.HCM_MODE_CTL_DISABLE (getBits 1 0 1)).hcMode = 0 :=
      (State.fget_fset_apart s _ _ _ _ _ (by decide) (by decide)).trans hmode
    obtain ⟨hdraining, hbusy, hpend, hjob⟩ := State.hcDisable_drains hwritten
    refine ⟨_, (next_command 1 ht).trans ?_, hdraining, hbusy, hpend, fun ⟨k, hk, hpwr⟩ => hjob ⟨k, ?_, hpwr⟩⟩
    case refine_2 => exact State.actives_congr (u := s.fset F.HCM_MODE_CTL_DISABLE (getBits 1 0 1)) rfl rfl rfl ▸ hk
    rw [State.writeAt_mode, if_pos (by decide)]
  · have hwritten : (s.fset F.HCM_MODE_CTL_DISABLE (getBits 0 0 1)).hcMode = 1 :=
      (State.fget_fset_apart s _ _ _ _ _ (by decide) (by decide)).trans hmode
    refine ⟨(s.fset F.HCM_MODE_CTL_DISABLE (getBits 0 0 1)).setFlag F.HCM_MODE_STATUS_PEND_EN true, (next_command 0 ht).trans ?_,
      (State.fget_fset_bits _ _ _ _ _ _ (by decide) (by decide)).trans hwritten, State.flag_setFlag_same _ _ _ _ _ (by decide) (by decide)⟩
    rw [State.writeAt_mode, if_neg (by decide), State.hcEnable_disabling hwritten]
  · have hwritten : (s.fset F.HCM_MODE_CTL_DISABLE (getBits 0 0 1)).hcMode = 2 :=
      (State.fget_fset_apart s _ _ _ _ _ (by decide) (by decide)).trans hmode
    refine ⟨(s.fset F.HCM_MODE_CTL_DISABLE (getBits 0 0 1)).fset F.HCM_MODE_STATUS_MODE 0, (next_command 0 ht).trans ?_,
      State.fget_fset_same _ _ _ _ _ (by decide)⟩
    rw [State.writeAt_mode, if_neg (by decide), State.hcEnable_disabled hwritten]
  · refine ⟨s.hcDrainComplete, next_run hup _, ?_⟩
    rw [State.hcDrainComplete, if_pos hdone]
    generalize hpend : s.flag F.HCM_MODE_STATUS_PEND_EN = b
    refine ⟨?_, State.flag_setFlag_same _ _ _ _ _ (by decide) (by decide), ?_⟩
    · simp (disch := decide) only [State.flag, State.setFlag, State.fget_fset_bits, State.fget_fset_same]
      rfl
    · simp (disch := decide) only [State.hcMode, State.setFlag, State.fget_fset_bits, State.fget_fset_same]
      cases b <;> rfl
  · refine (next_run hup _).trans ?_
    rw [State.hcDrainComplete, hopen, if_neg Bool.false_ne_true]
  · obtain ⟨hexec, hj⟩ := mop_go hc ht
    obtain ⟨hslice, hway, hset, hkind, hop⟩ := s.mopAsked_shows (goWord v j)
    have hbusy (b : Bool) (h : s.flag F.HCM_MOP_STATUS_BUSY = b) : (s.mopAsked (goWord v j)).flag F.HCM_MOP_STATUS_BUSY = b := by
      rw [State.flag, s.mopAsked_fget _ (.inl rfl)]
      exact h
    have hkindBit (b : Bool) (h : v.getLsbD 2 = b) : (s.mopAsked (goWord v j)).flag F.HCM_MOP_CMD_KIND = b := by
      rw [State.flag, hkind, getBits_bit, goWord_bit v j (by decide) (by decide), h]
      cases b <;> rfl
    rw [goWord_bits v j (by decide) (by decide)] at hslice hway hset
    have hsame : (s.mopAsked (goWord v j)).slices = s.slices ∧ (s.mopAsked (goWord v j)).actives = s.actives ∧
      (s.mopAsked (goWord v j)).pat = s.pat := ⟨rfl, State.actives_congr rfl rfl rfl, rfl⟩
    have hfget {g : Fld} (hg) : (s.mopAsked (goWord v j)).fget g = s.fget g := s.mopAsked_fget (goWord v j) hg
    generalize s.mopAsked (goWord v j) = u at hexec hslice hway hset hkind hop hbusy hkindBit hsame hfget
    obtain ⟨hslices, hacts, hpat⟩ := hsame
    refine ⟨fun h => ?_, fun h hk hrange => ?_, fun h hk hnot => ?_, fun h hk hin hgood => ?_⟩
    · rw [State.mopGo_busy (hbusy true h)] at hexec
      exact ⟨u, hexec, hbusy true h, hfget (.inr (.inl rfl)), hslices⟩
    · rw [State.mopGo_unhomed (hbusy false h) (hkindBit false hk) (by
        rw [State.rangeOf, hpat, hfget (.inr (.inr (.inl rfl))), hfget (.inr (.inr (.inr rfl)))]
        exact hrange)] at hexec
      obtain ⟨hend, hresult⟩ := u.mopBegun.mopEnd_shows 2
      exact ⟨_, hexec, hend, hresult, hslices, (u.mopEnd_begun_op 2).trans (hop.trans (goWord_op v (by omega)))⟩
    · obtain ⟨x, hx⟩ := State.mopGo_frame (hbusy false h) (hkindBit true hk)
      rw [hslice, hacts, if_pos (by simpa using hnot)] at hx
      obtain ⟨hend, hresult⟩ := u.mopBegun.mopEnd_shows 3
      exact ⟨_, hx ▸ hexec, hend, hresult, hslices⟩
    · obtain ⟨x, hx⟩ := State.mopGo_frame (hbusy false h) (hkindBit true hk)
      rw [hslice, hset, hway, hacts, if_neg (by simpa using hin), State.slice_congr hslices, hgood, if_neg Bool.false_ne_true] at hx
      obtain ⟨hbegun, hresult⟩ := u.mopBegun_shows
      have hparks := u.mopBegun.shedOrWait_parks (getBits v 21 5) x
      refine ⟨_, hx ▸ hexec, ?_, (hparks.fget _ _ _ (by decide) (by decide)).trans hresult⟩
      rw [State.flag, hparks.fget _ _ _ (by decide) (by decide), hbegun]
      rfl
  · obtain ⟨hexec, hop⟩ := rng_go hc ht
    have hasked := s.rngAsked_op (setBits (goWord v j) 30 1 0)
    rw [hop] at hasked
    have hsame : (s.rngAsked (setBits (goWord v j) 30 1 0)).ctx0 = s.ctx0 ∧ (s.rngAsked (setBits (goWord v j) 30 1 0)).actives = s.actives ∧
      (s.rngAsked (setBits (goWord v j) 30 1 0)).slices = s.slices := ⟨rfl, State.actives_congr rfl rfl rfl, rfl⟩
    have hfget {g : Fld} (hg) : (s.rngAsked (setBits (goWord v j) 30 1 0)).fget g = s.fget g := s.rngAsked_fget _ hg
    generalize s.rngAsked (setBits (goWord v j) 30 1 0) = u at hexec hasked hsame hfget
    obtain ⟨hctx, hacts, hslices⟩ := hsame
    have hmode : u.hcMode = s.hcMode := hfget (.inl rfl)
    have hbusy : u.flag F.HCM_RNG_STATUS_BUSY = s.flag F.HCM_RNG_STATUS_BUSY := by rw [State.flag, hfget (.inr (.inl rfl)), State.flag]
    rw [← hfget (.inr (.inr (.inl rfl))), ← hfget (.inr (.inr (.inr (.inl rfl))))] at hbase
    rw [← hfget (.inr (.inr (.inr (.inr (.inl rfl))))), ← hfget (.inr (.inr (.inr (.inr (.inr rfl)))))] at hlimit
    obtain ⟨hrej, habort, hstill⟩ := u.rngBegun_shows
    refine ⟨fun h => ?_, fun h hidle hlt => ?_, fun h hidle hle hwalks => ?_⟩
    · rw [State.rngGo_disabling (hmode.trans h)] at hexec
      exact ⟨_, hexec, State.flag_setFlag_same _ _ _ _ _ (by decide) (by decide), hctx⟩
    · obtain ⟨x, hx, -⟩ := State.rngGo_free (hmode ▸ h) (hbusy.trans hidle) hbase hlimit
      rw [if_pos hlt] at hx
      rw [hx] at hexec
      refine ⟨_, hexec, ?_, ?_, hctx⟩
      · rw [State.flag, hstill]
        exact hbusy.trans hidle
      · rw [State.flag, hrej]
        rfl
    · obtain ⟨x, hx, hxop, hxbase, hxlimit⟩ := State.rngGo_free (hmode ▸ h) (hbusy.trans hidle) hbase hlimit
      rw [if_neg (by omega)] at hx
      obtain ⟨k, hk, hdeep⟩ := hwalks
      have hset : (u.rngBegun.setFlag F.HCM_RNG_STATUS_BUSY true).fget F.HCM_RNG_STATUS_BUSY = 1 ∧
          (u.rngBegun.setFlag F.HCM_RNG_STATUS_BUSY true).fget F.HCM_RNG_STATUS_ABORTED = 0 ∧
          (u.rngBegun.setFlag F.HCM_RNG_STATUS_BUSY true).actives = u.actives ∧
          (u.rngBegun.setFlag F.HCM_RNG_STATUS_BUSY true).slices = u.slices :=
        ⟨State.fget_setFlag_same _ _ _ _ _ (by decide) (by decide),
          (State.fget_fset_bits _ _ _ _ _ _ (by decide) (by decide)).trans habort, State.actives_congr rfl rfl rfl, rfl⟩
      generalize u.rngBegun.setFlag F.HCM_RNG_STATUS_BUSY true = w at hx hset
      obtain ⟨hwbusy, hwabort, hwacts, hwslices⟩ := hset
      obtain ⟨hjob, hkept⟩ := State.startCtx0_goes (s := w) x (k := k)
        (by rw [State.ctxStopped, State.flag, hwabort]; simp) (by rw [hwacts, hacts]; exact hk)
        (by rw [State.slice_congr (hwslices.trans hslices)]; exact hdeep)
      refine ⟨_, x, hx ▸ hexec, ?_, hjob, hxop.trans hasked, hxbase, hxlimit⟩
      rw [State.flag, hkept, hwbusy]
      rfl
  · refine ⟨s.rngAbort, (next_command _ ht).trans ?_, ?_⟩
    · rw [State.writeAt_rngAbort who hwf]
    · have hset : (s.setFlag F.HCM_RNG_STATUS_ABORTED true).fget F.HCM_RNG_STATUS_ABORTED = 1 :=
        State.fget_setFlag_same _ _ _ _ _ (by decide) (by decide)
      rw [State.rngAbort, if_pos hbusy, State.flag, State.rangeCheck_fget _ _ _ (by decide) (by decide) (by decide) (by decide), hset]
      rfl
  · refine (next_command _ ht).trans ?_
    rw [State.writeAt_rngAbort who hwf, State.rngAbort, hidle, if_neg Bool.false_ne_true]
  · have hk18 : k < 18 := by
      rw [State.actives, List.mem_filter, List.mem_range] at hk
      exact hk.1
    refine ⟨s.rangeSet k 0, (next_atSlice hup hk18 _).trans ?_, State.rangeSet_walks hk hopen hstop hpwr hj hwalk⟩
    rw [if_pos (by decide)]
  · refine (next_run hup _).trans ?_
    rw [State.atSlice]
    split
    · rw [if_pos (by decide), State.rangeSet, if_neg (by decide), hnone]
    · rfl

end Sys2Proof.Machine
end

section
/-! The statement about the warm reset (15 R585 to R589, 22 R763). -/
namespace Sys2Proof.Machine

section
variable {s : State}

/-! ## The entry -/

/-- What the entry sets at once: SAFE_N, READY, the bound of the flush, and the watchdogs. -/
def State.warmBegun (s : State) : State :=
  ((({ s with safePin := true, ctx0 := none, ctx1 := none, mig := none, barriers := [],
              boot := { s.boot with since := s.now, flushBy := some (s.now + msec 2) } } : State).setFlag F.GLB_BOOT_STATUS_READY
    false).fset F.WDG_UMV_STATUS_STATE 1).watchdogsBoot

/-- What the entry drops: transactions and buffers in slices and ports, and the entries of the Clamp. -/
def State.warmHalted (s : State) : State :=
  forUp (fun l (s : State) => s.clampClear l) 0 16 (forUp (fun p (s : State) => s.modPort p Port.halted) 0 12
    (forUp (fun k (s : State) => s.modSlice k Slice.halted) 0 18 s))

theorem State.warmReset_eq (hup : s.boot.rstN = false) (hflush : s.boot.flushBy = none) :
    s.warmReset = s.warmBegun.warmHalted.actives.foldl (fun (u : State) k => u.flushSlice k (s.now + msec 2)) s.warmBegun.warmHalted := by
  rw [State.warmReset, if_neg (by simp [State.flushing, hup, hflush])]
  rfl

theorem State.clampClear_field {α : Type} (get : State → α) (hbanks : ∀ (s : State) x, get { s with banks := x } = get s) (s : State) (l : Nat) :
    get (s.clampClear l) = get s := by
  unfold State.clampClear State.forEnts
  refine (State.foldl_field get (fun s e => ?_) _ _).trans (hbanks _ _)
  dsimp only
  split
  · rfl
  · exact hbanks _ _

/-- The buffers and the Clamp are no part of what `get` reads, and neither are the slices. -/
theorem State.warmHalted_field {α : Type} (get : State → α) (hslices : ∀ (s : State) x, get { s with slices := x } = get s)
    (hports : ∀ (s : State) x, get { s with ports := x } = get s) (hbanks : ∀ (s : State) x, get { s with banks := x } = get s) (s : State) :
    get s.warmHalted = get s := by
  unfold State.warmHalted
  refine (State.forUp_field get (fun l s => State.clampClear_field get hbanks s l) _ _ _).trans ?_
  refine (State.forUp_field get (fun p s => ?_) _ _ _).trans (State.forUp_field get (fun k s => ?_) _ _ _)
  · exact hports _ _
  · exact hslices _ _

theorem State.warmHalted_slice (s : State) {k : Nat} (hk : k < 18) : s.warmHalted.slice k = (s.slice k).halted := by
  have hclear (u : State) : (forUp (fun l (s : State) => s.clampClear l) 0 16 u).slice k = u.slice k :=
    State.forUp_field (·.slice k) (fun l s => State.clampClear_field (·.slice k) (fun _ _ => rfl) s l) 16 0 u
  have hports (u : State) : (forUp (fun p (s : State) => s.modPort p Port.halted) 0 12 u).slice k = u.slice k :=
    State.forUp_field (·.slice k) (fun p (s : State) => s.modPort_slice p Port.halted k) 12 0 u
  have hother (i : Nat) (u : State) (hi : i ≠ k) : (u.modSlice i Slice.halted).slice k = u.slice k := State.slice_modSlice_other u _ hi.symm
  have hself (u : State) (hu : u.slice k = s.slice k) : (u.modSlice k Slice.halted).slice k = (s.slice k).halted := by
    rw [State.slice_modSlice_same, hu]
  have hslices : (forUp (fun k (s : State) => s.modSlice k Slice.halted) 0 18 s).slice k = (s.slice k).halted :=
    forUp_reaches (get := fun u : State => u.slice k) (p := (· = s.slice k)) (q := (· = (s.slice k).halted)) hother hself 18 0 s
      (Nat.zero_le k) (by omega) rfl
  rw [State.warmHalted, hclear, hports, hslices]

theorem State.flushSlice_empty {k : Nat} (h : (s.slice k).hc = []) (t : Time) : s.flushSlice k t = s := by rw [State.flushSlice, h]; rfl

/-- With empty home caches nothing is written back. -/
theorem State.warmReset_empty (hup : s.boot.rstN = false) (hflush : s.boot.flushBy = none) (hempty : ∀ k, (s.slice k).hc = []) :
    s.warmReset = s.warmBegun.warmHalted := by
  have hbegun (k : Nat) : s.warmBegun.slice k = s.slice k := State.modUmv_slice _ _ _
  rw [State.warmReset_eq hup hflush]
  generalize s.warmBegun = b at hbegun ⊢
  have hhalted (k : Nat) (hk : k ∈ b.warmHalted.actives) : (b.warmHalted.slice k).hc = [] := by
    rw [State.actives, List.mem_filter, List.mem_range] at hk
    rw [State.warmHalted_slice b hk.1, hbegun]
    exact hempty k
  generalize b.warmHalted = u at hhalted ⊢
  generalize u.actives = ks at hhalted ⊢
  induction ks with
  | nil => rfl
  | cons k ks ih =>
    rw [List.foldl_cons, State.flushSlice_empty (hhalted k (by simp))]
    exact ih fun j hj => hhalted j (by simp [hj])

theorem State.watchdogsBoot_field {α : Type} (get : State → α) (hregs : ∀ (s : State) x, get { s with regs := x } = get s)
    (humv : ∀ (s : State) x, get { s with umv := x } = get s) (s : State) : get s.watchdogsBoot = get s :=
  (humv _ _).trans ((humv _ _).trans ((hregs _ _).trans (hregs _ _)))

theorem State.warmBegun_shows (s : State) : s.warmBegun.safePin = true ∧ s.warmBegun.fget F.GLB_BOOT_STATUS_READY = 0 ∧
    s.warmBegun.boot = { s.boot with since := s.now, flushBy := some (s.now + msec 2) } ∧ s.warmBegun.fget F.WDG_UMV_STATUS_STATE = 1 ∧
    s.warmBegun.mig = none ∧ s.warmBegun.barriers = [] := by
  unfold State.warmBegun
  refine ⟨State.watchdogsBoot_field (·.safePin) (fun _ _ => rfl) (fun _ _ => rfl) _, ?_,
    State.watchdogsBoot_field (·.boot) (fun _ _ => rfl) (fun _ _ => rfl) _, ?_,
    State.watchdogsBoot_field (·.mig) (fun _ _ => rfl) (fun _ _ => rfl) _,
    State.watchdogsBoot_field (·.barriers) (fun _ _ => rfl) (fun _ _ => rfl) _⟩
  · simp (disch := decide) only [State.watchdogsBoot, State.cwdStart, State.modUmv_fget, State.setFlag, State.fget_fset_apart,
      State.fget_fset_same]
    rfl
  · simp (disch := decide) only [State.watchdogsBoot, State.cwdStart, State.modUmv_fget, State.fget_fset_apart, State.fget_fset_same]
    rfl

/-! ## The end -/

theorem State.vectorsWarm_field {α : Type} (get : State → α) (hvectors : ∀ (s : State) x, get { s with vectors := x } = get s) (s : State) :
    get s.vectorsWarm = get s :=
  State.foldl_field get (fun _ _ => hvectors _ _) _ _

/-- The last steps of the clear: the count of warm resets, the vectors, the lifecycle state, and where the boot begins. -/
def State.warmLast (r : State) : State :=
  let s2 := (r.bump F.GLB_RST_CAUSE_WARMS).vectorsWarm
  let s3 := if s2.flag F.GLB_UNLK_STATUS_PEND && s2.lifecycle != 2 then s2.fset F.PAT_STATUS_LC 1 else s2
  (s3.setFlag F.GLB_UNLK_STATUS_PEND false).fset F.GLB_BOOT_STATUS_STEP 2

theorem State.warmClear_eq (s : State) : ∃ r : State, s.warmClear = r.warmLast ∧ r.fget F.GLB_RST_CAUSE_CAUSE = 2 ∧ r.boot.flushBy = none ∧
    r.safePin = true ∧ r.pat = Pattern.none := by
  unfold State.warmClear
  dsimp only
  generalize hr : State.fset _ F.GLB_RST_CAUSE_CAUSE 2 = r
  refine ⟨r, rfl, ?_, ?_, ?_, ?_⟩
  · rw [← hr, State.fget_fset_same _ _ _ _ _ (by decide)]
    rfl
  · rw [← hr]
    rfl
  · rw [← hr]
    rfl
  · rw [← hr]
    rfl

theorem State.warmLast_shows (r : State) : r.warmLast.fget F.GLB_BOOT_STATUS_STEP = 2 ∧ r.warmLast.boot = r.boot ∧
    r.warmLast.fget F.GLB_RST_CAUSE_CAUSE = r.fget F.GLB_RST_CAUSE_CAUSE ∧ r.warmLast.safePin = r.safePin ∧
    r.warmLast.fget F.GLB_UNLK_STATUS_PEND = 0 ∧ r.warmLast.pat = r.pat := by
  have hvectors : (r.bump F.GLB_RST_CAUSE_WARMS).vectorsWarm.boot = r.boot ∧ (r.bump F.GLB_RST_CAUSE_WARMS).vectorsWarm.safePin = r.safePin ∧
      (r.bump F.GLB_RST_CAUSE_WARMS).vectorsWarm.pat = r.pat ∧
      (r.bump F.GLB_RST_CAUSE_WARMS).vectorsWarm.fget F.GLB_RST_CAUSE_CAUSE = r.fget F.GLB_RST_CAUSE_CAUSE :=
    ⟨State.vectorsWarm_field (·.boot) (fun _ _ => rfl) _, State.vectorsWarm_field (·.safePin) (fun _ _ => rfl) _,
      State.vectorsWarm_field (·.pat) (fun _ _ => rfl) _, (State.vectorsWarm_field (·.fget F.GLB_RST_CAUSE_CAUSE) (fun _ _ => rfl) _).trans
        (State.fget_fset_bits r _ _ _ _ _ (by decide) (by decide))⟩
  unfold State.warmLast
  dsimp only
  generalize (r.bump F.GLB_RST_CAUSE_WARMS).vectorsWarm = v at hvectors ⊢
  obtain ⟨hboot, hpin, hpat, hcause⟩ := hvectors
  have hlc : ∀ u : State, u = (if v.flag F.GLB_UNLK_STATUS_PEND && v.lifecycle != 2 then v.fset F.PAT_STATUS_LC 1 else v) →
      u.boot = r.boot ∧ u.safePin = r.safePin ∧ u.pat = r.pat ∧ u.fget F.GLB_RST_CAUSE_CAUSE = r.fget F.GLB_RST_CAUSE_CAUSE := by
    rintro u rfl
    split
    · exact ⟨hboot, hpin, hpat, (State.fget_fset_apart v _ _ _ _ _ (by decide) (by decide)).trans hcause⟩
    · exact ⟨hboot, hpin, hpat, hcause⟩
  have hlc := hlc _ rfl
  generalize (if v.flag F.GLB_UNLK_STATUS_PEND && v.lifecycle != 2 then v.fset F.PAT_STATUS_LC 1 else v) = u at hlc ⊢
  obtain ⟨hboot, hpin, hpat, hcause⟩ := hlc
  refine ⟨State.fget_fset_same _ _ _ _ _ (by decide), hboot, ?_, hpin, ?_, hpat⟩
  · simp (disch := decide) only [State.setFlag, State.fget_fset_apart]
    exact hcause
  · simp (disch := decide) only [State.setFlag, State.fget_fset_apart, State.fget_fset_same]
    rfl

end

/-- Settles O8: a pin or command triggers the reset once; its entry halts the chiplet, its end leaves the always-on domain and boot step 2. -/
theorem warmResetSequence : Obligations.WarmResetSequence := by
  unfold Obligations.WarmResetSequence
  refine ⟨fun s h => ?_, fun s h => ?_, fun s who hwho ht => ⟨?_, fun key hkey => ?_⟩, fun s hup hflush hempty => ?_, fun s h => ?_,
    fun s t hup hflush => ?_, fun s => rfl, fun s h0 h3 h4 => ?_, fun s h => ?_⟩
  · refine congrArg (fun u => Host.Outcome.next (s.logAll (State.settle u))) ?_
    rw [State.wrstAssert, h, if_neg Bool.false_ne_true]
  · refine congrArg (fun u => Host.Outcome.next (s.logAll (State.settle u))) ?_
    rw [State.testEnAssert, h, if_neg Bool.false_ne_true]
  · refine (next_command _ ht).trans (congrArg (fun u => Host.Outcome.next (s.after u)) ?_)
    rw [State.writeAt_glb (by decide)]
    refine (State.writeRst_allowed hwho _).trans ?_
    rw [cmd_bit, cmd_key, State.rstCmd, if_neg (by simp), if_pos rfl]
  · refine (next_command _ ht).trans (congrArg (fun u => Host.Outcome.next (s.after u)) ?_)
    rw [State.writeAt_glb (by decide)]
    refine (State.writeRst_allowed hwho _).trans ?_
    rw [cmd_key, State.rstCmd, if_pos hkey]
  · obtain ⟨hpin, hready, hboot, hstate, hmig, hbarriers⟩ := s.warmBegun_shows
    rw [State.warmReset_empty hup hflush hempty]
    generalize s.warmBegun = b at hpin hready hboot hstate hmig hbarriers ⊢
    have hfield {α : Type} (get : State → α) := State.warmHalted_field get (s := b)
    have hboot := (hfield (·.boot) (fun _ _ => rfl) (fun _ _ => rfl) (fun _ _ => rfl)).trans hboot
    refine ⟨(hfield (·.safePin) (fun _ _ => rfl) (fun _ _ => rfl) (fun _ _ => rfl)).trans hpin, ?_, by rw [hboot], by rw [hboot],
      (hfield (·.fget F.WDG_UMV_STATUS_STATE) (fun _ _ => rfl) (fun _ _ => rfl) (fun _ _ => rfl)).trans hstate,
      (hfield (·.mig) (fun _ _ => rfl) (fun _ _ => rfl) (fun _ _ => rfl)).trans hmig,
      (hfield (·.barriers) (fun _ _ => rfl) (fun _ _ => rfl) (fun _ _ => rfl)).trans hbarriers, fun k hk => ?_⟩
    · rw [State.ready, State.flag, hfield (·.fget F.GLB_BOOT_STATUS_READY) (fun _ _ => rfl) (fun _ _ => rfl) (fun _ _ => rfl), hready]
      rfl
    · rw [State.warmHalted_slice b hk]
      exact ⟨rfl, rfl⟩
  · refine if_pos ?_
    rcases h with h | h
    · simp [State.flushing, Option.isSome_iff_ne_none.mpr h]
    · simp [h]
  · obtain ⟨x, hx⟩ : ∃ x : State, s.warmFlushEnd = x.warmClear := by
      rw [State.warmFlushEnd, hflush]
      exact ⟨_, rfl⟩
    obtain ⟨r, hr, hcause, hby, hpin, hpat⟩ := x.warmClear_eq
    obtain ⟨hstep, hboot, hsame, hsafe, hpend, hkept⟩ := r.warmLast_shows
    refine ⟨next_run hup _, ?_⟩
    rw [hx, hr]
    refine ⟨hstep, hboot ▸ hby, hsame.trans hcause, hsafe.trans hpin, ?_, hkept.trans hpat⟩
    rw [State.flag, hpend]
    rfl
  · have hdrives : (s.boot.ir == 0x00 || s.boot.ir == 0x03 || s.boot.ir == 0x04) = false := by
      rw [beq_eq_false_iff_ne.mpr h0, beq_eq_false_iff_ne.mpr h3, beq_eq_false_iff_ne.mpr h4]
      rfl
    exact congrArg Host.Outcome.next (by rw [State.wrstDeassert, hdrives]; rfl)
  · have hdrives : (s.boot.ir == 0x00 || s.boot.ir == 0x03 || s.boot.ir == 0x04) = true := by simpa [or_assoc] using h
    exact congrArg Host.Outcome.next (by rw [State.wrstDeassert, hdrives]; rfl)

end Sys2Proof.Machine
end

section
/-! The statement about the boot steps 2 to 8 (15 R591 to R604). -/
namespace Sys2Proof.Machine

section
variable {s : State}

/-- What it means that the boot stands in a step. -/
theorem State.bootIn_iff (s : State) (n : Nat) : s.bootIn n = true ↔ s.fget F.GLB_BOOT_STATUS_STEP = n ∧ s.bootHeld = false ∧ s.bootFailed = false := by
  simp [State.bootIn, and_assoc]

theorem State.up_of_bootIn {n : Nat} (h : s.bootIn n = true) : s.boot.rstN = false := by
  have hheld := ((s.bootIn_iff n).mp h).2.1
  simp only [State.bootHeld, Bool.or_eq_false_iff] at hheld
  exact hheld.1.1.1

/-- A step's number is what is read back. -/
theorem State.bootStep_step (s : State) {n : Nat} (h : n < 16) : (s.bootStep n).fget F.GLB_BOOT_STATUS_STEP = n :=
  (State.fget_fset_same s _ _ _ _ (by decide)).trans (Nat.mod_eq_of_lt h)

/-! ## Step 2 -/

theorem State.bootFuse_shows (h : s.bootIn 2 = true) (r : FuseRead) :
    (s.bootFuse r).fget F.GLB_BOOT_STATUS_STEP = 3 ∧ (s.bootFuse r).boot.fuses = fusesOf r s.boot.blown := by
  rw [State.bootFuse, if_neg (show ¬(!s.bootIn 2) = true by simp [h])]
  extract_lets fu bad baseBad s1 s2 s3 s4 s5 s6
  have hread : s1.boot.fuses = fu := rfl
  have hstatus : s2.boot = s1.boot := rfl
  have hid : s3.boot = s2.boot := by
    refine State.forUp_field (·.boot) ?_ 4 0 s2
    intro m u
    exact State.fset_boot _ _ _ _ _
  have hbase : s5.boot = s4.boot := by
    refine State.forUp_field (·.boot) ?_ 18 0 s4
    intro k u
    dsimp only
    split
    · rw [State.fset_boot, State.fset_boot]
    · rw [State.fset_boot]
  have harmed : s6.boot = s5.boot := State.modUmv_boot _ _
  have hflag : s4.boot = s3.boot := State.setFlag_boot _ _ _ _ _
  refine ⟨State.bootStep_step _ (by decide), ?_⟩
  rw [State.bootStep, State.fset_boot, State.takeTrap_boot, State.fset_boot, harmed, hbase, hflag, hid, hstatus, hread]

/-! ## Steps 3 to 5 -/

theorem State.bootRom_good (h : s.bootIn 3 = true) (hruns : s.umevoRuns = true) : s.bootRom true =
    ((s.modBoot (fun b => { b with image := [], ptr := 0, bytes := 0 })).fset F.GLB_BOOT_STATUS_SOURCE
      (if s.flag F.GLB_BOOT_STATUS_BOOT_SEL then 3 else 1)).bootStep 4 := by
  rw [State.bootRom, h, hruns, if_neg (by decide), if_pos rfl]

theorem State.bootRom_bad (h : s.bootIn 3 = true) (hruns : s.umevoRuns = true) : s.bootRom false =
    ((s.setFlag F.GLB_BOOT_STATUS_FAIL true).fset F.GLB_BOOT_STATUS_CODE 1).setFlag F.SAF_FAULT_BOOT_FAIL true := by
  rw [State.bootRom, h, hruns, if_neg (by decide), if_neg (by decide)]

theorem State.nextSource_flash (h : s.fget F.GLB_BOOT_STATUS_SOURCE = 1) :
    s.nextSource = (s.bootStep 4).fset F.GLB_BOOT_STATUS_SOURCE 2 := by
  simp only [State.nextSource, h]

theorem State.nextSource_second (h : s.fget F.GLB_BOOT_STATUS_SOURCE = 2) : s.nextSource =
    (((s.bootStep 4).fset F.GLB_BOOT_STATUS_SOURCE 3).setFlag F.GLB_BOOT_STATUS_SPI_BAD true).setFlag F.SAF_FAULT_SPI_BAD true := by
  simp only [State.nextSource, h]

/-- The registers of the base image's rejection, and the boot's record, are none of the next source's. -/
theorem State.nextSource_fget (s : State) {g : Fld} (h : g = F.PAT_STATUS_LOADER ∨ g = F.PAT_ERR_VALID ∨ g = F.PAT_ERR_KIND ∨
    g = F.PAT_ERR_CODE ∨ g = F.GLB_BOOT_SPI_FAIL) : s.nextSource.fget g = s.fget g := by
  unfold State.nextSource
  dsimp only
  split <;>
  rcases h with rfl | rfl | rfl | rfl | rfl <;>
  simp (disch := decide) only [State.bootStep, State.setFlag, State.fget_fset_apart]

theorem State.nextSource_step (s : State) : s.nextSource.fget F.GLB_BOOT_STATUS_STEP = 4 := by
  have hstep := s.bootStep_step (n := 4) (by decide)
  unfold State.nextSource
  dsimp only
  split
  · simp (disch := decide) only [State.fget_fset_bits]
    exact hstep
  · simp (disch := decide) only [State.setFlag, State.fget_fset_apart]
    exact hstep
  · exact hstep

theorem State.nextSource_boot (s : State) : s.nextSource.boot = s.boot := by
  unfold State.nextSource
  dsimp only
  split <;> rfl

/-- A flash that does not answer fails the fetch. -/
theorem State.spiFetch_silent {f : SpiFlash} (h : s.bootIn 4 = true) (hruns : s.umevoRuns = true) (hsrc : s.fget F.GLB_BOOT_STATUS_SOURCE = 1)
    (hf : f.answers = false) : ∃ u : State, s.spiFetch f = (u.setFlag F.GLB_BOOT_SPI_FAIL true).nextSource ∧
      u.fget F.GLB_BOOT_STATUS_SOURCE = 1 := by
  rw [State.spiFetch, h, hruns, hsrc, if_neg (by decide)]
  dsimp only
  rw [hf, if_pos (by simp)]
  refine ⟨_, rfl, ?_⟩
  simp (disch := decide) only [State.setFlag, State.fget_fset_apart]
  exact hsrc

/-- The registers as validation finds its result. -/
def State.authJudged (s : State) : State := (s.bump F.GLB_BOOT_STATUS_ATTEMPTS).fset F.PAT_STATUS_LOADER 0

theorem State.authJudged_shows (s : State) : s.authJudged.fget F.PAT_STATUS_LOADER = 0 ∧
    s.authJudged.fget F.GLB_BOOT_STATUS_SOURCE = s.fget F.GLB_BOOT_STATUS_SOURCE := by
  refine ⟨State.fget_fset_same _ _ _ _ _ (by decide), ?_⟩
  refine (State.fget_fset_apart _ _ _ _ _ _ (by decide) (by decide)).trans ?_
  exact State.fget_fset_bits s _ _ _ _ _ (by decide) (by decide)

theorem State.bootAuth_good (h : s.bootIn 5 = true) (hruns : s.umevoRuns = true)
    (herr : baseErr s.boot.fuses s.lifecycle s.boot.bytes (wordBytes ((s.boot.bytes + 3) / 4) s.boot.image) = none) :
    ∃ (a : Accepted) (n : Nat), s.bootAuth = State.umvLog
      (((s.authJudged.modBoot (fun c => { c with accepted := some a })).setFlag F.SAF_FAULT_SPI_BAD false).bootStep 6) 0x07 0 0 n := by
  rw [State.bootAuth, h, hruns, if_neg (by decide)]
  dsimp only
  rw [herr]
  exact ⟨_, _, rfl⟩

theorem State.bootAuth_bad (h : s.bootIn 5 = true) (hruns : s.umevoRuns = true) {e : ImgErr}
    (herr : baseErr s.boot.fuses s.lifecycle s.boot.bytes (wordBytes ((s.boot.bytes + 3) / 4) s.boot.image) = some e) :
    ∃ n : Nat, s.bootAuth = State.umvLog (s.authJudged.patErr e false 0).nextSource 0x07 0 0 n := by
  rw [State.bootAuth, h, hruns, if_neg (by decide)]
  dsimp only
  rw [herr]
  exact ⟨_, rfl⟩

theorem State.patErr_shows (s : State) (e : ImgErr) : (s.patErr e false 0).fget F.PAT_ERR_VALID = 1 ∧
    (s.patErr e false 0).fget F.PAT_ERR_KIND = 0 ∧ (s.patErr e false 0).fget F.PAT_ERR_CODE = e.code % 256 ∧
    (s.patErr e false 0).fget F.PAT_STATUS_LOADER = s.fget F.PAT_STATUS_LOADER ∧
    (s.patErr e false 0).fget F.GLB_BOOT_STATUS_SOURCE = s.fget F.GLB_BOOT_STATUS_SOURCE := by
  refine ⟨?_, ?_, ?_, ?_, ?_⟩
  · simp (disch := decide) only [State.patErr, State.setFlag, State.fget_fset_apart, State.fget_fset_same]
    rfl
  · simp (disch := decide) only [State.patErr, State.setFlag, State.fget_fset_apart, State.fget_fset_same]
    rfl
  · simp (disch := decide) only [State.patErr, State.setFlag, State.fget_fset_apart, State.fget_fset_same]
    rfl
  · simp (disch := decide) only [State.patErr, State.setFlag, State.fget_fset_apart]
  · simp (disch := decide) only [State.patErr, State.setFlag, State.fget_fset_apart]

/-! ## Step 6 -/

theorem State.jigDisarmAll_fget (s : State) (code : Nat) {g : Fld} (hg : g.addr 0 0 < 0x7000) (hw : g.lsb + g.wid ≤ 32) :
    (s.jigDisarmAll code).fget g = s.fget g := by
  refine State.forUp_field (·.fget g) (fun c s => ?_) _ _ _
  have hjig {f : Fld} (hf : 0x7000 ≤ f.base) (u : State) (x m : Nat) : (u.fset f x 0 m).fget g = u.fget g :=
    (State.parks_fset u f hf x 0 m).fget g 0 0 hg hw
  unfold State.jigDisarm
  split
  · rfl
  · exact (hjig (f := F.JIG_CH_STATUS_CODE) (by decide) _ _ _).trans (hjig (f := F.JIG_CH_CTL_ARM) (by decide) _ _ _)

theorem State.portsInit_fget (s : State) (g : Fld) : s.portsInit.fget g = s.fget g :=
  State.forUp_field (·.fget g) (fun p u => (State.failover_fget _ g 0 0).trans (State.modPort_fget u p _ g 0 0)) _ _ _

theorem State.seal_shows (s : State) : s.seal.fget F.PAT_STATUS_SEALED = 1 ∧ s.seal.fget F.GLB_HOME_VALID = 1 := by
  have hset : ((s.setFlag F.PAT_STATUS_SEALED true).setFlag F.GLB_HOME_VALID true).fget F.PAT_STATUS_SEALED = 1 ∧
      ((s.setFlag F.PAT_STATUS_SEALED true).setFlag F.GLB_HOME_VALID true).fget F.GLB_HOME_VALID = 1 := by
    refine ⟨?_, State.fget_setFlag_same _ _ _ _ _ (by decide) (by decide)⟩
    exact (State.fget_fset_apart _ _ _ _ _ _ (by decide) (by decide)).trans (State.fget_setFlag_same _ _ _ _ _ (by decide) (by decide))
  unfold State.seal
  dsimp only
  split
  · rw [State.jigDisarmAll_fget _ _ (by decide) (by decide), State.jigDisarmAll_fget _ _ (by decide) (by decide),
      State.fget_fset_apart _ _ _ _ _ _ (by decide) (by decide), State.fget_fset_apart _ _ _ _ _ _ (by decide) (by decide)]
    exact hset
  · exact hset

theorem State.bootInit_eq (h : s.bootIn 6 = true) (hruns : s.umevoRuns = true) {a : Accepted} (ha : s.boot.accepted = some a) :
    ∃ (u : State) (t : Time), s.bootInit = ((u.seal.fset F.WDG_UMV_STATUS_ROLE 1).portsInit.modBoot (fun b => { b with trainBy := t })).bootStep 7 := by
  rw [State.bootInit, ha]
  dsimp only
  rw [h, hruns, if_neg (by decide)]
  exact ⟨_, _, rfl⟩

theorem State.bootInit_shows (h : s.bootIn 6 = true) (hruns : s.umevoRuns = true) {a : Accepted} (ha : s.boot.accepted = some a) :
    s.bootInit.fget F.GLB_BOOT_STATUS_STEP = 7 ∧ s.bootInit.fget F.PAT_STATUS_SEALED = 1 ∧ s.bootInit.fget F.GLB_HOME_VALID = 1 ∧
    s.bootInit.fget F.WDG_UMV_STATUS_ROLE = 1 := by
  obtain ⟨u, t, hu⟩ := State.bootInit_eq h hruns ha
  obtain ⟨hsealed, hvalid⟩ := u.seal_shows
  rw [hu]
  generalize u.seal = v at hsealed hvalid ⊢
  have hmod (w : State) (g : Fld) : (w.modBoot (fun b => { b with trainBy := t })).fget g = w.fget g := rfl
  refine ⟨State.bootStep_step _ (by decide), ?_, ?_, ?_⟩
  all_goals simp (disch := decide) only [State.bootStep, State.fget_fset_apart, hmod, State.portsInit_fget, State.fget_fset_same]
  · exact hsealed
  · exact hvalid
  · rfl

/-! ## Steps 7 and 8 -/

/-- READY, as step 8 reports it. -/
def State.readied (s : State) : State :=
  let s2 := (s.bootStep 8).setFlag F.GLB_BOOT_STATUS_READY true
  (s2.setFlag F.GLB_BOOT_TIME_VALID true).fset F.GLB_BOOT_TIME_US (min ((s2.now - s2.boot.since) / usec 1) 0xFFFFFF)

theorem State.readied_shows (s : State) : s.readied.fget F.GLB_BOOT_STATUS_READY = 1 ∧ s.readied.fget F.GLB_BOOT_STATUS_STEP = 8 ∧
    s.readied.fget F.GLB_BOOT_TIME_VALID = 1 ∧ s.readied.isSafe = s.isSafe := by
  have hstep := s.bootStep_step (n := 8) (by decide)
  unfold State.readied State.isSafe State.flag
  dsimp only
  generalize min _ 0xFFFFFF = us
  refine ⟨?_, ?_, ?_, ?_⟩
  · simp (disch := decide) only [State.setFlag, State.fget_fset_apart, State.fget_fset_same]
    rfl
  · simp (disch := decide) only [State.setFlag, State.fget_fset_apart]
    exact hstep
  · simp (disch := decide) only [State.setFlag, State.fget_fset_apart, State.fget_fset_same]
    rfl
  · simp (disch := decide) only [State.bootStep, State.setFlag, State.fget_fset_apart]

/-- What follows READY: SAFE_N, the watchdogs and the events that waited. -/
def State.serveReady (r : State) : State :=
  let s4 : State := { r with safePin := r.isSafe, latent := { r.latent with from_ := some r.now } }
  let s5 := s4.fset F.WDG_SWD_CTL_PERIOD s4.pat.swdPeriod
  let s6 := if s5.umv.armed && s5.umv.hardEnd.isNone then s5.swdStart else s5
  s6.healthyAgain.evgServe

theorem State.bootTrainEnd_eq (h : s.bootIn 7 = true) (hphy : s.boot.phyOut = false) :
    s.bootTrainEnd = (if s.trainDone then s else s.until s.boot.trainBy).readied.serveReady := by
  rw [State.bootTrainEnd, h, hphy, if_neg (by decide)]
  rfl

theorem State.serveReady_safePin (r : State) : r.serveReady.safePin = r.isSafe := by
  unfold State.serveReady State.healthyAgain State.swdStart
  dsimp only
  rw [State.evgServe_safePin, State.modUmv_safePin]
  split
  · rw [State.modUmv_safePin, State.fset_safePin]
  · rw [State.fset_safePin]

theorem State.serveReady_fget (r : State) {g : Fld} (hg : g.addr 0 0 < 0x1000) (hw : g.lsb + g.wid ≤ 32) : r.serveReady.fget g = r.fget g := by
  have hnoroute : Fld.allApart [F.PRT_RT_DROPCNT_NOROUTE] (g.addr 0 0) g.lsb g.wid = true := by
    have hbelow : g.addr 0 0 < F.PRT_RT_DROPCNT_NOROUTE.base + F.PRT_RT_DROPCNT_NOROUTE.off :=
      Nat.lt_of_lt_of_le hg (by decide)
    simp [Fld.allApart, Fld.apart, hbelow]
  have hperiod : F.WDG_SWD_CTL_PERIOD.apart (g.addr 0 0) g.lsb g.wid = true := by
    have hbelow : g.addr 0 0 < F.WDG_SWD_CTL_PERIOD.base + F.WDG_SWD_CTL_PERIOD.off := Nat.lt_of_lt_of_le hg (by decide)
    simp [Fld.apart, hbelow]
  unfold State.serveReady State.healthyAgain State.swdStart
  dsimp only
  rw [State.evgServe_fget _ _ _ _ hnoroute hw, State.modUmv_fget]
  split
  · rw [State.modUmv_fget, State.fget_fset_apart _ _ _ _ _ _ hperiod hw]
    rfl
  · rw [State.fget_fset_apart _ _ _ _ _ _ hperiod hw]
    rfl

end

/-- A validated image: the boot goes to step 6, or back to step 4 with the next source. -/
theorem State.bootAuth_shows {s : State} (h : s.bootIn 5 = true) (hruns : s.umevoRuns = true) : s.bootAuth.fget F.PAT_STATUS_LOADER = 0 ∧
    (baseErr s.boot.fuses s.lifecycle s.boot.bytes (wordBytes ((s.boot.bytes + 3) / 4) s.boot.image) = none →
      s.bootAuth.fget F.GLB_BOOT_STATUS_STEP = 6 ∧ s.bootAuth.boot.accepted.isSome = true ∧ s.bootAuth.fget F.SAF_FAULT_SPI_BAD = 0) ∧
    ∀ e, baseErr s.boot.fuses s.lifecycle s.boot.bytes (wordBytes ((s.boot.bytes + 3) / 4) s.boot.image) = some e →
      s.bootAuth.fget F.GLB_BOOT_STATUS_STEP = 4 ∧ s.bootAuth.fget F.PAT_ERR_VALID = 1 ∧ s.bootAuth.fget F.PAT_ERR_KIND = 0 ∧
      s.bootAuth.fget F.PAT_ERR_CODE = e.code % 256 ∧ s.bootAuth.boot.accepted = s.boot.accepted ∧
      (s.fget F.GLB_BOOT_STATUS_SOURCE = 1 → s.bootAuth.fget F.GLB_BOOT_STATUS_SOURCE = 2) ∧
      (s.fget F.GLB_BOOT_STATUS_SOURCE = 2 → s.bootAuth.fget F.GLB_BOOT_STATUS_SOURCE = 3 ∧ s.bootAuth.fget F.SAF_FAULT_SPI_BAD = 1) := by
  obtain ⟨hloader, hsource⟩ := s.authJudged_shows
  have hboot : s.authJudged.boot = s.boot := rfl
  have hlog (u : State) (n : Nat) {g : Fld} (ha : Fld.allApart [F.WDG_LOG_SEL_HEAD] (g.addr 0 0) g.lsb g.wid = true) (hg : g.lsb + g.wid ≤ 32) :
      (u.umvLog 0x07 0 0 n).fget g = u.fget g := State.umvLog_fget u _ _ _ _ g 0 0 ha hg
  have hlogBoot (u : State) (n : Nat) : (u.umvLog 0x07 0 0 n).boot = u.boot := State.umvLog_boot _ _ _ _ _
  have hgood := State.bootAuth_good h hruns
  have hbad (e : ImgErr) := State.bootAuth_bad (e := e) h hruns
  generalize baseErr s.boot.fuses s.lifecycle s.boot.bytes (wordBytes ((s.boot.bytes + 3) / 4) s.boot.image) = err at hgood hbad ⊢
  generalize s.authJudged = j at hgood hbad hloader hsource hboot
  cases err with
  | none =>
    obtain ⟨a, n, heq⟩ := hgood rfl
    rw [heq]
    refine ⟨?_, fun _ => ⟨?_, ?_, ?_⟩, fun e he => absurd he (by simp)⟩
    · rw [hlog _ _ (by decide) (by decide)]
      simp (disch := decide) only [State.bootStep, State.setFlag, State.fget_fset_apart]
      exact hloader
    · rw [hlog _ _ (by decide) (by decide)]
      exact State.bootStep_step _ (by decide)
    · rw [hlogBoot]
      rfl
    · rw [hlog _ _ (by decide) (by decide)]
      simp (disch := decide) only [State.bootStep, State.setFlag, State.fget_fset_apart, State.fget_fset_same]
      rfl
  | some e =>
    obtain ⟨n, heq⟩ := hbad e rfl
    obtain ⟨hvalid, hkind, hcode, hidle, hkept⟩ := j.patErr_shows e
    have hrecord : (j.patErr e false 0).boot = j.boot := rfl
    generalize j.patErr e false 0 = p at heq hvalid hkind hcode hidle hkept hrecord
    rw [heq]
    refine ⟨?_, fun he => absurd he (by simp), fun e' he => ?_⟩
    · rw [hlog _ _ (by decide) (by decide), State.nextSource_fget _ (.inl rfl)]
      exact hidle.trans hloader
    · obtain rfl : e = e' := Option.some.inj he
      refine ⟨?_, ?_, ?_, ?_, ?_, fun hsrc => ?_, fun hsrc => ⟨?_, ?_⟩⟩
      · rw [hlog _ _ (by decide) (by decide)]
        exact State.nextSource_step _
      · rw [hlog _ _ (by decide) (by decide), State.nextSource_fget _ (.inr (.inl rfl)), hvalid]
      · rw [hlog _ _ (by decide) (by decide), State.nextSource_fget _ (.inr (.inr (.inl rfl))), hkind]
      · rw [hlog _ _ (by decide) (by decide), State.nextSource_fget _ (.inr (.inr (.inr (.inl rfl)))), hcode]
      · rw [hlogBoot, State.nextSource_boot, hrecord, hboot]
      · rw [hlog _ _ (by decide) (by decide), State.nextSource_flash (hkept.trans (hsource.trans hsrc))]
        exact State.fget_fset_same _ _ _ _ _ (by decide)
      · rw [hlog _ _ (by decide) (by decide), State.nextSource_second (hkept.trans (hsource.trans hsrc))]
        simp (disch := decide) only [State.setFlag, State.fget_fset_apart, State.fget_fset_same]
        rfl
      · rw [hlog _ _ (by decide) (by decide), State.nextSource_second (hkept.trans (hsource.trans hsrc))]
        exact State.fget_setFlag_same _ _ _ _ _ (by decide) (by decide)

/-- Settles O6: each boot step, when it is the one under way, writes STEP and its own registers and leaves the rest of the boot's record. -/
theorem bootSteps : Obligations.BootSteps := by
  unfold Obligations.BootSteps
  refine ⟨fun s r h => ⟨next_run (State.up_of_bootIn h) _, State.bootFuse_shows h r⟩, fun s h hruns => ?_, fun s f h hruns hsrc hf => ?_,
    fun s h hruns => ?_, fun s a h hruns ha => ?_, fun s h hphy => ?_⟩
  · have hup := State.up_of_bootIn h
    have hstep := ((s.bootIn_iff 3).mp h).1
    refine ⟨next_run hup _, ?_, ?_, ?_, next_run hup _, ?_⟩
    · rw [State.bootRom_good h hruns]
      exact State.bootStep_step _ (by decide)
    · rw [State.bootRom_good h hruns]
      generalize s.flag F.GLB_BOOT_STATUS_BOOT_SEL = b
      simp (disch := decide) only [State.bootStep, State.fget_fset_apart, State.fget_fset_same]
      cases b <;> rfl
    · rw [State.bootRom_good h hruns]
      rfl
    · rw [State.bootRom_bad h hruns]
      refine ⟨?_, ?_, ?_, State.flag_setFlag_same _ _ _ _ _ (by decide) (by decide), rfl⟩
      · simp (disch := decide) only [State.flag, State.setFlag, State.fget_fset_apart, State.fget_fset_same]
        rfl
      · simp (disch := decide) only [State.setFlag, State.fget_fset_apart, State.fget_fset_same]
        rfl
      · simp (disch := decide) only [State.setFlag, State.fget_fset_apart]
        exact hstep
  · obtain ⟨u, hu, husrc⟩ := State.spiFetch_silent h hruns hsrc hf
    refine ⟨next_run (State.up_of_bootIn h) _, ?_⟩
    have hfail : (u.setFlag F.GLB_BOOT_SPI_FAIL true).fget F.GLB_BOOT_SPI_FAIL = 1 := State.fget_setFlag_same _ _ _ _ _ (by decide) (by decide)
    have hfirst : (u.setFlag F.GLB_BOOT_SPI_FAIL true).fget F.GLB_BOOT_STATUS_SOURCE = 1 :=
      (State.fget_fset_apart _ _ _ _ _ _ (by decide) (by decide)).trans husrc
    rw [hu]
    generalize u.setFlag F.GLB_BOOT_SPI_FAIL true = w at hfail hfirst ⊢
    refine ⟨?_, w.nextSource_step, ?_⟩
    · rw [State.flag, w.nextSource_fget (.inr (.inr (.inr (.inr rfl)))), hfail]
      rfl
    · rw [State.nextSource_flash hfirst]
      exact State.fget_fset_same _ _ _ _ _ (by decide)
  · obtain ⟨hloader, hgood, hbad⟩ := State.bootAuth_shows h hruns
    refine ⟨next_run (State.up_of_bootIn h) _, hloader, ?_⟩
    split
    · next herr =>
      obtain ⟨hstep, haccepted, hspi⟩ := hgood herr
      exact ⟨hstep, haccepted, by rw [State.flag, hspi]; rfl⟩
    · next e herr =>
      obtain ⟨hstep, hvalid, hkind, hcode, haccepted, hflash, hsecond⟩ := hbad e herr
      refine ⟨hstep, by rw [State.flag, hvalid]; rfl, by rw [State.flag, hkind]; rfl, hcode, haccepted, hflash, fun hsrc => ?_⟩
      obtain ⟨hnext, hspi⟩ := hsecond hsrc
      exact ⟨hnext, by rw [State.flag, hspi]; rfl⟩
  · obtain ⟨hstep, hsealed, hvalid, hrole⟩ := State.bootInit_shows h hruns ha
    exact ⟨next_run (State.up_of_bootIn h) _, hstep, by rw [State.flag, hsealed]; rfl, by rw [State.flag, hvalid]; rfl, hrole⟩
  · have hsame : (if s.trainDone then s else s.until s.boot.trainBy).isSafe = s.isSafe := by split <;> rfl
    obtain ⟨hready, hstep, htime, hsafe⟩ := (if s.trainDone then s else s.until s.boot.trainBy).readied_shows
    refine ⟨next_run (State.up_of_bootIn h) _, ?_⟩
    rw [State.bootTrainEnd_eq h hphy]
    generalize (if s.trainDone then s else s.until s.boot.trainBy).readied = r at hready hstep htime hsafe ⊢
    refine ⟨?_, ?_, ?_, ?_⟩
    · rw [State.ready, State.flag, State.serveReady_fget _ (by decide) (by decide), hready]
      rfl
    · rw [State.serveReady_fget _ (by decide) (by decide), hstep]
    · rw [State.serveReady_safePin, hsafe, hsame]
    · rw [State.flag, State.serveReady_fget _ (by decide) (by decide), htime]
      rfl

end Sys2Proof.Machine
end

section
/-! The statement about live migration (13 R508 to R514, R528). -/
namespace Sys2Proof.Machine

section
variable {s : State} {who : Party} {a b k : Nat} {g : Migration}

/-! ## Roles and what a migration is begun on -/

theorem State.srole_setRole (s : State) (k j : Nat) (r : SliceRole) : (s.setRole k r).srole j = if k = j then r else s.srole j :=
  spGet_spSet _ _ _ _ _

theorem firstFrom_holds {p : Nat → Bool} {n i r : Nat} (h : firstFrom p i n = some r) : p r = true := by
  induction n generalizing i with
  | zero => exact absurd h (by simp [firstFrom])
  | succ n ih =>
    rw [firstFrom] at h
    split at h
    · next hp => exact Option.some.inj h ▸ hp
    · exact ih h

/-- What a slice predicts does not depend on a register of the chip itself. -/
theorem State.predCause_fset (s : State) {f : Fld} (hf : f.below F.SLC_DMON_AGE_AGE = true) (v n m k : Nat) :
    (s.fset f v n m).predCause k = s.predCause k := by
  unfold State.predCause
  dsimp only
  rw [State.fget_fset_below s _ _ _ _ _ hf (by decide)]
  rfl

theorem State.logicalOn_congr {u : State} (hpat : u.pat = s.pat) (hlogic : u.logic = s.logic) (k : Nat) : u.logicalOn k = s.logicalOn k := by
  unfold State.logicalOn State.lsl
  rw [hpat, hlogic]

/-! ## The start -/

/-- A migration has begun from `a` to `b`. -/
def State.migrating (s : State) (a b : Nat) : State :=
  ((({ s with mig := some ⟨a, b, false, false⟩ } : State).setRole b .target).fset F.GLB_MIG_STATUS_STATE 1).fset F.GLB_MIG_STATUS_WATERMARK 0

theorem State.migBegin_starts (hnone : s.mig = none) (ha : s.srole a = .active) (hl : (s.logicalOn a).isSome = true) (hb : s.srole b = .spare)
    (hc : s.predCause b = 0) : s.migBegin a b = (s.migrating a b).wakeSlice a := by
  rw [State.migBegin, hnone, ha, hl, hb, hc, if_pos (by decide)]
  rfl

theorem State.migBegin_refused (h : s.mig ≠ none ∨ s.srole a ≠ .active ∨ s.srole b ≠ .spare ∨ s.predCause b ≠ 0) :
    s.migBegin a b = s.fset F.GLB_MIG_STATUS_STATE 6 := by
  rw [State.migBegin, if_neg]
  simp only [Bool.and_eq_true, Option.isNone_iff_eq_none, beq_iff_eq]
  rintro ⟨⟨⟨⟨hm, ha⟩, -⟩, hb⟩, hc⟩
  rcases h with h | h | h | h
  · exact h hm
  · exact h ha
  · exact h hb
  · exact h hc

theorem State.migrating_shows (s : State) (a b : Nat) : ((s.migrating a b).wakeSlice a).mig = some ⟨a, b, false, false⟩ ∧
    ((s.migrating a b).wakeSlice a).srole b = .target ∧ ((s.migrating a b).wakeSlice a).fget F.GLB_MIG_STATUS_STATE = 1 ∧
    ((s.migrating a b).wakeSlice a).fget F.GLB_MIG_STATUS_WATERMARK = 0 := by
  refine ⟨State.wakeSlice_field (·.mig) (fun _ _ => rfl) _ _, ?_, ?_, ?_⟩
  · refine (State.wakeSlice_field (·.srole b) (fun _ _ => rfl) _ _).trans ?_
    exact (State.srole_setRole { s with mig := some ⟨a, b, false, false⟩ } b b .target).trans (if_pos rfl)
  · refine (State.wakeSlice_field (·.fget F.GLB_MIG_STATUS_STATE) (fun _ _ => rfl) _ _).trans ?_
    simp (disch := decide) only [State.migrating, State.fget_fset_bits, State.fget_fset_same]
    rfl
  · refine (State.wakeSlice_field (·.fget F.GLB_MIG_STATUS_WATERMARK) (fun _ _ => rfl) _ _).trans ?_
    simp (disch := decide) only [State.migrating, State.fget_fset_same]
    rfl

/-- The registers beside GLB_MIG_STATUS read as before. -/
theorem State.migrating_fget (s : State) (a b : Nat) {f : Fld} (hf : F.GLB_MIG_STATUS_STATE.apart (f.addr 0 0) f.lsb f.wid = true)
    (hw : F.GLB_MIG_STATUS_WATERMARK.apart (f.addr 0 0) f.lsb f.wid = true) (h : f.lsb + f.wid ≤ 32) :
    ((s.migrating a b).wakeSlice a).fget f = s.fget f := by
  refine (State.wakeSlice_field (·.fget f) (fun _ _ => rfl) _ _).trans ?_
  rw [State.migrating, State.fget_fset_apart _ _ _ _ _ _ hw h, State.fget_fset_apart _ _ _ _ _ _ hf h]
  rfl

/-! ## GLB_MIG_CTL -/

/-- The fields of GLB_MIG_CTL after a write of `x`. -/
def State.migAsked (s : State) (x : Word) : State :=
  ((s.fset F.GLB_MIG_CTL_PACE (getBits x 16 2)).fset F.GLB_MIG_CTL_DST (getBits x 8 5)).fset F.GLB_MIG_CTL_SRC (getBits x 0 5)

theorem State.writeAt_migCtl (s : State) (who : Party) {x : Word} (hgo : x.getLsbD 31 = true) (habort : x.getLsbD 30 = false) :
    s.writeAt who 0x320 x = (s.migAsked x).migBegin (getBits x 0 5) (getBits x 8 5) := by
  have hfields : glbWritable.filter (fun w => (w.fld.member 0 0x320).isSome) =
      [⟨F.GLB_MIG_CTL_PACE, .rw, []⟩, ⟨F.GLB_MIG_CTL_DST, .rw, []⟩, ⟨F.GLB_MIG_CTL_SRC, .rw, []⟩] ∧
      F.GLB_MIG_CTL_PACE.member 0 0x320 = some 0 ∧ F.GLB_MIG_CTL_DST.member 0 0x320 = some 0 ∧
      F.GLB_MIG_CTL_SRC.member 0 0x320 = some 0 := by decide +kernel
  obtain ⟨hthree, hpace, hdst, hsrc⟩ := hfields
  have hwritten : s.writeFields who 0 0x320 x glbWritable = s.migAsked x := by
    rw [State.writeFields_filter, hthree]
    simp only [State.writeFields, List.foldl_cons, List.foldl_nil, State.writeField, hpace, hdst, hsrc, List.isEmpty_nil, Bool.true_or, if_true]
    rfl
  have hread : (s.migAsked x).fget F.GLB_MIG_CTL_SRC = getBits x 0 5 ∧ (s.migAsked x).fget F.GLB_MIG_CTL_DST = getBits x 8 5 := by
    refine ⟨?_, ?_⟩ <;>
    simp (disch := decide) only [State.migAsked, State.fget_fset_bits, State.fget_fset_same] <;>
    exact Nat.mod_eq_of_lt (getBits_lt x _ _)
  rw [State.writeAt_glb (by decide)]
  show s.writeMig who x = _
  rw [State.writeMig, hwritten, onBit, habort, if_neg Bool.false_ne_true, onBit, if_pos hgo, hread.1, hread.2]

/-- The fields of GLB_MIG_CTL keep their values when ABORT is set beside them. -/
theorem migCtl_untouched : ∀ w ∈ glbWritable, (w.fld.member 0 0x320).isSome = true → w.untouched 0x00031F1F 30 = true := by decide +kernel

theorem State.writeAt_migAbort (who : Party) (hwf : s.ArraysWf) :
    s.writeAt who 0x320 ((s.word 0x320 &&& 0x00031F1F) ||| bitWord 30) = s.migAbort := by
  rw [State.writeAt_glb (by decide)]
  show s.writeMig who _ = _
  rw [State.writeMig, State.writeFields_commandBit hwf.regs migCtl_untouched, onBit, if_pos (bit_commandBit (by decide)), onBit,
    bit_commandBit_other (by decide) (by decide), if_neg Bool.false_ne_true]

theorem State.writeAt_migLimit (s : State) (who : Party) {v : Word} (h : getBits v 0 17 ≤ 66560) :
    s.writeAt who 0x324 v = s.fset F.GLB_MIG_LIMIT_LIMIT (getBits v 0 17) := by
  have hone : glbWritable.filter (fun w => (w.fld.member 0 0x324).isSome) = [⟨F.GLB_MIG_LIMIT_LIMIT, .rw, [(0, 66560)]⟩] ∧
      F.GLB_MIG_LIMIT_LIMIT.member 0 0x324 = some 0 := by decide +kernel
  obtain ⟨hone, hmem⟩ := hone
  have hlegal : getBits v F.GLB_MIG_LIMIT_LIMIT.lsb F.GLB_MIG_LIMIT_LIMIT.wid ≤ 66560 := h
  rw [State.writeAt_glb (by decide)]
  show s.writeFields who 0 0x324 v glbWritable = _
  rw [State.writeFields_one hone]
  simp only [State.writeField, hmem, List.isEmpty_cons, List.any_cons, List.any_nil, Bool.false_or, Bool.or_false, Nat.zero_le, decide_true,
    Bool.true_and, decide_eq_true hlegal, if_true]
  rfl

/-! ## Abort -/

theorem State.tryFree_ingress (s : State) (k t j : Nat) : ((s.tryFree k t).slice j).ingress = (s.slice j).ingress := by
  unfold State.tryFree
  split
  · rfl
  · split
    · rw [State.react_slice, State.react_slice, State.setTxn, State.slice_modSlice]
      split
      · next h => rw [h]
      · rfl
    · rfl

theorem State.closeTxn_ingress (s : State) (k t j : Nat) : ((s.closeTxn k t).slice j).ingress = (s.slice j).ingress := by
  unfold State.closeTxn
  split
  · rfl
  · rw [State.react_slice, State.react_slice, State.tryFree_ingress, State.setTxn, State.slice_modSlice]
    split
    · next h => rw [h]
    · rfl

theorem State.ingressAll_empty (h : (s.slice k).ingress = []) : s.ingressAll k = s := by rw [State.ingressAll, h]; rfl

/-- The entries that the migration held in the source close. -/
theorem State.migEnd_eq (hm : s.mig = some g) (st : Nat) : ∃ (u : State) (ts : List Nat),
    s.migEnd st = ts.foldl (fun (s : State) t => s.closeTxn g.src t)
      (u.modSlice g.src (fun c => { c with chain := c.chain.filter (fun x => x.kind != .migrate),
                                           ingress := c.ingress.filter (fun x => x.kind != .migrate) })) ∧
    u.mig = none ∧ u.fget F.GLB_MIG_STATUS_STATE = st % 8 ∧ (s.srole g.dst = .target → u.srole g.dst = .spare) ∧
    (g.src ≠ g.dst → u.slice g.src = s.slice g.src) := by
  rw [State.migEnd, hm]
  dsimp -zeta only
  extract_lets s1 s2 s3 ts
  have h1 : s1.mig = none ∧ s1.fget F.GLB_MIG_STATUS_STATE = st % 8 ∧ s1.srole g.dst = s.srole g.dst ∧ s1.slice g.src = s.slice g.src :=
    ⟨rfl, State.fget_fset_same _ _ _ _ _ (by decide), rfl, rfl⟩
  obtain ⟨hmig, hstate, hrole, hslice⟩ := h1
  have h2 : s2.mig = none ∧ s2.fget F.GLB_MIG_STATUS_STATE = st % 8 ∧ (s.srole g.dst = .target → s2.srole g.dst = .spare) ∧
      (g.src ≠ g.dst → s2.slice g.src = s.slice g.src) := by
    by_cases ht : s1.srole g.dst = .target
    · rw [show s2 = (s1.modSlice g.dst Slice.reset).setRole g.dst .spare from if_pos ht]
      exact ⟨hmig, hstate, fun _ => (State.srole_setRole _ _ _ _).trans (if_pos rfl),
        fun hne => (State.slice_modSlice_other s1 _ hne).trans hslice⟩
    · rw [show s2 = s1 from if_neg ht]
      exact ⟨hmig, hstate, fun h => absurd (hrole.trans h) ht, fun _ => hslice⟩
  obtain ⟨hmig, hstate, hrole, hslice⟩ := h2
  have h3 : s3.mig = s2.mig ∧ s3.fget F.GLB_MIG_STATUS_STATE = s2.fget F.GLB_MIG_STATUS_STATE ∧ s3.srole g.dst = s2.srole g.dst ∧
      s3.slice g.src = s2.slice g.src := by
    rcases hl : s2.logicalOn g.src with _ | l
    · have : s3 = s2 := by simp only [s3, hl]
      rw [this]
      exact ⟨rfl, rfl, rfl, rfl⟩
    · have : s3 = s2.modLsl l (fun x => { x with handover := false }) := by simp only [s3, hl]
      rw [this]
      exact ⟨rfl, rfl, rfl, rfl⟩
  obtain ⟨hmig3, hstate3, hrole3, hslice3⟩ := h3
  exact ⟨s3, ts, rfl, hmig3.trans hmig, hstate3.trans hstate, fun h => hrole3.trans (hrole h), fun h => hslice3.trans (hslice h)⟩

theorem State.migEnd_shows (hm : s.mig = some g) (st : Nat) : (s.migEnd st).mig = none ∧ (s.migEnd st).fget F.GLB_MIG_STATUS_STATE = st % 8 ∧
    (s.srole g.dst = .target → (s.migEnd st).srole g.dst = .spare) ∧
    (g.src ≠ g.dst → (s.slice g.src).ingress = [] → ((s.migEnd st).slice g.src).ingress = []) := by
  obtain ⟨u, ts, hu, hmig, hstate, hrole, hslice⟩ := State.migEnd_eq hm st
  have hfield {α : Type} (get : State → α) (hslices : ∀ (s : State) x, get { s with slices := x } = get s)
      (hdue : ∀ (s : State) x, get { s with due := x } = get s) : get (s.migEnd st) = get u := by
    rw [hu]
    exact (State.foldl_field get (fun v t => State.closeTxn_field get hslices hdue v g.src t) _ _).trans (hslices _ _)
  refine ⟨(hfield (·.mig) (fun _ _ => rfl) (fun _ _ => rfl)).trans hmig,
    (hfield (·.fget F.GLB_MIG_STATUS_STATE) (fun _ _ => rfl) (fun _ _ => rfl)).trans hstate,
    fun h => (hfield (·.srole g.dst) (fun _ _ => rfl) (fun _ _ => rfl)).trans (hrole h), fun hne hempty => ?_⟩
  rw [hu, State.foldl_field (fun s : State => (s.slice g.src).ingress) (fun v t => v.closeTxn_ingress g.src t g.src),
    State.slice_modSlice_same, hslice hne, hempty]
  rfl

/-! ## Copy, handover and reports -/

theorem State.migCopy_waits (hm : s.mig = some g) (h : g.busy = true ∨ g.handover = true ∨ s.fget F.GLB_MIG_LIMIT_LIMIT ≤ s.watermark) :
    s.migCopy = s := by
  rw [State.migCopy, hm]
  refine if_pos ?_
  rcases h with h | h | h
  · simp [h]
  · simp [h]
  · simp [h]

theorem State.migCopy_asks (hm : s.mig = some g) (hbusy : g.busy = false) (hover : g.handover = false) (hsafe : s.isSafe = false)
    (hlimit : s.watermark < s.fget F.GLB_MIG_LIMIT_LIMIT) (hend : s.watermark < 66560) :
    s.migCopy.mig = some { g with busy := true } ∧ s.migCopy.watermark = s.watermark := by
  have hgo : (g.busy || g.handover || s.isSafe || decide (s.fget F.GLB_MIG_LIMIT_LIMIT ≤ s.watermark) || decide (66560 ≤ s.watermark)) = false := by
    rw [hbusy, hover, hsafe, decide_eq_false (by omega), decide_eq_false (by omega)]
    rfl
  rw [State.migCopy, hm]
  dsimp only
  rw [hgo, if_neg Bool.false_ne_true]
  refine ⟨?_, ?_⟩
  · exact State.shedOrWait_field (·.mig) (fun _ _ => rfl) (fun _ _ => rfl) (fun _ _ => rfl) (fun _ _ => rfl) (fun _ _ => rfl) _ _ _
  · exact (State.shedOrWait_parks _ _ _).fget F.GLB_MIG_STATUS_WATERMARK 0 0 (by decide) (by decide)

theorem State.migHandover_waits (hm : s.mig = some g) (h : g.handover = false) : s.migHandover = s := by
  rw [State.migHandover, hm]
  exact if_pos (by simp [h])

theorem State.unpredict_field {α : Type} (get : State → α) (hregs : ∀ (s : State) x, get { s with regs := x } = get s)
    (hpred : ∀ (s : State) x, get { s with predQ := x } = get s) (s : State) (k : Nat) : get (s.unpredict k) = get s :=
  (hpred _ _).trans (hregs _ _)

theorem State.jigSliceGone_field {α : Type} (get : State → α) (hregs : ∀ (s : State) x, get { s with regs := x } = get s)
    (hjig : ∀ (s : State) x, get { s with jig := x } = get s) (s : State) (k : Nat) : get (s.jigSliceGone k) = get s := by
  refine State.forUp_field get ?_ 8 0 s
  intro c u
  dsimp only
  split
  · unfold State.jigDisarm
    split
    · rfl
    · exact (hregs _ _).trans ((hregs _ _).trans (hjig _ _))
  · rfl

theorem State.moveCounters_field {α : Type} (get : State → α) (hregs : ∀ (s : State) x, get { s with regs := x } = get s) (s : State)
    (a b : Nat) : get (s.moveCounters a b) = get s :=
  State.foldl_field get (fun _ _ => (hregs _ _).trans (hregs _ _)) _ s

theorem State.lsl_modLsl (s : State) (l j : Nat) (f : LogSlice → LogSlice) : (s.modLsl l f).lsl j = if l = j then f (s.lsl l) else s.lsl j :=
  spGet_spSet _ _ _ _ _

/-- A logical slice that slice `b` serves is still served by it. -/
theorem State.repointHosted_phys {l : Nat} (h : (s.lsl l).phys = b) : ((s.repointHosted a b).lsl l).phys = b := by
  have hstep (n i : Nat) (u : State) (hu : (u.lsl l).phys = b) : ((forUp (fun l (s : State) => if (s.lsl l).hosted && (s.lsl l).phys == a then
      s.modLsl l (fun x => { x with phys := b }) else s) i n u).lsl l).phys = b := by
    induction n generalizing i u with
    | zero => exact hu
    | succ n ih =>
      refine ih _ _ ?_
      dsimp only
      split
      · rw [State.lsl_modLsl]
        split
        · rfl
        · exact hu
      · exact hu
  exact hstep 16 0 s h

/-- The state in which the target has taken the source's place. -/
def State.handedOver (s : State) (l a b : Nat) : State :=
  ((((((s.mirror.modLsl l (fun x => { x with phys := b, handover := false })).repointHosted a b).setRole b .active).setRole a .fenced).unpredict
    a).jigSliceGone a).moveCounters a b

theorem State.handedOver_shows (s : State) (l : Nat) (hne : a ≠ b) : (s.handedOver l a b).physOf l = b ∧ (s.handedOver l a b).srole b = .active ∧
    (s.handedOver l a b).srole a = .fenced := by
  unfold State.handedOver
  have hphys : ((((s.mirror.modLsl l (fun x => { x with phys := b, handover := false })).repointHosted a b)).lsl l).phys = b := by
    refine State.repointHosted_phys ?_
    rw [State.lsl_modLsl, if_pos rfl]
  generalize (s.mirror.modLsl l (fun x => { x with phys := b, handover := false })).repointHosted a b = v at hphys ⊢
  have hlast {α : Type} (get : State → α) (hregs : ∀ (s : State) x, get { s with regs := x } = get s)
      (hpred : ∀ (s : State) x, get { s with predQ := x } = get s) (hjig : ∀ (s : State) x, get { s with jig := x } = get s) (u : State) :
      get (((u.unpredict a).jigSliceGone a).moveCounters a b) = get u :=
    (State.moveCounters_field get hregs _ a b).trans ((State.jigSliceGone_field get hregs hjig _ a).trans
      (State.unpredict_field get hregs hpred u a))
  refine ⟨(hlast (·.physOf l) (fun _ _ => rfl) (fun _ _ => rfl) (fun _ _ => rfl) _).trans hphys,
    (hlast (·.srole b) (fun _ _ => rfl) (fun _ _ => rfl) (fun _ _ => rfl) _).trans ?_,
    (hlast (·.srole a) (fun _ _ => rfl) (fun _ _ => rfl) (fun _ _ => rfl) _).trans ?_⟩
  · rw [State.srole_setRole, if_neg hne, State.srole_setRole, if_pos rfl]
  · rw [State.srole_setRole, if_pos rfl]

/-- The source is reset, and what `c` keeps goes to the target: the migration has ended. -/
def State.handoverEnd (s : State) (a b : Nat) (c : Slice → Slice) : State :=
  ({ (s.modSlice a Slice.reset).modSlice b c with mig := none } : State).fset F.GLB_MIG_STATUS_STATE 3

theorem State.handoverEnd_shows (s : State) (a b : Nat) (c : Slice → Slice) : (s.handoverEnd a b c).mig = none ∧
    (∀ l, (s.handoverEnd a b c).physOf l = s.physOf l) ∧ (∀ k, (s.handoverEnd a b c).srole k = s.srole k) ∧
    (s.handoverEnd a b c).fget F.GLB_MIG_STATUS_STATE = 3 ∧ ((s.handoverEnd a b c).slice b).ingress = (c ((s.modSlice a Slice.reset).slice b)).ingress :=
  ⟨rfl, fun _ => rfl, fun _ => rfl, State.fget_fset_same _ _ _ _ _ (by decide), congrArg Slice.ingress (State.slice_modSlice_same _ b c)⟩

/-- What the target takes over of the source `old`: its walks and the requests that wait. -/
def Slice.takeOver (old c : Slice) : Slice := { c with walk0 := old.walk0, walk1 := old.walk1, ingress := old.ingress }

theorem State.migHandover_eq {l : Nat} (hm : s.mig = some g) (hover : g.handover = true) (hdrained : s.migDrained g.src = true)
    (hl : s.logicalOn g.src = some l) : s.migHandover =
      ((s.handedOver l g.src g.dst).handoverEnd g.src g.dst (s.slice g.src).takeOver).ingressAll g.dst := by
  have hgo : (!g.handover || !s.migDrained g.src) = false := by rw [hover, hdrained]; rfl
  rw [State.migHandover, hm]
  dsimp -zeta only
  rw [hgo, if_neg Bool.false_ne_true, hl]
  rfl

theorem State.migHandover_shows {l : Nat} (hm : s.mig = some g) (hover : g.handover = true) (hdrained : s.migDrained g.src = true)
    (hl : s.logicalOn g.src = some l) (hempty : (s.slice g.src).ingress = []) (hne : g.src ≠ g.dst) : s.migHandover.mig = none ∧
    s.migHandover.physOf l = g.dst ∧ s.migHandover.srole g.dst = .active ∧ s.migHandover.srole g.src = .fenced ∧
    s.migHandover.fget F.GLB_MIG_STATUS_STATE = 3 := by
  obtain ⟨hphys, hactive, hfenced⟩ := s.handedOver_shows l hne
  have heq := State.migHandover_eq hm hover hdrained hl
  generalize s.handedOver l g.src g.dst = u at hphys hactive hfenced heq
  obtain ⟨hend, hphysOf, hrole, hstate, hwaits⟩ := u.handoverEnd_shows g.src g.dst (s.slice g.src).takeOver
  have hidle := hwaits.trans hempty
  rw [State.ingressAll_empty hidle] at heq
  rw [heq]
  exact ⟨hend, (hphysOf l).trans hphys, (hrole _).trans hactive, (hrole _).trans hfenced, hstate⟩

/-- The count and the time of the last ReplaceRequest. -/
def State.requested (s : State) : State := { s with replaceNo := s.replaceNo + 1, replaceAt := s.now }

/-- The ReplaceRequest that node `d` is sent. -/
def State.replaceMsg (s : State) (d : Node) : Msg := mkMsg Op.replaceRequest 0 s.home d 0 0 0 false 0 [s.requested.replaceSlot s.requested.replaceNo]

theorem State.replaceRequest_eq {d : Node} (hpm : s.pat.pm = some d) : s.replaceRequest = s.requested.send (s.replaceMsg d) := by
  rw [State.replaceRequest, hpm]
  rfl

theorem State.replaceRequest_shows {d : Node} (hpm : s.pat.pm = some d) : s.replaceRequest.replaceNo = s.replaceNo + 1 ∧
    s.replaceRequest.now = s.now ∧ s.replaceRequest.replaceAt = s.now ∧ s.sends s.replaceRequest (s.replaceMsg d) := by
  rw [State.replaceRequest_eq hpm]
  refine ⟨State.send_field (·.replaceNo) (fun _ _ => rfl) (fun _ _ => rfl) (fun _ _ _ _ => rfl) _ _,
    State.send_field (·.now) (fun _ _ => rfl) (fun _ _ => rfl) (fun _ _ _ _ => rfl) _ _,
    State.send_field (·.replaceAt) (fun _ _ => rfl) (fun _ _ => rfl) (fun _ _ _ _ => rfl) _ _, ?_⟩
  refine State.Relays.sends ?_ (State.sends_send _ _)
  exact .of_same rfl rfl rfl

end

/-- Settles O40: a migration starts, is refused, copies below its limit, hands over or ends, each by the equation of its step. -/
theorem migrationControl : Obligations.MigrationControl := by
  unfold Obligations.MigrationControl
  refine ⟨fun s who v a b ht ha hb => ?_, fun s k d hup hk hnone hfirst hl hspare => ?_, fun s k hup hm => ?_, fun s who ht hwf => ⟨fun hm => ?_,
    fun g hm hempty hne htarget => ?_⟩, fun s who v ht hv => ?_, fun s hup => ⟨fun g hm hbusy hover hsafe hlimit hend => ?_, fun g hm h => ?_,
    fun g l hm hover hdrained hl hl16 hne hempty => ?_, fun g hm hover => ?_, fun d hdeg hpm => ?_, fun hdeg => ?_⟩, fun s who ht => ?_⟩
  · have hgo : (setBits (v ||| bitWord 31) 30 1 0).getLsbD 31 = true := by
      rw [getLsbD_setBits _ _ _ _ _ (by decide), if_neg (by decide)]
      exact bit_or_bitWord v (by decide)
    have habort : (setBits (v ||| bitWord 31) 30 1 0).getLsbD 30 = false := by
      rw [getLsbD_setBits _ _ _ _ _ (by decide), if_pos (by decide)]
      rfl
    have hbits {lsb wid : Nat} (h : lsb + wid ≤ 30) : getBits (setBits (v ||| bitWord 31) 30 1 0) lsb wid = getBits v lsb wid :=
      (getBits_setBits_other _ _ _ _ _ _ (.inl h) (by omega)).trans (getBits_or_bitWord v (by omega))
    have hwrite := State.writeAt_migCtl s who hgo habort
    have hasked : (s.migAsked (setBits (v ||| bitWord 31) 30 1 0)).fget F.GLB_MIG_CTL_SRC = a ∧
        (s.migAsked (setBits (v ||| bitWord 31) 30 1 0)).fget F.GLB_MIG_CTL_DST = b ∧
        (s.migAsked (setBits (v ||| bitWord 31) 30 1 0)).predCause b = s.predCause b := by
      subst ha hb
      unfold State.migAsked
      rw [hbits (by decide), hbits (by decide), hbits (by decide)]
      have hmod (lsb wid : Nat) : getBits v lsb wid % 2 ^ wid = getBits v lsb wid := Nat.mod_eq_of_lt (getBits_lt v lsb wid)
      refine ⟨?_, ?_, ?_⟩
      · simp (disch := decide) only [State.fget_fset_same]
        exact hmod 0 5
      · simp (disch := decide) only [State.fget_fset_bits, State.fget_fset_same]
        exact hmod 8 5
      · rw [State.predCause_fset _ (by decide), State.predCause_fset _ (by decide), State.predCause_fset _ (by decide)]
    have hsame : (s.migAsked (setBits (v ||| bitWord 31) 30 1 0)).mig = s.mig ∧
        (∀ k, (s.migAsked (setBits (v ||| bitWord 31) 30 1 0)).srole k = s.srole k) ∧
        (s.migAsked (setBits (v ||| bitWord 31) 30 1 0)).logicalOn a = s.logicalOn a := ⟨rfl, fun _ => rfl, State.logicalOn_congr rfl rfl a⟩
    rw [hbits (by decide), hbits (by decide), ← ha, ← hb] at hwrite
    have hexec : exec (.migStart who v) s = .next (s.after (s.writeAt who 0x320 (setBits (v ||| bitWord 31) 30 1 0))) := next_command _ ht
    rw [hwrite] at hexec
    generalize s.migAsked (setBits (v ||| bitWord 31) 30 1 0) = u at hexec hasked hsame
    obtain ⟨hsrc, hdst, hpred⟩ := hasked
    obtain ⟨hmig, hrole, hlog⟩ := hsame
    refine ⟨fun hnone hact hl hspare hcause => ?_, fun h => ?_⟩
    · rw [State.migBegin_starts (hmig.trans hnone) ((hrole a).trans hact) (hlog ▸ hl) ((hrole b).trans hspare) (hpred.trans hcause)] at hexec
      obtain ⟨hrun, htarget, hstate, hmark⟩ := u.migrating_shows a b
      exact ⟨_, hexec, hrun, htarget, hstate, hmark, (u.migrating_fget a b (by decide) (by decide) (by decide)).trans hsrc,
        (u.migrating_fget a b (by decide) (by decide) (by decide)).trans hdst⟩
    · rw [State.migBegin_refused (by rw [hmig, hrole, hrole, hpred]; exact h)] at hexec
      exact ⟨_, hexec, hmig, State.fget_fset_same _ _ _ _ _ (by decide), hrole⟩
  · have hact : s.srole k = .active := by simpa using List.find?_some hfirst
    have hfree := firstFrom_holds hspare
    simp only [Bool.and_eq_true, beq_iff_eq] at hfree
    have hpred : ((s.fset F.GLB_MIG_CTL_SRC k).fset F.GLB_MIG_CTL_DST d).predCause d = 0 := by
      rw [State.predCause_fset _ (by decide), State.predCause_fset _ (by decide)]
      exact hfree.2
    have hauto : s.migAuto k = ((s.fset F.GLB_MIG_CTL_SRC k).fset F.GLB_MIG_CTL_DST d).migBegin k d := by
      rw [State.migAuto, hnone, hfirst, if_pos (by simp), hspare]
    have hsame : ((s.fset F.GLB_MIG_CTL_SRC k).fset F.GLB_MIG_CTL_DST d).logicalOn k = s.logicalOn k ∧
        ((s.fset F.GLB_MIG_CTL_SRC k).fset F.GLB_MIG_CTL_DST d).mig = s.mig ∧
        ∀ j, ((s.fset F.GLB_MIG_CTL_SRC k).fset F.GLB_MIG_CTL_DST d).srole j = s.srole j := ⟨State.logicalOn_congr rfl rfl k, rfl, fun _ => rfl⟩
    have hexec : exec (.migAutoStart k) s = .next (s.after (s.migAuto k)) := next_atSlice hup hk _
    rw [hauto] at hexec
    generalize (s.fset F.GLB_MIG_CTL_SRC k).fset F.GLB_MIG_CTL_DST d = w at hexec hpred hsame
    obtain ⟨hlog, hmig, hrole⟩ := hsame
    rw [State.migBegin_starts (hmig.trans hnone) ((hrole k).trans hact) (hlog ▸ hl) ((hrole d).trans hfree.1) hpred] at hexec
    obtain ⟨hrun, htarget, hstate, -⟩ := w.migrating_shows k d
    exact ⟨_, hexec, hrun, htarget, hstate⟩
  · refine (next_run hup _).trans ?_
    have hauto : s.migAuto k = s := by
      rw [State.migAuto, if_neg (by simp [Option.isNone_iff_eq_none, hm])]
    rw [State.atSlice, hauto, ite_self]
  · refine (next_command _ ht).trans ?_
    rw [State.writeAt_migAbort who hwf, State.migAbort, hm]
  · obtain ⟨hended, hstate, hrole, hwaits⟩ := State.migEnd_shows hm 4
    refine ⟨s.migEnd 4, (next_command _ ht).trans ?_, hended, hrole htarget, hstate⟩
    rw [State.writeAt_migAbort who hwf, State.migAbort, hm]
    dsimp only
    rw [State.ingressAll_empty (hwaits hne hempty)]
  · refine (next_command _ ht).trans ?_
    rw [State.writeAt_migLimit s who hv]
  · exact ⟨s.migCopy, next_run hup _, State.migCopy_asks hm hbusy hover hsafe hlimit hend⟩
  · refine (next_run hup _).trans ?_
    rw [State.migCopy_waits hm h]
  · exact ⟨s.migHandover, next_run hup _, State.migHandover_shows hm hover hdrained hl hempty hne⟩
  · refine (next_run hup _).trans ?_
    rw [State.migHandover_waits hm hover]
  · obtain ⟨hno, hnow, hat, hsent⟩ := State.replaceRequest_shows (s := s.until (s.replaceAt + msec 1024)) hpm
    refine ⟨_, next_run hup _, ?_⟩
    rw [State.replacePeriodic, if_pos hdeg, if_pos (by simp [hpm])]
    exact ⟨hno, hnow, hat.trans hnow.symm, _, hsent, rfl, rfl⟩
  · refine (next_run hup _).trans ?_
    rw [State.replacePeriodic, if_neg (by simp [hdeg])]
  · refine (next_command _ ht).trans (congrArg (fun u => Host.Outcome.next (s.after u)) ?_)
    rw [State.writeAt_glb (by decide)]
    show onBit (bitWord 30) 30 State.lossNext s = _
    rw [onBit, if_pos (by decide), State.lossNext]

end Sys2Proof.Machine
end

section
/-! The statement about the validation of an overlay (14 R558 to R574). -/
namespace Sys2Proof.Machine

section
variable {s : State} {t : Tenant}

/-! ## What takes effect -/

section
variable {α : Type} (get : State → α) (hregs : ∀ (s : State) x, get { s with regs := x } = get s)
  (hslices : ∀ (s : State) x, get { s with slices := x } = get s) (hvectors : ∀ (s : State) x, get { s with vectors := x } = get s)
include hregs

include hslices in
theorem State.v48ToAll_field (s : State) (t : Tenant) : get (s.v48ToAll t) = get s := by
  unfold State.v48ToAll
  refine State.forUp_field get ?_ 18 0 s
  intro k u
  dsimp only
  rw [State.bumpBy, State.fset, State.setWord, hregs, State.modSlice, State.setSlice, hslices]

theorem State.tenRegs_field (s : State) (t : Tenant) : get (s.tenRegs t) = get s := by
  simp only [State.tenRegs, State.setFlag, State.fset, State.setWord, hregs]

include hvectors in
theorem State.evgDiscard_field (s : State) (n : Nat) : get (s.evgDiscard n) = get s := by
  unfold State.evgDiscard
  split
  · exact (hregs _ _).trans (hvectors _ _)
  · rfl

end

theorem State.vectorsOverlay_same (s : State) (t : Tenant) : (s.vectorsOverlay t).pat = s.pat ∧ (s.vectorsOverlay t).tns = s.tns := by
  unfold State.vectorsOverlay
  rw [State.evgServe_pat, State.evgServe_tns]
  refine ⟨State.forUp_field (·.pat) ?_ 8 0 s, State.forUp_field (·.tns) ?_ 8 0 s⟩
  · intro v u
    dsimp only
    split
    · exact State.modVec_pat _ _ _
    · exact (State.evgDiscard_field (·.pat) (fun _ _ => rfl) (fun _ _ => rfl) _ _).trans (State.modVec_pat _ _ _)
  · intro v u
    dsimp only
    split
    · exact State.modVec_tns _ _ _
    · exact (State.evgDiscard_field (·.tns) (fun _ _ => rfl) (fun _ _ => rfl) _ _).trans (State.modVec_tns _ _ _)

/-- An overlay that takes effect changes the sharers' format where it must, then the Pattern and the registers, and last the vectors. -/
theorem State.applyOverlay_eq (s : State) (o : Overlay) : ∃ s0 s1 s2 : State, (s0 = s ∨ s0 = s.v48ToAll o.ten) ∧
    s1 = ({ s0 with pat := s0.pat.withTen o.ten o.cfg } : State).tenRegs o.ten ∧ (s2 = s1 ∨ ∃ x, s2 = s1.fset F.TNT_STATUS_STATE x o.ten.toNat) ∧
    s.applyOverlay o = s2.vectorsOverlay o.ten := by
  unfold State.applyOverlay
  extract_lets t old regions s0 s1 s2
  refine ⟨s0, s1, s2, ?_, rfl, ?_, rfl⟩
  · simp only [s0]
    split
    · split
      · exact .inl rfl
      · exact .inr rfl
    · exact .inl rfl
  · simp only [s2]
    split
    · exact .inl rfl
    · exact .inr ⟨_, rfl⟩

/-- An overlay that takes effect is in the Pattern, and the record of the tenants' overlays stays. -/
theorem State.applyOverlay_shows (s : State) (o : Overlay) : (s.applyOverlay o).pat = s.pat.withTen o.ten o.cfg ∧ (s.applyOverlay o).tns = s.tns := by
  obtain ⟨s0, s1, s2, h0, h1, h2, heq⟩ := s.applyOverlay_eq o
  have hv48 : s0.pat = s.pat ∧ s0.tns = s.tns := by
    rcases h0 with rfl | rfl
    · exact ⟨rfl, rfl⟩
    · exact ⟨State.v48ToAll_field (·.pat) (fun _ _ => rfl) (fun _ _ => rfl) s o.ten,
        State.v48ToAll_field (·.tns) (fun _ _ => rfl) (fun _ _ => rfl) s o.ten⟩
  have hput : s1.pat = s0.pat.withTen o.ten o.cfg ∧ s1.tns = s0.tns := by
    rw [h1]
    exact ⟨State.tenRegs_field (·.pat) (fun _ _ => rfl) _ _, State.tenRegs_field (·.tns) (fun _ _ => rfl) _ _⟩
  have hstate : s2.pat = s1.pat ∧ s2.tns = s1.tns := by
    rcases h2 with rfl | ⟨x, rfl⟩
    · exact ⟨rfl, rfl⟩
    · exact ⟨State.fset_pat _ _ _ _ _, State.fset_tns _ _ _ _ _⟩
  obtain ⟨hpat, htns⟩ := s2.vectorsOverlay_same o.ten
  rw [heq]
  exact ⟨hpat.trans (hstate.1.trans (hput.1.trans (hv48.1 ▸ rfl))), htns.trans (hstate.2.trans (hput.2.trans hv48.2))⟩

/-! ## What is recorded -/

theorem State.overlayResult_shows (s : State) (t : Tenant) (code : Nat) (held : Bool) (seq : Nat) :
    (s.overlayResult t code held seq).fget F.PAT_OVL_VALID = 1 ∧ (s.overlayResult t code held seq).fget F.PAT_OVL_HELD = (if held then 1 else 0) ∧
    (s.overlayResult t code held seq).fget F.PAT_OVL_TENANT = t.toNat ∧ (s.overlayResult t code held seq).fget F.PAT_OVL_CODE = code % 256 ∧
    (s.overlayResult t code held seq).fget F.PAT_STATUS_LOADER = s.fget F.PAT_STATUS_LOADER := by
  unfold State.overlayResult
  refine ⟨?_, ?_, ?_, ?_, ?_⟩ <;>
  simp (disch := decide) only [State.setFlag, State.fget_fset_apart, State.fget_fset_same]
  · rfl
  · cases held <;> rfl
  · exact Nat.mod_eq_of_lt t.isLt
  · rfl

/-- The registers of the loader are below those of the tenants. -/
theorem State.overlayResult_tnt (s : State) (t : Tenant) (code : Nat) (held : Bool) (seq : Nat) {g : Fld} (hg : 0x40000 ≤ g.base)
    (hw : g.lsb + g.wid ≤ 32) (n : Nat) : (s.overlayResult t code held seq).fget g n = s.fget g n := by
  have hbelow {f : Fld} (h : f.stride = 0 ∧ f.mstr = 0 ∧ f.base + f.off < 0x40000) : f.below g = true := by
    simp only [Fld.below, Bool.and_eq_true, beq_iff_eq, decide_eq_true_eq]
    omega
  unfold State.overlayResult State.setFlag
  rw [State.fget_fset_below _ _ _ _ _ _ (hbelow (by decide)) hw, State.fget_fset_below _ _ _ _ _ _ (hbelow (by decide)) hw,
    State.fget_fset_below _ _ _ _ _ _ (hbelow (by decide)) hw, State.fget_fset_below _ _ _ _ _ _ (hbelow (by decide)) hw,
    State.fget_fset_below _ _ _ _ _ _ (hbelow (by decide)) hw]

theorem State.rejected_shows (s : State) (e : ImgErr) (n : Nat) : (s.patErr e true n).fget F.PAT_ERR_VALID = 1 ∧
    (s.patErr e true n).fget F.PAT_ERR_KIND = 1 ∧ (s.patErr e true n).fget F.PAT_ERR_CODE = e.code % 256 := by
  refine ⟨?_, ?_, ?_⟩ <;>
  simp (disch := decide) only [State.patErr, State.setFlag, State.fget_fset_apart, State.fget_fset_same] <;>
  rfl

/-- The registers of the overlay and the loader stand beside those of the rejection. -/
theorem State.rejected_fget (s : State) (e : ImgErr) (n : Nat) {g : Fld} (hg : g = F.PAT_OVL_VALID ∨ g = F.PAT_OVL_HELD ∨ g = F.PAT_OVL_TENANT ∨
    g = F.PAT_OVL_CODE ∨ g = F.PAT_STATUS_LOADER) : (s.patErr e true n).fget g = s.fget g := by
  rcases hg with rfl | rfl | rfl | rfl | rfl <;>
  simp (disch := decide) only [State.patErr, State.setFlag, State.fget_fset_apart]

/-! ## An accepted overlay -/

/-- The tenants' waiting overlays replaced. -/
def State.setWaiting (s : State) (l : List Overlay) : State := { s with tns := { s.tns with waiting := l } }

theorem State.applyWaiting_one {o : Overlay} (hwaiting : s.tns.waiting = [o]) (hctx : s.ctx1 = none)
    (hways : s.holdsWays o.ten (s.waysLost o) = false) : s.applyWaiting 1 = (s.setWaiting []).applyOverlay o := by
  rw [State.applyWaiting, hwaiting]
  dsimp only
  simp only [hctx, hways, Bool.or_false, Bool.false_eq_true, if_false, State.applyWaiting, State.setWaiting]

/-- An overlay that nothing precedes, whose tenant holds nothing in the ways it loses, takes effect now. -/
theorem State.overlayNow_free {o : Overlay} (hwaiting : s.tns.waiting = []) (hctx : s.ctx1 = none) (hways : s.holdsWays o.ten (s.waysLost o) = false) :
    s.overlayNow o = ((s.setWaiting [o]).setWaiting []).applyOverlay o := by
  have hnow : s.overlayNow o = (s.setWaiting (s.tns.waiting ++ [o])).applyWaiting (s.tns.waiting ++ [o]).length := rfl
  have hsame : (s.setWaiting [o]).holdsWays o.ten ((s.setWaiting [o]).waysLost o) = s.holdsWays o.ten (s.waysLost o) := rfl
  rw [hnow, hwaiting, List.nil_append, List.length_singleton]
  exact State.applyWaiting_one rfl hctx (hsame.trans hways)

theorem State.overlayNow_shows {o : Overlay} (hwaiting : s.tns.waiting = []) (hctx : s.ctx1 = none)
    (hways : s.holdsWays o.ten (s.waysLost o) = false) : (s.overlayNow o).pat = s.pat.withTen o.ten o.cfg ∧ (s.overlayNow o).tns.seq = s.tns.seq := by
  obtain ⟨hpat, htns⟩ := ((s.setWaiting [o]).setWaiting []).applyOverlay_shows o
  rw [State.overlayNow_free hwaiting hctx hways, hpat, htns]
  exact ⟨rfl, rfl⟩

/-- The state in which an accepted overlay's sequence number and result are recorded. -/
def State.overlayNoted (s : State) (o : Overlay) (seq : Nat) : State :=
  ((({ s with tns := { s.tns with seq := spSet 0 s.tns.seq o.ten.toNat seq, held := spErase o.ten.toNat s.tns.held } } : State).setFlag
    F.TNT_STATUS_PEND_OVL (narrows (s.cfg o.ten) o.cfg) o.ten.toNat).overlayResult o.ten 0 (narrows (s.cfg o.ten) o.cfg) seq)

theorem State.overlayNoted_shows (s : State) (o : Overlay) (seq : Nat) : (s.overlayNoted o seq).pat = s.pat ∧
    (s.overlayNoted o seq).tns = { s.tns with seq := spSet 0 s.tns.seq o.ten.toNat seq, held := spErase o.ten.toNat s.tns.held } ∧
    (s.overlayNoted o seq).slices = s.slices ∧ (s.overlayNoted o seq).ctx1 = s.ctx1 ∧
    (s.overlayNoted o seq).fget F.TNT_STATUS_STATE o.ten.toNat = s.fget F.TNT_STATUS_STATE o.ten.toNat ∧
    (s.overlayNoted o seq).fget F.TNT_STATUS_PEND_OVL o.ten.toNat = (if narrows (s.cfg o.ten) o.cfg then 1 else 0) ∧
    (s.overlayNoted o seq).fget F.PAT_OVL_HELD = (if narrows (s.cfg o.ten) o.cfg then 1 else 0) ∧
    (s.overlayNoted o seq).fget F.PAT_OVL_CODE = 0 := by
  unfold State.overlayNoted
  generalize narrows (s.cfg o.ten) o.cfg = b
  refine ⟨?_, ?_, ?_, ?_, ?_, ?_, (State.overlayResult_shows _ _ _ _ _).2.1, (State.overlayResult_shows _ _ _ _ _).2.2.2.1⟩
  · simp only [State.overlayResult, State.fset_pat, State.setFlag_pat]
  · simp only [State.overlayResult, State.fset_tns, State.setFlag_tns]
  · simp only [State.overlayResult, State.fset_slices, State.setFlag_slices]
  · simp only [State.overlayResult, State.fset_ctx1, State.setFlag_ctx1]
  · rw [State.overlayResult_tnt _ _ _ _ _ (by decide) (by decide), State.setFlag, State.fget_fset_bits _ _ _ _ _ _ (by decide) (by decide)]
    exact State.with_tns_fget _ _ _ _ _
  · rw [State.overlayResult_tnt _ _ _ _ _ (by decide) (by decide)]
    exact State.fget_setFlag_same _ _ _ _ _ (by decide) (by decide)

/-- An overlay put aside until it may take effect. -/
def State.setHeld (s : State) (o : Overlay) : State := { s with tns := { s.tns with held := spSet none s.tns.held o.ten.toNat (some o) } }

theorem State.setHeld_shows (s : State) (o : Overlay) : (s.setHeld o).pat = s.pat ∧ (∀ g n, (s.setHeld o).fget g n = s.fget g n) ∧
    (s.setHeld o).tns = { s.tns with held := spSet none s.tns.held o.ten.toNat (some o) } := ⟨rfl, fun _ _ => rfl, rfl⟩

theorem State.overlayAccepted_eq (s : State) (o : Overlay) (seq : Nat) : s.overlayAccepted o seq =
    (if narrows (s.cfg o.ten) o.cfg || (s.overlayNoted o seq).resetting o.ten then (s.overlayNoted o seq).setHeld o
      else (s.overlayNoted o seq).overlayNow o).raise 19 Cls.overlay (some o.ten) := rfl

theorem State.overlayAccepted_narrow {o : Overlay} (h : narrows (s.cfg o.ten) o.cfg = true) (seq : Nat) :
    s.overlayAccepted o seq = ((s.overlayNoted o seq).setHeld o).raise 19 Cls.overlay (some o.ten) := by
  rw [State.overlayAccepted_eq, h, Bool.true_or, if_pos rfl]

theorem State.overlayAccepted_wide {o : Overlay} {seq : Nat} (h : narrows (s.cfg o.ten) o.cfg = false)
    (hready : (s.overlayNoted o seq).resetting o.ten = false) :
    s.overlayAccepted o seq = ((s.overlayNoted o seq).overlayNow o).raise 19 Cls.overlay (some o.ten) := by
  rw [State.overlayAccepted_eq, h, hready, Bool.or_self, if_neg Bool.false_ne_true]

/-! ## The end of validation -/

/-- The loader is idle again. -/
def State.unloaded (s : State) : State := ({ s with tns := { s.tns with load := none } } : State).fset F.PAT_STATUS_LOADER 0

theorem State.unloaded_shows (s : State) : s.unloaded.fget F.PAT_STATUS_LOADER = 0 ∧ s.unloaded.tns = { s.tns with load := none } ∧
    s.unloaded.pat = s.pat ∧ s.unloaded.slices = s.slices ∧ s.unloaded.ctx1 = s.ctx1 ∧
    s.unloaded.fget F.TNT_STATUS_STATE t.toNat = s.fget F.TNT_STATUS_STATE t.toNat := by
  refine ⟨State.fget_fset_same _ _ _ _ _ (by decide), State.fset_tns _ _ _ _ _, State.fset_pat _ _ _ _ _, State.fset_slices _ _ _ _ _,
    State.fset_ctx1 _ _ _ _ _, ?_⟩
  exact (State.fget_fset_below _ _ _ _ _ _ (by decide) (by decide)).trans (State.with_tns_fget _ _ _ _ _)

/-- What validation judges an overlay by: the base Pattern, the last sequence number, and whether overlays are closed. -/
def State.binding (s : State) (t : Tenant) : Binding :=
  { ten := t, digest := s.digest, seq := if spGet 0 s.tns.seq t.toNat = 0 then none else some (spGet 0 s.tns.seq t.toNat),
    closed := s.isSafe || (s.lifecycle == 2 && !s.pat.ovlLocked) }

/-- The finding of validation on an image `b`. -/
def State.overlayFinding (s : State) (t : Tenant) (b : List Nat) : Option ImgErr :=
  overlayErr s.boot.fuses s.lifecycle (s.binding t) s.pat (s.tns.waiting ++ s.tns.held.filterMap (·.2)) b

section
variable {words : Sp Word} (hload : s.tns.load = some (t, words)) (hruns : s.umevoRuns = true) {b : List Nat} (hb : b = wordBytes 4096 words)
include hload hruns hb

theorem State.overlayValidated_bad {e : ImgErr} (herr : s.overlayFinding t b = some e) : ∃ d, s.overlayValidated =
    State.umvLog (((s.unloaded.overlayResult t e.code false (imgLe b 0x20 4)).patErr e true (imgLe b 0x18 1)).raise 19 Cls.overlay (some t))
      0x07 0 t d := by
  unfold State.overlayFinding State.binding at herr
  rw [State.overlayValidated, hload]
  dsimp only
  rw [hruns, if_neg (by decide), ← hb, herr]
  exact ⟨_, rfl⟩

theorem State.overlayValidated_good (herr : s.overlayFinding t b = none) : ∃ d, s.overlayValidated =
    State.umvLog (s.unloaded.overlayAccepted ⟨t, (imgTens b).head?⟩ (imgLe b 0x20 4)) 0x07 0 t d := by
  unfold State.overlayFinding State.binding at herr
  rw [State.overlayValidated, hload]
  dsimp only
  rw [hruns, if_neg (by decide), ← hb, herr]
  exact ⟨_, rfl⟩

end

end

/-- An event and an entry of Umevo's log leave the Pattern, the tenants' record and the registers of loader and tenants alone. -/
theorem State.logged_shows (s : State) (t : Tenant) (d : Nat) : (State.umvLog (s.raise 19 Cls.overlay (some t)) 0x07 0 t d).pat = s.pat ∧
    (State.umvLog (s.raise 19 Cls.overlay (some t)) 0x07 0 t d).tns = s.tns ∧
    ∀ (g : Fld) (n : Nat), (g.base = 0x1000 ∧ g.stride = 0 ∧ g.mstr = 0 ∧ g.off < 0x1000) ∨ (0x40000 ≤ g.base) → g.lsb + g.wid ≤ 32 →
      (State.umvLog (s.raise 19 Cls.overlay (some t)) 0x07 0 t d).fget g n = s.fget g n := by
  refine ⟨by rw [State.umvLog_pat, State.raise_pat], by rw [State.umvLog_tns, State.raise_tns], fun g n hg hw => ?_⟩
  have haddr : g.addr n 0 < 0x2000 ∨ 0x40000 ≤ g.addr n 0 := by
    rcases hg with ⟨hbase, hstride, hmstr, hoff⟩ | hbase
    · exact .inl (by rw [Fld.addr, hstride, hmstr]; omega)
    · exact .inr (by rw [Fld.addr]; omega)
  have hapart {f : Fld} (hf : f.stride = 0 ∧ f.mstr = 0 ∧ 0x2000 ≤ f.base + f.off ∧ f.base + f.off < 0x40000) :
      Fld.allApart [f] (g.addr n 0) g.lsb g.wid = true := by
    have hne : f.base + f.off ≠ g.addr n 0 := by omega
    simp [Fld.allApart, Fld.apart, hf.1, hf.2.1, hne]
  rw [State.umvLog_fget _ _ _ _ _ _ _ _ (hapart (by decide)) hw, State.raise_fget _ _ _ _ _ _ _ (hapart (by decide)) hw]

/-- Settles O45: a rejected overlay is recorded and nothing else; an accepted one is held when it narrows, and in force at once otherwise. -/
theorem overlayValidation : Obligations.OverlayValidation := by
  unfold Obligations.OverlayValidation
  refine fun s hup => ⟨fun h => ?_, fun t words b bnd o hload hruns hb ho hten hdigest hseq hclosed => ⟨s.overlayValidated, next_run hup _, ?_⟩⟩
  · refine (next_run hup _).trans (congrArg (fun u => Host.Outcome.next (s.after u)) ?_)
    rcases hl : s.tns.load with _ | ⟨t, words⟩
    · rw [State.overlayValidated, hl]
    · have hruns : s.umevoRuns = false := h.resolve_left (by simp [hl])
      rw [State.overlayValidated, hl]
      dsimp only
      rw [hruns, if_pos (by decide)]
  · have hbnd : bnd = s.binding t := by
      rw [State.binding, ← hdigest, ← hseq, ← hclosed, ← hten]
    obtain ⟨hidle, htns, hpat, hslices, hctx, hstate⟩ := s.unloaded_shows (t := t)
    have hgood := State.overlayValidated_good hload hruns hb
    have hbad {e : ImgErr} := State.overlayValidated_bad (e := e) hload hruns hb
    have hcfg : s.unloaded.cfg t = s.cfg t := by rw [State.cfg, hpat, State.cfg]
    have hfinding : overlayErr s.boot.fuses s.lifecycle bnd s.pat (s.tns.waiting ++ s.tns.held.filterMap (·.2)) b = s.overlayFinding t b := by
      rw [hbnd]
      rfl
    rw [hfinding]
    generalize s.unloaded = v at hidle htns hpat hslices hctx hstate hgood hbad hcfg
    split
    · next e herr =>
      obtain ⟨d, heq⟩ := hbad herr
      obtain ⟨hvalid, hheld, hwho, hcode, hkeep⟩ := v.overlayResult_shows t e.code false (imgLe b 0x20 4)
      have hrecord : (v.overlayResult t e.code false (imgLe b 0x20 4)).pat = v.pat ∧
          (v.overlayResult t e.code false (imgLe b 0x20 4)).tns = v.tns := by
        simp only [State.overlayResult, State.fset_pat, State.setFlag_pat, State.fset_tns, State.setFlag_tns, and_self]
      generalize v.overlayResult t e.code false (imgLe b 0x20 4) = w at heq hvalid hheld hwho hcode hkeep hrecord
      obtain ⟨hevalid, hekind, hecode⟩ := w.rejected_shows e (imgLe b 0x18 1)
      have hother {g : Fld} (hg) : (w.patErr e true (imgLe b 0x18 1)).fget g = w.fget g := w.rejected_fget e (imgLe b 0x18 1) hg
      have herecord : (w.patErr e true (imgLe b 0x18 1)).pat = w.pat ∧ (w.patErr e true (imgLe b 0x18 1)).tns = w.tns := by
        simp only [State.patErr, State.fset_pat, State.setFlag_pat, State.fset_tns, State.setFlag_tns, and_self]
      generalize w.patErr e true (imgLe b 0x18 1) = x at heq hevalid hekind hecode hother herecord
      obtain ⟨hpatL, htnsL, hfgetL⟩ := x.logged_shows t d
      rw [heq]
      have htnsAll := htnsL.trans (herecord.2.trans (hrecord.2.trans htns))
      have hread {g : Fld} (hg) (hblock) (hw) := (hfgetL g 0 (.inl hblock) hw).trans (hother hg)
      refine ⟨by rw [htnsAll], ?_, ?_, ?_, ?_, ?_, ?_, ?_, ?_, hpatL.trans (herecord.1.trans (hrecord.1.trans hpat)), by rw [htnsAll], by rw [htnsAll],
        by rw [htnsAll]⟩
      · exact (hread (.inr (.inr (.inr (.inr rfl)))) (by decide) (by decide)).trans (hkeep.trans hidle)
      · rw [State.flag, hread (.inl rfl) (by decide) (by decide), hvalid]
        rfl
      · rw [State.flag, hread (.inr (.inl rfl)) (by decide) (by decide), hheld]
        rfl
      · exact (hread (.inr (.inr (.inl rfl))) (by decide) (by decide)).trans hwho
      · exact (hread (.inr (.inr (.inr (.inl rfl)))) (by decide) (by decide)).trans hcode
      · rw [State.flag, hfgetL _ _ (.inl (by decide)) (by decide), hevalid]
        rfl
      · rw [State.flag, hfgetL _ _ (.inl (by decide)) (by decide), hekind]
        rfl
      · rw [hfgetL _ _ (.inl (by decide)) (by decide), hecode]
    · next herr =>
      obtain ⟨d, heq⟩ := hgood herr
      have hten : o.ten = t := by rw [ho]
      generalize hseq : imgLe b 0x20 4 = seq at heq
      rw [← ho] at heq
      rw [heq]
      subst hten
      obtain ⟨hnpat, hntns, hnslices, hnctx, hnstate, hnpend, hnheld, hncode⟩ := v.overlayNoted_shows o seq
      have hnarrow := v.overlayAccepted_narrow (o := o) (seq := seq)
      have hwide := v.overlayAccepted_wide (o := o) (seq := seq)
      have hreset : (v.overlayNoted o seq).resetting o.ten = s.resetting o.ten := by rw [State.resetting, State.resetting, hnstate, hstate]
      rw [hcfg] at hnpend hnheld hnarrow hwide
      generalize v.overlayNoted o seq = w at hnarrow hwide hnpat hntns hnslices hnctx hnpend hnheld hncode hreset
      have hseqnow : spGet 0 w.tns.seq o.ten.toNat = seq := by rw [hntns, spGet_spSet, if_pos rfl]
      refine ⟨fun hnarrows => ?_, fun hwidens hready hfirst hfree hways => ?_⟩
      · rw [hnarrow hnarrows]
        rw [hnarrows] at hnpend hnheld
        obtain ⟨hpatL, htnsL, hfgetL⟩ := (w.setHeld o).logged_shows o.ten d
        obtain ⟨hxpat, hxfget, hxtns⟩ := w.setHeld_shows o
        refine ⟨hpatL.trans (hxpat.trans (hnpat.trans hpat)), ?_, ?_, ?_, ?_, ?_⟩
        · rw [htnsL, hxtns, spGet_spSet, if_pos rfl]
        · rw [hfgetL _ _ (.inl (by decide)) (by decide), hxfget, hncode]
        · rw [State.flag, hfgetL _ _ (.inl (by decide)) (by decide), hxfget, hnheld]
          rfl
        · rw [State.flag, hfgetL _ _ (.inr (by decide)) (by decide), hxfget, hnpend]
          rfl
        · rw [htnsL, hxtns]
          exact hseqnow
      · have hwaiting : w.tns.waiting = [] := by
          rw [hntns, htns]
          exact hfirst
        have hholds : w.holdsWays o.ten (w.waysLost o) = false := by
          have hlost : w.waysLost o = s.waysLost o := by
            rw [State.waysLost, State.waysLost, State.ten, State.ten, State.cfg, State.cfg, hnpat, hpat]
          rw [hlost, State.holdsWays]
          simp only [State.slice_congr (hnslices.trans hslices)]
          exact hways
        obtain ⟨happlied, hkept⟩ := State.overlayNow_shows hwaiting (hnctx.trans (hctx.trans hfree)) hholds
        obtain ⟨hpatL, htnsL, -⟩ := (w.overlayNow o).logged_shows o.ten d
        rw [hwide hwidens (hreset.trans hready), hpatL, htnsL, happlied, hkept, hnpat, hpat]
        exact ⟨rfl, hseqnow⟩

end Sys2Proof.Machine
end

section
/-!
SUPPORT. The steps of a tenant reset up to REVOKE (12 R483 to R487, 11 R454): what each starts, and when it is over.
-/
namespace Sys2Proof.Machine

section
variable {s : State} {t : Tenant} {k l : Nat}

/-! ## When a step may start, and what its start records -/

theorem State.stepMay_of {n : Nat} (hhead : s.tns.queue.head? = some t) (hstep : s.fget F.TNT_STATUS_STEP t.toNat = n) (hdone : s.tns.done = true)
    (hruns : s.umevoRuns = true) (hsafe : s.isSafe = false) : s.stepMay t n = true := by
  simp [State.stepMay, hhead, hstep, hdone, hruns, hsafe]

theorem State.stepMay_running (hdone : s.tns.done = false) (n : Nat) : s.stepMay t n = false := by
  simp [State.stepMay, hdone]

theorem State.stepStart_shows (s : State) (t : Tenant) {c : Nat} (hc : c < 8) : (s.stepStart t c).fget F.TNT_STATUS_STEP t.toNat = c ∧
    (s.stepStart t c).tns.done = false ∧ (s.stepStart t c).slices = s.slices ∧ (s.stepStart t c).banks = s.banks ∧
    (s.stepStart t c).pat = s.pat ∧ (s.stepStart t c).actives = s.actives := by
  refine ⟨?_, rfl, rfl, rfl, rfl, State.actives_congr rfl rfl rfl⟩
  exact (State.fget_fset_same _ _ _ _ _ (by decide)).trans (Nat.mod_eq_of_lt hc)

/-! ## INVALIDATE -/

/-- The scan of a slice begins, unless the slice is in DEEP. -/
def State.invBegin (s : State) (t : Tenant) (k : Nat) : State :=
  if (s.slice k).pwr = .deep then s
  else
    let s1 := s.modSlice k (fun c => { c with inv := some (t, 0) })
    (if (s1.slice k).pwr = .sleep then s1.wakeSlice k else s1).invStep k 1048576

theorem State.tenantInvalidate_eq (h : s.stepMay t 2 = true) :
    s.tenantInvalidate t = s.actives.foldl (fun (s : State) k => s.invBegin t k) (s.stepStart t 3) := by
  rw [State.tenantInvalidate, if_pos h]
  rfl

/-- A scan over an empty filter without a census ends at once. -/
theorem State.invStep_empty {n : Nat} (hn : n ≠ 0) {at_ : Nat} (hinv : (s.slice k).inv = some (t, at_)) (hsf : (s.slice k).sf = [])
    (hcensus : (s.slice k).census = []) : s.invStep k n = s.modSlice k (fun c => { c with inv := none }) := by
  obtain ⟨m, rfl⟩ := Nat.exists_eq_succ_of_ne_zero hn
  rw [State.invStep, hinv, hsf]
  simp only [List.find?_nil, State.censusPast, hcensus, List.all_nil, if_true]

/-- The slice in which a scan has begun and ended. -/
def Slice.scanned (c : Slice) : Slice :=
  if c.pwr = .deep then c else { c with inv := none, waking := if c.pwr = .sleep then true else c.waking }

theorem State.wakeSlice_sleep (h : (s.slice k).pwr = .sleep) : s.wakeSlice k = s.modSlice k (fun c => { c with waking := true }) := by
  simp [State.wakeSlice, h]

theorem State.invBegin_shows (hsf : (s.slice k).sf = []) (hcensus : (s.slice k).census = []) :
    (s.invBegin t k).slice k = (s.slice k).scanned ∧ (∀ j, j ≠ k → (s.invBegin t k).slice j = s.slice j) ∧
    ∃ x, s.invBegin t k = { s with slices := x } := by
  unfold State.invBegin Slice.scanned
  split
  · exact ⟨rfl, fun _ _ => rfl, _, rfl⟩
  · next hdeep =>
    dsimp only
    split
    · next hsleep =>
      rw [State.wakeSlice_sleep hsleep, State.invStep_empty (t := t) (at_ := 0) (by decide) (by simp) (by simpa using hsf) (by simpa using hcensus)]
      rw [State.slice_modSlice_same] at hsleep
      refine ⟨?_, fun j hj => ?_, _, rfl⟩
      · simp only [State.slice_modSlice_same, if_pos hsleep]
      · simp only [State.slice_modSlice_other _ _ hj]
    · next hsleep =>
      rw [State.invStep_empty (t := t) (at_ := 0) (by decide) (by simp) (by simpa using hsf) (by simpa using hcensus)]
      rw [State.slice_modSlice_same] at hsleep
      refine ⟨?_, fun j hj => ?_, _, rfl⟩
      · simp only [State.slice_modSlice_same, if_neg hsleep]
      · simp only [State.slice_modSlice_other _ _ hj]

/-- The scans of the slices, one after the other. -/
theorem State.invBegin_all (l : List Nat) (hl : l.Nodup) (s : State) (hempty : ∀ k ∈ l, (s.slice k).sf = [] ∧ (s.slice k).census = []) :
    (∀ k ∈ l, (l.foldl (fun (s : State) k => s.invBegin t k) s).slice k = (s.slice k).scanned) ∧
    (∀ k, k ∉ l → (l.foldl (fun (s : State) k => s.invBegin t k) s).slice k = s.slice k) ∧
    ∃ x, l.foldl (fun (s : State) k => s.invBegin t k) s = { s with slices := x } := by
  induction l generalizing s with
  | nil => exact ⟨fun _ h => absurd h List.not_mem_nil, fun _ _ => rfl, _, rfl⟩
  | cons a l ih =>
    obtain ⟨ha, hrest⟩ := List.nodup_cons.mp hl
    obtain ⟨hsame, hother, x, hx⟩ := State.invBegin_shows (t := t) (hempty a List.mem_cons_self).1 (hempty a List.mem_cons_self).2
    have hne {k} (hk : k ∈ l) : k ≠ a := fun h => ha (h ▸ hk)
    obtain ⟨hin, hout, y, hy⟩ := ih hrest (s.invBegin t a) (fun k hk => by
      rw [hother k (hne hk)]
      exact hempty k (List.mem_cons_of_mem a hk))
    rw [List.foldl_cons]
    refine ⟨fun k hk => ?_, fun k hk => ?_, y, ?_⟩
    · rcases List.mem_cons.mp hk with rfl | hk
      · rw [hout _ ha, hsame]
      · rw [hin k hk, hother k (hne hk)]
    · rw [List.mem_cons, not_or] at hk
      rw [hout k hk.2, hother k hk.1]
    · rw [hy, hx]

theorem State.actives_nodup (s : State) : s.actives.Nodup := List.nodup_range.filter _

/-! ## CLEAN -/

/-- A slice begins its walk for context 1, and one in SLEEP wakes for it. -/
def State.walkFrom1 (s : State) (k : Nat) : State :=
  let s1 := s.modSlice k (fun c => { c with walk1 := firstSet (s.slice k).pwr })
  if !((s.slice k).pwr == .deep) && (s1.slice k).pwr == .sleep then s1.wakeSlice k else s1

/-- The job of context 1 for one tenant. -/
def tenantJob (t : Tenant) (ways : BitVec 16) : RangeJob := { op := 1, base := 0, limit := 2 ^ 52 - 1, ten := some t, ways := ways }

theorem State.startCtx1_eq (s : State) (t : Tenant) (ways : BitVec 16) : s.startCtx1 t ways =
    (forUp (fun k (s : State) => s.walkFrom1 k) 0 18 { s with ctx1 := some (tenantJob t ways) }).rangeCheck 1 := rfl

theorem State.walkFrom1_slices (s : State) (k : Nat) : ∃ x, s.walkFrom1 k = { s with slices := x } := by
  unfold State.walkFrom1 State.wakeSlice
  dsimp only
  split
  · split
    · exact ⟨_, rfl⟩
    · split
      · exact ⟨_, rfl⟩
      · exact ⟨_, rfl⟩
  · exact ⟨_, rfl⟩

theorem State.begun1_field {α : Type} (get : State → α) (hslices : ∀ (s : State) x, get { s with slices := x } = get s) (s : State) :
    get (forUp (fun k (s : State) => s.walkFrom1 k) 0 18 s) = get s := by
  refine State.forUp_field get ?_ 18 0 s
  intro k u
  obtain ⟨x, hx⟩ := u.walkFrom1_slices k
  rw [hx, hslices]

theorem State.walkFrom1_other {j : Nat} (h : j ≠ k) : (s.walkFrom1 k).slice j = s.slice j := by
  unfold State.walkFrom1
  dsimp only
  split
  · exact (State.wakeSlice_slice_other _ h).trans (State.slice_modSlice_other s _ h)
  · exact State.slice_modSlice_other s _ h

theorem State.walkFrom1_same (h : (s.slice k).pwr ≠ .deep) : ((s.walkFrom1 k).slice k).walk1 = 0 := by
  unfold State.walkFrom1
  dsimp only
  rw [State.slice_modSlice_same]
  split
  · next hsleep =>
    have hpwr : (s.slice k).pwr = .sleep := by simpa [h] using hsleep
    rw [State.wakeSlice_sleep ((congrArg Slice.pwr (State.slice_modSlice_same s k _)).trans hpwr)]
    simp [h, firstSet]
  · simp [h, firstSet]

theorem State.begun1_walk1 (hk : k < 18) (hpwr : (s.slice k).pwr ≠ .deep) :
    ((forUp (fun k (s : State) => s.walkFrom1 k) 0 18 s).slice k).walk1 = 0 :=
  forUp_reaches (get := fun s : State => s.slice k) (p := fun c => c.pwr ≠ .deep) (q := fun c => c.walk1 = 0)
    (fun _ _ hi => State.walkFrom1_other hi.symm) (fun _ hp => State.walkFrom1_same hp) 18 0 s (by omega) (by omega) hpwr

/-- The look at context 1 ends it, or leaves everything as it is; it goes on while an active slice has sets to walk. -/
theorem State.rangeCheck_ctx1 (s : State) : (s.rangeCheck 1 = { s with ctx1 := none } ∨ s.rangeCheck 1 = s) ∧
    (k ∈ s.actives → (s.slice k).walk1 < 1024 → s.rangeCheck 1 = s) := by
  unfold State.rangeCheck
  dsimp only
  rw [if_neg (by decide : ¬ (1 : Nat) = 0)]
  refine ⟨?_, fun hk hwalk => ?_⟩
  · split
    · exact .inl rfl
    · exact .inr rfl
  · refine if_neg fun h => ?_
    rw [Bool.and_eq_true, List.all_eq_true] at h
    have hsets := h.1 k hk
    simp only [Slice.walk, Nat.one_ne_zero, if_false, Bool.and_eq_true, Bool.or_eq_true, decide_eq_true_eq] at hsets
    rcases hsets.1 with hstop | hpast
    · simp at hstop
    · omega

theorem State.startCtx1_shows (s : State) (t : Tenant) (ways : BitVec 16) : (s.startCtx1 t ways).tns = s.tns ∧
    (∀ g n, (s.startCtx1 t ways).fget g n = s.fget g n) ∧
    ((∃ k ∈ s.actives, (s.slice k).pwr ≠ .deep) → (s.startCtx1 t ways).ctx1 = some (tenantJob t ways)) := by
  have hfield {α : Type} (get : State → α) (hslices : ∀ (s : State) x, get { s with slices := x } = get s) :=
    State.begun1_field get hslices { s with ctx1 := some (tenantJob t ways) }
  have hwalk {k} := State.begun1_walk1 (s := { s with ctx1 := some (tenantJob t ways) }) (k := k)
  rw [State.startCtx1_eq]
  generalize forUp (fun k (s : State) => s.walkFrom1 k) 0 18 { s with ctx1 := some (tenantJob t ways) } = u at hfield hwalk
  obtain ⟨hends, hgoes⟩ := u.rangeCheck_ctx1 (k := 0)
  have htns : u.tns = s.tns := hfield (·.tns) fun _ _ => rfl
  have hfget (g : Fld) (n : Nat) : u.fget g n = s.fget g n := hfield (·.fget g n) fun _ _ => rfl
  have hactives : u.actives = s.actives := hfield (·.actives) fun _ _ => rfl
  refine ⟨?_, fun g n => ?_, fun ⟨k, hk, hpwr⟩ => ?_⟩
  · rcases hends with h | h
    · exact (congrArg State.tns h).trans htns
    · exact (congrArg State.tns h).trans htns
  · rcases hends with h | h
    · exact (congrArg (·.fget g n) h).trans (hfget g n)
    · exact (congrArg (·.fget g n) h).trans (hfget g n)
  · have hlt : k < 18 := List.mem_range.mp (List.mem_filter.mp hk).1
    rw [(u.rangeCheck_ctx1 (k := k)).2 (hactives ▸ hk) (by rw [hwalk hlt hpwr]; decide)]
    exact hfield (·.ctx1) fun _ _ => rfl

/-! ## REVOKE -/

theorem State.bank_modBank_other (s : State) {j : Nat} (h : j ≠ l) (f : Bank → Bank) : (s.modBank l f).bank j = s.bank j := by
  rw [State.bank, State.modBank, spGet_spSet, if_neg h.symm, State.bank]

theorem State.setEnt_fget (s : State) (l i : Nat) (e : ClampEnt) (g : Fld) (n m : Nat) : (s.setEnt l i e).fget g n m = s.fget g n m := rfl

theorem State.setEnt_bank_other (s : State) {j : Nat} (h : j ≠ l) (i : Nat) (e : ClampEnt) : (s.setEnt l i e).bank j = s.bank j :=
  State.bank_modBank_other s h _

/-- An answer moves a counter in the upper half of a register, beside the tenant's step. -/
theorem State.clampRsp_step (s : State) (l : Nat) (m : Msg) (op : BitVec 8) (code : Nat) (n : Nat) :
    (s.clampRsp l m op code).fget F.TNT_STATUS_STEP n = s.fget F.TNT_STATUS_STEP n := by
  refine s.send_field (·.fget F.TNT_STATUS_STEP n) (fun _ _ => rfl) (fun _ _ => rfl) (fun u v x y => ?_) _
  exact State.fget_fset_bits _ _ _ _ _ _ (.inl (by decide)) (by decide)

theorem State.breakWaiters_step (s : State) (l : Nat) (rs : List ClampRec) (code n : Nat) :
    (s.breakWaiters l rs code).fget F.TNT_STATUS_STEP n = s.fget F.TNT_STATUS_STEP n := by
  refine State.foldl_field (·.fget F.TNT_STATUS_STEP n) ?_ _ _
  exact fun u r => u.clampRsp_step l r.m Op.lockBroken code n

theorem State.breakEnt_leaves (s : State) (l i code n : Nat) :
    (s.breakEnt l i code).fget F.TNT_STATUS_STEP n = s.fget F.TNT_STATUS_STEP n ∧ ∀ j, j ≠ l → (s.breakEnt l i code).bank j = s.bank j := by
  have hstep := s.breakWaiters_step l (s.ent l i).recs code n
  have hbank := State.bank_congr (s.breakWaiters_banks l (s.ent l i).recs code)
  unfold State.breakEnt
  dsimp only
  generalize s.breakWaiters l (s.ent l i).recs code = u at hstep hbank
  refine ⟨?_, fun j hj => ?_⟩
  · rw [State.setEnt_fget, State.bump, State.bumpBy, State.fget_fset_bits _ _ _ _ _ _ (.inl (by decide)) (by decide), hstep]
  · rw [State.setEnt_bank_other _ hj, State.bank_congr (State.bump_banks _ _ _ _), hbank]

/-- What REVOKE does to one entry of a bank. -/
def State.revokeEnt (l : Nat) (t : Tenant) (i : Nat) (e : ClampEnt) (s : State) : State :=
  if e.st = .free then s
  else if e.ten = t then (s.breakWaiters l (e.recs.filter (fun r => r.m.ten != t)) 1).freeEnt l i
  else if e.st = .lock ∧ e.recs.any (fun r => r.role == .holder && r.m.ten == t) ∨ e.st = .barrier ∧ e.came.contains t then
    (s.setEnt l i { e with recs := e.recs.filter (fun r => r.m.ten != t) }).breakEnt l i 1
  else s.setEnt l i { e with recs := e.recs.filter (fun r => r.m.ten != t) }

/-- The tenant's queued requests leave the bank. -/
def State.unqueue (s : State) (l : Nat) (t : Tenant) : State := s.modBank l (fun b => { b with queue := b.queue.filter (fun x => x.1.ten != t) })

theorem State.clampRevoke_eq (s : State) (l : Nat) (t : Tenant) : s.clampRevoke l t = (s.unqueue l t).forEnts l (State.revokeEnt l t) := rfl

theorem State.revokeEnt_leaves (s : State) (l : Nat) (t : Tenant) (i : Nat) (e : ClampEnt) (n : Nat) :
    (s.revokeEnt l t i e).fget F.TNT_STATUS_STEP n = s.fget F.TNT_STATUS_STEP n ∧ ∀ j, j ≠ l → (s.revokeEnt l t i e).bank j = s.bank j := by
  unfold State.revokeEnt
  split
  · exact ⟨rfl, fun _ _ => rfl⟩
  · split
    · refine ⟨s.breakWaiters_step _ _ _ _, fun j hj => (State.bank_modBank_other _ hj _).trans ?_⟩
      exact State.bank_congr (s.breakWaiters_banks _ _ _) j
    · split
      · obtain ⟨hstep, hbank⟩ := (s.setEnt l i { e with recs := e.recs.filter (fun r => r.m.ten != t) }).breakEnt_leaves l i 1 n
        exact ⟨hstep, fun j hj => (hbank j hj).trans (State.bank_modBank_other _ hj _)⟩
      · exact ⟨rfl, fun j hj => State.bank_modBank_other _ hj _⟩

/-- REVOKE in one bank leaves the tenant's step and the other banks alone. -/
theorem State.clampRevoke_leaves (s : State) (l : Nat) (t : Tenant) (n : Nat) :
    (s.clampRevoke l t).fget F.TNT_STATUS_STEP n = s.fget F.TNT_STATUS_STEP n ∧ ∀ j, j ≠ l → (s.clampRevoke l t).bank j = s.bank j := by
  rw [State.clampRevoke_eq]
  have hturn (u : State) (x : Nat × ClampEnt) := u.revokeEnt_leaves l t x.1 (u.ent l x.1) n
  refine ⟨?_, fun j hj => ?_⟩
  · refine State.foldl_field (·.fget F.TNT_STATUS_STEP n) ?_ _ _
    exact fun u x => (hturn u x).1
  · refine (State.foldl_field (·.bank j) ?_ _ _).trans (State.bank_modBank_other s hj _)
    exact fun u x => (hturn u x).2 j hj

/-- The tenant's one entry of a bank is freed. -/
theorem State.clampRevoke_frees {i : Nat} {e : ClampEnt} (hents : (s.bank l).ents = [(i, e)]) (hst : e.st ≠ .free) (hten : e.ten = t) :
    spGet ClampEnt.zero ((s.clampRevoke l t).bank l).ents i = { ClampEnt.zero with gen := e.gen + 1 } := by
  have hqueue : ((s.unqueue l t).bank l).ents = [(i, e)] := (congrArg Bank.ents (State.bank_modBank_same s l _)).trans hents
  have hent : (s.unqueue l t).ent l i = e := by rw [State.ent, hqueue, spGet, if_pos rfl]
  have hkept (rs : List ClampRec) : ((s.unqueue l t).breakWaiters l rs 1).ent l i = e :=
    (State.ent_congr (State.breakWaiters_banks _ _ _ _) l i).trans hent
  rw [State.clampRevoke_eq, State.forEnts, hqueue, List.foldl_cons, List.foldl_nil, hent, State.revokeEnt, if_neg hst, if_pos hten,
    State.freeEnt, hkept]
  exact State.ent_setEnt_same _ _ _ _

/-! ## The end of a step -/

theorem State.tenDrained_empty (h : ∀ k, k < 18 → (s.slice k).trk = [] ∧ (s.slice k).chain = [] ∧ (s.slice k).ingress = []) :
    s.tenDrained t = true := by
  refine List.all_eq_true.mpr fun k hk => ?_
  obtain ⟨htrk, hchain, hingress⟩ := h k (List.mem_range.mp hk)
  simp only [htrk, hchain, hingress, List.all_nil, Bool.and_self]

theorem Txn.internal_of_client {x : Txn} (h : x.isClient = true) : x.internal = false := by
  have hkind : x.kind = .client := by simpa [Txn.isClient] using h
  rw [Txn.internal, hkind]

theorem State.tenDrained_held {j : Nat} {x : Txn} (hk : k < 18) (hx : (j, some x) ∈ (s.slice k).trk) (hclient : x.isClient = true)
    (hten : x.m.ten = t) : s.tenDrained t = false := by
  refine List.all_eq_false.mpr ⟨k, List.mem_range.mpr hk, ?_⟩
  have htrk : (s.slice k).trk.all (fun e => match e.2 with | some x => x.internal || x.m.ten != t | none => true) = false :=
    List.all_eq_false.mpr ⟨_, hx, by simp [Txn.internal_of_client hclient, hten]⟩
  simp only [Bool.not_eq_true, Bool.and_eq_false_iff]
  exact .inl (.inl htrk)

/-- The step in progress is recorded as complete. -/
def State.stepDone (s : State) : State := { s with tns := { s.tns with done := true } }

theorem State.tenantStepEnd_over (hhead : s.tns.queue.head? = some t) (hdone : s.tns.done = false) (hover : s.stepOver t = true) :
    s.tenantStepEnd t = s.stepDone.umvLog 0x05 0 t (s.fget F.TNT_STATUS_STEP t.toNat) :=
  if_pos ⟨hhead, by simp [hdone], hover⟩

theorem State.tenantStepEnd_waits (h : s.tns.done = true ∨ s.stepOver t = false) : s.tenantStepEnd t = s :=
  if_neg fun ⟨_, hdone, hover⟩ => by
    rcases h with h | h
    · simp [h] at hdone
    · simp [h] at hover

end

end Sys2Proof.Machine
end

section
/-!
SUPPORT. The last step of a tenant reset, CLEAR (12 R488, R489): what it takes from slices, staging buffers, vectors and counters, and
how the tenant leaves its reset.
-/
namespace Sys2Proof.Machine

section
variable {s : State} {t : Tenant}

/-! ## Slices and staging buffers -/

/-- No reservation of the tenant. -/
def Slice.unreserved (c : Slice) (t : Tenant) : Prop := ∀ r ∈ c.rsv, r.ten ≠ t

theorem State.clearSlices_field {α : Type} (get : State → α) (hslices : ∀ (s : State) x, get { s with slices := x } = get s)
    (hlogic : ∀ (s : State) x, get { s with logic := x } = get s) (s : State) (t : Tenant) : get (s.clearSlices t) = get s := by
  unfold State.clearSlices
  dsimp only
  refine (State.forUp_field get ?_ _ _ _).trans (State.forUp_field get ?_ _ _ _)
  · exact fun _ _ => hlogic _ _
  · exact fun _ _ => hslices _ _

theorem State.clearSlices_unreserved {k : Nat} (hk : k < 18) : ((s.clearSlices t).slice k).unreserved t := by
  unfold State.clearSlices
  dsimp only
  refine Eq.mpr (congrArg (fun c : Slice => c.unreserved t) (State.forUp_field (·.slice k) ?_ _ _ _)) ?_
  · exact fun _ _ => rfl
  · refine forUp_reaches (get := fun s : State => s.slice k) (p := fun _ => True) (q := fun c => c.unreserved t)
      (fun i s hi => State.slice_modSlice_other s _ hi.symm) (fun s _ => ?_) 18 0 s (by omega) (by omega) trivial
    rw [State.slice_modSlice_same]
    intro r hr
    simpa using (List.mem_filter.mp hr).2

theorem State.clearStaging_field {α : Type} (get : State → α) (hstaging : ∀ (s : State) i b, get (s.setStg i b) = get s) (s : State)
    (sel : Staging → Bool) : get (s.clearStaging sel) = get s := by
  unfold State.clearStaging
  refine State.foldl_field get ?_ _ _
  intro u e
  split
  · exact hstaging _ _ _
  · rfl

/-- Every buffer that is still to be looked at stands in the list, so that at the end none is used and selected. -/
theorem clearStaging_fold (sel : Staging → Bool) (l : Sp Staging) (u : State)
    (h : ∀ i, ((u.stg i).used && sel (u.stg i)) = false ∨ (i, u.stg i) ∈ l) (i : Nat) :
    (((l.foldl (fun (s : State) e => if e.2.used && sel e.2 then s.setStg e.1 e.2.freed else s) u).stg i).used &&
      sel ((l.foldl (fun (s : State) e => if e.2.used && sel e.2 then s.setStg e.1 e.2.freed else s) u).stg i)) = false := by
  induction l generalizing u with
  | nil => exact (h i).resolve_right List.not_mem_nil
  | cons e l ih =>
    rw [List.foldl_cons]
    refine ih _ fun j => ?_
    split
    · next hsel =>
      rw [State.stg_setStg]
      split
      · exact .inl rfl
      · next hne =>
        refine (h j).imp_right fun hj => (List.mem_cons.mp hj).resolve_left fun he => hne ?_
        exact congrArg Prod.fst he.symm
    · next hsel =>
      rcases h j with hj | hj
      · exact .inl hj
      · rcases List.mem_cons.mp hj with he | hj
        · rw [← he] at hsel
          exact .inl (Bool.eq_false_iff.mpr hsel)
        · exact .inr hj

theorem State.clearStaging_gone (s : State) (sel : Staging → Bool) (i : Nat) (hused : ((s.clearStaging sel).stg i).used = true) :
    sel ((s.clearStaging sel).stg i) = false := by
  have hgone := clearStaging_fold sel s.tns.staging s (fun j => ?_) i
  · rw [State.clearStaging] at hused ⊢
    rw [hused, Bool.true_and] at hgone
    exact hgone
  · rcases spGet_mem Staging.zero s.tns.staging j with hzero | hmem
    · rw [State.stg, hzero]
      exact .inl rfl
    · exact .inr hmem

/-! ## The mark of a fatal error -/

/-- A register of a tenant stands above the marks of fatal errors. -/
theorem Fld.apart_tfatal {f : Fld} (hf : 0x40000 ≤ f.base) {m : Nat} (hm : m < 4) : f.apart (F.SAF_TFATAL_TENANT.addr 0 m) 0 32 = true := by
  have haddr : F.SAF_TFATAL_TENANT.addr 0 m < 0x40000 := by
    simp only [Fld.addr, F.SAF_TFATAL_TENANT]
    omega
  simp only [Fld.apart, Bool.or_eq_true, decide_eq_true_eq]
  exact .inl (.inr (by omega))

theorem State.setTFatal_clear (s : State) (t : Tenant) :
    ((s.setTFatal t false).fget F.SAF_TFATAL_TENANT 0 (t.toNat / 32)).testBit (t.toNat % 32) = false := by
  have hbit : t.toNat % 32 < 32 := Nat.mod_lt _ (by decide)
  have hmask : 0xFFFFFFFF - 2 ^ (t.toNat % 32) = 2 ^ 32 - (2 ^ (t.toNat % 32) + 1) := by omega
  have hlow : 2 ^ (t.toNat % 32) < 2 ^ 32 := Nat.pow_lt_pow_right (by decide) hbit
  unfold State.setTFatal
  dsimp only
  rw [State.fget_fset_same _ _ _ _ _ (by decide), if_neg (by decide), hmask, Nat.testBit_mod_two_pow, Nat.testBit_and,
    Nat.testBit_two_pow_sub_succ hlow, Nat.testBit_two_pow_self]
  simp

/-! ## Vectors -/

/-- A vector without an event, without an Interrupt and at its first sequence number. -/
def EvVector.cleared (v : EvVector) : Prop := v.pend = false ∧ v.out = none ∧ v.seq = 0

theorem EvVector.configured_pend (v : EvVector) (c : Option PVector) : (v.configured c).pend = v.pend := by
  cases c
  · rfl
  · rfl

theorem State.evgDiscard_pend (s : State) (n : Nat) : ((s.evgDiscard n).vec n).pend = false := by
  cases h : (s.vec n).pend
  · rw [State.evgDiscard_empty h, h]
  · rw [State.evgDiscard_open h]
    exact congrArg EvVector.pend (State.vec_modVec_same s n _)

theorem State.evgDiscard_other (s : State) {n j : Nat} (h : j ≠ n) : (s.evgDiscard n).vec j = s.vec j := by
  cases hp : (s.vec n).pend
  · rw [State.evgDiscard_empty hp]
  · rw [State.evgDiscard_open hp]
    exact State.vec_modVec_other s h _

/-- What CLEAR makes of one vector. -/
def State.vectorClear (s : State) (t : Tenant) (v : Nat) : State :=
  (s.evgDiscard (8 * t.toNat + v)).modVec (8 * t.toNat + v) (fun x =>
    { x.configured ((s.ten t).vecRec v) with mask := false, idle := false, seq := 0, out := none })

theorem State.vectorsClear_eq (s : State) (t : Tenant) : s.vectorsClear t = forUp (fun v (s : State) => s.vectorClear t v) 0 8 s := rfl

theorem State.vectorsClear_field {α : Type} (get : State → α) (hdrop : ∀ (s : State) v n m, get (s.fset F.EVG_DROP_DISC v n m) = get s)
    (hvectors : ∀ (s : State) x, get { s with vectors := x } = get s) (s : State) (t : Tenant) : get (s.vectorsClear t) = get s := by
  rw [State.vectorsClear_eq]
  refine State.forUp_field get ?_ 8 0 s
  intro v u
  refine (hvectors _ _).trans ?_
  cases h : (u.vec (8 * t.toNat + v)).pend
  · rw [State.evgDiscard_empty h]
  · rw [State.evgDiscard_open h, State.bump, State.bumpBy]
    exact (hdrop _ _ _ _).trans (hvectors _ _)

theorem State.vectorsClear_cleared {v : Nat} (hv : v < 8) : ((s.vectorsClear t).vec (8 * t.toNat + v)).cleared := by
  rw [State.vectorsClear_eq]
  refine forUp_reaches (get := fun s : State => s.vec (8 * t.toNat + v)) (p := fun _ => True) (q := EvVector.cleared)
    (fun i s hi => ?_) (fun s _ => ?_) 8 0 s (by omega) (by omega) trivial
  · have hne : 8 * t.toNat + v ≠ 8 * t.toNat + i := by omega
    exact (State.vec_modVec_other _ hne _).trans (s.evgDiscard_other hne)
  · rw [State.vectorClear, State.vec_modVec_same]
    exact ⟨(EvVector.configured_pend _ _).trans (s.evgDiscard_pend _), rfl, rfl⟩

/-! ## Counters -/

theorem State.zeroed_word (l : List Fld) (n a : Nat) (s : State) :
    (l.foldl (fun (s : State) (f : Fld) => s.setWord (f.addr n 0) 0) s).word a = if l.any (fun f => f.addr n 0 == a) then 0 else s.word a := by
  induction l generalizing s with
  | nil => rfl
  | cons f l ih =>
    rw [List.foldl_cons, ih, State.word_setWord, List.any_cons]
    by_cases hf : f.addr n 0 = a
    · simp [hf]
    · simp [hf]

/-- The counters that CLEAR zeroes. -/
def clearedFields : List Fld :=
  [F.TNT_ACC_CNT_COUNT, F.TNT_ACC_LAST0_KIND, F.TNT_ACC_LAST1_VALID, F.TNT_ACC_LAST2_SRC, F.TNT_STG_ERRCNT_STALE]

theorem State.clearCounts_word (s : State) (n a : Nat) :
    (s.clearCounts n).word a = if clearedFields.any (fun f => f.addr n 0 == a) then 0 else s.word a :=
  s.zeroed_word clearedFields n a

theorem State.clearCounts_zero (s : State) (n : Nat) {g : Fld} (hg : g ∈ clearedFields) : (s.clearCounts n).fget g n = 0 := by
  have hword : (s.clearCounts n).word (g.addr n 0) = 0 := by
    refine (s.clearCounts_word n _).trans (if_pos ?_)
    exact List.any_eq_true.mpr ⟨g, hg, beq_self_eq_true _⟩
  rw [State.fget, hword, getBits]
  simp

theorem State.clearCounts_tfatal (s : State) (n : Nat) {m : Nat} (hm : m < 4) :
    (s.clearCounts n).fget F.SAF_TFATAL_TENANT 0 m = s.fget F.SAF_TFATAL_TENANT 0 m := by
  have hlow : F.SAF_TFATAL_TENANT.addr 0 m < 0x40000 := by
    simp only [Fld.addr, F.SAF_TFATAL_TENANT]
    omega
  have hword : (s.clearCounts n).word (F.SAF_TFATAL_TENANT.addr 0 m) = s.word (F.SAF_TFATAL_TENANT.addr 0 m) := by
    rw [State.clearCounts_word, if_neg]
    rw [Bool.not_eq_true, List.any_eq_false]
    intro f hf
    have hbase : ∀ f ∈ clearedFields, 0x40000 ≤ f.base := by decide
    have hup : f.base ≤ f.addr n 0 := by
      rw [Fld.addr]
      omega
    have := hbase f hf
    simp only [beq_iff_eq]
    omega
  rw [State.fget, State.fget, hword]

theorem State.clearCounts_field {α : Type} (get : State → α) (hregs : ∀ (s : State) x, get { s with regs := x } = get s) (s : State) (n : Nat) :
    get (s.clearCounts n) = get s := by
  unfold State.clearCounts
  refine State.foldl_field get ?_ _ _
  exact fun _ _ => hregs _ _

/-! ## The tenant leaves its reset -/

/-- The time that a tenant reset has taken, in microseconds, at most what its register holds. -/
def State.resetTime (s : State) (t : Tenant) : Nat := min ((s.now - spGet 0 s.tns.at_ t.toNat) / usec 1) (2 ^ 31 - 1)

/-- The registers of a tenant that leaves its reset. -/
def State.backRegs (s : State) (t : Tenant) : State :=
  (((s.fset F.TNT_STATUS_STATE (if (s.cfg t).isSome then 1 else 0) t.toNat).fset F.TNT_STATUS_STEP 0 t.toNat).setFlag
    F.TNT_RST_TIME_VALID true t.toNat).fset F.TNT_RST_TIME_US (s.resetTime t) t.toNat

/-- The queue goes on. -/
def State.nextReset (s : State) (t : Tenant) : State :=
  let s2 := { s with tns := { s.tns with queue := s.tns.queue.tail, at_ := spErase t.toNat s.tns.at_, done := true } }
  match s2.tns.queue with
  | u :: _ => s2.setFlag F.TNT_STATUS_QUEUED false u.toNat
  | [] => { s2 with tns := { s2.tns with done := false } }

theorem State.tenantBack_eq (s : State) (t : Tenant) : s.tenantBack t = ((s.backRegs t).nextReset t).raise 18 Cls.resetDone (some t) := rfl

theorem State.backRegs_shows (s : State) (t : Tenant) :
    (s.backRegs t).fget F.TNT_STATUS_STATE t.toNat = (if (s.cfg t).isSome then 1 else 0) ∧ (s.backRegs t).fget F.TNT_STATUS_STEP t.toNat = 0 ∧
    (s.backRegs t).fget F.TNT_RST_TIME_VALID t.toNat = 1 ∧ (s.backRegs t).fget F.TNT_RST_TIME_US t.toNat = s.resetTime t := by
  have htime : s.resetTime t < 2 ^ 31 := Nat.lt_of_le_of_lt (Nat.min_le_right _ _) (by decide)
  have hstate : (if (s.cfg t).isSome then 1 else 0) < 2 ^ 2 := by
    split
    · decide
    · decide
  unfold State.backRegs
  generalize s.resetTime t = x at htime
  generalize (if (s.cfg t).isSome then 1 else 0) = y at hstate
  simp (disch := decide) only [State.setFlag, State.fget_fset_clear, State.fget_fset_same]
  exact ⟨Nat.mod_eq_of_lt hstate, rfl, rfl, Nat.mod_eq_of_lt htime⟩

theorem State.nextReset_field {α : Type} (get : State → α) (htns : ∀ (s : State) x, get { s with tns := x } = get s)
    (hqueued : ∀ (s : State) v n m, get (s.fset F.TNT_STATUS_QUEUED v n m) = get s) (s : State) (t : Tenant) : get (s.nextReset t) = get s := by
  unfold State.nextReset
  dsimp only
  split
  · exact (hqueued _ _ _ _).trans (htns _ _)
  · exact (htns _ _).trans (htns _ _)

theorem State.nextReset_tns (s : State) (t : Tenant) : (s.nextReset t).tns.queue = s.tns.queue.tail ∧ (s.nextReset t).tns.tol = s.tns.tol ∧
    (s.nextReset t).tns.staging = s.tns.staging := by
  unfold State.nextReset
  dsimp only
  split
  · next u rest hq => exact ⟨rfl, rfl, rfl⟩
  · next hq => exact ⟨rfl, rfl, rfl⟩

/-- Registers of tenants beside those of a tenant that leaves its reset, and the marks of fatal errors, stay. -/
theorem State.tenantBack_fget (s : State) (t : Tenant) {g : Fld} (n m : Nat)
    (hstay : ∀ f ∈ [F.TNT_STATUS_STATE, F.TNT_STATUS_STEP, F.TNT_RST_TIME_VALID, F.TNT_RST_TIME_US, F.TNT_STATUS_QUEUED, F.EVG_DROP_FULL],
      ∀ (u : State) v i j, (u.fset f v i j).fget g n m = u.fget g n m) : (s.tenantBack t).fget g n m = s.fget g n m := by
  rw [State.tenantBack_eq, State.raise_field (·.fget g n m) (fun _ _ => rfl) (hstay F.EVG_DROP_FULL (by simp))]
  refine (State.nextReset_field (·.fget g n m) (fun _ _ => rfl) (hstay F.TNT_STATUS_QUEUED (by simp)) _ _).trans ?_
  rw [State.backRegs, State.setFlag, hstay F.TNT_RST_TIME_US (by simp), hstay F.TNT_RST_TIME_VALID (by simp), hstay F.TNT_STATUS_STEP (by simp),
    hstay F.TNT_STATUS_STATE (by simp)]

theorem State.tenantBack_tns (s : State) (t : Tenant) : (s.tenantBack t).tns.queue = s.tns.queue.tail ∧ (s.tenantBack t).tns.tol = s.tns.tol ∧
    (s.tenantBack t).tns.staging = s.tns.staging := by
  have hregs : (s.backRegs t).tns = s.tns := by simp only [State.backRegs, State.fset_tns, State.setFlag_tns]
  rw [State.tenantBack_eq, State.raise_tns, ← hregs]
  exact (s.backRegs t).nextReset_tns t

theorem State.tenantBack_same {α : Type} (get : State → α) (hregs : ∀ (s : State) x, get { s with regs := x } = get s)
    (htns : ∀ (s : State) x, get { s with tns := x } = get s) (hsources : ∀ (s : State) x, get { s with sources := x } = get s) (s : State) (t : Tenant) :
    get (s.tenantBack t) = get s := by
  rw [State.tenantBack_eq, State.raise_field get hsources (fun _ _ _ _ => hregs _ _)]
  refine (State.nextReset_field get htns (fun _ _ _ _ => hregs _ _) _ _).trans ?_
  simp only [State.backRegs, State.setFlag, State.fset, State.setWord, hregs]

/-! ## CLEAR as a whole -/

/-- What CLEAR takes from the slices, the staging buffers, the marks of fatal errors and the tolerances. -/
def State.clearedOut (s : State) (t : Tenant) : State :=
  let s1 := (((s.stepStart t 6).clearSlices t).clearStaging (fun b => b.ten == t)).setTFatal t false
  { s1 with tns := { s1.tns with tol := spErase t.toNat s1.tns.tol } }

theorem State.clearedOut_field {α : Type} (get : State → α) (hslices : ∀ (s : State) x, get { s with slices := x } = get s)
    (hlogic : ∀ (s : State) x, get { s with logic := x } = get s) (hregs : ∀ (s : State) x, get { s with regs := x } = get s)
    (hstaging : ∀ (s : State) i b, get (s.setStg i b) = get s) (hdone : ∀ (s : State) b, get { s with tns := { s.tns with done := b } } = get s)
    (htol : ∀ (s : State) x, get { s with tns := { s.tns with tol := x } } = get s) (s : State) (t : Tenant) : get (s.clearedOut t) = get s := by
  unfold State.clearedOut
  refine (htol _ _).trans ((hregs _ _).trans ?_)
  rw [State.clearStaging_field get hstaging, State.clearSlices_field get hslices hlogic]
  exact (hregs _ _).trans (hdone _ _)

theorem State.clearedOut_shows (s : State) (t : Tenant) : spGet none (s.clearedOut t).tns.tol t.toNat = none ∧
    (∀ i, ((s.clearedOut t).stg i).used = true → ((s.clearedOut t).stg i).ten ≠ t) ∧
    (∀ k, k < 18 → ((s.clearedOut t).slice k).unreserved t) ∧
    ((s.clearedOut t).fget F.SAF_TFATAL_TENANT 0 (t.toNat / 32)).testBit (t.toNat % 32) = false := by
  unfold State.clearedOut
  refine ⟨?_, fun i hi => ?_, fun k hk => ?_, State.setTFatal_clear _ t⟩
  · rw [spGet_spErase, if_pos rfl]
  · have hgone := State.clearStaging_gone ((s.stepStart t 6).clearSlices t) (fun b => b.ten == t) i hi
    exact beq_eq_false_iff_ne.mp hgone
  · have hslice : ∀ u : State, (u.clearStaging (fun b => b.ten == t)).slice k = u.slice k :=
      fun u => State.clearStaging_field (·.slice k) (fun _ _ _ => rfl) u _
    have hclear := State.clearSlices_unreserved (s := s.stepStart t 6) (t := t) hk
    rw [← hslice] at hclear
    exact hclear

theorem State.tenantClear_eq (hmay : s.stepMay t 5 = true) (hheld : spGet none s.tns.held t.toNat = none) :
    s.tenantClear t = (((((s.clearedOut t).vectorsClear t).tenRegs t).clearCounts t.toNat).tenantBack t).umvLog 0x05 0 t 6 := by
  have hnone : spGet none (s.clearedOut t).tns.held t.toNat = none :=
    (State.clearedOut_field (fun s => spGet none s.tns.held t.toNat) (fun _ _ => rfl) (fun _ _ => rfl) (fun _ _ => rfl) (fun _ _ _ => rfl)
      (fun _ _ => rfl) (fun _ _ => rfl) s t).trans hheld
  unfold State.tenantClear
  rw [hmay, if_neg (by decide)]
  extract_lets n s1 tns s2 tnsHeld s3
  have hout : s2 = s.clearedOut t := rfl
  have hsame : s3 = s2 := by
    simp only [s3, hout, n]
    rw [hnone]
  rw [hsame, hout]

end

end Sys2Proof.Machine
end

section
/-! The statement about the steps of a tenant reset (12 R483 to R489). -/
namespace Sys2Proof.Machine

section
variable {s : State} {t : Tenant}

/-! ## What CLEAR leaves -/

/-- The state in which a tenant leaves its reset. -/
def State.clearedCounts (s : State) (t : Tenant) : State := (((s.clearedOut t).vectorsClear t).tenRegs t).clearCounts t.toNat

theorem State.clearedCounts_field {α : Type} (get : State → α) (hregs : ∀ (s : State) x, get { s with regs := x } = get s)
    (hvectors : ∀ (s : State) x, get { s with vectors := x } = get s) (s : State) (t : Tenant) :
    get (s.clearedCounts t) = get (s.clearedOut t) := by
  rw [State.clearedCounts, State.clearCounts_field get hregs, State.tenRegs_field get hregs,
    State.vectorsClear_field get (fun _ _ _ _ => hregs _ _) hvectors]

theorem State.clearedCounts_shows (s : State) (t : Tenant) : (s.clearedCounts t).cfg t = s.cfg t ∧ (s.clearedCounts t).resetTime t = s.resetTime t ∧
    (s.clearedCounts t).tns.queue = s.tns.queue ∧ (s.clearedCounts t).tns.tol = (s.clearedOut t).tns.tol ∧
    (s.clearedCounts t).tns.staging = (s.clearedOut t).tns.staging := by
  have hkeep {α : Type} (get : State → α) (hregs) (hvectors) := State.clearedCounts_field get hregs hvectors s t
  refine ⟨?_, ?_, ?_, hkeep (·.tns.tol) (fun _ _ => rfl) fun _ _ => rfl, hkeep (·.tns.staging) (fun _ _ => rfl) fun _ _ => rfl⟩
  · exact (hkeep (·.cfg t) (fun _ _ => rfl) fun _ _ => rfl).trans (State.clearedOut_field (·.cfg t) (fun _ _ => rfl) (fun _ _ => rfl)
      (fun _ _ => rfl) (fun _ _ _ => rfl) (fun _ _ => rfl) (fun _ _ => rfl) s t)
  · exact (hkeep (·.resetTime t) (fun _ _ => rfl) fun _ _ => rfl).trans (State.clearedOut_field (·.resetTime t) (fun _ _ => rfl) (fun _ _ => rfl)
      (fun _ _ => rfl) (fun _ _ _ => rfl) (fun _ _ => rfl) (fun _ _ => rfl) s t)
  · exact (hkeep (·.tns.queue) (fun _ _ => rfl) fun _ _ => rfl).trans (State.clearedOut_field (·.tns.queue) (fun _ _ => rfl) (fun _ _ => rfl)
      (fun _ _ => rfl) (fun _ _ _ => rfl) (fun _ _ => rfl) (fun _ _ => rfl) s t)

/-- The marks of fatal errors below the registers of the tenants. -/
theorem State.clearedCounts_tfatal (s : State) (t : Tenant) {m : Nat} (hm : m < 4) :
    (s.clearedCounts t).fget F.SAF_TFATAL_TENANT 0 m = (s.clearedOut t).fget F.SAF_TFATAL_TENANT 0 m := by
  have hset (u : State) {f : Fld} (hf : 0x40000 ≤ f.base) (x n i : Nat) :
      (u.fset f x n i).fget F.SAF_TFATAL_TENANT 0 m = u.fget F.SAF_TFATAL_TENANT 0 m :=
    State.fget_fset_apart u _ _ _ _ _ (Fld.apart_tfatal hf hm) (by decide)
  have hdrop (u : State) (x n i : Nat) : (u.fset F.EVG_DROP_DISC x n i).fget F.SAF_TFATAL_TENANT 0 m = u.fget F.SAF_TFATAL_TENANT 0 m := by
    refine State.fget_fset_other u _ _ _ _ _ _ _ (.inl ?_) (by decide)
    simp only [Fld.addr, F.EVG_DROP_DISC, F.SAF_TFATAL_TENANT]
    omega
  rw [State.clearedCounts, State.clearCounts_tfatal _ _ hm]
  refine Eq.trans ?_ (State.vectorsClear_field (·.fget F.SAF_TFATAL_TENANT 0 m) hdrop (fun _ _ => rfl) (s.clearedOut t) t)
  rw [State.tenRegs, State.setFlag, State.setFlag, hset _ (by decide), hset _ (by decide), hset _ (by decide), hset _ (by decide), hset _ (by decide)]

theorem State.clearedCounts_cleared (s : State) (t : Tenant) {v : Nat} (hv : v < 8) : ((s.clearedCounts t).vec (8 * t.toNat + v)).cleared := by
  have hkeep : (s.clearedCounts t).vec (8 * t.toNat + v) = ((s.clearedOut t).vectorsClear t).vec (8 * t.toNat + v) := by
    rw [State.clearedCounts, State.clearCounts_field (·.vec (8 * t.toNat + v)) (fun _ _ => rfl),
      State.tenRegs_field (·.vec (8 * t.toNat + v)) (fun _ _ => rfl)]
  rw [hkeep]
  exact State.vectorsClear_cleared hv

theorem State.umvLog_fget_above (s : State) (c u : Nat) (t : Tenant) (d : Nat) {g : Fld} (i j : Nat) (ha : 0x3000 ≤ g.addr i j)
    (hg : g.lsb + g.wid ≤ 32) : (s.umvLog c u t d).fget g i j = s.fget g i j := by
  refine State.umvLog_fget s c u t d g i j ?_ hg
  have hne : 0x2028 ≠ g.addr i j := by omega
  simp [Fld.allApart, Fld.apart, F.WDG_LOG_SEL_HEAD, hne]

theorem State.raise_fget_tfatal (s : State) (x c : Nat) (o : Option Tenant) {m : Nat} (hm : m < 4) :
    (s.raise x c o).fget F.SAF_TFATAL_TENANT 0 m = s.fget F.SAF_TFATAL_TENANT 0 m := by
  refine State.raise_field (·.fget F.SAF_TFATAL_TENANT 0 m) (fun _ _ => rfl) (fun u v i j => ?_) s x c o
  refine State.fget_fset_other u _ _ _ _ _ _ _ (.inl ?_) (by decide)
  simp only [Fld.addr, F.EVG_DROP_FULL, F.SAF_TFATAL_TENANT]
  omega

/-- The registers that the end of a reset sets read as set, and the counters cleared before read zero. -/
theorem State.tenantBack_shows (s : State) (t : Tenant) :
    (s.tenantBack t).fget F.TNT_STATUS_STATE t.toNat = (if (s.cfg t).isSome then 1 else 0) ∧ (s.tenantBack t).fget F.TNT_STATUS_STEP t.toNat = 0 ∧
    (s.tenantBack t).fget F.TNT_RST_TIME_VALID t.toNat = 1 ∧ (s.tenantBack t).fget F.TNT_RST_TIME_US t.toNat = s.resetTime t ∧
    (s.tenantBack t).fget F.TNT_ACC_CNT_COUNT t.toNat = s.fget F.TNT_ACC_CNT_COUNT t.toNat ∧
    (s.tenantBack t).fget F.TNT_ACC_LAST1_VALID t.toNat = s.fget F.TNT_ACC_LAST1_VALID t.toNat ∧
    (s.tenantBack t).fget F.TNT_STG_ERRCNT_STALE t.toNat = s.fget F.TNT_STG_ERRCNT_STALE t.toNat := by
  have hregs {g : Fld} (hbase : 0x40000 ≤ g.base) (hq : F.TNT_STATUS_QUEUED.clear g = true) (hg : g.lsb + g.wid ≤ 32) :
      (s.tenantBack t).fget g t.toNat = (s.backRegs t).fget g t.toNat := by
    rw [State.tenantBack_eq, State.raise_fget_tnt _ _ _ hbase hg]
    exact State.nextReset_field (·.fget g t.toNat) (fun _ _ => rfl) (fun u v n m => State.fget_fset_clear u v n m _ _ hq hg) _ _
  obtain ⟨hstate, hstep, hvalid, hus⟩ := s.backRegs_shows t
  refine ⟨(hregs (by decide) (by decide) (by decide)).trans hstate, (hregs (by decide) (by decide) (by decide)).trans hstep,
    (hregs (by decide) (by decide) (by decide)).trans hvalid, (hregs (by decide) (by decide) (by decide)).trans hus, ?_, ?_, ?_⟩ <;>
  rw [hregs (by decide) (by decide) (by decide), State.backRegs] <;>
  simp (disch := decide) only [State.setFlag, State.fget_fset_clear]

theorem State.tenantBack_tfatal (s : State) (t : Tenant) {m : Nat} (hm : m < 4) :
    (s.tenantBack t).fget F.SAF_TFATAL_TENANT 0 m = s.fget F.SAF_TFATAL_TENANT 0 m := by
  have hset (u : State) {f : Fld} (hf : 0x40000 ≤ f.base) (x n i : Nat) :
      (u.fset f x n i).fget F.SAF_TFATAL_TENANT 0 m = u.fget F.SAF_TFATAL_TENANT 0 m :=
    State.fget_fset_apart u _ _ _ _ _ (Fld.apart_tfatal hf hm) (by decide)
  rw [State.tenantBack_eq, State.raise_fget_tfatal _ _ _ _ hm]
  refine (State.nextReset_field (·.fget F.SAF_TFATAL_TENANT 0 m) (fun _ _ => rfl) (fun u x n i => hset u (by decide) x n i) _ _).trans ?_
  rw [State.backRegs, State.setFlag, hset _ (by decide), hset _ (by decide), hset _ (by decide), hset _ (by decide)]

theorem State.tenantClear_shows (hmay : s.stepMay t 5 = true) (hheld : spGet none s.tns.held t.toNat = none) :
    (s.tenantClear t).fget F.TNT_STATUS_STATE t.toNat = (if (s.cfg t).isSome then 1 else 0) ∧
    (s.tenantClear t).fget F.TNT_STATUS_STEP t.toNat = 0 ∧ (s.tenantClear t).tns.queue = s.tns.queue.tail ∧
    (s.tenantClear t).flag F.TNT_RST_TIME_VALID t.toNat = true ∧
    (s.tenantClear t).fget F.TNT_RST_TIME_US t.toNat = min ((s.now - spGet 0 s.tns.at_ t.toNat) / usec 1) (2 ^ 31 - 1) ∧
    spGet none (s.tenantClear t).tns.tol t.toNat = none ∧
    (∀ i, ((s.tenantClear t).stg i).used = true → ((s.tenantClear t).stg i).ten ≠ t) ∧
    (∀ k, k < 18 → ∀ r ∈ ((s.tenantClear t).slice k).rsv, r.ten ≠ t) ∧
    ((s.tenantClear t).fget F.SAF_TFATAL_TENANT 0 (t.toNat / 32)).testBit (t.toNat % 32) = false ∧
    (s.tenantClear t).fget F.TNT_ACC_CNT_COUNT t.toNat = 0 ∧ (s.tenantClear t).flag F.TNT_ACC_LAST1_VALID t.toNat = false ∧
    (s.tenantClear t).fget F.TNT_STG_ERRCNT_STALE t.toNat = 0 ∧
    (∀ v, v < 8 → ((s.tenantClear t).vec (8 * t.toNat + v)).pend = false ∧ ((s.tenantClear t).vec (8 * t.toNat + v)).out = none ∧
      ((s.tenantClear t).vec (8 * t.toNat + v)).seq = 0) := by
  have hm : t.toNat / 32 < 4 := by omega
  obtain ⟨htol, hstg, hrsv, hmark⟩ := s.clearedOut_shows t
  obtain ⟨hcfg, htime, hqueue, hctol, hcstg⟩ := s.clearedCounts_shows t
  have hslice (k : Nat) : (s.clearedCounts t).slice k = (s.clearedOut t).slice k :=
    State.clearedCounts_field (·.slice k) (fun _ _ => rfl) (fun _ _ => rfl) s t
  have hcmark := s.clearedCounts_tfatal t hm
  have hvec := fun v => s.clearedCounts_cleared t (v := v)
  have hzero {g : Fld} (hg : g ∈ clearedFields) : (s.clearedCounts t).fget g t.toNat = 0 := State.clearCounts_zero _ _ hg
  rw [State.tenantClear_eq hmay hheld, ← State.clearedCounts]
  generalize s.clearedCounts t = w at hcfg htime hqueue hctol hcstg hslice hcmark hvec hzero
  obtain ⟨hstate, hstep, hvalid, hus, hcount, hlast, hstale⟩ := w.tenantBack_shows t
  obtain ⟨hbqueue, hbtol, hbstg⟩ := w.tenantBack_tns t
  have hbmark := w.tenantBack_tfatal t hm
  have hbslice (k : Nat) : (w.tenantBack t).slice k = w.slice k :=
    State.tenantBack_same (·.slice k) (fun _ _ => rfl) (fun _ _ => rfl) (fun _ _ => rfl) w t
  have hbvec (n : Nat) : (w.tenantBack t).vec n = w.vec n :=
    State.tenantBack_same (·.vec n) (fun _ _ => rfl) (fun _ _ => rfl) (fun _ _ => rfl) w t
  generalize w.tenantBack t = x at hstate hstep hvalid hus hcount hlast hstale hbqueue hbtol hbstg hbmark hbslice hbvec
  have hlog {g : Fld} (hbase : 0x3000 ≤ g.base) (hg : g.lsb + g.wid ≤ 32) (i j : Nat) : (x.umvLog 0x05 0 t 6).fget g i j = x.fget g i j :=
    State.umvLog_fget_above x _ _ _ _ i j (by rw [Fld.addr]; omega) hg
  have hstgAll (i : Nat) : (x.umvLog 0x05 0 t 6).stg i = (s.clearedOut t).stg i := by
    rw [State.stg, State.stg, State.umvLog_tns, hbstg, hcstg]
  have hvecAll (n : Nat) : (x.umvLog 0x05 0 t 6).vec n = w.vec n := by rw [State.vec, State.umvLog_vectors, ← hbvec, State.vec]
  refine ⟨?_, ?_, ?_, ?_, ?_, ?_, fun i => ?_, fun k hk => ?_, ?_, ?_, ?_, ?_, fun v hv => ?_⟩
  · rw [hlog (by decide) (by decide), hstate, hcfg]
  · rw [hlog (by decide) (by decide), hstep]
  · rw [State.umvLog_tns, hbqueue, hqueue]
  · rw [State.flag, hlog (by decide) (by decide), hvalid]
    rfl
  · rw [hlog (by decide) (by decide), hus, htime, State.resetTime]
  · rw [State.umvLog_tns, hbtol, hctol, htol]
  · rw [hstgAll]
    exact hstg i
  · rw [State.umvLog_slice, hbslice, hslice]
    exact hrsv k hk
  · rw [hlog (by decide) (by decide), hbmark, hcmark, hmark]
  · rw [hlog (by decide) (by decide), hcount, hzero (by decide)]
  · rw [State.flag, hlog (by decide) (by decide), hlast, hzero (by decide)]
    rfl
  · rw [hlog (by decide) (by decide), hstale, hzero (by decide)]
  · rw [hvecAll]
    exact hvec v hv

/-! ## The steps before CLEAR -/

theorem State.tenantInvalidate_shows (hmay : s.stepMay t 2 = true) (hempty : ∀ k ∈ s.actives, (s.slice k).sf = [] ∧ (s.slice k).census = []) :
    (s.tenantInvalidate t).fget F.TNT_STATUS_STEP t.toNat = 3 ∧ (s.tenantInvalidate t).tns.done = false ∧
    ∀ k ∈ s.actives, (s.tenantInvalidate t).slice k = (s.slice k).scanned := by
  obtain ⟨hstep, hdone, hslices, -, -, -⟩ := s.stepStart_shows t (c := 3) (by decide)
  obtain ⟨hin, -, x, hx⟩ := State.invBegin_all (t := t) s.actives s.actives_nodup (s.stepStart t 3)
    (fun k hk => by rw [State.slice_congr hslices]; exact hempty k hk)
  rw [State.tenantInvalidate_eq hmay]
  refine ⟨?_, ?_, fun k hk => ?_⟩
  · rw [hx]
    exact hstep
  · rw [hx]
    exact hdone
  · rw [hin k hk, State.slice_congr hslices]

theorem Slice.scanned_shows (c : Slice) (h : c.pwr ≠ .deep) : c.scanned.inv = none ∧ (c.pwr = .sleep → c.scanned.waking = true) := by
  rw [Slice.scanned, if_neg h]
  exact ⟨rfl, fun hsleep => if_pos hsleep⟩

theorem State.tenantRevoke_shows {l i : Nat} {e : ClampEnt} (hmay : s.stepMay t 4 = true) (hn : s.pat.nActive = l + 1)
    (hents : (s.bank l).ents = [(i, e)]) (hst : e.st ≠ .free) (hten : e.ten = t) : (s.tenantRevoke t).fget F.TNT_STATUS_STEP t.toNat = 5 ∧
    (s.tenantRevoke t).ent l i = { ClampEnt.zero with gen := e.gen + 1 } := by
  obtain ⟨hstep, -, -, hbanks, -, -⟩ := s.stepStart_shows t (c := 5) (by decide)
  have hbank := State.bank_congr hbanks l
  rw [State.tenantRevoke, if_pos hmay, hn]
  generalize s.stepStart t 5 = w at hstep hbank
  refine ⟨?_, ?_⟩
  · refine (State.forUp_field (·.fget F.TNT_STATUS_STEP t.toNat) ?_ (l + 1) 0 w).trans hstep
    exact fun j u => (u.clampRevoke_leaves j t t.toNat).1
  · exact forUp_reaches (get := fun u : State => u.bank l) (p := fun b => b.ents = [(i, e)])
      (q := fun b => spGet ClampEnt.zero b.ents i = { ClampEnt.zero with gen := e.gen + 1 })
      (fun j u hj => (u.clampRevoke_leaves j t 0).2 l hj.symm) (fun u hu => State.clampRevoke_frees hu hst hten) (l + 1) 0 w (by omega) (by omega)
      ((congrArg Bank.ents hbank).trans hents)

end

/-- Settles O43: the first tenant of the queue goes from step to step, and CLEAR restores it. -/
theorem tenantResetSteps : Obligations.TenantResetSteps := by
  unfold Obligations.TenantResetSteps
  refine fun s t hup hhead hruns hsafe => ⟨fun hdone => ?_, fun hdone => ?_⟩
  · have hmay {n : Nat} (hstep : s.fget F.TNT_STATUS_STEP t.toNat = n) : s.stepMay t n = true := State.stepMay_of hhead hstep hdone hruns hsafe
    refine ⟨fun hstep => ?_, fun hstep hempty => ?_, fun hstep hctx => ?_, fun hstep hctx => ?_, fun l i e hstep hn hents hst hten _ => ?_,
      fun hstep hheld _ => ?_, ?_⟩
    · obtain ⟨hnext, hrun, -, -, -, -⟩ := s.stepStart_shows t (c := 2) (by decide)
      refine ⟨(next_run hup _).trans ?_, hnext, hrun⟩
      rw [State.tenantDrain, if_pos (hmay hstep)]
    · obtain ⟨hnext, hrun, hslice⟩ := State.tenantInvalidate_shows (hmay hstep) hempty
      refine ⟨s.tenantInvalidate t, next_run hup _, hnext, hrun, fun k hk hdeep => ?_⟩
      rw [hslice k hk]
      exact (s.slice k).scanned_shows hdeep
    · obtain ⟨hnext, hrun, hslices, -, -, hactives⟩ := s.stepStart_shows t (c := 4) (by decide)
      obtain ⟨htns, hfget, hctx1⟩ := (s.stepStart t 4).startCtx1_shows t 0xFFFF
      have heq : s.tenantClean t = (s.stepStart t 4).startCtx1 t 0xFFFF := if_pos (by rw [hmay hstep, hctx]; rfl)
      refine ⟨s.tenantClean t, next_run hup _, ?_, ?_, fun ⟨k, hk, hdeep⟩ => ?_⟩
      · rw [heq, hfget, hnext]
      · rw [heq, htns, hrun]
      · rw [heq]
        exact hctx1 ⟨k, hactives ▸ hk, by rw [State.slice_congr hslices]; exact hdeep⟩
    · have heq : s.tenantClean t = s := if_neg (by simp [hctx])
      refine (next_run hup _).trans ?_
      rw [heq]
    · obtain ⟨hnext, hent⟩ := State.tenantRevoke_shows (hmay hstep) hn hents hst hten
      exact ⟨s.tenantRevoke t, next_run hup _, hnext, hent⟩
    · exact ⟨s.tenantClear t, next_run hup _, State.tenantClear_shows (hmay hstep) hheld⟩
    · refine (next_run hup _).trans ?_
      rw [State.tenantStepEnd_waits (.inl hdone)]
  · have hstay (n : Nat) := State.stepMay_running (t := t) hdone n
    refine ⟨fun hover => ⟨s.tenantStepEnd t, next_run hup _, ?_⟩, fun k j x hstep hk hx hclient hten => ?_, ?_, ?_⟩
    · have hends : s.stepOver t = true := by
        rcases hover with hstep | ⟨hstep, hempty⟩
        · rw [State.stepOver, hstep]
          rfl
        · rw [State.stepOver, hstep]
          exact State.tenDrained_empty hempty
      rw [State.tenantStepEnd_over hhead hdone hends, State.umvLog_tns]
      exact ⟨rfl, State.umvLog_fget_above _ _ _ _ _ _ _ (by simp only [Fld.addr, F.TNT_STATUS_STEP]; omega) (by decide)⟩
    · have hwaits : s.stepOver t = false := by
        rw [State.stepOver, hstep]
        exact State.tenDrained_held hk hx hclient hten
      refine (next_run hup _).trans ?_
      rw [State.tenantStepEnd_waits (.inr hwaits)]
    · refine (next_run hup _).trans ?_
      rw [State.tenantDrain, hstay, if_neg Bool.false_ne_true]
    · refine (next_run hup _).trans ?_
      rw [State.tenantClear, hstay, if_pos (by decide)]

end Sys2Proof.Machine
end

section
/-!
SUPPORT. Seizure notices and the end of a command. Only timeouts send a SeizeNotice (06 R235, R237), so nothing that follows a command
at once starts the timer of a copy with that opcode: a tracker beyond those that the Shed gives out stays `quiet`, one law for each
operation of `settle`. Here messages, reports, arrays, windows and the home cache.
-/
namespace Sys2Proof.Machine

/-! ## Quiet trackers -/

/-- No timer of a seizure notice runs in a transaction. -/
def Txn.quiet (x : Txn) : Prop := ∀ c ∈ x.copies, c.op = Op.seizeNotice → c.deadline = 0

/-- Tracker `t` of slice `k` is beyond those that the Shed gives out, and no timer of a seizure notice runs there. -/
def State.quiet (s : State) (k t : Nat) : Prop := 1024 ≤ t ∧ ∀ x, s.txn k t = some x → x.quiet

theorem Txn.quiet.copies {x y : Txn} (h : x.quiet) (hy : y.copies = x.copies) : y.quiet := fun c hc => h c (hy ▸ hc)

theorem Txn.quiet.append {x y : Txn} (h : x.quiet) {l : List Copy} (hy : y.copies = x.copies ++ l) (hl : ∀ c ∈ l, c.deadline = 0) : y.quiet := by
  intro c hc hop
  rw [hy] at hc
  rcases List.mem_append.mp hc with hc | hc
  · exact h c hc hop
  · exact hl c hc

section
variable {s u : State} {k t : Nat}

theorem State.quiet.same (h : s.quiet k t) (hu : u.slices = s.slices) : u.quiet k t :=
  ⟨h.1, fun x hx => h.2 x (State.txn_congr hu k t ▸ hx)⟩

/-- A choice between two ways. -/
theorem State.quiet.ite {c : Prop} [Decidable c] (hs : s.quiet k t) (hu : u.quiet k t) : (if c then s else u).quiet k t := by
  split
  · exact hs
  · exact hu

theorem State.quiet.forUp (h : s.quiet k t) {f : Nat → State → State} (hf : ∀ i u, State.quiet u k t → (f i u).quiet k t) {n i : Nat} :
    (forUp f i n s).quiet k t := by
  induction n generalizing i s with
  | zero => exact h
  | succ n ih => exact ih (hf i s h)

theorem State.quiet.foldl (h : s.quiet k t) {α : Type} {f : State → α → State} (hf : ∀ u a, State.quiet u k t → (f u a).quiet k t) {l : List α} :
    (l.foldl f s).quiet k t := by
  induction l generalizing s with
  | nil => exact h
  | cons a l ih => exact ih (hf s a h)

theorem State.quiet.foldlPair (h : s.quiet k t) {α β : Type} {f : β × State → α → β × State} {b : β}
    (hf : ∀ b u a, State.quiet u k t → (f (b, u) a).2.quiet k t) {l : List α} : (l.foldl f (b, s)).2.quiet k t := by
  induction l generalizing s b with
  | nil => exact h
  | cons a l ih => exact ih (s := (f (b, s) a).2) (b := (f (b, s) a).1) (hf b s a h)

/-! ## Slices and trackers -/

theorem State.txn_setSlice (s : State) (j : Nat) (c : Slice) : (s.setSlice j c).txn k t = if j = k then spGet none c.trk t else s.txn k t := by
  unfold State.txn State.slice State.setSlice
  rw [spGet_spSet]
  split
  · rfl
  · rfl

/-- A slice changed in what it does not hold in its trackers, or with its trackers emptied. -/
theorem State.quiet.modSliceOf (h : s.quiet k t) {j : Nat} {f : Slice → Slice} (hf : (f (s.slice j)).trk = (s.slice j).trk ∨ (f (s.slice j)).trk = []) :
    (s.modSlice j f).quiet k t := by
  refine ⟨h.1, fun x hx => ?_⟩
  rw [State.modSlice, State.txn_setSlice] at hx
  split at hx
  · next hj =>
    subst hj
    rcases hf with hf | hf
    · exact h.2 x ((congrArg (spGet none · t) hf).symm.trans hx)
    · simp [hf, spGet] at hx
  · exact h.2 x hx

theorem State.quiet.modSlice (h : s.quiet k t) {j : Nat} {f : Slice → Slice} (hf : (f (s.slice j)).trk = (s.slice j).trk) :
    (s.modSlice j f).quiet k t := h.modSliceOf (.inl hf)

theorem State.quiet.emptied (h : s.quiet k t) {j : Nat} {f : Slice → Slice} (hf : (f (s.slice j)).trk = []) :
    (s.modSlice j f).quiet k t := h.modSliceOf (.inr hf)

/-- A tracker written: the transaction of the quiet tracker itself must be quiet. -/
theorem State.quiet.setTxn (h : s.quiet k t) {j i : Nat} {o : Option Txn} (ho : j = k → i = t → ∀ y, o = some y → y.quiet) :
    (s.setTxn j i o).quiet k t := by
  refine ⟨h.1, fun x hx => ?_⟩
  rw [State.setTxn, State.modSlice, State.txn_setSlice] at hx
  split at hx
  · next hj =>
    rw [spGet_spSet] at hx
    split at hx
    · next hi => exact ho hj hi x hx
    · exact h.2 x (by rw [State.txn, ← hj]; exact hx)
  · exact h.2 x hx

theorem State.quiet.freeTxn (h : s.quiet k t) {j i : Nat} : (s.setTxn j i none).quiet k t := h.setTxn fun _ _ _ hy => nomatch hy

/-- A transaction read from a quiet state and written back with copies that stay quiet. -/
theorem State.quiet.putTxn (h : u.quiet k t) (hs : s.quiet k t) {j i : Nat} {x y : Txn} (hx : s.txn j i = some x) (hy : x.quiet → y.quiet) :
    (u.setTxn j i (some y)).quiet k t := by
  refine h.setTxn fun hj hi z hz => ?_
  subst hj hi
  exact Option.some.inj hz ▸ hy (hs.2 x hx)

theorem State.quiet.modTxnOf (h : s.quiet k t) {j i : Nat} {f : Txn → Txn} (hf : ∀ x, x.quiet → (f x).quiet) : (s.modTxn j i f).quiet k t := by
  unfold State.modTxn
  split
  · next x hx => exact h.putTxn h hx (hf x)
  · exact h

theorem State.quiet.modTxn (h : s.quiet k t) {j i : Nat} {f : Txn → Txn} (hf : ∀ x, (f x).copies = x.copies) :
    (s.modTxn j i f).quiet k t := h.modTxnOf fun x hx => hx.copies (hf x)

/-! ## Registers, ports and reactions -/

theorem State.quiet.fset (h : s.quiet k t) {f : Fld} {v n m : Nat} : (s.fset f v n m).quiet k t := h.same rfl
theorem State.quiet.setFlag (h : s.quiet k t) {f : Fld} {b : Bool} {n m : Nat} : (s.setFlag f b n m).quiet k t := h.same rfl
theorem State.quiet.bump (h : s.quiet k t) {f : Fld} {n m : Nat} : (s.bump f n m).quiet k t := h.same rfl
theorem State.quiet.bumpBy (h : s.quiet k t) {f : Fld} {v n m : Nat} : (s.bumpBy f v n m).quiet k t := h.same rfl
theorem State.quiet.wrapInc (h : s.quiet k t) {f : Fld} {n m : Nat} : (s.wrapInc f n m).quiet k t := h.same rfl
theorem State.quiet.modPort (h : s.quiet k t) {p : Nat} {f : Port → Port} : (s.modPort p f).quiet k t := h.same rfl
theorem State.quiet.modLsl (h : s.quiet k t) {l : Nat} {f : LogSlice → LogSlice} : (s.modLsl l f).quiet k t := h.same rfl
theorem State.quiet.modVec (h : s.quiet k t) {n : Nat} {f : EvVector → EvVector} : (s.modVec n f).quiet k t := h.same rfl
theorem State.quiet.modBank (h : s.quiet k t) {l : Nat} {f : Bank → Bank} : (s.modBank l f).quiet k t := h.same rfl
theorem State.quiet.modUmv (h : s.quiet k t) {f : Umv → Umv} : (s.modUmv f).quiet k t := h.same rfl
theorem State.quiet.setRole (h : s.quiet k t) {j : Nat} {r : SliceRole} : (s.setRole j r).quiet k t := h.same rfl
theorem State.quiet.setEnt (h : s.quiet k t) {l i : Nat} {e : ClampEnt} : (s.setEnt l i e).quiet k t := h.same rfl
theorem State.quiet.freeEnt (h : s.quiet k t) {l i : Nat} : (s.freeEnt l i).quiet k t := h.same rfl
theorem State.quiet.winDone (h : s.quiet k t) {l : Nat} {m r : Msg} : (s.winDone l m r).quiet k t := h.same rfl
theorem State.quiet.winUnexecuted (h : s.quiet k t) {l : Nat} {m r : Msg} : (s.winUnexecuted l m r).quiet k t := h.same rfl
theorem State.quiet.winLose (h : s.quiet k t) {l : Nat} {m : Msg} : (s.winLose l m).quiet k t := h.same rfl
theorem State.quiet.winLoseAll (h : s.quiet k t) {l : Nat} : (s.winLoseAll l).quiet k t := h.same rfl
theorem State.quiet.setFresh (h : s.quiet k t) {n : Nat} : State.quiet { s with fresh := n } k t := h.same rfl
theorem State.quiet.react (h : s.quiet k t) {r : Reaction} : (s.react r).quiet k t := h.same rfl
theorem State.quiet.winOpen (h : s.quiet k t) {l : Nat} {m : Msg} : (s.winOpen l m).quiet k t := h.same (State.winOpen_slices _ _ _)
theorem State.quiet.raise (h : s.quiet k t) {i c : Nat} {o : Option Tenant} : (s.raise i c o).quiet k t := h.same (State.raise_slices _ _ _ _)
theorem State.quiet.raiseSafety (h : s.quiet k t) {i : Nat} : (s.raiseSafety i).quiet k t := h.raise
theorem State.quiet.logEntry (h : s.quiet k t) {e : LogEntry} : (s.logEntry e).quiet k t := h.same (State.logEntry_slices _ _)
theorem State.quiet.enterSafe (h : s.quiet k t) {c : BitVec 8} : (s.enterSafe c).quiet k t := h.same (State.enterSafe_slices _ _)
theorem State.quiet.corrected (h : s.quiet k t) {c d : BitVec 8} {o : Option Tenant} {a : Option Addr} : (s.corrected c d o a).quiet k t :=
  h.same (State.corrected_slices _ _ _ _ _)
theorem State.quiet.deferred (h : s.quiet k t) {c d : BitVec 8} {o : Option Tenant} {a : Option Addr} {i : Option Nat} :
    (s.deferred c d o a i).quiet k t := h.same (State.deferred_slices _ _ _ _ _ _)
theorem State.quiet.setTFatal (h : s.quiet k t) {n : Tenant} {b : Bool} : (s.setTFatal n b).quiet k t := h.same (State.setTFatal_slices _ _ _)
theorem State.quiet.umvLog (h : s.quiet k t) {c d : Nat} {n : Tenant} {e : Nat} : (s.umvLog c d n e).quiet k t := h.same (State.umvLog_slices _ _ _ _ _)

/-! ## Messages -/

theorem State.quiet.startTimer (h : s.quiet k t) {m : Msg} (hm : m.op ≠ Op.seizeNotice) : (s.startTimer m).quiet k t := by
  unfold State.startTimer
  split
  · exact h
  · dsimp only
    split
    · exact h
    · next x hx =>
      split
      · refine h.putTxn h hx fun hq c hc hop => ?_
        obtain ⟨d, hd, rfl⟩ := List.mem_map.mp hc
        split at hop
        · next hhit =>
          simp only [Bool.and_eq_true, beq_iff_eq] at hhit
          exact absurd (hhit.1.1.1.2.symm.trans hop) hm
        · next hno =>
          rw [if_neg hno]
          exact hq d hd hop
      · exact h

theorem State.quiet.send (h : s.quiet k t) {m : Msg} (hm : m.op ≠ Op.seizeNotice) : (s.send m).quiet k t := by
  unfold State.send
  split
  · exact h.modPort
  · exact h.bump.startTimer hm

theorem State.quiet.sendMk (h : s.quiet k t) {op : BitVec 8} {n : Tenant} {src dst : Node} {g : Tag} {htx : BitVec 5} {f : BitVec 13} {r : Bool}
    {p : BitVec 16} {b : List Slot} (hop : op ≠ Op.seizeNotice) : (s.send (mkMsg op n src dst g htx f r p b)).quiet k t := h.send hop

theorem State.quiet.notice (h : s.quiet k t) {n : Notice} : (s.notice n).quiet k t := by
  unfold State.notice
  split
  · exact h
  · exact h.wrapInc.sendMk (by decide)

theorem State.quiet.toMemory (h : s.quiet k t) {a : Addr} {mk : Addr → Node → Msg} (hm : ∀ b n, (mk b n).op ≠ Op.seizeNotice) :
    (s.toMemory a mk).quiet k t := by
  unfold State.toMemory
  split
  · exact h
  · exact h.send (hm _ _)

/-! ## Errors, the Jig and events -/

theorem State.quiet.safeCause (h : s.quiet k t) {c d : BitVec 8} : (s.safeCause c d).quiet k t := h.ite h.logEntry.notice.enterSafe

theorem State.quiet.contained (h : s.quiet k t) {c d : BitVec 8} {n : Tenant} {a : Option Addr} {i : Option Nat} :
    (s.contained c d n a i).quiet k t := by
  unfold State.contained
  extract_lets s1 s2 s3 s4 s5
  have h2 : s2.quiet k t := State.quiet.logEntry h.bump
  have h3 : s3.quiet k t := by
    unfold s3
    split
    · exact h2.raise
    · exact h2
  have h5 : s5.quiet k t := h3.raiseSafety.setFlag.notice.setTFatal
  exact h5.react.ite h5

theorem State.quiet.containedNone (h : s.quiet k t) {c d : BitVec 8} {a : Option Addr} : (s.containedNone c d a).quiet k t :=
  State.quiet.raiseSafety (State.quiet.notice (State.quiet.setFlag (State.quiet.logEntry h.bump)))

theorem State.quiet.containedMask (h : s.quiet k t) {c d : BitVec 8} {m : BitVec 128} {a : Option Addr} {i : Option Nat} :
    (s.containedMask c d m a i).quiet k t := by
  unfold State.containedMask
  split
  · exact h.containedNone
  · exact h.forUp fun _ _ hu => hu.contained.ite hu

theorem State.jigFire_slices (s : State) (c : Nat) (r : JigRun) : (s.jigFire c r).slices = s.slices := by
  unfold State.jigFire
  dsimp only
  split
  · rfl
  · rfl

theorem State.quiet.jigRead (h : s.quiet k t) {kind n : Nat} {a : Option Addr} : (s.jigRead kind n a).2.quiet k t := by
  unfold State.jigRead
  split
  · exact h
  · refine h.foldlPair fun b u c hu => ?_
    dsimp only
    split
    · exact hu
    · split
      · split
        · exact hu.same (State.jigFire_slices _ _ _)
        · exact hu.same rfl
      · exact hu

theorem State.quiet.jigDisarm (h : s.quiet k t) {c : Nat} {o : Option Nat} : (s.jigDisarm c o).quiet k t := by
  unfold State.jigDisarm
  split
  · exact h
  · dsimp only
    split
    · exact h.same rfl
    · exact h.same rfl

theorem State.quiet.jigDisarmAll (h : s.quiet k t) {c : Nat} : (s.jigDisarmAll c).quiet k t := h.forUp fun _ _ hu => hu.jigDisarm

theorem State.quiet.jigSliceGone (h : s.quiet k t) {j : Nat} : (s.jigSliceGone j).quiet k t := h.forUp fun _ _ hu => hu.jigDisarm.ite hu

theorem State.quiet.deliver (h : s.quiet k t) {n : Nat} : (s.deliver n).quiet k t := by
  unfold State.deliver
  extract_lets v bypass m s1
  have h1 : s1.quiet k t := h.modVec.sendMk (by decide)
  exact (h1.forUp fun _ _ hu => hu.modVec).ite h1

theorem State.quiet.evgServe (h : s.quiet k t) : s.evgServe.quiet k t := by
  unfold State.evgServe
  split
  · exact h
  · exact h.foldl fun _ _ hu => hu.deliver.ite hu

theorem State.quiet.evgDiscard (h : s.quiet k t) {n : Nat} : (s.evgDiscard n).quiet k t := h.modVec.bump.ite h

theorem State.quiet.vectorsOverlay (h : s.quiet k t) {n : Tenant} : (s.vectorsOverlay n).quiet k t := by
  unfold State.vectorsOverlay
  refine State.quiet.evgServe (h.forUp fun v u hu => ?_)
  exact State.quiet.ite hu.modVec (State.quiet.evgDiscard hu.modVec)

/-! ## The snoop filter -/

theorem State.quiet.setLoose (h : s.quiet k t) {j n : Nat} : (s.setLoose j n).quiet k t := h.modSlice (by rfl)
theorem State.quiet.sfPut (h : s.quiet k t) {j n w : Nat} {e : BitVec 118} : (s.sfPut j n w e).quiet k t := h.modSlice (by rfl)
theorem State.quiet.countCE (h : s.quiet k t) {j : Nat} : (s.countCE j).quiet k t := h.modSlice (by rfl)
theorem State.quiet.sfEccLast (h : s.quiet k t) {j n w : Nat} {b : Bool} : (s.sfEccLast j n w b).quiet k t :=
  h.setFlag.setFlag.fset.fset
theorem State.quiet.sfTouch (h : s.quiet k t) {j n w : Nat} : (s.sfTouch j n w).quiet k t := h.sfPut
theorem State.quiet.sfWrite (h : s.quiet k t) {j : Nat} {a : Addr} {n : Tenant} {w : Nat} {r : LineRec} : (s.sfWrite j a n w r).quiet k t :=
  h.sfPut.ite h.sfPut
theorem State.quiet.countFmt (h : s.quiet k t) {j : Nat} {a b : Sharers} : (s.countFmt j a b).quiet k t := h.bump.ite (h.bump.ite h)
theorem State.quiet.countChange (h : s.quiet k t) {j : Nat} {d : Bool} {a b : Sharers} : (s.countChange j d a b).quiet k t :=
  h.countFmt.countFmt.ite h.countFmt

theorem State.quiet.sfRetire (h : s.quiet k t) {j n w : Nat} : (s.sfRetire j n w).quiet k t := h.ite (h.react.ite (h.modSlice (by rfl)))

theorem State.quiet.sfCheckWay (h : s.quiet k t) {j n w : Nat} : (s.sfCheckWay j n w).quiet k t := by
  unfold State.sfCheckWay
  split
  · exact h
  · extract_lets x s1 i many s2 s3 bad
    have h1 : s1.quiet k t := h.jigRead.ite h.jigRead.sfPut
    have h2 : s2.quiet k t := h1.setFresh.ite h1
    have h3 : s3.quiet k t := h2.sfPut.ite h2
    split
    · exact h3
    · exact h3.sfPut.countCE.bump.sfEccLast.corrected
    · exact h3.bump.sfEccLast.setLoose.corrected.sfRetire

theorem State.quiet.sfCheckSet (h : s.quiet k t) {j n : Nat} : (s.sfCheckSet j n).quiet k t := h.forUp fun _ _ hu => hu.sfCheckWay

theorem State.quiet.sfClearRef (h : s.quiet k t) {j n : Nat} {ws : List Nat} : (s.sfClearRef j n ws).quiet k t := h.foldl fun _ _ hu => hu.sfPut

theorem State.quiet.sfChoose (h : s.quiet k t) {j n : Nat} {a : Tenant} {p q : Bool} : (s.sfChoose j n a p q).2.quiet k t := by
  unfold State.sfChoose
  dsimp only
  split
  · exact h
  · split
    · exact h
    · exact h.sfClearRef.ite h

/-! ## The home cache -/

theorem State.quiet.setFrame (h : s.quiet k t) {j n w : Nat} {f : Frame} : (s.setFrame j n w f).quiet k t := h.modSlice (by rfl)
theorem State.quiet.hcErrLast (h : s.quiet k t) {j a b c d : Nat} : (s.hcErrLast j a b c d).quiet k t :=
  h.setFlag.fset.fset.fset.fset
theorem State.quiet.supersede (h : s.quiet k t) {j : Nat} {a : Addr} : (s.supersede j a).quiet k t := h.modSlice (by rfl)
theorem State.quiet.clearRsv (h : s.quiet k t) {j : Nat} {a : Addr} : (s.clearRsv j a).quiet k t := h.modSlice (by rfl)

theorem State.quiet.hcRecordRetired (h : s.quiet k t) {j n w : Nat} : (s.hcRecordRetired j n w).quiet k t :=
  h.ite (h.react.ite (h.modSlice (by rfl)).setFrame)

theorem State.quiet.hcCheckTag (h : s.quiet k t) {j n w : Nat} : (s.hcCheckTag j n w).quiet k t := by
  unfold State.hcCheckTag
  split
  · exact h
  · extract_lets x f s1 i open_ s2 bad
    have h1 : s1.quiet k t := h.jigRead.ite h.jigRead.setFrame
    have h2 : s2.quiet k t := h1.setFresh.ite h1
    split
    · exact h2
    · exact h2.setFrame.bump.hcErrLast.corrected
    · next m s3 s4 s5 _ _ =>
      have h4 : s4.quiet k t := h2.setFrame.bump.hcErrLast.hcRecordRetired
      have h5 : s5.quiet k t := h4.react.ite (h4.modSlice (by rfl))
      exact h5.containedMask

theorem State.quiet.hcCheckSet (h : s.quiet k t) {j n : Nat} : (s.hcCheckSet j n).quiet k t := h.forUp fun _ _ hu => hu.hcCheckTag

theorem State.quiet.readCw (h : s.quiet k t) {j n w b c : Nat} : (s.readCw j n w b c).2.quiet k t := by
  unfold State.readCw
  extract_lets f sb jx s0 s1 flips clear put x bad
  have h1 : s1.quiet k t := h.jigRead.ite h
  have hput {u : State} {x : Sub} (hu : u.quiet k t) : (put u x).quiet k t := hu.setFrame
  have hbad {u : State} (hu : u.quiet k t) : (bad u).2.quiet k t := by
    unfold bad
    split
    · exact (hput hu).bump.hcErrLast.deferred
    · exact hu.setFrame.countCE.bump.hcErrLast.corrected
  split
  · exact h
  · split
    · exact h1
    · exact (hput h1).countCE.bump.hcErrLast.corrected
    · exact hbad h1
    · have hdraw : s1.draw.2.quiet k t := h1.same rfl
      dsimp only
      split
      · exact hbad hdraw
      · exact hput hdraw

theorem State.quiet.readSubP (h : s.quiet k t) {j n w b : Nat} : (s.readSubP j n w b).2.quiet k t := h.readCw.readCw

theorem State.quiet.readSub (h : s.quiet k t) {j n w b : Nat} : (s.readSub j n w b).quiet k t := h.readSubP

theorem State.quiet.sendMemWr (h : s.quiet k t) {j : Nat} {o : MemOp} : (s.sendMemWr j o).quiet k t :=
  State.quiet.toMemory (h.modSlice (by rfl)) fun _ _ => (by decide : Op.memWr ≠ Op.seizeNotice)

theorem State.quiet.sendOffer (h : s.quiet k t) {j : Nat} {o : MemOp} : (s.sendOffer j o).quiet k t :=
  State.quiet.toMemory (h.modSlice (by rfl)) fun _ _ => (by decide : Op.memCleanOffer ≠ Op.seizeNotice)

theorem State.quiet.evictFrame (h : s.quiet k t) {j n w e : Nat} : (s.evictFrame j n w e).quiet k t := by
  unfold State.evictFrame
  refine State.quiet.setFrame (State.quiet.forUp h.bump fun b u hu => ?_)
  split
  · exact hu
  · have hread := hu.readSub (j := j) (n := n) (w := w) (b := b)
    exact hread.ite (hread.sendMemWr.ite (hread.sendOffer.ite hread))

theorem State.quiet.hcAllocate (h : s.quiet k t) {j : Nat} {a : Addr} {n : Tenant} : (s.hcAllocate j a n).2.quiet k t := by
  unfold State.hcAllocate
  dsimp only
  split
  · exact h
  · split
    · exact h
    · split
      · exact h.bump
      · exact h.bump
      · exact State.quiet.evictFrame (h.modSlice (by rfl))

theorem State.quiet.hcWriteLine (h : s.quiet k t) {j : Nat} {a : Addr} {n : Tenant} {l : Line} {p : BitVec 4} {g : Tag} {b : Bool} :
    (s.hcWriteLine j a n l p g b).quiet k t := by
  have halloc : (if b then s.hcAllocate j a n else (none, s)).2.quiet k t := by
    split
    · exact h.hcAllocate
    · exact h
  unfold State.hcWriteLine
  dsimp only
  split
  · exact h.supersede.setFrame.ite h.supersede.sendMemWr
  · generalize (if b then s.hcAllocate j a n else (none, s)) = r at halloc
    split
    · exact halloc.supersede.setFrame
    · exact halloc.supersede.sendMemWr

theorem State.quiet.hcFillLine (h : s.quiet k t) {j : Nat} {a : Addr} {n : Tenant} {l : Line} {p : BitVec 4} :
    (s.hcFillLine j a n l p).2.quiet k t := by
  have halloc := h.hcAllocate (j := j) (a := a) (n := n)
  unfold State.hcFillLine
  dsimp only
  split
  · split
    · exact h
    · exact h.setFrame
  · generalize s.hcAllocate j a n = r at halloc
    split
    · exact halloc.setFrame
    · exact halloc

theorem State.quiet.hcRead (h : s.quiet k t) {j : Nat} {a : Addr} : (s.hcRead j a).2.2.quiet k t := by
  have hset := h.hcCheckSet (j := j) (n := hcSetOf a)
  unfold State.hcRead
  dsimp only
  split
  · split
    · exact hset.wrapInc.readSub
    · exact hset.wrapInc.readSub
  · exact hset.wrapInc

end

end Sys2Proof.Machine
end

section
/-!
SUPPORT. Trackers stay quiet (`State.quiet`): the Shed, the coherence transactions and the gathers.
-/
namespace Sys2Proof.Machine

section
variable {s u : State} {k t : Nat}

/-! ## The Shed -/

theorem firstFrom_lt {p : Nat → Bool} {n i r : Nat} (h : firstFrom p i n = some r) : r < i + n := by
  induction n generalizing i with
  | zero => exact nomatch h
  | succ n ih =>
    rw [firstFrom] at h
    split at h
    · have := Option.some.inj h
      omega
    · have := ih h
      omega

/-- The Shed gives out trackers 0 to 1023 (07 R257). -/
theorem State.freeTracker_lt {j i : Nat} {x : Txn} (h : s.freeTracker j x = some i) : i < 1024 := by
  unfold State.freeTracker at h
  dsimp only at h
  split at h
  · exact firstFrom_lt h
  · split at h
    · have := firstFrom_lt h
      omega
    · exact nomatch h

theorem State.quiet.ttRead (h : s.quiet k t) {j : Nat} : (s.ttRead j).quiet k t := by
  have hread := h.jigRead (kind := 0xB) (n := j) (a := none)
  exact hread.ite (hread.react.ite (hread.setFresh.react.ite hread.setFresh))

theorem State.quiet.wakeSlice (h : s.quiet k t) {j : Nat} : (s.wakeSlice j).quiet k t := h.ite ((h.modSlice (by rfl)).ite (h.modSlice (by rfl)))

theorem State.quiet.noteDepth (h : s.quiet k t) {j : Nat} {c : Scope} : (s.noteDepth j c).quiet k t := h.fset

theorem State.quiet.admitAt (h : s.quiet k t) {j i : Nat} {x : Txn} (hi : i < 1024) : (s.admitAt j i x).quiet k t :=
  State.quiet.react (h.setTxn fun _ hit => absurd h.1 (by omega))

theorem State.quiet.shed (h : s.quiet k t) {j : Nat} {x : Txn} : (s.shed j x).2.quiet k t := by
  have hread := h.ttRead (j := j)
  unfold State.shed
  dsimp only
  split
  · split
    · exact State.quiet.noteDepth (hread.modSlice (by rfl))
    · exact hread
  · split
    · next i hi => exact hread.admitAt (State.freeTracker_lt hi)
    · exact hread

theorem State.quiet.wait (h : s.quiet k t) {j : Nat} {x : Txn} {b : Bool} : (s.wait j x b).quiet k t :=
  State.quiet.ite (State.quiet.wrapInc (h.modSlice (by rfl))) (h.modSlice (by rfl))

theorem State.quiet.shedOrWait (h : s.quiet k t) {j : Nat} {x : Txn} : (s.shedOrWait j x).quiet k t := by
  have hwake := h.wakeSlice (j := j)
  exact State.quiet.ite (h.wait.ite (h.wait.wakeSlice.ite (h.shed.ite h.shed.wait)))
    (h.wait.ite (h.wait.ite (h.wait.wakeSlice.ite (hwake.shed.ite hwake.shed.wait))))

theorem State.quiet.tryFree (h : s.quiet k t) {j i : Nat} : (s.tryFree j i).quiet k t := by
  unfold State.tryFree
  split
  · exact h
  · exact h.freeTxn.react.react.ite h

theorem State.quiet.closeTxn (h : s.quiet k t) {j i : Nat} : (s.closeTxn j i).quiet k t := by
  unfold State.closeTxn
  split
  · exact h
  · next x hx => exact (h.putTxn h hx fun _ c hc => absurd hc List.not_mem_nil).tryFree.react.react

theorem State.quiet.admitChained (h : s.quiet k t) {j : Nat} : (s.admitChained j).quiet k t := by
  unfold State.admitChained
  split
  · exact h
  · split
    · next i hi => exact State.quiet.react (State.quiet.admitAt (h.modSlice (by rfl)) (State.freeTracker_lt hi))
    · exact h

/-! ## Memory and reservations -/

theorem State.quiet.sendMemRd (h : s.quiet k t) {j i : Nat} {b : Bool} {d : Time} : (s.sendMemRd j i b d).quiet k t := by
  unfold State.sendMemRd
  split
  · exact h
  · next x hx => exact (h.putTxn h hx (·.copies (by rfl))).toMemory fun _ _ => (by decide : Op.memRd ≠ Op.seizeNotice)

theorem State.quiet.cancelMemRd (h : s.quiet k t) {j i : Nat} : (s.cancelMemRd j i).quiet k t := by
  unfold State.cancelMemRd
  split
  · next x hx =>
    split
    · exact ((h.putTxn h hx (·.copies (by rfl))).toMemory fun _ _ => (by decide : Op.memCancel ≠ Op.seizeNotice)).ite h
    · exact h
  · exact h

theorem State.quiet.giveData (h : s.quiet k t) {j i : Nat} {d : Line × BitVec 4} {a b : Bool} : (s.giveData j i d a b).quiet k t := by
  unfold State.giveData
  extract_lets waste s1 s2
  have h1 : s1.quiet k t := h.modTxn (by intro; rfl)
  have h2 : s2.quiet k t := h1.wrapInc.ite h1
  exact h2.ite h2.cancelMemRd

theorem State.quiet.putRsv (h : s.quiet k t) {j : Nat} {n : Node} {a : Tenant} {e : Option Rsv} : (s.putRsv j n a e).quiet k t := h.modSlice (by rfl)

theorem State.quiet.reserve (h : s.quiet k t) {j : Nat} {m : Msg} : (s.reserve j m).quiet k t := by
  unfold State.reserve
  dsimp only
  split
  · exact h.putRsv
  · split
    · exact h.putRsv
    · split
      · exact h.putRsv.bump.putRsv
      · exact h

theorem State.quiet.condTry (h : s.quiet k t) {j : Nat} {m : Msg} {b : Bool} : (s.condTry j m b).2.quiet k t := by
  unfold State.condTry
  dsimp only
  split
  · exact h
  · exact h.putRsv

/-! ## Snoops -/

theorem State.quiet.sendCopies (h : s.quiet k t) {j i : Nat} {op : BitVec 8} {rc own : Bool} {q : Node} {g : Tag} {e : Bool}
    {l : List (Node × Nat × Bool)} (hop : op ≠ Op.seizeNotice) : (s.sendCopies j i op rc own q g e l).quiet k t := by
  unfold State.sendCopies
  split
  · exact h
  · next x hx =>
    refine State.quiet.foldl (h.putTxn h hx fun hq => ?_) fun u c hu => hu.sendMk hop
    split
    · exact hq.copies rfl
    · refine hq.append rfl fun c hc => ?_
      obtain ⟨_, _, rfl⟩ := List.mem_map.mp hc
      rfl

/-- No owner is snooped with a seizure notice (06 R211). -/
theorem ownerSnoop_ne {eff : BitVec 8} {x : Txn} {op : BitVec 8} (h : ownerSnoop eff x = some op) : op ≠ Op.seizeNotice := by
  have hop : op = Op.snpShared ∨ op = Op.snpOnce ∨ op = Op.snpUnique ∨ op = Op.snpMakeInv := by
    unfold ownerSnoop at h
    split at h
    · exact .inl (Option.some.inj h).symm
    · exact .inl (Option.some.inj h).symm
    · exact .inr (.inl (Option.some.inj h).symm)
    · exact .inr (.inr (.inl (Option.some.inj h).symm))
    · exact .inr (.inr (.inl (Option.some.inj h).symm))
    · exact .inr (.inr (.inr (Option.some.inj h).symm))
    · exact .inr (.inr (.inr (Option.some.inj h).symm))
    · split at h
      · exact .inr (.inr (.inr (Option.some.inj h).symm))
      · exact .inr (.inr (.inl (Option.some.inj h).symm))
    · split at h
      · exact .inr (.inr (.inr (Option.some.inj h).symm))
      · exact .inr (.inr (.inl (Option.some.inj h).symm))
    · split at h
      · exact .inr (.inr (.inl (Option.some.inj h).symm))
      · exact nomatch h
    · exact .inr (.inr (.inl (Option.some.inj h).symm))
    · exact nomatch h
  rcases hop with rfl | rfl | rfl | rfl <;> decide

theorem State.quiet.wantMem (h : s.quiet k t) {j i : Nat} : (s.wantMem j i).quiet k t := by
  unfold State.wantMem
  split
  · exact h
  · exact h.sendMemRd.ite h

theorem State.quiet.snoopAll (h : s.quiet k t) {j i : Nat} {x : Txn} {own : Option (Node × BitVec 8)} {l : List (Node × Nat × Bool)}
    (hown : ∀ o ∈ own, o.2 ≠ Op.seizeNotice) : (s.snoopAll j i x own l).quiet k t := by
  unfold State.snoopAll
  cases own with
  | none => exact State.quiet.ite (State.quiet.modTxn (h.sendCopies (by decide)) (by intro; rfl)) (h.sendCopies (by decide))
  | some o =>
    have hop := hown o rfl
    exact State.quiet.ite (State.quiet.modTxn (h.sendCopies (by decide)) (by intro; rfl)) (State.quiet.sendCopies (h.sendCopies hop) hop)

theorem State.quiet.sendSnoops (h : s.quiet k t) {j i : Nat} : (s.sendSnoops j i).quiet k t := by
  unfold State.sendSnoops
  split
  · exact h
  · dsimp only
    split
    · next o op _ hop =>
      have hne := ownerSnoop_ne hop
      exact State.quiet.ite (State.quiet.modTxn (State.quiet.sendCopies (h.modTxn (by intro; rfl)) hne) (by intro; rfl))
        (State.quiet.snoopAll (h.modTxn (by intro; rfl)) fun o ho => Option.some.inj ho ▸ hne)
    · exact h.snoopAll fun o ho => nomatch ho

/-! ## The home's own copy and the fill -/

theorem State.quiet.hcLookup (h : s.quiet k t) {j i : Nat} : (s.hcLookup j i).quiet k t := by
  unfold State.hcLookup
  split
  · exact h
  · next x _ =>
    have hread := h.hcRead (j := j) (a := x.line)
    split
    · exact h
    · dsimp only
      split
      · exact hread.giveData
      · exact State.quiet.ite (State.quiet.giveData (State.quiet.modTxn hread.setFresh (by intro; rfl))) (hread.cancelMemRd.ite hread)

theorem State.quiet.fillFor (h : s.quiet k t) {j : Nat} {x : Txn} : (s.fillFor j x).quiet k t := by
  unfold State.fillFor
  dsimp only
  split
  · split
    · exact h
    · exact State.quiet.ite (h.hcFillLine.forUp fun _ _ hu => hu.ite hu.shedOrWait) h.hcFillLine
  · exact h

/-! ## The end of a transaction -/

theorem State.quiet.putRecord (h : s.quiet k t) {j i : Nat} {x : Txn} {r : LineRec} : (s.putRecord j i x r).2.quiet k t := by
  have hchoice := h.sfChoose (j := j) (n := sfSetOf x.line) (a := x.m.ten) (p := !x.hadWay) (q := false)
  unfold State.putRecord
  dsimp only
  split
  · exact h.countChange.sfWrite
  · split
    · exact h
    · split
      · exact hchoice.sfWrite
      · split
        · next n hn => exact State.quiet.admitAt (hchoice.modTxn (by intro; rfl)) (State.freeTracker_lt hn)
        · exact hchoice.modTxn (by intro; rfl)
      · split
        · exact hchoice
        · exact hchoice.modTxn (by intro; rfl)

theorem State.quiet.elemDone (h : s.quiet k t) {c g i n : Nat} {d : Slot} {p : Bool} : (s.elemDone c g i n d p).quiet k t :=
  State.quiet.react (h.modSlice (by rfl))

theorem State.quiet.releaseWrite (h : s.quiet k t) {x : TKind} : (s.releaseWrite x).quiet k t := by
  unfold State.releaseWrite
  split
  · exact h.modPort.react
  · exact h.modPort.react
  · exact h

/-- No transaction is answered with a seizure notice (06 R209). -/
theorem resultOf_ne (cfg : TenCfg) (x : Txn) : (resultOf cfg x).op ≠ Op.seizeNotice := by
  unfold resultOf
  extract_lets q d slots gone ownerOnly noHolder comp dataResp
  have hcomp : comp.op ≠ Op.seizeNotice := (by decide : Op.comp ≠ Op.seizeNotice)
  have hdata (r : LineRec) (st : BitVec 3) (w : Option (Line × BitVec 4)) (b : Bool) : (dataResp r st w b).op ≠ Op.seizeNotice :=
    (by decide : Op.compData ≠ Op.seizeNotice)
  split
  · split
    · exact hdata _ _ _ _
    · exact hdata _ _ _ _
  · split
    · exact hdata _ _ _ _
    · exact hdata _ _ _ _
  · exact hdata _ _ _ _
  · exact hdata _ _ _ _
  · exact hdata _ _ _ _
  · exact hcomp
  · exact hcomp
  · exact hcomp
  · split
    · exact hcomp
    · exact hcomp
  · split
    · exact (by decide : Op.condOk ≠ Op.seizeNotice)
    · exact (by decide : Op.condFail ≠ Op.seizeNotice)
  · show (if msgRet x.m then Op.atomicData else Op.comp) ≠ Op.seizeNotice
    split
    · exact (by decide : Op.atomicData ≠ Op.seizeNotice)
    · exact (by decide : Op.comp ≠ Op.seizeNotice)
  · exact hcomp
  · exact hcomp

theorem State.quiet.complete (h : s.quiet k t) {j i : Nat} {x : Txn} {r : Result} (hr : r.op ≠ Op.seizeNotice) :
    (s.complete j i x r).quiet k t := by
  unfold State.complete
  extract_lets a ten tag s0 s1 s2 resp s4 s5 lost s3 ack
  have h0 : s0.quiet k t := h.wrapInc.ite h
  have h1 : s1.quiet k t := h0.clearRsv.ite h0
  have h2 : s2.quiet k t := by
    unfold s2
    split
    · exact h1.hcWriteLine
    · exact h1.fillFor
  have h3 : s3.quiet k t := by
    unfold s3
    split
    · have h4 : s4.quiet k t := (h2.send hr).winDone
      have h5 : s5.quiet k t := h4.wrapInc.ite (h4.bump.ite h4)
      exact h5.reserve.ite h5
    · exact h2.elemDone.ite h2.elemDone
    · exact h2.releaseWrite
  exact State.quiet.ite (h3.modTxn (by intro; rfl)) (State.quiet.ite (h3.modTxn (by intro; rfl)) h3.closeTxn)

theorem State.quiet.recordAndEnd (h : s.quiet k t) {j i : Nat} : (s.recordAndEnd j i).quiet k t := by
  unfold State.recordAndEnd
  split
  · exact h
  · have hr (cfg : TenCfg) (x : Txn) := resultOf_ne cfg x
    exact State.quiet.ite (h.complete (hr _ _)) (State.quiet.ite (h.putRecord.complete (hr _ _)) h.putRecord)

theorem State.quiet.finish (h : s.quiet k t) {j i : Nat} : (s.finish j i).quiet k t := by
  unfold State.finish
  split
  · exact h
  · split
    · exact State.quiet.modPort (h.modTxn (by intro; rfl))
    · exact State.quiet.ite h.recordAndEnd (h.modTxn (by intro; rfl))
    · exact h.recordAndEnd

theorem State.quiet.advance (h : s.quiet k t) {j i : Nat} : (s.advance j i).quiet k t := by
  unfold State.advance
  split
  · exact h
  · exact State.quiet.ite h.wantMem (State.quiet.ite (State.quiet.wantMem (h.modTxn (by intro; rfl))) h.finish)

/-! ## The start of a transaction -/

theorem State.quiet.afterLookup (h : s.quiet k t) {j i : Nat} : (s.afterLookup j i).quiet k t := by
  unfold State.afterLookup
  split
  · exact h
  · next x hx =>
    extract_lets q eff wasOwner keep r s1 s2
    have h1 : s1.quiet k t := h.putTxn h hx (·.copies (by rfl))
    have h2 : s2.quiet k t := h1.hcLookup.sendSnoops
    split
    · exact h2.wantMem.ite h2.advance
    · exact h2

theorem State.quiet.recall (h : s.quiet k t) {j i : Nat} : (s.recall j i).quiet k t := by
  unfold State.recall
  split
  · exact h
  · extract_lets l s1 s2
    have h2 : s2.quiet k t := State.quiet.sendCopies (State.quiet.modTxn h.wrapInc (by intro; rfl)) (by decide)
    exact h2.afterLookup.ite h2

theorem State.quiet.beginReq (h : s.quiet k t) {j i : Nat} : (s.beginReq j i).quiet k t := by
  unfold State.beginReq
  split
  · exact h
  · next x hx =>
    extract_lets a ct s1 hold s2 s3 s4 s5
    have hct : ct.2.quiet k t := by
      unfold ct
      split
      · exact h.condTry
      · exact h
    have h1 : s1.quiet k t := hct.clearRsv.ite hct
    have h2 : s2.quiet k t := h1.bump.ite h1
    have h3 : s3.quiet k t := h2.putTxn h hx (·.copies (by rfl))
    have h4 : s4.quiet k t := h3.sendMemRd.ite h3
    have h5 : s5.quiet k t := h4.sfCheckSet
    refine h4.afterLookup.ite ?_
    split
    · exact State.quiet.afterLookup (State.quiet.modTxn h5.sfTouch (by intro; rfl))
    · exact h5.recall.ite h5.afterLookup

theorem State.quiet.retryWays (h : s.quiet k t) {j : Nat} : (s.retryWays j).quiet k t := by
  refine h.foldl fun u e hu => ?_
  split
  · exact hu.recordAndEnd.ite hu
  · exact hu

theorem State.quiet.retryCommits (h : s.quiet k t) : s.retryCommits.quiet k t := by
  refine h.forUp fun j u hu => hu.foldl fun v e hv => ?_
  split
  · split
    · exact hv.finish
    · exact hv
  · exact hv

/-! ## Back-invalidations -/

theorem State.quiet.backInvEntry (h : s.quiet k t) {j : Nat} {x : Txn} {n : Nat} {why : BackWhy} {r : LineRec} :
    (s.backInvEntry j x n why r).quiet k t := by
  unfold State.backInvEntry
  extract_lets stays
  split
  · extract_lets s1 s2 s3
    have h1 : s1.quiet k t := h.countChange
    have h2 : s2.quiet k t := h1.sfPut.ite h1.sfWrite
    have h3 : s3.quiet k t := h2.setLoose.ite h2
    exact h3.sfRetire.ite h3
  · exact h.setLoose.ite h

theorem State.quiet.endBackInv (h : s.quiet k t) {j i n : Nat} {why : BackWhy} : (s.endBackInv j i n why).quiet k t := by
  unfold State.endBackInv
  split
  · exact h
  · extract_lets s1 r s2 s3
    have h1 : s1.quiet k t := by
      unfold s1
      split
      · exact h.hcWriteLine.ite h
      · exact h
    have h2 : s2.quiet k t := h1.backInvEntry
    have h3 : s3.quiet k t := h2.bump.ite h2
    exact h3.closeTxn

theorem State.quiet.beginBackInv (h : s.quiet k t) {j i n : Nat} {why : BackWhy} : (s.beginBackInv j i n why).quiet k t := by
  unfold State.beginBackInv
  split
  · exact h
  · next x hx =>
    extract_lets w r s1 s2 s3
    have h1 : s1.quiet k t := State.quiet.putTxn h.wrapInc h hx (·.copies (by rfl))
    have h2 : s2.quiet k t := by
      unfold s2
      split
      · exact h1.sendCopies (by decide)
      · exact h1
    have h3 : s3.quiet k t := h2.sendCopies (by decide)
    refine h.closeTxn.ite ?_
    split
    · exact h3.endBackInv.ite h3
    · exact h3

theorem State.quiet.backInv (h : s.quiet k t) {j : Nat} {n : Tenant} {a : Addr} {why : BackWhy} : (s.backInv j n a why).quiet k t :=
  h.shedOrWait

/-! ## Gathers and combining buffers -/

theorem State.quiet.flushEntry (h : s.quiet k t) {p e : Nat} {f : Option Fld} : (s.flushEntry p e f).quiet k t := by
  unfold State.flushEntry
  split
  · exact h
  · refine State.quiet.foldl ?_ fun u l hu => hu.shedOrWait
    split
    · exact h.modPort.bump
    · exact h.modPort

theorem State.quiet.flushWhere (h : s.quiet k t) {p : Nat} {sel : Combine → Bool} {f : Option Fld} : (s.flushWhere p sel f).quiet k t :=
  h.foldl fun _ _ hu => hu.flushEntry

theorem State.quiet.accessRecord (h : s.quiet k t) {m : Msg} {a : Addr} {i j : Nat} : (s.accessRecord m a i j).quiet k t :=
  h.bump.fset.fset.fset.setFlag.fset.fset.fset

theorem State.quiet.modGather (h : s.quiet k t) {c g : Nat} {f : Gather → Gather} : (s.modGather c g f).quiet k t := h.modSlice (by rfl)

theorem State.quiet.elemFault (h : s.quiet k t) {c g : Nat} {m : Msg} {i n : Nat} : (s.elemFault c g m i n).quiet k t :=
  State.quiet.modGather (State.quiet.ite h.accessRecord h)

theorem State.quiet.elemGo (h : s.quiet k t) {c g p : Nat} {m : Msg} {i : Nat} : (s.elemGo c g p m i).quiet k t := h.shedOrWait

theorem State.quiet.gatherStep (h : s.quiet k t) {c g : Nat} : (s.gatherStep c g).quiet k t := by
  unfold State.gatherStep
  split
  · exact h
  · extract_lets n done fault i s1
    have h1 : s1.quiet k t := h.modGather
    refine h.ite (h.ite (h.modGather.ite (h.ite ?_)))
    split
    · exact h1.elemFault.react
    · exact h1.elemGo

end

end Sys2Proof.Machine
end

section
/-!
SUPPORT. Trackers stay quiet (`State.quiet`): maintenance, census, the Clamp, spares and migration, tenants, and all that follows a
command at once.
-/
namespace Sys2Proof.Machine

section
variable {s u : State} {k t : Nat}

/-! ## Maintenance and the range engine -/

theorem State.quiet.sweepSub (h : s.quiet k t) {j i n w b op : Nat} {c : Option Nat} : (s.sweepSub j i n w b op c).quiet k t := by
  have hread := h.readSubP (j := j) (n := n) (w := w) (b := b)
  unfold State.sweepSub
  extract_lets f r s1 x ten o
  have h1 : s1.quiet k t := hread.bump.ite hread
  exact h.ite (State.quiet.ite (h.ite h1.sendMemWr) (h.ite h.setFrame))

theorem State.quiet.setCtx0 (h : s.quiet k t) {o : Option RangeJob} : State.quiet { s with ctx0 := o } k t := h.same rfl
theorem State.quiet.setCtx1 (h : s.quiet k t) {o : Option RangeJob} : State.quiet { s with ctx1 := o } k t := h.same rfl

theorem State.quiet.rangeCheck (h : s.quiet k t) {c : Nat} : (s.rangeCheck c).quiet k t := by
  unfold State.rangeCheck
  extract_lets stop done f s1
  have h1 : s1.quiet k t := h.fset.ite h
  exact State.quiet.ite (h1.setCtx0.setFlag.ite h1) (h.setCtx1.ite h)

theorem State.quiet.sweepEnd (h : s.quiet k t) {j i : Nat} : (s.sweepEnd j i).quiet k t := by
  unfold State.sweepEnd
  split
  · exact h
  · refine h.ite ?_
    split
    · exact h.closeTxn.setFlag.fset
    · exact h.closeTxn.rangeCheck
    · exact h.closeTxn

theorem State.quiet.beginMaint (h : s.quiet k t) {j i op : Nat} {o : Option Nat} : (s.beginMaint j i op o).quiet k t := by
  unfold State.beginMaint
  split
  · exact h
  · extract_lets s1 a checked mark s2
    have h1 : s1.quiet k t := h.modTxn (by intro; rfl)
    have hchecked : checked.quiet k t := h1.hcCheckSet
    clear_value checked s1
    have h2 : s2.quiet k t := by
      unfold s2
      split
      · exact h1.hcCheckSet.ite (h1.hcCheckSet.forUp fun _ _ hu => hu.sweepSub)
      · split
        · exact hchecked.sweepSub
        · exact hchecked.modSlice (by rfl)
    exact h2.sweepEnd

theorem State.quiet.beginRange (h : s.quiet k t) {j i c op : Nat} : (s.beginRange j i c op).quiet k t := by
  unfold State.beginRange
  split
  · extract_lets n s1 s2
    have h1 : s1.quiet k t := State.quiet.hcCheckSet (h.modTxn (by intro; rfl))
    have h2 : s2.quiet k t := h1.forUp fun w u hu => hu.ite (hu.forUp fun b v hv => hv.sweepSub.ite hv)
    exact h2.sweepEnd
  · exact h.closeTxn.rangeCheck
  · exact h

/-! ## Census -/

theorem State.quiet.modCensus (h : s.quiet k t) {j l : Nat} {f : Census → Census} : (s.modCensus j l f).quiet k t := h.modSlice (by rfl)

theorem State.quiet.censusOver (h : s.quiet k t) {j l : Nat} : (s.censusOver j l).quiet k t := by
  unfold State.censusOver
  split
  · exact h
  · have h1 {f : Slice → Slice} (hf : (f (s.slice j)).trk = (s.slice j).trk) : (s.modSlice j f).quiet k t := h.modSlice hf
    exact h.ite (State.quiet.modLsl ((h1 rfl).setFlag.ite (h1 rfl)))

theorem State.quiet.censusClose (h : s.quiet k t) {j i l n : Nat} : (s.censusClose j i l n).quiet k t :=
  h.closeTxn.modCensus.bump.censusOver

theorem State.quiet.censusSurplus (h : s.quiet k t) {j i l n : Nat} : (s.censusSurplus j i l n).quiet k t := by
  unfold State.censusSurplus
  split
  · exact h
  · extract_lets step s1
    have h1 : s1.quiet k t := by
      refine h.foldl fun u e hu => ?_
      unfold step
      dsimp only
      split
      · next hi => exact State.quiet.admitAt (hu.modTxn (by intro; rfl)) (State.freeTracker_lt hi)
      · exact hu
    split
    · exact h1.censusClose.ite h1
    · exact h1

theorem State.quiet.placeEntries {j n : Nat} (l : List (BitVec 118)) (s : State) (h : s.quiet k t) : (s.placeEntries j n l).quiet k t := by
  induction l generalizing s with
  | nil => exact h
  | cons e l ih =>
    rw [State.placeEntries]
    split
    · exact ih _ h.sfPut
    · exact h

theorem State.quiet.censusBuild (h : s.quiet k t) {j i l n : Nat} : (s.censusBuild j i l n).quiet k t := by
  unfold State.censusBuild
  split
  · exact h
  · extract_lets entries ways held excess victims s1 s2
    have h1 : s1.quiet k t := h.foldl fun _ _ hu => hu.sfPut.ite hu
    have h2 : s2.quiet k t := State.quiet.placeEntries _ _ h1
    exact State.quiet.censusSurplus (h2.modTxn (by intro; rfl))

theorem State.quiet.modRebuilt (h : s.quiet k t) {j i : Nat} {a : Addr} {f : Tenant → LineRec → LineRec} : (s.modRebuilt j i a f).quiet k t :=
  h.modTxn (by intro; rfl)

theorem State.quiet.censusAnswered (h : s.quiet k t) {j i l n : Nat} : (s.censusAnswered j i l n).quiet k t := by
  unfold State.censusAnswered
  split
  · exact h
  · extract_lets range explained s1 bad tenOf step s2
    have h1 : s1.quiet k t := h.foldl fun _ _ hu => hu.modRebuilt
    have h2 : s2.quiet k t := by
      refine h1.foldl fun u e hu => ?_
      refine State.quiet.sendMk (State.quiet.modTxnOf hu.wrapInc.modRebuilt fun x hx => hx.append rfl fun c hc => ?_) (by decide)
      rw [List.mem_singleton.mp hc]
    exact h2.censusBuild.ite (h2.modTxn (by intro; rfl))

theorem State.hintCopies_deadline {n : Nat} {e : BitVec 118} {c : Copy} (h : c ∈ s.hintCopies n e) : c.deadline = 0 := by
  unfold State.hintCopies at h
  obtain ⟨_, _, rfl⟩ := List.mem_map.mp h
  rfl

theorem State.quiet.beginCensus (h : s.quiet k t) {j i l : Nat} : (s.beginCensus j i l).quiet k t := by
  unfold State.beginCensus
  split
  · exact h
  · next x hx =>
    extract_lets n hs cs tenOf y s1 s2
    have h1 : s1.quiet k t := h.putTxn h hx fun _ c hc _ => by
      obtain ⟨e, _, hc⟩ := List.mem_flatMap.mp hc
      exact State.hintCopies_deadline hc
    have h2 : s2.quiet k t := h1.foldl fun _ _ hu => hu.sendMk (by decide)
    exact h2.censusAnswered.ite h2

theorem State.quiet.retrySurplus (h : s.quiet k t) {j : Nat} : (s.retrySurplus j).quiet k t := by
  refine h.foldl fun u e hu => ?_
  split
  · split
    · exact hu.censusSurplus.ite hu
    · exact hu
  · exact hu

/-! ## The Clamp -/

theorem State.quiet.forEnts (h : s.quiet k t) {l : Nat} {f : Nat → ClampEnt → State → State}
    (hf : ∀ i e u, State.quiet u k t → (f i e u).quiet k t) : (s.forEnts l f).quiet k t := h.foldl fun _ _ hu => hf _ _ _ hu

theorem State.quiet.clampQuiesce (h : s.quiet k t) {l : Nat} {n : Tenant} {op : BitVec 8} {b : Bool} (hop : op ≠ Op.seizeNotice) :
    (s.clampQuiesce l n op b).quiet k t := by
  unfold State.clampQuiesce
  extract_lets is answer s1 s2
  have hanswer {u : State} (hu : u.quiet k t) (m : Msg) : (answer u m).quiet k t := State.quiet.winUnexecuted (hu.send hop)
  have h1 : s1.quiet k t := h.foldl fun _ _ hu => hanswer hu _
  have h2 : s2.quiet k t := h1.modBank
  exact h2.forEnts fun i e u hu => State.quiet.setEnt (hu.foldl fun _ _ hv => hanswer hv _)

theorem State.quiet.clampDrop (h : s.quiet k t) {l : Nat} : (s.clampDrop l).quiet k t := State.quiet.forEnts h.modBank fun _ _ _ hu => hu.setEnt

theorem State.quiet.clampClear (h : s.quiet k t) {l : Nat} : (s.clampClear l).quiet k t :=
  State.quiet.forEnts h.modBank fun _ _ _ hu => hu.ite hu.freeEnt

/-! ## Spares, degradation and migration -/

theorem State.quiet.unpredict (h : s.quiet k t) {j : Nat} : (s.unpredict j).quiet k t := h.same rfl

theorem State.quiet.predict (h : s.quiet k t) {j : Nat} : (s.predict j).quiet k t := by
  unfold State.predict
  extract_lets c s1 s2
  have h2 : s2.quiet k t := h.fset.setFlag.fset.fset
  have hqueued : State.quiet { s2 with predQ := s2.predQ ++ [j] } k t := h2.same rfl
  exact h.ite hqueued.raise

theorem State.quiet.replaceRequest (h : s.quiet k t) : s.replaceRequest.quiet k t := by
  unfold State.replaceRequest
  split
  · exact h
  · have hnumbered : State.quiet { s with replaceNo := s.replaceNo + 1, replaceAt := s.now } k t := h.same rfl
    exact hnumbered.sendMk (by decide)

theorem State.quiet.degCheck (h : s.quiet k t) : s.degCheck.quiet k t := by
  unfold State.degCheck
  extract_lets old new serving spares hosted changed s1
  have h1 : s1.quiet k t := h.fset.fset.fset.fset
  exact h.ite (h1.ite (State.quiet.ite h1.setFlag.raise.replaceRequest (h1.replaceRequest.ite h1)))

theorem State.quiet.evaluate (h : s.quiet k t) : s.evaluate.quiet k t :=
  State.quiet.degCheck (State.quiet.ite (h.forUp fun _ _ hu => hu.predict) h)

theorem State.quiet.moveCounters (h : s.quiet k t) {a b : Nat} : (s.moveCounters a b).quiet k t := h.foldl fun _ _ hu => hu.fset.fset

theorem State.quiet.moveWork (h : s.quiet k t) {work waiting : List Txn} : (s.moveWork work waiting).quiet k t := by
  unfold State.moveWork
  refine State.quiet.rangeCheck (State.quiet.rangeCheck (State.quiet.foldl (h.foldl fun u x hu => ?_) fun u x hu => ?_))
  · exact State.quiet.ite hu (hu.modSlice (by rfl))
  · refine State.quiet.shedOrWait ?_
    split
    · exact hu.modPort
    · exact hu

theorem State.quiet.deliverHint (h : s.quiet k t) {l n : Nat} {e : BitVec 118} : (s.deliverHint l n e).quiet k t := h.modCensus

theorem State.quiet.addCensus (h : s.quiet k t) {j l n : Nat} : (s.addCensus j l n).quiet k t := by
  have h1 {f : Slice → Slice} (hf : (f (s.slice j)).trk = (s.slice j).trk) : (s.modSlice j f).quiet k t := h.modSlice hf
  exact (h1 rfl).setFlag.setFlag.fset

theorem State.quiet.repointHosted (h : s.quiet k t) {a b : Nat} : (s.repointHosted a b).quiet k t := h.forUp fun _ _ hu => hu.modLsl.ite hu

theorem State.quiet.replaceBy (h : s.quiet k t) {j l r n : Nat} : (s.replaceBy j l r n).quiet k t := by
  unfold State.replaceBy
  extract_lets old s1 s2 s3 s4
  have h2 : s2.quiet k t := h.modLsl.setRole.repointHosted.addCensus
  have h3 : s3.quiet k t := h2.foldl fun _ _ hu => hu.ite hu.addCensus
  have h4 : s4.quiet k t := h3.modSlice (by rfl)
  exact State.quiet.moveCounters (h4.foldl fun _ _ hu => hu.foldl fun _ _ hv => hv.foldl fun _ _ hw => hw.deliverHint)

theorem State.quiet.rehash (h : s.quiet k t) {j l : Nat} : (s.rehash j l).quiet k t := by
  unfold State.rehash
  extract_lets old s1 ls r s2 b s3 s4
  have h1 : s1.quiet k t := h.modLsl
  have h2 : s2.quiet k t := h1.same rfl
  have h3 : s3.quiet k t := h2.modLsl.repointHosted
  have h4 : s4.quiet k t := h3.foldl fun _ _ hu => hu.addCensus
  exact h4.foldl fun _ _ hu => hu.foldl fun _ _ hv => hv.foldl fun _ _ hw => hw.deliverHint

theorem State.quiet.setMig (h : s.quiet k t) {o : Option Migration} : State.quiet { s with mig := o } k t := h.same rfl

theorem State.quiet.migEnd (h : s.quiet k t) {n : Nat} : (s.migEnd n).quiet k t := by
  unfold State.migEnd
  split
  · exact h
  · extract_lets s1 s2 s3 ts
    have h1 : s1.quiet k t := h.setMig.fset
    have h2 : s2.quiet k t := State.quiet.ite (State.quiet.setRole (h1.emptied (by rfl))) h1
    have h3 : s3.quiet k t := by
      unfold s3
      split
      · exact h2.modLsl
      · exact h2
    exact State.quiet.foldl (h3.modSlice (by rfl)) fun _ _ hu => hu.closeTxn

theorem State.quiet.sliceFails (h : s.quiet k t) {j l : Nat} : (s.sliceFails j l).quiet k t := by
  unfold State.sliceFails
  extract_lets old work evict s1 unit s2 s3 kept keep clear go mine target none_ base b s4
  have h1 : s1.quiet k t := h.forUp fun _ _ hu => hu.winLoseAll.ite hu
  have h2 : s2.quiet k t := h1.clampDrop.emptied (by rfl)
  have h3 : s3.quiet k t := h2.setFlag.fset.ite h2
  have hkeep : keep.quiet k t := State.quiet.modSlice (f := fun c => { c with census := old.census, walk0 := old.walk0, walk1 := old.walk1 }) h3 rfl
  have hclear {u : State} (hu : u.quiet k t) : (clear u).quiet k t := hu.modSlice (by rfl)
  have hgo {u : State} (hu : u.quiet k t) (r n : Nat) : (go u r n).quiet k t := hclear hu.replaceBy
  have hnone {u : State} (hu : u.quiet k t) : (none_ u).quiet k t := State.quiet.ite (hclear hu.safeCause) (hclear hu.rehash)
  have hbase : base.quiet k t := hkeep.migEnd.ite hkeep
  have hb : b.quiet k t := hbase.migEnd
  clear_value b base none_ target mine go clear keep
  refine State.quiet.moveWork ?_
  unfold s4
  split
  · exact hgo hkeep.setMig.fset _ _
  · split
    · exact hgo hbase _ _
    · split
      · split
        · exact hgo hb _ _
        · exact hnone hb
      · exact hnone hbase

theorem State.quiet.fence (h : s.quiet k t) {j : Nat} {c : BitVec 8} : (s.fence j c).quiet k t := by
  unfold State.fence
  refine h.ite ?_
  extract_lets s1 w s2 was l s3
  have h1 : s1.quiet k t := h.logEntry.notice
  have h2 : s2.quiet k t := h1.fset.setFlag.raiseSafety
  have h3 : s3.quiet k t := h2.jigSliceGone.unpredict.setRole
  clear_value s3 l was
  split
  · exact h3.ite h3.sliceFails
  · exact h3.migEnd.emptied (by rfl)
  · exact h3.emptied (by rfl)

theorem State.quiet.mirrorSf (h : s.quiet k t) {a b n : Nat} : (s.mirrorSf a b n).quiet k t := by
  unfold State.mirrorSf
  extract_lets es ws s1
  have h1 : s1.quiet k t := h.foldl fun _ _ hu => hu.sfPut
  exact h1.setLoose.ite h1

theorem State.quiet.spillHc (h : s.quiet k t) {a b n : Nat} : (s.spillHc a b n).quiet k t :=
  h.foldl fun _ _ hu => State.quiet.setFrame (hu.forUp fun _ _ hv => State.quiet.ite hv.readSub.sendMemWr hv)

theorem State.quiet.mirrorHc (h : s.quiet k t) {a b n : Nat} : (s.mirrorHc a b n).quiet k t := h.spillHc.foldl fun _ _ hu => hu.setFrame

theorem State.quiet.mirror (h : s.quiet k t) : s.mirror.quiet k t := by
  unfold State.mirror
  split
  · exact h
  · exact State.quiet.foldl (h.foldl fun _ _ hu => hu.mirrorHc) fun _ _ hu => hu.mirrorSf

theorem State.quiet.migAdvance (h : s.quiet k t) {i : Nat} : (s.migAdvance i).quiet k t := by
  unfold State.migAdvance
  split
  · exact h
  · extract_lets w s1 s2 s3
    have h2 : s2.quiet k t := h.setMig.fset.closeTxn
    have h3 : s3.quiet k t := h2.fset
    refine State.quiet.ite ?_ h2
    split
    · exact h3.modLsl
    · exact h3

theorem State.quiet.migSurplus (h : s.quiet k t) {j i n : Nat} : (s.migSurplus j i n).quiet k t := by
  unfold State.migSurplus
  split
  · extract_lets step s1
    have h1 : s1.quiet k t := by
      refine h.foldl fun u e hu => ?_
      unfold step
      dsimp only
      split
      · next hi => exact State.quiet.admitAt (hu.modTxn (by intro; rfl)) (State.freeTracker_lt hi)
      · exact hu
    split
    · exact h1.mirrorSf.migAdvance.ite h1
    · exact h1
  · exact h

theorem State.quiet.migAct (h : s.quiet k t) {j i : Nat} : (s.migAct j i).quiet k t := by
  unfold State.migAct
  split
  · split
    · refine State.quiet.migAdvance (State.quiet.mirrorHc ?_)
      exact h.hcCheckSet.forUp fun _ _ hu => hu.ite (hu.forUp fun _ _ hv => hv.readSub)
    · exact State.quiet.migSurplus (State.quiet.modTxn h.sfCheckSet (by intro; rfl))
    · exact h.closeTxn
  · exact h.closeTxn
  · exact h

theorem State.quiet.retryMig (h : s.quiet k t) {j : Nat} : (s.retryMig j).quiet k t := by
  refine h.foldl fun u e hu => ?_
  split
  · split
    · exact hu.migSurplus.ite hu
    · exact hu
  · exact hu

/-! ## Tenants and overlays -/

theorem State.quiet.v48ToAll (h : s.quiet k t) {n : Tenant} : (s.v48ToAll n).quiet k t := h.forUp fun _ _ hu => State.quiet.bumpBy (hu.modSlice (by rfl))

theorem State.quiet.tenRegs (h : s.quiet k t) {n : Tenant} : (s.tenRegs n).quiet k t := h.fset.setFlag.setFlag.fset.fset

theorem State.quiet.setPat (h : s.quiet k t) {p : Pattern} : State.quiet { s with pat := p } k t := h.same rfl

theorem State.quiet.setTns (h : s.quiet k t) {x : Tenants} : State.quiet { s with tns := x } k t := h.same rfl

theorem State.quiet.applyOverlay (h : s.quiet k t) {o : Overlay} : (s.applyOverlay o).quiet k t := by
  unfold State.applyOverlay
  extract_lets n old regions s0 s1 s2
  have h0 : s0.quiet k t := by
    unfold s0
    split
    · exact h.ite h.v48ToAll
    · exact h
  have h1 : s1.quiet k t := h0.setPat.tenRegs
  have h2 : s2.quiet k t := h1.ite h1.fset
  exact h2.vectorsOverlay

theorem State.quiet.startCtx1 (h : s.quiet k t) {n : Tenant} {w : BitVec 16} : (s.startCtx1 n w).quiet k t := by
  unfold State.startCtx1
  refine State.quiet.rangeCheck (h.setCtx1.forUp fun j u hu => ?_)
  have h1 {f : Slice → Slice} (hf : (f (u.slice j)).trk = (u.slice j).trk) : (u.modSlice j f).quiet k t := hu.modSlice hf
  exact State.quiet.ite (State.quiet.wakeSlice (h1 rfl)) (h1 rfl)

theorem State.quiet.applyWaiting (n : Nat) (s : State) (h : s.quiet k t) : (s.applyWaiting n).quiet k t := by
  induction n generalizing s with
  | zero => exact h
  | succ n ih =>
    rw [State.applyWaiting]
    split
    · exact h
    · exact State.quiet.ite (h.ite h.startCtx1) (ih _ h.setTns.applyOverlay)

/-! ## Requests turned away -/

theorem State.quiet.turnAway (h : s.quiet k t) {op : BitVec 8} {b : Bool} {m : Msg} (hop : op ≠ Op.seizeNotice) : (s.turnAway op b m).quiet k t := by
  unfold State.turnAway
  refine State.quiet.ite (State.quiet.winUnexecuted (h.send hop)) ?_
  split
  · exact State.quiet.winUnexecuted (h.winOpen.send hop)
  · exact h.send hop

theorem State.quiet.answerWaiting (h : s.quiet k t) {op : BitVec 8} {sel : Txn → Bool} (hop : op ≠ Op.seizeNotice) :
    (s.answerWaiting op sel).quiet k t := by
  refine h.forUp fun j u hu => State.quiet.react (State.quiet.foldl (State.quiet.foldl ?_ fun _ _ hv => hv.turnAway hop) fun _ _ hv => hv.turnAway hop)
  exact hu.modSlice (by rfl)

theorem State.quiet.dropWaiting (h : s.quiet k t) {sel : Txn → Bool} : (s.dropWaiting sel).quiet k t := h.forUp fun _ _ hu => hu.modSlice (by rfl)

theorem State.quiet.discardPort (h : s.quiet k t) {p : Nat} {sel : Tenant → Bool} : (s.discardPort p sel).quiet k t := by
  unfold State.discardPort
  refine State.quiet.foldl (h.foldl fun _ _ hu => hu.dropWaiting.modPort.bump) fun u c hu => ?_
  exact hu.ite (hu.ite hu.dropWaiting.modPort.bump)

theorem State.quiet.answerFences (h : s.quiet k t) {op : BitVec 8} {sel : Tenant → Bool} (hop : op ≠ Op.seizeNotice) :
    (s.answerFences op sel).quiet k t := h.forUp fun _ _ hu => State.quiet.foldl hu.modPort fun _ _ hv => hv.turnAway hop

theorem State.quiet.giveUp (h : s.quiet k t) {j i : Nat} : (s.giveUp j i).quiet k t := h.cancelMemRd.closeTxn

theorem State.quiet.abortClients (h : s.quiet k t) {n : Tenant} : (s.abortClients n).quiet k t := by
  refine h.forUp fun j u hu => hu.foldl fun v e hv => ?_
  dsimp only
  split
  · exact State.quiet.ite (State.quiet.bump (State.quiet.winLose (hv.giveUp.send (by decide : Op.tenantResetting ≠ Op.seizeNotice)))) hv
  · exact hv

theorem State.quiet.abortGathers (h : s.quiet k t) {n : Tenant} : (s.abortGathers n).quiet k t := by
  refine h.forUp fun c u hu => hu.foldl fun v g hv => hv.ite ?_
  extract_lets s1 s2 s3
  have h1 : s1.quiet k t := hv.dropWaiting
  have h2 : s2.quiet k t := by
    refine h1.forUp fun j w hw => hw.foldl fun x e hx => ?_
    split
    · exact hx.giveUp.ite hx
    · exact hx
  clear_value s2
  have h3 : s3.quiet k t := h2.modSlice (by rfl)
  exact State.quiet.bump (State.quiet.winLose (h3.send (by decide : Op.tenantResetting ≠ Op.seizeNotice)))

theorem State.quiet.quiesce (h : s.quiet k t) {n : Tenant} : (s.quiesce n).quiet k t := by
  have hop : Op.tenantResetting ≠ Op.seizeNotice := by decide
  have hfences := State.quiet.answerFences ((h.answerWaiting hop (sel := fun x => x.m.ten == n)).forUp (n := 12) (i := 0)
    fun p u hu => hu.discardPort (p := p) (sel := (· == n))) hop (sel := (· == n))
  exact State.quiet.react (State.quiet.abortClients (State.quiet.abortGathers (hfences.forUp fun _ _ hu => hu.clampQuiesce hop)))

theorem State.quiet.tenantGo (h : s.quiet k t) {n : Tenant} : (s.tenantGo n).quiet k t :=
  h.ite (State.quiet.quiesce (State.quiet.setTns h.fset.fset.setFlag))

theorem State.quiet.safeReact (h : s.quiet k t) : s.safeReact.quiet k t := by
  have hop : Op.homeUnavailable ≠ Op.seizeNotice := by decide
  have hfences := State.quiet.answerFences ((h.answerWaiting hop (sel := fun _ => true)).forUp (n := 12) (i := 0)
    fun p u hu => hu.discardPort (p := p) (sel := fun _ => true)) hop (sel := fun _ => true)
  exact State.quiet.react (State.quiet.jigDisarmAll (hfences.forUp fun _ _ hu => hu.clampQuiesce hop))

theorem State.quiet.invStep {j : Nat} (n : Nat) (s : State) (h : s.quiet k t) : (s.invStep j n).quiet k t := by
  induction n generalizing s with
  | zero => exact h
  | succ n ih =>
    rw [State.invStep]
    split
    · exact h
    · split
      · exact State.quiet.ite (h.modSlice (by rfl)) h
      · extract_lets s0 v s1 s2
        have h0 : s0.quiet k t := h.sfCheckSet
        clear_value s0
        have h1 : s1.quiet k t := h0.modSlice (by rfl)
        have h2 : s2.quiet k t := h1.backInv.ite h1
        exact h.ite (ih _ h2)

/-! ## Power states, warm reset and the reactions -/

theorem State.quiet.pwrCheckAt (h : s.quiet k t) {j : Nat} : (s.pwrCheckAt j).quiet k t := by
  unfold State.pwrCheckAt
  dsimp only
  split
  · exact h.ite (h.modSlice (by rfl))
  · exact State.quiet.ite (h.modSlice (by rfl)) h
  · exact State.quiet.ite (h.modSlice (by rfl)) h
  · exact h.ite (State.quiet.ite (h.modSlice (by rfl)) h)

theorem State.quiet.pwrCheck (h : s.quiet k t) : s.pwrCheck.quiet k t := h.forUp fun _ _ hu => hu.pwrCheckAt.ite hu

theorem State.quiet.flushSlice (h : s.quiet k t) {j : Nat} {b : Time} : (s.flushSlice j b).quiet k t := by
  refine h.foldl fun u e hu => hu.ite (hu.forUp fun i v hv => ?_)
  exact hv.ite hv.readSub.sendMemWr

theorem State.quiet.watchdogsBoot (h : s.quiet k t) : s.watchdogsBoot.quiet k t := by
  unfold State.watchdogsBoot State.cwdStart
  exact State.quiet.modUmv (State.quiet.modUmv h.fset.fset)

theorem State.quiet.warmReset (h : s.quiet k t) : s.warmReset.quiet k t := by
  unfold State.warmReset
  refine h.ite ?_
  extract_lets by_ boot s1 s2 s3 s4 s5
  have h1 : s1.quiet k t := h.same rfl
  have h2 : s2.quiet k t := h1.setFlag.fset.watchdogsBoot
  have h3 : s3.quiet k t := h2.forUp fun _ _ hu => hu.emptied (by rfl)
  have h4 : s4.quiet k t := h3.forUp fun _ _ hu => hu.modPort
  have h5 : s5.quiet k t := h4.forUp fun _ _ hu => hu.clampClear
  exact h5.foldl fun _ _ hu => hu.flushSlice

theorem State.quiet.startTxn (h : s.quiet k t) {j i : Nat} : (s.startTxn j i).quiet k t := by
  unfold State.startTxn
  split
  · exact h
  · refine h.ite ?_
    split
    · exact h.beginReq
    · exact h.beginReq
    · exact h.beginReq
    · exact h.beginReq
    · exact h.beginBackInv
    · exact h.modTxn (by intro; rfl)
    · exact h.beginMaint
    · exact h.beginRange
    · exact h.beginCensus
    · exact h.migAct

theorem State.quiet.pruneBarriers (h : s.quiet k t) : s.pruneBarriers.quiet k t := h.same rfl

theorem State.quiet.perform (h : s.quiet k t) (r : Reaction) : (s.perform r).quiet k t := by
  cases r with
  | fence j c => exact h.fence
  | safe => exact h.safeReact
  | warm => exact h.warmReset
  | tenantReset n => exact h.tenantGo
  | jigSpent c => exact h.jigDisarm
  | portFlush p => exact h.flushWhere
  | admitNext j => exact h.admitChained
  | way j n => exact h.retryWays.retrySurplus.retryMig
  | visible => exact h.pruneBarriers.retryCommits
  | start j i => exact h.startTxn
  | element c g => exact h.gatherStep

theorem State.quiet.setDue (h : s.quiet k t) {l : List Reaction} : State.quiet { s with due := l } k t := h.same rfl

theorem State.quiet.settleN (n : Nat) (s : State) (h : s.quiet k t) : (State.settleN n s).quiet k t := by
  induction n generalizing s with
  | zero => exact h
  | succ n ih =>
    rw [State.settleN]
    split
    · exact h
    · exact ih _ (h.setDue.perform _)

theorem State.quiet.react1 (h : s.quiet k t) : s.react1.quiet k t := State.quiet.settleN _ s h

theorem State.quiet.goOn (h : s.quiet k t) : s.goOn.quiet k t := by
  unfold State.goOn
  refine State.quiet.applyWaiting _ _ (h.forUp fun j u hu => ?_)
  exact State.quiet.ite (State.quiet.invStep _ u hu) hu

theorem State.quiet.settle (h : s.quiet k t) : s.settle.quiet k t := by
  have h1 := h.react1
  have h2 := h1.goOn.react1
  exact h1.ite (h2.ite h2.mirror.evaluate.react1.pwrCheck)

theorem State.quiet.logPorts (h : s.quiet k t) (v : State) : (v.logPorts s).quiet k t := h.forUp fun _ _ hu => hu.umvLog.ite hu

theorem State.quiet.logSlices (h : s.quiet k t) (v : State) : (v.logSlices s).quiet k t := by
  unfold State.logSlices
  refine State.quiet.forUp (State.quiet.forUp (h.forUp fun _ _ hu => hu.ite hu.umvLog) fun _ _ hu => hu.umvLog.ite hu) fun _ _ hu => ?_
  exact State.quiet.ite hu.umvLog hu

theorem State.quiet.logMig (h : s.quiet k t) (v : State) : (v.logMig s).quiet k t := h.ite h.umvLog

/-- What follows a command at once starts no timer of a seizure notice. -/
theorem State.quiet.after (h : u.quiet k t) (v : State) : (v.after u).quiet k t :=
  State.quiet.ite (((h.settle.logPorts v).logSlices v).logMig v) h.settle

end

end Sys2Proof.Machine
end

section
/-!
SNOOP TIMEOUTS (O35). The owner's SeizeNotice that finds no route starts the timer of every copy of the transaction with its line,
node and opcode: the other copy need not stay as it was.
-/
namespace Sys2Proof.Machine

/-! ## The counterexample -/

/-- The owner's copy, whose time is over. -/
def seizedCopy : Copy :=
  { op := Op.snpUnique, line := 0, dst := 5, k := 0, range := false, toOwner := true, rc := false, deadline := 1 }

/-- The other copy: a seizure notice to the same node, not timed. -/
def untimedNotice : Copy :=
  { op := Op.seizeNotice, line := 0, dst := 5, k := 0, range := false, toOwner := false, rc := false, deadline := 0 }

def seizedTxn : Txn :=
  { Txn.new .client (internalMsg 0 0) 0 (.line 0) with phase := .snoop, copies := [seizedCopy, untimedNotice], data := none }

/-- After reset, RST_N deasserted, with the one transaction. -/
def seizedState : State :=
  { State.reset with
    slices := [(0, { Slice.zero with trk := [(2000, some seizedTxn)] })]
    boot := { Boot.zero with rstN := false } }

/-- The copies left once the owner's copy has timed out: the notice's timer runs. -/
theorem copies_of_seizedTimeout : ∃ f y, exec (.snoopTimeoutOwner 0 2000) seizedState = .next f ∧ f.txn 0 2000 = some y ∧
    y.copies = [{ untimedNotice with deadline := 4294967297 }] := by
  have hcopies : (match exec (.snoopTimeoutOwner 0 2000) seizedState with
      | .next f => (f.txn 0 2000).map (·.copies)
      | _ => none) = some [{ untimedNotice with deadline := 4294967297 }] := by decide +kernel
  split at hcopies
  · next f hf =>
    obtain ⟨y, hy, hc⟩ := Option.map_eq_some_iff.mp hcopies
    exact ⟨f, y, hf, hy, hc⟩
  · nomatch hcopies

/-- Refutes O35: the SeizeNotice of the owner's seizure finds no route and starts the timer of the other copy, so the timeout does not
leave that copy as it was. The tracker, 2000, is one that the Shed gives to no waiting request; the statement bounds no tracker. -/
theorem not_snoopTimeouts : ¬ Obligations.SnoopTimeouts := by
  unfold Obligations.SnoopTimeouts
  intro h
  obtain ⟨howner, _⟩ := h seizedState 0 2000 seizedTxn seizedCopy untimedNotice rfl (by decide) rfl rfl (by decide)
  obtain ⟨u, y, hu, hy, hcopies, _⟩ := howner rfl rfl rfl
  obtain ⟨f, z, hf, hz, htimed⟩ := copies_of_seizedTimeout
  have hquiet : u.quiet 0 2000 := by
    refine ⟨by decide, fun x hx c hc _ => ?_⟩
    cases hy.symm.trans hx
    cases List.mem_singleton.mp (hcopies ▸ hc)
    rfl
  have hafter := hquiet.after seizedState
  rw [← Host.Outcome.next.inj (hf.symm.trans hu)] at hafter
  have hzero := hafter.2 z hz _ (htimed ▸ List.mem_singleton.mpr rfl) rfl
  exact absurd hzero (by decide)

end Sys2Proof.Machine
end
